-- ==== Sys2Proof/Word.lean ====
section
/-!
DEFINITION. Word.lean: the word types of the GF8 and their plainest arithmetic.

A register, an address while it is computed and a memory word are bit vectors; counts, indices and
field values already taken out of a register are natural numbers.
-/
namespace Sys2Proof

/-- A register or bus word, 32 bits. -/
abbrev Word := BitVec 32

/-- A byte of memory. -/
abbrev Byte := BitVec 8

/-- CYC and every other 64-bit count (R39). -/
abbrev Word64 := BitVec 64

/-- Bit `i` of a number. -/
def bitOf (n i : Nat) : Bool := n.testBit i

/-- Bits `lo` to `lo + w - 1` of a number. -/
def bitsOf (n lo w : Nat) : Nat := (n >>> lo) % 2 ^ w

/-- 1 for true, 0 for false. -/
def bit01 (b : Bool) : Nat := if b then 1 else 0

/-- `n` with bit `i` set. -/
def setBitOf (n i : Nat) : Nat := if n.testBit i then n else n + 2 ^ i

/-- `n` with bit `i` cleared. -/
def clearBitOf (n i : Nat) : Nat := if n.testBit i then n - 2 ^ i else n

/-- `n` with bit `i` made equal to `b`. -/
def putBitOf (n i : Nat) (b : Bool) : Nat := if b then setBitOf n i else clearBitOf n i

/-- The signed value of the low `w` bits of `n` (two's complement). -/
def signedOf (w n : Nat) : Int :=
  let m := n % 2 ^ w
  if w ≠ 0 ∧ 2 ^ (w - 1) ≤ m then (m : Int) - 2 ^ w else m

/-- The low `w` bits of an integer, as a number. -/
def wrapOf (w : Nat) (z : Int) : Nat := (z % (2 ^ w : Int)).toNat

/-- A count that stops at the largest value of its `w` bits. -/
def satInc (w n : Nat) : Nat := if n + 1 < 2 ^ w then n + 1 else 2 ^ w - 1

/-- A count of `w` bits that wraps. -/
def wrapInc (w n : Nat) : Nat := (n + 1) % 2 ^ w

/-- The four bytes of a word, least significant first (the notation of 00_scope.md: little-endian). -/
def leBytes (k n : Nat) : List Byte := (List.range k).map fun i => BitVec.ofNat 8 (n >>> (8 * i))

/-- The number whose little-endian bytes are given. -/
def ofLeBytes : List Byte → Nat
  | [] => 0
  | b :: bs => b.toNat + 256 * ofLeBytes bs

end Sys2Proof
end

