-- ==== Sys2Proof/Syntax.lean ====
section
/-!
DEFINITION. Syntax.lean: the commands of the block, one constructor of `Instr` per row of opcode_table.json.

A command is an access of a register by an initiator, an operation of a bus or link, or an event on a pin or
of the device's own clocks. What the world outside brings to it (the bits a modulator sent, the level of a pin,
the words of a request, the verdict of a signature check of an outside standard) is an operand; what the
device itself knows stands in `Machine.State`.
-/
namespace Sys2Proof

/-- Who performs a bus access (02 R88: owner identifiers). `met` is the metrology core, `dap` the debug access
port; `le n` and `dma` stand for on-chip initiators without an identifier. -/
inductive Initiator where
  | porchA | porchB | supA | supB | sec | met | dap | dma
  | le (n : Fin 16)
  deriving DecidableEq, Repr

/-- One of the two host ports (R63). -/
inductive HostPort where
  | A | B
  deriving DecidableEq, Repr

/-- One of the two supervisor pairs (01 The engines). -/
inductive Pair where
  | A | B
  deriving DecidableEq, Repr

/-- The other two cores with a debug scope (R909). -/
inductive Core where
  | security | metrology
  deriving DecidableEq, Repr

/-- What became of the value written before, at a clock-domain crossing (R864, R866): it was taken; it was
not, so the later one replaces it; or an event count saturated. -/
inductive Crossing where
  | taken | overrun | overflow
  deriving DecidableEq, Repr

/-- An upset that a memory access meets: the memory, the word and whether its check code can correct it. Main
SRAM words are the 64-bit words of R30, LPS words 64 bits, data-memory words 512 per engine, Attic words 32 bits. -/
inductive Upset where
  | sram (word : Fin 524288) (correctable : Bool)
  | lps (word : Fin 4096)
  | dmem (engine : Fin 16) (word : Fin 512)
  | attic (word : Fin 524288)
  deriving DecidableEq, Repr

/-- A PCI Express memory request (R68, R69): the BAR (BAR2, or else BAR0), a write or a read, the offset of its
first DWORD, the byte enables of each of its DWORDs, the words of a write and the upsets it meets. -/
structure PcieReq where
  bar2 : Bool
  write : Bool
  offset : BitVec 24
  be : List (BitVec 4)
  data : List Word
  upsets : List Upset
  deriving DecidableEq, Repr

/-- The straps sampled at reset release (R63, R39). -/
structure Straps where
  bootS : BitVec 3
  porchA : Bool
  porchB : Bool
  devid : BitVec 2
  deriving DecidableEq, Repr

/-- A parity upset that an issued instruction meets: how many of its operands fail in a row (R352), and the words of
the data memory it reads that fail (R354). -/
structure LeUpset where
  operands : Nat
  words : List (Fin 512)
  deriving DecidableEq, Repr

/-- A point of a PWM unit's carriers: a boundary or mid-period point of the unit carrier, or of the pair carrier of
pair `k` (R369, R374). -/
inductive CarrierPoint where
  | boundary | mid
  | pairBoundary (k : Fin 4)
  | pairMid (k : Fin 4)
  deriving DecidableEq, Repr

/-- An edge of a leg's switch node (R648): the ticks from its start to the boundary at which it is reported, its time between 10 % and
90 % in ns, and VM_SENSE in 0.1 V. -/
structure LegEdge where
  ago : Nat
  ns : Nat
  vm : BitVec 12
  deriving DecidableEq, Repr

/-- What a leg met at a switching period start: the switch-node edges of the period just ended, and the bootstrap voltage GD_VBn −
GD_VSn in 0.1 V behind the refresh pulse of this boundary and behind the low-side interval that ends in the period it starts (R655). -/
structure LegMeasure where
  edges : List LegEdge
  pulse : Byte
  low : Byte
  deriving DecidableEq, Repr

/-- A bootstrap supply that has stayed at a voltage for 200 ns (R654): its leg and GD_VBn − GD_VSn in 0.1 V. -/
structure LegSupply where
  leg : Fin 12
  dv : Byte
  deriving DecidableEq, Repr

/-- A drain-source voltage that has stood long enough to be detected (R667, R668): of the high side, or else of the low side, in mV. -/
structure DrainDrop where
  high : Bool
  mv : BitVec 17
  deriving DecidableEq, Repr

/-- What a PORTS frame of the lead gives a follower's port (R758, R774): the phase, the port ticks since its entry, since START_CHECK until
phase 5, since START_PRECHARGE until phase 7 and in the window of R506, and the commanded enables. -/
structure PortCopy where
  phase : Nat
  ticks : Nat
  check : Option Nat
  pre : Option Nat
  opening : Option Nat
  cdoA : Bool
  cdoB : Bool
  deriving DecidableEq, Repr

/-- A STATE frame (R758, R770): set cycle, STATE and join phase of the sender, TAKEOVER_READY, its role, digests, readback
mismatch, reads of each stream in the cycle before, the members it held frames from at its last vote; from a lead, the exclusions it
decided; its configuration digest (R795). -/
structure StateFrame where
  k : Word
  state : BitVec 2
  phase : BitVec 3
  ready : Bool
  role : BitVec 3
  form : Word
  duty : Word
  trip : Word
  rb : Bool
  reads : Vector Nat 8
  view : BitVec 3
  excluded : BitVec 3
  config : Word
  deriving DecidableEq, Repr

/-- A line whose edges read back otherwise than computed in a set cycle (R776): PWM_O(8n + i) or CP_Op, with the largest deviation in ps;
none for an edge that is missing or that no computed one belongs to. -/
inductive RbLine where
  | pwm (n : Fin 16) (i : Fin 8) (dev : Option Nat)
  | cp (p : Fin 8) (dev : Option Nat)
  deriving DecidableEq, Repr

/-- The mode of the lead at a mode tick (R774), and the entry cause of a transition to READY that it holds for its ports (R52, R56). -/
structure LeadMode where
  mode : Fin 8
  prev : BitVec 4
  cause : Byte
  ramp : Option Byte := none
  deriving DecidableEq, Repr

/-- A state word that a COPY frame carries (R796): of an engine, its registers, data memory, set-point buffers, port values,
blend, state and divider count; of a Form Unit, its state variables (θ, ω, ω_w, p_e, q_e, E, the four NOW set points, Δf_s)
and the extraction of a slot. -/
inductive CopyWord where
  | g (n : Fin 16) (r : Fin 64) (v : Word)
  | data (n : Fin 16) (w : Fin 512) (v : Word)
  | spBack (n : Fin 16) (s : Fin 8) (v : Word)
  | spFront (n : Fin 16) (s : Fin 8) (v : Word)
  | spValue (n : Fin 16) (s : Fin 8) (v : Word)
  | last (n : Fin 16) (j : Fin 8) (v : Word)
  | blend (n : Fin 16) (j : Fin 8) (lastB : Word) (tb : Word64)
  | state (n : Fin 16) (st : Fin 6)
  | events (n : Fin 16) (k : Nat)
  | form (u : Fin 2) (var : Fin 11) (v : Rat)
  | slot (u : Fin 2) (k : Fin 24) (re im : Rat)
  deriving DecidableEq, Repr

/-- A frame that a lane sends, beyond its link sequence number (R758). -/
inductive TwFrame where
  | idle (cyc : Word)
  | state (f : StateFrame)
  | fault (m : Fin 3) (self : Bool) (cause : Byte) (src : Fin 64)
  | swap (target : Fin 3) (k : Word)
  | ports (p : Vector PortCopy 8)
  | copy (w : CopyWord)
  | xfer (addr : Word) (data : List Byte)
  | ping (at_ : Word64)
  | echo (at_ : Word64)
  | cycmark (cyc : Word64)
  deriving DecidableEq, Repr

/-- The redundancy trailer or tag of a frame (R812, R815): none, a PRP trailer with its LAN ID (B, or else A) and sequence
number, an HSR tag with its sequence number. -/
inductive RedTag where
  | none
  | prp (lanB : Bool) (seq : BitVec 16)
  | hsr (seq : BitVec 16)
  deriving DecidableEq, Repr

/-- What a PTP message is to the switch: no PTP frame; a Sync; another event message; one of the peer delay messages of R810;
a general message; and whether it came over UDP/IPv4 to port 319 or 320 (R819). -/
inductive PtpKind where
  | none | sync | event | pdelay | general
  deriving DecidableEq, Repr

/-- A received Ethernet frame, taken apart: addresses, trailer or tag, EtherType behind the tags, PTP kind and transport,
whether it is a supervision frame, whether its FCS holds, its bytes without FCS, trailer and tag. -/
structure EthFrame where
  dst : BitVec 48
  src : BitVec 48
  red : RedTag
  etype : BitVec 16
  ptp : PtpKind
  udp : Bool
  supervision : Bool
  fcsOk : Bool
  bytes : List Byte
  deriving DecidableEq, Repr

/-- What the SGMII line of a port reports: code-group synchronisation, and a completed negotiation (R807). -/
structure LinkSense where
  sync : Bool := false
  done : Bool := false
  deriving DecidableEq, Repr

/-- A Sync, a Follow_Up or a Pdelay_Req (R826, R829): clock and port identity, domain, sequence number, two-step flag, origin time (48-bit seconds
and nanoseconds) and correctionField in 2^−16 ns. -/
structure PtpMsg where
  clock : BitVec 64
  port : BitVec 16
  domain : Byte
  seq : BitVec 16
  twoStep : Bool
  s : BitVec 48
  ns : BitVec 32
  corr : BitVec 64
  deriving DecidableEq, Repr

/-- The commands, in the table's order. -/
inductive Instr where
  /-- `REGISTER_WRITE` (R103). A write to a register field without a row of its own is checked (clock, lock, key, mode) and then takes effect or is staged as its access code says. Operands: a write of a register of the register window. -/
  | registerWrite (ini : Initiator) (addr v : Word) (x : Crossing)
  /-- `READ_CLEAR` (R1). A read of an RC field returns its state and clears it to its reset value. -/
  | readClear (ini : Initiator) (addr : Word)
  /-- `SHADOW_COMMIT` (R105). A write of 1 to SHADOW_COMMIT checks the staged fields for range and consistency, and either refuses the commit or accepts it and sets COMMIT_PENDING. Operands: on page number `pg`. -/
  | shadowCommit (ini : Initiator) (pg : BitVec 12)
  /-- `PAGE_LOCK` (R100). A write of 1 to PAGE_LOCK.LOCKED locks the page's RWL fields until reset. -/
  | pageLock (ini : Initiator) (pg : BitVec 12)
  /-- `KEY_TAKE` (R88). A read of KEYRACK.KEYn grants the key to the reader if it is free or already held by the reader, and returns GRANTED, HELD and HOLDER. -/
  | keyTake (ini : Initiator) (n : Fin 64)
  /-- `KEY_RELEASE` (R90). A write to KEYRACK.KEYn by the holder releases the key; a write by another initiator is refused with 0x01. -/
  | keyRelease (ini : Initiator) (n : Fin 64)
  /-- `RELEASE_MINE` (R99). A write of RELEASE_MINE.GO releases every key that the writer holds. -/
  | releaseMine (ini : Initiator)
  /-- `FORCE_RELEASE` (R94). A write of FORCE_RELEASE with GO from a host port or the security core releases the named key and counts it. -/
  | forceRelease (ini : Initiator) (n : Fin 64)
  /-- `STAMP_READ` (R790). A read of REDUN.STAMPs returns the RSEQ of the stream and advances its index in the set cycle. -/
  | stampRead (ini : Initiator) (s : Fin 8)
  /-- `CYC_LO_READ` (R39). A read of SYS.CYC_LO returns CYC[31:0] and snapshots CYC[63:32] into CYC_HI. -/
  | cycLoRead (ini : Initiator)
  /-- `NEXT_SEQ_LO_READ` (R589). A read of METRO.NEXT_SEQ_LO snapshots NEXT_SEQ_HI. -/
  | nextSeqLoRead (ini : Initiator)
  /-- `IMP_LO_READ` (R589). A read of METRO.IMPm_LO snapshots IMPm_HI, EXPm_LO and EXPm_HI from the same sample. -/
  | impLoRead (ini : Initiator) (m : Fin 9)
  /-- `TIME_NS_READ` (R844). A read of PTP.TIME_NS snapshots TIME_S_LO and TIME_S_HI. -/
  | timeNsRead (ini : Initiator)
  /-- `OFFSET_LO_READ` (R844). A read of PTP.OFFSET_LO snapshots OFFSET_HI. -/
  | offsetLoRead (ini : Initiator)
  /-- `JUMP_PEND_LO_READ` (R844). A read of PTP.JUMP_PEND_LO snapshots JUMP_PEND_HI. -/
  | jumpPendLoRead (ini : Initiator)
  /-- `PCIE_REQUEST` (R69). A PCI Express request on BAR0 or BAR2 is checked for size, alignment and region and served DWORD by DWORD, with errors logged once per request. -/
  | pcieRequest (p : HostPort) (r : PcieReq)
  /-- `PCIE_LINK_UP` (R86). The PCI Express link trains and its data link layer becomes active, setting LINK.UP and SPEED. -/
  | pcieLinkUp (p : HostPort) (gen2 : Bool)
  /-- `PCIE_LINK_DOWN` (R70). A hot reset or link-down aborts the port's outstanding requests, releases its keys and sets LINK_CHANGE. -/
  | pcieLinkDown (p : HostPort)
  /-- `QSPI_READ` (R75). A quad-SPI READ frame reads words from successive addresses, each preceded by wait and sync bytes, for as long as the host clocks. Operands: `words` words are clocked; `abandoned`: CS_N rises while a further word is pending (R78). -/
  | qspiRead (p : HostPort) (addr : Word) (words : Nat) (abandoned : Bool) (upsets : List Upset)
  /-- `QSPI_WRITE` (R77). A quad-SPI WRITE frame writes up to 16 words, each after its fourth data byte, discarding misaligned, partial or excess data with errors. -/
  | qspiWrite (p : HostPort) (addr : Word) (bytes : List Byte) (upsets : List Upset)
  /-- `QSPI_STATUS` (R73). A quad-SPI STATUS frame returns PORCHn.ERR_CODE without a bus access and without clearing it. -/
  | qspiStatus (p : HostPort)
  /-- `QSPI_ID` (R73). A quad-SPI ID frame returns SYS.DEVICE_ID from inside the port. -/
  | qspiId (p : HostPort)
  /-- `RELEASE_ALL` (R73). A quad-SPI RELEASE_ALL frame releases every key held by the port and clears ERR_CODE. -/
  | releaseAll (p : HostPort)
  /-- `QSPI_UNKNOWN_COMMAND` (R73). A quad-SPI frame with an unlisted command byte sets error code 0x5 and is ignored until CS_N rises. -/
  | qspiUnknownCommand (p : HostPort) (code : Byte)
  /-- `HOST_ACCESS_TIMEOUT` (R80). A host access not completed within 100 µs ends with an error response and logs error code 0x1. -/
  | hostAccessTimeout (p : HostPort)
  /-- `EOI` (R113). A write of IRQ.EOIt ends service and re-arms the MSI of the target. -/
  | eoi (ini : Initiator) (t : Fin 4)
  /-- `DOORBELL` (R114). A write of IRQ.DOORBELL sets doorbell source SRC, or is refused with 0x03 below 192. -/
  | doorbell (ini : Initiator) (src : Byte)
  /-- `MODE_REQUEST` (R44). A write of SYS.MODE_REQ under KEY0 starts a mode request, refused where the transition is not listed, its condition is false or a transition is busy. -/
  | modeRequest (ini : Initiator) (target : BitVec 4)
  /-- `MODE_TICK` (R44). Every 1 µs the mode machine evaluates pending requests and hardware events and makes at most one transition. Operands: the mode, PREV_MODE and ENTRY_CAUSE that the lead of the set has at this tick; looked at in a follower only (R774). -/
  | modeTick (lead : Option LeadMode)
  /-- `SYNC_TIMEOUT` (R207). The SYNC_TIMEOUT of a unit in use expires and the mode goes from SYNC to READY with cause 0x22. -/
  | syncTimeout (n : Fin 2)
  /-- `READY_AFTER_PORTS_OFF` (R52). When the last port reaches OFF during a transition to READY, the mode changes to READY. -/
  | readyAfterPortsOff
  /-- `DIE_LINK_LOSS` (R18). Four consecutive missing or failed inter-die frames declare the link lost; gates go low, inputs read de-energised and DIE_LINK fires. -/
  | dieLinkLoss
  /-- `DIE_LINK_RESTORE` (R22). The inter-die link returns, with gate outputs and test pulses kept off until the GDRV and SAFEIO pages are recommitted. -/
  | dieLinkRestore
  /-- `LOCKSTEP_MISMATCH` (R25). A supervisor pair lock-step mismatch halts the pair, fires SUP_LOCKSTEP and, from CONFIG on, enters SAFE_STOP with cause 0x12. -/
  | lockstepMismatch (p : Pair)
  /-- `BOOT_COMPLETE` (R900). All boot images pass, the cores start their images, R28 takes effect and the mode goes to CONFIG. Operands: the directory entries of slot A and of slot B whose image the flash fails to bring. -/
  | bootComplete (badA badB : List (Fin 16))
  /-- `BOOT_FAIL` (R902). A failed boot leaves the device in BOOT with RECOVERY set, the failure recorded and BOOT_FAIL routed to both host ports. Operands: `otpOk`: the lifecycle and the UID could be read; the directory entries of slot A and of slot B whose image the flash fails to bring. -/
  | bootFail (otpOk : Bool) (badA badB : List (Fin 16))
  /-- `FORM_UPDATE` (R148). Every PERIOD ticks the Form Unit samples inputs, applies a commit, integrates the source model and publishes its state and words 3 to 7. -/
  | formUpdate (n : Fin 2)
  /-- `FORM_INPUT_LOST` (R127). An input whose result has not advanced for STALE_LIM updates is lost. -/
  | formInputLost (n : Fin 2) (k : Fin 18)
  /-- `ANGLE_LIMIT_TIMEOUT` (R164). ANGLE_LIMIT held for ALIM_TIME puts the unit in FAULT with cause 0x03. -/
  | angleLimitTimeout (n : Fin 2)
  /-- `SLOT_DECAY_END` (R171). The 10 ms linear decay of an inactivated slot's correction ends at zero. -/
  | slotDecayEnd (n : Fin 2) (k : Fin 24)
  /-- `GRID_PRESENT` (R191). The grid becomes present after 40 ms of updates within the magnitude and frequency windows. -/
  | gridPresent (n : Fin 2)
  /-- `CLOSE_PERMIT_GRANT` (R201). After 40 ms inside every synchronisation window the unit grants close permission. -/
  | closePermitGrant (n : Fin 2)
  /-- `LE_TRIGGER` (R246). A source event is counted by the engine's divider and, when selected, starts a run or is held pending. -/
  | leTrigger (n : Fin 16)
  /-- `LE_RUN_START` (R256). At a run start the engine copies slots and set points, updates AGE and ramps, evaluates staleness and issues the first instruction. -/
  | leRunStart (n : Fin 16)
  /-- `SP_TARGET_WRITE` (R266). A write of SPs.TARGET reaches the back buffer and takes effect at the next snapshot. Operands: `portToo`: an output port wrote the same slot in the same cycle. -/
  | spTargetWrite (ini : Initiator) (n : Fin 16) (s : Fin 8) (v : Word) (portToo : Bool)
  /-- `COEF_SWAP` (R291). A write of CTRL.COEF_SWAP in CLOSED requests a coefficient copy from COEF_STAGE and enters OPEN at the end of the run. -/
  | coefSwap (ini : Initiator) (n : Fin 16)
  /-- `COEF_COPY_DONE` (R293). The coefficient copy completes, COEF_MASTER takes COEF_STAGE and the next run is a tracking run. -/
  | coefCopyDone (n : Fin 16)
  /-- `RESUME` (R264). A write of CTRL.RESUME leaves FALLBACK when no watched slot is stale. -/
  | resume (ini : Initiator) (n : Fin 16)
  /-- `NOP` (R328). Occupies 1 + IMM[7:0] cycles with no result. Operands: engine `n` issues it; the upsets it meets. -/
  | nop (n : Fin 16) (up : LeUpset)
  /-- `MOV` (R328). Copies operand A into Gd. Operands: engine `n` issues it; the upsets it meets. -/
  | mov (n : Fin 16) (up : LeUpset)
  /-- `SEL` (R328). Writes A or B into Gd by a predicate. Operands: engine `n` issues it; the upsets it meets. -/
  | sel (n : Fin 16) (up : LeUpset)
  /-- `FCMP` (R328). Compares two floats and writes the result into a predicate. Operands: engine `n` issues it; the upsets it meets. -/
  | fcmp (n : Fin 16) (up : LeUpset)
  /-- `QCMP` (R328). Compares two Q31 values and writes the result into a predicate. Operands: engine `n` issues it; the upsets it meets. -/
  | qcmp (n : Fin 16) (up : LeUpset)
  /-- `PLOG` (R328). Combines two predicates into a third. Operands: engine `n` issues it; the upsets it meets. -/
  | plog (n : Fin 16) (up : LeUpset)
  /-- `LD` (R328). Loads a data-memory word into Gd. Operands: engine `n` issues it; the upsets it meets. -/
  | ld (n : Fin 16) (up : LeUpset)
  /-- `ST` (R328). Stores A into a data-memory word. Operands: engine `n` issues it; the upsets it meets. -/
  | st (n : Fin 16) (up : LeUpset)
  /-- `FADD` (R328). Float addition into Gd. Operands: engine `n` issues it; the upsets it meets. -/
  | fadd (n : Fin 16) (up : LeUpset)
  /-- `FSUB` (R328). Float subtraction into Gd. Operands: engine `n` issues it; the upsets it meets. -/
  | fsub (n : Fin 16) (up : LeUpset)
  /-- `FMUL` (R328). Float multiplication into Gd. Operands: engine `n` issues it; the upsets it meets. -/
  | fmul (n : Fin 16) (up : LeUpset)
  /-- `FMAC` (R328). Fused float multiply-add into Gd. Operands: engine `n` issues it; the upsets it meets. -/
  | fmac (n : Fin 16) (up : LeUpset)
  /-- `FMIN` (R328). Float minimum into Gd. Operands: engine `n` issues it; the upsets it meets. -/
  | fmin (n : Fin 16) (up : LeUpset)
  /-- `FMAX` (R328). Float maximum into Gd. Operands: engine `n` issues it; the upsets it meets. -/
  | fmax (n : Fin 16) (up : LeUpset)
  /-- `FCLAMP` (R328). Clamps A between B and C into Gd. Operands: engine `n` issues it; the upsets it meets. -/
  | fclamp (n : Fin 16) (up : LeUpset)
  /-- `FABS` (R328). Float absolute value into Gd. Operands: engine `n` issues it; the upsets it meets. -/
  | fabs (n : Fin 16) (up : LeUpset)
  /-- `FNEG` (R328). Float negation into Gd. Operands: engine `n` issues it; the upsets it meets. -/
  | fneg (n : Fin 16) (up : LeUpset)
  /-- `FDIV` (R328). Float division into Gd in 8 cycles. Operands: engine `n` issues it; the upsets it meets. -/
  | fdiv (n : Fin 16) (up : LeUpset)
  /-- `FSQRT` (R328). Float square root into Gd in 8 cycles. Operands: engine `n` issues it; the upsets it meets. -/
  | fsqrt (n : Fin 16) (up : LeUpset)
  /-- `QADD` (R328). Saturating Q31 addition into Gd. Operands: engine `n` issues it; the upsets it meets. -/
  | qadd (n : Fin 16) (up : LeUpset)
  /-- `QSUB` (R328). Saturating Q31 subtraction into Gd. Operands: engine `n` issues it; the upsets it meets. -/
  | qsub (n : Fin 16) (up : LeUpset)
  /-- `QMUL` (R326). Rounded saturating Q31 multiplication into Gd. Operands: engine `n` issues it; the upsets it meets. -/
  | qmul (n : Fin 16) (up : LeUpset)
  /-- `QMAC` (R326). Saturating Q31 multiply-add into Gd. Operands: engine `n` issues it; the upsets it meets. -/
  | qmac (n : Fin 16) (up : LeUpset)
  /-- `QSHL` (R328). Saturating Q31 left shift into Gd. Operands: engine `n` issues it; the upsets it meets. -/
  | qshl (n : Fin 16) (up : LeUpset)
  /-- `QSHR` (R328). Arithmetic Q31 right shift into Gd. Operands: engine `n` issues it; the upsets it meets. -/
  | qshr (n : Fin 16) (up : LeUpset)
  /-- `QABS` (R328). Saturating Q31 absolute value into Gd. Operands: engine `n` issues it; the upsets it meets. -/
  | qabs (n : Fin 16) (up : LeUpset)
  /-- `I2F` (R327). Converts a signed integer to binary32 scaled by 2^−IMM. Operands: engine `n` issues it; the upsets it meets. -/
  | i2f (n : Fin 16) (up : LeUpset)
  /-- `Q2F` (R327). Converts Q31 to binary32. Operands: engine `n` issues it; the upsets it meets. -/
  | q2f (n : Fin 16) (up : LeUpset)
  /-- `F2Q` (R327). Converts binary32 to saturated Q31. Operands: engine `n` issues it; the upsets it meets. -/
  | f2q (n : Fin 16) (up : LeUpset)
  /-- `SINCOS` (R329). Writes sin A and cos A into Gd and Gd+1 in 12 cycles. Operands: engine `n` issues it; the upsets it meets. -/
  | sincos (n : Fin 16) (up : LeUpset)
  /-- `CLARKE` (R330). Forms α and β from three phase values. Operands: engine `n` issues it; the upsets it meets. -/
  | clarke (n : Fin 16) (up : LeUpset)
  /-- `ICLARKE` (R330). Forms three phase values from α and β. Operands: engine `n` issues it; the upsets it meets. -/
  | iclarke (n : Fin 16) (up : LeUpset)
  /-- `PARK` (R331). Forms d and q from α, β and sin/cos θ. Operands: engine `n` issues it; the upsets it meets. -/
  | park (n : Fin 16) (up : LeUpset)
  /-- `IPARK` (R331). Forms α and β from d, q and sin/cos θ. Operands: engine `n` issues it; the upsets it meets. -/
  | ipark (n : Fin 16) (up : LeUpset)
  /-- `INTEG` (R333). Saturating integrator with start and tracking presets. Operands: engine `n` issues it; the upsets it meets. -/
  | integ (n : Fin 16) (up : LeUpset)
  /-- `RESON` (R335). Resonant term updating two state words. Operands: engine `n` issues it; the upsets it meets. -/
  | reson (n : Fin 16) (up : LeUpset)
  /-- `RLIM` (R336). Rate limiter on a state word. Operands: engine `n` issues it; the upsets it meets. -/
  | rlim (n : Fin 16) (up : LeUpset)
  /-- `OUT` (R271). Writes A to an output port, which clamps, blends and delivers it to a PWM compare or a set-point slot. Operands: engine `n` issues it; the upsets it meets. -/
  | out (n : Fin 16) (up : LeUpset)
  /-- `END` (R313). Ends the run. Operands: engine `n` issues it; the upsets it meets. -/
  | endRun (n : Fin 16) (up : LeUpset)
  /-- `LPS_REFETCH` (R348). A fetch parity error stalls 40 cycles while the word is reread from its master image, rewritten and issued. Operands: `again`: the word read from the master image fails too. -/
  | lpsRefetch (n : Fin 16) (again : Bool)
  /-- `LOAD` (R340). A write of LPS.LOAD_CMD with GO starts a LOAD of banks from a master image, or is refused. -/
  | load (ini : Initiator) (first : BitVec 4) (count : BitVec 5)
  /-- `LOAD_DONE` (R341). A LOAD completes its copy and check, sets RESULT, WORD, VALID and BANKMASTER, and raises LOAD_DONE or LOAD_FAIL. -/
  | loadDone
  /-- `LIB_COPY` (R346). A write of LPS.LIB_CMD with GO copies a library program into Main SRAM. -/
  | libCopy (ini : Initiator) (id : Byte)
  /-- `LIB_DONE` (R346). The library copy completes and sets RESULT, WORDS and LIB_DONE. -/
  | libDone
  /-- `INJECT` (R356). A write of LPS.INJECT arms a parity error on the next access of a kind by an engine. -/
  | inject (ini : Initiator) (v : Word)
  /-- `PWM_CARRIER_EVENT` (R369). A PWM unit reaches a period boundary or mid-period point, emitting its event. -/
  | pwmCarrierEvent (n : Fin 16) (pt : CarrierPoint)
  /-- `PWM_SYNC_EVENT` (R373). A trigger-bus edge or time event ends the period in progress and starts a new one. -/
  | pwmSyncEvent (n : Fin 16)
  /-- `CMP_WRITE` (R364). A write of PWMn.CMPc stages a compare value for the next load point. Operands: `portToo`: a duty port delivered to the same compare in the same cycle. -/
  | cmpWrite (ini : Initiator) (n : Fin 16) (c : Fin 8) (v : Word) (portToo : Bool)
  /-- `ROOT_CLOCK_LOSS` (R394). Loss of the 25 MHz root is declared and drives every unit safe through the asynchronous path and sets CLK_SAFE. -/
  | rootClockLoss
  /-- `ROOT_LOSS_SAFE_LEVEL` (R394). After the fixed 500 to 550 ns delay, outputs whose safe level is active are driven to it. -/
  | rootLossSafeLevel
  /-- `ROOT_LOSS_RESET` (R869). A root absent for 1 ms resets the device with cause 0x05. -/
  | rootLossReset
  /-- `TRIP_INPUT_EDGE` (R401). A TRIP_I pin holds its level for the filter time and its source changes state. Operands: the level the pin held for the filter time. -/
  | tripInputEdge (p : Fin 16) (level : Bool)
  /-- `FUSE_SOURCE_ACTIVE` (R404). An enabled source becoming active while armed sets its latch and unit trips, forcing mapped units safe. Operands: `overtemp`: the temperature sensor reads above 130 °C (looked at for source 62 only). -/
  | fuseSourceActive (src : Fin 64) (overtemp : Bool)
  /-- `CLEAR_SOURCE` (R410). A 1 written to CLEAR_LO or CLEAR_HI clears an inactive source's latch, or is refused and counted. -/
  | clearSource (ini : Initiator) (hi : Bool) (mask : Word)
  /-- `CLEAR_UNIT` (R411). A 1 written to CLEAR_UNIT clears a unit latch when no set source latch maps to it, or is refused and counted. -/
  | clearUnit (ini : Initiator) (mask : BitVec 16)
  /-- `SAR_REGULAR_TRIGGER` (R427). A regular trigger starts the regular sequence or is held pending or discarded. -/
  | sarRegularTrigger (u : Fin 6)
  /-- `SAR_INJECTED_TRIGGER` (R432). An injected trigger starts the injected sequence, aborting or waiting for a regular conversion. -/
  | sarInjectedTrigger (u : Fin 6)
  /-- `SWTRIG_REG` (R440). A write of CTRL.SWTRIG_REG triggers the regular sequence. -/
  | swtrigReg (ini : Initiator) (u : Fin 6)
  /-- `SWTRIG_INJ` (R440). A write of CTRL.SWTRIG_INJ triggers the injected sequence. -/
  | swtrigInj (ini : Initiator) (u : Fin 6)
  /-- `SAR_CONVERSION_COMPLETE` (R420). A SAR conversion reaches its conversion complete instant and the next conversion starts. Operands: the raw code; of the pilot lines that this member does not drive, those of which it is a high sample and those of which it is a low one. -/
  | sarConversionComplete (u : Fin 6) (code : BitVec 12) (hi lo : BitVec 8)
  /-- `DSF_WINDOW_END` (R451). A DSF channel ends its decimation window and writes its result to every destination as a completion event. Operands: the bits captured since the last command of the channel; the period of a received modulator clock, in steps of 31.25 ps. -/
  | dsfWindowEnd (b : Fin 6) (c : Fin 8) (bits : List Bool) (ck : Nat)
  /-- `DSF_STUCK` (R458). The 64th consecutive identical bit makes a channel STUCK and invalid. Operands: the bits captured since the last command of the channel. -/
  | dsfStuck (b : Fin 6) (c : Fin 8) (bits : List Bool)
  /-- `DSF_STUCK_END` (R458). The first differing bit ends the STUCK condition and starts settling. Operands: the bits captured since the last command of the channel. -/
  | dsfStuckEnd (b : Fin 6) (c : Fin 8) (bits : List Bool)
  /-- `DSF_NO_CLK` (R459). No clock edge for four nominal periods makes a bank's channels NO_CLK and invalid. -/
  | dsfNoClk (b : Fin 6)
  /-- `DSF_CLOCK_RETURN` (R459). Clock edges return, ending NO_CLK and restarting the window count and settling. -/
  | dsfClockReturn (b : Fin 6)
  /-- `CMP_DECISION` (R464). A fast comparator's CMP_OUT changes after COUNT consecutive evaluations. Operands: the bits captured since the last command of the channel. -/
  | cmpDecision (b : Fin 6) (c : Fin 8) (bits : List Bool)
  /-- `PORT_TICK` (R481). Every 100 µs each port sequencer evaluates inputs, commands and timers, changes phase, writes targets and drives enables. Operands: the levels read back at the CDO outputs. -/
  | portTick (rbA rbB : BitVec 8)
  /-- `START_CHECK` (R496). The command starts the cable check from OFF when its conditions hold. -/
  | startCheck (ini : Initiator) (p : Fin 8)
  /-- `START_PRECHARGE` (R496). The command moves the port from CC_PASSED to PRE_RAMP. -/
  | startPrecharge (ini : Initiator) (p : Fin 8)
  /-- `START_ENERGY` (R496). The command moves the port from PRE_MATCHED to EN_RUN. -/
  | startEnergy (ini : Initiator) (p : Fin 8)
  /-- `PORT_STOP` (R496). The STOP command gives the port stop cause 1. -/
  | portStop (ini : Initiator) (p : Fin 8)
  /-- `ACK_FAULT` (R496). The command returns a port from F_OPEN to OFF. -/
  | ackFault (ini : Initiator) (p : Fin 8)
  /-- `FORCE_FAULT` (R496). The command puts the port in FAULT with cause 0x0C. -/
  | forceFault (ini : Initiator) (p : Fin 8)
  /-- `CLEAR_WELD` (R496). The command clears WELDED in CONFIG with the feedback open. -/
  | clearWeld (ini : Initiator) (p : Fin 8)
  /-- `CHTEST_EXPIRY` (R503). CHTEST_MS of one channel test ends, switching from A to B or to CC_CLOSE. -/
  | chtestExpiry (p : Fin 8)
  /-- `CLOSE_DEADLINE` (R505). CLOSE_MS expires without closure and the port faults with cause 0x04. -/
  | closeDeadline (p : Fin 8)
  /-- `OPEN_DEADLINE` (R506). OPEN_MS expires without opening, faulting with cause 0x04 and setting WELDED. -/
  | openDeadline (p : Fin 8)
  /-- `VOLTAGE_MATCH_HOLD` (R492). V_OUT held within V_TOL for 10 ms moves CC_RAMP or PRE_RAMP on. -/
  | voltageMatchHold (p : Fin 8)
  /-- `CC_HOLD_EXPIRY` (R492). CC_HOLD_MS elapses and the port enters CC_PASSED. -/
  | ccHoldExpiry (p : Fin 8)
  /-- `CC_DEADLINE` (R511). CC_MS expires before phase 5 and the port faults with cause 0x02. -/
  | ccDeadline (p : Fin 8)
  /-- `PRE_DEADLINE` (R511). PRE_MS expires before phase 7 and the port faults with cause 0x03. -/
  | preDeadline (p : Fin 8)
  /-- `STOP_DEADLINE` (R511). STOP_MS expires before phase 10 and the port faults with cause 0x0F. -/
  | stopDeadline (p : Fin 8)
  /-- `WELD_DEADLINE` (R509). WELD_MS expires with V_OUT above V_SAFE, faulting with cause 0x05 and setting WELDED. -/
  | weldDeadline (p : Fin 8)
  /-- `OPEN_DELAY_EXPIRY` (R513). OPEN_DELAY_MS expires in FAULT and both enables fall. -/
  | openDelayExpiry (p : Fin 8)
  /-- `INSULATION_FAULT_HOLD` (R511). Insulation class FAULT held for 10 ms faults the port with cause 0x01. -/
  | insulationFaultHold (p : Fin 8)
  /-- `PLUG_LOSS_HOLD` (R511). PLUG_OK 0 held for 10 ms faults the port with cause 0x07. -/
  | plugLossHold (p : Fin 8)
  /-- `PORT_VALUE_WRITE` (R532). A write of CC_V, CC_END_V, PRE_V, I_SET or V_LIM is checked at once and used from the next port tick. Operands: `r`: CC_V, CC_END_V, PRE_V, I_SET, V_LIM. -/
  | portValueWrite (ini : Initiator) (p : Fin 8) (r : Fin 5) (v : Word)
  /-- `PILOT_GEN_WRITE` (R519). A write of PILOT.CHp.GEN is held until the next pilot period start. -/
  | pilotGenWrite (ini : Initiator) (p : Fin 8) (v : Word)
  /-- `PILOT_PERIOD_START` (R518). Every 1 ms the pilot generator starts a period, applying the last GEN write. -/
  | pilotPeriodStart
  /-- `PILOT_PERIOD_END` (R524). At a period end the pilot block averages its samples and classifies the period. -/
  | pilotPeriodEnd
  /-- `METRO_SAMPLE` (R542). At each 25 µs sample instant the datapath forms each meter's power and accumulates energy. Operands: the bits of each metrology channel since the last sample instant; none where the clock is absent. -/
  | metroSample (bits : List (List Bool))
  /-- `BEGIN` (R564). The command opens a metering session and writes SESSION_BEGIN. -/
  | begin (ini : Initiator) (m : BitVec 4)
  /-- `PANTRY_END` (R564). The END command closes a session and writes SESSION_END. -/
  | pantryEnd (ini : Initiator) (m : BitVec 4)
  /-- `READING` (R564). The command writes a READING record of a meter. -/
  | reading (ini : Initiator) (m : BitVec 4)
  /-- `CAL_LOAD` (R548). The command loads a calibration block from Main SRAM in PROVISIONED. -/
  | calLoad (ini : Initiator)
  /-- `RECORD_WRITTEN` (R566). A record is written to the Pantry and verified, completing its command. -/
  | recordWritten (ok : Bool)
  /-- `PANTRY_REWRITE_RETRY` (R573). Every 100 ms a rewrite is attempted and FAULT clears on success. -/
  | pantryRewriteRetry (ok : Bool)
  /-- `RDID_RETRY` (R571). Every 100 ms a failed RDID is retried. -/
  | rdidRetry (density : Option (Fin 3))
  /-- `PANTRY_READY` (R571). The partition completes RDID and header checks and sets READY. -/
  | pantryReady (density : Option (Fin 3))
  /-- `ACK_SEQ_WRITE` (R574). A write of ACK_SEQ_LO takes the pair with ACK_SEQ_HI as the acknowledged SEQ, or is refused. -/
  | ackSeqWrite (ini : Initiator) (v : Word)
  /-- `READ_SEQ_WRITE` (R578). A write of READ_SEQ_LO starts a record read into RECBUF. -/
  | readSeqWrite (ini : Initiator) (v : Word)
  /-- `READ_DONE` (R578). The record read ends with its RESULT and READ_DONE. -/
  | readDone (memErr : Bool)
  /-- `PERIODIC_SNAPSHOT` (R579). Every 10 s the partition writes a snapshot. -/
  | periodicSnapshot
  /-- `PFW_ASSERT` (R580). PFW_N held low 1 µs latches the registers and writes a snapshot. -/
  | pfwAssert
  /-- `SNAPSHOT_VERIFIED` (R580). A snapshot is written and verified. -/
  | snapshotVerified
  /-- `METRO_RESTORE` (R582). After boot the partition reads the Pantry, restores registers, increments START_COUNT and writes INTERRUPTION records. -/
  | metroRestore (blank foreign newOk oldOk : Bool)
  /-- `SAFEIO_SAMPLE` (R593). Every 100 µs every safety channel is sampled, checked and debounced. Operands: the raw levels of the channels and the readback of the test outputs. -/
  | safeioSample (raw : BitVec 24) (tp : BitVec 4)
  /-- `SAFETY_TICK` (R593). Every 1 ms pairs, discrepancy timers and watchdogs are evaluated. -/
  | safetyTick
  /-- `TEST_PULSE_START` (R597). A test-pulse output starts its pulse at its offset in the period. -/
  | testPulseStart (k : Fin 4)
  /-- `TEST_PULSE_END` (R597). A test pulse ends after W and the output is energised again. -/
  | testPulseEnd (k : Fin 4)
  /-- `PAIR_DISCREPANCY_FAULT` (R607). The discrepancy counter reaches DISC_MS and the pair enters FAULT with cause 0x1. -/
  | pairDiscrepancyFault (q : Fin 8)
  /-- `SAFEIO_ACK` (R610). A write of SAFEIO.ACK moves a pair from WAIT_ACK to ACTIVE. -/
  | safeioAck (ini : Initiator) (mask : Byte)
  /-- `SAFENET_COPY` (R616). A safety frame copy is validated and accepted, compared or discarded by its sequence difference. -/
  | safenetCopy (p : Fin 2) (payload : List Byte)
  /-- `SAFENET_COMPARE_TIMEOUT` (R617). A compare window closes without the other copy, counting MISS and setting DEGRADED. -/
  | safenetCompareTimeout (q : Fin 8)
  /-- `SAFENET_WATCHDOG_FAULT` (R618). The channel watchdog reaches WD_MS and the channel enters FAULT with cause 0x1. -/
  | safenetWatchdogFault (q : Fin 8)
  /-- `SAFENET_ACK` (R619). A write of SAFENET.ACK moves a channel from WAIT_ACK to RUN. -/
  | safenetAck (ini : Initiator) (mask : Byte)
  /-- `WDSVC` (R624). A supervisor pair writes its watchdog token, restarting the window or expiring it if early or wrong. -/
  | wdsvc (ini : Initiator) (x : Fin 2) (token : Byte)
  /-- `WATCHDOG_EXPIRY` (R625). The watchdog counter reaches WIN_MAX, activating SUP_WDOG and entering SAFE_STOP. -/
  | watchdogExpiry (x : Fin 2)
  /-- `WDCLEAR` (R627). A host write of WDCLEAR in CONFIG clears EXPIRED and restarts the window. -/
  | wdclear (ini : Initiator) (mask : BitVec 2)
  /-- `SWITCHING_PERIOD_START` (R684). At each switching period start an axis computes leg duties and the legs adapt their drive codes. Operands: what each leg index of the axis measured. -/
  | switchingPeriodStart (a : Fin 4) (m0 m1 m2 : LegMeasure)
  /-- `REFRESH_PULSE` (R653). After PERIOD_US without a low-side interval the leg inserts a refresh pulse. Operands: `recovered`: the bootstrap supply is back after the pulse (R655). -/
  | refreshPulse (n : Fin 12) (dv : Byte)
  /-- `BOOT_UV_LOCKOUT` (R654). A bootstrap supply below threshold for 200 ns turns the high side off and sets GD_BOOT_UV. -/
  | bootUvLockout (v : LegSupply)
  /-- `VGD_LOCKOUT` (R657). VGD below threshold for 2 µs locks out VGD and puts every leg in OFF. Operands: VGD in 0.1 V. -/
  | vgdLockout (vgd : BitVec 12)
  /-- `VGD_LOCKOUT_END` (R657). VGD above threshold plus hysteresis for 10 µs ends the lock-out. Operands: VGD in 0.1 V. -/
  | vgdLockoutEnd (vgd : BitVec 12)
  /-- `CHOP_ON` (R659). VM_SENSE at or above CHOP_ON for 1 µs turns BRK_O on. Operands: VM_SENSE in 0.1 V. -/
  | chopOn (vm : BitVec 12)
  /-- `CHOP_OFF` (R659). VM_SENSE at or below CHOP_OFF for 1 µs turns BRK_O off. Operands: VM_SENSE in 0.1 V. -/
  | chopOff (vm : BitVec 12)
  /-- `CHOP_LIMIT` (R660). BRK_O on for MAX_ON_MS is turned off for REST_MS and sets CHOP_LIMIT. -/
  | chopLimit
  /-- `CHOP_REST_END` (R660). The REST_MS rest of the chopper ends. Operands: VM_SENSE in 0.1 V. -/
  | chopRestEnd (vm : BitVec 12)
  /-- `MBOV_TRIP` (R661). VM_SENSE at or above OV_TRIP for 1 µs latches MBOV and puts legs in OFF or BRAKE. Operands: VM_SENSE in 0.1 V. -/
  | mbovTrip (vm : BitVec 12)
  /-- `CLEAR_OV` (R662). A write of CLEAR_OV clears MBOV when the bus is below CHOP_OFF. Operands: VM_SENSE in 0.1 V. -/
  | clearOv (ini : Initiator) (vm : BitVec 12)
  /-- `CLEAR_FIRST` (R671). A write of CLEAR_FIRST re-arms the first-fault record. -/
  | clearFirst (ini : Initiator)
  /-- `DIAG` (R664). A write of CTRL.DIAG starts the off-state diagnostics of a leg. Operands: VM_SENSE in 0.1 V. -/
  | diag (ini : Initiator) (n : Fin 12) (vm : BitVec 12)
  /-- `DIAG_PHASE_END` (R664). A diagnostic phase ends after PHASE_US and is evaluated. Operands: GD_VSn and VM_SENSE in 0.1 V. -/
  | diagPhaseEnd (n : Fin 12) (vs : Int) (vm : BitVec 12)
  /-- `VDS_FAULT` (R667). A drain-source voltage above threshold after blanking faults the leg and puts its axis legs in OFF. Operands: the high side or the low side. -/
  | vdsFault (n : Fin 12) (d : DrainDrop)
  /-- `HARD_SHORT` (R668). A drain-source voltage above 4 V for 50 ns faults the leg. Operands: the high side or the low side. -/
  | hardShort (n : Fin 12) (d : DrainDrop)
  /-- `GDRV_CLEAR` (R673). A write of CTRL.CLEAR moves a leg from FAULT to OFF. -/
  | gdrvClear (ini : Initiator) (n : Fin 12)
  /-- `PROFILE_TICK` (R683). Every 10 µs each axis acts on commands and commits and advances its profile. -/
  | profileTick
  /-- `ENABLE` (R689). The command moves the axis from IDLE to HOLD. -/
  | enable (ini : Initiator) (a : Fin 4)
  /-- `MOVE` (R689). The command moves the axis to TARGET under its jerk-limited profile. -/
  | move (ini : Initiator) (a : Fin 4)
  /-- `JOG` (R689). The command moves the axis towards velocity VJOG. -/
  | jog (ini : Initiator) (a : Fin 4)
  /-- `AXIS_STOP` (R689). The STOP command decelerates the axis to HOLD. -/
  | axisStop (ini : Initiator) (a : Fin 4)
  /-- `HOME` (R704). The command moves the axis at HOME_VEL towards a hard stop. -/
  | home (ini : Initiator) (a : Fin 4)
  /-- `STEP_IN` (R689). The command makes the axis follow coarse steps. -/
  | stepIn (ini : Initiator) (a : Fin 4)
  /-- `GEAR` (R706). The command engages electronic gearing to the master encoder. -/
  | gear (ini : Initiator) (a : Fin 4)
  /-- `DISABLE` (R689). The command puts the axis in IDLE. -/
  | disable (ini : Initiator) (a : Fin 4)
  /-- `AXIS_CLEAR` (R689). The CLEAR command returns the axis from FAULT to IDLE. -/
  | axisClear (ini : Initiator) (a : Fin 4)
  /-- `SET_POS` (R689). The command sets POS to TARGET and sets HOMED. -/
  | setPos (ini : Initiator) (a : Fin 4)
  /-- `HOME_MAX_REACHED` (R705). Travel of HOME_MAX without a stall puts the axis in FAULT with cause 0x4. -/
  | homeMaxReached (a : Fin 4)
  /-- `COARSE_STEP` (R697). A rising STEP_In edge adds SIZE to the step target and sets the interpolation rate. Operands: the level of DIR_In at the edge. -/
  | coarseStep (a : Fin 4) (up : Bool)
  /-- `GEAR_PUSH` (R707). A write of GEAR_CMD.PUSH appends a ratio and trigger to the queue. -/
  | gearPush (ini : Initiator) (a : Fin 4)
  /-- `GEAR_FLUSH` (R707). A write of GEAR_CMD.FLUSH empties the gear queue. -/
  | gearFlush (ini : Initiator) (a : Fin 4)
  /-- `ENCODER_EDGE` (R710). A quadrature edge updates the encoder COUNT. Operands: the levels of ENC_A (bit 0) and ENC_B (bit 1) after the edge, past the filter. -/
  | encoderEdge (e : Fin 5) (ab : BitVec 2)
  /-- `INDEX_CAPTURE` (R711). A rising ENC_Z edge copies COUNT into ZCAP. -/
  | indexCapture (e : Fin 5)
  /-- `ATTIC_SAMPLE_LATCH` (R723). 40 ns after a counted sample event a capture channel latches its selected slots. -/
  | atticSampleLatch (n : Fin 8)
  /-- `SEGMENT_COMPLETE` (R741). After the last post-trigger frame the channel completes the directory entry and moves to the next segment. -/
  | segmentComplete (n : Fin 8)
  /-- `CAP_START` (R744). The START command begins capture in FILL at segment NEXT. -/
  | capStart (ini : Initiator) (n : Fin 8)
  /-- `CAP_STOP` (R745). The STOP command stops the channel, truncating a segment in POST. -/
  | capStop (ini : Initiator) (n : Fin 8)
  /-- `CAP_FORCE` (R744). The FORCE command makes a trigger with FORCED set. -/
  | capForce (ini : Initiator) (n : Fin 8)
  /-- `CAP_CLEAR` (R744). The CLEAR command invalidates the channel's entries and resets NEXT. -/
  | capClear (ini : Initiator) (n : Fin 8)
  /-- `TRIGOUT_RELEASE` (R747). The trigger-out pull ends after TRIGOUT_WIDTH and the line is released. -/
  | trigoutRelease (l : Fin 4)
  /-- `TRIG_EDGE` (R768). A falling edge on a TRIG line is recognised 12 ns after its ball instant and acts at its edge instant. -/
  | trigEdge (l : Fin 4)
  /-- `LANE_UP` (R757). A Twitos lane receives 1,024 valid symbols and one valid frame and is up. Operands: the member ID at the far end. -/
  | laneUp (l : Fin 4) (partner : Fin 3)
  /-- `LANE_LOST` (R757). No valid frame for 2 µs or four failed frames declare a lane lost. Operands: the frames that failed their check. -/
  | laneLost (l : Fin 4) (failed : Fin 5)
  /-- `IDLE_FRAME` (R758). An IDLE frame is received carrying CYC. Operands: none: a frame, of whatever type, that fails its check (R757). -/
  | idleFrame (l : Fin 4) (cyc : Option Word)
  /-- `STATE_FRAME` (R770). A STATE frame is received with a member's digests, readback, stamp counts and view. -/
  | stateFrame (l : Fin 4) (seq : BitVec 16) (f : StateFrame)
  /-- `FAULT_FRAME` (R778). A FAULT frame is received, declaring the sender FAILED or carrying a set-wide SAFE_STOP. Operands: `self`: a self-report, else a set-wide SAFE_STOP whose cause lies `ago` ticks back. -/
  | faultFrame (l : Fin 4) (seq : BitVec 16) (m : Fin 3) (self : Bool) (cause : Byte) (src : Fin 64) (ago : Nat)
  /-- `SWAP_FRAME` (R787). A SWAP frame is received naming the target and takeover boundary. -/
  | swapFrame (l : Fin 4) (seq : BitVec 16) (target : Fin 3) (k : Word)
  /-- `PORTS_FRAME` (R774). A PORTS frame from the lead gives phases, timers and enables taken at the next port tick. -/
  | portsFrame (l : Fin 4) (seq : BitVec 16) (ports : Vector PortCopy 8)
  /-- `COPY_FRAME` (R796). A COPY frame delivers state words to a joining member. Operands: `last`: every item of R796 has been copied with it. -/
  | copyFrame (l : Fin 4) (seq : BitVec 16) (words : List CopyWord) (last : Bool)
  /-- `XFER_FRAME` (R796). An XFER frame delivers Main SRAM data to the target member. -/
  | xferFrame (l : Fin 4) (seq : BitVec 16) (addr : Word) (data : List Byte)
  /-- `PING` (R761). A PING frame is received and answered with ECHO. -/
  | ping (l : Fin 4) (at_ : Word64)
  /-- `ECHO` (R761). An ECHO frame is received and the lane RTT is measured. Operands: the round-trip flight time measured. -/
  | echo (l : Fin 4) (ps : BitVec 20)
  /-- `CYCMARK` (R764). A CYCMARK frame makes a follower load CYC at the named HCLK edge. -/
  | cycmark (l : Fin 4) (seq : BitVec 16) (cyc : Word64)
  /-- `SET_CYCLE_BOUNDARY` (R769). At each set-cycle boundary every member snapshots and forms its three digests. Operands: `rb`: the lines that read back otherwise than computed in the set cycle just ended (R776). -/
  | setCycleBoundary (rb : List RbLine)
  /-- `STATE_FRAME_RELEASE` (R770). 2.0 to 2.5 µs after the boundary each member releases its STATE frame. -/
  | stateFrameRelease
  /-- `VOTE_INSTANT` (R770). At B_K + 8 µs each member evaluates the STATE frames it holds. -/
  | voteInstant
  /-- `ALIVE_TOGGLE` (R777). Every 12,500 ticks the member toggles ALIVE_O. -/
  | aliveToggle
  /-- `ALIVE_LOST` (R777). No ALIVE edge from a partner for 60 µs declares its ALIVE lost. -/
  | aliveLost (m : Fin 3)
  /-- `ISOLATION` (R782). Every lane to a live member lost for two set cycles isolates it. -/
  | isolation (m : Fin 3)
  /-- `HCLK_ABSENT` (R765). No HCLK edge for 200 ns switches a follower to holdover on its crystal. -/
  | hclkAbsent
  /-- `HCLK_RETURN` (R766). HCLK returns and the follower measures its phase error and slews or leaves. Operands: the phase error in ps. -/
  | hclkReturn (e : Int)
  /-- `SLEW_END` (R766). The root phase slew ends and LOCKED returns to 1. Operands: the phase error left, in ps. -/
  | slewEnd (e : BitVec 16)
  /-- `HOLDOVER_LIMIT` (R766). 1 ms in holdover makes the member leave with cause 7. -/
  | holdoverLimit
  /-- `CK_RESCUE` (R784). An absent expected DS_CK edge makes the successor drive the net from its copy. -/
  | ckRescue (k : Fin 4)
  /-- `JOIN` (R793). The command starts the join phases towards STANDBY or VOTER. -/
  | join (ini : Initiator)
  /-- `SWAP` (R787). The command schedules a hand-over of the lead to a ready follower at B_(K+2). -/
  | swap (ini : Initiator) (target : BitVec 2)
  /-- `LEAVE` (R780). The command makes the member leave the set. -/
  | leave (ini : Initiator)
  /-- `PROMOTE` (R793). The command makes the member lead when no lead is reachable. -/
  | promote (ini : Initiator)
  /-- `JOIN_PHASE_TIMEOUT` (R794). A failure in join phases 1 to 3 lasting 100 ms makes the member leave with cause 4. -/
  | joinPhaseTimeout
  /-- `XFER_CMD` (R796). A write of XFER_CMD with GO copies Main SRAM to another member. -/
  | xferCmd (ini : Initiator) (len : BitVec 16) (target : BitVec 2)
  /-- `XFER_DONE` (R796). The transfer completes with its RESULT and XFER_DONE. -/
  | xferDone
  /-- `ETH_FRAME_RECEIVE` (R819). A received Ethernet frame is classified, deduplicated, forwarded and queued. Operands: `frac`: the instant of the start-of-frame delimiter within the tick, in 0.8 ns; `residence`: ticks from ingress to egress of a forwarded frame. -/
  | ethFrameReceive (p : Fin 2) (f : EthFrame) (frac : Fin 5) (residence : Nat)
  /-- `TX_HEAD_WRITE` (R818). A write of TXQq_HEAD releases descriptors for transmission. -/
  | txHeadWrite (ini : Initiator) (q : Fin 4) (v : Word)
  /-- `TX_FRAME_SENT` (R820). A transmit descriptor completes with DONE, its egress time and TX_DONE. -/
  | txFrameSent (q : Fin 4) (frac : Fin 5)
  /-- `ETH_LINK_CHANGE` (R807). An SGMII port gains or loses its link. -/
  | ethLinkChange (p : Fin 2) (sense : LinkSense)
  /-- `SUPERVISION_SEND` (R814). Every LIFE_CHECK the device sends a supervision frame. -/
  | supervisionSend
  /-- `SUPERVISION_TIMEOUT` (R814). No supervision frame for 3 × LIFE_CHECK clears LAN_A_OK, LAN_B_OK or RING_OK. -/
  | supervisionTimeout (p : Fin 2)
  /-- `NODE_AGEING` (R814). A node table entry ages out after 60 s. -/
  | nodeAgeing (mac : BitVec 48)
  /-- `MDIO_ACCESS` (R842). A write of MDIO_CMD with GO starts a Clause 22 access. -/
  | mdioAccess (ini : Initiator) (v : Word)
  /-- `MDIO_DONE` (R842). The MDIO access completes and BUSY clears. -/
  | mdioDone (data : BitVec 16)
  /-- `PTP_SYNC` (R826). A Sync from the parent produces OFFSET and updates lock status. -/
  | ptpSync (p : Fin 2) (m : PtpMsg) (frac : Fin 5)
  /-- `FOLLOW_UP` (R826). A Follow_Up completes a two-step Sync and produces OFFSET. -/
  | followUp (p : Fin 2) (m : PtpMsg) (frac : Fin 5)
  /-- `PDELAY_REQ_SEND` (R829). Every 2^LOG_PDELAY s a port sends Pdelay_Req. -/
  | pdelayReqSend (p : Fin 2) (frac : Fin 5)
  /-- `PDELAY_REQ_RECEIVE` (R829). A received Pdelay_Req is answered with a one-step Pdelay_Resp. Operands: `turn`: from its ingress to the egress of the answer, in 0.8 ns. -/
  | pdelayReqReceive (p : Fin 2) (m : PtpMsg) (frac : Fin 5) (turn : Fin 62501)
  /-- `PDELAY_RESP_RECEIVE` (R829). A received Pdelay_Resp updates LINK_DELAY. Operands: `turn`: the responder's turnaround in ps, from its timestamps and correctionField. -/
  | pdelayRespReceive (p : Fin 2) (turn : Int) (frac : Fin 5)
  /-- `PTP_SYNC_TIMEOUT` (R827). No Sync for SYNC_TO_MS clears LOCKED and OFFSET_OK. -/
  | ptpSyncTimeout
  /-- `RATE_WRITE` (R821). A write of PTP.RATE changes the clock rate from the next tick. -/
  | rateWrite (ini : Initiator) (v : Word)
  /-- `SET_TIME` (R831). A write of SET_NS with GO sets the time or makes a jump request. -/
  | setTime (ini : Initiator) (v : Word)
  /-- `STEP_REQUEST` (R832). A write of STEP_HI requests a jump, applied within JUMP_LIMIT or refused and held pending. -/
  | stepRequest (ini : Initiator) (v : Word)
  /-- `ACCEPT` (R834). JUMP_CMD.ACCEPT applies the pending jump. -/
  | accept (ini : Initiator)
  /-- `REJECT` (R834). JUMP_CMD.REJECT discards the pending jump. -/
  | reject (ini : Initiator)
  /-- `PARENT_WRITE` (R827). A write of PARENT clears LOCKED. -/
  | parentWrite (ini : Initiator) (v : Word)
  /-- `TIME_EVENT` (R836). A schedule reaches its instant, raising TIME_O and counting. -/
  | timeEvent (n : Fin 4)
  /-- `TIME_OUTPUT_END` (R837). TIME_O returns low after WIDTH ticks. -/
  | timeOutputEnd (n : Fin 4)
  /-- `PLL_LOCK_DECLARED` (R853). Four good windows declare a PLL locked and substituted domains switch back. Operands: SYSPLL, or else CLNPLL; `band`: the band it settled in; the counts of its last four windows. -/
  | pllLockDeclared (sys : Bool) (band : Byte) (counts : Vector (BitVec 12) 4)
  /-- `PLL_LOCK_LOST` (R853). Two bad windows lose lock; SYSPLL domains go to substitutes or CLNPLL loss counts as root loss. Operands: SYSPLL, or else CLNPLL; the counts of its last two windows. -/
  | pllLockLost (sys : Bool) (counts : Vector (BitVec 12) 2)
  /-- `BAND_MISS` (R861). A stored band not settled in 20 µs starts a band search. -/
  | bandMiss
  /-- `SPREAD_TRIANGLE_START` (R848). A spread triangle starts at each CYC multiple of 8,000, applying a committed spread. -/
  | spreadTriangleStart
  /-- `POWER_ON_RESET` (R933). A rail below its threshold holds the device in power-on reset. -/
  | powerOnReset
  /-- `RESET_N_ASSERT` (R870). RESET_N low for 1 µs resets the device with cause 0x02. -/
  | resetNAssert
  /-- `RSTREQ_RESET` (R873). RSTREQ_N low for 20 ms resets the device. -/
  | rstreqReset
  /-- `RSTREQ_RELEASE` (R873). RSTREQ_N high for 20 ms releases the reset. -/
  | rstreqRelease
  /-- `RSTREQ_STUCK` (R873). RSTREQ_N low for 5 s is declared stuck and the reset released. -/
  | rstreqStuck
  /-- `RSTREQ_UNIGNORE` (R873). RSTREQ_N high for 100 ms ends the ignoring of the pin. -/
  | rstreqUnignore
  /-- `SWRST` (R874). A write of 0xD1 to RESET.SWRST from a host port under KEY0 resets the device. -/
  | swrst (ini : Initiator)
  /-- `RESET_RELEASE` (R875). Reset is released, straps sampled, PLLs lock and the security core starts the Boot ROM. -/
  | resetRelease (st : Straps)
  /-- `POWER_CMD_P0` (R879). A power command to P0 restarts stopped domains. -/
  | powerCmdP0 (ini : Initiator)
  /-- `POWER_CMD_P1` (R879). A power command to P1 stops the loop engines, legs and axes. -/
  | powerCmdP1 (ini : Initiator)
  /-- `POWER_CMD_P2` (R879). A power command to P2 stops LE, PWM, ADC and DSCK and powers down SYSPLL. -/
  | powerCmdP2 (ini : Initiator)
  /-- `POWER_CMD_P3` (R879). A power command to P3 takes a KEEP snapshot and powers down all but AON. -/
  | powerCmdP3 (ini : Initiator)
  /-- `POWER_CMD_P4` (R879). A power command to P4 powers down every domain. -/
  | powerCmdP4 (ini : Initiator)
  /-- `POWER_TRANSITION_DONE` (R879). A power transition ends, setting STATE and PREV and clearing BUSY. -/
  | powerTransitionDone
  /-- `WAKE` (R881). A wake event in P3 releases the device with reset cause 0x06. Operands: 0 Porch A, 1 Porch B, 2 TRIG0. -/
  | wake (src : Fin 3)
  /-- `PROVISION` (R893). The command burns hashes and seeds and moves BLANK to PROVISIONED. -/
  | provision (ini : Initiator)
  /-- `SEAL` (R893). The command burns the seal block and moves PROVISIONED to SEALED. -/
  | seal (ini : Initiator)
  /-- `RETURN` (R893). The command destroys the metrology seed and moves to RETURNED. -/
  | returnCmd (ini : Initiator)
  /-- `ADVANCE` (R905). The command raises a rollback counter to the lowest SVN in force. -/
  | advance (ini : Initiator) (type : Fin 4)
  /-- `CHECK` (R906). The command checks a flash slot's images without loading them. Operands: the directory entries whose image the flash fails to bring. -/
  | check (ini : Initiator) (slotB : Bool) (bad : List (Fin 16))
  /-- `RAM_BOOT` (R903). The command boots from an image set in Main SRAM during recovery. -/
  | ramBoot (ini : Initiator)
  /-- `CELLAR_CMD_DONE` (R894). A CELLAR command completes with its RESULT and CMD_DONE. Operands: `burnOk`: every OTP bit read back as burnt. -/
  | cellarCmdDone (burnOk : Bool)
  /-- `ATTEST_GO` (R908). A write of ATTEST.CMD.GO starts building a signed report. -/
  | attestGo (ini : Initiator)
  /-- `ATTEST_DONE` (R908). The attestation report appears and DONE is set. -/
  | attestDone
  /-- `CHAL_NEW` (R912). A write of CHAL_CMD.NEW places a fresh challenge. -/
  | chalNew (ini : Initiator)
  /-- `AUTH_GO` (R912). A write of AUTH_CMD.GO verifies the authorisation and opens a session or fails. -/
  | authGo (ini : Initiator)
  /-- `AUTH_LOCKOUT_END` (R913). The 60 s lockout after three failures ends. -/
  | authLockoutEnd
  /-- `DEBUG_SESSION_END` (R915). A write of END ends the debug session and releases its halts. -/
  | debugSessionEnd (ini : Initiator)
  /-- `SESSION_EXPIRY` (R915). DURATION_S expires and the debug session ends. -/
  | sessionExpiry
  /-- `LE_HALT` (R916). A write of LE_HALT halts an engine and stops its PWM units. -/
  | leHalt (ini : Initiator) (mask : BitVec 16)
  /-- `LE_RESUME` (R920). A write of LE_RESUME releases a halted engine. -/
  | leResume (ini : Initiator) (mask : BitVec 16)
  /-- `LE_STEP` (R916). A write of LE_STEP issues one instruction of a halted engine. -/
  | leStep (ini : Initiator) (n : Fin 16)
  /-- `SUP_HALT` (R917). A debug halt of a supervisor pair stops both cores and puts every PWM unit safe. -/
  | supHalt (p : Pair)
  /-- `CORE_HALT` (R920). A debug halt of the security or metrology core affects no output or mode. -/
  | coreHalt (c : Core)
  /-- `HALT_RELEASE` (R920). A supervisor or core halt is released and execution resumes. -/
  | haltRelease (pairs : List Pair) (cores : List Core)
  /-- `READ_ID` (R925). The XFLASH operation reads the flash ID. Operands: the bytes the flash returns. -/
  | readId (ini : Initiator) (id : BitVec 24)
  /-- `ERASE_4K` (R925). The XFLASH operation erases 4 KiB. -/
  | erase4k (ini : Initiator)
  /-- `ERASE_64K` (R925). The XFLASH operation erases 64 KiB. -/
  | erase64k (ini : Initiator)
  /-- `PROGRAM` (R925). The XFLASH operation programs flash from Main SRAM. -/
  | program (ini : Initiator)
  /-- `XFLASH_READ` (R925). The XFLASH READ operation copies flash into Main SRAM. -/
  | xflashRead (ini : Initiator)
  /-- `XFLASH_OP_DONE` (R925). An XFLASH operation completes with its RESULT and OP_DONE or OP_FAIL. -/
  | xflashOpDone (flashOk : Bool)
  /-- `DLL_LOCKED` (R762). The follower's house-clock DLL completes its alignment to the lead's root edges and HOUSE.STATUS.LOCKED rises. Operands: the tap in force and the phase error in ps. -/
  | dllLocked (tap : BitVec 7) (e : BitVec 16)
  /-- `ROOT_CLOCK_RETURN` (R869). A root clock that returns within 1 ms of its loss makes both PLLs relock by band search, while CLK_SAFE stays set. -/
  | rootClockReturn
  /-- `ADDRESS_AGEING` (R809). A learned source address of the BRIDGE-mode switch ages out after 300 s, so frames to it are flooded again. -/
  | addressAgeing (mac : BitVec 48)
  /-- `PCIE_CONFIG_WRITE` (R86). A PCI Express configuration write from the host sets or clears MSI enable, which LINK.MSI_EN reports and R113 obeys. -/
  | pcieConfigWrite (p : HostPort) (msi : Bool)
  deriving DecidableEq, Repr

end Sys2Proof
end

