-- ==== Sys2Proof/Decode.lean ====
section
/-!
DEFINITION. Decode.lean: the commands that a word of the command table spells. The table gives no row any bits: a command is an
access, a bus or link operation or an event, and reaches the queue as a term.
-/
namespace Sys2Proof

/-- The command that the low `nbits` bits of `w` spell by the table: none, for no row has bits. -/
def decodeTableWord (_nbits _w : Nat) : Option Instr := none

end Sys2Proof
end

