-- ==== Sys2Proof/Machine/Crypto.lean ====
section
/-!
DEFINITION. Machine/Crypto.lean: the functions of outside standards that the device computes: SHA-512 (FIPS 180-4), HMAC-SHA-512
(RFC 2104) and pure Ed25519 (RFC 8032), which 10 R557, R558 and 18 R891, R895, R907 name (PRESUMED from those standards, log entry 53).
-/
namespace Sys2Proof.Machine

/-- Byte `i` of a number, most significant byte first in `k` bytes; and the number that such bytes spell. -/
def beBytes (k n : Nat) : List Byte := (leBytes k n).reverse
def ofBeBytes (bs : List Byte) : Nat := bs.foldl (fun n b => 256 * n + b.toNat) 0

/-! ### SHA-512 -/

/-- The 80 round constants and the initial hash value (FIPS 180-4, 4.2.3 and 5.3.5), 64 bits each, the first lowest: the fractions of the
cube roots of the first 80 primes and of the square roots of the first 8. -/
def shaRoundBits : Nat :=
  0x6c44198c4a4758175fcb6fab3ad6faec597f299cfc657e2a4cc5d4becb3e42b6431d67c49c100d4c3c9ebe0a15c9bebc32caab7b40c7249328db77f523047d841b710b35131c471b113f9804bef90dae0a637dc5a2c898a606f067aa72176fbaf57d4f7fee6ed178eada7dd6cde0eb1ed186b8c721c0c207ca273eceea26619cc67178f2e372532bbef9a3f7b2c67915a4506cebde82bde990befffa23631e288cc702081a6439ec84c87814a1f0ab7278a5636f43172f60748f82ee5defb2fc682e6ff3d6b2b8a35b9cca4f7763e3734ed8aa4ae3418acb391c0cb3c5c95a6334b0bcb5e19b48a82748774cdf8eeb991e376c085141ab5319a4c116b8d2d0c8106aa07032bbd1b8f40e35855771202ad69906245565a910d192e819d6ef5218c76c51a30654be30c24b8b70d0f89791a81a664bbc423001a2bfe8a14cf1036492722c851482353b81c2c92e47edaee6766a0abb3c77b2a8650a73548baf63de53380d139d95b3df4d2c6dfc5ac42aed2e1b21385c26c92627b70a8546d22ffc142929670a0e6e7006ca6351e003826fd5a79147930aa725c6e00bf33da88fc2bf597fc7beef0ee4b00327c898fb213fa831c66d2db43210983e5152ee66dfab76f988da831153b55cb0a9dcbd41fbd44a7484aa6ea6e4832de92c6f592b0275240ca1cc77ac9c650fc19dc68b8cd5b5efbe4786384f25e3e49b69c19ef14ad2c19bf174cf6926949bdc06a725c7123580deb1fe3b1696b172be5d74f27b896f550c7dc3d5ffb4e2243185be4ee4b28c12835b0145706fbed807aa98a3030242ab1c5ed5da6d8118923f82a4af194f9b59f111f1b605d0193956c25bf348b538e9b5dba58189dbbcb5c0fbcfec4d3b2f7137449123ef65cd428a2f98d728ae22
def shaInitBits : Nat := 0x5be0cd19137e21791f83d9abfb41bd6b9b05688c2b3e6c1f510e527fade682d1a54ff53a5f1d36f13c6ef372fe94f82bbb67ae8584caa73b6a09e667f3bcc908
def shaRound : List Nat := (List.range 80).map fun i => bitsOf shaRoundBits (64 * i) 64

/-- A 64-bit word turned right. -/
def turnRight (x n : Nat) : Nat := (x >>> n) + (x <<< (64 - n)) % 2 ^ 64

/-- The eight working variables, as words. -/
structure ShaVars where
  a : Nat
  b : Nat
  c : Nat
  d : Nat
  e : Nat
  f : Nat
  g : Nat
  h : Nat

/-- Eight words from a number, the first lowest. -/
def ShaVars.ofBits (n : Nat) : ShaVars :=
  let w := fun i => bitsOf n (64 * i) 64
  ⟨w 0, w 1, w 2, w 3, w 4, w 5, w 6, w 7⟩

/-- One round: the constant and the schedule word come in as their sum. -/
def ShaVars.round (v : ShaVars) (kw : Nat) : ShaVars :=
  let big1 := turnRight v.e 14 ^^^ turnRight v.e 18 ^^^ turnRight v.e 41
  let ch := (v.e &&& v.f) ^^^ ((v.e ^^^ (2 ^ 64 - 1)) &&& v.g)
  let t := v.h + big1 + ch + kw
  let big0 := turnRight v.a 28 ^^^ turnRight v.a 34 ^^^ turnRight v.a 39
  let maj := (v.a &&& v.b) ^^^ (v.a &&& v.c) ^^^ (v.b &&& v.c)
  ⟨(t + big0 + maj) % 2 ^ 64, v.a, v.b, v.c, (v.d + t) % 2 ^ 64, v.e, v.f, v.g⟩

/-- The next schedule word from the 16 before it, latest first. -/
def shaNext (w : List Nat) : Nat :=
  let x := w.getD 1 0
  let y := w.getD 14 0
  ((turnRight x 19 ^^^ turnRight x 61 ^^^ (x >>> 6)) + w.getD 6 0 + (turnRight y 1 ^^^ turnRight y 8 ^^^ (y >>> 7)) + w.getD 15 0) % 2 ^ 64

/-- The rounds of a block: the constants still to come, the schedule's last 16 words (latest first), the words still unread. -/
def shaRounds : List Nat → List Nat → List Nat → ShaVars → ShaVars
  | [], _, _, v => v
  | k :: ks, w, m :: ms, v => shaRounds ks (m :: w) ms (v.round (k + m))
  | k :: ks, w, [], v =>
    let x := shaNext w
    shaRounds ks (x :: w.take 15) [] (v.round (k + x))

/-- One block of 16 words. -/
def shaBlock (v : ShaVars) (block : List Nat) : ShaVars :=
  let r := shaRounds shaRound [] block v
  let add := fun x y => (x + y) % 2 ^ 64
  ⟨add v.a r.a, add v.b r.b, add v.c r.c, add v.d r.d, add v.e r.e, add v.f r.f, add v.g r.g, add v.h r.h⟩

/-- The words of a padded message, `n` of them. -/
def shaWords (bs : List Byte) : Nat → List Nat
  | 0 => []
  | n + 1 => ofBeBytes (bs.take 8) :: shaWords (bs.drop 8) n

/-- `n` blocks of 16 words. -/
def shaBlocks : Nat → List Nat → ShaVars → ShaVars
  | 0, _, v => v
  | n + 1, ws, v => shaBlocks n (ws.drop 16) (shaBlock v (ws.take 16))

/-- The SHA-512 of a message: 64 bytes. -/
def sha512 (m : List Byte) : List Byte :=
  let blocks := (m.length + 17 + 127) / 128
  let bytes := m ++ [0x80#8] ++ List.replicate (128 * blocks - m.length - 17) 0 ++ beBytes 16 (8 * m.length)
  let v := shaBlocks blocks (shaWords bytes (16 * blocks)) (ShaVars.ofBits shaInitBits)
  [v.a, v.b, v.c, v.d, v.e, v.f, v.g, v.h].flatMap (beBytes 8)

/-- HMAC-SHA-512 under a key of at most 128 bytes (RFC 2104). -/
def hmac512 (key m : List Byte) : List Byte :=
  let k := key ++ List.replicate (128 - key.length) 0
  sha512 (k.map (· ^^^ 0x5C#8) ++ sha512 (k.map (· ^^^ 0x36#8) ++ m))

/-! ### Ed25519 -/

/-- The field's prime, the curve's constant and the order of the base point (RFC 8032, 5.1). -/
abbrev edP : Nat := 2 ^ 255 - 19
abbrev edL : Nat := 2 ^ 252 + 27742317777372353535851937790883648493

/-- A power in the field, over the lowest `n` bits of the exponent. -/
def edPowBits (x e : Nat) : Nat → Nat
  | 0 => 1
  | n + 1 =>
    let r := edPowBits x (e / 2) n
    if e % 2 = 1 then r * r % edP * x % edP else r * r % edP
def edPow (x e : Nat) : Nat := edPowBits x e 255
def edInv (x : Nat) : Nat := edPow x (edP - 2)
def edD : Nat := (edP - 121665) * edInv 121666 % edP

/-- A point: X, Y, Z and T with x = X/Z, y = Y/Z, xy = T/Z. -/
structure EdPoint where
  x : Nat
  y : Nat
  z : Nat
  t : Nat

def edZero : EdPoint := ⟨0, 1, 1, 0⟩

def EdPoint.add (p q : EdPoint) : EdPoint :=
  let a := (p.y + edP - p.x) * (q.y + edP - q.x) % edP
  let b := (p.y + p.x) * (q.y + q.x) % edP
  let c := 2 * p.t * q.t * edD % edP
  let d := 2 * p.z * q.z % edP
  let e := b + edP - a
  let f := d + edP - c
  let g := d + c
  let h := b + a
  ⟨e * f % edP, g * h % edP, f * g % edP, e * h % edP⟩

/-- `k` times a point, over the lowest `n` bits of `k`. -/
def EdPoint.mulBits (p : EdPoint) (k : Nat) : Nat → EdPoint
  | 0 => edZero
  | n + 1 =>
    let q := p.mulBits (k / 2) n
    let q := q.add q
    if k % 2 = 1 then q.add p else q
def EdPoint.mul (p : EdPoint) (k : Nat) : EdPoint := p.mulBits k 256

/-- The same point. -/
def EdPoint.same (p q : EdPoint) : Bool := p.x * q.z % edP = q.x * p.z % edP && p.y * q.z % edP = q.y * p.z % edP

/-- The x of a y, of the given sign (RFC 8032, 5.1.3). -/
def edRecoverX (y : Nat) (odd : Bool) : Option Nat :=
  if edP ≤ y then none
  else
    let u := (y * y + edP - 1) % edP
    let v := (edD * (y * y) + 1) % edP
    let w := u * edInv v % edP
    let r := edPow w ((edP + 3) / 8)
    let r := if r * r % edP = w then r else r * edPow 2 ((edP - 1) / 4) % edP
    if r * r % edP ≠ w then none
    else if r = 0 then if odd then none else some 0
    else some (if (r % 2 = 1) = odd then r else edP - r)

/-- The base point: y = 4/5, x even. -/
def edBase : EdPoint :=
  let y := 4 * edInv 5 % edP
  let x := (edRecoverX y false).getD 0
  ⟨x, y, 1, x * y % edP⟩

/-- A point from its 32 bytes, and its 32 bytes. -/
def edDecode (bs : List Byte) : Option EdPoint :=
  let n := ofLeBytes bs
  let y := n % 2 ^ 255
  (edRecoverX y (n.testBit 255)).map fun x => ⟨x, y, 1, x * y % edP⟩
def EdPoint.encode (p : EdPoint) : List Byte :=
  let i := edInv p.z
  leBytes 32 (p.y * i % edP + 2 ^ 255 * (p.x * i % edP % 2))

/-- The scalar and the prefix of a seed (RFC 8032, 5.1.5). -/
def edScalar (seed : List Byte) : Nat := ofLeBytes ((sha512 seed).take 32) % 2 ^ 254 / 8 * 8 + 2 ^ 254
def edPrefix (seed : List Byte) : List Byte := (sha512 seed).drop 32

/-- The public key of a seed. -/
def edPublic (seed : List Byte) : List Byte := (edBase.mul (edScalar seed)).encode

/-- The signature of a message under a seed (RFC 8032, 5.1.6): 64 bytes. -/
def edSign (seed m : List Byte) : List Byte :=
  let r := ofLeBytes (sha512 (edPrefix seed ++ m)) % edL
  let rb := (edBase.mul r).encode
  let k := ofLeBytes (sha512 (rb ++ edPublic seed ++ m)) % edL
  rb ++ leBytes 32 ((r + k * edScalar seed) % edL)

/-- A signature of 64 bytes verifies under a public key of 32 (RFC 8032, 5.1.7, with the cofactor). -/
def edVerify (pub m sig : List Byte) : Bool :=
  let s := ofLeBytes (sig.drop 32)
  match edDecode pub, edDecode (sig.take 32) with
  | some a, some r =>
    let k := ofLeBytes (sha512 (sig.take 32 ++ pub ++ m)) % edL
    decide (s < edL) && ((edBase.mul s).mul 8).same ((r.add (a.mul k)).mul 8)
  | _, _ => false

end Sys2Proof.Machine
end

