-- ==== Sys2Proof/Config.lean ====
section
/-!
DEFINITION. Config.lean: what one device fixes, and the values the spec leaves open. None of these has a
body: no proof can see what they are, so a statement about them holds whatever they are.
-/
namespace Sys2Proof.Config

/-- A value the spec leaves open (00_scope.md and the rule the use cites), fresh for each count: the step reads
`State.free` and advances it (log entry 3). -/
opaque freeWord : Nat → BitVec 32

/-- `SYS.DEVICE_ID.SILICON`, fixed per device (R39). -/
opaque silicon : BitVec 8

/-- The IPv4 source address of the PTP block's own messages on each port: no register of the spec holds one (R825, R844). -/
opaque ipSource : Fin 2 → BitVec 32

/-- The payload of a STATE, PORTS or COPY frame: R758 names what it carries and not its layout. -/
opaque twPayload : TwFrame → List Byte

/-- The device UID, burnt at Keanex's production test (R891). -/
opaque uid : BitVec 64

/-- The words of a Form ROM library program (R303, R346) between its header and its END: the spec describes what the
programs do and how long they are, and does not print their code. -/
opaque formRom : Nat → Nat → BitVec 64

/-- The word at a bus address of the Boot ROM and of the Form ROM as an on-chip initiator reads it (R30, R115): the spec does
not print their contents. -/
opaque rom : Nat → BitVec 32

/-- The result (bits 23:0) and the invalidity (bit 24) that a port takes for a DSF control channel above 47 at instant CYC: R483
names a channel, and the spec gives none above 47. -/
opaque absentChannel : Nat → Word64 → Word

/-- Byte `i` of the hash of Keanex key slot `k`, which the Boot ROM holds (R896): the spec does not print it. -/
opaque keanexHash : Nat → Nat → Byte

/-- Byte `i` of the snapshot key that the Cellar derives from the identity seed (R907): the spec does not say how. -/
opaque snapshotKey : List Byte → Nat → Byte

/-- Byte `i` of the `n`-th seed of kind `k` that the true random generator makes at PROVISION, and of a challenge
(R893, R912). -/
opaque random : Nat → Nat → Nat → Byte

end Sys2Proof.Config
end

