-- ==== Sys2Proof/Machine/Layout.lean ====
section
/-!
DEFINITION. Machine/Layout.lean: what a register field is (00_scope.md R1) and how the register file is
keyed. The fields themselves stand in Machine/Regs.lean.
-/
namespace Sys2Proof.Machine

/-- The access codes of R1. -/
inductive Acc where
  | rw | ro | wo | w1c | w1s | rc | rws | rwl
  deriving DecidableEq, Repr

/-- The reset value a field table gives: one value; the page's instance number (`BANKS.FIRST`); or a value
from an index on (the note under R418 for `FUSE.MAPs`). -/
inductive Rst where
  | const (v : Nat)
  | inst
  | fromIndex (k v : Nat)
  deriving DecidableEq, Repr

/-- The range a commit (R105) or a write checks a field for. The binary32 bounds are bit patterns. -/
inductive Rng where
  | any
  | nat (lo hi : Nat)
  | int (lo hi : Int)
  | pow2 (lo hi : Nat)
  | finite
  | positive
  | nonneg
  | flt (lo hi : Nat)
  deriving DecidableEq, Repr

/-- One field of a register: offset of its register's first instance, number of instances and the stride
between them, lowest bit, width, access code, reset value, range, and whether it accepts writes only in
CONFIG. -/
structure Fld where
  off : Nat
  cnt : Nat
  stride : Nat
  lo : Nat
  width : Nat
  acc : Acc
  rst : Rst
  rng : Rng
  cfgOnly : Bool
  deriving DecidableEq, Repr

/-- A page of the register window (R116): its number, its instance number, its block code, its router
source, its `PAGE_CAPS` and the clock domain of its block registers (the bit of `CLOCK.DOMSTAT.RUN`). -/
structure PageInfo where
  base : Nat
  count : Nat
  block : Nat
  irqSource : Option Nat
  staged : Bool
  lockable : Bool
  clocked : Bool
  irqBits : Nat
  blockCaps : Nat
  domain : Nat
  commitIrq : Option Nat
  fields : List Fld

/-- A sparse store in canonical form: addresses strictly rising and no entry equal to 0, which is what an
unlisted address reads as. -/
abbrev Store (w : Nat) := List (Nat × BitVec w)

/-- What address `a` reads as: its entry, and 0 where it has none. -/
def Store.get {w : Nat} : Store w → Nat → BitVec w
  | [], _ => 0
  | (k, v) :: m, a => if a = k then v else if a < k then 0 else Store.get m a

/-- Remove the entry of address `a`. -/
def Store.del {w : Nat} : Store w → Nat → Store w
  | [], _ => []
  | (k, v) :: m, a => if a = k then m else if a < k then (k, v) :: m else (k, v) :: Store.del m a

/-- Insert a nonzero entry at address `a`. -/
def Store.ins {w : Nat} : Store w → Nat → BitVec w → Store w
  | [], a, x => [(a, x)]
  | (k, v) :: m, a, x =>
    if a = k then (k, x) :: m else if a < k then (a, x) :: (k, v) :: m else (k, v) :: Store.ins m a x

/-- Write `x` at address `a`; writing 0, which an unlisted address reads as, removes the entry. -/
def Store.put {w : Nat} (m : Store w) (a : Nat) (x : BitVec w) : Store w :=
  if x = 0 then m.del a else m.ins a x

/-- Remove every entry whose address lies from `lo` up to but not at `hi`. -/
def Store.clearRange {w : Nat} (m : Store w) (lo hi : Nat) : Store w :=
  m.filter fun e => e.1 < lo || hi ≤ e.1

/-- Every entry lies above `lo`, and what follows is canonical. -/
def Store.wfAbove {w : Nat} : Nat → Store w → Bool
  | _, [] => true
  | lo, (k, v) :: m => decide (lo ≤ k) && decide (v ≠ 0) && Store.wfAbove (k + 1) m

/-- The canonical form of a store. -/
def Store.wf {w : Nat} (m : Store w) : Bool := Store.wfAbove 0 m

/-- The reset value of instance `i` of field `f` on a page of instance number `inst` (R8). -/
def Fld.reset (f : Fld) (inst i : Nat) : Nat :=
  match f.rst with
  | .const v => v
  | .inst => inst
  | .fromIndex k v => if k ≤ i then v else 0

/-- The key of instance `i` of field `f` of page number `pg` in the register file: the bit address of the
field's lowest bit in the register window. Whatever the instance, it lies on the page. -/
def Fld.key (f : Fld) (pg i : Nat) : Nat := (pg * 4096 + (f.off + f.stride * i) % 4096) * 32 + f.lo % 32

end Sys2Proof.Machine
end

