-- ==== Sys2Proof/Machine/Regs.lean ====
section
/-!
DEFINITION. Machine/Regs.lean: every register field of the spec (the page header of R100 under HDR), one
definition per field, named PAGE.REGISTER_FIELD, and the pages of R116. A field stands as: offset, instances, stride,
lowest bit, width, access, reset value, range, CONFIG-only. Fields marked "reserved" or "—" are not listed (R6).
A field for which the spec prints no reset value ("—") has reset value 0 here (DESIGN CHOICE, log entry 1).
-/
namespace Sys2Proof.Machine

/-! ### Page HDR -/
/-- `PAGE_ID.VERSION` of R100. -/
def HDR.PAGE_ID_VERSION : Fld := ⟨0x000, 1, 0x0, 0, 8, .ro, .const 0x1, .any, false⟩
/-- `PAGE_ID.INSTANCE` of R100. -/
def HDR.PAGE_ID_INSTANCE : Fld := ⟨0x000, 1, 0x0, 8, 8, .ro, .const 0, .any, false⟩
/-- `PAGE_ID.BLOCK` of R100. -/
def HDR.PAGE_ID_BLOCK : Fld := ⟨0x000, 1, 0x0, 16, 16, .ro, .const 0, .any, false⟩
/-- `PAGE_CAPS.STAGED` of R100. -/
def HDR.PAGE_CAPS_STAGED : Fld := ⟨0x004, 1, 0x0, 0, 1, .ro, .const 0, .any, false⟩
/-- `PAGE_CAPS.LOCKABLE` of R100. -/
def HDR.PAGE_CAPS_LOCKABLE : Fld := ⟨0x004, 1, 0x0, 1, 1, .ro, .const 0, .any, false⟩
/-- `PAGE_CAPS.CLOCKED` of R100. -/
def HDR.PAGE_CAPS_CLOCKED : Fld := ⟨0x004, 1, 0x0, 2, 1, .ro, .const 0, .any, false⟩
/-- `PAGE_CAPS.IRQ_BITS` of R100. -/
def HDR.PAGE_CAPS_IRQ_BITS : Fld := ⟨0x004, 1, 0x0, 8, 8, .ro, .const 0, .any, false⟩
/-- `PAGE_CAPS.BLOCK_CAPS` of R100. -/
def HDR.PAGE_CAPS_BLOCK_CAPS : Fld := ⟨0x004, 1, 0x0, 16, 16, .ro, .const 0, .any, false⟩
/-- `IRQ_RAW.BITS` of R100. -/
def HDR.IRQ_RAW_BITS : Fld := ⟨0x010, 1, 0x0, 0, 32, .ro, .const 0, .any, false⟩
/-- `IRQ_ENABLE.BITS` of R100. -/
def HDR.IRQ_ENABLE_BITS : Fld := ⟨0x014, 1, 0x0, 0, 32, .rw, .const 0, .any, false⟩
/-- `IRQ_STATUS.BITS` of R100. -/
def HDR.IRQ_STATUS_BITS : Fld := ⟨0x018, 1, 0x0, 0, 32, .w1c, .const 0, .any, false⟩
/-- `IRQ_FORCE.BITS` of R100. -/
def HDR.IRQ_FORCE_BITS : Fld := ⟨0x01C, 1, 0x0, 0, 32, .wo, .const 0, .any, false⟩
/-- `SHADOW_COMMIT.COMMIT` of R100. -/
def HDR.SHADOW_COMMIT_COMMIT : Fld := ⟨0x020, 1, 0x0, 0, 1, .wo, .const 0, .any, false⟩
/-- `CFG_ERROR.CODE` of R100. -/
def HDR.CFG_ERROR_CODE : Fld := ⟨0x024, 1, 0x0, 0, 8, .rc, .const 0, .any, false⟩
/-- `CFG_ERROR.OFFSET` of R100. -/
def HDR.CFG_ERROR_OFFSET : Fld := ⟨0x024, 1, 0x0, 8, 12, .rc, .const 0, .any, false⟩
/-- `CFG_ERROR.INITIATOR` of R100. -/
def HDR.CFG_ERROR_INITIATOR : Fld := ⟨0x024, 1, 0x0, 20, 8, .rc, .const 0, .any, false⟩
/-- `OWNER.KEY` of R100. -/
def HDR.OWNER_KEY : Fld := ⟨0x028, 1, 0x0, 0, 6, .ro, .const 0, .any, false⟩
/-- `OWNER.GUARDED` of R100. -/
def HDR.OWNER_GUARDED : Fld := ⟨0x028, 1, 0x0, 7, 1, .ro, .const 0, .any, false⟩
/-- `OWNER.HOLDER` of R100. -/
def HDR.OWNER_HOLDER : Fld := ⟨0x028, 1, 0x0, 8, 8, .ro, .const 0, .any, false⟩
/-- `PAGE_LOCK.LOCKED` of R100. -/
def HDR.PAGE_LOCK_LOCKED : Fld := ⟨0x02C, 1, 0x0, 0, 1, .w1s, .const 0, .any, false⟩
/-! ### Page SYS -/
/-- `STATUS.TRANS_BUSY` of R38. -/
def SYS.STATUS_TRANS_BUSY : Fld := ⟨0x00C, 1, 0x0, 0, 1, .ro, .const 0x1, .any, false⟩
/-- `STATUS.REQ_REFUSED` of R38. -/
def SYS.STATUS_REQ_REFUSED : Fld := ⟨0x00C, 1, 0x0, 1, 1, .ro, .const 0, .any, false⟩
/-- `STATUS.SUPA_LS_ERR` of R38. -/
def SYS.STATUS_SUPA_LS_ERR : Fld := ⟨0x00C, 1, 0x0, 2, 1, .ro, .const 0, .any, false⟩
/-- `STATUS.SUPB_LS_ERR` of R38. -/
def SYS.STATUS_SUPB_LS_ERR : Fld := ⟨0x00C, 1, 0x0, 3, 1, .ro, .const 0, .any, false⟩
/-- `STATUS.DIE_LINK_OK` of R38. -/
def SYS.STATUS_DIE_LINK_OK : Fld := ⟨0x00C, 1, 0x0, 4, 1, .ro, .const 0, .any, false⟩
/-- `STATUS.ECC_UE_SEEN` of R38. -/
def SYS.STATUS_ECC_UE_SEEN : Fld := ⟨0x00C, 1, 0x0, 5, 1, .ro, .const 0, .any, false⟩
/-- `MODE.MODE` of R39. -/
def SYS.MODE_MODE : Fld := ⟨0x040, 1, 0x0, 0, 4, .ro, .const 0x1, .any, false⟩
/-- `MODE.PREV_MODE` of R39. -/
def SYS.MODE_PREV_MODE : Fld := ⟨0x040, 1, 0x0, 4, 4, .ro, .const 0, .any, false⟩
/-- `MODE.ENTRY_CAUSE` of R39. -/
def SYS.MODE_ENTRY_CAUSE : Fld := ⟨0x040, 1, 0x0, 8, 8, .ro, .const 0, .any, false⟩
/-- `MODE_REQ.TARGET` of R39. -/
def SYS.MODE_REQ_TARGET : Fld := ⟨0x044, 1, 0x0, 0, 4, .rw, .const 0, .any, false⟩
/-- `SAFE_STOP_CAUSE.FIRST` of R39. -/
def SYS.SAFE_STOP_CAUSE_FIRST : Fld := ⟨0x048, 1, 0x0, 0, 16, .ro, .const 0, .any, false⟩
/-- `SAFE_STOP_CAUSE.COUNT` of R39. -/
def SYS.SAFE_STOP_CAUSE_COUNT : Fld := ⟨0x048, 1, 0x0, 16, 16, .ro, .const 0, .any, false⟩
/-- `CYC_LO.CYC_LO` of R39. -/
def SYS.CYC_LO_CYC_LO : Fld := ⟨0x050, 1, 0x0, 0, 32, .ro, .const 0, .any, false⟩
/-- `CYC_HI.CYC_HI` of R39. -/
def SYS.CYC_HI_CYC_HI : Fld := ⟨0x054, 1, 0x0, 0, 32, .ro, .const 0, .any, false⟩
/-- `DEVICE_ID.PART` of R39. -/
def SYS.DEVICE_ID_PART : Fld := ⟨0x058, 1, 0x0, 0, 16, .ro, .const 0xF08, .any, false⟩
/-- `DEVICE_ID.SILICON` of R39. -/
def SYS.DEVICE_ID_SILICON : Fld := ⟨0x058, 1, 0x0, 16, 8, .ro, .const 0, .any, false⟩
/-- `STRAPS.BOOT_S` of R39. -/
def SYS.STRAPS_BOOT_S : Fld := ⟨0x05C, 1, 0x0, 0, 3, .ro, .const 0, .any, false⟩
/-- `STRAPS.PORCH_A` of R39. -/
def SYS.STRAPS_PORCH_A : Fld := ⟨0x05C, 1, 0x0, 3, 1, .ro, .const 0, .any, false⟩
/-- `STRAPS.PORCH_B` of R39. -/
def SYS.STRAPS_PORCH_B : Fld := ⟨0x05C, 1, 0x0, 4, 1, .ro, .const 0, .any, false⟩
/-- `STRAPS.DEVID` of R39. -/
def SYS.STRAPS_DEVID : Fld := ⟨0x05C, 1, 0x0, 5, 2, .ro, .const 0, .any, false⟩
/-- `ECC_CE_COUNT.COUNT` of R39. -/
def SYS.ECC_CE_COUNT_COUNT : Fld := ⟨0x060, 1, 0x0, 0, 32, .rc, .const 0, .any, false⟩
/-- `ECC_UE_COUNT.COUNT` of R39. -/
def SYS.ECC_UE_COUNT_COUNT : Fld := ⟨0x064, 1, 0x0, 0, 32, .rc, .const 0, .any, false⟩
/-- `ECC_LAST_ADDR.ADDR` of R39. -/
def SYS.ECC_LAST_ADDR_ADDR : Fld := ⟨0x068, 1, 0x0, 0, 32, .ro, .const 0, .any, false⟩
/-! ### Page POWER -/
/-- `STATUS.BUSY` of chapter 17. -/
def POWER.STATUS_BUSY : Fld := ⟨0x00C, 1, 0x0, 0, 1, .ro, .const 0, .any, false⟩
/-- `STATE.STATE` of R888. -/
def POWER.STATE_STATE : Fld := ⟨0x040, 1, 0x0, 0, 3, .ro, .const 0, .any, false⟩
/-- `STATE.PREV` of R888. -/
def POWER.STATE_PREV : Fld := ⟨0x040, 1, 0x0, 4, 3, .ro, .const 0, .any, false⟩
/-- `STATE.REFUSE` of R888. -/
def POWER.STATE_REFUSE : Fld := ⟨0x040, 1, 0x0, 8, 3, .ro, .const 0, .any, false⟩
/-- `CMD.TARGET` of R888. -/
def POWER.CMD_TARGET : Fld := ⟨0x044, 1, 0x0, 0, 3, .wo, .const 0, .any, false⟩
/-- `WAKECFG.PORCHA` of R888. -/
def POWER.WAKECFG_PORCHA : Fld := ⟨0x048, 1, 0x0, 0, 1, .rw, .const 0x1, .any, false⟩
/-- `WAKECFG.PORCHB` of R888. -/
def POWER.WAKECFG_PORCHB : Fld := ⟨0x048, 1, 0x0, 1, 1, .rw, .const 0x1, .any, false⟩
/-- `WAKECFG.TRIG0` of R888. -/
def POWER.WAKECFG_TRIG0 : Fld := ⟨0x048, 1, 0x0, 2, 1, .rw, .const 0, .any, false⟩
/-- `WAKE.SRC` of R888. -/
def POWER.WAKE_SRC : Fld := ⟨0x04C, 1, 0x0, 0, 2, .ro, .const 0, .any, false⟩
/-! ### Page CLOCK -/
/-- `STATUS.SYS_LOCK` of R884. -/
def CLOCK.STATUS_SYS_LOCK : Fld := ⟨0x00C, 1, 0x0, 0, 1, .ro, .const 0, .any, false⟩
/-- `STATUS.CLN_LOCK` of R884. -/
def CLOCK.STATUS_CLN_LOCK : Fld := ⟨0x00C, 1, 0x0, 1, 1, .ro, .const 0, .any, false⟩
/-- `STATUS.SUBST` of R884. -/
def CLOCK.STATUS_SUBST : Fld := ⟨0x00C, 1, 0x0, 2, 1, .ro, .const 0, .any, false⟩
/-- `STATUS.HOPPING` of R884. -/
def CLOCK.STATUS_HOPPING : Fld := ⟨0x00C, 1, 0x0, 3, 1, .ro, .const 0, .any, false⟩
/-- `STATUS.SS_ACTIVE` of R884. -/
def CLOCK.STATUS_SS_ACTIVE : Fld := ⟨0x00C, 1, 0x0, 4, 1, .ro, .const 0, .any, false⟩
/-- `STATUS.PROFILE_NOW` of R884. -/
def CLOCK.STATUS_PROFILE_NOW : Fld := ⟨0x00C, 1, 0x0, 5, 2, .ro, .const 0x1, .any, false⟩
/-- `STATUS.ROOT_OK` of R884. -/
def CLOCK.STATUS_ROOT_OK : Fld := ⟨0x00C, 1, 0x0, 7, 1, .ro, .const 0, .any, false⟩
/-- `STATUS.COMMIT_PENDING` of R884. -/
def CLOCK.STATUS_COMMIT_PENDING : Fld := ⟨0x00C, 1, 0x0, 31, 1, .ro, .const 0, .any, false⟩
/-- `SYSCFG.PROFILE` of R886. -/
def CLOCK.SYSCFG_PROFILE : Fld := ⟨0x040, 1, 0x0, 0, 2, .rws, .const 0x1, .nat 0 2, false⟩
/-- `SYSCFG.SS_MODE` of R886. -/
def CLOCK.SYSCFG_SS_MODE : Fld := ⟨0x040, 1, 0x0, 2, 2, .rws, .const 0, .nat 0 2, false⟩
/-- `SYSCFG.SS_DEPTH` of R886. -/
def CLOCK.SYSCFG_SS_DEPTH : Fld := ⟨0x040, 1, 0x0, 4, 4, .rws, .const 0, .any, false⟩
/-- `LOCKCFG.TOL` of R886. -/
def CLOCK.LOCKCFG_TOL : Fld := ⟨0x044, 1, 0x0, 0, 4, .rws, .const 0x2, .nat 1 15, false⟩
/-- `DOMSTAT.RUN` of R886. -/
def CLOCK.DOMSTAT_RUN : Fld := ⟨0x048, 1, 0x0, 0, 10, .ro, .const 0, .any, false⟩
/-- `BAND.BAND0` of R886. -/
def CLOCK.BAND_BAND0 : Fld := ⟨0x04C, 1, 0x0, 0, 8, .ro, .const 0, .any, false⟩
/-- `BAND.BAND1` of R886. -/
def CLOCK.BAND_BAND1 : Fld := ⟨0x04C, 1, 0x0, 8, 8, .ro, .const 0, .any, false⟩
/-- `BAND.BAND2` of R886. -/
def CLOCK.BAND_BAND2 : Fld := ⟨0x04C, 1, 0x0, 16, 8, .ro, .const 0, .any, false⟩
/-- `BAND.VALID` of R886. -/
def CLOCK.BAND_VALID : Fld := ⟨0x04C, 1, 0x0, 24, 3, .ro, .const 0, .any, false⟩
/-- `LOCK_LOST_COUNT.SYS` of R886. -/
def CLOCK.LOCK_LOST_COUNT_SYS : Fld := ⟨0x050, 1, 0x0, 0, 16, .rc, .const 0, .any, false⟩
/-- `LOCK_LOST_COUNT.CLN` of R886. -/
def CLOCK.LOCK_LOST_COUNT_CLN : Fld := ⟨0x050, 1, 0x0, 16, 16, .rc, .const 0, .any, false⟩
/-- `HOP_COUNT.HOPS` of R886. -/
def CLOCK.HOP_COUNT_HOPS : Fld := ⟨0x054, 1, 0x0, 0, 16, .ro, .const 0, .any, false⟩
/-- `HOP_COUNT.BAND_MISS` of R886. -/
def CLOCK.HOP_COUNT_BAND_MISS : Fld := ⟨0x054, 1, 0x0, 16, 16, .rc, .const 0, .any, false⟩
/-- `SUBST_TIME.US` of R886. -/
def CLOCK.SUBST_TIME_US : Fld := ⟨0x058, 1, 0x0, 0, 16, .ro, .const 0, .any, false⟩
/-- `XING.OVERRUN` of R886. -/
def CLOCK.XING_OVERRUN : Fld := ⟨0x05C, 1, 0x0, 0, 16, .rc, .const 0, .any, false⟩
/-- `XING.OVERFLOW` of R886. -/
def CLOCK.XING_OVERFLOW : Fld := ⟨0x05C, 1, 0x0, 16, 16, .rc, .const 0, .any, false⟩
/-- `ROOT_LOSS_COUNT.COUNT` of R886. -/
def CLOCK.ROOT_LOSS_COUNT_COUNT : Fld := ⟨0x060, 1, 0x0, 0, 16, .rc, .const 0, .any, false⟩
/-! ### Page RESET -/
/-- `STATUS.RSTREQ_IGNORED` of chapter 17. -/
def RESET.STATUS_RSTREQ_IGNORED : Fld := ⟨0x00C, 1, 0x0, 0, 1, .ro, .const 0, .any, false⟩
/-- `STATUS.RSTREQ_LOW` of chapter 17. -/
def RESET.STATUS_RSTREQ_LOW : Fld := ⟨0x00C, 1, 0x0, 1, 1, .ro, .const 0, .any, false⟩
/-- `CAUSE.CAUSE` of R887. -/
def RESET.CAUSE_CAUSE : Fld := ⟨0x040, 1, 0x0, 0, 4, .ro, .const 0x1, .any, false⟩
/-- `CAUSE.PREV` of R887. -/
def RESET.CAUSE_PREV : Fld := ⟨0x040, 1, 0x0, 4, 4, .ro, .const 0, .any, false⟩
/-- `RSTREQ_STUCK.STUCK` of R887. -/
def RESET.RSTREQ_STUCK_STUCK : Fld := ⟨0x044, 1, 0x0, 0, 1, .w1c, .const 0, .any, false⟩
/-- `RSTREQ_STUCK.COUNT` of R887. -/
def RESET.RSTREQ_STUCK_COUNT : Fld := ⟨0x044, 1, 0x0, 8, 8, .ro, .const 0, .any, false⟩
/-- `SWRST.CODE` of R887. -/
def RESET.SWRST_CODE : Fld := ⟨0x048, 1, 0x0, 0, 8, .wo, .const 0, .any, false⟩
/-- `RESET_COUNT.COUNT` of R887. -/
def RESET.RESET_COUNT_COUNT : Fld := ⟨0x04C, 1, 0x0, 0, 16, .ro, .const 0, .any, false⟩
/-! ### Page KEYRACK -/
/-- `KEY.BITS` of R99. -/
def KEYRACK.KEY_BITS : Fld := ⟨0x040, 64, 0x4, 0, 32, .rw, .const 0, .any, false⟩
/-- `HELD_LO.HELD` of R99. -/
def KEYRACK.HELD_LO_HELD : Fld := ⟨0x140, 1, 0x0, 0, 32, .ro, .const 0, .any, false⟩
/-- `HELD_HI.HELD` of R99. -/
def KEYRACK.HELD_HI_HELD : Fld := ⟨0x144, 1, 0x0, 0, 32, .ro, .const 0, .any, false⟩
/-- `RELEASE_MINE.GO` of R99. -/
def KEYRACK.RELEASE_MINE_GO : Fld := ⟨0x148, 1, 0x0, 0, 1, .wo, .const 0, .any, false⟩
/-- `FORCE_RELEASE.KEY` of R99. -/
def KEYRACK.FORCE_RELEASE_KEY : Fld := ⟨0x14C, 1, 0x0, 0, 6, .wo, .const 0, .any, false⟩
/-- `FORCE_RELEASE.GO` of R99. -/
def KEYRACK.FORCE_RELEASE_GO : Fld := ⟨0x14C, 1, 0x0, 31, 1, .wo, .const 0, .any, false⟩
/-- `FORCE_COUNT.COUNT` of R99. -/
def KEYRACK.FORCE_COUNT_COUNT : Fld := ⟨0x150, 1, 0x0, 0, 16, .rc, .const 0, .any, false⟩
/-- `BIND.PAGE` of R99. -/
def KEYRACK.BIND_PAGE : Fld := ⟨0x160, 16, 0x4, 0, 12, .rwl, .const 0, .any, false⟩
/-- `BIND.KEY` of R99. -/
def KEYRACK.BIND_KEY : Fld := ⟨0x160, 16, 0x4, 12, 6, .rwl, .const 0, .any, false⟩
/-- `BIND.EN` of R99. -/
def KEYRACK.BIND_EN : Fld := ⟨0x160, 16, 0x4, 31, 1, .rwl, .const 0, .any, false⟩
/-! ### Page PORCH -/
/-- `ERR_CODE.CODE` of R86. -/
def PORCH.ERR_CODE_CODE : Fld := ⟨0x040, 1, 0x0, 0, 4, .rc, .const 0, .any, false⟩
/-- `ERR_ADDR.ADDR` of R86. -/
def PORCH.ERR_ADDR_ADDR : Fld := ⟨0x044, 1, 0x0, 0, 32, .ro, .const 0, .any, false⟩
/-- `ERR_COUNT.COUNT` of R86. -/
def PORCH.ERR_COUNT_COUNT : Fld := ⟨0x048, 1, 0x0, 0, 16, .rc, .const 0, .any, false⟩
/-- `LINK.UP` of R86. -/
def PORCH.LINK_UP : Fld := ⟨0x04C, 1, 0x0, 0, 1, .ro, .const 0, .any, false⟩
/-- `LINK.MODE` of R86. -/
def PORCH.LINK_MODE : Fld := ⟨0x04C, 1, 0x0, 1, 1, .ro, .const 0, .any, false⟩
/-- `LINK.SPEED` of R86. -/
def PORCH.LINK_SPEED : Fld := ⟨0x04C, 1, 0x0, 2, 2, .ro, .const 0, .any, false⟩
/-- `LINK.MSI_EN` of R86. -/
def PORCH.LINK_MSI_EN : Fld := ⟨0x04C, 1, 0x0, 4, 1, .ro, .const 0, .any, false⟩
/-- `CFG.ERR_MODE` of R86. -/
def PORCH.CFG_ERR_MODE : Fld := ⟨0x050, 1, 0x0, 0, 1, .rw, .const 0, .any, false⟩
/-! ### Page IRQ -/
/-- `ROUTE.TARGETS` of R114. -/
def IRQ.ROUTE_TARGETS : Fld := ⟨0x040, 256, 0x4, 0, 4, .rw, .const 0, .any, false⟩
/-- `ROUTE.PRIO` of R114. -/
def IRQ.ROUTE_PRIO : Fld := ⟨0x040, 256, 0x4, 8, 4, .rw, .const 0, .any, false⟩
/-- `ROUTE.ACTIVE` of R114. -/
def IRQ.ROUTE_ACTIVE : Fld := ⟨0x040, 256, 0x4, 16, 1, .ro, .const 0, .any, false⟩
/-- `CLAIM.SRC` of R114. -/
def IRQ.CLAIM_SRC : Fld := ⟨0x4C0, 4, 0x4, 0, 9, .ro, .const 0x100, .any, false⟩
/-- `EOI.EOI` of R114. -/
def IRQ.EOI_EOI : Fld := ⟨0x4D0, 4, 0x4, 0, 1, .wo, .const 0, .any, false⟩
/-- `DOORBELL.SRC` of R114. -/
def IRQ.DOORBELL_SRC : Fld := ⟨0x4E0, 1, 0x0, 0, 8, .wo, .const 0, .any, false⟩
/-- `DB_STATUS_LO.DB` of R114. -/
def IRQ.DB_STATUS_LO_DB : Fld := ⟨0x4E8, 1, 0x0, 0, 32, .w1c, .const 0, .any, false⟩
/-- `DB_STATUS_HI.DB` of R114. -/
def IRQ.DB_STATUS_HI_DB : Fld := ⟨0x4EC, 1, 0x0, 0, 32, .w1c, .const 0, .any, false⟩
/-! ### Page LE -/
/-- `CTRL.EN` of R306. -/
def LE.CTRL_EN : Fld := ⟨0x008, 1, 0x0, 0, 1, .rws, .const 0, .any, true⟩
/-- `CTRL.COEF_SWAP` of R306. -/
def LE.CTRL_COEF_SWAP : Fld := ⟨0x008, 1, 0x0, 1, 1, .wo, .const 0, .any, false⟩
/-- `CTRL.RESUME` of R306. -/
def LE.CTRL_RESUME : Fld := ⟨0x008, 1, 0x0, 2, 1, .wo, .const 0, .any, false⟩
/-- `STATUS.STATE` of R307. -/
def LE.STATUS_STATE : Fld := ⟨0x00C, 1, 0x0, 0, 4, .ro, .const 0, .any, false⟩
/-- `STATUS.BUSY` of R307. -/
def LE.STATUS_BUSY : Fld := ⟨0x00C, 1, 0x0, 4, 1, .ro, .const 0, .any, false⟩
/-- `STATUS.STALE` of R307. -/
def LE.STATUS_STALE : Fld := ⟨0x00C, 1, 0x0, 5, 1, .ro, .const 0, .any, false⟩
/-- `STATUS.COEF_FAIL` of R307. -/
def LE.STATUS_COEF_FAIL : Fld := ⟨0x00C, 1, 0x0, 6, 1, .ro, .const 0, .any, false⟩
/-- `STATUS.DUTY_LIVE` of R307. -/
def LE.STATUS_DUTY_LIVE : Fld := ⟨0x00C, 1, 0x0, 7, 1, .ro, .const 0, .any, false⟩
/-- `STATUS.PROG` of R307. -/
def LE.STATUS_PROG : Fld := ⟨0x00C, 1, 0x0, 8, 3, .ro, .const 0, .any, false⟩
/-- `STATUS.FAULT_CAUSE` of R307. -/
def LE.STATUS_FAULT_CAUSE : Fld := ⟨0x00C, 1, 0x0, 16, 8, .ro, .const 0, .any, false⟩
/-- `STATUS.COMMIT_PENDING` of R307. -/
def LE.STATUS_COMMIT_PENDING : Fld := ⟨0x00C, 1, 0x0, 31, 1, .ro, .const 0, .any, false⟩
/-- `BANKS.FIRST` of R310. -/
def LE.BANKS_FIRST : Fld := ⟨0x040, 1, 0x0, 0, 4, .rws, .inst, .any, true⟩
/-- `BANKS.COUNT` of R310. -/
def LE.BANKS_COUNT : Fld := ⟨0x040, 1, 0x0, 4, 5, .rws, .const 0x1, .nat 1 16, true⟩
/-- `TRIG.KIND` of R310. -/
def LE.TRIG_KIND : Fld := ⟨0x044, 1, 0x0, 0, 4, .rws, .const 0, .nat 0 6, true⟩
/-- `TRIG.INDEX` of R310. -/
def LE.TRIG_INDEX : Fld := ⟨0x044, 1, 0x0, 4, 8, .rws, .const 0, .any, true⟩
/-- `TRIG.EVT` of R310. -/
def LE.TRIG_EVT : Fld := ⟨0x044, 1, 0x0, 12, 2, .rws, .const 0, .nat 0 2, true⟩
/-- `TRIG.DIV` of R310. -/
def LE.TRIG_DIV : Fld := ⟨0x044, 1, 0x0, 16, 8, .rws, .const 0, .any, true⟩
/-- `TRIG.PHASE` of R310. -/
def LE.TRIG_PHASE : Fld := ⟨0x044, 1, 0x0, 24, 8, .rws, .const 0, .any, true⟩
/-- `PROG.START` of R310. -/
def LE.PROG_START : Fld := ⟨0x048, 5, 0x4, 0, 12, .rws, .const 0, .any, true⟩
/-- `PROG.LIMSET` of R310. -/
def LE.PROG_LIMSET : Fld := ⟨0x048, 5, 0x4, 12, 1, .rws, .const 0, .any, true⟩
/-- `PROG.EN` of R310. -/
def LE.PROG_EN : Fld := ⟨0x048, 5, 0x4, 15, 1, .rws, .const 0, .any, true⟩
/-- `STALE.LIMIT` of R310. -/
def LE.STALE_LIMIT : Fld := ⟨0x05C, 1, 0x0, 0, 8, .rws, .const 0x2, .nat 1 255, false⟩
/-- `STALE.ACTION` of R310. -/
def LE.STALE_ACTION : Fld := ⟨0x05C, 1, 0x0, 8, 2, .rws, .const 0x2, .nat 0 2, false⟩
/-- `WATCH.MASK` of R310. -/
def LE.WATCH_MASK : Fld := ⟨0x060, 1, 0x0, 0, 32, .rws, .const 0, .any, false⟩
/-- `BLEND.MS` of R310. -/
def LE.BLEND_MS : Fld := ⟨0x064, 1, 0x0, 0, 7, .rws, .const 0xA, .nat 1 100, false⟩
/-- `FORMSLOT.GROUP` of R310. -/
def LE.FORMSLOT_GROUP : Fld := ⟨0x068, 1, 0x0, 0, 2, .rws, .const 0x3, .any, true⟩
/-- `FORMSLOT.EN` of R310. -/
def LE.FORMSLOT_EN : Fld := ⟨0x068, 1, 0x0, 2, 1, .rws, .const 0, .any, true⟩
/-- `DMAP.COEF_BASE` of R310. -/
def LE.DMAP_COEF_BASE : Fld := ⟨0x06C, 1, 0x0, 0, 9, .rws, .const 0x100, .any, true⟩
/-- `DMAP.COEF_LEN` of R310. -/
def LE.DMAP_COEF_LEN : Fld := ⟨0x06C, 1, 0x0, 16, 10, .rws, .const 0, .nat 0 512, true⟩
/-- `COEF_MASTER.ADDR` of R310. -/
def LE.COEF_MASTER_ADDR : Fld := ⟨0x070, 1, 0x0, 0, 32, .rws, .const 0, .any, true⟩
/-- `COEF_STAGE.ADDR` of R310. -/
def LE.COEF_STAGE_ADDR : Fld := ⟨0x074, 1, 0x0, 0, 32, .rw, .const 0, .any, false⟩
/-- `RUN_CYCLES.CYCLES` of R310. -/
def LE.RUN_CYCLES_CYCLES : Fld := ⟨0x078, 1, 0x0, 0, 16, .ro, .const 0, .any, false⟩
/-- `RUN_CYCLES.DUTY_CYC` of R310. -/
def LE.RUN_CYCLES_DUTY_CYC : Fld := ⟨0x078, 1, 0x0, 16, 16, .ro, .const 0, .any, false⟩
/-- `LAT_MAX.MAX` of R310. -/
def LE.LAT_MAX_MAX : Fld := ⟨0x07C, 1, 0x0, 0, 16, .rc, .const 0, .any, false⟩
/-- `RUN_COUNT.COUNT` of R310. -/
def LE.RUN_COUNT_COUNT : Fld := ⟨0x080, 1, 0x0, 0, 32, .ro, .const 0, .any, false⟩
/-- `OVERRUN_COUNT.COUNT` of R310. -/
def LE.OVERRUN_COUNT_COUNT : Fld := ⟨0x084, 1, 0x0, 0, 16, .rc, .const 0, .any, false⟩
/-- `STALE_COUNT.COUNT` of R310. -/
def LE.STALE_COUNT_COUNT : Fld := ⟨0x088, 1, 0x0, 0, 16, .rc, .const 0, .any, false⟩
/-- `SKIP_COUNT.COUNT` of R310. -/
def LE.SKIP_COUNT_COUNT : Fld := ⟨0x08C, 1, 0x0, 0, 16, .rc, .const 0, .any, false⟩
/-- `BLEND_COUNT.COUNT` of R310. -/
def LE.BLEND_COUNT_COUNT : Fld := ⟨0x090, 1, 0x0, 0, 16, .rc, .const 0, .any, false⟩
/-- `SLOTROUTE.KIND` of R311. -/
def LE.SLOTROUTE_KIND : Fld := ⟨0x100, 32, 0x4, 0, 4, .rws, .const 0, .nat 0 3, true⟩
/-- `SLOTROUTE.INDEX` of R311. -/
def LE.SLOTROUTE_INDEX : Fld := ⟨0x100, 32, 0x4, 4, 7, .rws, .const 0, .any, true⟩
/-- `SLOTSTAT.FRESH` of R311. -/
def LE.SLOTSTAT_FRESH : Fld := ⟨0x180, 32, 0x4, 0, 8, .ro, .const 0, .any, false⟩
/-- `SLOTSTAT.AGE` of R311. -/
def LE.SLOTSTAT_AGE : Fld := ⟨0x180, 32, 0x4, 8, 8, .ro, .const 0, .any, false⟩
/-- `SLOTSTAT.VALID` of R311. -/
def LE.SLOTSTAT_VALID : Fld := ⟨0x180, 32, 0x4, 16, 1, .ro, .const 0, .any, false⟩
/-- `SLOTVAL.VALUE` of R311. -/
def LE.SLOTVAL_VALUE : Fld := ⟨0x200, 32, 0x4, 0, 32, .ro, .const 0, .any, false⟩
/-- `SP_CFG.RAMP_EN` of R311. -/
def LE.SP_CFG_RAMP_EN : Fld := ⟨0x300, 8, 0x10, 0, 1, .rws, .const 0, .any, true⟩
/-- `SP_CFG.MEAS_KIND` of R311. -/
def LE.SP_CFG_MEAS_KIND : Fld := ⟨0x300, 8, 0x10, 1, 1, .rws, .const 0, .any, true⟩
/-- `SP_CFG.MEAS_IDX` of R311. -/
def LE.SP_CFG_MEAS_IDX : Fld := ⟨0x300, 8, 0x10, 2, 9, .rws, .const 0, .any, true⟩
/-- `SP_RATE.VALUE` of R311. -/
def LE.SP_RATE_VALUE : Fld := ⟨0x304, 8, 0x10, 0, 32, .rws, .const 0x3C23D70A, .finite, false⟩
/-- `SP_TARGET.VALUE` of R311. -/
def LE.SP_TARGET_VALUE : Fld := ⟨0x308, 8, 0x10, 0, 32, .rw, .const 0, .any, false⟩
/-- `SP_VALUE.VALUE` of R311. -/
def LE.SP_VALUE_VALUE : Fld := ⟨0x30C, 8, 0x10, 0, 32, .ro, .const 0, .any, false⟩
/-- `OPORT_CFG.KIND` of R311. -/
def LE.OPORT_CFG_KIND : Fld := ⟨0x400, 8, 0x20, 0, 2, .rws, .const 0, .any, true⟩
/-- `OPORT_CFG.UNIT` of R311. -/
def LE.OPORT_CFG_UNIT : Fld := ⟨0x400, 8, 0x20, 2, 4, .rws, .const 0, .any, true⟩
/-- `OPORT_CFG.INDEX` of R311. -/
def LE.OPORT_CFG_INDEX : Fld := ⟨0x400, 8, 0x20, 6, 3, .rws, .const 0, .any, true⟩
/-- `OPORT_CFG.SPLIT` of R311. -/
def LE.OPORT_CFG_SPLIT : Fld := ⟨0x400, 8, 0x20, 9, 1, .rws, .const 0, .any, true⟩
/-- `OPORT_LO0.VALUE` of R311. -/
def LE.OPORT_LO0_VALUE : Fld := ⟨0x404, 8, 0x20, 0, 32, .rws, .const 0xBF800000, .finite, false⟩
/-- `OPORT_HI0.VALUE` of R311. -/
def LE.OPORT_HI0_VALUE : Fld := ⟨0x408, 8, 0x20, 0, 32, .rws, .const 0x3F800000, .finite, false⟩
/-- `OPORT_LO1.VALUE` of R311. -/
def LE.OPORT_LO1_VALUE : Fld := ⟨0x40C, 8, 0x20, 0, 32, .rws, .const 0xBF800000, .finite, false⟩
/-- `OPORT_HI1.VALUE` of R311. -/
def LE.OPORT_HI1_VALUE : Fld := ⟨0x410, 8, 0x20, 0, 32, .rws, .const 0x3F800000, .finite, false⟩
/-- `OPORT_BUMP.VALUE` of R311. -/
def LE.OPORT_BUMP_VALUE : Fld := ⟨0x414, 8, 0x20, 0, 32, .rws, .const 0x3CA3D70A, .finite, false⟩
/-- `OPORT_LAST.VALUE` of R311. -/
def LE.OPORT_LAST_VALUE : Fld := ⟨0x418, 8, 0x20, 0, 32, .ro, .const 0, .any, false⟩
/-! ### Page LPS -/
/-- `STATUS.LOAD_BUSY` of R358. -/
def LPS.STATUS_LOAD_BUSY : Fld := ⟨0x00C, 1, 0x0, 0, 1, .ro, .const 0, .any, false⟩
/-- `STATUS.LIB_BUSY` of R358. -/
def LPS.STATUS_LIB_BUSY : Fld := ⟨0x00C, 1, 0x0, 1, 1, .ro, .const 0, .any, false⟩
/-- `LOAD_SRC.ADDR` of R360. -/
def LPS.LOAD_SRC_ADDR : Fld := ⟨0x040, 1, 0x0, 0, 32, .rw, .const 0, .any, false⟩
/-- `LOAD_CMD.FIRST` of R360. -/
def LPS.LOAD_CMD_FIRST : Fld := ⟨0x044, 1, 0x0, 0, 4, .wo, .const 0, .any, false⟩
/-- `LOAD_CMD.COUNT` of R360. -/
def LPS.LOAD_CMD_COUNT : Fld := ⟨0x044, 1, 0x0, 4, 5, .wo, .const 0, .any, false⟩
/-- `LOAD_CMD.GO` of R360. -/
def LPS.LOAD_CMD_GO : Fld := ⟨0x044, 1, 0x0, 31, 1, .wo, .const 0, .any, false⟩
/-- `LOAD_STATUS.BUSY` of R360. -/
def LPS.LOAD_STATUS_BUSY : Fld := ⟨0x048, 1, 0x0, 0, 1, .ro, .const 0, .any, false⟩
/-- `LOAD_STATUS.RESULT` of R360. -/
def LPS.LOAD_STATUS_RESULT : Fld := ⟨0x048, 1, 0x0, 4, 4, .ro, .const 0, .any, false⟩
/-- `LOAD_STATUS.WORD` of R360. -/
def LPS.LOAD_STATUS_WORD : Fld := ⟨0x048, 1, 0x0, 8, 12, .ro, .const 0, .any, false⟩
/-- `LIB_CMD.ID` of R360. -/
def LPS.LIB_CMD_ID : Fld := ⟨0x04C, 1, 0x0, 0, 8, .wo, .const 0, .any, false⟩
/-- `LIB_CMD.GO` of R360. -/
def LPS.LIB_CMD_GO : Fld := ⟨0x04C, 1, 0x0, 31, 1, .wo, .const 0, .any, false⟩
/-- `LIB_DEST.ADDR` of R360. -/
def LPS.LIB_DEST_ADDR : Fld := ⟨0x050, 1, 0x0, 0, 32, .rw, .const 0, .any, false⟩
/-- `LIB_STATUS.BUSY` of R360. -/
def LPS.LIB_STATUS_BUSY : Fld := ⟨0x054, 1, 0x0, 0, 1, .ro, .const 0, .any, false⟩
/-- `LIB_STATUS.RESULT` of R360. -/
def LPS.LIB_STATUS_RESULT : Fld := ⟨0x054, 1, 0x0, 1, 3, .ro, .const 0, .any, false⟩
/-- `LIB_STATUS.WORDS` of R360. -/
def LPS.LIB_STATUS_WORDS : Fld := ⟨0x054, 1, 0x0, 16, 12, .ro, .const 0, .any, false⟩
/-- `VALID.BANK` of R360. -/
def LPS.VALID_BANK : Fld := ⟨0x058, 1, 0x0, 0, 16, .ro, .const 0, .any, false⟩
/-- `INJECT.ADDR` of R360. -/
def LPS.INJECT_ADDR : Fld := ⟨0x05C, 1, 0x0, 0, 12, .rw, .const 0, .any, false⟩
/-- `INJECT.ENGINE` of R360. -/
def LPS.INJECT_ENGINE : Fld := ⟨0x05C, 1, 0x0, 12, 4, .rw, .const 0, .any, false⟩
/-- `INJECT.KIND` of R360. -/
def LPS.INJECT_KIND : Fld := ⟨0x05C, 1, 0x0, 16, 2, .rw, .const 0, .any, false⟩
/-- `INJECT.ARM` of R360. -/
def LPS.INJECT_ARM : Fld := ⟨0x05C, 1, 0x0, 31, 1, .w1s, .const 0, .any, false⟩
/-- `BANKMASTER.ADDR` of R360. -/
def LPS.BANKMASTER_ADDR : Fld := ⟨0x080, 16, 0x4, 0, 32, .ro, .const 0, .any, false⟩
/-- `LAST_REFETCH.WORD` of R360. -/
def LPS.LAST_REFETCH_WORD : Fld := ⟨0x0C0, 16, 0x4, 0, 12, .ro, .const 0, .any, false⟩
/-- `LAST_REFETCH.SET` of R360. -/
def LPS.LAST_REFETCH_SET : Fld := ⟨0x0C0, 16, 0x4, 31, 1, .ro, .const 0, .any, false⟩
/-- `FETCH_REPLAY.COUNT` of R360. -/
def LPS.FETCH_REPLAY_COUNT : Fld := ⟨0x100, 16, 0x10, 0, 16, .rc, .const 0, .any, false⟩
/-- `OPND_REPLAY.COUNT` of R360. -/
def LPS.OPND_REPLAY_COUNT : Fld := ⟨0x104, 16, 0x10, 0, 16, .rc, .const 0, .any, false⟩
/-- `COEF.REPLAY` of R360. -/
def LPS.COEF_REPLAY : Fld := ⟨0x108, 16, 0x10, 0, 16, .rc, .const 0, .any, false⟩
/-- `COEF.WR_DISCARD` of R360. -/
def LPS.COEF_WR_DISCARD : Fld := ⟨0x108, 16, 0x10, 16, 16, .rc, .const 0, .any, false⟩
/-- `LAST_ERR.LPS_WORD` of R360. -/
def LPS.LAST_ERR_LPS_WORD : Fld := ⟨0x10C, 16, 0x10, 0, 12, .ro, .const 0, .any, false⟩
/-- `LAST_ERR.DATA_WORD` of R360. -/
def LPS.LAST_ERR_DATA_WORD : Fld := ⟨0x10C, 16, 0x10, 12, 9, .ro, .const 0, .any, false⟩
/-- `LAST_ERR.KIND` of R360. -/
def LPS.LAST_ERR_KIND : Fld := ⟨0x10C, 16, 0x10, 21, 3, .ro, .const 0, .any, false⟩
/-! ### Page FORM -/
/-- `CTRL.HARM_EN` of R174. -/
def FORM.CTRL_HARM_EN : Fld := ⟨0x008, 1, 0x0, 0, 1, .rws, .const 0, .any, false⟩
/-- `CTRL.DEADBUS_EN` of R174. -/
def FORM.CTRL_DEADBUS_EN : Fld := ⟨0x008, 1, 0x0, 1, 1, .rws, .const 0, .any, false⟩
/-- `STATUS.STATE` of R175. -/
def FORM.STATUS_STATE : Fld := ⟨0x00C, 1, 0x0, 0, 4, .ro, .const 0, .any, false⟩
/-- `STATUS.CUR_LIMIT` of R175. -/
def FORM.STATUS_CUR_LIMIT : Fld := ⟨0x00C, 1, 0x0, 4, 1, .ro, .const 0, .any, false⟩
/-- `STATUS.ANGLE_LIMIT` of R175. -/
def FORM.STATUS_ANGLE_LIMIT : Fld := ⟨0x00C, 1, 0x0, 5, 1, .ro, .const 0, .any, false⟩
/-- `STATUS.FREQ_CLAMP` of R175. -/
def FORM.STATUS_FREQ_CLAMP : Fld := ⟨0x00C, 1, 0x0, 6, 1, .ro, .const 0, .any, false⟩
/-- `STATUS.E_CLAMP` of R175. -/
def FORM.STATUS_E_CLAMP : Fld := ⟨0x00C, 1, 0x0, 7, 1, .ro, .const 0, .any, false⟩
/-- `STATUS.SLOT_CLAMP` of R175. -/
def FORM.STATUS_SLOT_CLAMP : Fld := ⟨0x00C, 1, 0x0, 8, 1, .ro, .const 0, .any, false⟩
/-- `STATUS.CLOSE_PERMIT` of R175. -/
def FORM.STATUS_CLOSE_PERMIT : Fld := ⟨0x00C, 1, 0x0, 9, 1, .ro, .const 0, .any, false⟩
/-- `STATUS.I_FB_OK` of R175. -/
def FORM.STATUS_I_FB_OK : Fld := ⟨0x00C, 1, 0x0, 10, 1, .ro, .const 0, .any, false⟩
/-- `STATUS.V_FB_OK` of R175. -/
def FORM.STATUS_V_FB_OK : Fld := ⟨0x00C, 1, 0x0, 11, 1, .ro, .const 0, .any, false⟩
/-- `STATUS.G_FB_OK` of R175. -/
def FORM.STATUS_G_FB_OK : Fld := ⟨0x00C, 1, 0x0, 12, 1, .ro, .const 0, .any, false⟩
/-- `STATUS.FAULT_CAUSE` of R175. -/
def FORM.STATUS_FAULT_CAUSE : Fld := ⟨0x00C, 1, 0x0, 16, 8, .ro, .const 0, .any, false⟩
/-- `STATUS.COMMIT_PENDING` of R175. -/
def FORM.STATUS_COMMIT_PENDING : Fld := ⟨0x00C, 1, 0x0, 31, 1, .ro, .const 0, .any, false⟩
/-- `SBASE.VALUE` of R177. -/
def FORM.SBASE_VALUE : Fld := ⟨0x040, 1, 0x0, 0, 32, .rws, .const 0x47C35000, .flt 0x461C4000 0x4B189680, true⟩
/-- `VBASE.VALUE` of R177. -/
def FORM.VBASE_VALUE : Fld := ⟨0x044, 1, 0x0, 0, 32, .rws, .const 0x43C80000, .flt 0x42C80000 0x447A0000, true⟩
/-- `BASECFG.FBASE` of R177. -/
def FORM.BASECFG_FBASE : Fld := ⟨0x048, 1, 0x0, 0, 1, .rws, .const 0, .any, true⟩
/-- `BASECFG.BRIDGES` of R177. -/
def FORM.BASECFG_BRIDGES : Fld := ⟨0x048, 1, 0x0, 4, 3, .rws, .const 0, .nat 0 4, true⟩
/-- `BASECFG.ANGLE_POINT` of R177. -/
def FORM.BASECFG_ANGLE_POINT : Fld := ⟨0x048, 1, 0x0, 8, 1, .rws, .const 0, .any, true⟩
/-- `RATE.PERIOD` of R177. -/
def FORM.RATE_PERIOD : Fld := ⟨0x04C, 1, 0x0, 0, 14, .rws, .const 0x1388, .nat 1250 12500, true⟩
/-- `RATE.SYNC_PWM` of R177. -/
def FORM.RATE_SYNC_PWM : Fld := ⟨0x04C, 1, 0x0, 16, 4, .rws, .const 0, .any, true⟩
/-- `RATE.SYNC_EN` of R177. -/
def FORM.RATE_SYNC_EN : Fld := ⟨0x04C, 1, 0x0, 20, 1, .rws, .const 0, .any, true⟩
/-- `LEAD.TICKS` of R177. -/
def FORM.LEAD_TICKS : Fld := ⟨0x050, 1, 0x0, 0, 14, .rws, .const 0, .nat 0 12500, false⟩
/-- `STALE_LIM.LIMIT` of R177. -/
def FORM.STALE_LIM_LIMIT : Fld := ⟨0x054, 1, 0x0, 0, 8, .rws, .const 0x4, .nat 1 255, false⟩
/-- `ISCALE.VALUE` of R177. -/
def FORM.ISCALE_VALUE : Fld := ⟨0x058, 1, 0x0, 0, 32, .rws, .const 0, .flt 0xBA83126F 0x3A83126F, true⟩
/-- `VSCALE.VALUE` of R177. -/
def FORM.VSCALE_VALUE : Fld := ⟨0x05C, 1, 0x0, 0, 32, .rws, .const 0, .flt 0xBA83126F 0x3A83126F, true⟩
/-- `GSCALE.VALUE` of R177. -/
def FORM.GSCALE_VALUE : Fld := ⟨0x060, 1, 0x0, 0, 32, .rws, .const 0, .flt 0xBA83126F 0x3A83126F, true⟩
/-- `BMAP.LE` of R177. -/
def FORM.BMAP_LE : Fld := ⟨0x070, 4, 0x4, 0, 4, .rws, .const 0, .any, true⟩
/-- `BMAP.PWM` of R177. -/
def FORM.BMAP_PWM : Fld := ⟨0x070, 4, 0x4, 4, 4, .rws, .const 0, .any, true⟩
/-- `BMAP.EVT` of R177. -/
def FORM.BMAP_EVT : Fld := ⟨0x070, 4, 0x4, 8, 2, .rws, .const 0, .nat 0 2, true⟩
/-- `BMAP.EN` of R177. -/
def FORM.BMAP_EN : Fld := ⟨0x070, 4, 0x4, 15, 1, .rws, .const 0, .any, true⟩
/-- `INROUTE.CH` of R177. -/
def FORM.INROUTE_CH : Fld := ⟨0x080, 18, 0x4, 0, 6, .rws, .const 0, .nat 0 47, true⟩
/-- `INROUTE.EN` of R177. -/
def FORM.INROUTE_EN : Fld := ⟨0x080, 18, 0x4, 7, 1, .rws, .const 0, .any, true⟩
/-- `INROUTE.OFFSET` of R177. -/
def FORM.INROUTE_OFFSET : Fld := ⟨0x080, 18, 0x4, 8, 24, .rws, .const 0, .any, true⟩
/-- `H.VALUE` of R177. -/
def FORM.H_VALUE : Fld := ⟨0x100, 1, 0x0, 0, 32, .rws, .const 0x40A00000, .flt 0x3D4CCCCD 0x41A00000, false⟩
/-- `DAMP.VALUE` of R177. -/
def FORM.DAMP_VALUE : Fld := ⟨0x104, 1, 0x0, 0, 32, .rws, .const 0x43160000, .flt 0x00000000 0x43FA0000, false⟩
/-- `TDAMP.VALUE` of R177. -/
def FORM.TDAMP_VALUE : Fld := ⟨0x108, 1, 0x0, 0, 32, .rws, .const 0x3F800000, .flt 0x3C23D70A 0x41200000, false⟩
/-- `XEST.VALUE` of R177. -/
def FORM.XEST_VALUE : Fld := ⟨0x10C, 1, 0x0, 0, 32, .rws, .const 0x3E4CCCCD, .flt 0x3CA3D70A 0x3F800000, false⟩
/-- `MP.VALUE` of R177. -/
def FORM.MP_VALUE : Fld := ⟨0x110, 1, 0x0, 0, 32, .rws, .const 0x3D4CCCCD, .flt 0x3BA3D70A 0x3DF5C28F, false⟩
/-- `MQ.VALUE` of R177. -/
def FORM.MQ_VALUE : Fld := ⟨0x114, 1, 0x0, 0, 32, .rws, .const 0x3D4CCCCD, .flt 0x3BA3D70A 0x3DF5C28F, false⟩
/-- `TP.VALUE` of R177. -/
def FORM.TP_VALUE : Fld := ⟨0x118, 1, 0x0, 0, 32, .rws, .const 0x3A83126F, .flt 0x38D1B717 0x3DCCCCCD, false⟩
/-- `TQ.VALUE` of R177. -/
def FORM.TQ_VALUE : Fld := ⟨0x11C, 1, 0x0, 0, 32, .rws, .const 0x3C23D70A, .flt 0x3A83126F 0x3F800000, false⟩
/-- `RV.VALUE` of R177. -/
def FORM.RV_VALUE : Fld := ⟨0x120, 1, 0x0, 0, 32, .rws, .const 0x3C23D70A, .flt 0x00000000 0x3F000000, false⟩
/-- `XV.VALUE` of R177. -/
def FORM.XV_VALUE : Fld := ⟨0x124, 1, 0x0, 0, 32, .rws, .const 0x3DCCCCCD, .flt 0x00000000 0x3F000000, false⟩
/-- `FMIN.VALUE` of R177. -/
def FORM.FMIN_VALUE : Fld := ⟨0x128, 1, 0x0, 0, 32, .rws, .const 0x3F733333, .flt 0x3F4CCCCD 0x3F800000, false⟩
/-- `FMAX.VALUE` of R177. -/
def FORM.FMAX_VALUE : Fld := ⟨0x12C, 1, 0x0, 0, 32, .rws, .const 0x3F866666, .flt 0x3F800000 0x3F99999A, false⟩
/-- `EMIN.VALUE` of R177. -/
def FORM.EMIN_VALUE : Fld := ⟨0x130, 1, 0x0, 0, 32, .rws, .const 0x3F666666, .flt 0x3F000000 0x3F800000, false⟩
/-- `EMAX.VALUE` of R177. -/
def FORM.EMAX_VALUE : Fld := ⟨0x134, 1, 0x0, 0, 32, .rws, .const 0x3F8CCCCD, .flt 0x3F800000 0x3FA66666, false⟩
/-- `PREF.VALUE` of R177. -/
def FORM.PREF_VALUE : Fld := ⟨0x140, 1, 0x0, 0, 32, .rws, .const 0, .flt 0xBFC00000 0x3FC00000, false⟩
/-- `QREF.VALUE` of R177. -/
def FORM.QREF_VALUE : Fld := ⟨0x144, 1, 0x0, 0, 32, .rws, .const 0, .flt 0xBFC00000 0x3FC00000, false⟩
/-- `VSET.VALUE` of R177. -/
def FORM.VSET_VALUE : Fld := ⟨0x148, 1, 0x0, 0, 32, .rws, .const 0x3F800000, .flt 0x3F666666 0x3F8CCCCD, false⟩
/-- `FSET.VALUE` of R177. -/
def FORM.FSET_VALUE : Fld := ⟨0x14C, 1, 0x0, 0, 32, .rws, .const 0x3F800000, .flt 0x3F733333 0x3F866666, false⟩
/-- `SPRATE.VALUE` of R177. -/
def FORM.SPRATE_VALUE : Fld := ⟨0x150, 1, 0x0, 0, 32, .rws, .const 0x3DCCCCCD, .flt 0x3C23D70A 0x42C80000, false⟩
/-- `ILIM.VALUE` of R177. -/
def FORM.ILIM_VALUE : Fld := ⟨0x160, 1, 0x0, 0, 32, .rws, .const 0x3F99999A, .flt 0x3F800000 0x3FCCCCCD, false⟩
/-- `ION.VALUE` of R177. -/
def FORM.ION_VALUE : Fld := ⟨0x164, 1, 0x0, 0, 32, .rws, .const 0x3F666666, .flt 0x3F000000 0x3F800000, false⟩
/-- `KCL.VALUE` of R177. -/
def FORM.KCL_VALUE : Fld := ⟨0x168, 1, 0x0, 0, 32, .rws, .const 0x40A00000, .flt 0x3DCCCCCD 0x41A00000, false⟩
/-- `XRCL.VALUE` of R177. -/
def FORM.XRCL_VALUE : Fld := ⟨0x16C, 1, 0x0, 0, 32, .rws, .const 0x40A00000, .flt 0x00000000 0x41A00000, false⟩
/-- `DMAX.VALUE` of R177. -/
def FORM.DMAX_VALUE : Fld := ⟨0x170, 1, 0x0, 0, 32, .rws, .const 0x3F860A92, .flt 0x3DB2B8C2 0x3FBDE44E, false⟩
/-- `ALIM_TIME.MS` of R177. -/
def FORM.ALIM_TIME_MS : Fld := ⟨0x174, 1, 0x0, 0, 16, .rws, .const 0x64, .nat 1 1000, false⟩
/-- `SYNC_ANG.VALUE` of R177. -/
def FORM.SYNC_ANG_VALUE : Fld := ⟨0x180, 1, 0x0, 0, 32, .rws, .const 0x3DCCCCCD, .flt 0x3ADED289 0x3EB33333, false⟩
/-- `SYNC_MAG.VALUE` of R177. -/
def FORM.SYNC_MAG_VALUE : Fld := ⟨0x184, 1, 0x0, 0, 32, .rws, .const 0x3CA3D70A, .flt 0x3A83126F 0x3DCCCCCD, false⟩
/-- `SYNC_SLIP.VALUE` of R177. -/
def FORM.SYNC_SLIP_VALUE : Fld := ⟨0x188, 1, 0x0, 0, 32, .rws, .const 0x3B03126F, .flt 0x3951B717 0x3CA3D70A, false⟩
/-- `SYNC_TIMEOUT.MS` of R177. -/
def FORM.SYNC_TIMEOUT_MS : Fld := ⟨0x18C, 1, 0x0, 0, 16, .rws, .const 0x2710, .nat 100 60000, false⟩
/-- `BS_RATE.VALUE` of R177. -/
def FORM.BS_RATE_VALUE : Fld := ⟨0x190, 1, 0x0, 0, 32, .rws, .const 0x40A00000, .flt 0x3F000000 0x42480000, false⟩
/-- `THETA.VALUE` of R177. -/
def FORM.THETA_VALUE : Fld := ⟨0x1C0, 1, 0x0, 0, 32, .ro, .const 0, .any, false⟩
/-- `OMEGA.VALUE` of R177. -/
def FORM.OMEGA_VALUE : Fld := ⟨0x1C4, 1, 0x0, 0, 32, .ro, .const 0, .any, false⟩
/-- `EMAG.VALUE` of R177. -/
def FORM.EMAG_VALUE : Fld := ⟨0x1C8, 1, 0x0, 0, 32, .ro, .const 0, .any, false⟩
/-- `PMEAS.VALUE` of R177. -/
def FORM.PMEAS_VALUE : Fld := ⟨0x1CC, 1, 0x0, 0, 32, .ro, .const 0, .any, false⟩
/-- `QMEAS.VALUE` of R177. -/
def FORM.QMEAS_VALUE : Fld := ⟨0x1D0, 1, 0x0, 0, 32, .ro, .const 0, .any, false⟩
/-- `VBUS.VALUE` of R177. -/
def FORM.VBUS_VALUE : Fld := ⟨0x1D4, 1, 0x0, 0, 32, .ro, .const 0, .any, false⟩
/-- `DELTA.VALUE` of R177. -/
def FORM.DELTA_VALUE : Fld := ⟨0x1D8, 1, 0x0, 0, 32, .ro, .const 0, .any, false⟩
/-- `IMAG.VALUE` of R177. -/
def FORM.IMAG_VALUE : Fld := ⟨0x1DC, 1, 0x0, 0, 32, .ro, .const 0, .any, false⟩
/-- `KCL_EFF.VALUE` of R177. -/
def FORM.KCL_EFF_VALUE : Fld := ⟨0x1E0, 1, 0x0, 0, 32, .ro, .const 0, .any, false⟩
/-- `ZETA.VALUE` of R177. -/
def FORM.ZETA_VALUE : Fld := ⟨0x1E4, 1, 0x0, 0, 32, .ro, .const 0, .any, false⟩
/-- `WN.VALUE` of R177. -/
def FORM.WN_VALUE : Fld := ⟨0x1E8, 1, 0x0, 0, 32, .ro, .const 0, .any, false⟩
/-- `PREF_NOW.VALUE` of R177. -/
def FORM.PREF_NOW_VALUE : Fld := ⟨0x1EC, 1, 0x0, 0, 32, .ro, .const 0, .any, false⟩
/-- `QREF_NOW.VALUE` of R177. -/
def FORM.QREF_NOW_VALUE : Fld := ⟨0x1F0, 1, 0x0, 0, 32, .ro, .const 0, .any, false⟩
/-- `VSET_NOW.VALUE` of R177. -/
def FORM.VSET_NOW_VALUE : Fld := ⟨0x1F4, 1, 0x0, 0, 32, .ro, .const 0, .any, false⟩
/-- `FSET_NOW.VALUE` of R177. -/
def FORM.FSET_NOW_VALUE : Fld := ⟨0x1F8, 1, 0x0, 0, 32, .ro, .const 0, .any, false⟩
/-- `GRID_DANG.VALUE` of R177. -/
def FORM.GRID_DANG_VALUE : Fld := ⟨0x200, 1, 0x0, 0, 32, .ro, .const 0, .any, false⟩
/-- `GRID_MAG.VALUE` of R177. -/
def FORM.GRID_MAG_VALUE : Fld := ⟨0x204, 1, 0x0, 0, 32, .ro, .const 0, .any, false⟩
/-- `GRID_SLIP.VALUE` of R177. -/
def FORM.GRID_SLIP_VALUE : Fld := ⟨0x208, 1, 0x0, 0, 32, .ro, .const 0, .any, false⟩
/-- `UPD_COUNT.COUNT` of R177. -/
def FORM.UPD_COUNT_COUNT : Fld := ⟨0x210, 1, 0x0, 0, 32, .ro, .const 0, .any, false⟩
/-- `FB_LOST_COUNT.COUNT` of R177. -/
def FORM.FB_LOST_COUNT_COUNT : Fld := ⟨0x214, 1, 0x0, 0, 16, .rc, .const 0, .any, false⟩
/-- `CL_COUNT.COUNT` of R177. -/
def FORM.CL_COUNT_COUNT : Fld := ⟨0x218, 1, 0x0, 0, 16, .rc, .const 0, .any, false⟩
/-- `ALIM_COUNT.COUNT` of R177. -/
def FORM.ALIM_COUNT_COUNT : Fld := ⟨0x21C, 1, 0x0, 0, 16, .rc, .const 0, .any, false⟩
/-- `HSLOT_CFG.ORDER` of R178. -/
def FORM.HSLOT_CFG_ORDER : Fld := ⟨0x400, 24, 0x20, 0, 6, .rws, .const 0x2, .nat 2 63, false⟩
/-- `HSLOT_CFG.SEQ` of R178. -/
def FORM.HSLOT_CFG_SEQ : Fld := ⟨0x400, 24, 0x20, 6, 2, .rws, .const 0, .nat 0 2, false⟩
/-- `HSLOT_CFG.EN` of R178. -/
def FORM.HSLOT_CFG_EN : Fld := ⟨0x400, 24, 0x20, 8, 1, .rws, .const 0, .any, false⟩
/-- `HSLOT_CFG.BW` of R178. -/
def FORM.HSLOT_CFG_BW : Fld := ⟨0x400, 24, 0x20, 12, 2, .rws, .const 0x1, .any, false⟩
/-- `HSLOT_HR.VALUE` of R178. -/
def FORM.HSLOT_HR_VALUE : Fld := ⟨0x404, 24, 0x20, 0, 32, .rws, .const 0, .flt 0x00000000 0x40000000, false⟩
/-- `HSLOT_HXS.VALUE` of R178. -/
def FORM.HSLOT_HXS_VALUE : Fld := ⟨0x408, 24, 0x20, 0, 32, .rws, .const 0x3F800000, .flt 0x00000000 0x40800000, false⟩
/-- `HSLOT_HDROOP.VALUE` of R178. -/
def FORM.HSLOT_HDROOP_VALUE : Fld := ⟨0x40C, 24, 0x20, 0, 32, .rws, .const 0, .flt 0x00000000 0x41200000, false⟩
/-- `HSLOT_HBUDGET.VALUE` of R178. -/
def FORM.HSLOT_HBUDGET_VALUE : Fld := ⟨0x410, 24, 0x20, 0, 32, .rws, .const 0x3D4CCCCD, .flt 0x3BA3D70A 0x3F000000, false⟩
/-- `HSLOT_HIMAG.VALUE` of R178. -/
def FORM.HSLOT_HIMAG_VALUE : Fld := ⟨0x414, 24, 0x20, 0, 32, .ro, .const 0, .any, false⟩
/-- `HSLOT_HREFF.VALUE` of R178. -/
def FORM.HSLOT_HREFF_VALUE : Fld := ⟨0x418, 24, 0x20, 0, 32, .ro, .const 0, .any, false⟩
/-! ### Page PWM -/
/-- `CTRL.EN` of R396. -/
def PWM.CTRL_EN : Fld := ⟨0x008, 1, 0x0, 0, 1, .rws, .const 0, .any, true⟩
/-- `CTRL.RUN` of R396. -/
def PWM.CTRL_RUN : Fld := ⟨0x008, 1, 0x0, 1, 1, .rw, .const 0, .any, false⟩
/-- `STATUS.RUNNING` of R397. -/
def PWM.STATUS_RUNNING : Fld := ⟨0x00C, 1, 0x0, 0, 1, .ro, .const 0, .any, false⟩
/-- `STATUS.DRIVING` of R397. -/
def PWM.STATUS_DRIVING : Fld := ⟨0x00C, 1, 0x0, 1, 1, .ro, .const 0, .any, false⟩
/-- `STATUS.TRIPPED` of R397. -/
def PWM.STATUS_TRIPPED : Fld := ⟨0x00C, 1, 0x0, 2, 1, .ro, .const 0, .any, false⟩
/-- `STATUS.CBC_HOLD` of R397. -/
def PWM.STATUS_CBC_HOLD : Fld := ⟨0x00C, 1, 0x0, 3, 1, .ro, .const 0, .any, false⟩
/-- `STATUS.HALT_SAFE` of R397. -/
def PWM.STATUS_HALT_SAFE : Fld := ⟨0x00C, 1, 0x0, 4, 1, .ro, .const 0, .any, false⟩
/-- `STATUS.CLK_SAFE` of R397. -/
def PWM.STATUS_CLK_SAFE : Fld := ⟨0x00C, 1, 0x0, 5, 1, .ro, .const 0, .any, false⟩
/-- `STATUS.TRIP_SRC` of R397. -/
def PWM.STATUS_TRIP_SRC : Fld := ⟨0x00C, 1, 0x0, 8, 6, .ro, .const 0, .any, false⟩
/-- `STATUS.TRIP_VALID` of R397. -/
def PWM.STATUS_TRIP_VALID : Fld := ⟨0x00C, 1, 0x0, 14, 1, .ro, .const 0, .any, false⟩
/-- `STATUS.COMMIT_PENDING` of R397. -/
def PWM.STATUS_COMMIT_PENDING : Fld := ⟨0x00C, 1, 0x0, 31, 1, .ro, .const 0, .any, false⟩
/-- `PERIOD.COARSE` of R399. -/
def PWM.PERIOD_COARSE : Fld := ⟨0x040, 1, 0x0, 0, 20, .rws, .const 0x30D4, .nat 64 1048575, false⟩
/-- `CFG.MODE` of R399. -/
def PWM.CFG_MODE : Fld := ⟨0x044, 1, 0x0, 0, 2, .rws, .const 0x2, .nat 0 2, true⟩
/-- `CFG.UPDATE` of R399. -/
def PWM.CFG_UPDATE : Fld := ⟨0x044, 1, 0x0, 2, 1, .rws, .const 0, .any, true⟩
/-- `CFG.MINP_MODE` of R399. -/
def PWM.CFG_MINP_MODE : Fld := ⟨0x044, 1, 0x0, 3, 1, .rws, .const 0, .any, true⟩
/-- `CFG.GATE` of R399. -/
def PWM.CFG_GATE : Fld := ⟨0x044, 1, 0x0, 4, 2, .rws, .const 0, .nat 0 2, true⟩
/-- `CFG.GATE_IDX` of R399. -/
def PWM.CFG_GATE_IDX : Fld := ⟨0x044, 1, 0x0, 6, 3, .rws, .const 0, .any, true⟩
/-- `DEADTIME.COARSE` of R399. -/
def PWM.DEADTIME_COARSE : Fld := ⟨0x048, 1, 0x0, 0, 12, .rws, .const 0x64, .any, false⟩
/-- `DEADTIME.FINE` of R399. -/
def PWM.DEADTIME_FINE : Fld := ⟨0x048, 1, 0x0, 12, 6, .rws, .const 0, .any, false⟩
/-- `MINP.COARSE` of R399. -/
def PWM.MINP_COARSE : Fld := ⟨0x04C, 1, 0x0, 0, 12, .rws, .const 0x32, .any, false⟩
/-- `PHASE.COARSE` of R399. -/
def PWM.PHASE_COARSE : Fld := ⟨0x050, 1, 0x0, 0, 20, .rws, .const 0, .any, false⟩
/-- `PHASE.FINE` of R399. -/
def PWM.PHASE_FINE : Fld := ⟨0x050, 1, 0x0, 20, 6, .rws, .const 0, .any, false⟩
/-- `SYNC.SRC` of R399. -/
def PWM.SYNC_SRC : Fld := ⟨0x054, 1, 0x0, 0, 3, .rws, .const 0, .nat 0 4, true⟩
/-- `SYNC.INDEX` of R399. -/
def PWM.SYNC_INDEX : Fld := ⟨0x054, 1, 0x0, 3, 4, .rws, .const 0, .any, true⟩
/-- `SAFE.LEVEL` of R399. -/
def PWM.SAFE_LEVEL : Fld := ⟨0x058, 1, 0x0, 0, 16, .rws, .const 0, .any, true⟩
/-- `OUTCFG.OUTEN` of R399. -/
def PWM.OUTCFG_OUTEN : Fld := ⟨0x05C, 1, 0x0, 0, 8, .rws, .const 0xFF, .any, true⟩
/-- `OUTCFG.POL` of R399. -/
def PWM.OUTCFG_POL : Fld := ⟨0x05C, 1, 0x0, 8, 8, .rws, .const 0, .any, true⟩
/-- `PAIR_PHASE.COARSE` of R399. -/
def PWM.PAIR_PHASE_COARSE : Fld := ⟨0x060, 4, 0x4, 0, 20, .rws, .const 0, .any, false⟩
/-- `PAIR_PHASE.FINE` of R399. -/
def PWM.PAIR_PHASE_FINE : Fld := ⟨0x060, 4, 0x4, 20, 6, .rws, .const 0, .any, false⟩
/-- `CMP.FRAC` of R399. -/
def PWM.CMP_FRAC : Fld := ⟨0x080, 8, 0x4, 0, 32, .rw, .const 0, .any, false⟩
/-- `MINP_DROP_COUNT.COUNT` of R399. -/
def PWM.MINP_DROP_COUNT_COUNT : Fld := ⟨0x0C0, 1, 0x0, 0, 16, .rc, .const 0, .any, false⟩
/-- `MINP_EXT_COUNT.COUNT` of R399. -/
def PWM.MINP_EXT_COUNT_COUNT : Fld := ⟨0x0C4, 1, 0x0, 0, 16, .rc, .const 0, .any, false⟩
/-- `PERIOD_COUNT.COUNT` of R399. -/
def PWM.PERIOD_COUNT_COUNT : Fld := ⟨0x0C8, 1, 0x0, 0, 32, .ro, .const 0, .any, false⟩
/-- `SYNC_COUNT.COUNT` of R399. -/
def PWM.SYNC_COUNT_COUNT : Fld := ⟨0x0CC, 1, 0x0, 0, 16, .rc, .const 0, .any, false⟩
/-! ### Page FUSE -/
/-- `STATUS.ARMED` of R416. -/
def FUSE.STATUS_ARMED : Fld := ⟨0x00C, 1, 0x0, 0, 1, .ro, .const 0, .any, false⟩
/-- `STATUS.ANY_LATCH` of R416. -/
def FUSE.STATUS_ANY_LATCH : Fld := ⟨0x00C, 1, 0x0, 1, 1, .ro, .const 0, .any, false⟩
/-- `STATUS.ANY_UNIT` of R416. -/
def FUSE.STATUS_ANY_UNIT : Fld := ⟨0x00C, 1, 0x0, 2, 1, .ro, .const 0, .any, false⟩
/-- `ACTIVE_LO.SRC` of R418. -/
def FUSE.ACTIVE_LO_SRC : Fld := ⟨0x040, 1, 0x0, 0, 32, .ro, .const 0, .any, false⟩
/-- `ACTIVE_HI.SRC` of R418. -/
def FUSE.ACTIVE_HI_SRC : Fld := ⟨0x044, 1, 0x0, 0, 32, .ro, .const 0, .any, false⟩
/-- `LATCH_LO.SRC` of R418. -/
def FUSE.LATCH_LO_SRC : Fld := ⟨0x048, 1, 0x0, 0, 32, .ro, .const 0, .any, false⟩
/-- `LATCH_HI.SRC` of R418. -/
def FUSE.LATCH_HI_SRC : Fld := ⟨0x04C, 1, 0x0, 0, 32, .ro, .const 0, .any, false⟩
/-- `UNIT_TRIP.UNIT` of R418. -/
def FUSE.UNIT_TRIP_UNIT : Fld := ⟨0x050, 1, 0x0, 0, 16, .ro, .const 0, .any, false⟩
/-- `CLEAR_LO.SRC` of R418. -/
def FUSE.CLEAR_LO_SRC : Fld := ⟨0x054, 1, 0x0, 0, 32, .wo, .const 0, .any, false⟩
/-- `CLEAR_HI.SRC` of R418. -/
def FUSE.CLEAR_HI_SRC : Fld := ⟨0x058, 1, 0x0, 0, 32, .wo, .const 0, .any, false⟩
/-- `CLEAR_UNIT.UNIT` of R418. -/
def FUSE.CLEAR_UNIT_UNIT : Fld := ⟨0x05C, 1, 0x0, 0, 16, .wo, .const 0, .any, false⟩
/-- `CLEAR_REFUSED.COUNT` of R418. -/
def FUSE.CLEAR_REFUSED_COUNT : Fld := ⟨0x060, 1, 0x0, 0, 16, .rc, .const 0, .any, false⟩
/-- `FIRST.SRC` of R418. -/
def FUSE.FIRST_SRC : Fld := ⟨0x064, 1, 0x0, 0, 6, .ro, .const 0, .any, false⟩
/-- `FIRST.VALID` of R418. -/
def FUSE.FIRST_VALID : Fld := ⟨0x064, 1, 0x0, 31, 1, .ro, .const 0, .any, false⟩
/-- `FIRST_CYC_LO.CYC` of R418. -/
def FUSE.FIRST_CYC_LO_CYC : Fld := ⟨0x068, 1, 0x0, 0, 32, .ro, .const 0, .any, false⟩
/-- `FIRST_CYC_HI.CYC` of R418. -/
def FUSE.FIRST_CYC_HI_CYC : Fld := ⟨0x06C, 1, 0x0, 0, 32, .ro, .const 0, .any, false⟩
/-- `CBC_COUNT.COUNT` of R418. -/
def FUSE.CBC_COUNT_COUNT : Fld := ⟨0x070, 1, 0x0, 0, 16, .rc, .const 0, .any, false⟩
/-- `SW_TRIP.ACTIVE` of R418. -/
def FUSE.SW_TRIP_ACTIVE : Fld := ⟨0x074, 1, 0x0, 0, 1, .rw, .const 0, .any, false⟩
/-- `MAP.UNITS` of R418. -/
def FUSE.MAP_UNITS : Fld := ⟨0x100, 64, 0x4, 0, 16, .rwl, .fromIndex 52 65535, .any, true⟩
/-- `MAP.STOP` of R418. -/
def FUSE.MAP_STOP : Fld := ⟨0x100, 64, 0x4, 16, 1, .rwl, .fromIndex 52 1, .any, true⟩
/-- `MAP.CYCLE` of R418. -/
def FUSE.MAP_CYCLE : Fld := ⟨0x100, 64, 0x4, 17, 1, .rwl, .const 0, .any, true⟩
/-- `MAP.EN` of R418. -/
def FUSE.MAP_EN : Fld := ⟨0x100, 64, 0x4, 31, 1, .rwl, .fromIndex 52 1, .any, true⟩
/-- `PINCFG.FILT` of R418. -/
def FUSE.PINCFG_FILT : Fld := ⟨0x200, 16, 0x4, 0, 8, .rwl, .const 0x5, .any, true⟩
/-- `PINCFG.POL` of R418. -/
def FUSE.PINCFG_POL : Fld := ⟨0x200, 16, 0x4, 8, 1, .rwl, .const 0x1, .any, true⟩
/-! ### Page SAR -/
/-- `CTRL.EN` of R440. -/
def SAR.CTRL_EN : Fld := ⟨0x008, 1, 0x0, 0, 1, .rws, .const 0, .any, true⟩
/-- `CTRL.SWTRIG_REG` of R440. -/
def SAR.CTRL_SWTRIG_REG : Fld := ⟨0x008, 1, 0x0, 1, 1, .wo, .const 0, .any, false⟩
/-- `CTRL.SWTRIG_INJ` of R440. -/
def SAR.CTRL_SWTRIG_INJ : Fld := ⟨0x008, 1, 0x0, 2, 1, .wo, .const 0, .any, false⟩
/-- `STATUS.REG_BUSY` of R441. -/
def SAR.STATUS_REG_BUSY : Fld := ⟨0x00C, 1, 0x0, 0, 1, .ro, .const 0, .any, false⟩
/-- `STATUS.INJ_BUSY` of R441. -/
def SAR.STATUS_INJ_BUSY : Fld := ⟨0x00C, 1, 0x0, 1, 1, .ro, .const 0, .any, false⟩
/-- `STATUS.REG_PENDING` of R441. -/
def SAR.STATUS_REG_PENDING : Fld := ⟨0x00C, 1, 0x0, 2, 1, .ro, .const 0, .any, false⟩
/-- `STATUS.WIN0_ACTIVE` of R441. -/
def SAR.STATUS_WIN0_ACTIVE : Fld := ⟨0x00C, 1, 0x0, 3, 1, .ro, .const 0, .any, false⟩
/-- `STATUS.WIN1_ACTIVE` of R441. -/
def SAR.STATUS_WIN1_ACTIVE : Fld := ⟨0x00C, 1, 0x0, 4, 1, .ro, .const 0, .any, false⟩
/-- `STATUS.COMMIT_PENDING` of R441. -/
def SAR.STATUS_COMMIT_PENDING : Fld := ⟨0x00C, 1, 0x0, 31, 1, .ro, .const 0, .any, false⟩
/-- `REGTRIG.KIND` of R445. -/
def SAR.REGTRIG_KIND : Fld := ⟨0x040, 1, 0x0, 0, 3, .rws, .const 0, .any, true⟩
/-- `REGTRIG.INDEX` of R445. -/
def SAR.REGTRIG_INDEX : Fld := ⟨0x040, 1, 0x0, 4, 4, .rws, .const 0, .any, true⟩
/-- `REGTRIG.EVT` of R445. -/
def SAR.REGTRIG_EVT : Fld := ⟨0x040, 1, 0x0, 8, 2, .rws, .const 0, .nat 0 2, true⟩
/-- `REGSEQ.LAST` of R445. -/
def SAR.REGSEQ_LAST : Fld := ⟨0x044, 1, 0x0, 0, 4, .rws, .const 0, .any, true⟩
/-- `INJTRIG.KIND` of R445. -/
def SAR.INJTRIG_KIND : Fld := ⟨0x048, 1, 0x0, 0, 3, .rws, .const 0, .any, true⟩
/-- `INJTRIG.INDEX` of R445. -/
def SAR.INJTRIG_INDEX : Fld := ⟨0x048, 1, 0x0, 4, 4, .rws, .const 0, .any, true⟩
/-- `INJTRIG.EVT` of R445. -/
def SAR.INJTRIG_EVT : Fld := ⟨0x048, 1, 0x0, 8, 2, .rws, .const 0, .nat 0 2, true⟩
/-- `INJTRIG.URGENT` of R445. -/
def SAR.INJTRIG_URGENT : Fld := ⟨0x048, 1, 0x0, 10, 1, .rws, .const 0x1, .any, true⟩
/-- `INJSEQ.LAST` of R445. -/
def SAR.INJSEQ_LAST : Fld := ⟨0x04C, 1, 0x0, 0, 2, .rws, .const 0, .any, true⟩
/-- `REGSLOT.INPUT` of R445. -/
def SAR.REGSLOT_INPUT : Fld := ⟨0x050, 16, 0x4, 0, 3, .rws, .const 0, .any, true⟩
/-- `REGSLOT.SMP` of R445. -/
def SAR.REGSLOT_SMP : Fld := ⟨0x050, 16, 0x4, 3, 8, .rws, .const 0x4, .nat 4 255, true⟩
/-- `REGSLOT.AVG` of R445. -/
def SAR.REGSLOT_AVG : Fld := ⟨0x050, 16, 0x4, 11, 3, .rws, .const 0, .nat 0 6, true⟩
/-- `INJSLOT.INPUT` of R445. -/
def SAR.INJSLOT_INPUT : Fld := ⟨0x090, 4, 0x4, 0, 3, .rws, .const 0, .any, true⟩
/-- `INJSLOT.SMP` of R445. -/
def SAR.INJSLOT_SMP : Fld := ⟨0x090, 4, 0x4, 3, 8, .rws, .const 0x4, .nat 4 255, true⟩
/-- `WIN_CFG.EN` of R445. -/
def SAR.WIN_CFG_EN : Fld := ⟨0x0A0, 2, 0x8, 0, 1, .rws, .const 0, .any, false⟩
/-- `WIN_CFG.SEQ` of R445. -/
def SAR.WIN_CFG_SEQ : Fld := ⟨0x0A0, 2, 0x8, 1, 1, .rws, .const 0, .any, false⟩
/-- `WIN_CFG.SLOT` of R445. -/
def SAR.WIN_CFG_SLOT : Fld := ⟨0x0A0, 2, 0x8, 2, 4, .rws, .const 0, .any, false⟩
/-- `WIN_CFG.COUNT` of R445. -/
def SAR.WIN_CFG_COUNT : Fld := ⟨0x0A0, 2, 0x8, 6, 2, .rws, .const 0, .any, false⟩
/-- `WIN_LIM.LO` of R445. -/
def SAR.WIN_LIM_LO : Fld := ⟨0x0A4, 2, 0x8, 0, 12, .rws, .const 0, .any, false⟩
/-- `WIN_LIM.HI` of R445. -/
def SAR.WIN_LIM_HI : Fld := ⟨0x0A4, 2, 0x8, 16, 12, .rws, .const 0xFFF, .any, false⟩
/-- `REGRES.VALUE` of R445. -/
def SAR.REGRES_VALUE : Fld := ⟨0x0C0, 16, 0x4, 0, 16, .ro, .const 0, .any, false⟩
/-- `INJRES.VALUE` of R445. -/
def SAR.INJRES_VALUE : Fld := ⟨0x100, 4, 0x4, 0, 16, .ro, .const 0, .any, false⟩
/-- `REG_COUNT.COUNT` of R445. -/
def SAR.REG_COUNT_COUNT : Fld := ⟨0x110, 1, 0x0, 0, 32, .ro, .const 0, .any, false⟩
/-- `MISSED.REG` of R445. -/
def SAR.MISSED_REG : Fld := ⟨0x114, 1, 0x0, 0, 16, .rc, .const 0, .any, false⟩
/-- `MISSED.INJ` of R445. -/
def SAR.MISSED_INJ : Fld := ⟨0x114, 1, 0x0, 16, 16, .rc, .const 0, .any, false⟩
/-- `ABORT_COUNT.COUNT` of R445. -/
def SAR.ABORT_COUNT_COUNT : Fld := ⟨0x118, 1, 0x0, 0, 16, .rc, .const 0, .any, false⟩
/-! ### Page DSF -/
/-- `CTRL.CHEN` of R468. -/
def DSF.CTRL_CHEN : Fld := ⟨0x008, 1, 0x0, 0, 8, .rws, .const 0, .any, true⟩
/-- `STATUS.VALID` of R469. -/
def DSF.STATUS_VALID : Fld := ⟨0x00C, 1, 0x0, 0, 8, .ro, .const 0, .any, false⟩
/-- `STATUS.CMP_OUT` of R469. -/
def DSF.STATUS_CMP_OUT : Fld := ⟨0x00C, 1, 0x0, 8, 8, .ro, .const 0, .any, false⟩
/-- `STATUS.CK_OK` of R469. -/
def DSF.STATUS_CK_OK : Fld := ⟨0x00C, 1, 0x0, 16, 1, .ro, .const 0, .any, false⟩
/-- `STATUS.NO_SYNC` of R469. -/
def DSF.STATUS_NO_SYNC : Fld := ⟨0x00C, 1, 0x0, 17, 1, .ro, .const 0, .any, false⟩
/-- `STATUS.COMMIT_PENDING` of R469. -/
def DSF.STATUS_COMMIT_PENDING : Fld := ⟨0x00C, 1, 0x0, 31, 1, .ro, .const 0, .any, false⟩
/-- `BANKCFG.CKSEL` of R473. -/
def DSF.BANKCFG_CKSEL : Fld := ⟨0x040, 1, 0x0, 0, 2, .rws, .const 0, .any, true⟩
/-- `BANKCFG.SKEW` of R473. -/
def DSF.BANKCFG_SKEW : Fld := ⟨0x040, 1, 0x0, 2, 7, .rws, .const 0, .nat 0 79, true⟩
/-- `SYNC.SRC` of R473. -/
def DSF.SYNC_SRC : Fld := ⟨0x044, 1, 0x0, 0, 2, .rws, .const 0, .nat 0 1, true⟩
/-- `SYNC.INDEX` of R473. -/
def DSF.SYNC_INDEX : Fld := ⟨0x044, 1, 0x0, 2, 4, .rws, .const 0, .any, true⟩
/-- `SYNC.EVT` of R473. -/
def DSF.SYNC_EVT : Fld := ⟨0x044, 1, 0x0, 6, 2, .rws, .const 0, .nat 0 2, true⟩
/-- `WINDOW_COUNT.COUNT` of R473. -/
def DSF.WINDOW_COUNT_COUNT : Fld := ⟨0x048, 1, 0x0, 0, 32, .ro, .const 0, .any, false⟩
/-- `DSCK.DIV` of R473. -/
def DSF.DSCK_DIV : Fld := ⟨0x050, 4, 0x4, 0, 9, .rws, .const 0x64, .nat 80 400, true⟩
/-- `DSCK.EN` of R473. -/
def DSF.DSCK_EN : Fld := ⟨0x050, 4, 0x4, 15, 1, .rws, .const 0, .any, true⟩
/-- `DSCK.RECEIVE` of R473. -/
def DSF.DSCK_RECEIVE : Fld := ⟨0x050, 4, 0x4, 16, 1, .rws, .const 0, .any, true⟩
/-- `CMPSEL.CHMASK` of R473. -/
def DSF.CMPSEL_CHMASK : Fld := ⟨0x060, 4, 0x4, 0, 8, .rws, .const 0, .any, false⟩
/-- `CHCFG.ORDER` of R473. -/
def DSF.CHCFG_ORDER : Fld := ⟨0x080, 8, 0x20, 0, 3, .rws, .const 0x3, .nat 1 4, true⟩
/-- `CHCFG.DEC` of R473. -/
def DSF.CHCFG_DEC : Fld := ⟨0x080, 8, 0x20, 4, 11, .rws, .const 0x100, .nat 4 1024, true⟩
/-- `CHCFG.INVERT` of R473. -/
def DSF.CHCFG_INVERT : Fld := ⟨0x080, 8, 0x20, 15, 1, .rws, .const 0, .any, true⟩
/-- `CMPCFG.OSR` of R473. -/
def DSF.CMPCFG_OSR : Fld := ⟨0x084, 8, 0x20, 0, 6, .rws, .const 0x10, .nat 8 32, false⟩
/-- `CMPCFG.COUNT` of R473. -/
def DSF.CMPCFG_COUNT : Fld := ⟨0x084, 8, 0x20, 8, 2, .rws, .const 0, .any, false⟩
/-- `CMPCFG.INVALID_TRIP` of R473. -/
def DSF.CMPCFG_INVALID_TRIP : Fld := ⟨0x084, 8, 0x20, 10, 1, .rws, .const 0x1, .any, false⟩
/-- `CMPCFG.EN` of R473. -/
def DSF.CMPCFG_EN : Fld := ⟨0x084, 8, 0x20, 11, 1, .rws, .const 0, .any, false⟩
/-- `CMPLIM.LO` of R473. -/
def DSF.CMPLIM_LO : Fld := ⟨0x088, 8, 0x20, 0, 16, .rws, .const 0x8000, .any, false⟩
/-- `CMPLIM.HI` of R473. -/
def DSF.CMPLIM_HI : Fld := ⟨0x088, 8, 0x20, 16, 16, .rws, .const 0x7FFF, .any, false⟩
/-- `RES.VALUE` of R473. -/
def DSF.RES_VALUE : Fld := ⟨0x08C, 8, 0x20, 0, 24, .ro, .const 0, .any, false⟩
/-- `RES.VALID` of R473. -/
def DSF.RES_VALID : Fld := ⟨0x08C, 8, 0x20, 24, 1, .ro, .const 0, .any, false⟩
/-- `RES.NOTCH_OFF` of R473. -/
def DSF.RES_NOTCH_OFF : Fld := ⟨0x08C, 8, 0x20, 25, 1, .ro, .const 0, .any, false⟩
/-- `CMPVAL.VALUE` of R473. -/
def DSF.CMPVAL_VALUE : Fld := ⟨0x090, 8, 0x20, 0, 16, .ro, .const 0, .any, false⟩
/-- `CHSTAT.VALID` of R473. -/
def DSF.CHSTAT_VALID : Fld := ⟨0x094, 8, 0x20, 0, 1, .ro, .const 0, .any, false⟩
/-- `CHSTAT.SETTLING` of R473. -/
def DSF.CHSTAT_SETTLING : Fld := ⟨0x094, 8, 0x20, 1, 1, .ro, .const 0, .any, false⟩
/-- `CHSTAT.STUCK` of R473. -/
def DSF.CHSTAT_STUCK : Fld := ⟨0x094, 8, 0x20, 2, 1, .ro, .const 0, .any, false⟩
/-- `CHSTAT.NO_CLK` of R473. -/
def DSF.CHSTAT_NO_CLK : Fld := ⟨0x094, 8, 0x20, 3, 1, .ro, .const 0, .any, false⟩
/-- `CHSTAT.CMP_OUT` of R473. -/
def DSF.CHSTAT_CMP_OUT : Fld := ⟨0x094, 8, 0x20, 4, 1, .ro, .const 0, .any, false⟩
/-- `INVALID_COUNT.COUNT` of R473. -/
def DSF.INVALID_COUNT_COUNT : Fld := ⟨0x098, 8, 0x20, 0, 16, .rc, .const 0, .any, false⟩
/-! ### Page PORT -/
/-- `CTRL.EN` of R529. -/
def PORT.CTRL_EN : Fld := ⟨0x008, 1, 0x0, 0, 1, .rws, .const 0, .any, true⟩
/-- `STATUS.STATE` of R530. -/
def PORT.STATUS_STATE : Fld := ⟨0x00C, 1, 0x0, 0, 4, .ro, .const 0, .any, false⟩
/-- `STATUS.PHASE` of R530. -/
def PORT.STATUS_PHASE : Fld := ⟨0x00C, 1, 0x0, 4, 4, .ro, .const 0, .any, false⟩
/-- `STATUS.CDO_A` of R530. -/
def PORT.STATUS_CDO_A : Fld := ⟨0x00C, 1, 0x0, 8, 1, .ro, .const 0, .any, false⟩
/-- `STATUS.CDO_B` of R530. -/
def PORT.STATUS_CDO_B : Fld := ⟨0x00C, 1, 0x0, 9, 1, .ro, .const 0, .any, false⟩
/-- `STATUS.CFB_CLOSED` of R530. -/
def PORT.STATUS_CFB_CLOSED : Fld := ⟨0x00C, 1, 0x0, 10, 1, .ro, .const 0, .any, false⟩
/-- `STATUS.GATE` of R530. -/
def PORT.STATUS_GATE : Fld := ⟨0x00C, 1, 0x0, 11, 1, .ro, .const 0, .any, false⟩
/-- `STATUS.PLUG_OK` of R530. -/
def PORT.STATUS_PLUG_OK : Fld := ⟨0x00C, 1, 0x0, 12, 1, .ro, .const 0, .any, false⟩
/-- `STATUS.ISO_WARN` of R530. -/
def PORT.STATUS_ISO_WARN : Fld := ⟨0x00C, 1, 0x0, 13, 1, .ro, .const 0, .any, false⟩
/-- `STATUS.WELDED` of R530. -/
def PORT.STATUS_WELDED : Fld := ⟨0x00C, 1, 0x0, 14, 1, .ro, .const 0, .any, false⟩
/-- `STATUS.WELD_INCONCL` of R530. -/
def PORT.STATUS_WELD_INCONCL : Fld := ⟨0x00C, 1, 0x0, 15, 1, .ro, .const 0, .any, false⟩
/-- `STATUS.FAULT_CAUSE` of R530. -/
def PORT.STATUS_FAULT_CAUSE : Fld := ⟨0x00C, 1, 0x0, 16, 8, .ro, .const 0, .any, false⟩
/-- `STATUS.STOP_CAUSE` of R530. -/
def PORT.STATUS_STOP_CAUSE : Fld := ⟨0x00C, 1, 0x0, 24, 2, .ro, .const 0, .any, false⟩
/-- `STATUS.CDO_A_RB` of R530. -/
def PORT.STATUS_CDO_A_RB : Fld := ⟨0x00C, 1, 0x0, 26, 1, .ro, .const 0, .any, false⟩
/-- `STATUS.CDO_B_RB` of R530. -/
def PORT.STATUS_CDO_B_RB : Fld := ⟨0x00C, 1, 0x0, 27, 1, .ro, .const 0, .any, false⟩
/-- `STATUS.COMMIT_PENDING` of R530. -/
def PORT.STATUS_COMMIT_PENDING : Fld := ⟨0x00C, 1, 0x0, 31, 1, .ro, .const 0, .any, false⟩
/-- `MAP.LE` of R531. -/
def PORT.MAP_LE : Fld := ⟨0x040, 1, 0x0, 0, 4, .rws, .const 0, .any, true⟩
/-- `MAP.PWM` of R531. -/
def PORT.MAP_PWM : Fld := ⟨0x040, 1, 0x0, 4, 4, .rws, .const 0, .any, true⟩
/-- `MAP.ISP` of R531. -/
def PORT.MAP_ISP : Fld := ⟨0x040, 1, 0x0, 8, 3, .rws, .const 0, .any, true⟩
/-- `MAP.VSP` of R531. -/
def PORT.MAP_VSP : Fld := ⟨0x040, 1, 0x0, 12, 3, .rws, .const 0, .any, true⟩
/-- `PREPROG.START` of R531. -/
def PORT.PREPROG_START : Fld := ⟨0x044, 1, 0x0, 0, 12, .rws, .const 0, .any, true⟩
/-- `PREPROG.LIMSET` of R531. -/
def PORT.PREPROG_LIMSET : Fld := ⟨0x044, 1, 0x0, 12, 1, .rws, .const 0, .any, true⟩
/-- `PREPROG.EN` of R531. -/
def PORT.PREPROG_EN : Fld := ⟨0x044, 1, 0x0, 15, 1, .rws, .const 0, .any, true⟩
/-- `MEAS.V_CH` of R531. -/
def PORT.MEAS_V_CH : Fld := ⟨0x048, 1, 0x0, 0, 6, .rws, .const 0, .any, true⟩
/-- `MEAS.I_CH` of R531. -/
def PORT.MEAS_I_CH : Fld := ⟨0x048, 1, 0x0, 8, 6, .rws, .const 0, .any, true⟩
/-- `SARMAP.VEH_UNIT` of R531. -/
def PORT.SARMAP_VEH_UNIT : Fld := ⟨0x04C, 1, 0x0, 0, 3, .rws, .const 0, .nat 0 5, true⟩
/-- `SARMAP.VEH_SLOT` of R531. -/
def PORT.SARMAP_VEH_SLOT : Fld := ⟨0x04C, 1, 0x0, 3, 4, .rws, .const 0, .any, true⟩
/-- `SARMAP.ISO_UNIT` of R531. -/
def PORT.SARMAP_ISO_UNIT : Fld := ⟨0x04C, 1, 0x0, 8, 3, .rws, .const 0, .nat 0 5, true⟩
/-- `SARMAP.ISO_SLOT` of R531. -/
def PORT.SARMAP_ISO_SLOT : Fld := ⟨0x04C, 1, 0x0, 11, 4, .rws, .const 0, .any, true⟩
/-- `SARMAP.PP_UNIT` of R531. -/
def PORT.SARMAP_PP_UNIT : Fld := ⟨0x04C, 1, 0x0, 16, 3, .rws, .const 0, .nat 0 5, true⟩
/-- `SARMAP.PP_SLOT` of R531. -/
def PORT.SARMAP_PP_SLOT : Fld := ⟨0x04C, 1, 0x0, 19, 4, .rws, .const 0, .any, true⟩
/-- `CFG.CFB_POL` of R531. -/
def PORT.CFG_CFB_POL : Fld := ⟨0x050, 1, 0x0, 0, 1, .rws, .const 0x1, .any, true⟩
/-- `CFG.CHTEST_EN` of R531. -/
def PORT.CFG_CHTEST_EN : Fld := ⟨0x050, 1, 0x0, 1, 1, .rws, .const 0x1, .any, true⟩
/-- `CFG.WELD_ACTIVE` of R531. -/
def PORT.CFG_WELD_ACTIVE : Fld := ⟨0x050, 1, 0x0, 2, 1, .rws, .const 0x1, .any, true⟩
/-- `CFG.BIDIR` of R531. -/
def PORT.CFG_BIDIR : Fld := ⟨0x050, 1, 0x0, 3, 1, .rws, .const 0, .any, true⟩
/-- `CFB_TIME.CLOSE_MS` of R531. -/
def PORT.CFB_TIME_CLOSE_MS : Fld := ⟨0x054, 1, 0x0, 0, 8, .rws, .const 0x32, .nat 1 255, true⟩
/-- `CFB_TIME.OPEN_MS` of R531. -/
def PORT.CFB_TIME_OPEN_MS : Fld := ⟨0x054, 1, 0x0, 8, 8, .rws, .const 0x32, .nat 1 255, true⟩
/-- `CFB_TIME.CHTEST_MS` of R531. -/
def PORT.CFB_TIME_CHTEST_MS : Fld := ⟨0x054, 1, 0x0, 16, 8, .rws, .const 0x14, .nat 1 255, true⟩
/-- `CFB_TIME.OPEN_DELAY_MS` of R531. -/
def PORT.CFB_TIME_OPEN_DELAY_MS : Fld := ⟨0x054, 1, 0x0, 24, 8, .rws, .const 0xA, .nat 1 255, true⟩
/-- `TIMEOUT_A.CC_MS` of R531. -/
def PORT.TIMEOUT_A_CC_MS : Fld := ⟨0x058, 1, 0x0, 0, 16, .rws, .const 0x7530, .nat 100 65535, true⟩
/-- `TIMEOUT_A.PRE_MS` of R531. -/
def PORT.TIMEOUT_A_PRE_MS : Fld := ⟨0x058, 1, 0x0, 16, 16, .rws, .const 0x2710, .nat 100 65535, true⟩
/-- `TIMEOUT_B.CC_HOLD_MS` of R531. -/
def PORT.TIMEOUT_B_CC_HOLD_MS : Fld := ⟨0x05C, 1, 0x0, 0, 16, .rws, .const 0x3E8, .nat 10 65535, true⟩
/-- `TIMEOUT_B.STOP_MS` of R531. -/
def PORT.TIMEOUT_B_STOP_MS : Fld := ⟨0x05C, 1, 0x0, 16, 16, .rws, .const 0x1F4, .nat 10 65535, true⟩
/-- `WELD_TIME.WELD_MS` of R531. -/
def PORT.WELD_TIME_WELD_MS : Fld := ⟨0x060, 1, 0x0, 0, 16, .rws, .const 0x7D0, .nat 10 65535, true⟩
/-- `ISO_LIM.FAULT` of R531. -/
def PORT.ISO_LIM_FAULT : Fld := ⟨0x064, 1, 0x0, 0, 12, .rws, .const 0x400, .any, true⟩
/-- `ISO_LIM.WARN` of R531. -/
def PORT.ISO_LIM_WARN : Fld := ⟨0x064, 1, 0x0, 16, 12, .rws, .const 0x800, .any, true⟩
/-- `PP_LIM.LO` of R531. -/
def PORT.PP_LIM_LO : Fld := ⟨0x068, 1, 0x0, 0, 12, .rws, .const 0, .any, true⟩
/-- `PP_LIM.HI` of R531. -/
def PORT.PP_LIM_HI : Fld := ⟨0x068, 1, 0x0, 16, 12, .rws, .const 0xFFF, .any, true⟩
/-- `V_SCALE.VALUE` of R531. -/
def PORT.V_SCALE_VALUE : Fld := ⟨0x06C, 1, 0x0, 0, 32, .rws, .const 0, .finite, true⟩
/-- `I_SCALE.VALUE` of R531. -/
def PORT.I_SCALE_VALUE : Fld := ⟨0x070, 1, 0x0, 0, 32, .rws, .const 0, .finite, true⟩
/-- `VEH_SCALE.VALUE` of R531. -/
def PORT.VEH_SCALE_VALUE : Fld := ⟨0x074, 1, 0x0, 0, 32, .rws, .const 0, .finite, true⟩
/-- `SP_SCALE_V.VALUE` of R531. -/
def PORT.SP_SCALE_V_VALUE : Fld := ⟨0x078, 1, 0x0, 0, 32, .rws, .const 0, .finite, true⟩
/-- `SP_SCALE_I.VALUE` of R531. -/
def PORT.SP_SCALE_I_VALUE : Fld := ⟨0x07C, 1, 0x0, 0, 32, .rws, .const 0, .finite, true⟩
/-- `V_SAFE.VALUE` of R531. -/
def PORT.V_SAFE_VALUE : Fld := ⟨0x080, 1, 0x0, 0, 32, .rws, .const 0x42700000, .flt 0x41200000 0x42F00000, true⟩
/-- `V_MAX.VALUE` of R531. -/
def PORT.V_MAX_VALUE : Fld := ⟨0x084, 1, 0x0, 0, 32, .rws, .const 0x447A0000, .flt 0x42C80000 0x44BB8000, true⟩
/-- `I_OPEN.VALUE` of R531. -/
def PORT.I_OPEN_VALUE : Fld := ⟨0x088, 1, 0x0, 0, 32, .rws, .const 0x40A00000, .flt 0x3F000000 0x42480000, true⟩
/-- `V_TOL.VALUE` of R531. -/
def PORT.V_TOL_VALUE : Fld := ⟨0x08C, 1, 0x0, 0, 32, .rws, .const 0x41200000, .flt 0x3F800000 0x42480000, true⟩
/-- `CC_V.VALUE` of R531. -/
def PORT.CC_V_VALUE : Fld := ⟨0x0A0, 1, 0x0, 0, 32, .rw, .const 0x43FA0000, .any, false⟩
/-- `CC_END_V.VALUE` of R531. -/
def PORT.CC_END_V_VALUE : Fld := ⟨0x0A4, 1, 0x0, 0, 32, .rw, .const 0, .any, false⟩
/-- `PRE_V.VALUE` of R531. -/
def PORT.PRE_V_VALUE : Fld := ⟨0x0A8, 1, 0x0, 0, 32, .rw, .const 0, .any, false⟩
/-- `I_SET.VALUE` of R531. -/
def PORT.I_SET_VALUE : Fld := ⟨0x0AC, 1, 0x0, 0, 32, .rw, .const 0, .any, false⟩
/-- `V_LIM.VALUE` of R531. -/
def PORT.V_LIM_VALUE : Fld := ⟨0x0B0, 1, 0x0, 0, 32, .rw, .const 0, .any, false⟩
/-- `CMD.CODE` of R531. -/
def PORT.CMD_CODE : Fld := ⟨0x0B4, 1, 0x0, 0, 3, .wo, .const 0, .any, false⟩
/-- `V_OUT.VALUE` of R531. -/
def PORT.V_OUT_VALUE : Fld := ⟨0x0C0, 1, 0x0, 0, 32, .ro, .const 0, .any, false⟩
/-- `I_OUT.VALUE` of R531. -/
def PORT.I_OUT_VALUE : Fld := ⟨0x0C4, 1, 0x0, 0, 32, .ro, .const 0, .any, false⟩
/-- `V_VEH.VALUE` of R531. -/
def PORT.V_VEH_VALUE : Fld := ⟨0x0C8, 1, 0x0, 0, 32, .ro, .const 0, .any, false⟩
/-- `CODES.ISO` of R531. -/
def PORT.CODES_ISO : Fld := ⟨0x0CC, 1, 0x0, 0, 12, .ro, .const 0, .any, false⟩
/-- `CODES.PP` of R531. -/
def PORT.CODES_PP : Fld := ⟨0x0CC, 1, 0x0, 16, 12, .ro, .const 0, .any, false⟩
/-- `SESSION_COUNT.COUNT` of R531. -/
def PORT.SESSION_COUNT_COUNT : Fld := ⟨0x0D0, 1, 0x0, 0, 32, .ro, .const 0, .any, false⟩
/-- `CLOSE_COUNT.COUNT` of R531. -/
def PORT.CLOSE_COUNT_COUNT : Fld := ⟨0x0D4, 1, 0x0, 0, 32, .ro, .const 0, .any, false⟩
/-- `FAULT_COUNT.COUNT` of R531. -/
def PORT.FAULT_COUNT_COUNT : Fld := ⟨0x0D8, 1, 0x0, 0, 16, .rc, .const 0, .any, false⟩
/-! ### Page PILOT -/
/-- `STATUS.SENSE_ERR` of chapter 09. -/
def PILOT.STATUS_SENSE_ERR : Fld := ⟨0x00C, 1, 0x0, 0, 8, .ro, .const 0, .any, false⟩
/-- `STATUS.COMMIT_PENDING` of chapter 09. -/
def PILOT.STATUS_COMMIT_PENDING : Fld := ⟨0x00C, 1, 0x0, 31, 1, .ro, .const 0, .any, false⟩
/-- `CH_GEN.MODE` of R533. -/
def PILOT.CH_GEN_MODE : Fld := ⟨0x040, 8, 0x10, 0, 2, .rw, .const 0, .any, false⟩
/-- `CH_GEN.DUTY` of R533. -/
def PILOT.CH_GEN_DUTY : Fld := ⟨0x040, 8, 0x10, 2, 10, .rw, .const 0, .any, false⟩
/-- `CH_GEN.F_ON_FAULT` of R533. -/
def PILOT.CH_GEN_F_ON_FAULT : Fld := ⟨0x040, 8, 0x10, 12, 1, .rw, .const 0, .any, false⟩
/-- `CH_SENSE.UNIT` of R533. -/
def PILOT.CH_SENSE_UNIT : Fld := ⟨0x044, 8, 0x10, 0, 3, .rws, .const 0, .nat 0 5, true⟩
/-- `CH_SENSE.SLOT` of R533. -/
def PILOT.CH_SENSE_SLOT : Fld := ⟨0x044, 8, 0x10, 3, 4, .rws, .const 0, .any, true⟩
/-- `CH_SENSE.EN` of R533. -/
def PILOT.CH_SENSE_EN : Fld := ⟨0x044, 8, 0x10, 7, 1, .rws, .const 0, .any, true⟩
/-- `CH_SENSE.DEBOUNCE` of R533. -/
def PILOT.CH_SENSE_DEBOUNCE : Fld := ⟨0x044, 8, 0x10, 8, 4, .rws, .const 0x3, .nat 1 15, true⟩
/-- `CH_SENSE.SETTLE` of R533. -/
def PILOT.CH_SENSE_SETTLE : Fld := ⟨0x044, 8, 0x10, 12, 8, .rws, .const 0xA, .nat 1 255, true⟩
/-- `CH_STATE.STATE` of R533. -/
def PILOT.CH_STATE_STATE : Fld := ⟨0x048, 8, 0x10, 0, 3, .ro, .const 0x6, .any, false⟩
/-- `CH_STATE.DIODE_ERR` of R533. -/
def PILOT.CH_STATE_DIODE_ERR : Fld := ⟨0x048, 8, 0x10, 3, 1, .ro, .const 0, .any, false⟩
/-- `CH_STATE.SENSE_ERR` of R533. -/
def PILOT.CH_STATE_SENSE_ERR : Fld := ⟨0x048, 8, 0x10, 4, 1, .ro, .const 0, .any, false⟩
/-- `CH_LEVELS.HIGH` of R533. -/
def PILOT.CH_LEVELS_HIGH : Fld := ⟨0x04C, 8, 0x10, 0, 12, .ro, .const 0, .any, false⟩
/-- `CH_LEVELS.LOW` of R533. -/
def PILOT.CH_LEVELS_LOW : Fld := ⟨0x04C, 8, 0x10, 16, 12, .ro, .const 0, .any, false⟩
/-- `TH0.TH_AB` of R533. -/
def PILOT.TH0_TH_AB : Fld := ⟨0x0C0, 1, 0x0, 0, 12, .rws, .const 0xF00, .any, true⟩
/-- `TH0.TH_BC` of R533. -/
def PILOT.TH0_TH_BC : Fld := ⟨0x0C0, 1, 0x0, 16, 12, .rws, .const 0xD00, .any, true⟩
/-- `TH1.TH_CD` of R533. -/
def PILOT.TH1_TH_CD : Fld := ⟨0x0C4, 1, 0x0, 0, 12, .rws, .const 0xB00, .any, true⟩
/-- `TH1.TH_DE` of R533. -/
def PILOT.TH1_TH_DE : Fld := ⟨0x0C4, 1, 0x0, 16, 12, .rws, .const 0x900, .any, true⟩
/-- `TH2.TH_DIODE` of R533. -/
def PILOT.TH2_TH_DIODE : Fld := ⟨0x0C8, 1, 0x0, 0, 12, .rws, .const 0x100, .any, true⟩
/-- `TH2.HYST` of R533. -/
def PILOT.TH2_HYST : Fld := ⟨0x0C8, 1, 0x0, 16, 8, .rws, .const 0x20, .any, true⟩
/-! ### Page METRO -/
/-- `STATUS.RUNNING` of R588. -/
def METRO.STATUS_RUNNING : Fld := ⟨0x00C, 1, 0x0, 0, 1, .ro, .const 0, .any, false⟩
/-- `STATUS.FW_OK` of R588. -/
def METRO.STATUS_FW_OK : Fld := ⟨0x00C, 1, 0x0, 1, 1, .ro, .const 0, .any, false⟩
/-- `STATUS.CAL_OK` of R588. -/
def METRO.STATUS_CAL_OK : Fld := ⟨0x00C, 1, 0x0, 2, 1, .ro, .const 0, .any, false⟩
/-- `STATUS.RESTORED` of R588. -/
def METRO.STATUS_RESTORED : Fld := ⟨0x00C, 1, 0x0, 3, 1, .ro, .const 0, .any, false⟩
/-- `STATUS.TIME_TRUSTED` of R588. -/
def METRO.STATUS_TIME_TRUSTED : Fld := ⟨0x00C, 1, 0x0, 4, 1, .ro, .const 0, .any, false⟩
/-- `STATUS.KEY_OK` of R588. -/
def METRO.STATUS_KEY_OK : Fld := ⟨0x00C, 1, 0x0, 5, 1, .ro, .const 0, .any, false⟩
/-- `STATUS.TEST` of R588. -/
def METRO.STATUS_TEST : Fld := ⟨0x00C, 1, 0x0, 6, 1, .ro, .const 0, .any, false⟩
/-- `STATUS.EPOCHS_OUT` of R588. -/
def METRO.STATUS_EPOCHS_OUT : Fld := ⟨0x00C, 1, 0x0, 7, 1, .ro, .const 0, .any, false⟩
/-- `PUBKEY.BYTES` of R589. -/
def METRO.PUBKEY_BYTES : Fld := ⟨0x040, 8, 0x4, 0, 32, .ro, .const 0, .any, false⟩
/-- `FWHASH.BYTES` of R589. -/
def METRO.FWHASH_BYTES : Fld := ⟨0x060, 8, 0x4, 0, 32, .ro, .const 0, .any, false⟩
/-- `NEXT_SEQ_LO.SEQ` of R589. -/
def METRO.NEXT_SEQ_LO_SEQ : Fld := ⟨0x080, 1, 0x0, 0, 32, .ro, .const 0, .any, false⟩
/-- `NEXT_SEQ_HI.SEQ` of R589. -/
def METRO.NEXT_SEQ_HI_SEQ : Fld := ⟨0x084, 1, 0x0, 0, 32, .ro, .const 0, .any, false⟩
/-- `EPOCH.EPOCH` of R589. -/
def METRO.EPOCH_EPOCH : Fld := ⟨0x088, 1, 0x0, 0, 8, .ro, .const 0, .any, false⟩
/-- `EPOCH.LEFT` of R589. -/
def METRO.EPOCH_LEFT : Fld := ⟨0x088, 1, 0x0, 8, 8, .ro, .const 0, .any, false⟩
/-- `CFG_VIEW.METER_EN` of R589. -/
def METRO.CFG_VIEW_METER_EN : Fld := ⟨0x08C, 1, 0x0, 0, 9, .ro, .const 0, .any, false⟩
/-- `CFG_VIEW.SIZE` of R589. -/
def METRO.CFG_VIEW_SIZE : Fld := ⟨0x08C, 1, 0x0, 9, 2, .ro, .const 0, .any, false⟩
/-- `CFG_VIEW.CLK` of R589. -/
def METRO.CFG_VIEW_CLK : Fld := ⟨0x08C, 1, 0x0, 11, 2, .ro, .const 0, .any, false⟩
/-- `CFG_VIEW.QUAD` of R589. -/
def METRO.CFG_VIEW_QUAD : Fld := ⟨0x08C, 1, 0x0, 13, 1, .ro, .const 0, .any, false⟩
/-- `START_COUNT.COUNT` of R589. -/
def METRO.START_COUNT_COUNT : Fld := ⟨0x090, 1, 0x0, 0, 32, .ro, .const 0, .any, false⟩
/-- `SAMPLE_COUNT.COUNT` of R589. -/
def METRO.SAMPLE_COUNT_COUNT : Fld := ⟨0x094, 1, 0x0, 0, 32, .ro, .const 0, .any, false⟩
/-- `IMP_LO.VALUE` of R589. -/
def METRO.IMP_LO_VALUE : Fld := ⟨0x100, 9, 0x40, 0, 32, .ro, .const 0, .any, false⟩
/-- `IMP_HI.VALUE` of R589. -/
def METRO.IMP_HI_VALUE : Fld := ⟨0x104, 9, 0x40, 0, 32, .ro, .const 0, .any, false⟩
/-- `EXP_LO.VALUE` of R589. -/
def METRO.EXP_LO_VALUE : Fld := ⟨0x108, 9, 0x40, 0, 32, .ro, .const 0, .any, false⟩
/-- `EXP_HI.VALUE` of R589. -/
def METRO.EXP_HI_VALUE : Fld := ⟨0x10C, 9, 0x40, 0, 32, .ro, .const 0, .any, false⟩
/-- `POWER.VALUE` of R589. -/
def METRO.POWER_VALUE : Fld := ⟨0x110, 9, 0x40, 0, 32, .ro, .const 0, .any, false⟩
/-- `VOLT.VALUE` of R589. -/
def METRO.VOLT_VALUE : Fld := ⟨0x114, 9, 0x40, 0, 32, .ro, .const 0, .any, false⟩
/-- `CURR.VALUE` of R589. -/
def METRO.CURR_VALUE : Fld := ⟨0x118, 9, 0x40, 0, 32, .ro, .const 0, .any, false⟩
/-- `MSTAT.ENABLED` of R589. -/
def METRO.MSTAT_ENABLED : Fld := ⟨0x11C, 9, 0x40, 0, 1, .ro, .const 0, .any, false⟩
/-- `MSTAT.SESSION_OPEN` of R589. -/
def METRO.MSTAT_SESSION_OPEN : Fld := ⟨0x11C, 9, 0x40, 1, 1, .ro, .const 0, .any, false⟩
/-- `MSTAT.CH_FAULT` of R589. -/
def METRO.MSTAT_CH_FAULT : Fld := ⟨0x11C, 9, 0x40, 2, 1, .ro, .const 0, .any, false⟩
/-- `MSTAT.OVERRANGE` of R589. -/
def METRO.MSTAT_OVERRANGE : Fld := ⟨0x11C, 9, 0x40, 3, 1, .ro, .const 0, .any, false⟩
/-- `SESSION_LO.ID` of R589. -/
def METRO.SESSION_LO_ID : Fld := ⟨0x120, 9, 0x40, 0, 32, .ro, .const 0, .any, false⟩
/-- `SESSION_HI.ID` of R589. -/
def METRO.SESSION_HI_ID : Fld := ⟨0x124, 9, 0x40, 0, 32, .ro, .const 0, .any, false⟩
/-- `BEGIN_LO.SEQ` of R589. -/
def METRO.BEGIN_LO_SEQ : Fld := ⟨0x128, 9, 0x40, 0, 32, .ro, .const 0, .any, false⟩
/-- `BEGIN_HI.SEQ` of R589. -/
def METRO.BEGIN_HI_SEQ : Fld := ⟨0x12C, 9, 0x40, 0, 32, .ro, .const 0, .any, false⟩
/-- `INVALID.COUNT` of R589. -/
def METRO.INVALID_COUNT : Fld := ⟨0x130, 9, 0x40, 0, 32, .ro, .const 0, .any, false⟩
/-! ### Page PANTRY -/
/-- `STATUS.READY` of R590. -/
def PANTRY.STATUS_READY : Fld := ⟨0x00C, 1, 0x0, 0, 1, .ro, .const 0, .any, false⟩
/-- `STATUS.FULL` of R590. -/
def PANTRY.STATUS_FULL : Fld := ⟨0x00C, 1, 0x0, 1, 1, .ro, .const 0, .any, false⟩
/-- `STATUS.FAULT` of R590. -/
def PANTRY.STATUS_FAULT : Fld := ⟨0x00C, 1, 0x0, 2, 1, .ro, .const 0, .any, false⟩
/-- `STATUS.FLUSHED` of R590. -/
def PANTRY.STATUS_FLUSHED : Fld := ⟨0x00C, 1, 0x0, 3, 1, .ro, .const 0, .any, false⟩
/-- `STATUS.WRITE_BUSY` of R590. -/
def PANTRY.STATUS_WRITE_BUSY : Fld := ⟨0x00C, 1, 0x0, 4, 1, .ro, .const 0, .any, false⟩
/-- `STATUS.COMMIT_PENDING` of R590. -/
def PANTRY.STATUS_COMMIT_PENDING : Fld := ⟨0x00C, 1, 0x0, 31, 1, .ro, .const 0, .any, false⟩
/-- `CFG.SIZE` of R591. -/
def PANTRY.CFG_SIZE : Fld := ⟨0x040, 1, 0x0, 0, 2, .rws, .const 0, .nat 0 2, false⟩
/-- `CFG.CLK` of R591. -/
def PANTRY.CFG_CLK : Fld := ⟨0x040, 1, 0x0, 2, 2, .rws, .const 0, .nat 0 2, false⟩
/-- `CFG.QUAD` of R591. -/
def PANTRY.CFG_QUAD : Fld := ⟨0x040, 1, 0x0, 4, 1, .rws, .const 0, .any, false⟩
/-- `CMD.OP` of R591. -/
def PANTRY.CMD_OP : Fld := ⟨0x044, 1, 0x0, 0, 4, .wo, .const 0, .any, false⟩
/-- `CMD.METER` of R591. -/
def PANTRY.CMD_METER : Fld := ⟨0x044, 1, 0x0, 4, 4, .wo, .const 0, .any, false⟩
/-- `SESSION_LO.ID` of R591. -/
def PANTRY.SESSION_LO_ID : Fld := ⟨0x048, 1, 0x0, 0, 32, .rw, .const 0, .any, false⟩
/-- `SESSION_HI.ID` of R591. -/
def PANTRY.SESSION_HI_ID : Fld := ⟨0x04C, 1, 0x0, 0, 32, .rw, .const 0, .any, false⟩
/-- `CAL_SRC.ADDR` of R591. -/
def PANTRY.CAL_SRC_ADDR : Fld := ⟨0x050, 1, 0x0, 0, 32, .rw, .const 0, .any, false⟩
/-- `CMD_STATUS.BUSY` of R591. -/
def PANTRY.CMD_STATUS_BUSY : Fld := ⟨0x054, 1, 0x0, 0, 1, .ro, .const 0, .any, false⟩
/-- `CMD_STATUS.RESULT` of R591. -/
def PANTRY.CMD_STATUS_RESULT : Fld := ⟨0x054, 1, 0x0, 4, 4, .ro, .const 0, .any, false⟩
/-- `CMD_STATUS.OP` of R591. -/
def PANTRY.CMD_STATUS_OP : Fld := ⟨0x054, 1, 0x0, 8, 4, .ro, .const 0, .any, false⟩
/-- `CMD_SEQ_LO.SEQ` of R591. -/
def PANTRY.CMD_SEQ_LO_SEQ : Fld := ⟨0x058, 1, 0x0, 0, 32, .ro, .const 0, .any, false⟩
/-- `CMD_SEQ_HI.SEQ` of R591. -/
def PANTRY.CMD_SEQ_HI_SEQ : Fld := ⟨0x05C, 1, 0x0, 0, 32, .ro, .const 0, .any, false⟩
/-- `ACK_SEQ_LO.SEQ` of R591. -/
def PANTRY.ACK_SEQ_LO_SEQ : Fld := ⟨0x060, 1, 0x0, 0, 32, .rw, .const 0xFFFFFFFF, .any, false⟩
/-- `ACK_SEQ_HI.SEQ` of R591. -/
def PANTRY.ACK_SEQ_HI_SEQ : Fld := ⟨0x064, 1, 0x0, 0, 32, .rw, .const 0xFFFFFFFF, .any, false⟩
/-- `UNACKED.COUNT` of R591. -/
def PANTRY.UNACKED_COUNT : Fld := ⟨0x068, 1, 0x0, 0, 16, .ro, .const 0, .any, false⟩
/-- `FREE.COUNT` of R591. -/
def PANTRY.FREE_COUNT : Fld := ⟨0x06C, 1, 0x0, 0, 16, .ro, .const 0, .any, false⟩
/-- `READ_SEQ_LO.SEQ` of R591. -/
def PANTRY.READ_SEQ_LO_SEQ : Fld := ⟨0x070, 1, 0x0, 0, 32, .rw, .const 0, .any, false⟩
/-- `READ_SEQ_HI.SEQ` of R591. -/
def PANTRY.READ_SEQ_HI_SEQ : Fld := ⟨0x074, 1, 0x0, 0, 32, .rw, .const 0, .any, false⟩
/-- `READ_STATUS.BUSY` of R591. -/
def PANTRY.READ_STATUS_BUSY : Fld := ⟨0x078, 1, 0x0, 0, 1, .ro, .const 0, .any, false⟩
/-- `READ_STATUS.RESULT` of R591. -/
def PANTRY.READ_STATUS_RESULT : Fld := ⟨0x078, 1, 0x0, 1, 3, .ro, .const 0, .any, false⟩
/-- `SNAP.CAUSE` of R591. -/
def PANTRY.SNAP_CAUSE : Fld := ⟨0x07C, 1, 0x0, 0, 3, .ro, .const 0, .any, false⟩
/-- `SNAP_COUNT.COUNT` of R591. -/
def PANTRY.SNAP_COUNT_COUNT : Fld := ⟨0x080, 1, 0x0, 0, 32, .ro, .const 0, .any, false⟩
/-- `WRITE_FAULTS.COUNT` of R591. -/
def PANTRY.WRITE_FAULTS_COUNT : Fld := ⟨0x084, 1, 0x0, 0, 16, .rc, .const 0, .any, false⟩
/-- `LOST_INTERRUPTIONS.COUNT` of R591. -/
def PANTRY.LOST_INTERRUPTIONS_COUNT : Fld := ⟨0x088, 1, 0x0, 0, 32, .ro, .const 0, .any, false⟩
/-- `RECBUF.BYTES` of R591. -/
def PANTRY.RECBUF_BYTES : Fld := ⟨0x100, 64, 0x4, 0, 32, .ro, .const 0, .any, false⟩
/-! ### Page SAFEIO -/
/-- `CTRL.EN` of R634. -/
def SAFEIO.CTRL_EN : Fld := ⟨0x008, 1, 0x0, 0, 1, .rws, .const 0, .any, true⟩
/-- `STATUS.EN` of R634. -/
def SAFEIO.STATUS_EN : Fld := ⟨0x00C, 1, 0x0, 0, 1, .ro, .const 0, .any, false⟩
/-- `STATUS.RECOMMIT` of R634. -/
def SAFEIO.STATUS_RECOMMIT : Fld := ⟨0x00C, 1, 0x0, 1, 1, .ro, .const 0, .any, false⟩
/-- `STATUS.DEMAND` of R634. -/
def SAFEIO.STATUS_DEMAND : Fld := ⟨0x00C, 1, 0x0, 2, 1, .ro, .const 0, .any, false⟩
/-- `STATUS.DEMAND_PAIR` of R634. -/
def SAFEIO.STATUS_DEMAND_PAIR : Fld := ⟨0x00C, 1, 0x0, 3, 1, .ro, .const 0, .any, false⟩
/-- `STATUS.DEMAND_NET` of R634. -/
def SAFEIO.STATUS_DEMAND_NET : Fld := ⟨0x00C, 1, 0x0, 4, 1, .ro, .const 0, .any, false⟩
/-- `STATUS.DEMAND_SW` of R634. -/
def SAFEIO.STATUS_DEMAND_SW : Fld := ⟨0x00C, 1, 0x0, 5, 1, .ro, .const 0, .any, false⟩
/-- `STATUS.WDOG` of R634. -/
def SAFEIO.STATUS_WDOG : Fld := ⟨0x00C, 1, 0x0, 6, 1, .ro, .const 0, .any, false⟩
/-- `STATUS.TP_FAULT` of R634. -/
def SAFEIO.STATUS_TP_FAULT : Fld := ⟨0x00C, 1, 0x0, 7, 1, .ro, .const 0, .any, false⟩
/-- `STATUS.COMMIT_PENDING` of R634. -/
def SAFEIO.STATUS_COMMIT_PENDING : Fld := ⟨0x00C, 1, 0x0, 31, 1, .ro, .const 0, .any, false⟩
/-- `TPCFG.PERIOD_MS` of R636. -/
def SAFEIO.TPCFG_PERIOD_MS : Fld := ⟨0x040, 1, 0x0, 0, 10, .rws, .const 0xA, .nat 4 1000, true⟩
/-- `TPCFG.WIDTH` of R636. -/
def SAFEIO.TPCFG_WIDTH : Fld := ⟨0x040, 1, 0x0, 10, 5, .rws, .const 0x5, .nat 2 20, true⟩
/-- `TPCFG.TPEN` of R636. -/
def SAFEIO.TPCFG_TPEN : Fld := ⟨0x040, 1, 0x0, 16, 4, .rws, .const 0, .any, true⟩
/-- `TPSTAT.RUNNING` of R636. -/
def SAFEIO.TPSTAT_RUNNING : Fld := ⟨0x044, 1, 0x0, 0, 4, .ro, .const 0, .any, false⟩
/-- `TPSTAT.FAULT_HIGH` of R636. -/
def SAFEIO.TPSTAT_FAULT_HIGH : Fld := ⟨0x044, 1, 0x0, 4, 4, .ro, .const 0, .any, false⟩
/-- `TPSTAT.FAULT_LOW` of R636. -/
def SAFEIO.TPSTAT_FAULT_LOW : Fld := ⟨0x044, 1, 0x0, 8, 4, .ro, .const 0, .any, false⟩
/-- `ASSIGN.MB_PAIR0` of R636. -/
def SAFEIO.ASSIGN_MB_PAIR0 : Fld := ⟨0x048, 1, 0x0, 0, 3, .rws, .const 0, .any, true⟩
/-- `ASSIGN.MB_EN0` of R636. -/
def SAFEIO.ASSIGN_MB_EN0 : Fld := ⟨0x048, 1, 0x0, 3, 1, .rws, .const 0, .any, true⟩
/-- `ASSIGN.MB_PAIR1` of R636. -/
def SAFEIO.ASSIGN_MB_PAIR1 : Fld := ⟨0x048, 1, 0x0, 4, 3, .rws, .const 0, .any, true⟩
/-- `ASSIGN.MB_EN1` of R636. -/
def SAFEIO.ASSIGN_MB_EN1 : Fld := ⟨0x048, 1, 0x0, 7, 1, .rws, .const 0, .any, true⟩
/-- `ASSIGN.GL_PAIR0` of R636. -/
def SAFEIO.ASSIGN_GL_PAIR0 : Fld := ⟨0x048, 1, 0x0, 8, 3, .rws, .const 0, .any, true⟩
/-- `ASSIGN.GL_EN0` of R636. -/
def SAFEIO.ASSIGN_GL_EN0 : Fld := ⟨0x048, 1, 0x0, 11, 1, .rws, .const 0, .any, true⟩
/-- `ASSIGN.GL_PAIR1` of R636. -/
def SAFEIO.ASSIGN_GL_PAIR1 : Fld := ⟨0x048, 1, 0x0, 12, 3, .rws, .const 0, .any, true⟩
/-- `ASSIGN.GL_EN1` of R636. -/
def SAFEIO.ASSIGN_GL_EN1 : Fld := ⟨0x048, 1, 0x0, 15, 1, .rws, .const 0, .any, true⟩
/-- `DEMAND.SW_DEMAND` of R636. -/
def SAFEIO.DEMAND_SW_DEMAND : Fld := ⟨0x04C, 1, 0x0, 0, 1, .rw, .const 0, .any, false⟩
/-- `ACK.PAIR` of R636. -/
def SAFEIO.ACK_PAIR : Fld := ⟨0x050, 1, 0x0, 0, 8, .wo, .const 0, .any, false⟩
/-- `RAW.CH` of R636. -/
def SAFEIO.RAW_CH : Fld := ⟨0x054, 1, 0x0, 0, 24, .ro, .const 0, .any, false⟩
/-- `LEVEL.CH` of R636. -/
def SAFEIO.LEVEL_CH : Fld := ⟨0x058, 1, 0x0, 0, 24, .ro, .const 0, .any, false⟩
/-- `CHFAULT.CH` of R636. -/
def SAFEIO.CHFAULT_CH : Fld := ⟨0x05C, 1, 0x0, 0, 24, .ro, .const 0, .any, false⟩
/-- `TEST_FAULT_COUNT.COUNT` of R636. -/
def SAFEIO.TEST_FAULT_COUNT_COUNT : Fld := ⟨0x060, 1, 0x0, 0, 16, .rc, .const 0, .any, false⟩
/-- `CHCFG.FILT_MS` of R636. -/
def SAFEIO.CHCFG_FILT_MS : Fld := ⟨0x080, 24, 0x4, 0, 6, .rws, .const 0x3, .nat 1 50, true⟩
/-- `CHCFG.TPSRC` of R636. -/
def SAFEIO.CHCFG_TPSRC : Fld := ⟨0x080, 24, 0x4, 6, 3, .rws, .const 0, .nat 0 4, true⟩
/-- `PAIRCFG.MODE` of R636. -/
def SAFEIO.PAIRCFG_MODE : Fld := ⟨0x0E0, 8, 0x4, 0, 2, .rws, .const 0, .nat 0 2, true⟩
/-- `PAIRCFG.DISC_MS` of R636. -/
def SAFEIO.PAIRCFG_DISC_MS : Fld := ⟨0x0E0, 8, 0x4, 2, 11, .rws, .const 0x64, .nat 2 2000, true⟩
/-- `PAIRCFG.RESTART` of R636. -/
def SAFEIO.PAIRCFG_RESTART : Fld := ⟨0x0E0, 8, 0x4, 13, 1, .rws, .const 0, .any, true⟩
/-- `PAIRCFG.DEMAND` of R636. -/
def SAFEIO.PAIRCFG_DEMAND : Fld := ⟨0x0E0, 8, 0x4, 14, 1, .rws, .const 0, .any, true⟩
/-- `PAIRSTAT.STATE` of R636. -/
def SAFEIO.PAIRSTAT_STATE : Fld := ⟨0x100, 8, 0x4, 0, 3, .ro, .const 0x5, .any, false⟩
/-- `PAIRSTAT.VALUE` of R636. -/
def SAFEIO.PAIRSTAT_VALUE : Fld := ⟨0x100, 8, 0x4, 3, 1, .ro, .const 0, .any, false⟩
/-- `PAIRSTAT.CAUSE` of R636. -/
def SAFEIO.PAIRSTAT_CAUSE : Fld := ⟨0x100, 8, 0x4, 4, 4, .ro, .const 0, .any, false⟩
/-- `PAIRSTAT.FAULT_COUNT` of R636. -/
def SAFEIO.PAIRSTAT_FAULT_COUNT : Fld := ⟨0x100, 8, 0x4, 16, 8, .rc, .const 0, .any, false⟩
/-- `WDCFG.WIN_MAX` of R636. -/
def SAFEIO.WDCFG_WIN_MAX : Fld := ⟨0x140, 2, 0x8, 0, 10, .rwl, .const 0x64, .any, false⟩
/-- `WDCFG.WIN_MIN` of R636. -/
def SAFEIO.WDCFG_WIN_MIN : Fld := ⟨0x140, 2, 0x8, 10, 10, .rwl, .const 0, .any, false⟩
/-- `WDCFG.EN` of R636. -/
def SAFEIO.WDCFG_EN : Fld := ⟨0x140, 2, 0x8, 31, 1, .rwl, .const 0, .any, false⟩
/-- `WDSVC.TOKEN` of R636. -/
def SAFEIO.WDSVC_TOKEN : Fld := ⟨0x144, 2, 0x8, 0, 8, .wo, .const 0, .any, false⟩
/-- `WDSTAT.EXPIRED` of R636. -/
def SAFEIO.WDSTAT_EXPIRED : Fld := ⟨0x150, 1, 0x0, 0, 2, .ro, .const 0, .any, false⟩
/-- `WDSTAT.RUN` of R636. -/
def SAFEIO.WDSTAT_RUN : Fld := ⟨0x150, 1, 0x0, 2, 2, .ro, .const 0, .any, false⟩
/-- `WDCLEAR.CLEAR` of R636. -/
def SAFEIO.WDCLEAR_CLEAR : Fld := ⟨0x154, 1, 0x0, 0, 2, .wo, .const 0, .any, false⟩
/-! ### Page SAFENET -/
/-- `CTRL.EN` of R637. -/
def SAFENET.CTRL_EN : Fld := ⟨0x008, 1, 0x0, 0, 1, .rws, .const 0, .any, true⟩
/-- `STATUS.VALUE` of R637. -/
def SAFENET.STATUS_VALUE : Fld := ⟨0x00C, 1, 0x0, 0, 8, .ro, .const 0, .any, false⟩
/-- `STATUS.DEMAND` of R637. -/
def SAFENET.STATUS_DEMAND : Fld := ⟨0x00C, 1, 0x0, 8, 8, .ro, .const 0, .any, false⟩
/-- `STATUS.DEGRADED` of R637. -/
def SAFENET.STATUS_DEGRADED : Fld := ⟨0x00C, 1, 0x0, 16, 8, .ro, .const 0, .any, false⟩
/-- `STATUS.COMMIT_PENDING` of R637. -/
def SAFENET.STATUS_COMMIT_PENDING : Fld := ⟨0x00C, 1, 0x0, 31, 1, .ro, .const 0, .any, false⟩
/-- `CFG.ETYPE` of R638. -/
def SAFENET.CFG_ETYPE : Fld := ⟨0x040, 1, 0x0, 0, 16, .rws, .const 0x88B5, .any, true⟩
/-- `CFG.CMP_MS` of R638. -/
def SAFENET.CFG_CMP_MS : Fld := ⟨0x040, 1, 0x0, 16, 8, .rws, .const 0x14, .nat 1 255, true⟩
/-- `ACK.CH` of R638. -/
def SAFENET.ACK_CH : Fld := ⟨0x044, 1, 0x0, 0, 8, .wo, .const 0, .any, false⟩
/-- `CH_CFG.ID` of R638. -/
def SAFENET.CH_CFG_ID : Fld := ⟨0x080, 8, 0x20, 0, 16, .rws, .const 0, .any, true⟩
/-- `CH_CFG.EN` of R638. -/
def SAFENET.CH_CFG_EN : Fld := ⟨0x080, 8, 0x20, 16, 1, .rws, .const 0, .any, true⟩
/-- `CH_CFG.DEMAND` of R638. -/
def SAFENET.CH_CFG_DEMAND : Fld := ⟨0x080, 8, 0x20, 17, 1, .rws, .const 0, .any, true⟩
/-- `CH_CFG.RESTART` of R638. -/
def SAFENET.CH_CFG_RESTART : Fld := ⟨0x080, 8, 0x20, 18, 1, .rws, .const 0, .any, true⟩
/-- `CH_SEED.SEED` of R638. -/
def SAFENET.CH_SEED_SEED : Fld := ⟨0x084, 8, 0x20, 0, 32, .rws, .const 0, .any, true⟩
/-- `CH_WD.WD_MS` of R638. -/
def SAFENET.CH_WD_WD_MS : Fld := ⟨0x088, 8, 0x20, 0, 11, .rws, .const 0x64, .nat 2 2000, true⟩
/-- `CH_WD.MAX_GAP` of R638. -/
def SAFENET.CH_WD_MAX_GAP : Fld := ⟨0x088, 8, 0x20, 16, 8, .rws, .const 0x4, .nat 1 255, true⟩
/-- `CH_STAT.STATE` of R638. -/
def SAFENET.CH_STAT_STATE : Fld := ⟨0x08C, 8, 0x20, 0, 3, .ro, .const 0, .any, false⟩
/-- `CH_STAT.VALUE` of R638. -/
def SAFENET.CH_STAT_VALUE : Fld := ⟨0x08C, 8, 0x20, 3, 1, .ro, .const 0, .any, false⟩
/-- `CH_STAT.CAUSE` of R638. -/
def SAFENET.CH_STAT_CAUSE : Fld := ⟨0x08C, 8, 0x20, 4, 4, .ro, .const 0, .any, false⟩
/-- `CH_SEQ.LAST_SEQ` of R638. -/
def SAFENET.CH_SEQ_LAST_SEQ : Fld := ⟨0x090, 8, 0x20, 0, 32, .ro, .const 0, .any, false⟩
/-- `CH_ERR.CRC_ERR` of R638. -/
def SAFENET.CH_ERR_CRC_ERR : Fld := ⟨0x094, 8, 0x20, 0, 16, .rc, .const 0, .any, false⟩
/-- `CH_ERR.OLD` of R638. -/
def SAFENET.CH_ERR_OLD : Fld := ⟨0x094, 8, 0x20, 16, 16, .rc, .const 0, .any, false⟩
/-- `CH_MISS.MISS_A` of R638. -/
def SAFENET.CH_MISS_MISS_A : Fld := ⟨0x098, 8, 0x20, 0, 16, .rc, .const 0, .any, false⟩
/-- `CH_MISS.MISS_B` of R638. -/
def SAFENET.CH_MISS_MISS_B : Fld := ⟨0x098, 8, 0x20, 16, 16, .rc, .const 0, .any, false⟩
/-! ### Page GDRV -/
/-- `CTRL.EN` of R676. -/
def GDRV.CTRL_EN : Fld := ⟨0x008, 1, 0x0, 0, 1, .rws, .const 0, .any, true⟩
/-- `CTRL.CLEAR` of R676. -/
def GDRV.CTRL_CLEAR : Fld := ⟨0x008, 1, 0x0, 1, 1, .wo, .const 0, .any, false⟩
/-- `CTRL.DIAG` of R676. -/
def GDRV.CTRL_DIAG : Fld := ⟨0x008, 1, 0x0, 2, 1, .wo, .const 0, .any, false⟩
/-- `STATUS.STATE` of R677. -/
def GDRV.STATUS_STATE : Fld := ⟨0x00C, 1, 0x0, 0, 3, .ro, .const 0, .any, false⟩
/-- `STATUS.GD_BOOT_UV` of R677. -/
def GDRV.STATUS_GD_BOOT_UV : Fld := ⟨0x00C, 1, 0x0, 3, 1, .ro, .const 0, .any, false⟩
/-- `STATUS.PINNED` of R677. -/
def GDRV.STATUS_PINNED : Fld := ⟨0x00C, 1, 0x0, 4, 2, .ro, .const 0, .any, false⟩
/-- `STATUS.RECOMMIT` of R677. -/
def GDRV.STATUS_RECOMMIT : Fld := ⟨0x00C, 1, 0x0, 6, 1, .ro, .const 0, .any, false⟩
/-- `STATUS.DIAG_OK` of R677. -/
def GDRV.STATUS_DIAG_OK : Fld := ⟨0x00C, 1, 0x0, 7, 1, .ro, .const 0, .any, false⟩
/-- `STATUS.FAULT_KIND` of R677. -/
def GDRV.STATUS_FAULT_KIND : Fld := ⟨0x00C, 1, 0x0, 8, 4, .ro, .const 0, .any, false⟩
/-- `STATUS.DIAG_RES` of R677. -/
def GDRV.STATUS_DIAG_RES : Fld := ⟨0x00C, 1, 0x0, 12, 3, .ro, .const 0, .any, false⟩
/-- `STATUS.COMMIT_PENDING` of R677. -/
def GDRV.STATUS_COMMIT_PENDING : Fld := ⟨0x00C, 1, 0x0, 31, 1, .ro, .const 0, .any, false⟩
/-- `CFG.AXIS` of R678. -/
def GDRV.CFG_AXIS : Fld := ⟨0x040, 1, 0x0, 0, 2, .rws, .const 0, .any, true⟩
/-- `CFG.LEG` of R678. -/
def GDRV.CFG_LEG : Fld := ⟨0x040, 1, 0x0, 2, 2, .rws, .const 0, .nat 0 2, true⟩
/-- `CFG.CAP_EN` of R678. -/
def GDRV.CFG_CAP_EN : Fld := ⟨0x040, 1, 0x0, 4, 1, .rws, .const 0x1, .any, true⟩
/-- `CFG.DIAG_REQ` of R678. -/
def GDRV.CFG_DIAG_REQ : Fld := ⟨0x040, 1, 0x0, 5, 1, .rws, .const 0x1, .any, true⟩
/-- `DEADTIME.DT` of R678. -/
def GDRV.DEADTIME_DT : Fld := ⟨0x044, 1, 0x0, 0, 10, .rws, .const 0x32, .nat 10 1023, true⟩
/-- `STRENGTH.SRC_FIXED` of R678. -/
def GDRV.STRENGTH_SRC_FIXED : Fld := ⟨0x048, 1, 0x0, 0, 5, .rws, .const 0x4, .nat 1 16, false⟩
/-- `STRENGTH.SRC_MIN` of R678. -/
def GDRV.STRENGTH_SRC_MIN : Fld := ⟨0x048, 1, 0x0, 5, 5, .rws, .const 0x1, .nat 1 16, false⟩
/-- `STRENGTH.SRC_MAX` of R678. -/
def GDRV.STRENGTH_SRC_MAX : Fld := ⟨0x048, 1, 0x0, 10, 5, .rws, .const 0x10, .nat 1 16, false⟩
/-- `STRENGTH.SRC_ADAPT` of R678. -/
def GDRV.STRENGTH_SRC_ADAPT : Fld := ⟨0x048, 1, 0x0, 15, 1, .rws, .const 0, .any, false⟩
/-- `STRENGTH.SNK_FIXED` of R678. -/
def GDRV.STRENGTH_SNK_FIXED : Fld := ⟨0x048, 1, 0x0, 16, 5, .rws, .const 0x6, .nat 1 16, false⟩
/-- `STRENGTH.SNK_MIN` of R678. -/
def GDRV.STRENGTH_SNK_MIN : Fld := ⟨0x048, 1, 0x0, 21, 5, .rws, .const 0x1, .nat 1 16, false⟩
/-- `STRENGTH.SNK_MAX` of R678. -/
def GDRV.STRENGTH_SNK_MAX : Fld := ⟨0x048, 1, 0x0, 26, 5, .rws, .const 0x10, .nat 1 16, false⟩
/-- `STRENGTH.SNK_ADAPT` of R678. -/
def GDRV.STRENGTH_SNK_ADAPT : Fld := ⟨0x048, 1, 0x0, 31, 1, .rws, .const 0, .any, false⟩
/-- `TARGET.TARGET_NS` of R678. -/
def GDRV.TARGET_TARGET_NS : Fld := ⟨0x04C, 1, 0x0, 0, 8, .rws, .const 0x1E, .nat 5 200, false⟩
/-- `TARGET.HYST_NS` of R678. -/
def GDRV.TARGET_HYST_NS : Fld := ⟨0x04C, 1, 0x0, 8, 4, .rws, .const 0x3, .any, false⟩
/-- `REFRESH.WIDTH` of R678. -/
def GDRV.REFRESH_WIDTH : Fld := ⟨0x050, 1, 0x0, 0, 8, .rws, .const 0x32, .nat 20 200, true⟩
/-- `REFRESH.PERIOD_US` of R678. -/
def GDRV.REFRESH_PERIOD_US : Fld := ⟨0x050, 1, 0x0, 8, 14, .rws, .const 0x64, .nat 10 10000, true⟩
/-- `CAP.DUTY_CAP` of R678. -/
def GDRV.CAP_DUTY_CAP : Fld := ⟨0x054, 1, 0x0, 0, 8, .rws, .const 0xF3, .nat 128 255, true⟩
/-- `VDS.THR` of R678. -/
def GDRV.VDS_THR : Fld := ⟨0x058, 1, 0x0, 0, 5, .rws, .const 0x5, .nat 1 20, true⟩
/-- `VDS.BLANK` of R678. -/
def GDRV.VDS_BLANK : Fld := ⟨0x058, 1, 0x0, 8, 9, .rws, .const 0x32, .nat 10 300, true⟩
/-- `VDS.FAULT_SNK` of R678. -/
def GDRV.VDS_FAULT_SNK : Fld := ⟨0x058, 1, 0x0, 17, 5, .rws, .const 0x4, .nat 1 16, true⟩
/-- `DIAG.PHASE_US` of R678. -/
def GDRV.DIAG_PHASE_US : Fld := ⟨0x05C, 1, 0x0, 0, 14, .rws, .const 0x1388, .nat 100 10000, true⟩
/-- `DIAG.PARTNER` of R678. -/
def GDRV.DIAG_PARTNER : Fld := ⟨0x05C, 1, 0x0, 14, 4, .rws, .const 0, .nat 0 11, true⟩
/-- `DIAG.PARTNER_EN` of R678. -/
def GDRV.DIAG_PARTNER_EN : Fld := ⟨0x05C, 1, 0x0, 18, 1, .rws, .const 0, .any, true⟩
/-- `ADAPT.SRC_NOW` of R678. -/
def GDRV.ADAPT_SRC_NOW : Fld := ⟨0x060, 1, 0x0, 0, 5, .ro, .const 0, .any, false⟩
/-- `ADAPT.SNK_NOW` of R678. -/
def GDRV.ADAPT_SNK_NOW : Fld := ⟨0x060, 1, 0x0, 8, 5, .ro, .const 0, .any, false⟩
/-- `ADAPT.LAST_SRC_NS` of R678. -/
def GDRV.ADAPT_LAST_SRC_NS : Fld := ⟨0x060, 1, 0x0, 16, 8, .ro, .const 0, .any, false⟩
/-- `ADAPT.LAST_SNK_NS` of R678. -/
def GDRV.ADAPT_LAST_SNK_NS : Fld := ⟨0x060, 1, 0x0, 24, 8, .ro, .const 0, .any, false⟩
/-- `FAULT_COUNT.COUNT` of R678. -/
def GDRV.FAULT_COUNT_COUNT : Fld := ⟨0x064, 1, 0x0, 0, 16, .rc, .const 0, .any, false⟩
/-- `BOOT_UV_COUNT.COUNT` of R678. -/
def GDRV.BOOT_UV_COUNT_COUNT : Fld := ⟨0x068, 1, 0x0, 0, 16, .rc, .const 0, .any, false⟩
/-- `REFRESH_COUNT.COUNT` of R678. -/
def GDRV.REFRESH_COUNT_COUNT : Fld := ⟨0x06C, 1, 0x0, 0, 32, .ro, .const 0, .any, false⟩
/-- `CAP_COUNT.COUNT` of R678. -/
def GDRV.CAP_COUNT_COUNT : Fld := ⟨0x070, 1, 0x0, 0, 16, .rc, .const 0, .any, false⟩
/-! ### Page CHIMNEY -/
/-- `CTRL.CLEAR_OV` of R679. -/
def CHIMNEY.CTRL_CLEAR_OV : Fld := ⟨0x008, 1, 0x0, 0, 1, .wo, .const 0, .any, false⟩
/-- `CTRL.CLEAR_FIRST` of R679. -/
def CHIMNEY.CTRL_CLEAR_FIRST : Fld := ⟨0x008, 1, 0x0, 1, 1, .wo, .const 0, .any, false⟩
/-- `STATUS.VGD_OK` of R679. -/
def CHIMNEY.STATUS_VGD_OK : Fld := ⟨0x00C, 1, 0x0, 0, 1, .ro, .const 0, .any, false⟩
/-- `STATUS.VGD_UV` of R679. -/
def CHIMNEY.STATUS_VGD_UV : Fld := ⟨0x00C, 1, 0x0, 1, 1, .ro, .const 0, .any, false⟩
/-- `STATUS.MBOV` of R679. -/
def CHIMNEY.STATUS_MBOV : Fld := ⟨0x00C, 1, 0x0, 2, 1, .ro, .const 0, .any, false⟩
/-- `STATUS.CHOP_ON` of R679. -/
def CHIMNEY.STATUS_CHOP_ON : Fld := ⟨0x00C, 1, 0x0, 3, 1, .ro, .const 0, .any, false⟩
/-- `STATUS.CHOP_LIMIT` of R679. -/
def CHIMNEY.STATUS_CHOP_LIMIT : Fld := ⟨0x00C, 1, 0x0, 4, 1, .ro, .const 0, .any, false⟩
/-- `STATUS.CFG_HELD` of R679. -/
def CHIMNEY.STATUS_CFG_HELD : Fld := ⟨0x00C, 1, 0x0, 5, 1, .ro, .const 0, .any, false⟩
/-- `STATUS.COMMIT_PENDING` of R679. -/
def CHIMNEY.STATUS_COMMIT_PENDING : Fld := ⟨0x00C, 1, 0x0, 31, 1, .ro, .const 0, .any, false⟩
/-- `CFG.UV_EN` of R680. -/
def CHIMNEY.CFG_UV_EN : Fld := ⟨0x040, 1, 0x0, 0, 1, .rws, .const 0x1, .any, true⟩
/-- `CFG.MBOV_EN` of R680. -/
def CHIMNEY.CFG_MBOV_EN : Fld := ⟨0x040, 1, 0x0, 1, 1, .rws, .const 0x1, .any, true⟩
/-- `CFG.UV_SEL` of R680. -/
def CHIMNEY.CFG_UV_SEL : Fld := ⟨0x040, 1, 0x0, 2, 2, .rws, .const 0x2, .nat 0 2, true⟩
/-- `CFG.OV_ACTION` of R680. -/
def CHIMNEY.CFG_OV_ACTION : Fld := ⟨0x040, 1, 0x0, 4, 1, .rws, .const 0, .any, true⟩
/-- `VM_THR.CHOP_OFF` of R680. -/
def CHIMNEY.VM_THR_CHOP_OFF : Fld := ⟨0x044, 1, 0x0, 0, 8, .rws, .const 0x68, .nat 40 132, true⟩
/-- `VM_THR.CHOP_ON` of R680. -/
def CHIMNEY.VM_THR_CHOP_ON : Fld := ⟨0x044, 1, 0x0, 8, 8, .rws, .const 0x6C, .nat 40 132, true⟩
/-- `VM_THR.OV_TRIP` of R680. -/
def CHIMNEY.VM_THR_OV_TRIP : Fld := ⟨0x044, 1, 0x0, 16, 8, .rws, .const 0x74, .nat 40 132, true⟩
/-- `CHOP.MAX_ON_MS` of R680. -/
def CHIMNEY.CHOP_MAX_ON_MS : Fld := ⟨0x048, 1, 0x0, 0, 14, .rws, .const 0x3E8, .nat 1 10000, true⟩
/-- `CHOP.REST_MS` of R680. -/
def CHIMNEY.CHOP_REST_MS : Fld := ⟨0x048, 1, 0x0, 16, 8, .rws, .const 0x64, .nat 1 255, true⟩
/-- `MEAS.VM_DV` of R680. -/
def CHIMNEY.MEAS_VM_DV : Fld := ⟨0x04C, 1, 0x0, 0, 12, .ro, .const 0, .any, false⟩
/-- `MEAS.VGD_DV` of R680. -/
def CHIMNEY.MEAS_VGD_DV : Fld := ⟨0x04C, 1, 0x0, 16, 12, .ro, .const 0, .any, false⟩
/-- `FIRST_FAULT.LEG` of R680. -/
def CHIMNEY.FIRST_FAULT_LEG : Fld := ⟨0x050, 1, 0x0, 0, 4, .ro, .const 0, .any, false⟩
/-- `FIRST_FAULT.KIND` of R680. -/
def CHIMNEY.FIRST_FAULT_KIND : Fld := ⟨0x050, 1, 0x0, 4, 4, .ro, .const 0, .any, false⟩
/-- `FIRST_FAULT.LEG2` of R680. -/
def CHIMNEY.FIRST_FAULT_LEG2 : Fld := ⟨0x050, 1, 0x0, 8, 4, .ro, .const 0, .any, false⟩
/-- `FIRST_FAULT.LEG2_VALID` of R680. -/
def CHIMNEY.FIRST_FAULT_LEG2_VALID : Fld := ⟨0x050, 1, 0x0, 12, 1, .ro, .const 0, .any, false⟩
/-- `FIRST_FAULT.VALID` of R680. -/
def CHIMNEY.FIRST_FAULT_VALID : Fld := ⟨0x050, 1, 0x0, 31, 1, .ro, .const 0, .any, false⟩
/-- `FIRST_CYC_LO.CYC` of R680. -/
def CHIMNEY.FIRST_CYC_LO_CYC : Fld := ⟨0x054, 1, 0x0, 0, 32, .ro, .const 0, .any, false⟩
/-- `FIRST_CYC_HI.CYC` of R680. -/
def CHIMNEY.FIRST_CYC_HI_CYC : Fld := ⟨0x058, 1, 0x0, 0, 32, .ro, .const 0, .any, false⟩
/-- `CHOP_COUNT.COUNT` of R680. -/
def CHIMNEY.CHOP_COUNT_COUNT : Fld := ⟨0x05C, 1, 0x0, 0, 32, .ro, .const 0, .any, false⟩
/-- `OV_COUNT.COUNT` of R680. -/
def CHIMNEY.OV_COUNT_COUNT : Fld := ⟨0x060, 1, 0x0, 0, 16, .rc, .const 0, .any, false⟩
/-- `VGD_UV_COUNT.COUNT` of R680. -/
def CHIMNEY.VGD_UV_COUNT_COUNT : Fld := ⟨0x064, 1, 0x0, 0, 16, .rc, .const 0, .any, false⟩
/-! ### Page AXIS -/
/-- `CTRL.EN` of R714. -/
def AXIS.CTRL_EN : Fld := ⟨0x008, 1, 0x0, 0, 1, .rws, .const 0, .any, true⟩
/-- `STATUS.STATE` of R715. -/
def AXIS.STATUS_STATE : Fld := ⟨0x00C, 1, 0x0, 0, 3, .ro, .const 0, .any, false⟩
/-- `STATUS.HOMED` of R715. -/
def AXIS.STATUS_HOMED : Fld := ⟨0x00C, 1, 0x0, 3, 1, .ro, .const 0, .any, false⟩
/-- `STATUS.LIMIT_STOP` of R715. -/
def AXIS.STATUS_LIMIT_STOP : Fld := ⟨0x00C, 1, 0x0, 4, 1, .ro, .const 0, .any, false⟩
/-- `STATUS.LIMIT_OVER` of R715. -/
def AXIS.STATUS_LIMIT_OVER : Fld := ⟨0x00C, 1, 0x0, 5, 1, .ro, .const 0, .any, false⟩
/-- `STATUS.STALL` of R715. -/
def AXIS.STATUS_STALL : Fld := ⟨0x00C, 1, 0x0, 6, 1, .ro, .const 0, .any, false⟩
/-- `STATUS.STEP_LAG` of R715. -/
def AXIS.STATUS_STEP_LAG : Fld := ⟨0x00C, 1, 0x0, 7, 1, .ro, .const 0, .any, false⟩
/-- `STATUS.GEAR_CLAMP` of R715. -/
def AXIS.STATUS_GEAR_CLAMP : Fld := ⟨0x00C, 1, 0x0, 8, 1, .ro, .const 0, .any, false⟩
/-- `STATUS.AT_TARGET` of R715. -/
def AXIS.STATUS_AT_TARGET : Fld := ⟨0x00C, 1, 0x0, 9, 1, .ro, .const 0, .any, false⟩
/-- `STATUS.FAULT_CAUSE` of R715. -/
def AXIS.STATUS_FAULT_CAUSE : Fld := ⟨0x00C, 1, 0x0, 12, 4, .ro, .const 0, .any, false⟩
/-- `STATUS.COMMIT_PENDING` of R715. -/
def AXIS.STATUS_COMMIT_PENDING : Fld := ⟨0x00C, 1, 0x0, 31, 1, .ro, .const 0, .any, false⟩
/-- `CFG.MOTOR` of R717. -/
def AXIS.CFG_MOTOR : Fld := ⟨0x040, 1, 0x0, 0, 1, .rws, .const 0, .any, true⟩
/-- `CFG.MSTEP` of R717. -/
def AXIS.CFG_MSTEP : Fld := ⟨0x040, 1, 0x0, 2, 4, .rws, .const 0x8, .nat 0 8, true⟩
/-- `CFG.SOFT_EN` of R717. -/
def AXIS.CFG_SOFT_EN : Fld := ⟨0x040, 1, 0x0, 6, 1, .rws, .const 0, .any, true⟩
/-- `CFG.STALL_EN` of R717. -/
def AXIS.CFG_STALL_EN : Fld := ⟨0x040, 1, 0x0, 7, 1, .rws, .const 0, .any, true⟩
/-- `CFG.STALL_ACTION` of R717. -/
def AXIS.CFG_STALL_ACTION : Fld := ⟨0x040, 1, 0x0, 8, 1, .rws, .const 0, .any, true⟩
/-- `CFG.DIR_INV` of R717. -/
def AXIS.CFG_DIR_INV : Fld := ⟨0x040, 1, 0x0, 9, 1, .rws, .const 0, .any, true⟩
/-- `SWITCH.PERIOD` of R717. -/
def AXIS.SWITCH_PERIOD : Fld := ⟨0x044, 1, 0x0, 0, 14, .rws, .const 0x1388, .nat 1000 10000, true⟩
/-- `AMPL.RUN` of R717. -/
def AXIS.AMPL_RUN : Fld := ⟨0x048, 1, 0x0, 0, 16, .rws, .const 0x8000, .any, false⟩
/-- `AMPL.HOLD` of R717. -/
def AXIS.AMPL_HOLD : Fld := ⟨0x048, 1, 0x0, 16, 16, .rws, .const 0x4000, .any, false⟩
/-- `VMAX.VALUE` of R717. -/
def AXIS.VMAX_VALUE : Fld := ⟨0x04C, 1, 0x0, 0, 32, .rws, .const 0x47800000, .positive, false⟩
/-- `AMAX.VALUE` of R717. -/
def AXIS.AMAX_VALUE : Fld := ⟨0x050, 1, 0x0, 0, 32, .rws, .const 0x48800000, .positive, false⟩
/-- `DECEL.VALUE` of R717. -/
def AXIS.DECEL_VALUE : Fld := ⟨0x054, 1, 0x0, 0, 32, .rws, .const 0x48800000, .positive, false⟩
/-- `JMAX.VALUE` of R717. -/
def AXIS.JMAX_VALUE : Fld := ⟨0x058, 1, 0x0, 0, 32, .rws, .const 0x4A800000, .positive, false⟩
/-- `LIM_DECEL.VALUE` of R717. -/
def AXIS.LIM_DECEL_VALUE : Fld := ⟨0x05C, 1, 0x0, 0, 32, .rws, .const 0x49800000, .positive, false⟩
/-- `SOFT_MIN.POS` of R717. -/
def AXIS.SOFT_MIN_POS : Fld := ⟨0x060, 1, 0x0, 0, 32, .rws, .const 0, .any, false⟩
/-- `SOFT_MAX.POS` of R717. -/
def AXIS.SOFT_MAX_POS : Fld := ⟨0x064, 1, 0x0, 0, 32, .rws, .const 0x7FFFFFFF, .any, false⟩
/-- `STEPCFG.SIZE` of R717. -/
def AXIS.STEPCFG_SIZE : Fld := ⟨0x068, 1, 0x0, 0, 9, .rws, .const 0x100, .nat 1 256, false⟩
/-- `STEPCFG.TIMEOUT_US` of R717. -/
def AXIS.STEPCFG_TIMEOUT_US : Fld := ⟨0x068, 1, 0x0, 9, 16, .rws, .const 0x7D0, .nat 10 50000, false⟩
/-- `STALL.UNIT` of R717. -/
def AXIS.STALL_UNIT : Fld := ⟨0x06C, 1, 0x0, 0, 3, .rws, .const 0, .nat 0 5, true⟩
/-- `STALL.SLOT` of R717. -/
def AXIS.STALL_SLOT : Fld := ⟨0x06C, 1, 0x0, 3, 4, .rws, .const 0, .any, true⟩
/-- `STALL.THR` of R717. -/
def AXIS.STALL_THR : Fld := ⟨0x06C, 1, 0x0, 7, 12, .rws, .const 0xFFF, .any, true⟩
/-- `STALL.COUNT` of R717. -/
def AXIS.STALL_COUNT : Fld := ⟨0x06C, 1, 0x0, 19, 4, .rws, .const 0x3, .nat 1 15, true⟩
/-- `STALL.BLANK` of R717. -/
def AXIS.STALL_BLANK : Fld := ⟨0x06C, 1, 0x0, 23, 8, .rws, .const 0x8, .any, true⟩
/-- `STALL_VMIN.VALUE` of R717. -/
def AXIS.STALL_VMIN_VALUE : Fld := ⟨0x070, 1, 0x0, 0, 32, .rws, .const 0x46800000, .positive, false⟩
/-- `HOMECFG.DIR` of R717. -/
def AXIS.HOMECFG_DIR : Fld := ⟨0x074, 1, 0x0, 0, 1, .rws, .const 0, .any, false⟩
/-- `HOMECFG.AMPL` of R717. -/
def AXIS.HOMECFG_AMPL : Fld := ⟨0x074, 1, 0x0, 16, 16, .rws, .const 0x2000, .any, false⟩
/-- `HOME_VEL.VALUE` of R717. -/
def AXIS.HOME_VEL_VALUE : Fld := ⟨0x078, 1, 0x0, 0, 32, .rws, .const 0x47000000, .positive, false⟩
/-- `HOME_POS.POS` of R717. -/
def AXIS.HOME_POS_POS : Fld := ⟨0x07C, 1, 0x0, 0, 32, .rws, .const 0, .any, false⟩
/-- `HOME_MAX.DIST` of R717. -/
def AXIS.HOME_MAX_DIST : Fld := ⟨0x080, 1, 0x0, 0, 32, .rws, .const 0x100000, .any, false⟩
/-- `BLDC.POLE_PAIRS` of R717. -/
def AXIS.BLDC_POLE_PAIRS : Fld := ⟨0x084, 1, 0x0, 0, 4, .rws, .const 0x1, .nat 1 15, true⟩
/-- `BLDC.CPR` of R717. -/
def AXIS.BLDC_CPR : Fld := ⟨0x084, 1, 0x0, 8, 24, .rws, .const 0x1000, .nat 1 16777215, true⟩
/-- `ENC_OFFSET.COUNT` of R717. -/
def AXIS.ENC_OFFSET_COUNT : Fld := ⟨0x088, 1, 0x0, 0, 32, .rws, .const 0, .any, true⟩
/-- `KP.VALUE` of R717. -/
def AXIS.KP_VALUE : Fld := ⟨0x08C, 1, 0x0, 0, 32, .rws, .const 0, .nonneg, false⟩
/-- `KV.VALUE` of R717. -/
def AXIS.KV_VALUE : Fld := ⟨0x090, 1, 0x0, 0, 32, .rws, .const 0, .nonneg, false⟩
/-- `FOLLOW_MAX.DIST` of R717. -/
def AXIS.FOLLOW_MAX_DIST : Fld := ⟨0x094, 1, 0x0, 0, 32, .rws, .const 0x400, .any, false⟩
/-- `TARGET.POS` of R717. -/
def AXIS.TARGET_POS : Fld := ⟨0x0A0, 1, 0x0, 0, 32, .rw, .const 0, .any, false⟩
/-- `VJOG.VALUE` of R717. -/
def AXIS.VJOG_VALUE : Fld := ⟨0x0A4, 1, 0x0, 0, 32, .rw, .const 0, .any, false⟩
/-- `CMD.CODE` of R717. -/
def AXIS.CMD_CODE : Fld := ⟨0x0A8, 1, 0x0, 0, 4, .wo, .const 0, .any, false⟩
/-- `POS.POS` of R717. -/
def AXIS.POS_POS : Fld := ⟨0x0B0, 1, 0x0, 0, 32, .ro, .const 0, .any, false⟩
/-- `VEL.VALUE` of R717. -/
def AXIS.VEL_VALUE : Fld := ⟨0x0B4, 1, 0x0, 0, 32, .ro, .const 0, .any, false⟩
/-- `ACC.VALUE` of R717. -/
def AXIS.ACC_VALUE : Fld := ⟨0x0B8, 1, 0x0, 0, 32, .ro, .const 0, .any, false⟩
/-- `FOLLOW.DIST` of R717. -/
def AXIS.FOLLOW_DIST : Fld := ⟨0x0BC, 1, 0x0, 0, 32, .ro, .const 0, .any, false⟩
/-- `LOAD.CODE` of R717. -/
def AXIS.LOAD_CODE : Fld := ⟨0x0C0, 1, 0x0, 0, 12, .ro, .const 0, .any, false⟩
/-- `GEAR_RATIO.RATIO` of R717. -/
def AXIS.GEAR_RATIO_RATIO : Fld := ⟨0x0D0, 1, 0x0, 0, 32, .rw, .const 0x10000, .any, false⟩
/-- `GEAR_TRIG.COUNT` of R717. -/
def AXIS.GEAR_TRIG_COUNT : Fld := ⟨0x0D4, 1, 0x0, 0, 32, .rw, .const 0, .any, false⟩
/-- `GEAR_CMD.PUSH` of R717. -/
def AXIS.GEAR_CMD_PUSH : Fld := ⟨0x0D8, 1, 0x0, 0, 1, .wo, .const 0, .any, false⟩
/-- `GEAR_CMD.FLUSH` of R717. -/
def AXIS.GEAR_CMD_FLUSH : Fld := ⟨0x0D8, 1, 0x0, 1, 1, .wo, .const 0, .any, false⟩
/-- `GEAR_STATUS.DEPTH` of R717. -/
def AXIS.GEAR_STATUS_DEPTH : Fld := ⟨0x0DC, 1, 0x0, 0, 3, .ro, .const 0, .any, false⟩
/-- `GEAR_STATUS.ENGAGED` of R717. -/
def AXIS.GEAR_STATUS_ENGAGED : Fld := ⟨0x0DC, 1, 0x0, 3, 1, .ro, .const 0, .any, false⟩
/-- `RATIO_NOW.RATIO` of R717. -/
def AXIS.RATIO_NOW_RATIO : Fld := ⟨0x0E0, 1, 0x0, 0, 32, .ro, .const 0, .any, false⟩
/-- `GEAR_APPLIED.COUNT` of R717. -/
def AXIS.GEAR_APPLIED_COUNT : Fld := ⟨0x0E4, 1, 0x0, 0, 32, .ro, .const 0, .any, false⟩
/-- `STALL_COUNT.COUNT` of R717. -/
def AXIS.STALL_COUNT_COUNT : Fld := ⟨0x0F0, 1, 0x0, 0, 16, .rc, .const 0, .any, false⟩
/-- `LIMIT_COUNT.COUNT` of R717. -/
def AXIS.LIMIT_COUNT_COUNT : Fld := ⟨0x0F4, 1, 0x0, 0, 16, .rc, .const 0, .any, false⟩
/-- `STEP_LAG_COUNT.COUNT` of R717. -/
def AXIS.STEP_LAG_COUNT_COUNT : Fld := ⟨0x0F8, 1, 0x0, 0, 16, .rc, .const 0, .any, false⟩
/-- `GEAR_CLAMP_COUNT.COUNT` of R717. -/
def AXIS.GEAR_CLAMP_COUNT_COUNT : Fld := ⟨0x0FC, 1, 0x0, 0, 16, .rc, .const 0, .any, false⟩
/-! ### Page ENC -/
/-- `STATUS.Z_VALID` of R718. -/
def ENC.STATUS_Z_VALID : Fld := ⟨0x00C, 1, 0x0, 0, 5, .ro, .const 0, .any, false⟩
/-- `STATUS.COMMIT_PENDING` of R718. -/
def ENC.STATUS_COMMIT_PENDING : Fld := ⟨0x00C, 1, 0x0, 31, 1, .ro, .const 0, .any, false⟩
/-- `CFG.EN` of R719. -/
def ENC.CFG_EN : Fld := ⟨0x040, 5, 0x10, 0, 1, .rws, .const 0, .any, true⟩
/-- `CFG.INVERT` of R719. -/
def ENC.CFG_INVERT : Fld := ⟨0x040, 5, 0x10, 1, 1, .rws, .const 0, .any, true⟩
/-- `CFG.FILT` of R719. -/
def ENC.CFG_FILT : Fld := ⟨0x040, 5, 0x10, 2, 4, .rws, .const 0x2, .any, true⟩
/-- `CFG.ZCAP_EN` of R719. -/
def ENC.CFG_ZCAP_EN : Fld := ⟨0x040, 5, 0x10, 6, 1, .rws, .const 0, .any, true⟩
/-- `COUNT.COUNT` of R719. -/
def ENC.COUNT_COUNT : Fld := ⟨0x044, 5, 0x10, 0, 32, .ro, .const 0, .any, false⟩
/-- `ZCAP.COUNT` of R719. -/
def ENC.ZCAP_COUNT : Fld := ⟨0x048, 5, 0x10, 0, 32, .ro, .const 0, .any, false⟩
/-- `QERR.COUNT` of R719. -/
def ENC.QERR_COUNT : Fld := ⟨0x04C, 5, 0x10, 0, 16, .rc, .const 0, .any, false⟩
/-! ### Page ATTIC -/
/-- `STATUS.RUNNING` of R751. -/
def ATTIC.STATUS_RUNNING : Fld := ⟨0x00C, 1, 0x0, 0, 8, .ro, .const 0, .any, false⟩
/-- `STATUS.COMMIT_PENDING` of R751. -/
def ATTIC.STATUS_COMMIT_PENDING : Fld := ⟨0x00C, 1, 0x0, 31, 1, .ro, .const 0, .any, false⟩
/-- `SIG.KIND` of R753. -/
def ATTIC.SIG_KIND : Fld := ⟨0x040, 32, 0x4, 0, 3, .rws, .const 0, .nat 0 6, true⟩
/-- `SIG.FLOAT` of R753. -/
def ATTIC.SIG_FLOAT : Fld := ⟨0x040, 32, 0x4, 3, 1, .rws, .const 0, .any, true⟩
/-- `SIG.INDEX` of R753. -/
def ATTIC.SIG_INDEX : Fld := ⟨0x040, 32, 0x4, 4, 13, .rws, .const 0, .any, true⟩
/-- `TRG_CFG.KIND` of R753. -/
def ATTIC.TRG_CFG_KIND : Fld := ⟨0x0C0, 8, 0x10, 0, 4, .rws, .const 0, .nat 0 8, false⟩
/-- `TRG_CFG.POL` of R753. -/
def ATTIC.TRG_CFG_POL : Fld := ⟨0x0C0, 8, 0x10, 4, 1, .rws, .const 0, .any, false⟩
/-- `TRG_CFG.COND` of R753. -/
def ATTIC.TRG_CFG_COND : Fld := ⟨0x0C0, 8, 0x10, 5, 2, .rws, .const 0, .any, false⟩
/-- `TRG_CFG.SIG` of R753. -/
def ATTIC.TRG_CFG_SIG : Fld := ⟨0x0C0, 8, 0x10, 7, 5, .rws, .const 0, .any, false⟩
/-- `TRG_A.VALUE` of R753. -/
def ATTIC.TRG_A_VALUE : Fld := ⟨0x0C4, 8, 0x10, 0, 32, .rws, .const 0, .finite, false⟩
/-- `TRG_B.VALUE` of R753. -/
def ATTIC.TRG_B_VALUE : Fld := ⟨0x0C8, 8, 0x10, 0, 32, .rws, .const 0, .finite, false⟩
/-- `TRG_TIME.T1` of R753. -/
def ATTIC.TRG_TIME_T1 : Fld := ⟨0x0CC, 8, 0x10, 0, 16, .rws, .const 0x1, .nat 1 65535, false⟩
/-- `TRG_TIME.T2` of R753. -/
def ATTIC.TRG_TIME_T2 : Fld := ⟨0x0CC, 8, 0x10, 16, 16, .rws, .const 0x1, .nat 1 65535, false⟩
/-- `PERR_COUNT.COUNT` of R753. -/
def ATTIC.PERR_COUNT_COUNT : Fld := ⟨0x180, 1, 0x0, 0, 16, .rc, .const 0, .any, false⟩
/-- `PERR_ADDR.ADDR` of R753. -/
def ATTIC.PERR_ADDR_ADDR : Fld := ⟨0x184, 1, 0x0, 0, 32, .ro, .const 0, .any, false⟩
/-- `CAP_CFG.EN` of R753. -/
def ATTIC.CAP_CFG_EN : Fld := ⟨0x200, 8, 0x40, 0, 1, .rws, .const 0, .any, true⟩
/-- `CAP_CFG.WATCH` of R753. -/
def ATTIC.CAP_CFG_WATCH : Fld := ⟨0x200, 8, 0x40, 1, 1, .rws, .const 0, .any, true⟩
/-- `CAP_CFG.FULL_MODE` of R753. -/
def ATTIC.CAP_CFG_FULL_MODE : Fld := ⟨0x200, 8, 0x40, 2, 1, .rws, .const 0, .any, true⟩
/-- `CAP_CFG.TRIGOUT_EN` of R753. -/
def ATTIC.CAP_CFG_TRIGOUT_EN : Fld := ⟨0x200, 8, 0x40, 3, 1, .rws, .const 0, .any, false⟩
/-- `CAP_CFG.TRIGOUT_LINE` of R753. -/
def ATTIC.CAP_CFG_TRIGOUT_LINE : Fld := ⟨0x200, 8, 0x40, 4, 2, .rws, .const 0, .any, false⟩
/-- `CAP_CFG.TRIGOUT_WIDTH` of R753. -/
def ATTIC.CAP_CFG_TRIGOUT_WIDTH : Fld := ⟨0x200, 8, 0x40, 6, 8, .rws, .const 0xA, .nat 10 255, false⟩
/-- `CAP_SIGMASK.SIG` of R753. -/
def ATTIC.CAP_SIGMASK_SIG : Fld := ⟨0x204, 8, 0x40, 0, 32, .rws, .const 0, .any, true⟩
/-- `CAP_SAMPLE.KIND` of R753. -/
def ATTIC.CAP_SAMPLE_KIND : Fld := ⟨0x208, 8, 0x40, 0, 3, .rws, .const 0, .any, true⟩
/-- `CAP_SAMPLE.INDEX` of R753. -/
def ATTIC.CAP_SAMPLE_INDEX : Fld := ⟨0x208, 8, 0x40, 3, 7, .rws, .const 0, .any, true⟩
/-- `CAP_SAMPLE.EVT` of R753. -/
def ATTIC.CAP_SAMPLE_EVT : Fld := ⟨0x208, 8, 0x40, 10, 2, .rws, .const 0, .nat 0 2, true⟩
/-- `CAP_SAMPLE.DIV` of R753. -/
def ATTIC.CAP_SAMPLE_DIV : Fld := ⟨0x208, 8, 0x40, 12, 8, .rws, .const 0, .any, true⟩
/-- `CAP_BIN.BIN` of R753. -/
def ATTIC.CAP_BIN_BIN : Fld := ⟨0x20C, 8, 0x40, 0, 13, .rws, .const 0x1, .nat 1 4096, true⟩
/-- `CAP_BIN.RED` of R753. -/
def ATTIC.CAP_BIN_RED : Fld := ⟨0x20C, 8, 0x40, 16, 5, .rws, .const 0x1, .any, true⟩
/-- `CAP_REGION.BASE_PAGE` of R753. -/
def ATTIC.CAP_REGION_BASE_PAGE : Fld := ⟨0x210, 8, 0x40, 0, 9, .rws, .const 0, .nat 0 479, true⟩
/-- `CAP_REGION.PAGES` of R753. -/
def ATTIC.CAP_REGION_PAGES : Fld := ⟨0x210, 8, 0x40, 9, 9, .rws, .const 0x1, .nat 1 480, true⟩
/-- `CAP_SEGS.DIR_BASE` of R753. -/
def ATTIC.CAP_SEGS_DIR_BASE : Fld := ⟨0x214, 8, 0x40, 0, 11, .rws, .const 0, .nat 0 2047, true⟩
/-- `CAP_SEGS.NSEG` of R753. -/
def ATTIC.CAP_SEGS_NSEG : Fld := ⟨0x214, 8, 0x40, 11, 12, .rws, .const 0x1, .nat 1 2048, true⟩
/-- `CAP_PRE.FRAMES` of R753. -/
def ATTIC.CAP_PRE_FRAMES : Fld := ⟨0x218, 8, 0x40, 0, 20, .rws, .const 0, .any, false⟩
/-- `CAP_POST.FRAMES` of R753. -/
def ATTIC.CAP_POST_FRAMES : Fld := ⟨0x21C, 8, 0x40, 0, 20, .rws, .const 0x1, .nat 1 1048575, false⟩
/-- `CAP_TRGMASK.UNITS` of R753. -/
def ATTIC.CAP_TRGMASK_UNITS : Fld := ⟨0x220, 8, 0x40, 0, 8, .rws, .const 0, .any, false⟩
/-- `CAP_CMD.CODE` of R753. -/
def ATTIC.CAP_CMD_CODE : Fld := ⟨0x224, 8, 0x40, 0, 3, .wo, .const 0, .any, false⟩
/-- `CAP_STAT.STATE` of R753. -/
def ATTIC.CAP_STAT_STATE : Fld := ⟨0x228, 8, 0x40, 0, 3, .ro, .const 0, .any, false⟩
/-- `CAP_STAT.CLAMPED` of R753. -/
def ATTIC.CAP_STAT_CLAMPED : Fld := ⟨0x228, 8, 0x40, 3, 1, .ro, .const 0, .any, false⟩
/-- `CAP_STAT.NEXT` of R753. -/
def ATTIC.CAP_STAT_NEXT : Fld := ⟨0x228, 8, 0x40, 16, 11, .ro, .const 0, .any, false⟩
/-- `CAP_FRAME_WORDS.WORDS` of R753. -/
def ATTIC.CAP_FRAME_WORDS_WORDS : Fld := ⟨0x22C, 8, 0x40, 0, 8, .ro, .const 0, .any, false⟩
/-- `CAP_CAPACITY.FRAMES` of R753. -/
def ATTIC.CAP_CAPACITY_FRAMES : Fld := ⟨0x230, 8, 0x40, 0, 20, .ro, .const 0, .any, false⟩
/-- `CAP_POST_EFF.FRAMES` of R753. -/
def ATTIC.CAP_POST_EFF_FRAMES : Fld := ⟨0x234, 8, 0x40, 0, 20, .ro, .const 0, .any, false⟩
/-- `CAP_SEG_COUNT.COUNT` of R753. -/
def ATTIC.CAP_SEG_COUNT_COUNT : Fld := ⟨0x238, 8, 0x40, 0, 32, .ro, .const 0, .any, false⟩
/-- `CAP_MISSED.MISSED` of R753. -/
def ATTIC.CAP_MISSED_MISSED : Fld := ⟨0x23C, 8, 0x40, 0, 16, .rc, .const 0, .any, false⟩
/-- `CAP_MISSED.EARLY` of R753. -/
def ATTIC.CAP_MISSED_EARLY : Fld := ⟨0x23C, 8, 0x40, 16, 16, .rc, .const 0, .any, false⟩
/-! ### Page REDUN -/
/-- `CTRL.EN` of R799. -/
def REDUN.CTRL_EN : Fld := ⟨0x008, 1, 0x0, 0, 1, .rws, .const 0, .any, true⟩
/-- `STATUS.STATE` of R800. -/
def REDUN.STATUS_STATE : Fld := ⟨0x00C, 1, 0x0, 0, 2, .ro, .const 0, .any, false⟩
/-- `STATUS.DEGRADED` of R800. -/
def REDUN.STATUS_DEGRADED : Fld := ⟨0x00C, 1, 0x0, 2, 1, .ro, .const 0, .any, false⟩
/-- `STATUS.DIVERGED` of R800. -/
def REDUN.STATUS_DIVERGED : Fld := ⟨0x00C, 1, 0x0, 3, 1, .ro, .const 0, .any, false⟩
/-- `STATUS.TAKEOVER_READY` of R800. -/
def REDUN.STATUS_TAKEOVER_READY : Fld := ⟨0x00C, 1, 0x0, 4, 1, .ro, .const 0, .any, false⟩
/-- `STATUS.LEAD` of R800. -/
def REDUN.STATUS_LEAD : Fld := ⟨0x00C, 1, 0x0, 5, 1, .ro, .const 0, .any, false⟩
/-- `STATUS.CK_RESCUED` of R800. -/
def REDUN.STATUS_CK_RESCUED : Fld := ⟨0x00C, 1, 0x0, 6, 1, .ro, .const 0, .any, false⟩
/-- `STATUS.PRESENT` of R800. -/
def REDUN.STATUS_PRESENT : Fld := ⟨0x00C, 1, 0x0, 7, 3, .ro, .const 0, .any, false⟩
/-- `STATUS.ALIVE_SEEN` of R800. -/
def REDUN.STATUS_ALIVE_SEEN : Fld := ⟨0x00C, 1, 0x0, 10, 3, .ro, .const 0, .any, false⟩
/-- `STATUS.LEAVE_CAUSE` of R800. -/
def REDUN.STATUS_LEAVE_CAUSE : Fld := ⟨0x00C, 1, 0x0, 16, 4, .ro, .const 0, .any, false⟩
/-- `STATUS.COMMIT_PENDING` of R800. -/
def REDUN.STATUS_COMMIT_PENDING : Fld := ⟨0x00C, 1, 0x0, 31, 1, .ro, .const 0, .any, false⟩
/-- `ROLE.ROLE` of R801. -/
def REDUN.ROLE_ROLE : Fld := ⟨0x040, 1, 0x0, 0, 3, .ro, .const 0, .any, false⟩
/-- `ROLE.MEMBER` of R801. -/
def REDUN.ROLE_MEMBER : Fld := ⟨0x040, 1, 0x0, 4, 2, .ro, .const 0, .any, false⟩
/-- `ROLE.LEAD_ID` of R801. -/
def REDUN.ROLE_LEAD_ID : Fld := ⟨0x040, 1, 0x0, 6, 2, .ro, .const 0, .any, false⟩
/-- `CFG.SET` of R801. -/
def REDUN.CFG_SET : Fld := ⟨0x044, 1, 0x0, 0, 2, .rws, .const 0, .nat 0 2, true⟩
/-- `CFG.MIN_MEMBERS` of R801. -/
def REDUN.CFG_MIN_MEMBERS : Fld := ⟨0x044, 1, 0x0, 2, 2, .rws, .const 0x1, .nat 1 3, true⟩
/-- `CFG.DIV_CYCLES` of R801. -/
def REDUN.CFG_DIV_CYCLES : Fld := ⟨0x044, 1, 0x0, 4, 4, .rws, .const 0x2, .nat 1 15, true⟩
/-- `CFG.ALIVE_EN` of R801. -/
def REDUN.CFG_ALIVE_EN : Fld := ⟨0x044, 1, 0x0, 8, 1, .rws, .const 0x1, .any, true⟩
/-- `CFG.CK_RESCUE` of R801. -/
def REDUN.CFG_CK_RESCUE : Fld := ⟨0x044, 1, 0x0, 9, 1, .rws, .const 0x1, .any, true⟩
/-- `CFG.INIT_LEAD` of R801. -/
def REDUN.CFG_INIT_LEAD : Fld := ⟨0x044, 1, 0x0, 10, 2, .rws, .const 0, .any, true⟩
/-- `CFG.RB_TOL` of R801. -/
def REDUN.CFG_RB_TOL : Fld := ⟨0x044, 1, 0x0, 12, 5, .rws, .const 0x5, .nat 1 31, true⟩
/-- `CFG.JOIN_CYCLES` of R801. -/
def REDUN.CFG_JOIN_CYCLES : Fld := ⟨0x044, 1, 0x0, 17, 6, .rws, .const 0x10, .nat 4 63, true⟩
/-- `CYCLE.TICKS` of R801. -/
def REDUN.CYCLE_TICKS : Fld := ⟨0x048, 1, 0x0, 0, 18, .rws, .const 0x30D4, .nat 12500 250000, true⟩
/-- `ALIVE.PIN0` of R801. -/
def REDUN.ALIVE_PIN0 : Fld := ⟨0x04C, 1, 0x0, 0, 4, .rws, .const 0, .any, true⟩
/-- `ALIVE.PIN1` of R801. -/
def REDUN.ALIVE_PIN1 : Fld := ⟨0x04C, 1, 0x0, 4, 4, .rws, .const 0, .any, true⟩
/-- `ALIVE.PIN2` of R801. -/
def REDUN.ALIVE_PIN2 : Fld := ⟨0x04C, 1, 0x0, 8, 4, .rws, .const 0, .any, true⟩
/-- `SELF_MASK.SRC` of R801. -/
def REDUN.SELF_MASK_SRC : Fld := ⟨0x050, 1, 0x0, 0, 12, .rws, .const 0x4E3, .any, true⟩
/-- `CMD.CODE` of R801. -/
def REDUN.CMD_CODE : Fld := ⟨0x054, 1, 0x0, 0, 3, .wo, .const 0, .any, false⟩
/-- `CMD.TARGET` of R801. -/
def REDUN.CMD_TARGET : Fld := ⟨0x054, 1, 0x0, 3, 2, .wo, .const 0, .any, false⟩
/-- `SETCYC.K` of R801. -/
def REDUN.SETCYC_K : Fld := ⟨0x058, 1, 0x0, 0, 32, .ro, .const 0, .any, false⟩
/-- `TAKEOVER.CAUSE` of R801. -/
def REDUN.TAKEOVER_CAUSE : Fld := ⟨0x05C, 1, 0x0, 0, 2, .ro, .const 0, .any, false⟩
/-- `TAKEOVER.FROM` of R801. -/
def REDUN.TAKEOVER_FROM : Fld := ⟨0x05C, 1, 0x0, 4, 2, .ro, .const 0, .any, false⟩
/-- `TAKEOVER.TO` of R801. -/
def REDUN.TAKEOVER_TO : Fld := ⟨0x05C, 1, 0x0, 6, 2, .ro, .const 0, .any, false⟩
/-- `TAKEOVER_CYC_LO.CYC` of R801. -/
def REDUN.TAKEOVER_CYC_LO_CYC : Fld := ⟨0x060, 1, 0x0, 0, 32, .ro, .const 0, .any, false⟩
/-- `TAKEOVER_CYC_HI.CYC` of R801. -/
def REDUN.TAKEOVER_CYC_HI_CYC : Fld := ⟨0x064, 1, 0x0, 0, 32, .ro, .const 0, .any, false⟩
/-- `TAKEOVER_COUNT.COUNT` of R801. -/
def REDUN.TAKEOVER_COUNT_COUNT : Fld := ⟨0x068, 1, 0x0, 0, 16, .rc, .const 0, .any, false⟩
/-- `DIGEST_FORM.CRC` of R801. -/
def REDUN.DIGEST_FORM_CRC : Fld := ⟨0x06C, 1, 0x0, 0, 32, .ro, .const 0, .any, false⟩
/-- `DIGEST_DUTY.CRC` of R801. -/
def REDUN.DIGEST_DUTY_CRC : Fld := ⟨0x070, 1, 0x0, 0, 32, .ro, .const 0, .any, false⟩
/-- `DIGEST_TRIP.CRC` of R801. -/
def REDUN.DIGEST_TRIP_CRC : Fld := ⟨0x074, 1, 0x0, 0, 32, .ro, .const 0, .any, false⟩
/-- `MISMATCH.FORM` of R801. -/
def REDUN.MISMATCH_FORM : Fld := ⟨0x078, 1, 0x0, 0, 8, .rc, .const 0, .any, false⟩
/-- `MISMATCH.DUTY` of R801. -/
def REDUN.MISMATCH_DUTY : Fld := ⟨0x078, 1, 0x0, 8, 8, .rc, .const 0, .any, false⟩
/-- `MISMATCH.TRIP` of R801. -/
def REDUN.MISMATCH_TRIP : Fld := ⟨0x078, 1, 0x0, 16, 8, .rc, .const 0, .any, false⟩
/-- `MISMATCH.RB` of R801. -/
def REDUN.MISMATCH_RB : Fld := ⟨0x078, 1, 0x0, 24, 8, .rc, .const 0, .any, false⟩
/-- `HB_MISS.COUNT` of R801. -/
def REDUN.HB_MISS_COUNT : Fld := ⟨0x07C, 1, 0x0, 0, 16, .rc, .const 0, .any, false⟩
/-- `JOIN.PHASE` of R801. -/
def REDUN.JOIN_PHASE : Fld := ⟨0x080, 1, 0x0, 0, 3, .ro, .const 0, .any, false⟩
/-- `JOIN.ATTEMPTS` of R801. -/
def REDUN.JOIN_ATTEMPTS : Fld := ⟨0x080, 1, 0x0, 3, 2, .ro, .const 0, .any, false⟩
/-- `XFER_SRC.ADDR` of R801. -/
def REDUN.XFER_SRC_ADDR : Fld := ⟨0x084, 1, 0x0, 0, 32, .rw, .const 0, .any, false⟩
/-- `XFER_DST.ADDR` of R801. -/
def REDUN.XFER_DST_ADDR : Fld := ⟨0x088, 1, 0x0, 0, 32, .rw, .const 0, .any, false⟩
/-- `XFER_CMD.LEN` of R801. -/
def REDUN.XFER_CMD_LEN : Fld := ⟨0x08C, 1, 0x0, 0, 16, .wo, .const 0, .any, false⟩
/-- `XFER_CMD.TARGET` of R801. -/
def REDUN.XFER_CMD_TARGET : Fld := ⟨0x08C, 1, 0x0, 16, 2, .wo, .const 0, .any, false⟩
/-- `XFER_CMD.GO` of R801. -/
def REDUN.XFER_CMD_GO : Fld := ⟨0x08C, 1, 0x0, 31, 1, .wo, .const 0, .any, false⟩
/-- `XFER_STATUS.BUSY` of R801. -/
def REDUN.XFER_STATUS_BUSY : Fld := ⟨0x090, 1, 0x0, 0, 1, .ro, .const 0, .any, false⟩
/-- `XFER_STATUS.RESULT` of R801. -/
def REDUN.XFER_STATUS_RESULT : Fld := ⟨0x090, 1, 0x0, 1, 3, .ro, .const 0, .any, false⟩
/-- `STAMP.RSEQ` of R801. -/
def REDUN.STAMP_RSEQ : Fld := ⟨0x0A0, 8, 0x4, 0, 32, .ro, .const 0, .any, false⟩
/-- `STAMP_ERR.COUNT` of R801. -/
def REDUN.STAMP_ERR_COUNT : Fld := ⟨0x0C0, 1, 0x0, 0, 16, .rc, .const 0, .any, false⟩
/-! ### Page TWITOS -/
/-- `CTRL.EN` of R802. -/
def TWITOS.CTRL_EN : Fld := ⟨0x008, 1, 0x0, 0, 1, .rws, .const 0, .any, true⟩
/-- `STATUS.UP` of R802. -/
def TWITOS.STATUS_UP : Fld := ⟨0x00C, 1, 0x0, 0, 1, .ro, .const 0, .any, false⟩
/-- `STATUS.PARTNER` of R802. -/
def TWITOS.STATUS_PARTNER : Fld := ⟨0x00C, 1, 0x0, 1, 2, .ro, .const 0, .any, false⟩
/-- `STATUS.PARTNER_VALID` of R802. -/
def TWITOS.STATUS_PARTNER_VALID : Fld := ⟨0x00C, 1, 0x0, 3, 1, .ro, .const 0, .any, false⟩
/-- `STATUS.COMMIT_PENDING` of R802. -/
def TWITOS.STATUS_COMMIT_PENDING : Fld := ⟨0x00C, 1, 0x0, 31, 1, .ro, .const 0, .any, false⟩
/-- `CFG.RX_INV` of R803. -/
def TWITOS.CFG_RX_INV : Fld := ⟨0x040, 1, 0x0, 0, 1, .rws, .const 0, .any, true⟩
/-- `CFG.TX_INV` of R803. -/
def TWITOS.CFG_TX_INV : Fld := ⟨0x040, 1, 0x0, 1, 1, .rws, .const 0, .any, true⟩
/-- `CFG.SWING` of R803. -/
def TWITOS.CFG_SWING : Fld := ⟨0x040, 1, 0x0, 2, 2, .rws, .const 0x1, .any, true⟩
/-- `CFG.EQ` of R803. -/
def TWITOS.CFG_EQ : Fld := ⟨0x040, 1, 0x0, 4, 2, .rws, .const 0x1, .any, true⟩
/-- `RTT.PS` of R803. -/
def TWITOS.RTT_PS : Fld := ⟨0x044, 1, 0x0, 0, 20, .ro, .const 0, .any, false⟩
/-- `ERR.CRC_ERR` of R803. -/
def TWITOS.ERR_CRC_ERR : Fld := ⟨0x048, 1, 0x0, 0, 16, .rc, .const 0, .any, false⟩
/-- `ERR.DOWN_COUNT` of R803. -/
def TWITOS.ERR_DOWN_COUNT : Fld := ⟨0x048, 1, 0x0, 16, 16, .rc, .const 0, .any, false⟩
/-- `FRAMES_RX.COUNT` of R803. -/
def TWITOS.FRAMES_RX_COUNT : Fld := ⟨0x04C, 1, 0x0, 0, 32, .ro, .const 0, .any, false⟩
/-- `FRAMES_TX.COUNT` of R803. -/
def TWITOS.FRAMES_TX_COUNT : Fld := ⟨0x050, 1, 0x0, 0, 32, .ro, .const 0, .any, false⟩
/-! ### Page HOUSE -/
/-- `CTRL.EN` of R804. -/
def HOUSE.CTRL_EN : Fld := ⟨0x008, 1, 0x0, 0, 1, .rws, .const 0, .any, true⟩
/-- `STATUS.LOCKED` of R804. -/
def HOUSE.STATUS_LOCKED : Fld := ⟨0x00C, 1, 0x0, 0, 1, .ro, .const 0, .any, false⟩
/-- `STATUS.HOLDOVER` of R804. -/
def HOUSE.STATUS_HOLDOVER : Fld := ⟨0x00C, 1, 0x0, 1, 1, .ro, .const 0, .any, false⟩
/-- `STATUS.SLEWING` of R804. -/
def HOUSE.STATUS_SLEWING : Fld := ⟨0x00C, 1, 0x0, 2, 1, .ro, .const 0, .any, false⟩
/-- `STATUS.DRIVING` of R804. -/
def HOUSE.STATUS_DRIVING : Fld := ⟨0x00C, 1, 0x0, 3, 1, .ro, .const 0, .any, false⟩
/-- `STATUS.CYC_OK` of R804. -/
def HOUSE.STATUS_CYC_OK : Fld := ⟨0x00C, 1, 0x0, 4, 1, .ro, .const 0, .any, false⟩
/-- `STATUS.COMMIT_PENDING` of R804. -/
def HOUSE.STATUS_COMMIT_PENDING : Fld := ⟨0x00C, 1, 0x0, 31, 1, .ro, .const 0, .any, false⟩
/-- `CFG.TRIM` of R805. -/
def HOUSE.CFG_TRIM : Fld := ⟨0x040, 1, 0x0, 0, 6, .rws, .const 0, .any, true⟩
/-- `DLL.TAP` of R805. -/
def HOUSE.DLL_TAP : Fld := ⟨0x044, 1, 0x0, 0, 7, .ro, .const 0, .any, false⟩
/-- `DLL.PHASE_PS` of R805. -/
def HOUSE.DLL_PHASE_PS : Fld := ⟨0x044, 1, 0x0, 8, 16, .ro, .const 0, .any, false⟩
/-- `HOLD_COUNT.COUNT` of R805. -/
def HOUSE.HOLD_COUNT_COUNT : Fld := ⟨0x048, 1, 0x0, 0, 16, .rc, .const 0, .any, false⟩
/-- `CYC_ERR.COUNT` of R805. -/
def HOUSE.CYC_ERR_COUNT : Fld := ⟨0x04C, 1, 0x0, 0, 16, .rc, .const 0, .any, false⟩
/-- `TRIG_LATE.COUNT` of R805. -/
def HOUSE.TRIG_LATE_COUNT : Fld := ⟨0x050, 1, 0x0, 0, 16, .rc, .const 0, .any, false⟩
/-- `TRIG.DELAY` of R805. -/
def HOUSE.TRIG_DELAY : Fld := ⟨0x060, 4, 0x4, 0, 8, .rw, .const 0, .any, false⟩
/-! ### Page ETHSW -/
/-- `CTRL.EN` of R841. -/
def ETHSW.CTRL_EN : Fld := ⟨0x008, 1, 0x0, 0, 1, .rws, .const 0, .any, true⟩
/-- `STATUS.LINK0` of R841. -/
def ETHSW.STATUS_LINK0 : Fld := ⟨0x00C, 1, 0x0, 0, 1, .ro, .const 0, .any, false⟩
/-- `STATUS.LINK1` of R841. -/
def ETHSW.STATUS_LINK1 : Fld := ⟨0x00C, 1, 0x0, 1, 1, .ro, .const 0, .any, false⟩
/-- `STATUS.LAN_A_OK` of R841. -/
def ETHSW.STATUS_LAN_A_OK : Fld := ⟨0x00C, 1, 0x0, 2, 1, .ro, .const 0, .any, false⟩
/-- `STATUS.LAN_B_OK` of R841. -/
def ETHSW.STATUS_LAN_B_OK : Fld := ⟨0x00C, 1, 0x0, 3, 1, .ro, .const 0, .any, false⟩
/-- `STATUS.RING_OK` of R841. -/
def ETHSW.STATUS_RING_OK : Fld := ⟨0x00C, 1, 0x0, 4, 1, .ro, .const 0, .any, false⟩
/-- `STATUS.COMMIT_PENDING` of R841. -/
def ETHSW.STATUS_COMMIT_PENDING : Fld := ⟨0x00C, 1, 0x0, 31, 1, .ro, .const 0, .any, false⟩
/-- `CFG.MODE` of R842. -/
def ETHSW.CFG_MODE : Fld := ⟨0x040, 1, 0x0, 0, 2, .rws, .const 0, .nat 0 2, true⟩
/-- `CFG.LIFE_CHECK` of R842. -/
def ETHSW.CFG_LIFE_CHECK : Fld := ⟨0x040, 1, 0x0, 2, 7, .rws, .const 0x14, .nat 1 127, true⟩
/-- `CFG.FORGET_MS` of R842. -/
def ETHSW.CFG_FORGET_MS : Fld := ⟨0x040, 1, 0x0, 9, 10, .rws, .const 0x190, .nat 10 1000, true⟩
/-- `CFG.PTP_Q` of R842. -/
def ETHSW.CFG_PTP_Q : Fld := ⟨0x040, 1, 0x0, 20, 2, .rws, .const 0x3, .any, true⟩
/-- `MAC_LO.BYTES` of R842. -/
def ETHSW.MAC_LO_BYTES : Fld := ⟨0x044, 1, 0x0, 0, 32, .rws, .const 0, .any, true⟩
/-- `MAC_HI.BYTES` of R842. -/
def ETHSW.MAC_HI_BYTES : Fld := ⟨0x048, 1, 0x0, 0, 16, .rws, .const 0, .any, true⟩
/-- `PORT.EN` of R842. -/
def ETHSW.PORT_EN : Fld := ⟨0x04C, 2, 0x4, 0, 1, .rws, .const 0, .any, true⟩
/-- `PORT.AN_EN` of R842. -/
def ETHSW.PORT_AN_EN : Fld := ⟨0x04C, 2, 0x4, 1, 1, .rws, .const 0x1, .any, true⟩
/-- `PORT.VLAN_EN` of R842. -/
def ETHSW.PORT_VLAN_EN : Fld := ⟨0x04C, 2, 0x4, 2, 1, .rws, .const 0, .any, true⟩
/-- `PORT.VID` of R842. -/
def ETHSW.PORT_VID : Fld := ⟨0x04C, 2, 0x4, 3, 12, .rws, .const 0, .any, true⟩
/-- `PORT.PCP` of R842. -/
def ETHSW.PORT_PCP : Fld := ⟨0x04C, 2, 0x4, 15, 3, .rws, .const 0x4, .any, true⟩
/-- `MDIO_CMD.REG` of R842. -/
def ETHSW.MDIO_CMD_REG : Fld := ⟨0x054, 1, 0x0, 0, 5, .wo, .const 0, .any, false⟩
/-- `MDIO_CMD.PHY` of R842. -/
def ETHSW.MDIO_CMD_PHY : Fld := ⟨0x054, 1, 0x0, 5, 5, .wo, .const 0, .any, false⟩
/-- `MDIO_CMD.WRITE` of R842. -/
def ETHSW.MDIO_CMD_WRITE : Fld := ⟨0x054, 1, 0x0, 10, 1, .wo, .const 0, .any, false⟩
/-- `MDIO_CMD.GO` of R842. -/
def ETHSW.MDIO_CMD_GO : Fld := ⟨0x054, 1, 0x0, 31, 1, .wo, .const 0, .any, false⟩
/-- `MDIO_DATA.DATA` of R842. -/
def ETHSW.MDIO_DATA_DATA : Fld := ⟨0x058, 1, 0x0, 0, 16, .rw, .const 0, .any, false⟩
/-- `MDIO_DATA.BUSY` of R842. -/
def ETHSW.MDIO_DATA_BUSY : Fld := ⟨0x058, 1, 0x0, 31, 1, .ro, .const 0, .any, false⟩
/-- `TXQ_BASE.ADDR` of R842. -/
def ETHSW.TXQ_BASE_ADDR : Fld := ⟨0x060, 4, 0x10, 0, 32, .rws, .const 0, .any, true⟩
/-- `TXQ_SIZE.ENTRIES` of R842. -/
def ETHSW.TXQ_SIZE_ENTRIES : Fld := ⟨0x064, 4, 0x10, 0, 11, .rws, .const 0x4, .pow2 4 1024, true⟩
/-- `TXQ_HEAD.INDEX` of R842. -/
def ETHSW.TXQ_HEAD_INDEX : Fld := ⟨0x068, 4, 0x10, 0, 10, .rw, .const 0, .any, false⟩
/-- `TXQ_TAIL.INDEX` of R842. -/
def ETHSW.TXQ_TAIL_INDEX : Fld := ⟨0x06C, 4, 0x10, 0, 10, .ro, .const 0, .any, false⟩
/-- `RXQ_BASE.ADDR` of R842. -/
def ETHSW.RXQ_BASE_ADDR : Fld := ⟨0x0A0, 4, 0x10, 0, 32, .rws, .const 0, .any, true⟩
/-- `RXQ_SIZE.ENTRIES` of R842. -/
def ETHSW.RXQ_SIZE_ENTRIES : Fld := ⟨0x0A4, 4, 0x10, 0, 11, .rws, .const 0x4, .pow2 4 1024, true⟩
/-- `RXQ_HEAD.INDEX` of R842. -/
def ETHSW.RXQ_HEAD_INDEX : Fld := ⟨0x0A8, 4, 0x10, 0, 10, .rw, .const 0, .any, false⟩
/-- `RXQ_TAIL.INDEX` of R842. -/
def ETHSW.RXQ_TAIL_INDEX : Fld := ⟨0x0AC, 4, 0x10, 0, 10, .ro, .const 0, .any, false⟩
/-- `CLASS.ETYPE` of R842. -/
def ETHSW.CLASS_ETYPE : Fld := ⟨0x0E0, 8, 0x4, 0, 16, .rws, .const 0, .any, false⟩
/-- `CLASS.QUEUE` of R842. -/
def ETHSW.CLASS_QUEUE : Fld := ⟨0x0E0, 8, 0x4, 16, 2, .rws, .const 0, .any, false⟩
/-- `CLASS.EN` of R842. -/
def ETHSW.CLASS_EN : Fld := ⟨0x0E0, 8, 0x4, 31, 1, .rws, .const 0, .any, false⟩
/-- `RX_FRAMES.COUNT` of R842. -/
def ETHSW.RX_FRAMES_COUNT : Fld := ⟨0x120, 2, 0x20, 0, 32, .ro, .const 0, .any, false⟩
/-- `TX_FRAMES.COUNT` of R842. -/
def ETHSW.TX_FRAMES_COUNT : Fld := ⟨0x124, 2, 0x20, 0, 32, .ro, .const 0, .any, false⟩
/-- `RX_ERR.COUNT` of R842. -/
def ETHSW.RX_ERR_COUNT : Fld := ⟨0x128, 2, 0x20, 0, 16, .rc, .const 0, .any, false⟩
/-- `DUP_DISCARD.COUNT` of R842. -/
def ETHSW.DUP_DISCARD_COUNT : Fld := ⟨0x12C, 2, 0x20, 0, 16, .rc, .const 0, .any, false⟩
/-- `LAN_ERR.COUNT` of R842. -/
def ETHSW.LAN_ERR_COUNT : Fld := ⟨0x130, 2, 0x20, 0, 16, .rc, .const 0, .any, false⟩
/-- `RX_DROP.COUNT` of R842. -/
def ETHSW.RX_DROP_COUNT : Fld := ⟨0x160, 1, 0x0, 0, 16, .rc, .const 0, .any, false⟩
/-- `NODES.COUNT` of R842. -/
def ETHSW.NODES_COUNT : Fld := ⟨0x164, 1, 0x0, 0, 9, .ro, .const 0, .any, false⟩
/-! ### Page PTP -/
/-- `CTRL.EN` of R843. -/
def PTP.CTRL_EN : Fld := ⟨0x008, 1, 0x0, 0, 1, .rws, .const 0, .any, true⟩
/-- `STATUS.TRUSTED` of R843. -/
def PTP.STATUS_TRUSTED : Fld := ⟨0x00C, 1, 0x0, 0, 1, .ro, .const 0, .any, false⟩
/-- `STATUS.LOCKED` of R843. -/
def PTP.STATUS_LOCKED : Fld := ⟨0x00C, 1, 0x0, 1, 1, .ro, .const 0, .any, false⟩
/-- `STATUS.OFFSET_OK` of R843. -/
def PTP.STATUS_OFFSET_OK : Fld := ⟨0x00C, 1, 0x0, 2, 1, .ro, .const 0, .any, false⟩
/-- `STATUS.NO_JUMP` of R843. -/
def PTP.STATUS_NO_JUMP : Fld := ⟨0x00C, 1, 0x0, 3, 1, .ro, .const 0, .any, false⟩
/-- `STATUS.TIME_SET` of R843. -/
def PTP.STATUS_TIME_SET : Fld := ⟨0x00C, 1, 0x0, 4, 1, .ro, .const 0, .any, false⟩
/-- `STATUS.JUMP_PENDING` of R843. -/
def PTP.STATUS_JUMP_PENDING : Fld := ⟨0x00C, 1, 0x0, 5, 1, .ro, .const 0, .any, false⟩
/-- `STATUS.COMMIT_PENDING` of R843. -/
def PTP.STATUS_COMMIT_PENDING : Fld := ⟨0x00C, 1, 0x0, 31, 1, .ro, .const 0, .any, false⟩
/-- `TIME_NS.NS` of R844. -/
def PTP.TIME_NS_NS : Fld := ⟨0x040, 1, 0x0, 0, 30, .ro, .const 0, .any, false⟩
/-- `TIME_S_LO.S` of R844. -/
def PTP.TIME_S_LO_S : Fld := ⟨0x044, 1, 0x0, 0, 32, .ro, .const 0, .any, false⟩
/-- `TIME_S_HI.S` of R844. -/
def PTP.TIME_S_HI_S : Fld := ⟨0x048, 1, 0x0, 0, 32, .ro, .const 0, .any, false⟩
/-- `RATE.ADJ` of R844. -/
def PTP.RATE_ADJ : Fld := ⟨0x04C, 1, 0x0, 0, 32, .rw, .const 0, .any, false⟩
/-- `SET_S_LO.S` of R844. -/
def PTP.SET_S_LO_S : Fld := ⟨0x050, 1, 0x0, 0, 32, .rw, .const 0, .any, false⟩
/-- `SET_S_HI.S` of R844. -/
def PTP.SET_S_HI_S : Fld := ⟨0x054, 1, 0x0, 0, 32, .rw, .const 0, .any, false⟩
/-- `SET_NS.NS` of R844. -/
def PTP.SET_NS_NS : Fld := ⟨0x058, 1, 0x0, 0, 30, .wo, .const 0, .any, false⟩
/-- `SET_NS.GO` of R844. -/
def PTP.SET_NS_GO : Fld := ⟨0x058, 1, 0x0, 31, 1, .wo, .const 0, .any, false⟩
/-- `STEP_LO.NS` of R844. -/
def PTP.STEP_LO_NS : Fld := ⟨0x05C, 1, 0x0, 0, 32, .rw, .const 0, .any, false⟩
/-- `STEP_HI.NS` of R844. -/
def PTP.STEP_HI_NS : Fld := ⟨0x060, 1, 0x0, 0, 32, .wo, .const 0, .any, false⟩
/-- `JUMP_LIMIT.NS` of R844. -/
def PTP.JUMP_LIMIT_NS : Fld := ⟨0x064, 1, 0x0, 0, 30, .rwl, .const 0xF4240, .any, false⟩
/-- `JUMP_PEND_LO.NS` of R844. -/
def PTP.JUMP_PEND_LO_NS : Fld := ⟨0x068, 1, 0x0, 0, 32, .ro, .const 0, .any, false⟩
/-- `JUMP_PEND_HI.NS` of R844. -/
def PTP.JUMP_PEND_HI_NS : Fld := ⟨0x06C, 1, 0x0, 0, 32, .ro, .const 0, .any, false⟩
/-- `JUMP_CMD.ACCEPT` of R844. -/
def PTP.JUMP_CMD_ACCEPT : Fld := ⟨0x070, 1, 0x0, 0, 1, .wo, .const 0, .any, false⟩
/-- `JUMP_CMD.REJECT` of R844. -/
def PTP.JUMP_CMD_REJECT : Fld := ⟨0x070, 1, 0x0, 1, 1, .wo, .const 0, .any, false⟩
/-- `REFUSED_COUNT.COUNT` of R844. -/
def PTP.REFUSED_COUNT_COUNT : Fld := ⟨0x074, 1, 0x0, 0, 16, .rc, .const 0, .any, false⟩
/-- `OFFSET_LO.PS` of R844. -/
def PTP.OFFSET_LO_PS : Fld := ⟨0x078, 1, 0x0, 0, 32, .ro, .const 0, .any, false⟩
/-- `OFFSET_HI.PS` of R844. -/
def PTP.OFFSET_HI_PS : Fld := ⟨0x07C, 1, 0x0, 0, 32, .ro, .const 0, .any, false⟩
/-- `LOCK.LOCK_NS` of R844. -/
def PTP.LOCK_LOCK_NS : Fld := ⟨0x080, 1, 0x0, 0, 16, .rws, .const 0x3E8, .nat 10 65535, false⟩
/-- `SYNC_TO_MS.MS` of R844. -/
def PTP.SYNC_TO_MS_MS : Fld := ⟨0x084, 1, 0x0, 0, 16, .rws, .const 0xBB8, .nat 10 65535, false⟩
/-- `PARENT_ID_LO.ID` of R844. -/
def PTP.PARENT_ID_LO_ID : Fld := ⟨0x088, 1, 0x0, 0, 32, .rw, .const 0, .any, false⟩
/-- `PARENT_ID_HI.ID` of R844. -/
def PTP.PARENT_ID_HI_ID : Fld := ⟨0x08C, 1, 0x0, 0, 32, .rw, .const 0, .any, false⟩
/-- `PARENT.PORT_NUMBER` of R844. -/
def PTP.PARENT_PORT_NUMBER : Fld := ⟨0x090, 1, 0x0, 0, 16, .rw, .const 0, .any, false⟩
/-- `PARENT.SLAVE_PORT` of R844. -/
def PTP.PARENT_SLAVE_PORT : Fld := ⟨0x090, 1, 0x0, 16, 1, .rw, .const 0, .any, false⟩
/-- `PARENT.E2E` of R844. -/
def PTP.PARENT_E2E : Fld := ⟨0x090, 1, 0x0, 17, 1, .rw, .const 0, .any, false⟩
/-- `PARENT.EN` of R844. -/
def PTP.PARENT_EN : Fld := ⟨0x090, 1, 0x0, 31, 1, .rw, .const 0, .any, false⟩
/-- `PATH_DELAY.PS` of R844. -/
def PTP.PATH_DELAY_PS : Fld := ⟨0x094, 1, 0x0, 0, 32, .rw, .const 0, .any, false⟩
/-- `DOMAIN.NUMBER` of R844. -/
def PTP.DOMAIN_NUMBER : Fld := ⟨0x098, 1, 0x0, 0, 8, .rws, .const 0, .any, true⟩
/-- `PORT_CFG.PDELAY_EN` of R844. -/
def PTP.PORT_CFG_PDELAY_EN : Fld := ⟨0x0A0, 2, 0x20, 0, 1, .rws, .const 0, .any, true⟩
/-- `PORT_CFG.TC_EN` of R844. -/
def PTP.PORT_CFG_TC_EN : Fld := ⟨0x0A0, 2, 0x20, 1, 1, .rws, .const 0, .any, true⟩
/-- `PORT_CFG.IPV4` of R844. -/
def PTP.PORT_CFG_IPV4 : Fld := ⟨0x0A0, 2, 0x20, 2, 1, .rws, .const 0, .any, true⟩
/-- `PORT_CFG.LOG_PDELAY` of R844. -/
def PTP.PORT_CFG_LOG_PDELAY : Fld := ⟨0x0A0, 2, 0x20, 4, 4, .rws, .const 0, .int (-3) 4, true⟩
/-- `PORT_INGRESS_LAT.PS` of R844. -/
def PTP.PORT_INGRESS_LAT_PS : Fld := ⟨0x0A4, 2, 0x20, 0, 32, .rws, .const 0, .any, false⟩
/-- `PORT_EGRESS_LAT.PS` of R844. -/
def PTP.PORT_EGRESS_LAT_PS : Fld := ⟨0x0A8, 2, 0x20, 0, 32, .rws, .const 0, .any, false⟩
/-- `PORT_LINK_DELAY.PS` of R844. -/
def PTP.PORT_LINK_DELAY_PS : Fld := ⟨0x0AC, 2, 0x20, 0, 32, .ro, .const 0, .any, false⟩
/-- `PORT_PDELAY_FAIL.COUNT` of R844. -/
def PTP.PORT_PDELAY_FAIL_COUNT : Fld := ⟨0x0B0, 2, 0x20, 0, 16, .rc, .const 0, .any, false⟩
/-- `TIMEO_CFG.EN` of R844. -/
def PTP.TIMEO_CFG_EN : Fld := ⟨0x100, 4, 0x20, 0, 1, .rws, .const 0, .any, false⟩
/-- `TIMEO_CFG.OUT_EN` of R844. -/
def PTP.TIMEO_CFG_OUT_EN : Fld := ⟨0x100, 4, 0x20, 1, 1, .rws, .const 0, .any, false⟩
/-- `TIMEO_CFG.PERIODIC` of R844. -/
def PTP.TIMEO_CFG_PERIODIC : Fld := ⟨0x100, 4, 0x20, 2, 1, .rws, .const 0, .any, false⟩
/-- `TIMEO_CFG.WIDTH` of R844. -/
def PTP.TIMEO_CFG_WIDTH : Fld := ⟨0x100, 4, 0x20, 4, 16, .rws, .const 0x19, .any, false⟩
/-- `TIMEO_START_S_LO.S` of R844. -/
def PTP.TIMEO_START_S_LO_S : Fld := ⟨0x104, 4, 0x20, 0, 32, .rws, .const 0, .any, false⟩
/-- `TIMEO_START_S_HI.S` of R844. -/
def PTP.TIMEO_START_S_HI_S : Fld := ⟨0x108, 4, 0x20, 0, 32, .rws, .const 0, .any, false⟩
/-- `TIMEO_START_NS.NS` of R844. -/
def PTP.TIMEO_START_NS_NS : Fld := ⟨0x10C, 4, 0x20, 0, 30, .rws, .const 0, .any, false⟩
/-- `TIMEO_PERIOD_NS.NS` of R844. -/
def PTP.TIMEO_PERIOD_NS_NS : Fld := ⟨0x110, 4, 0x20, 0, 32, .rws, .const 0x3B9ACA00, .any, false⟩
/-- `TIMEO_COUNT.COUNT` of R844. -/
def PTP.TIMEO_COUNT_COUNT : Fld := ⟨0x114, 4, 0x20, 0, 32, .ro, .const 0, .any, false⟩
/-- `TIMEO_SKIP.COUNT` of R844. -/
def PTP.TIMEO_SKIP_COUNT : Fld := ⟨0x118, 4, 0x20, 0, 16, .rc, .const 0, .any, false⟩
/-! ### Page CELLAR -/
/-- `STATUS.KEYS_OK` of chapter 18. -/
def CELLAR.STATUS_KEYS_OK : Fld := ⟨0x00C, 1, 0x0, 0, 1, .ro, .const 0, .any, false⟩
/-- `STATUS.RECOVERY` of chapter 18. -/
def CELLAR.STATUS_RECOVERY : Fld := ⟨0x00C, 1, 0x0, 1, 1, .ro, .const 0, .any, false⟩
/-- `STATUS.DEBUG_SEEN` of chapter 18. -/
def CELLAR.STATUS_DEBUG_SEEN : Fld := ⟨0x00C, 1, 0x0, 2, 1, .ro, .const 0, .any, false⟩
/-- `LIFECYCLE.STATE` of R922. -/
def CELLAR.LIFECYCLE_STATE : Fld := ⟨0x040, 1, 0x0, 0, 2, .ro, .const 0, .any, false⟩
/-- `UID_LO.UID` of R922. -/
def CELLAR.UID_LO_UID : Fld := ⟨0x044, 1, 0x0, 0, 32, .ro, .const 0, .any, false⟩
/-- `UID_HI.UID` of R922. -/
def CELLAR.UID_HI_UID : Fld := ⟨0x048, 1, 0x0, 0, 32, .ro, .const 0, .any, false⟩
/-- `CMD.OP` of R922. -/
def CELLAR.CMD_OP : Fld := ⟨0x04C, 1, 0x0, 0, 4, .wo, .const 0, .any, false⟩
/-- `CMD.TYPE` of R922. -/
def CELLAR.CMD_TYPE : Fld := ⟨0x04C, 1, 0x0, 4, 3, .wo, .const 0, .any, false⟩
/-- `SRC.ADDR` of R922. -/
def CELLAR.SRC_ADDR : Fld := ⟨0x050, 1, 0x0, 0, 32, .rw, .const 0, .any, false⟩
/-- `CMD_STATUS.BUSY` of R922. -/
def CELLAR.CMD_STATUS_BUSY : Fld := ⟨0x054, 1, 0x0, 0, 1, .ro, .const 0, .any, false⟩
/-- `CMD_STATUS.RESULT` of R922. -/
def CELLAR.CMD_STATUS_RESULT : Fld := ⟨0x054, 1, 0x0, 4, 4, .ro, .const 0, .any, false⟩
/-- `CMD_STATUS.OP` of R922. -/
def CELLAR.CMD_STATUS_OP : Fld := ⟨0x054, 1, 0x0, 8, 4, .ro, .const 0, .any, false⟩
/-- `CMD_STATUS.ENTRY` of R922. -/
def CELLAR.CMD_STATUS_ENTRY : Fld := ⟨0x054, 1, 0x0, 16, 4, .ro, .const 0, .any, false⟩
/-- `COUNTERS.SEC` of R922. -/
def CELLAR.COUNTERS_SEC : Fld := ⟨0x058, 1, 0x0, 0, 8, .ro, .const 0, .any, false⟩
/-- `COUNTERS.SUP` of R922. -/
def CELLAR.COUNTERS_SUP : Fld := ⟨0x058, 1, 0x0, 8, 8, .ro, .const 0, .any, false⟩
/-- `COUNTERS.MET` of R922. -/
def CELLAR.COUNTERS_MET : Fld := ⟨0x058, 1, 0x0, 16, 8, .ro, .const 0, .any, false⟩
/-- `COUNTERS.DATA` of R922. -/
def CELLAR.COUNTERS_DATA : Fld := ⟨0x058, 1, 0x0, 24, 8, .ro, .const 0, .any, false⟩
/-- `BOOT.SLOT` of R922. -/
def CELLAR.BOOT_SLOT : Fld := ⟨0x05C, 1, 0x0, 0, 2, .ro, .const 0, .any, false⟩
/-- `BOOT.FALLBACK` of R922. -/
def CELLAR.BOOT_FALLBACK : Fld := ⟨0x05C, 1, 0x0, 2, 1, .ro, .const 0, .any, false⟩
/-- `BOOT.OK` of R922. -/
def CELLAR.BOOT_OK : Fld := ⟨0x05C, 1, 0x0, 3, 1, .ro, .const 0, .any, false⟩
/-- `BOOT.CODE` of R922. -/
def CELLAR.BOOT_CODE : Fld := ⟨0x05C, 1, 0x0, 4, 4, .ro, .const 0, .any, false⟩
/-- `BOOT.ENTRY` of R922. -/
def CELLAR.BOOT_ENTRY : Fld := ⟨0x05C, 1, 0x0, 8, 4, .ro, .const 0, .any, false⟩
/-- `BOOT.GENERATION` of R922. -/
def CELLAR.BOOT_GENERATION : Fld := ⟨0x05C, 1, 0x0, 16, 16, .ro, .const 0, .any, false⟩
/-- `ID_PUB.BYTES` of R922. -/
def CELLAR.ID_PUB_BYTES : Fld := ⟨0x060, 8, 0x4, 0, 32, .ro, .const 0, .any, false⟩
/-! ### Page ATTEST -/
/-- `NONCE.BYTES` of R923. -/
def ATTEST.NONCE_BYTES : Fld := ⟨0x040, 8, 0x4, 0, 32, .rw, .const 0, .any, false⟩
/-- `CMD.GO` of R923. -/
def ATTEST.CMD_GO : Fld := ⟨0x060, 1, 0x0, 0, 1, .wo, .const 0, .any, false⟩
/-- `RESULT.BUSY` of R923. -/
def ATTEST.RESULT_BUSY : Fld := ⟨0x064, 1, 0x0, 0, 1, .ro, .const 0, .any, false⟩
/-- `RESULT.CODE` of R923. -/
def ATTEST.RESULT_CODE : Fld := ⟨0x064, 1, 0x0, 1, 3, .ro, .const 0, .any, false⟩
/-- `REPORT.BYTES` of R923. -/
def ATTEST.REPORT_BYTES : Fld := ⟨0x100, 64, 0x4, 0, 32, .ro, .const 0, .any, false⟩
/-! ### Page DEBUG -/
/-- `STATUS.SESSION_OPEN` of chapter 18. -/
def DEBUG.STATUS_SESSION_OPEN : Fld := ⟨0x00C, 1, 0x0, 0, 1, .ro, .const 0, .any, false⟩
/-- `STATUS.LOCKOUT` of chapter 18. -/
def DEBUG.STATUS_LOCKOUT : Fld := ⟨0x00C, 1, 0x0, 1, 1, .ro, .const 0, .any, false⟩
/-- `STATUS.AUTH_BUSY` of chapter 18. -/
def DEBUG.STATUS_AUTH_BUSY : Fld := ⟨0x00C, 1, 0x0, 2, 1, .ro, .const 0, .any, false⟩
/-- `CHALLENGE.BYTES` of R924. -/
def DEBUG.CHALLENGE_BYTES : Fld := ⟨0x040, 8, 0x4, 0, 32, .ro, .const 0, .any, false⟩
/-- `CHAL_CMD.NEW` of R924. -/
def DEBUG.CHAL_CMD_NEW : Fld := ⟨0x060, 1, 0x0, 0, 1, .wo, .const 0, .any, false⟩
/-- `AUTH.SCOPE` of R924. -/
def DEBUG.AUTH_SCOPE : Fld := ⟨0x064, 1, 0x0, 0, 4, .rw, .const 0, .any, false⟩
/-- `AUTH.RETURN` of R924. -/
def DEBUG.AUTH_RETURN : Fld := ⟨0x064, 1, 0x0, 7, 1, .rw, .const 0, .any, false⟩
/-- `AUTH.KEYSEL` of R924. -/
def DEBUG.AUTH_KEYSEL : Fld := ⟨0x064, 1, 0x0, 8, 1, .rw, .const 0, .any, false⟩
/-- `AUTH.DURATION_S` of R924. -/
def DEBUG.AUTH_DURATION_S : Fld := ⟨0x064, 1, 0x0, 16, 16, .rw, .const 0, .any, false⟩
/-- `PUBKEY.BYTES` of R924. -/
def DEBUG.PUBKEY_BYTES : Fld := ⟨0x068, 8, 0x4, 0, 32, .rw, .const 0, .any, false⟩
/-- `SIG.BYTES` of R924. -/
def DEBUG.SIG_BYTES : Fld := ⟨0x088, 16, 0x4, 0, 32, .rw, .const 0, .any, false⟩
/-- `AUTH_CMD.GO` of R924. -/
def DEBUG.AUTH_CMD_GO : Fld := ⟨0x0C8, 1, 0x0, 0, 1, .wo, .const 0, .any, false⟩
/-- `SESSION.GRANTED` of R924. -/
def DEBUG.SESSION_GRANTED : Fld := ⟨0x0CC, 1, 0x0, 0, 4, .ro, .const 0, .any, false⟩
/-- `SESSION.REMAINING_S` of R924. -/
def DEBUG.SESSION_REMAINING_S : Fld := ⟨0x0CC, 1, 0x0, 16, 16, .ro, .const 0, .any, false⟩
/-- `END.END` of R924. -/
def DEBUG.END_END : Fld := ⟨0x0D0, 1, 0x0, 0, 1, .wo, .const 0, .any, false⟩
/-- `LAST_END.CAUSE` of R924. -/
def DEBUG.LAST_END_CAUSE : Fld := ⟨0x0D4, 1, 0x0, 0, 3, .ro, .const 0, .any, false⟩
/-- `LE_HALT.ENGINE` of R924. -/
def DEBUG.LE_HALT_ENGINE : Fld := ⟨0x0D8, 1, 0x0, 0, 16, .w1s, .const 0, .any, false⟩
/-- `LE_RESUME.ENGINE` of R924. -/
def DEBUG.LE_RESUME_ENGINE : Fld := ⟨0x0DC, 1, 0x0, 0, 16, .wo, .const 0, .any, false⟩
/-- `LE_STEP.ENGINE` of R924. -/
def DEBUG.LE_STEP_ENGINE : Fld := ⟨0x0E0, 1, 0x0, 0, 4, .wo, .const 0, .any, false⟩
/-- `HALTED.SUPA` of R924. -/
def DEBUG.HALTED_SUPA : Fld := ⟨0x0E4, 1, 0x0, 0, 1, .ro, .const 0, .any, false⟩
/-- `HALTED.SUPB` of R924. -/
def DEBUG.HALTED_SUPB : Fld := ⟨0x0E4, 1, 0x0, 1, 1, .ro, .const 0, .any, false⟩
/-- `HALTED.SEC` of R924. -/
def DEBUG.HALTED_SEC : Fld := ⟨0x0E4, 1, 0x0, 2, 1, .ro, .const 0, .any, false⟩
/-- `HALTED.MET` of R924. -/
def DEBUG.HALTED_MET : Fld := ⟨0x0E4, 1, 0x0, 3, 1, .ro, .const 0, .any, false⟩
/-- `AUTH_FAIL.COUNT` of R924. -/
def DEBUG.AUTH_FAIL_COUNT : Fld := ⟨0x0E8, 1, 0x0, 0, 16, .rc, .const 0, .any, false⟩
/-! ### Page XFLASH -/
/-- `STATUS.READY` of chapter 18. -/
def XFLASH.STATUS_READY : Fld := ⟨0x00C, 1, 0x0, 0, 1, .ro, .const 0, .any, false⟩
/-- `STATUS.XIP_ACTIVE` of chapter 18. -/
def XFLASH.STATUS_XIP_ACTIVE : Fld := ⟨0x00C, 1, 0x0, 1, 1, .ro, .const 0, .any, false⟩
/-- `CFG.PROTO` of R925. -/
def XFLASH.CFG_PROTO : Fld := ⟨0x040, 1, 0x0, 0, 2, .rw, .const 0, .any, false⟩
/-- `CFG.CLK` of R925. -/
def XFLASH.CFG_CLK : Fld := ⟨0x040, 1, 0x0, 2, 2, .rw, .const 0, .any, false⟩
/-- `CFG.XIP_EN` of R925. -/
def XFLASH.CFG_XIP_EN : Fld := ⟨0x040, 1, 0x0, 4, 1, .rw, .const 0, .any, false⟩
/-- `CFG.SIZE` of R925. -/
def XFLASH.CFG_SIZE : Fld := ⟨0x040, 1, 0x0, 8, 4, .rw, .const 0, .any, false⟩
/-- `OP.CODE` of R925. -/
def XFLASH.OP_CODE : Fld := ⟨0x044, 1, 0x0, 0, 3, .wo, .const 0, .any, false⟩
/-- `OP.GO` of R925. -/
def XFLASH.OP_GO : Fld := ⟨0x044, 1, 0x0, 31, 1, .wo, .const 0, .any, false⟩
/-- `ADDR.OFFSET` of R925. -/
def XFLASH.ADDR_OFFSET : Fld := ⟨0x048, 1, 0x0, 0, 28, .rw, .const 0, .any, false⟩
/-- `SRAM.ADDR` of R925. -/
def XFLASH.SRAM_ADDR : Fld := ⟨0x04C, 1, 0x0, 0, 32, .rw, .const 0, .any, false⟩
/-- `LEN.BYTES` of R925. -/
def XFLASH.LEN_BYTES : Fld := ⟨0x050, 1, 0x0, 0, 13, .rw, .const 0, .any, false⟩
/-- `OP_STATUS.BUSY` of R925. -/
def XFLASH.OP_STATUS_BUSY : Fld := ⟨0x054, 1, 0x0, 0, 1, .ro, .const 0, .any, false⟩
/-- `OP_STATUS.RESULT` of R925. -/
def XFLASH.OP_STATUS_RESULT : Fld := ⟨0x054, 1, 0x0, 1, 3, .ro, .const 0, .any, false⟩
/-- `FLASH_ID.ID` of R925. -/
def XFLASH.FLASH_ID_ID : Fld := ⟨0x058, 1, 0x0, 0, 24, .ro, .const 0, .any, false⟩

/-- The fields of page HDR. -/
def HDR.fields : List Fld :=
  [HDR.PAGE_ID_VERSION, HDR.PAGE_ID_INSTANCE, HDR.PAGE_ID_BLOCK, HDR.PAGE_CAPS_STAGED, HDR.PAGE_CAPS_LOCKABLE, HDR.PAGE_CAPS_CLOCKED, HDR.PAGE_CAPS_IRQ_BITS, HDR.PAGE_CAPS_BLOCK_CAPS, HDR.IRQ_RAW_BITS, HDR.IRQ_ENABLE_BITS, HDR.IRQ_STATUS_BITS, HDR.IRQ_FORCE_BITS, HDR.SHADOW_COMMIT_COMMIT, HDR.CFG_ERROR_CODE, HDR.CFG_ERROR_OFFSET, HDR.CFG_ERROR_INITIATOR, HDR.OWNER_KEY, HDR.OWNER_GUARDED, HDR.OWNER_HOLDER, HDR.PAGE_LOCK_LOCKED]

/-- The fields of page SYS. -/
def SYS.fields : List Fld :=
  [SYS.STATUS_TRANS_BUSY, SYS.STATUS_REQ_REFUSED, SYS.STATUS_SUPA_LS_ERR, SYS.STATUS_SUPB_LS_ERR, SYS.STATUS_DIE_LINK_OK, SYS.STATUS_ECC_UE_SEEN, SYS.MODE_MODE, SYS.MODE_PREV_MODE, SYS.MODE_ENTRY_CAUSE, SYS.MODE_REQ_TARGET, SYS.SAFE_STOP_CAUSE_FIRST, SYS.SAFE_STOP_CAUSE_COUNT, SYS.CYC_LO_CYC_LO, SYS.CYC_HI_CYC_HI, SYS.DEVICE_ID_PART, SYS.DEVICE_ID_SILICON, SYS.STRAPS_BOOT_S, SYS.STRAPS_PORCH_A, SYS.STRAPS_PORCH_B, SYS.STRAPS_DEVID, SYS.ECC_CE_COUNT_COUNT, SYS.ECC_UE_COUNT_COUNT, SYS.ECC_LAST_ADDR_ADDR]

/-- The fields of page POWER. -/
def POWER.fields : List Fld :=
  [POWER.STATUS_BUSY, POWER.STATE_STATE, POWER.STATE_PREV, POWER.STATE_REFUSE, POWER.CMD_TARGET, POWER.WAKECFG_PORCHA, POWER.WAKECFG_PORCHB, POWER.WAKECFG_TRIG0, POWER.WAKE_SRC]

/-- The fields of page CLOCK. -/
def CLOCK.fields : List Fld :=
  [CLOCK.STATUS_SYS_LOCK, CLOCK.STATUS_CLN_LOCK, CLOCK.STATUS_SUBST, CLOCK.STATUS_HOPPING, CLOCK.STATUS_SS_ACTIVE, CLOCK.STATUS_PROFILE_NOW, CLOCK.STATUS_ROOT_OK, CLOCK.STATUS_COMMIT_PENDING, CLOCK.SYSCFG_PROFILE, CLOCK.SYSCFG_SS_MODE, CLOCK.SYSCFG_SS_DEPTH, CLOCK.LOCKCFG_TOL, CLOCK.DOMSTAT_RUN, CLOCK.BAND_BAND0, CLOCK.BAND_BAND1, CLOCK.BAND_BAND2, CLOCK.BAND_VALID, CLOCK.LOCK_LOST_COUNT_SYS, CLOCK.LOCK_LOST_COUNT_CLN, CLOCK.HOP_COUNT_HOPS, CLOCK.HOP_COUNT_BAND_MISS, CLOCK.SUBST_TIME_US, CLOCK.XING_OVERRUN, CLOCK.XING_OVERFLOW] ++
  [CLOCK.ROOT_LOSS_COUNT_COUNT]

/-- The fields of page RESET. -/
def RESET.fields : List Fld :=
  [RESET.STATUS_RSTREQ_IGNORED, RESET.STATUS_RSTREQ_LOW, RESET.CAUSE_CAUSE, RESET.CAUSE_PREV, RESET.RSTREQ_STUCK_STUCK, RESET.RSTREQ_STUCK_COUNT, RESET.SWRST_CODE, RESET.RESET_COUNT_COUNT]

/-- The fields of page KEYRACK. -/
def KEYRACK.fields : List Fld :=
  [KEYRACK.KEY_BITS, KEYRACK.HELD_LO_HELD, KEYRACK.HELD_HI_HELD, KEYRACK.RELEASE_MINE_GO, KEYRACK.FORCE_RELEASE_KEY, KEYRACK.FORCE_RELEASE_GO, KEYRACK.FORCE_COUNT_COUNT, KEYRACK.BIND_PAGE, KEYRACK.BIND_KEY, KEYRACK.BIND_EN]

/-- The fields of page PORCH. -/
def PORCH.fields : List Fld :=
  [PORCH.ERR_CODE_CODE, PORCH.ERR_ADDR_ADDR, PORCH.ERR_COUNT_COUNT, PORCH.LINK_UP, PORCH.LINK_MODE, PORCH.LINK_SPEED, PORCH.LINK_MSI_EN, PORCH.CFG_ERR_MODE]

/-- The fields of page IRQ. -/
def IRQ.fields : List Fld :=
  [IRQ.ROUTE_TARGETS, IRQ.ROUTE_PRIO, IRQ.ROUTE_ACTIVE, IRQ.CLAIM_SRC, IRQ.EOI_EOI, IRQ.DOORBELL_SRC, IRQ.DB_STATUS_LO_DB, IRQ.DB_STATUS_HI_DB]

/-- The fields of page LE. -/
def LE.fields : List Fld :=
  [LE.CTRL_EN, LE.CTRL_COEF_SWAP, LE.CTRL_RESUME, LE.STATUS_STATE, LE.STATUS_BUSY, LE.STATUS_STALE, LE.STATUS_COEF_FAIL, LE.STATUS_DUTY_LIVE, LE.STATUS_PROG, LE.STATUS_FAULT_CAUSE, LE.STATUS_COMMIT_PENDING, LE.BANKS_FIRST, LE.BANKS_COUNT, LE.TRIG_KIND, LE.TRIG_INDEX, LE.TRIG_EVT, LE.TRIG_DIV, LE.TRIG_PHASE, LE.PROG_START, LE.PROG_LIMSET, LE.PROG_EN, LE.STALE_LIMIT, LE.STALE_ACTION, LE.WATCH_MASK] ++
  [LE.BLEND_MS, LE.FORMSLOT_GROUP, LE.FORMSLOT_EN, LE.DMAP_COEF_BASE, LE.DMAP_COEF_LEN, LE.COEF_MASTER_ADDR, LE.COEF_STAGE_ADDR, LE.RUN_CYCLES_CYCLES, LE.RUN_CYCLES_DUTY_CYC, LE.LAT_MAX_MAX, LE.RUN_COUNT_COUNT, LE.OVERRUN_COUNT_COUNT, LE.STALE_COUNT_COUNT, LE.SKIP_COUNT_COUNT, LE.BLEND_COUNT_COUNT, LE.SLOTROUTE_KIND, LE.SLOTROUTE_INDEX, LE.SLOTSTAT_FRESH, LE.SLOTSTAT_AGE, LE.SLOTSTAT_VALID, LE.SLOTVAL_VALUE, LE.SP_CFG_RAMP_EN, LE.SP_CFG_MEAS_KIND, LE.SP_CFG_MEAS_IDX] ++
  [LE.SP_RATE_VALUE, LE.SP_TARGET_VALUE, LE.SP_VALUE_VALUE, LE.OPORT_CFG_KIND, LE.OPORT_CFG_UNIT, LE.OPORT_CFG_INDEX, LE.OPORT_CFG_SPLIT, LE.OPORT_LO0_VALUE, LE.OPORT_HI0_VALUE, LE.OPORT_LO1_VALUE, LE.OPORT_HI1_VALUE, LE.OPORT_BUMP_VALUE, LE.OPORT_LAST_VALUE]

/-- The fields of page LPS. -/
def LPS.fields : List Fld :=
  [LPS.STATUS_LOAD_BUSY, LPS.STATUS_LIB_BUSY, LPS.LOAD_SRC_ADDR, LPS.LOAD_CMD_FIRST, LPS.LOAD_CMD_COUNT, LPS.LOAD_CMD_GO, LPS.LOAD_STATUS_BUSY, LPS.LOAD_STATUS_RESULT, LPS.LOAD_STATUS_WORD, LPS.LIB_CMD_ID, LPS.LIB_CMD_GO, LPS.LIB_DEST_ADDR, LPS.LIB_STATUS_BUSY, LPS.LIB_STATUS_RESULT, LPS.LIB_STATUS_WORDS, LPS.VALID_BANK, LPS.INJECT_ADDR, LPS.INJECT_ENGINE, LPS.INJECT_KIND, LPS.INJECT_ARM, LPS.BANKMASTER_ADDR, LPS.LAST_REFETCH_WORD, LPS.LAST_REFETCH_SET, LPS.FETCH_REPLAY_COUNT] ++
  [LPS.OPND_REPLAY_COUNT, LPS.COEF_REPLAY, LPS.COEF_WR_DISCARD, LPS.LAST_ERR_LPS_WORD, LPS.LAST_ERR_DATA_WORD, LPS.LAST_ERR_KIND]

/-- The fields of page FORM. -/
def FORM.fields : List Fld :=
  [FORM.CTRL_HARM_EN, FORM.CTRL_DEADBUS_EN, FORM.STATUS_STATE, FORM.STATUS_CUR_LIMIT, FORM.STATUS_ANGLE_LIMIT, FORM.STATUS_FREQ_CLAMP, FORM.STATUS_E_CLAMP, FORM.STATUS_SLOT_CLAMP, FORM.STATUS_CLOSE_PERMIT, FORM.STATUS_I_FB_OK, FORM.STATUS_V_FB_OK, FORM.STATUS_G_FB_OK, FORM.STATUS_FAULT_CAUSE, FORM.STATUS_COMMIT_PENDING, FORM.SBASE_VALUE, FORM.VBASE_VALUE, FORM.BASECFG_FBASE, FORM.BASECFG_BRIDGES, FORM.BASECFG_ANGLE_POINT, FORM.RATE_PERIOD, FORM.RATE_SYNC_PWM, FORM.RATE_SYNC_EN, FORM.LEAD_TICKS, FORM.STALE_LIM_LIMIT] ++
  [FORM.ISCALE_VALUE, FORM.VSCALE_VALUE, FORM.GSCALE_VALUE, FORM.BMAP_LE, FORM.BMAP_PWM, FORM.BMAP_EVT, FORM.BMAP_EN, FORM.INROUTE_CH, FORM.INROUTE_EN, FORM.INROUTE_OFFSET, FORM.H_VALUE, FORM.DAMP_VALUE, FORM.TDAMP_VALUE, FORM.XEST_VALUE, FORM.MP_VALUE, FORM.MQ_VALUE, FORM.TP_VALUE, FORM.TQ_VALUE, FORM.RV_VALUE, FORM.XV_VALUE, FORM.FMIN_VALUE, FORM.FMAX_VALUE, FORM.EMIN_VALUE, FORM.EMAX_VALUE] ++
  [FORM.PREF_VALUE, FORM.QREF_VALUE, FORM.VSET_VALUE, FORM.FSET_VALUE, FORM.SPRATE_VALUE, FORM.ILIM_VALUE, FORM.ION_VALUE, FORM.KCL_VALUE, FORM.XRCL_VALUE, FORM.DMAX_VALUE, FORM.ALIM_TIME_MS, FORM.SYNC_ANG_VALUE, FORM.SYNC_MAG_VALUE, FORM.SYNC_SLIP_VALUE, FORM.SYNC_TIMEOUT_MS, FORM.BS_RATE_VALUE, FORM.THETA_VALUE, FORM.OMEGA_VALUE, FORM.EMAG_VALUE, FORM.PMEAS_VALUE, FORM.QMEAS_VALUE, FORM.VBUS_VALUE, FORM.DELTA_VALUE, FORM.IMAG_VALUE] ++
  [FORM.KCL_EFF_VALUE, FORM.ZETA_VALUE, FORM.WN_VALUE, FORM.PREF_NOW_VALUE, FORM.QREF_NOW_VALUE, FORM.VSET_NOW_VALUE, FORM.FSET_NOW_VALUE, FORM.GRID_DANG_VALUE, FORM.GRID_MAG_VALUE, FORM.GRID_SLIP_VALUE, FORM.UPD_COUNT_COUNT, FORM.FB_LOST_COUNT_COUNT, FORM.CL_COUNT_COUNT, FORM.ALIM_COUNT_COUNT, FORM.HSLOT_CFG_ORDER, FORM.HSLOT_CFG_SEQ, FORM.HSLOT_CFG_EN, FORM.HSLOT_CFG_BW, FORM.HSLOT_HR_VALUE, FORM.HSLOT_HXS_VALUE, FORM.HSLOT_HDROOP_VALUE, FORM.HSLOT_HBUDGET_VALUE, FORM.HSLOT_HIMAG_VALUE, FORM.HSLOT_HREFF_VALUE]

/-- The fields of page PWM. -/
def PWM.fields : List Fld :=
  [PWM.CTRL_EN, PWM.CTRL_RUN, PWM.STATUS_RUNNING, PWM.STATUS_DRIVING, PWM.STATUS_TRIPPED, PWM.STATUS_CBC_HOLD, PWM.STATUS_HALT_SAFE, PWM.STATUS_CLK_SAFE, PWM.STATUS_TRIP_SRC, PWM.STATUS_TRIP_VALID, PWM.STATUS_COMMIT_PENDING, PWM.PERIOD_COARSE, PWM.CFG_MODE, PWM.CFG_UPDATE, PWM.CFG_MINP_MODE, PWM.CFG_GATE, PWM.CFG_GATE_IDX, PWM.DEADTIME_COARSE, PWM.DEADTIME_FINE, PWM.MINP_COARSE, PWM.PHASE_COARSE, PWM.PHASE_FINE, PWM.SYNC_SRC, PWM.SYNC_INDEX] ++
  [PWM.SAFE_LEVEL, PWM.OUTCFG_OUTEN, PWM.OUTCFG_POL, PWM.PAIR_PHASE_COARSE, PWM.PAIR_PHASE_FINE, PWM.CMP_FRAC, PWM.MINP_DROP_COUNT_COUNT, PWM.MINP_EXT_COUNT_COUNT, PWM.PERIOD_COUNT_COUNT, PWM.SYNC_COUNT_COUNT]

/-- The fields of page FUSE. -/
def FUSE.fields : List Fld :=
  [FUSE.STATUS_ARMED, FUSE.STATUS_ANY_LATCH, FUSE.STATUS_ANY_UNIT, FUSE.ACTIVE_LO_SRC, FUSE.ACTIVE_HI_SRC, FUSE.LATCH_LO_SRC, FUSE.LATCH_HI_SRC, FUSE.UNIT_TRIP_UNIT, FUSE.CLEAR_LO_SRC, FUSE.CLEAR_HI_SRC, FUSE.CLEAR_UNIT_UNIT, FUSE.CLEAR_REFUSED_COUNT, FUSE.FIRST_SRC, FUSE.FIRST_VALID, FUSE.FIRST_CYC_LO_CYC, FUSE.FIRST_CYC_HI_CYC, FUSE.CBC_COUNT_COUNT, FUSE.SW_TRIP_ACTIVE, FUSE.MAP_UNITS, FUSE.MAP_STOP, FUSE.MAP_CYCLE, FUSE.MAP_EN, FUSE.PINCFG_FILT, FUSE.PINCFG_POL]

/-- The fields of page SAR. -/
def SAR.fields : List Fld :=
  [SAR.CTRL_EN, SAR.CTRL_SWTRIG_REG, SAR.CTRL_SWTRIG_INJ, SAR.STATUS_REG_BUSY, SAR.STATUS_INJ_BUSY, SAR.STATUS_REG_PENDING, SAR.STATUS_WIN0_ACTIVE, SAR.STATUS_WIN1_ACTIVE, SAR.STATUS_COMMIT_PENDING, SAR.REGTRIG_KIND, SAR.REGTRIG_INDEX, SAR.REGTRIG_EVT, SAR.REGSEQ_LAST, SAR.INJTRIG_KIND, SAR.INJTRIG_INDEX, SAR.INJTRIG_EVT, SAR.INJTRIG_URGENT, SAR.INJSEQ_LAST, SAR.REGSLOT_INPUT, SAR.REGSLOT_SMP, SAR.REGSLOT_AVG, SAR.INJSLOT_INPUT, SAR.INJSLOT_SMP, SAR.WIN_CFG_EN] ++
  [SAR.WIN_CFG_SEQ, SAR.WIN_CFG_SLOT, SAR.WIN_CFG_COUNT, SAR.WIN_LIM_LO, SAR.WIN_LIM_HI, SAR.REGRES_VALUE, SAR.INJRES_VALUE, SAR.REG_COUNT_COUNT, SAR.MISSED_REG, SAR.MISSED_INJ, SAR.ABORT_COUNT_COUNT]

/-- The fields of page DSF. -/
def DSF.fields : List Fld :=
  [DSF.CTRL_CHEN, DSF.STATUS_VALID, DSF.STATUS_CMP_OUT, DSF.STATUS_CK_OK, DSF.STATUS_NO_SYNC, DSF.STATUS_COMMIT_PENDING, DSF.BANKCFG_CKSEL, DSF.BANKCFG_SKEW, DSF.SYNC_SRC, DSF.SYNC_INDEX, DSF.SYNC_EVT, DSF.WINDOW_COUNT_COUNT, DSF.DSCK_DIV, DSF.DSCK_EN, DSF.DSCK_RECEIVE, DSF.CMPSEL_CHMASK, DSF.CHCFG_ORDER, DSF.CHCFG_DEC, DSF.CHCFG_INVERT, DSF.CMPCFG_OSR, DSF.CMPCFG_COUNT, DSF.CMPCFG_INVALID_TRIP, DSF.CMPCFG_EN, DSF.CMPLIM_LO] ++
  [DSF.CMPLIM_HI, DSF.RES_VALUE, DSF.RES_VALID, DSF.RES_NOTCH_OFF, DSF.CMPVAL_VALUE, DSF.CHSTAT_VALID, DSF.CHSTAT_SETTLING, DSF.CHSTAT_STUCK, DSF.CHSTAT_NO_CLK, DSF.CHSTAT_CMP_OUT, DSF.INVALID_COUNT_COUNT]

/-- The fields of page PORT. -/
def PORT.fields : List Fld :=
  [PORT.CTRL_EN, PORT.STATUS_STATE, PORT.STATUS_PHASE, PORT.STATUS_CDO_A, PORT.STATUS_CDO_B, PORT.STATUS_CFB_CLOSED, PORT.STATUS_GATE, PORT.STATUS_PLUG_OK, PORT.STATUS_ISO_WARN, PORT.STATUS_WELDED, PORT.STATUS_WELD_INCONCL, PORT.STATUS_FAULT_CAUSE, PORT.STATUS_STOP_CAUSE, PORT.STATUS_CDO_A_RB, PORT.STATUS_CDO_B_RB, PORT.STATUS_COMMIT_PENDING, PORT.MAP_LE, PORT.MAP_PWM, PORT.MAP_ISP, PORT.MAP_VSP, PORT.PREPROG_START, PORT.PREPROG_LIMSET, PORT.PREPROG_EN, PORT.MEAS_V_CH] ++
  [PORT.MEAS_I_CH, PORT.SARMAP_VEH_UNIT, PORT.SARMAP_VEH_SLOT, PORT.SARMAP_ISO_UNIT, PORT.SARMAP_ISO_SLOT, PORT.SARMAP_PP_UNIT, PORT.SARMAP_PP_SLOT, PORT.CFG_CFB_POL, PORT.CFG_CHTEST_EN, PORT.CFG_WELD_ACTIVE, PORT.CFG_BIDIR, PORT.CFB_TIME_CLOSE_MS, PORT.CFB_TIME_OPEN_MS, PORT.CFB_TIME_CHTEST_MS, PORT.CFB_TIME_OPEN_DELAY_MS, PORT.TIMEOUT_A_CC_MS, PORT.TIMEOUT_A_PRE_MS, PORT.TIMEOUT_B_CC_HOLD_MS, PORT.TIMEOUT_B_STOP_MS, PORT.WELD_TIME_WELD_MS, PORT.ISO_LIM_FAULT, PORT.ISO_LIM_WARN, PORT.PP_LIM_LO, PORT.PP_LIM_HI] ++
  [PORT.V_SCALE_VALUE, PORT.I_SCALE_VALUE, PORT.VEH_SCALE_VALUE, PORT.SP_SCALE_V_VALUE, PORT.SP_SCALE_I_VALUE, PORT.V_SAFE_VALUE, PORT.V_MAX_VALUE, PORT.I_OPEN_VALUE, PORT.V_TOL_VALUE, PORT.CC_V_VALUE, PORT.CC_END_V_VALUE, PORT.PRE_V_VALUE, PORT.I_SET_VALUE, PORT.V_LIM_VALUE, PORT.CMD_CODE, PORT.V_OUT_VALUE, PORT.I_OUT_VALUE, PORT.V_VEH_VALUE, PORT.CODES_ISO, PORT.CODES_PP, PORT.SESSION_COUNT_COUNT, PORT.CLOSE_COUNT_COUNT, PORT.FAULT_COUNT_COUNT]

/-- The fields of page PILOT. -/
def PILOT.fields : List Fld :=
  [PILOT.STATUS_SENSE_ERR, PILOT.STATUS_COMMIT_PENDING, PILOT.CH_GEN_MODE, PILOT.CH_GEN_DUTY, PILOT.CH_GEN_F_ON_FAULT, PILOT.CH_SENSE_UNIT, PILOT.CH_SENSE_SLOT, PILOT.CH_SENSE_EN, PILOT.CH_SENSE_DEBOUNCE, PILOT.CH_SENSE_SETTLE, PILOT.CH_STATE_STATE, PILOT.CH_STATE_DIODE_ERR, PILOT.CH_STATE_SENSE_ERR, PILOT.CH_LEVELS_HIGH, PILOT.CH_LEVELS_LOW, PILOT.TH0_TH_AB, PILOT.TH0_TH_BC, PILOT.TH1_TH_CD, PILOT.TH1_TH_DE, PILOT.TH2_TH_DIODE, PILOT.TH2_HYST]

/-- The fields of page METRO. -/
def METRO.fields : List Fld :=
  [METRO.STATUS_RUNNING, METRO.STATUS_FW_OK, METRO.STATUS_CAL_OK, METRO.STATUS_RESTORED, METRO.STATUS_TIME_TRUSTED, METRO.STATUS_KEY_OK, METRO.STATUS_TEST, METRO.STATUS_EPOCHS_OUT, METRO.PUBKEY_BYTES, METRO.FWHASH_BYTES, METRO.NEXT_SEQ_LO_SEQ, METRO.NEXT_SEQ_HI_SEQ, METRO.EPOCH_EPOCH, METRO.EPOCH_LEFT, METRO.CFG_VIEW_METER_EN, METRO.CFG_VIEW_SIZE, METRO.CFG_VIEW_CLK, METRO.CFG_VIEW_QUAD, METRO.START_COUNT_COUNT, METRO.SAMPLE_COUNT_COUNT, METRO.IMP_LO_VALUE, METRO.IMP_HI_VALUE, METRO.EXP_LO_VALUE, METRO.EXP_HI_VALUE] ++
  [METRO.POWER_VALUE, METRO.VOLT_VALUE, METRO.CURR_VALUE, METRO.MSTAT_ENABLED, METRO.MSTAT_SESSION_OPEN, METRO.MSTAT_CH_FAULT, METRO.MSTAT_OVERRANGE, METRO.SESSION_LO_ID, METRO.SESSION_HI_ID, METRO.BEGIN_LO_SEQ, METRO.BEGIN_HI_SEQ, METRO.INVALID_COUNT]

/-- The fields of page PANTRY. -/
def PANTRY.fields : List Fld :=
  [PANTRY.STATUS_READY, PANTRY.STATUS_FULL, PANTRY.STATUS_FAULT, PANTRY.STATUS_FLUSHED, PANTRY.STATUS_WRITE_BUSY, PANTRY.STATUS_COMMIT_PENDING, PANTRY.CFG_SIZE, PANTRY.CFG_CLK, PANTRY.CFG_QUAD, PANTRY.CMD_OP, PANTRY.CMD_METER, PANTRY.SESSION_LO_ID, PANTRY.SESSION_HI_ID, PANTRY.CAL_SRC_ADDR, PANTRY.CMD_STATUS_BUSY, PANTRY.CMD_STATUS_RESULT, PANTRY.CMD_STATUS_OP, PANTRY.CMD_SEQ_LO_SEQ, PANTRY.CMD_SEQ_HI_SEQ, PANTRY.ACK_SEQ_LO_SEQ, PANTRY.ACK_SEQ_HI_SEQ, PANTRY.UNACKED_COUNT, PANTRY.FREE_COUNT, PANTRY.READ_SEQ_LO_SEQ] ++
  [PANTRY.READ_SEQ_HI_SEQ, PANTRY.READ_STATUS_BUSY, PANTRY.READ_STATUS_RESULT, PANTRY.SNAP_CAUSE, PANTRY.SNAP_COUNT_COUNT, PANTRY.WRITE_FAULTS_COUNT, PANTRY.LOST_INTERRUPTIONS_COUNT, PANTRY.RECBUF_BYTES]

/-- The fields of page SAFEIO. -/
def SAFEIO.fields : List Fld :=
  [SAFEIO.CTRL_EN, SAFEIO.STATUS_EN, SAFEIO.STATUS_RECOMMIT, SAFEIO.STATUS_DEMAND, SAFEIO.STATUS_DEMAND_PAIR, SAFEIO.STATUS_DEMAND_NET, SAFEIO.STATUS_DEMAND_SW, SAFEIO.STATUS_WDOG, SAFEIO.STATUS_TP_FAULT, SAFEIO.STATUS_COMMIT_PENDING, SAFEIO.TPCFG_PERIOD_MS, SAFEIO.TPCFG_WIDTH, SAFEIO.TPCFG_TPEN, SAFEIO.TPSTAT_RUNNING, SAFEIO.TPSTAT_FAULT_HIGH, SAFEIO.TPSTAT_FAULT_LOW, SAFEIO.ASSIGN_MB_PAIR0, SAFEIO.ASSIGN_MB_EN0, SAFEIO.ASSIGN_MB_PAIR1, SAFEIO.ASSIGN_MB_EN1, SAFEIO.ASSIGN_GL_PAIR0, SAFEIO.ASSIGN_GL_EN0, SAFEIO.ASSIGN_GL_PAIR1, SAFEIO.ASSIGN_GL_EN1] ++
  [SAFEIO.DEMAND_SW_DEMAND, SAFEIO.ACK_PAIR, SAFEIO.RAW_CH, SAFEIO.LEVEL_CH, SAFEIO.CHFAULT_CH, SAFEIO.TEST_FAULT_COUNT_COUNT, SAFEIO.CHCFG_FILT_MS, SAFEIO.CHCFG_TPSRC, SAFEIO.PAIRCFG_MODE, SAFEIO.PAIRCFG_DISC_MS, SAFEIO.PAIRCFG_RESTART, SAFEIO.PAIRCFG_DEMAND, SAFEIO.PAIRSTAT_STATE, SAFEIO.PAIRSTAT_VALUE, SAFEIO.PAIRSTAT_CAUSE, SAFEIO.PAIRSTAT_FAULT_COUNT, SAFEIO.WDCFG_WIN_MAX, SAFEIO.WDCFG_WIN_MIN, SAFEIO.WDCFG_EN, SAFEIO.WDSVC_TOKEN, SAFEIO.WDSTAT_EXPIRED, SAFEIO.WDSTAT_RUN, SAFEIO.WDCLEAR_CLEAR]

/-- The fields of page SAFENET. -/
def SAFENET.fields : List Fld :=
  [SAFENET.CTRL_EN, SAFENET.STATUS_VALUE, SAFENET.STATUS_DEMAND, SAFENET.STATUS_DEGRADED, SAFENET.STATUS_COMMIT_PENDING, SAFENET.CFG_ETYPE, SAFENET.CFG_CMP_MS, SAFENET.ACK_CH, SAFENET.CH_CFG_ID, SAFENET.CH_CFG_EN, SAFENET.CH_CFG_DEMAND, SAFENET.CH_CFG_RESTART, SAFENET.CH_SEED_SEED, SAFENET.CH_WD_WD_MS, SAFENET.CH_WD_MAX_GAP, SAFENET.CH_STAT_STATE, SAFENET.CH_STAT_VALUE, SAFENET.CH_STAT_CAUSE, SAFENET.CH_SEQ_LAST_SEQ, SAFENET.CH_ERR_CRC_ERR, SAFENET.CH_ERR_OLD, SAFENET.CH_MISS_MISS_A, SAFENET.CH_MISS_MISS_B]

/-- The fields of page GDRV. -/
def GDRV.fields : List Fld :=
  [GDRV.CTRL_EN, GDRV.CTRL_CLEAR, GDRV.CTRL_DIAG, GDRV.STATUS_STATE, GDRV.STATUS_GD_BOOT_UV, GDRV.STATUS_PINNED, GDRV.STATUS_RECOMMIT, GDRV.STATUS_DIAG_OK, GDRV.STATUS_FAULT_KIND, GDRV.STATUS_DIAG_RES, GDRV.STATUS_COMMIT_PENDING, GDRV.CFG_AXIS, GDRV.CFG_LEG, GDRV.CFG_CAP_EN, GDRV.CFG_DIAG_REQ, GDRV.DEADTIME_DT, GDRV.STRENGTH_SRC_FIXED, GDRV.STRENGTH_SRC_MIN, GDRV.STRENGTH_SRC_MAX, GDRV.STRENGTH_SRC_ADAPT, GDRV.STRENGTH_SNK_FIXED, GDRV.STRENGTH_SNK_MIN, GDRV.STRENGTH_SNK_MAX, GDRV.STRENGTH_SNK_ADAPT] ++
  [GDRV.TARGET_TARGET_NS, GDRV.TARGET_HYST_NS, GDRV.REFRESH_WIDTH, GDRV.REFRESH_PERIOD_US, GDRV.CAP_DUTY_CAP, GDRV.VDS_THR, GDRV.VDS_BLANK, GDRV.VDS_FAULT_SNK, GDRV.DIAG_PHASE_US, GDRV.DIAG_PARTNER, GDRV.DIAG_PARTNER_EN, GDRV.ADAPT_SRC_NOW, GDRV.ADAPT_SNK_NOW, GDRV.ADAPT_LAST_SRC_NS, GDRV.ADAPT_LAST_SNK_NS, GDRV.FAULT_COUNT_COUNT, GDRV.BOOT_UV_COUNT_COUNT, GDRV.REFRESH_COUNT_COUNT, GDRV.CAP_COUNT_COUNT]

/-- The fields of page CHIMNEY. -/
def CHIMNEY.fields : List Fld :=
  [CHIMNEY.CTRL_CLEAR_OV, CHIMNEY.CTRL_CLEAR_FIRST, CHIMNEY.STATUS_VGD_OK, CHIMNEY.STATUS_VGD_UV, CHIMNEY.STATUS_MBOV, CHIMNEY.STATUS_CHOP_ON, CHIMNEY.STATUS_CHOP_LIMIT, CHIMNEY.STATUS_CFG_HELD, CHIMNEY.STATUS_COMMIT_PENDING, CHIMNEY.CFG_UV_EN, CHIMNEY.CFG_MBOV_EN, CHIMNEY.CFG_UV_SEL, CHIMNEY.CFG_OV_ACTION, CHIMNEY.VM_THR_CHOP_OFF, CHIMNEY.VM_THR_CHOP_ON, CHIMNEY.VM_THR_OV_TRIP, CHIMNEY.CHOP_MAX_ON_MS, CHIMNEY.CHOP_REST_MS, CHIMNEY.MEAS_VM_DV, CHIMNEY.MEAS_VGD_DV, CHIMNEY.FIRST_FAULT_LEG, CHIMNEY.FIRST_FAULT_KIND, CHIMNEY.FIRST_FAULT_LEG2, CHIMNEY.FIRST_FAULT_LEG2_VALID] ++
  [CHIMNEY.FIRST_FAULT_VALID, CHIMNEY.FIRST_CYC_LO_CYC, CHIMNEY.FIRST_CYC_HI_CYC, CHIMNEY.CHOP_COUNT_COUNT, CHIMNEY.OV_COUNT_COUNT, CHIMNEY.VGD_UV_COUNT_COUNT]

/-- The fields of page AXIS. -/
def AXIS.fields : List Fld :=
  [AXIS.CTRL_EN, AXIS.STATUS_STATE, AXIS.STATUS_HOMED, AXIS.STATUS_LIMIT_STOP, AXIS.STATUS_LIMIT_OVER, AXIS.STATUS_STALL, AXIS.STATUS_STEP_LAG, AXIS.STATUS_GEAR_CLAMP, AXIS.STATUS_AT_TARGET, AXIS.STATUS_FAULT_CAUSE, AXIS.STATUS_COMMIT_PENDING, AXIS.CFG_MOTOR, AXIS.CFG_MSTEP, AXIS.CFG_SOFT_EN, AXIS.CFG_STALL_EN, AXIS.CFG_STALL_ACTION, AXIS.CFG_DIR_INV, AXIS.SWITCH_PERIOD, AXIS.AMPL_RUN, AXIS.AMPL_HOLD, AXIS.VMAX_VALUE, AXIS.AMAX_VALUE, AXIS.DECEL_VALUE, AXIS.JMAX_VALUE] ++
  [AXIS.LIM_DECEL_VALUE, AXIS.SOFT_MIN_POS, AXIS.SOFT_MAX_POS, AXIS.STEPCFG_SIZE, AXIS.STEPCFG_TIMEOUT_US, AXIS.STALL_UNIT, AXIS.STALL_SLOT, AXIS.STALL_THR, AXIS.STALL_COUNT, AXIS.STALL_BLANK, AXIS.STALL_VMIN_VALUE, AXIS.HOMECFG_DIR, AXIS.HOMECFG_AMPL, AXIS.HOME_VEL_VALUE, AXIS.HOME_POS_POS, AXIS.HOME_MAX_DIST, AXIS.BLDC_POLE_PAIRS, AXIS.BLDC_CPR, AXIS.ENC_OFFSET_COUNT, AXIS.KP_VALUE, AXIS.KV_VALUE, AXIS.FOLLOW_MAX_DIST, AXIS.TARGET_POS, AXIS.VJOG_VALUE] ++
  [AXIS.CMD_CODE, AXIS.POS_POS, AXIS.VEL_VALUE, AXIS.ACC_VALUE, AXIS.FOLLOW_DIST, AXIS.LOAD_CODE, AXIS.GEAR_RATIO_RATIO, AXIS.GEAR_TRIG_COUNT, AXIS.GEAR_CMD_PUSH, AXIS.GEAR_CMD_FLUSH, AXIS.GEAR_STATUS_DEPTH, AXIS.GEAR_STATUS_ENGAGED, AXIS.RATIO_NOW_RATIO, AXIS.GEAR_APPLIED_COUNT, AXIS.STALL_COUNT_COUNT, AXIS.LIMIT_COUNT_COUNT, AXIS.STEP_LAG_COUNT_COUNT, AXIS.GEAR_CLAMP_COUNT_COUNT]

/-- The fields of page ENC. -/
def ENC.fields : List Fld :=
  [ENC.STATUS_Z_VALID, ENC.STATUS_COMMIT_PENDING, ENC.CFG_EN, ENC.CFG_INVERT, ENC.CFG_FILT, ENC.CFG_ZCAP_EN, ENC.COUNT_COUNT, ENC.ZCAP_COUNT, ENC.QERR_COUNT]

/-- The fields of page ATTIC. -/
def ATTIC.fields : List Fld :=
  [ATTIC.STATUS_RUNNING, ATTIC.STATUS_COMMIT_PENDING, ATTIC.SIG_KIND, ATTIC.SIG_FLOAT, ATTIC.SIG_INDEX, ATTIC.TRG_CFG_KIND, ATTIC.TRG_CFG_POL, ATTIC.TRG_CFG_COND, ATTIC.TRG_CFG_SIG, ATTIC.TRG_A_VALUE, ATTIC.TRG_B_VALUE, ATTIC.TRG_TIME_T1, ATTIC.TRG_TIME_T2, ATTIC.PERR_COUNT_COUNT, ATTIC.PERR_ADDR_ADDR, ATTIC.CAP_CFG_EN, ATTIC.CAP_CFG_WATCH, ATTIC.CAP_CFG_FULL_MODE, ATTIC.CAP_CFG_TRIGOUT_EN, ATTIC.CAP_CFG_TRIGOUT_LINE, ATTIC.CAP_CFG_TRIGOUT_WIDTH, ATTIC.CAP_SIGMASK_SIG, ATTIC.CAP_SAMPLE_KIND, ATTIC.CAP_SAMPLE_INDEX] ++
  [ATTIC.CAP_SAMPLE_EVT, ATTIC.CAP_SAMPLE_DIV, ATTIC.CAP_BIN_BIN, ATTIC.CAP_BIN_RED, ATTIC.CAP_REGION_BASE_PAGE, ATTIC.CAP_REGION_PAGES, ATTIC.CAP_SEGS_DIR_BASE, ATTIC.CAP_SEGS_NSEG, ATTIC.CAP_PRE_FRAMES, ATTIC.CAP_POST_FRAMES, ATTIC.CAP_TRGMASK_UNITS, ATTIC.CAP_CMD_CODE, ATTIC.CAP_STAT_STATE, ATTIC.CAP_STAT_CLAMPED, ATTIC.CAP_STAT_NEXT, ATTIC.CAP_FRAME_WORDS_WORDS, ATTIC.CAP_CAPACITY_FRAMES, ATTIC.CAP_POST_EFF_FRAMES, ATTIC.CAP_SEG_COUNT_COUNT, ATTIC.CAP_MISSED_MISSED, ATTIC.CAP_MISSED_EARLY]

/-- The fields of page REDUN. -/
def REDUN.fields : List Fld :=
  [REDUN.CTRL_EN, REDUN.STATUS_STATE, REDUN.STATUS_DEGRADED, REDUN.STATUS_DIVERGED, REDUN.STATUS_TAKEOVER_READY, REDUN.STATUS_LEAD, REDUN.STATUS_CK_RESCUED, REDUN.STATUS_PRESENT, REDUN.STATUS_ALIVE_SEEN, REDUN.STATUS_LEAVE_CAUSE, REDUN.STATUS_COMMIT_PENDING, REDUN.ROLE_ROLE, REDUN.ROLE_MEMBER, REDUN.ROLE_LEAD_ID, REDUN.CFG_SET, REDUN.CFG_MIN_MEMBERS, REDUN.CFG_DIV_CYCLES, REDUN.CFG_ALIVE_EN, REDUN.CFG_CK_RESCUE, REDUN.CFG_INIT_LEAD, REDUN.CFG_RB_TOL, REDUN.CFG_JOIN_CYCLES, REDUN.CYCLE_TICKS, REDUN.ALIVE_PIN0] ++
  [REDUN.ALIVE_PIN1, REDUN.ALIVE_PIN2, REDUN.SELF_MASK_SRC, REDUN.CMD_CODE, REDUN.CMD_TARGET, REDUN.SETCYC_K, REDUN.TAKEOVER_CAUSE, REDUN.TAKEOVER_FROM, REDUN.TAKEOVER_TO, REDUN.TAKEOVER_CYC_LO_CYC, REDUN.TAKEOVER_CYC_HI_CYC, REDUN.TAKEOVER_COUNT_COUNT, REDUN.DIGEST_FORM_CRC, REDUN.DIGEST_DUTY_CRC, REDUN.DIGEST_TRIP_CRC, REDUN.MISMATCH_FORM, REDUN.MISMATCH_DUTY, REDUN.MISMATCH_TRIP, REDUN.MISMATCH_RB, REDUN.HB_MISS_COUNT, REDUN.JOIN_PHASE, REDUN.JOIN_ATTEMPTS, REDUN.XFER_SRC_ADDR, REDUN.XFER_DST_ADDR] ++
  [REDUN.XFER_CMD_LEN, REDUN.XFER_CMD_TARGET, REDUN.XFER_CMD_GO, REDUN.XFER_STATUS_BUSY, REDUN.XFER_STATUS_RESULT, REDUN.STAMP_RSEQ, REDUN.STAMP_ERR_COUNT]

/-- The fields of page TWITOS. -/
def TWITOS.fields : List Fld :=
  [TWITOS.CTRL_EN, TWITOS.STATUS_UP, TWITOS.STATUS_PARTNER, TWITOS.STATUS_PARTNER_VALID, TWITOS.STATUS_COMMIT_PENDING, TWITOS.CFG_RX_INV, TWITOS.CFG_TX_INV, TWITOS.CFG_SWING, TWITOS.CFG_EQ, TWITOS.RTT_PS, TWITOS.ERR_CRC_ERR, TWITOS.ERR_DOWN_COUNT, TWITOS.FRAMES_RX_COUNT, TWITOS.FRAMES_TX_COUNT]

/-- The fields of page HOUSE. -/
def HOUSE.fields : List Fld :=
  [HOUSE.CTRL_EN, HOUSE.STATUS_LOCKED, HOUSE.STATUS_HOLDOVER, HOUSE.STATUS_SLEWING, HOUSE.STATUS_DRIVING, HOUSE.STATUS_CYC_OK, HOUSE.STATUS_COMMIT_PENDING, HOUSE.CFG_TRIM, HOUSE.DLL_TAP, HOUSE.DLL_PHASE_PS, HOUSE.HOLD_COUNT_COUNT, HOUSE.CYC_ERR_COUNT, HOUSE.TRIG_LATE_COUNT, HOUSE.TRIG_DELAY]

/-- The fields of page ETHSW. -/
def ETHSW.fields : List Fld :=
  [ETHSW.CTRL_EN, ETHSW.STATUS_LINK0, ETHSW.STATUS_LINK1, ETHSW.STATUS_LAN_A_OK, ETHSW.STATUS_LAN_B_OK, ETHSW.STATUS_RING_OK, ETHSW.STATUS_COMMIT_PENDING, ETHSW.CFG_MODE, ETHSW.CFG_LIFE_CHECK, ETHSW.CFG_FORGET_MS, ETHSW.CFG_PTP_Q, ETHSW.MAC_LO_BYTES, ETHSW.MAC_HI_BYTES, ETHSW.PORT_EN, ETHSW.PORT_AN_EN, ETHSW.PORT_VLAN_EN, ETHSW.PORT_VID, ETHSW.PORT_PCP, ETHSW.MDIO_CMD_REG, ETHSW.MDIO_CMD_PHY, ETHSW.MDIO_CMD_WRITE, ETHSW.MDIO_CMD_GO, ETHSW.MDIO_DATA_DATA, ETHSW.MDIO_DATA_BUSY] ++
  [ETHSW.TXQ_BASE_ADDR, ETHSW.TXQ_SIZE_ENTRIES, ETHSW.TXQ_HEAD_INDEX, ETHSW.TXQ_TAIL_INDEX, ETHSW.RXQ_BASE_ADDR, ETHSW.RXQ_SIZE_ENTRIES, ETHSW.RXQ_HEAD_INDEX, ETHSW.RXQ_TAIL_INDEX, ETHSW.CLASS_ETYPE, ETHSW.CLASS_QUEUE, ETHSW.CLASS_EN, ETHSW.RX_FRAMES_COUNT, ETHSW.TX_FRAMES_COUNT, ETHSW.RX_ERR_COUNT, ETHSW.DUP_DISCARD_COUNT, ETHSW.LAN_ERR_COUNT, ETHSW.RX_DROP_COUNT, ETHSW.NODES_COUNT]

/-- The fields of page PTP. -/
def PTP.fields : List Fld :=
  [PTP.CTRL_EN, PTP.STATUS_TRUSTED, PTP.STATUS_LOCKED, PTP.STATUS_OFFSET_OK, PTP.STATUS_NO_JUMP, PTP.STATUS_TIME_SET, PTP.STATUS_JUMP_PENDING, PTP.STATUS_COMMIT_PENDING, PTP.TIME_NS_NS, PTP.TIME_S_LO_S, PTP.TIME_S_HI_S, PTP.RATE_ADJ, PTP.SET_S_LO_S, PTP.SET_S_HI_S, PTP.SET_NS_NS, PTP.SET_NS_GO, PTP.STEP_LO_NS, PTP.STEP_HI_NS, PTP.JUMP_LIMIT_NS, PTP.JUMP_PEND_LO_NS, PTP.JUMP_PEND_HI_NS, PTP.JUMP_CMD_ACCEPT, PTP.JUMP_CMD_REJECT, PTP.REFUSED_COUNT_COUNT] ++
  [PTP.OFFSET_LO_PS, PTP.OFFSET_HI_PS, PTP.LOCK_LOCK_NS, PTP.SYNC_TO_MS_MS, PTP.PARENT_ID_LO_ID, PTP.PARENT_ID_HI_ID, PTP.PARENT_PORT_NUMBER, PTP.PARENT_SLAVE_PORT, PTP.PARENT_E2E, PTP.PARENT_EN, PTP.PATH_DELAY_PS, PTP.DOMAIN_NUMBER, PTP.PORT_CFG_PDELAY_EN, PTP.PORT_CFG_TC_EN, PTP.PORT_CFG_IPV4, PTP.PORT_CFG_LOG_PDELAY, PTP.PORT_INGRESS_LAT_PS, PTP.PORT_EGRESS_LAT_PS, PTP.PORT_LINK_DELAY_PS, PTP.PORT_PDELAY_FAIL_COUNT, PTP.TIMEO_CFG_EN, PTP.TIMEO_CFG_OUT_EN, PTP.TIMEO_CFG_PERIODIC, PTP.TIMEO_CFG_WIDTH] ++
  [PTP.TIMEO_START_S_LO_S, PTP.TIMEO_START_S_HI_S, PTP.TIMEO_START_NS_NS, PTP.TIMEO_PERIOD_NS_NS, PTP.TIMEO_COUNT_COUNT, PTP.TIMEO_SKIP_COUNT]

/-- The fields of page CELLAR. -/
def CELLAR.fields : List Fld :=
  [CELLAR.STATUS_KEYS_OK, CELLAR.STATUS_RECOVERY, CELLAR.STATUS_DEBUG_SEEN, CELLAR.LIFECYCLE_STATE, CELLAR.UID_LO_UID, CELLAR.UID_HI_UID, CELLAR.CMD_OP, CELLAR.CMD_TYPE, CELLAR.SRC_ADDR, CELLAR.CMD_STATUS_BUSY, CELLAR.CMD_STATUS_RESULT, CELLAR.CMD_STATUS_OP, CELLAR.CMD_STATUS_ENTRY, CELLAR.COUNTERS_SEC, CELLAR.COUNTERS_SUP, CELLAR.COUNTERS_MET, CELLAR.COUNTERS_DATA, CELLAR.BOOT_SLOT, CELLAR.BOOT_FALLBACK, CELLAR.BOOT_OK, CELLAR.BOOT_CODE, CELLAR.BOOT_ENTRY, CELLAR.BOOT_GENERATION, CELLAR.ID_PUB_BYTES]

/-- The fields of page ATTEST. -/
def ATTEST.fields : List Fld :=
  [ATTEST.NONCE_BYTES, ATTEST.CMD_GO, ATTEST.RESULT_BUSY, ATTEST.RESULT_CODE, ATTEST.REPORT_BYTES]

/-- The fields of page DEBUG. -/
def DEBUG.fields : List Fld :=
  [DEBUG.STATUS_SESSION_OPEN, DEBUG.STATUS_LOCKOUT, DEBUG.STATUS_AUTH_BUSY, DEBUG.CHALLENGE_BYTES, DEBUG.CHAL_CMD_NEW, DEBUG.AUTH_SCOPE, DEBUG.AUTH_RETURN, DEBUG.AUTH_KEYSEL, DEBUG.AUTH_DURATION_S, DEBUG.PUBKEY_BYTES, DEBUG.SIG_BYTES, DEBUG.AUTH_CMD_GO, DEBUG.SESSION_GRANTED, DEBUG.SESSION_REMAINING_S, DEBUG.END_END, DEBUG.LAST_END_CAUSE, DEBUG.LE_HALT_ENGINE, DEBUG.LE_RESUME_ENGINE, DEBUG.LE_STEP_ENGINE, DEBUG.HALTED_SUPA, DEBUG.HALTED_SUPB, DEBUG.HALTED_SEC, DEBUG.HALTED_MET, DEBUG.AUTH_FAIL_COUNT]

/-- The fields of page XFLASH. -/
def XFLASH.fields : List Fld :=
  [XFLASH.STATUS_READY, XFLASH.STATUS_XIP_ACTIVE, XFLASH.CFG_PROTO, XFLASH.CFG_CLK, XFLASH.CFG_XIP_EN, XFLASH.CFG_SIZE, XFLASH.OP_CODE, XFLASH.OP_GO, XFLASH.ADDR_OFFSET, XFLASH.SRAM_ADDR, XFLASH.LEN_BYTES, XFLASH.OP_STATUS_BUSY, XFLASH.OP_STATUS_RESULT, XFLASH.FLASH_ID_ID]

/-- Page SYS (R116; its chapter gives `PAGE_CAPS`). -/
def SYS.info : PageInfo := ⟨0x000, 1, 0x0001, some 0, false, false, false, 0, 0x0000, 3, none, SYS.fields⟩
/-- Page POWER (R116; its chapter gives `PAGE_CAPS`). -/
def POWER.info : PageInfo := ⟨0x001, 1, 0x0002, some 1, false, false, false, 2, 0x0005, 3, none, POWER.fields⟩
/-- Page CLOCK (R116; its chapter gives `PAGE_CAPS`). -/
def CLOCK.info : PageInfo := ⟨0x002, 1, 0x0003, some 2, true, false, false, 6, 0x0003, 3, some 5, CLOCK.fields⟩
/-- Page RESET (R116; its chapter gives `PAGE_CAPS`). -/
def RESET.info : PageInfo := ⟨0x003, 1, 0x0004, some 3, false, false, false, 1, 0x0006, 3, none, RESET.fields⟩
/-- Page KEYRACK (R116; its chapter gives `PAGE_CAPS`). -/
def KEYRACK.info : PageInfo := ⟨0x004, 1, 0x0005, some 4, false, true, false, 0, 0x0040, 3, none, KEYRACK.fields⟩
/-- Pages PORCH (R116; its chapter gives `PAGE_CAPS`). -/
def PORCH.info : PageInfo := ⟨0x005, 2, 0x0006, some 5, false, false, false, 3, 0x0000, 3, none, PORCH.fields⟩
/-- Page IRQ (R116; its chapter gives `PAGE_CAPS`). -/
def IRQ.info : PageInfo := ⟨0x007, 1, 0x0007, none, false, false, false, 0, 0x0100, 3, none, IRQ.fields⟩
/-- Pages LE (R116; its chapter gives `PAGE_CAPS`). -/
def LE.info : PageInfo := ⟨0x010, 16, 0x0010, some 16, true, false, true, 8, 0x0820, 1, some 7, LE.fields⟩
/-- Page LPS (R116; its chapter gives `PAGE_CAPS`). -/
def LPS.info : PageInfo := ⟨0x020, 1, 0x0011, some 32, false, false, true, 6, 0x0010, 1, none, LPS.fields⟩
/-- Pages FORM (R116; its chapter gives `PAGE_CAPS`). -/
def FORM.info : PageInfo := ⟨0x021, 2, 0x0012, some 33, true, false, true, 8, 0x0018, 3, some 6, FORM.fields⟩
/-- Pages PWM (R116; its chapter gives `PAGE_CAPS`). -/
def PWM.info : PageInfo := ⟨0x030, 16, 0x0020, some 48, true, false, true, 5, 0x0008, 2, some 4, PWM.fields⟩
/-- Page FUSE (R116; its chapter gives `PAGE_CAPS`). -/
def FUSE.info : PageInfo := ⟨0x040, 1, 0x0021, some 64, false, true, true, 4, 0x0040, 3, none, FUSE.fields⟩
/-- Pages SAR (R116; its chapter gives `PAGE_CAPS`). -/
def SAR.info : PageInfo := ⟨0x041, 6, 0x0030, some 65, true, false, true, 5, 0x0008, 6, some 4, SAR.fields⟩
/-- Pages DSF (R116; its chapter gives `PAGE_CAPS`). -/
def DSF.info : PageInfo := ⟨0x048, 6, 0x0031, some 72, true, false, true, 6, 0x0008, 3, some 5, DSF.fields⟩
/-- Pages PORT (R116; its chapter gives `PAGE_CAPS`). -/
def PORT.info : PageInfo := ⟨0x050, 8, 0x0040, some 80, true, false, true, 5, 0x000E, 3, some 4, PORT.fields⟩
/-- Page PILOT (R116; its chapter gives `PAGE_CAPS`). -/
def PILOT.info : PageInfo := ⟨0x058, 1, 0x0041, some 88, true, false, true, 10, 0x0008, 3, some 9, PILOT.fields⟩
/-- Page METRO (R116; its chapter gives `PAGE_CAPS`). -/
def METRO.info : PageInfo := ⟨0x060, 1, 0x0050, some 96, false, false, true, 0, 0x0009, 7, none, METRO.fields⟩
/-- Page PANTRY (R116; its chapter gives `PAGE_CAPS`). -/
def PANTRY.info : PageInfo := ⟨0x061, 1, 0x0051, some 97, true, false, true, 8, 0x0000, 7, some 7, PANTRY.fields⟩
/-- Page SAFEIO (R116; its chapter gives `PAGE_CAPS`). -/
def SAFEIO.info : PageInfo := ⟨0x070, 1, 0x0060, some 104, true, true, true, 7, 0x0018, 4, some 5, SAFEIO.fields⟩
/-- Page SAFENET (R116; its chapter gives `PAGE_CAPS`). -/
def SAFENET.info : PageInfo := ⟨0x071, 1, 0x0061, some 105, true, true, true, 4, 0x0008, 4, some 3, SAFENET.fields⟩
/-- Pages GDRV (R116; its chapter gives `PAGE_CAPS`). -/
def GDRV.info : PageInfo := ⟨0x080, 12, 0x0070, some 112, true, false, true, 6, 0x0001, 3, some 5, GDRV.fields⟩
/-- Page CHIMNEY (R116; its chapter gives `PAGE_CAPS`). -/
def CHIMNEY.info : PageInfo := ⟨0x08C, 1, 0x0071, some 124, true, false, true, 5, 0x000C, 3, some 4, CHIMNEY.fields⟩
/-- Pages AXIS (R116; its chapter gives `PAGE_CAPS`). -/
def AXIS.info : PageInfo := ⟨0x090, 4, 0x0080, some 128, true, false, true, 7, 0x0003, 3, some 6, AXIS.fields⟩
/-- Page ENC (R116; its chapter gives `PAGE_CAPS`). -/
def ENC.info : PageInfo := ⟨0x098, 1, 0x0081, some 132, true, false, true, 11, 0x0005, 3, some 10, ENC.fields⟩
/-- Page ATTIC (R116; its chapter gives `PAGE_CAPS`). -/
def ATTIC.info : PageInfo := ⟨0x0A0, 1, 0x0090, some 136, true, false, true, 5, 0x0820, 3, some 4, ATTIC.fields⟩
/-- Page REDUN (R116; its chapter gives `PAGE_CAPS`). -/
def REDUN.info : PageInfo := ⟨0x0B0, 1, 0x00A0, some 144, true, false, true, 9, 0x0003, 3, some 8, REDUN.fields⟩
/-- Pages TWITOS (R116; its chapter gives `PAGE_CAPS`). -/
def TWITOS.info : PageInfo := ⟨0x0B1, 4, 0x00A1, some 145, true, false, true, 2, 0x0001, 3, some 1, TWITOS.fields⟩
/-- Page HOUSE (R116; its chapter gives `PAGE_CAPS`). -/
def HOUSE.info : PageInfo := ⟨0x0B8, 1, 0x00A2, some 149, true, false, true, 5, 0x0004, 3, some 4, HOUSE.fields⟩
/-- Page ETHSW (R116; its chapter gives `PAGE_CAPS`). -/
def ETHSW.info : PageInfo := ⟨0x0C0, 1, 0x00B0, some 152, true, false, true, 6, 0x0404, 5, some 5, ETHSW.fields⟩
/-- Page PTP (R116; its chapter gives `PAGE_CAPS`). -/
def PTP.info : PageInfo := ⟨0x0C1, 1, 0x00B1, some 153, true, true, true, 6, 0x0004, 4, some 5, PTP.fields⟩
/-- Page CELLAR (R116; its chapter gives `PAGE_CAPS`). -/
def CELLAR.info : PageInfo := ⟨0x0D0, 1, 0x00C0, some 160, false, false, true, 2, 0x0004, 3, none, CELLAR.fields⟩
/-- Page ATTEST (R116; its chapter gives `PAGE_CAPS`). -/
def ATTEST.info : PageInfo := ⟨0x0D1, 1, 0x00C1, some 161, false, false, true, 1, 0x0100, 3, none, ATTEST.fields⟩
/-- Page DEBUG (R116; its chapter gives `PAGE_CAPS`). -/
def DEBUG.info : PageInfo := ⟨0x0D2, 1, 0x00C2, some 162, false, false, true, 3, 0x0004, 3, none, DEBUG.fields⟩
/-- Page XFLASH (R116; its chapter gives `PAGE_CAPS`). -/
def XFLASH.info : PageInfo := ⟨0x0E0, 1, 0x00D0, some 168, false, false, true, 2, 0x0002, 3, none, XFLASH.fields⟩

/-- The pages of the register window (R116). -/
def pageTable : List PageInfo :=
  [SYS.info, POWER.info, CLOCK.info, RESET.info, KEYRACK.info, PORCH.info, IRQ.info, LE.info, LPS.info, FORM.info, PWM.info, FUSE.info, SAR.info, DSF.info, PORT.info, PILOT.info, METRO.info] ++
  [PANTRY.info, SAFEIO.info, SAFENET.info, GDRV.info, CHIMNEY.info, AXIS.info, ENC.info, ATTIC.info, REDUN.info, TWITOS.info, HOUSE.info, ETHSW.info, PTP.info, CELLAR.info, ATTEST.info, DEBUG.info, XFLASH.info]

/-- The page of a page number, with its instance number. -/
def pageOf (pg : Nat) : Option (PageInfo × Nat) :=
  (pageTable.find? fun p => p.base ≤ pg && pg < p.base + p.count).map fun p => (p, pg - p.base)

/-- Page number of SYS. -/
abbrev SYS.pg : Nat := 0x000
/-- Page number of POWER. -/
abbrev POWER.pg : Nat := 0x001
/-- Page number of CLOCK. -/
abbrev CLOCK.pg : Nat := 0x002
/-- Page number of RESET. -/
abbrev RESET.pg : Nat := 0x003
/-- Page number of KEYRACK. -/
abbrev KEYRACK.pg : Nat := 0x004
/-- Page number of PORCH instance n. -/
abbrev PORCH.pg (n : Nat) : Nat := 0x005 + n
/-- Page number of IRQ. -/
abbrev IRQ.pg : Nat := 0x007
/-- Page number of LE instance n. -/
abbrev LE.pg (n : Nat) : Nat := 0x010 + n
/-- Page number of LPS. -/
abbrev LPS.pg : Nat := 0x020
/-- Page number of FORM instance n. -/
abbrev FORM.pg (n : Nat) : Nat := 0x021 + n
/-- Page number of PWM instance n. -/
abbrev PWM.pg (n : Nat) : Nat := 0x030 + n
/-- Page number of FUSE. -/
abbrev FUSE.pg : Nat := 0x040
/-- Page number of SAR instance n. -/
abbrev SAR.pg (n : Nat) : Nat := 0x041 + n
/-- Page number of DSF instance n. -/
abbrev DSF.pg (n : Nat) : Nat := 0x048 + n
/-- Page number of PORT instance n. -/
abbrev PORT.pg (n : Nat) : Nat := 0x050 + n
/-- Page number of PILOT. -/
abbrev PILOT.pg : Nat := 0x058
/-- Page number of METRO. -/
abbrev METRO.pg : Nat := 0x060
/-- Page number of PANTRY. -/
abbrev PANTRY.pg : Nat := 0x061
/-- Page number of SAFEIO. -/
abbrev SAFEIO.pg : Nat := 0x070
/-- Page number of SAFENET. -/
abbrev SAFENET.pg : Nat := 0x071
/-- Page number of GDRV instance n. -/
abbrev GDRV.pg (n : Nat) : Nat := 0x080 + n
/-- Page number of CHIMNEY. -/
abbrev CHIMNEY.pg : Nat := 0x08C
/-- Page number of AXIS instance n. -/
abbrev AXIS.pg (n : Nat) : Nat := 0x090 + n
/-- Page number of ENC. -/
abbrev ENC.pg : Nat := 0x098
/-- Page number of ATTIC. -/
abbrev ATTIC.pg : Nat := 0x0A0
/-- Page number of REDUN. -/
abbrev REDUN.pg : Nat := 0x0B0
/-- Page number of TWITOS instance n. -/
abbrev TWITOS.pg (n : Nat) : Nat := 0x0B1 + n
/-- Page number of HOUSE. -/
abbrev HOUSE.pg : Nat := 0x0B8
/-- Page number of ETHSW. -/
abbrev ETHSW.pg : Nat := 0x0C0
/-- Page number of PTP. -/
abbrev PTP.pg : Nat := 0x0C1
/-- Page number of CELLAR. -/
abbrev CELLAR.pg : Nat := 0x0D0
/-- Page number of ATTEST. -/
abbrev ATTEST.pg : Nat := 0x0D1
/-- Page number of DEBUG. -/
abbrev DEBUG.pg : Nat := 0x0D2
/-- Page number of XFLASH. -/
abbrev XFLASH.pg : Nat := 0x0E0

end Sys2Proof.Machine
end

