-- ==== Sys2Proof/Machine/Float.lean ====
section
/-!
DEFINITION. Machine/Float.lean: binary32 as R325 uses it (rounding to nearest even, subnormals flushed, no traps), Q31
(R326), the conversions (R327), and the real functions that the Form Units and the recorder need.

Arithmetic is exact on rationals and rounds once, explicitly, at the end.
-/
namespace Sys2Proof.Machine

/-! ### Rationals -/

/-- 2 to an integer power. -/
def pow2 (z : Int) : Rat := if 0 ≤ z then ((2 ^ z.toNat : Nat) : Rat) else mkRat 1 (2 ^ (-z).toNat)

/-- Absolute value. -/
def ratAbs (q : Rat) : Rat := if q < 0 then -q else q

/-- The integer nearest to `q`, ties to even. -/
def rne (q : Rat) : Int :=
  let f := q.floor
  let d := q - f
  if d < mkRat 1 2 then f else if mkRat 1 2 < d then f + 1 else if f % 2 = 0 then f else f + 1

/-- The exponent e of a positive `q` with 2^e ≤ q < 2^(e+1). -/
def ratLog2 (q : Rat) : Int :=
  let e : Int := (Nat.log2 q.num.natAbs : Int) - Nat.log2 q.den
  if q < pow2 e then e - 1 else e

/-- A nonnegative `q` rounded to `p` significant bits with least exponent `emin`, to nearest even. -/
def roundTo (p : Nat) (emin : Int) (q : Rat) : Rat :=
  if q ≤ 0 then 0
  else
    let e := max (ratLog2 q) emin
    let u := pow2 (e - (p - 1 : Nat))
    (rne (q / u) : Rat) * u

/-- The largest integer whose square is at most `n`, by 64 halvings of the interval that holds it. -/
def isqrtStep : Nat → Nat → Nat → Nat → Nat
  | 0, _, lo, _ => lo
  | k + 1, n, lo, hi =>
    let m := (lo + hi) / 2
    if m * m ≤ n then isqrtStep k n m hi else isqrtStep k n lo m

/-- The integer square root. -/
def isqrt (n : Nat) : Nat := isqrtStep (Nat.log2 n + 2) n 0 (2 ^ (Nat.log2 n / 2 + 1))

/-! ### Values with infinities and NaN -/

/-- A floating-point value: NaN, an infinity, or a sign with a magnitude (so that zero keeps its sign). -/
inductive Fp where
  | nan
  | inf (neg : Bool)
  | fin (neg : Bool) (mag : Rat)
  deriving DecidableEq, Repr

/-- The value of a binary32 pattern. -/
def Fp.ofBits (b : Nat) : Fp :=
  let s := b.testBit 31
  let e : Nat := (b >>> 23) % 256
  let f : Nat := b % 2 ^ 23
  if e = 255 then (if f = 0 then .inf s else .nan)
  else if e = 0 then .fin s ((f : Rat) * pow2 (-149))
  else .fin s (((2 ^ 23 + f : Nat) : Rat) * pow2 ((e : Int) - 150))

/-- A rational as a value. -/
def Fp.ofRat (q : Rat) : Fp := .fin (q < 0) (ratAbs q)

/-- The rational a finite value stands for; 0 for the others. -/
def Fp.toRat : Fp → Rat
  | .fin s m => if s then -m else m
  | _ => 0

/-- Whether a value is finite. -/
def Fp.isFin : Fp → Bool
  | .fin _ _ => true
  | _ => false

/-- A subnormal becomes a zero of its sign (R325). -/
def Fp.flush : Fp → Fp
  | .fin s m => if m < pow2 (-126) then .fin s 0 else .fin s m
  | x => x

/-- The sign of a value. -/
def Fp.neg : Fp → Bool
  | .nan => false
  | .inf s => s
  | .fin s _ => s

/-- A quiet NaN. R325 propagates NaNs as IEEE 754 defines, which fixes neither sign nor payload: they are taken from the free
word `r`. -/
def nanBits (r : Word) : Word := 0x7FC00000#32 ||| (r &&& 0x803FFFFF#32)

/-- The binary32 pattern nearest to a value, ties to even, subnormals kept. -/
def Fp.toBits (r : Word) : Fp → Word
  | .nan => nanBits r
  | .inf s => if s then 0xFF800000#32 else 0x7F800000#32
  | .fin s m =>
    let q := roundTo 24 (-126) m
    let mag : Nat :=
      if pow2 128 ≤ q then 0x7F800000
      else if q < pow2 (-126) then (q * pow2 149).floor.toNat
      else
        let e := ratLog2 q
        (e + 126).toNat * 2 ^ 23 + (q * pow2 (23 - e)).floor.toNat
    BitVec.ofNat 32 (mag + if s then 2 ^ 31 else 0)

/-- The binary32 pattern of a rational. -/
def f32 (q : Rat) : Word := (Fp.ofRat q).toBits 0

/-- The rational of a binary32 pattern; 0 where it is not finite. -/
def ratOf (b : Nat) : Rat := (Fp.ofBits b).toRat

/-- Whether a binary32 pattern is finite. -/
def finBits (b : Nat) : Bool := (Fp.ofBits b).isFin

/-! ### Exact operations, before rounding -/

def Fp.negate : Fp → Fp
  | .nan => .nan
  | .inf s => .inf !s
  | .fin s m => .fin (!s) m

/-- The exact sum. An exact zero sum of opposite signs is +0 (rounding to nearest). -/
def Fp.add : Fp → Fp → Fp
  | .nan, _ => .nan
  | _, .nan => .nan
  | .inf s, .inf t => if s = t then .inf s else .nan
  | .inf s, .fin _ _ => .inf s
  | .fin _ _, .inf t => .inf t
  | .fin s m, .fin t n =>
    let q := (if s then -m else m) + (if t then -n else n)
    if q = 0 then .fin (s && t) 0 else .ofRat q

/-- The exact product. -/
def Fp.mul : Fp → Fp → Fp
  | .nan, _ => .nan
  | _, .nan => .nan
  | .inf s, .inf t => .inf (s != t)
  | .inf s, .fin t n => if n = 0 then .nan else .inf (s != t)
  | .fin s m, .inf t => if m = 0 then .nan else .inf (s != t)
  | .fin s m, .fin t n => .fin (s != t) (m * n)

/-- The exact quotient. -/
def Fp.div : Fp → Fp → Fp
  | .nan, _ => .nan
  | _, .nan => .nan
  | .inf _, .inf _ => .nan
  | .inf s, .fin t _ => .inf (s != t)
  | .fin s _, .inf t => .fin (s != t) 0
  | .fin s m, .fin t n => if n = 0 then (if m = 0 then .nan else .inf (s != t)) else .fin (s != t) (m / n)

/-- A value whose nearest binary32 is that of the square root of `q`: the root to 64 bits beyond the first, with a sticky
bit where it is not exact. -/
def sqrtRat (q : Rat) : Rat :=
  if q ≤ 0 then 0
  else
    let k := 66 - ratLog2 q / 2
    let n := (q * pow2 (2 * k)).floor.toNat
    let r := isqrt n
    let exact := (r * r : Nat) = q * pow2 (2 * k)
    (if exact then (r : Rat) else (r : Rat) + mkRat 1 2) * pow2 (-k)

/-- The square root, exact up to rounding. -/
def Fp.sqrt : Fp → Fp
  | .nan => .nan
  | .inf s => if s then .nan else .inf false
  | .fin s m => if m = 0 then .fin s 0 else if s then .nan else .fin false (sqrtRat m)

/-- `x < y` where both are ordered. -/
def Fp.lt : Fp → Fp → Bool
  | .nan, _ => false
  | _, .nan => false
  | .inf s, .inf t => s && !t
  | .inf s, .fin _ _ => s
  | .fin _ _, .inf t => !t
  | .fin s m, .fin t n => (if s then -m else m) < (if t then -n else n)

/-- Equality of ordered values (the two zeros are equal). -/
def Fp.eq : Fp → Fp → Bool
  | .nan, _ => false
  | _, .nan => false
  | .inf s, .inf t => s = t
  | .inf _, .fin _ _ => false
  | .fin _ _, .inf _ => false
  | .fin s m, .fin t n => (if s then -m else m) = (if t then -n else n)

/-! ### The float operations of R325, on patterns: operands flushed, result rounded and flushed -/

/-- An operand of a float operation. -/
def fpIn (w : Word) : Fp := (Fp.ofBits w.toNat).flush

/-- A result: rounded once, a subnormal result flushed. -/
def fpOut (r : Word) (x : Fp) : Word :=
  let w := x.toBits r
  if (w.toNat >>> 23) % 256 = 0 then w &&& 0x80000000#32 else w

def fadd (r a b : Word) : Word := fpOut r ((fpIn a).add (fpIn b))
def fsub (r a b : Word) : Word := fpOut r ((fpIn a).add (fpIn b).negate)
def fmul (r a b : Word) : Word := fpOut r ((fpIn a).mul (fpIn b))

/-- A × B + C with one rounding. -/
def fmac (r a b c : Word) : Word := fpOut r (((fpIn a).mul (fpIn b)).add (fpIn c))

def fdiv (r a b : Word) : Word := fpOut r ((fpIn a).div (fpIn b))
def fsqrt (r a : Word) : Word := fpOut r (fpIn a).sqrt

/-- The lesser operand; with one NaN the other. Of two equal operands that differ (the two zeros) the spec names none: bit 0
of the free word chooses. -/
def fmin (r a b : Word) : Word :=
  let x := fpIn a
  let y := fpIn b
  if x = .nan then fpOut r y
  else if y = .nan then fpOut r x
  else if x.lt y then fpOut r x else if y.lt x then fpOut r y else if r.getLsbD 0 then fpOut r x else fpOut r y

/-- The greater operand, likewise. -/
def fmax (r a b : Word) : Word :=
  let x := fpIn a
  let y := fpIn b
  if x = .nan then fpOut r y
  else if y = .nan then fpOut r x
  else if y.lt x then fpOut r x else if x.lt y then fpOut r y else if r.getLsbD 0 then fpOut r x else fpOut r y

/-- min(max(A, B), C). -/
def fclamp (r a b c : Word) : Word := fmin r (fmax r a b) c

/-- |A|: the sign cleared. -/
def fabs (a : Word) : Word := fpSign a false
where
  fpSign (a : Word) (s : Bool) : Word :=
    let m := if (a.toNat >>> 23) % 256 = 0 then 0#32 else a &&& 0x7FFFFFFF#32
    if s then m ||| 0x80000000#32 else m

/-- −A: the sign inverted. -/
def fneg (a : Word) : Word := fabs.fpSign a (!a.msb)

/-- The float conditions: LT, LE, EQ, NE, GE, GT; with an unordered operand NE alone is true. -/
def fcond (c : Nat) (a b : Word) : Bool :=
  let x := fpIn a
  let y := fpIn b
  match c with
  | 0 => x.lt y
  | 1 => x.lt y || x.eq y
  | 2 => x.eq y
  | 3 => !x.eq y
  | 4 => y.lt x || x.eq y
  | 5 => y.lt x
  | _ => false

/-! ### Q31 (R326) -/

/-- Saturation to a signed 32-bit word. -/
def sat32 (z : Int) : Word :=
  if z < -(2 ^ 31) then 0x80000000#32 else if 2 ^ 31 - 1 < z then 0x7FFFFFFF#32 else BitVec.ofInt 32 z

def qadd (a b : Word) : Word := sat32 (a.toInt + b.toInt)
def qsub (a b : Word) : Word := sat32 (a.toInt - b.toInt)

/-- (a × b + 2^30) >> 31, before saturation. -/
def qprod (a b : Word) : Int := (a.toInt * b.toInt + 2 ^ 30).fdiv (2 ^ 31)

def qmul (a b : Word) : Word := sat32 (qprod a b)
def qmac (a b c : Word) : Word := sat32 (qprod a b + c.toInt)
def qshl (a : Word) (k : Nat) : Word := sat32 (a.toInt * 2 ^ k)
def qshr (a : Word) (k : Nat) : Word := sat32 (a.toInt.fdiv (2 ^ k))
def qabs (a : Word) : Word := sat32 (if a.toInt < 0 then -a.toInt else a.toInt)

/-- The conditions on signed Q31 values. -/
def qcond (c : Nat) (a b : Word) : Bool :=
  match c with
  | 0 => a.toInt < b.toInt
  | 1 => a.toInt ≤ b.toInt
  | 2 => a = b
  | 3 => a ≠ b
  | 4 => b.toInt ≤ a.toInt
  | 5 => b.toInt < a.toInt
  | _ => false

/-! ### Conversions (R327, R274) -/

/-- A signed integer × 2^−k. -/
def i2f (a : Word) (k : Nat) : Word := fpOut 0 (.ofRat ((a.toInt : Rat) * pow2 (-(k : Int))))

/-- A / 2^31. -/
def q2f (a : Word) : Word := i2f a 31

/-- round(A × 2^31) with ties to even, saturated; NaN yields 0. -/
def f2q (a : Word) : Word :=
  match fpIn a with
  | .nan => 0
  | .inf s => if s then 0x80000000#32 else 0x7FFFFFFF#32
  | x => sat32 (rne (x.toRat * pow2 31))

/-- U1.31 of a port value: nearest, ties to even; 0 or below gives 0, 1.0 or above 0x8000_0000 (R274). -/
def u131 (q : Rat) : Word :=
  if q ≤ 0 then 0 else if 1 ≤ q then 0x80000000#32 else BitVec.ofInt 32 (rne (q * pow2 31))

/-! ### Real functions

The spec gives the source model as equations on real numbers and states no internal format. The model evaluates them on
rationals kept to 2^−64, with the functions below correct to better than 2^−50 (DESIGN CHOICE, log entry 21). -/

/-- A rational kept to 64 binary places. -/
def grid (q : Rat) : Rat := mkRat (rne (q * pow2 64)) (2 ^ 64)

/-- π to 40 decimal places. -/
def piR : Rat := mkRat 31415926535897932384626433832795028841972 (10 ^ 40)

/-- Square root. -/
def sqrtR (q : Rat) : Rat := grid (sqrtRat q)

/-- An angle brought into (−π, π]. -/
def wrapPi (q : Rat) : Rat :=
  let k := ((q - piR) / (2 * piR)).ceil
  q - 2 * piR * k

/-- An angle brought into [0, 2π). -/
def wrap2Pi (q : Rat) : Rat := q - 2 * piR * (q / (2 * piR)).floor

/-- Σ over the Taylor terms of the sine (from n = 1) or the cosine (from n = 0): term × (−x² / ((n+1)(n+2))). -/
def taylor : Nat → Rat → Nat → Rat → Rat
  | 0, _, _, _ => 0
  | k + 1, x2, n, t => t + taylor k x2 (n + 2) (grid (-(t * x2) / (((n + 1) * (n + 2) : Nat) : Rat)))

/-- Sine of a real number. -/
def sinR (q : Rat) : Rat :=
  let x := grid (wrapPi q)
  grid (taylor 18 (grid (x * x)) 1 x)

/-- Cosine of a real number. -/
def cosR (q : Rat) : Rat :=
  let x := grid (wrapPi q)
  grid (taylor 18 (grid (x * x)) 0 1)

/-- Σ of the series x − x³/3 + x⁵/5 − …, for small x. -/
def atanSeries : Nat → Rat → Nat → Rat → Rat
  | 0, _, _, _ => 0
  | k + 1, x2, n, t => t / (n : Rat) + atanSeries k x2 (n + 2) (grid (-(t * x2)))

/-- The arctangent of t in [0, 1]: three halvings of the angle bring the series' argument below 0.1. -/
def atan01 (t : Rat) : Rat :=
  let h := fun (x : Rat) => grid (x / (1 + sqrtR (1 + x * x)))
  let x := h (h (h t))
  8 * atanSeries 14 (grid (x * x)) 1 x

/-- The angle of the point (x, y), in (−π, π]; 0 at the origin. -/
def atan2R (y x : Rat) : Rat :=
  let ax := ratAbs x
  let ay := ratAbs y
  if ax = 0 ∧ ay = 0 then 0
  else
    let a := if ay ≤ ax then atan01 (ay / ax) else piR / 2 - atan01 (ax / ay)
    let a := if x < 0 then piR - a else a
    grid (if y < 0 then -a else a)

end Sys2Proof.Machine
end

