-- ==== Sys2Proof/Machine/State.lean ====
section
/-!
DEFINITION. Machine/State.lean: the state of the GF8 as plain data, and its value right after reset.

Every register field of the spec lives in the one register file `regs` (Machine/Regs.lean names the fields). The
structures below hold what the spec gives the machine besides: counts in progress, queues, memories, the position of
a sequence, the level of a pin.
-/
namespace Sys2Proof.Machine

/-- Why the machine stops. No command of the table stops it on a path that the spec gives an effect. -/
inductive Fault where
  /-- Raised by a command whose operands no sender can form (Sys2Proof.Instr.wf is false of it). Safe. -/
  | illFormed
  deriving DecidableEq, Repr

/-- Why a command has no meaning here. -/
inductive Refusal where
  /-- A row of the table whose meaning is not written. Safe. -/
  | notModelled (mnemonic : String)
  deriving DecidableEq, Repr

/-- What the last access returned to the one who sent it: the words of a read, whether the completion was an
error (bus error, Unsupported Request, Completer Abort or a discarded Malformed TLP), whether it stalls, and whether the
device does not answer at all (held in reset, P3, P4). -/
inductive Status where
  | ok | busError | unsupported | aborted | malformed | stalled | absent
  deriving DecidableEq, Repr

/-- The response of the last access (00 R1, R80 to R82). -/
structure Response where
  status : Status := .ok
  data : List Word := []
  deriving DecidableEq, Repr

/-- One word of an access: its aligned bus address, its byte enables, the data of a write. -/
structure AccWord where
  addr : Nat
  be : BitVec 4 := 0xF#4
  value : Word := 0
  deriving DecidableEq, Repr

/-- What a host port itself does for a request or a frame without a bus access: it refuses it with an error code, an address
and a completion (R68, R69, R76, R77), or answers STATUS or ID (R73). -/
inductive PortWork where
  | refused (code addr : Nat) (status : Status) (data : List Word)
  | status
  | ident
  deriving DecidableEq, Repr

/-- An access: who makes it, a write or a read, its words in address order (one, but for a BAR2 request, R954). It may wait for a
stopped clock domain (R80, R83). What a port answers itself waits in the same queue, behind the port's accesses (R66, R78); of an
abandoned READ word the answer is dropped (R78). -/
structure Access where
  ini : Initiator
  write : Bool
  words : List AccWord
  work : Option PortWork := none
  dropped : Bool := false
  deriving DecidableEq, Repr

/-- A host port (R63 to R87) beyond its page: the accesses that wait, oldest first, whether its line is active (for R113), the
MSIs it has sent. -/
structure Porch where
  waiting : List Access := []
  line : Bool := false
  msiSent : Nat := 0
  deriving DecidableEq, Repr

/-- The mode machine (R44 to R52) beyond `SYS`. -/
structure ModeState where
  /-- An accepted request (target, requester's identifier) that waits for the mode tick. -/
  request : Option (Nat × Nat) := none
  /-- The entry cause and the requester (none for a timeout) of a transition to READY that waits for the ports. -/
  ramp : Option (Nat × Option Nat) := none
  /-- The SAFE_STOP causes that wait for a mode tick: entry cause + 256 × source index (R39, R406), and CYC of the cause. -/
  causes : List (Nat × Word64) := []
  /-- A transition into or out of the forming modes waits for the first updates of the units in use (R193). -/
  settling : Bool := false
  deriving DecidableEq, Repr

/-- Clocks (17) beyond the `CLOCK` page. -/
structure ClockState where
  /-- SYSPLL relocks: a hop or a relock is under way, by band search or from a stored band. -/
  relocking : Bool := false
  bandSearch : Bool := false
  clnBandSearch : Bool := false
  /-- The spread committed, waiting for the next triangle, and the spread that runs: mode and depth. -/
  spreadMode : Nat := 0
  spreadDepth : Nat := 0
  /-- CYC when the domains went to their substitutes. -/
  substSince : Word64 := 0
  /-- SYSPLL relocks since it lost its lock (R854, R863). -/
  lockLoss : Bool := false
  /-- The root is absent since its loss was declared (R394, R869), or absent in reset (R876). -/
  rootAbsent : Bool := false
  /-- SYSPLL is powered down in P2 (R879). -/
  sysOff : Bool := false
  deriving DecidableEq, Repr

/-- Resets and power states (17) beyond `RESET` and `POWER`. -/
structure PowerState where
  /-- A reset condition holds the device (R870); RSTREQ_N's condition is one of them (R873). -/
  held : Bool := true
  rstreq : Bool := false
  /-- RSTREQ_N was declared stuck: it is ignored until it has been high; its interrupt waits for the end of BOOT (R873). -/
  ignoring : Bool := false
  stuckIrq : Bool := false
  /-- The power state, 0 to 4; P3 and P4 are never read back. -/
  state : Nat := 0
  /-- The target of a transition in progress, its P1 actions that wait for the mode tick, and whether they were taken (R879). -/
  target : Option Nat := none
  stopDue : Bool := false
  away : Bool := false
  /-- The snapshot that entry to P3 waits for (R579), and a wake event during the entry (R883). -/
  keepDue : Bool := false
  wakeDue : Option (Fin 3) := none
  deriving DecidableEq, Repr

/-- An image in force after boot (R900, R905, R908): its first instruction (R895), the first 16 bytes of its PAYLOAD_HASH; of the metrology
image the first 32 bytes of the SHA-512 of the image (R550, R551). -/
structure Image where
  type : Nat
  svn : Nat
  entry : Nat
  hash16 : List Byte
  hash32 : List Byte
  deriving DecidableEq, Repr

/-- A flash operation in progress (R925): its code, the RESULT it completes with, and the offset, Main SRAM address and length
that it took at GO. -/
structure FlashOp where
  code : Nat
  result : Nat
  off : Nat
  sram : Nat
  len : Nat
  deriving DecidableEq, Repr

/-- An open GO (R912, R921): the scopes and the duration asked for, KEYSEL, and whether the key and the signature verify. -/
structure AuthOpen where
  scope : Nat
  duration : Nat
  keanex : Bool
  ok : Bool
  deriving DecidableEq, Repr

/-- The security core, the Cellar and debug (18) beyond their pages. The OTP array holds 1 for a blown bit; the
flash store holds each byte XOR 0xFF, so an erased byte is not listed. -/
structure SecState where
  otp : Store 1 := []
  flash : Store 8 := []
  /-- The hashes of the two Keanex keys, which the Boot ROM holds (R896): the spec does not print them. -/
  keanex : List (List Byte) := (List.range 2).map fun k => (List.range 32).map (Config.keanexHash k)
  /-- A transition met OTP bits that disagree with its payload: only RETURN remains open (R892). -/
  conflict : Bool := false
  images : List Image := []
  /-- The Cellar command in progress: operation, the RESULT that it completes with, and its failing entry. -/
  cmd : Option (Nat × Nat × Nat) := none
  /-- GENERATION of the image set that a RAM_BOOT in progress starts. -/
  ramGen : Nat := 0
  /-- CYC when the challenge was placed; none when there is none or it was used (R912). -/
  challenge : Option Word64 := none
  /-- GO failures in a row (R913). -/
  failures : Nat := 0
  /-- The GO that is open (R912). -/
  auth : Option AuthOpen := none
  /-- CYC when the session opened and its duration in seconds. -/
  session : Option (Word64 × Nat) := none
  /-- A SUP or LOOP halt was made since reset (R908). -/
  haltSeen : Bool := false
  /-- Pairs halted by a lock-step mismatch (R25, R26). -/
  lsHaltA : Bool := false
  lsHaltB : Bool := false
  flashOp : Option FlashOp := none
  /-- The bytes READ_ID brings. -/
  flashId : Nat := 0
  /-- The CODE that the attestation in progress completes with (R908). -/
  attest : Option Nat := none
  deriving DecidableEq, Repr
/-- A harmonic slot (R167 to R171) beyond its registers: the extracted component in its frame, whether it is extracting, and
a decaying correction with the CYC at which its decay began and the order and sequence of its frame. -/
structure HarmSlot where
  live : Bool := false
  ire : Rat := 0
  iim : Rat := 0
  cre : Rat := 0
  cim : Rat := 0
  fadeFrom : Option Word64 := none
  fre : Rat := 0
  fim : Rat := 0
  forder : Nat := 0
  fseq : Nat := 0
  deriving DecidableEq, Repr

/-- One of the 18 inputs (R124 to R127): the result and its validity, whether it advanced since the last update, the updates
without an advance, and whether the input is lost. -/
structure FormInput where
  result : BitVec 24 := 0
  valid : Bool := false
  fresh : Bool := false
  stale : Nat := 0
  lost : Bool := false
  deriving DecidableEq, Repr

/-- From where the estimates settle (R188): CYC at the last start, step or return of the inputs, the angle, magnitude and frequency
that the inputs would have had there without it, and whether it is a step, which is seen in the extracted values some time behind it. -/
structure GridRef where
  at_ : Word64
  ang : Rat
  mag : Rat
  freq : Rat
  step : Bool
  deriving DecidableEq, Repr

/-- A Form Unit (03, 04) beyond its page. -/
structure FormUnit where
  /-- The gates of its PWM units are released (R192). -/
  gate : Bool := false
  inputs : Vector FormInput 18 := Vector.replicate 18 {}
  slots : Vector HarmSlot 24 := Vector.replicate 24 {}
  /-- What the limit of R170 scales every correction by. -/
  hscale : Rat := 1
  /-- The instant of the next update (R132, R134); none while the sequence is stopped or waits for the first boundary of
  RATE.SYNC_PWM. -/
  next : Option Word64 := none
  /-- The state of the source model, kept exactly: θ, ω, ω_w, p_e, q_e, E, |i|_f, R_c, X_c, v_d*, v_q* and the last
  inputs of the trapezoidal rule. -/
  theta : Rat := 0
  omega : Rat := 0
  omegaW : Rat := 0
  pe : Rat := 0
  qe : Rat := 0
  e : Rat := 0
  pPrev : Rat := 0
  qPrev : Rat := 0
  iPrev : Rat := 0
  imag : Rat := 0
  rc : Rat := 0
  xc : Rat := 0
  vd : Rat := 0
  vq : Rat := 0
  /-- Ramped set points (R152) and the synchronising offset (R197). -/
  pNow : Rat := 0
  qNow : Rat := 0
  vNow : Rat := 0
  fNow : Rat := 0
  dfs : Rat := 0
  /-- The instant of the last completed update (R139). -/
  tu : Word64 := 0
  /-- SYNC was entered from FORM_ISLAND (R197), and the ramp of a RAMP state has started (R232, R233). -/
  fromIsland : Bool := false
  ramping : Bool := false
  /-- The measured voltage angle of the last update (R162) and the capacitor-voltage angles of the last period, newest
  first, unwrapped (R227). -/
  angPrev : Rat := 0
  capAngles : List Rat := []
  /-- The estimator: angle, magnitude, frequency, the angle it had and CYC at the last period's end (R187, R189). -/
  gAng : Rat := 0
  gMag : Rat := 0
  gFreq : Rat := 1
  /-- Its inputs: the grid-side voltage (α, β) of the last updates, and the angle, magnitude and frequency extracted from them, newest
  first; from where the estimates settle; whether the last update coasted (R188, R956). -/
  gHist : List (Rat × Rat) := []
  gLast : List (Rat × Rat × Rat) := []
  gRef : Option GridRef := none
  gCoast : Bool := false
  gPrev : Option (Rat × Word64) := none
  /-- CYC since which the presence conditions (R191) and the windows of R201 have held; the grid is present. -/
  presentFrom : Option Word64 := none
  present : Bool := false
  permitFrom : Option Word64 := none
  angleStep : Bool := false
  /-- CYC at the mode tick of entry to SYNC (R207). -/
  syncFrom : Word64 := 0
  /-- MB_CLOSED and GRID_LOST as of the last mode tick (R181). -/
  mbClosed : Bool := false
  gridLost : Bool := false
  /-- The state the mode asks for and the unit has not entered yet (R193): the first update in it is still to come. -/
  target : Option Nat := none
  deriving DecidableEq, Repr

/-- The kind of hand-over that waits for an engine's next executed run (R281, R282). -/
inductive HandOver where
  | none | start | track
  deriving DecidableEq, Repr

/-- A run in progress (R313 to R319): program code as `STATUS.PROG` shows it, its START, the address of the next word and the
cycle in which it issues; start or tracking run; limit set; CYC of the run start. -/
structure LeRun where
  prog : Nat
  origin : Nat
  pc : Nat
  cycle : Nat := 1
  start : Bool := false
  track : Bool := false
  limset : Nat := 0
  at_ : Word64 := 0
  deriving DecidableEq, Repr

/-- A loop engine beyond its page and its data memory (05, 06). -/
structure LeUnit where
  g : Vector Word 64 := Vector.replicate 64 0
  /-- P1 to P5; the other predicates follow the run. -/
  p : BitVec 8 := 0
  /-- The values the program reads, copied at the run start: input slots, set points, `OPORTj.LAST`. -/
  inS : Vector Word 32 := Vector.replicate 32 0
  inSP : Vector Word 8 := Vector.replicate 8 0
  inL : Vector Word 8 := Vector.replicate 8 0
  /-- Front buffers of the set-point slots (R266). -/
  front : Vector Word 8 := Vector.replicate 8 0
  /-- Slots with a valid write since the previous run start (R259). -/
  adv : BitVec 32 := 0
  /-- Events of the selected source that the divider has not counted yet (R244), and source events counted (R246). -/
  owed : Nat := 0
  events : Nat := 0
  /-- An accepted trigger's run has not started; a trigger is held pending; the one that is due had been held (R249, R250). -/
  due : Bool := false
  held : Bool := false
  kept : Bool := false
  run : Option LeRun := .none
  hand : HandOver := .none
  /-- START of the program executed last, and the hand-over it needs. -/
  last : Option Nat := .none
  /-- A COEF_SWAP waits for the END of the run (R292); a stop waits for it (R298). -/
  swap : Bool := false
  stop : Bool := false
  /-- The blend: CYC of its tracking run, LAST of each port there, the ports that blend (R285). -/
  tb : Word64 := 0
  lastB : Vector Word 8 := Vector.replicate 8 0
  blend : BitVec 8 := 0
  /-- Latched by TRIP while stale (R261). -/
  trip : Bool := false
  /-- PREPROG of the engine's port sequencer in force: START and LIMSET (R487). -/
  pre : Option (Nat × Nat) := .none
  /-- The start run that waits is the one of PREPROG (R488). -/
  preStart : Bool := false
  /-- Debug halt of the engine, a run abandoned by it, and a tracking run due after its release (R916, R920). -/
  halted : Bool := false
  rel : Bool := false
  /-- The operands of the next issue failed once, or an armed error is due (R352). -/
  step : Bool := false
  deriving DecidableEq, Repr

/-- The Loop Program Store (06): words by address, their parity bits P_LO (bit 0) and P_HI (bit 1) (R322), data memories by
engine × 512 + word, the LOAD and the library copy in progress, banks loaded since the last accepted commit of each engine's
page (R345). -/
structure LpsState where
  words : Store 64 := []
  parity : Store 2 := []
  dmem : Store 32 := []
  load : Option (Nat × Nat × Nat) := .none
  lib : Option (Nat × Nat) := .none
  fresh : Vector (BitVec 16) 16 := Vector.replicate 16 0
  deriving DecidableEq, Repr

/-- A change of the side of a pair that is active: the other output turns off at `at_`, the named one (the main output or its
complement) turns on at `on` (R377). Instants are in fine steps of 31.25 ps of CYC's time, 128 to a tick (R366). -/
structure PwmSeg where
  at_ : Int
  on : Int
  main : Bool
  deriving DecidableEq, Repr

/-- A pair of a PWM unit (R374): the delay of its carrier, its coming boundaries, each with T of the period that starts there, T of the
period in progress, T of its falling half where a commit at the unit's mid-period point changes it (R383), the boundary that began the
period in progress, the length of that period, its mid-period point while that is to come, the changes of side placed so far (newest first), from when a lengthened period holds
its levels, by how much an extended interval delays the next period's first edge (R379), and whether an interval of the main
output and of the complement was adjusted in this period. -/
structure PwmPair where
  delay : Nat := 0
  due : List (Int × Nat) := []
  per : Nat := 800000
  fall : Option Nat := none
  at_ : Int := 0
  len : Nat := 800000
  mid : Option Int := none
  segs : List PwmSeg := []
  hold : Option Int := none
  ext : Nat := 0
  adjMain : Bool := false
  adjComp : Bool := false
  deriving DecidableEq, Repr

/-- A PWM unit beyond its page: staged compares (R364) and pairs; P of the period in progress; the coming boundaries of the
unit carrier, each with the P that it takes over under SRC 1 (R372), the mid-period point to come, the P that it takes over there for the
falling half, synchronisation events to come (R373); where each output may take an active safe level (R391); when the unit latch was set (R408); outputs that were driven safe
by the asynchronous path still wait for their active safe level (R394). -/
structure PwmUnit where
  cmp : Vector (BitVec 32) 8 := Vector.replicate 8 0
  pairs : Vector PwmPair 4 := Vector.replicate 4 {}
  per : Nat := 12500
  due : List (Int × Option Nat) := []
  mid : Option Int := none
  fall : Option Nat := none
  sync : List Int := []
  safeAt : Vector Int 8 := Vector.replicate 8 0
  tripAt : Word64 := 0
  rootWait : Bool := false
  deriving DecidableEq, Repr

/-- The Fusebox beyond its page: sources that became active while armed and have not acted yet (R403, R404); the filtered levels of
TRIP_I0 to TRIP_I15 (R401), high until the first TRIP_INPUT_EDGE (DESIGN CHOICE, log entry 47). -/
structure FuseState where
  edges : Nat := 0
  pins : BitVec 16 := 0xFFFF
  deriving DecidableEq, Repr

/-- The conversion in flight in a SAR unit. -/
inductive SarFlight where
  | none | regular | injected
  deriving DecidableEq, Repr

/-- A SAR unit (08 R419 to R445) beyond its page: the regular sequence in progress (slot, conversions done of it, their sum)
and the results of its finished slots; the injected one; a held injected trigger (R433); the runs of out- and in-window
evaluations of the two comparators; the tick at which the conversion in flight began (R434); events of the sources that REGTRIG and
INJTRIG select which have not reached the unit yet (R424). -/
structure SarUnit where
  flight : SarFlight := .none
  reg : Option (Nat × Nat × Nat) := none
  regRes : Vector (BitVec 16) 16 := Vector.replicate 16 0
  inj : Option Nat := none
  injRes : Vector (BitVec 16) 4 := Vector.replicate 4 0
  injWait : Bool := false
  out : Vector Nat 2 := Vector.replicate 2 0
  inn : Vector Nat 2 := Vector.replicate 2 0
  begun : Option Word64 := none
  owedReg : Nat := 0
  owedInj : Nat := 0
  deriving DecidableEq, Repr

/-- A channel of a delta-sigma filter bank (08 R446 to R473) beyond its page: the bits captured since measurement or the
clock returned, newest first after INVERT; identical bits in a row; bits captured since the last settling event; settling
after STUCK or NO_CLK (R460); bits of the window in progress (R453); selected events whose window end is to come, and the previous
one (R454, R455), in fine steps; runs of comparator evaluations. -/
structure DsfChan where
  bits : List Bool := []
  same : Nat := 0
  since : Nat := 0
  bad : Bool := false
  win : Nat := 0
  owed : List Int := []
  prev : Option Int := none
  out : Nat := 0
  inn : Nat := 0
  deriving DecidableEq, Repr

/-- A control-pilot channel (09 R518 to R528) beyond its page: samples of the period, the class that holds and for how many
periods, blank periods in a row, the GEN write that waits for the next period start and a later one with its CYC (R519); the start of the CP_Op period in progress and
for how many µs of it CP_Op is high, held low meanwhile or not (R521), the last rising and falling edges before it. -/
structure PilotChan where
  hiSum : Nat := 0
  hiCount : Nat := 0
  loSum : Nat := 0
  loCount : Nat := 0
  cls : Nat := 6
  held : Nat := 0
  blank : Nat := 0
  gen : Option Nat := none
  genLast : Option (Nat × Word64) := none
  start : Word64 := 0
  high : Nat := 0
  forced : Bool := true
  rise : Word64 := 0
  fall : Word64 := 0
  /-- State B was accepted since the last port tick (R534). -/
  newB : Bool := false
  deriving DecidableEq, Repr

/-- A port sequencer (09 R478 to R516) beyond its page: the command that waits for the port tick, with its writer; port ticks
since entry to the phase, since START_CHECK until phase 5, since START_PRECHARGE until phase 7; consecutive ticks of the
voltage condition of the phase, of insulation class FAULT, of PLUG_OK 0 and of an enable that reads back wrong; the window
of R506 and whether it is suspended (R508); stop cause 3 received; the lead's state for the next tick. -/
structure PortUnit where
  cmd : Option (Nat × Initiator) := none
  ticks : Nat := 0
  check : Option Nat := none
  pre : Option Nat := none
  match_ : Nat := 0
  iso : Nat := 0
  plug : Nat := 0
  wrong : Nat := 0
  opening : Option Nat := none
  susp : Bool := false
  ready : Bool := false
  copy : Option PortCopy := none
  deriving DecidableEq, Repr

/-- A metrology channel (10 R538 to R541): its bits, newest first, runs of identical bits, bits since the last settling
event, settling after STUCK or NO_CLK, no clock, and its last three results. -/
structure MetChan where
  bits : List Bool := []
  same : Nat := 0
  since : Nat := 0
  bad : Bool := true
  noClk : Bool := false
  res : Int := 0
  prev : Int := 0
  old : Int := 0
  deriving DecidableEq, Repr

/-- An open metering session: its identifier, the SEQ, registers, time, trust and CYC of its begin, invalid samples, peak
power, and whether a sample of it was invalid or saturated. -/
structure Session where
  id : Nat
  beginSeq : Nat
  imp : Nat
  exp : Nat
  timeS : Nat
  timeNs : Nat
  trust : Nat
  cyc : Nat
  invalid : Nat := 0
  peak : Rat := 0
  fault : Bool := false
  beyondRange : Bool := false
  deriving DecidableEq, Repr

/-- A meter (R537): registers in µWh and their 32 fractional bits, the session that is open and the one whose records are
in the Pantry, the STOP values and CYC of its last READING, flags since then, samples of the last 200 ms, newest first
(power, voltages, currents). -/
structure Meter where
  imp : Nat := 0
  impFrac : Nat := 0
  exp : Nat := 0
  expFrac : Nat := 0
  sess : Option Session := none
  stored : Option Session := none
  readImp : Nat := 0
  readExp : Nat := 0
  readCyc : Nat := 0
  readFault : Bool := false
  readOver : Bool := false
  hist : List (Rat × List Rat × List Rat) := []
  deriving DecidableEq, Repr

/-- A record latched at its record instant, not yet in the Pantry (R565). -/
structure PendRec where
  type : Nat
  meter : Nat
  session : Nat := 0
  seq : Nat
  impStart : Nat := 0
  expStart : Nat := 0
  impStop : Nat := 0
  expStop : Nat := 0
  timeS : Nat
  timeNs : Nat
  trust : Nat
  cyc : Nat
  cycStart : Nat
  status : Nat := 0
  data : List Byte := []
  /-- START_COUNT at the record instant (R555, R583), and whether its write was begun (R580). -/
  start : Nat
  begun : Bool := false
  /-- The record completes a command; the open session after it and before it, the meter's reading values before it. -/
  cmd : Bool := false
  after : Option Session := none
  before : Option Session := none
  read : Nat × Nat × Nat := (0, 0, 0)
  readFault : Bool := false
  readOver : Bool := false
  deriving DecidableEq, Repr

/-- A snapshot (R579): registers and fractions of each meter, sessions, flags since the last READING (R560), next SEQ, ACK_SEQ,
START_COUNT, LOST_INTERRUPTIONS, time, CYC and cause, and its HMAC. -/
structure Snapshot where
  regs : List (Nat × Nat × Nat × Nat)
  sessions : List (Option Session)
  flags : List (Bool × Bool)
  next : Nat
  ack : Option Nat
  startCount : Nat
  lost : Nat
  timeS : Nat
  timeNs : Nat
  trust : Nat
  cyc : Nat
  cause : Nat
  mac : List Byte := []
  deriving DecidableEq, Repr

/-- The Pantry memory (R570 to R572), outside the device and kept through power loss: record bytes by address, whether its
header is bound to this device's metrology key, the acknowledged SEQ, the snapshots, newest first. -/
structure PantryMem where
  bytes : Store 8 := []
  bound : Bool := false
  ack : Option Nat := none
  snaps : List Snapshot := []
  reads : List (Nat × Nat × Nat) := []
  deriving DecidableEq, Repr

/-- A command that waits for its record instant: OP, meter, SESSION, CYC of the write (R564, R565). -/
structure PantryCmd where
  op : Nat
  meter : Nat
  session : Nat
  at_ : Word64
  deriving DecidableEq, Repr

/-- The metrology partition (10 R535 to R586) beyond its pages. -/
structure MetroState where
  chan : Vector MetChan 24 := Vector.replicate 24 {}
  meter : Vector Meter 9 := Vector.replicate 9 {}
  /-- The calibration block in force, empty if there is none; a CFG is in force. -/
  cal : List Byte := []
  cfg : Bool := false
  cmd : Option PantryCmd := none
  /-- CYC of the mode tick of entry to SAFE_STOP whose session ends are due, and BEGIN_SEQ of the sessions open there (R568). -/
  ends : Option (Word64 × List Nat) := none
  pend : List PendRec := []
  /-- The restore waits for its records to be written (R582), and an acknowledgement for its store (R574). -/
  restoring : Bool := false
  ackDue : Bool := false
  /-- SEQ of the next record, hash of the last one, START_COUNT. -/
  next : Nat := 0
  prevHash : List Byte := []
  startCount : Nat := 0
  /-- Causes of snapshots that wait for a sample instant, the snapshots latched, oldest first, and whether the newest one written is later
  than the newest record (R586). -/
  snapDue : List Nat := []
  latched : List Snapshot := []
  fresh : Bool := false
  ackHi : Nat := 0xFFFFFFFF
  read : Option Nat := none
  /-- Partition SRAM (R896). -/
  sram : Store 8 := []
  deriving DecidableEq, Repr

/-- A safety channel (11 R602 to R604): the debounced level, the run of opposite samples, a check failure that has not
cleared, one of its source, own check samples passed in a row since, samples since the last failure, and the outputs at whose check sample it
read de-energised and whose pulse is not over yet. -/
structure SafeChan where
  deb : Bool := false
  run : Nat := 0
  fail : Bool := false
  src : Bool := false
  passes : Nat := 0
  sinceFail : Nat := 0
  cross : BitVec 4 := 0
  deriving DecidableEq, Repr

/-- A test-pulse output (R597 to R600): samples since the start of its pulse or masked time and the width of the pulse; CYC of
that start; the pulse itself; the run of de-energised samples outside it. -/
structure TestOut where
  pulse : Option (Nat × Nat) := none
  start : Word64 := 0
  low : Bool := false
  lowRun : Nat := 0
  deriving DecidableEq, Repr

/-- A pair (R607 to R611): discrepancy counter, the state DISC was entered from, the cause of a channel fault that waits for
the safety tick, a write of ACK that waits for it. -/
structure PairUnit where
  count : Nat := 0
  from_ : Nat := 0
  cause : Nat := 0
  ack : Bool := false
  deriving DecidableEq, Repr

/-- A supervisor watchdog (R624, R625): the counter, whether 0x5A is expected, CYC of the last accepted write. -/
structure Wdog where
  count : Nat := 0
  next5A : Bool := false
  last : Word64 := 0
  deriving DecidableEq, Repr

/-- A frame channel (R616 to R618): the compare window (port of the accepted copy, its bytes 0 to 7), the watchdog
counter. -/
structure NetChan where
  win : Option (Fin 2 × List Byte) := none
  wd : Nat := 0
  /-- CYC of the last acceptance (R616, R632). -/
  took : Option Word64 := none
  deriving DecidableEq, Repr

/-- The safety block (11) beyond its pages; channel checks are not made after a silent failure of the lead (R785) until an
instant of CYC; since a loss of the inter-die link SAFEIO was committed again in CONFIG (R596); CYC of the period in which the schedule of the
last commit begins (R632). -/
structure SafetyState where
  chan : Vector SafeChan 24 := Vector.replicate 24 {}
  tp : Vector TestOut 4 := Vector.replicate 4 {}
  pair : Vector PairUnit 8 := Vector.replicate 8 {}
  wdog : Vector Wdog 2 := Vector.replicate 2 {}
  net : Vector NetChan 8 := Vector.replicate 8 {}
  skip : Bool := false
  skipUntil : Option Word64 := none
  again : Bool := false
  pulsesFrom : Nat := 0
  deriving DecidableEq, Repr

/-- What a leg carries out in one switching period of its axis (12 R640, R641): CYC at the axis's period start, the length, and in
5 ns steps from that start: the low side on from `low` to `on` and again from `tail`; the high side on in `high`, dead time included;
the end `off` of the commanded high-side interval. -/
structure LegCmd where
  start : Word64
  per : Nat
  low : Rat
  on : Rat
  high : Option (Rat × Rat)
  off : Rat
  tail : Rat
  deriving DecidableEq, Repr

/-- How a leg left RUN or BRAKE (R667 to R671, R675): CYC; the last CYC at which a fault detected behind it still counts; how long the
high side and the low side had been on, in 5 ns steps (none: off). -/
structure LegLeft where
  cyc : Word64
  last : Word64
  high : Option Rat
  low : Option Rat
  deriving DecidableEq, Repr

/-- A leg of the integrated drivers (12 R639 to R673) beyond its page: whether its codes were adaptive when they were last
set (R650), the bound at which a PINNED code stands (true: the upper one), the phase of its diagnostics, the sink code of
its last turn-off on a fault, the switching period in progress and the one before it, CYC at the start of the last refresh pulse,
the CYC at which the last low-side interval of at least WIDTH ends (R653); CYC at which GD_BOOT_UV clears (R655); CYC at entry to BRAKE
and the 5 ns steps from there to the low side's turn-on (R641); how it last left RUN or BRAKE, or lost its high side. -/
structure LegUnit where
  srcAd : Bool := false
  snkAd : Bool := false
  srcTop : Bool := false
  snkTop : Bool := false
  diag : Nat := 0
  offSink : Nat := 0
  cmd : Option LegCmd := none
  prev : Option LegCmd := none
  pulse : Option Word64 := none
  lastLow : Nat := 0
  mend : Option Word64 := none
  brake : Option (Word64 × Rat) := none
  left : Option LegLeft := none
  deriving DecidableEq, Repr

/-- The Chimney (R656 to R663, R670) beyond its page: a rest of the chopper is under way; the last leg fault, its leg and
CYC. -/
structure ChimneyState where
  rest : Bool := false
  last : Option (Fin 12 × Word64) := none
  deriving DecidableEq, Repr

/-- An axis (13) beyond its page: commanded position, velocity and acceleration, exact; the command that waits for the
profile tick, with its writer; what MOVE follows (a target, or a jog velocity); a STOP, a DISABLE and the constant
deceleration of a limit stop with its limit in progress; travel since entry to MOVE or HOMING and the run of evaluations at
or above the threshold; the step target, coarse steps that wait for the profile tick (sign and CYC), CYC of the last one and
the rate; the gear's origin (M0, P0) and queue; position and travel at the last profile tick; CYC of the last FAULT by a
stall and of the last STOP; the master count at the last period start in GEAR and its speed over the period before, in counts per second. -/
structure AxisUnit where
  pos : Rat := 0
  vel : Rat := 0
  acc : Rat := 0
  cmd : Option (Nat × Initiator) := none
  target : Int := 0
  jog : Option Rat := none
  stop : Bool := false
  disable : Bool := false
  limit : Option (Rat × Option Rat) := none
  travel : Rat := 0
  run : Nat := 0
  stepTo : Rat := 0
  steps : List (Bool × Word64) := []
  lastStep : Option Word64 := none
  rate : Rat := 0
  m0 : Int := 0
  p0 : Rat := 0
  queue : List (Nat × Nat) := []
  seen : Rat × Rat := (0, 0)
  stalled : Option Word64 := none
  stopAt : Word64 := 0
  mSeen : Option Int := none
  mSpeed : Rat := 0
  deriving DecidableEq, Repr

/-- The running reductions of one slot over the bin in progress (R724, R725): last, least and greatest sample, whether a
sample was NaN, and the binary64 sums of the samples and of their squares. -/
structure BinAcc where
  last : Word := 0
  min : Word := 0
  max : Word := 0
  nan : Bool := false
  sum : Fp := .fin false 0
  sq : Fp := .fin false 0
  deriving DecidableEq, Repr

/-- A trigger unit beyond its registers (R733, R734): the values seen, newest first; the width of the pulse in progress; a
runt under way; updates since the last crossing; whether the timeout was decided. -/
structure TrigUnit where
  hist : List Fp := []
  width : Nat := 0
  runt : Bool := false
  since : Nat := 0
  timedOut : Bool := false
  deriving DecidableEq, Repr

/-- A capture channel beyond its registers (R722 to R745). -/
structure CapUnit where
  /-- Sample events since START; counted events (CYC, time in ns, trust) whose latch is still to come. -/
  events : Nat := 0
  due : List (Word64 × Nat × Nat) := []
  /-- The bin in progress: samples taken, reductions, an invalid sample, the trigger sample. -/
  samples : Nat := 0
  acc : Vector BinAcc 32 := Vector.replicate 32 {}
  invalid : Bool := false
  trigBin : Bool := false
  /-- The segment: PRE and POST_EFF in force for it, next ring slot, frames written, frames from the trigger frame on. -/
  pre : Nat := 0
  postEff : Nat := 0
  clamped : Bool := false
  ring : Nat := 0
  written : Nat := 0
  post : Nat := 0
  /-- The number, from 1, of the segment's last frame with INVALID (R731). -/
  lastBad : Nat := 0
  /-- A trigger that was not acted on was counted since the last latch (R750). -/
  counted : Bool := false
  missedBefore : Nat := 0
  missedNext : Nat := 0
  /-- The trigger accepted: its sample is not latched yet; units that decided; FORCE; accepted in FILL; CYC, time and
  trust; frames kept before it and the ring slot of the trigger frame; triggers in POST. -/
  wait : Bool := false
  units : BitVec 8 := 0
  forced : Bool := false
  short : Bool := false
  tcyc : Option (Word64 × Nat × Nat) := none
  preCount : Nat := 0
  first : Nat := 0
  retrig : Nat := 0
  deriving DecidableEq, Repr

/-- The Attic (14) beyond its page: memory by word, signal slots, trigger units, capture channels, and the TRIG lines this
device pulls, each with the CYC at which the pull ends. -/
structure AtticState where
  mem : Store 32 := []
  value : Vector Word 32 := Vector.replicate 32 0
  valid : BitVec 32 := BitVec.allOnes 32
  seen : BitVec 32 := 0
  trg : Vector TrigUnit 8 := Vector.replicate 8 {}
  cap : Vector CapUnit 8 := Vector.replicate 8 {}
  pull : Vector (Option Word64) 4 := Vector.replicate 4 none
  deriving DecidableEq, Repr

/-- What a member knows of a member of the set (15 R770 to R778): its STATE frame of the set cycle, vote instants in a row
without one and with it in a mismatch, its TAKEOVER_READY. -/
structure Peer where
  frame : Option StateFrame := none
  miss : Nat := 0
  bad : Nat := 0
  ready : Bool := false
  /-- The join phase of its last STATE frame, 0 where it does not join (R794). -/
  phase : Nat := 0
  deriving DecidableEq, Repr

/-- What a lane sent in the last release: its frames with their link sequence numbers, oldest first; CYC of that release; frames in a row
received that failed their check (R757 to R759). -/
structure LaneUnit where
  sent : List (BitVec 16 × TwFrame) := []
  at_ : Word64 := 0
  failed : Nat := 0
  deriving DecidableEq, Repr

/-- Redundancy (15) beyond its pages. -/
structure RedunState where
  peer : Vector Peer 3 := Vector.replicate 3 {}
  /-- The lanes, and the link sequence number of the next frame sent. -/
  lane : Vector LaneUnit 4 := Vector.replicate 4 {}
  seq : BitVec 16 := 0
  /-- Members whose frames were held at the last vote, and members this device excluded (R770, R778). -/
  view : BitVec 3 := 0
  excluded : BitVec 3 := 0
  /-- CYC at entry to holdover (R766). -/
  holdFrom : Word64 := 0
  /-- Readback mismatch in the set cycle just ended (R776). -/
  rb : Bool := false
  /-- Link sequence numbers received of late, by partner (R759). -/
  seen : List (Fin 3 × BitVec 16) := []
  /-- Reads of each stream in this set cycle and in the one before (R790, R791). -/
  reads : Vector Nat 8 := Vector.replicate 8 0
  readsPrev : Vector Nat 8 := Vector.replicate 8 0
  /-- The set cycle that `reads` counts in (R798). -/
  readsAt : Nat := 0
  /-- ALIVE_O, and whether a self-report or a leave stopped it (R777). -/
  alive : Bool := false
  aliveStop : Bool := false
  /-- Members this device is isolated from (R782). -/
  isolated : BitVec 3 := 0
  /-- A CYCMARK was taken; set cycles that agreed since (R764). -/
  marked : Bool := false
  agree : Nat := 0
  /-- A swap: its target and set cycle (R787). CYC of the takeover by this member (R783). -/
  swap : Option (Fin 3 × Nat) := none
  /-- The lead role came by a swap since the last mode tick: a request written on the former lead still applies to the set (R798). -/
  heir : Bool := false
  took : Option Word64 := none
  /-- What a swap has not passed yet: PWM units and pilot lines a former lead still drives, port ticks until it lowers its
  enables; pilot lines and enables the new lead does not drive yet. -/
  passPwm : BitVec 16 := 0
  passCp : Bool := false
  passCdo : Nat := 0
  holdCp : Bool := false
  holdCdo : Bool := false
  /-- DS_CK nets that this member rescued (R784). -/
  rescued : BitVec 4 := 0
  /-- Vote instants in a row without a mismatch in phase VERIFY; a frame from a lead since the last vote, and vote instants without one
  (R793). -/
  verify : Nat := 0
  leadHeard : Bool := false
  leadless : Nat := 0
  /-- The result that the transfer in progress completes with (R796). -/
  xfer : Option Nat := none
  deriving DecidableEq, Repr

/-- A time-output schedule (16 R836 to R839): its next instant in 2^−42 ns, whether it fired since its commit, TIME_On. -/
structure Schedule where
  next : Nat := 0
  fired : Bool := false
  out : Bool := false
  /-- CYC at which TIME_On falls, WIDTH ticks after the event (R837). -/
  until_ : Word64 := 0
  deriving DecidableEq, Repr

/-- A change of TIME that the next tick applies (R831, R832, R834): to an instant, by a number of 2^−42 ns. -/
inductive TimeChange where
  | set (t : Nat)
  | by_ (d : Int)
  /-- By the pending jump, as it is then (R840). -/
  | pending
  deriving DecidableEq, Repr

/-- The PTP block (16 R821 to R840) beyond its page: TIME in 2^−42 ns, what the next tick does to it, the pending jump in the same unit, OFFSET in ps,
offsets in a row within and outside LOCK_NS, a two-step Sync that waits for its Follow_Up (sequence number, t2 in ps,
correctionField in 2^−16 ns), by port the egress time of a Pdelay_Req without its response and the requests in a row without
one, the schedules. -/
structure PtpState where
  time : Nat := 0
  todo : List TimeChange := []
  pend : Int := 0
  offset : Int := 0
  good : Nat := 0
  bad : Nat := 0
  sync : Option (Fin 2 × PtpMsg × Rat) := none
  /-- The sequence number of the next Pdelay_Req of each port (R829). -/
  reqSeq : Vector (BitVec 16) 2 := Vector.replicate 2 0
  req : Vector (Option Rat) 2 := Vector.replicate 2 none
  missed : Vector Nat 2 := Vector.replicate 2 0
  sched : Vector Schedule 4 := Vector.replicate 4 {}
  deriving DecidableEq, Repr

/-- What an Ethernet port sent last: the bytes without tag or trailer and FCS, the tag or trailer, what was added to its
correctionField in 2^−16 ns (R828, R830), the origin time that was inserted (R828), whether its FCS was inverted (R816), and the 802.1Q
tag that the port adds to a PTP frame: VID and PCP (R825, R842). -/
structure Sent where
  bytes : List Byte
  red : RedTag
  corr : Rat := 0
  origin : Option (Nat × Nat) := none
  badFcs : Bool := false
  vlan : Option (BitVec 12 × BitVec 3) := none
  deriving DecidableEq, Repr

/-- A Clause 22 access on MDIO (R807, R842): a write or a read, the PHY, its register, the data of a write. -/
structure MdioAccess where
  write : Bool
  phy : BitVec 5
  reg : BitVec 5
  data : BitVec 16
  deriving DecidableEq, Repr

/-- The Ethernet switch (16 R806 to R820) beyond its page: learned addresses with their port (2 is the host port), frames
delivered to the host and sent on a ring port of late (source, sequence number, CYC), the device's sequence count, the node
table, ring ports on which the device's own supervision frames returned, the MDIO access in progress, the last frame on each port. -/
structure EthState where
  table : List (BitVec 48 × Fin 3) := []
  delivered : List (BitVec 48 × BitVec 16 × Word64) := []
  sent : List (Fin 2 × BitVec 48 × BitVec 16 × Word64) := []
  seq : BitVec 16 := 0
  nodes : List (BitVec 48) := []
  ring : BitVec 2 := 0
  mdio : Option MdioAccess := none
  /-- What each port's SGMII line reports (R807). -/
  sense : Vector LinkSense 2 := Vector.replicate 2 {}
  line : Vector (Option Sent) 2 := Vector.replicate 2 none
  /-- The transmit queue whose frame is in transmission, and the ports whose link went down during it (R818, R820). -/
  tx : Option (Fin 4 × BitVec 2) := none
  deriving DecidableEq, Repr

/-- The state of the device. -/
structure State where
  /-- The commands that wait, first in, first out. -/
  pending : List Instr := []
  /-- CYC, the count of ticks (R39). -/
  cyc : Word64 := 0
  /-- The model's own count of free values drawn so far (log entry 3). -/
  free : Nat := 0
  /-- The register file: each field's value XOR its reset value, keyed by its bit address. -/
  regs : Store 32 := []
  /-- The staged values of RWS fields (R104): 2^32 + (value XOR reset value). -/
  staged : Store 33 := []
  /-- The accepted set of a commit that waits for its page's boundary (R106), in the same form. -/
  committed : Store 33 := []
  /-- The response of the last access. -/
  resp : Response := {}
  /-- Accesses of on-chip initiators that stall on a stopped clock domain, oldest first (R83). -/
  stalled : List Access := []
  /-- The completions, in their order, of accesses that had waited, of the last command that completed some (R66, R80, R83). -/
  late : List (Initiator × Response) := []
  /-- Main SRAM by byte address, and its 64-bit words that hold a correctable or an uncorrectable error (R30). -/
  sram : Store 8 := []
  sramCe : List Nat := []
  sramUe : List Nat := []
  porchA : Porch := {}
  porchB : Porch := {}
  modes : ModeState := {}
  clk : ClockState := {}
  pwr : PowerState := {}
  sec : SecState := {}
  form : Vector FormUnit 2 := Vector.replicate 2 {}
  le : Vector LeUnit 16 := Vector.replicate 16 {}
  lps : LpsState := {}
  pwm : Vector PwmUnit 16 := Vector.replicate 16 {}
  fuse : FuseState := {}
  sar : Vector SarUnit 6 := Vector.replicate 6 {}
  dsf : Vector DsfChan 48 := Vector.replicate 48 {}
  /-- Measurement runs: the DSF channels and pilot periods have started (R453). -/
  measuring : Bool := false
  pilot : Vector PilotChan 8 := Vector.replicate 8 {}
  port : Vector PortUnit 8 := Vector.replicate 8 {}
  metro : MetroState := {}
  pantry : PantryMem := {}
  safety : SafetyState := {}
  leg : Vector LegUnit 12 := Vector.replicate 12 {}
  chimney : ChimneyState := {}
  axis : Vector AxisUnit 4 := Vector.replicate 4 {}
  /-- The levels of ENC_Ae and ENC_Be after the filter (R710): bit 0 A, bit 1 B. -/
  encAB : Vector (BitVec 2) 5 := Vector.replicate 5 0
  attic : AtticState := {}
  redun : RedunState := {}
  ptp : PtpState := {}
  eth : EthState := {}
  deriving DecidableEq, Repr

/-- The machine right after reset (R8, R871): every register field at the value its table gives (an empty `regs`), every
memory without an entry, power-on reset still holding the device. -/
def State.reset : State := {}

end Sys2Proof.Machine
end

