-- ==== Sys2Proof/Machine/Ops.lean ====
section
/-!
DEFINITION. Machine/Ops.lean: the named operations over the register file, the staged sets, the memories and the free
values. Every read and every write of a register field goes through `State.rd` and `State.wr`.
-/
namespace Sys2Proof.Machine

/-! ### The register file -/

/-- The reset value of a field, in place on its page (the instance number is the low digit of the page number, on
the only pages whose table uses it: LE0 to LE15 at 0x010). -/
def resetValue (pg : Nat) (f : Fld) (i : Nat) : Nat := f.reset (pg % 16) i

/-- The value in force of instance `i` of field `f` on page number `pg` (R1). -/
def State.rd (s : State) (pg : Nat) (f : Fld) (i : Nat := 0) : Nat :=
  ((s.regs.get (f.key pg i)) ^^^ BitVec.ofNat 32 (resetValue pg f i)).toNat

/-- Put value `v`, cut to the field's width, into force. -/
def State.wr (s : State) (pg : Nat) (f : Fld) (i : Nat) (v : Nat) : State :=
  let x := BitVec.ofNat 32 (v % 2 ^ f.width) ^^^ BitVec.ofNat 32 (resetValue pg f i)
  { s with regs := s.regs.put (f.key pg i) x }

/-- `rd` of a one-bit field. -/
def State.flag (s : State) (pg : Nat) (f : Fld) (i : Nat := 0) : Bool := s.rd pg f i ≠ 0

/-- `wr` of a one-bit field. -/
def State.setFlag (s : State) (pg : Nat) (f : Fld) (i : Nat) (b : Bool) : State := s.wr pg f i (bit01 b)

/-- The signed value of a field. -/
def State.rdInt (s : State) (pg : Nat) (f : Fld) (i : Nat := 0) : Int := signedOf f.width (s.rd pg f i)

/-- Count one, saturating at the field's width. -/
def State.bump (s : State) (pg : Nat) (f : Fld) (i : Nat := 0) : State :=
  s.wr pg f i (satInc f.width (s.rd pg f i))

/-- Count one, wrapping at the field's width. -/
def State.wrapBump (s : State) (pg : Nat) (f : Fld) (i : Nat := 0) : State :=
  s.wr pg f i (s.rd pg f i + 1)

/-- Set or clear bit `b` of a field. -/
def State.putBit (s : State) (pg : Nat) (f : Fld) (i b : Nat) (v : Bool) : State :=
  s.wr pg f i (putBitOf (s.rd pg f i) b v)

/-- Write a 64-bit count to a LO and HI pair of registers. -/
def State.wr64 (s : State) (pg : Nat) (lo hi : Fld) (i v : Nat) : State :=
  (s.wr pg lo i v).wr pg hi i (v / 2 ^ 32)

/-- Read a LO and HI pair of registers. -/
def State.rd64 (s : State) (pg : Nat) (lo hi : Fld) (i : Nat := 0) : Nat :=
  s.rd pg lo i + 2 ^ 32 * s.rd pg hi i

/-! ### Staged sets and commits (R104 to R107) -/

/-- Stage value `v` of an RWS field; it replaces a value staged before (R104). -/
def State.stage (s : State) (pg : Nat) (f : Fld) (i : Nat) (v : Nat) : State :=
  let x := BitVec.ofNat 33 (2 ^ 32) ||| BitVec.ofNat 33 (v % 2 ^ f.width ^^^ resetValue pg f i)
  { s with staged := s.staged.put (f.key pg i) x }

/-- Whether a field holds a staged value. -/
def State.isStaged (s : State) (pg : Nat) (f : Fld) (i : Nat := 0) : Bool := s.staged.get (f.key pg i) ≠ 0

/-- The value that would be in force after a commit of the page: the staged value, else that of an accepted set which waits
for its boundary, else the value in force. -/
def State.merged (s : State) (pg : Nat) (f : Fld) (i : Nat := 0) : Nat :=
  let x := s.staged.get (f.key pg i)
  let y := s.committed.get (f.key pg i)
  if x ≠ 0 then (x.toNat % 2 ^ 32) ^^^ resetValue pg f i
  else if y ≠ 0 then (y.toNat % 2 ^ 32) ^^^ resetValue pg f i
  else s.rd pg f i

/-- Whether key `k` of the register file lies on page `pg`. -/
def keyOnPage (pg k : Nat) : Bool := pg * 4096 * 32 ≤ k && k < (pg + 1) * 4096 * 32

/-- A page holds uncommitted fields: a value is staged, or an accepted set waits for its boundary (R955). -/
def State.uncommitted (s : State) (pg : Nat) : Bool :=
  s.staged.any (fun e => keyOnPage pg e.1) || s.committed.any (fun e => keyOnPage pg e.1)

/-- No page holds uncommitted fields and none has COMMIT_PENDING at 1 (R955). -/
def State.allCommitted (s : State) : Bool :=
  s.staged.isEmpty && s.committed.isEmpty &&
    pageTable.all fun p => !p.staged || (List.range p.count).all fun i => !s.flag (p.base + i) FORM.STATUS_COMMIT_PENDING

/-- Put every entry of the accepted set of page `pg` in force, as one (R106). -/
def State.applySet (s : State) (pg : Nat) : State :=
  { s with
    regs := (s.committed.filter fun e => keyOnPage pg e.1).foldl
      (fun m e => m.put e.1 (BitVec.ofNat 32 e.2.toNat)) s.regs
    committed := s.committed.filter fun e => !keyOnPage pg e.1 }

/-- Move the staged set of page `pg` into the accepted sets (R106: what is staged later waits for a later
commit, R107). -/
def State.acceptSet (s : State) (pg : Nat) : State :=
  { s with
    committed := (s.staged.filter fun e => keyOnPage pg e.1).foldl (fun m e => m.put e.1 e.2) s.committed
    staged := s.staged.filter fun e => !keyOnPage pg e.1 }

/-- Discard what a page that resets had staged or accepted. -/
def State.dropSets (s : State) (pg : Nat) : State :=
  { s with
    committed := s.committed.filter fun e => !keyOnPage pg e.1
    staged := s.staged.filter fun e => !keyOnPage pg e.1 }

/-- Every field of page `pg` at its reset value (R8). -/
def State.resetPage (s : State) (pg : Nat) : State :=
  { s.dropSets pg with regs := s.regs.clearRange (pg * 4096 * 32) ((pg + 1) * 4096 * 32) }

/-! ### Free values -/

/-- A value the spec leaves open, fresh at each use. -/
def State.freshWord (s : State) : BitVec 32 × State := (Config.freeWord s.free, { s with free := s.free + 1 })

/-! ### Initiators and modes -/

/-- The owner identifier of an initiator (02 The Keyrack); 0xFF, as `CFG_ERROR.INITIATOR` shows it, for one that
has none. -/
def ownerId : Initiator → Nat
  | .porchA => 0x01
  | .porchB => 0x02
  | .supA => 0x10
  | .supB => 0x11
  | .sec => 0x20
  | _ => 0xFF

/-- Whether an initiator has an owner identifier and can hold keys (R88). -/
def hasId (ini : Initiator) : Bool := ownerId ini ≠ 0xFF

/-- Whether an initiator is a host port. -/
def isHost : Initiator → Bool
  | .porchA | .porchB => true
  | _ => false

/-- The initiator of a host port. -/
def portIni : HostPort → Initiator
  | .A => .porchA
  | .B => .porchB

/-- The page number of a host port. -/
def portPg : HostPort → Nat
  | .A => PORCH.pg 0
  | .B => PORCH.pg 1

/-- The router target of a host port (R110). -/
def portTarget : HostPort → Nat
  | .A => 0
  | .B => 1

/-- The mode codes of R42. -/
abbrev mBOOT : Nat := 1
abbrev mCONFIG : Nat := 2
abbrev mREADY : Nat := 3
abbrev mSYNC : Nat := 4
abbrev mGRID : Nat := 5
abbrev mISLAND : Nat := 6
abbrev mSAFE : Nat := 7

/-- `SYS.MODE.MODE`. -/
def State.mode (s : State) : Nat := s.rd SYS.pg SYS.MODE_MODE

/-- SYNC, FORM_GRID or FORM_ISLAND. -/
def State.forming (s : State) : Bool := s.mode = mSYNC || s.mode = mGRID || s.mode = mISLAND

/-- FORM_GRID or FORM_ISLAND. -/
def State.formMode (s : State) : Bool := s.mode = mGRID || s.mode = mISLAND

/-- CONFIG to FORM_ISLAND, the modes from which SAFE_STOP is entered (R44). -/
def State.stoppable (s : State) : Bool := mCONFIG ≤ s.mode && s.mode ≤ mISLAND

/-- The states of R800. -/
abbrev rALONE : Nat := 0
abbrev rJOINING : Nat := 1
abbrev rMEMBER : Nat := 2
abbrev rOUT : Nat := 3

def State.memState (s : State) : Nat := s.rd REDUN.pg REDUN.STATUS_STATE
def State.setSize (s : State) : Nat := s.rd REDUN.pg REDUN.CFG_SET
def State.memberId (s : State) : Fin 3 := Fin.ofNat 3 (s.rd REDUN.pg REDUN.ROLE_MEMBER)
def State.leadId (s : State) : Nat := s.rd REDUN.pg REDUN.ROLE_LEAD_ID
def State.isLead (s : State) : Bool := s.flag REDUN.pg REDUN.STATUS_LEAD
def State.present (s : State) (m : Nat) : Bool := bitOf (s.rd REDUN.pg REDUN.STATUS_PRESENT) m
def State.putPresent (s : State) (m : Nat) (b : Bool) : State := s.putBit REDUN.pg REDUN.STATUS_PRESENT 0 m b
def State.memberCount (s : State) : Nat := (List.range 3).countP fun m => s.present m

def State.peer (s : State) (m : Fin 3) : Peer := s.redun.peer[m]

/-- The successor of lead `m` (R782), given which members are ready: the other member in duplex, the next VOTER in triplex. -/
def State.successor (s : State) (m : Nat) : Option Nat :=
  let ready := fun k => k ≠ m && s.present k &&
    (if k = s.memberId.val then s.flag REDUN.pg REDUN.STATUS_TAKEOVER_READY else (s.peer (Fin.ofNat 3 k)).ready)
  if s.setSize = 2 then [(m + 1) % 3, (m + 2) % 3].find? ready else [1 - m].find? ready

/-- A member that does not lead (R774). -/
def State.follower (s : State) : Bool := s.memState = rMEMBER && !s.isLead

/-- The device is a member of a redundant set (R774 to R780). -/
def State.inSet (s : State) : Bool := s.rd REDUN.pg REDUN.STATUS_STATE = 2

/-- The member left the set, or joins one (R780, R794): it drives none of the set's nets. -/
def State.outOfSet (s : State) : Bool := s.memState = rOUT || s.memState = rJOINING

/-- A frame of the lane itself: every lane that is on sends it, up or not (R757, R758). -/
def laneFrame : TwFrame → Bool
  | .idle _ | .ping _ | .echo _ => true
  | _ => false

/-- Lane `l` sends: it is enabled, outside BOOT (R757, R943). -/
def State.laneOn (s : State) (l : Nat) : Bool := s.flag (TWITOS.pg l) TWITOS.CTRL_EN && s.mode ≠ mBOOT

/-- Frames leave on lane `l`, numbered from `seq` (R758): those for a partner where it is up (R759). They are counted, and the lane keeps those
of its last release. -/
def State.sendOn (s : State) (l : Fin 4) (seq : BitVec 16) (fs : List TwFrame) : State :=
  if s.flag (TWITOS.pg l) TWITOS.STATUS_UP || (s.laneOn l && fs.all laneFrame) then
    let n := (s.rd (TWITOS.pg l) TWITOS.FRAMES_TX_COUNT + fs.length) % 2 ^ 32
    let s := s.wr (TWITOS.pg l) TWITOS.FRAMES_TX_COUNT 0 n
    let x := { s.redun.lane[l] with sent := fs.zipIdx.map fun e => (seq + BitVec.ofNat 16 e.2, e.1), at_ := s.cyc }
    { s with redun := { s.redun with lane := s.redun.lane.set l x } }
  else s

/-- Frames are released on the lanes of `on`: each has one link sequence number on all of them (R759). -/
def State.sendTo (s : State) (on : Fin 4 → Bool) (fs : List TwFrame) : State :=
  let q := s.redun.seq
  let s := (List.finRange 4).foldl (fun s (l : Fin 4) => if on l then s.sendOn l q fs else s) s
  { s with redun := { s.redun with seq := q + BitVec.ofNat 16 fs.length } }

/-- Frames for every partner leave on every up lane (R759). -/
def State.sendAll (s : State) (fs : List TwFrame) : State := s.sendTo (fun _ => true) fs

/-- A SAFE_STOP cause with its source index (R39, R45), `ago` ticks back. In SAFE_STOP it is counted at once; from CONFIG to
FORM_ISLAND it waits for the mode tick; in BOOT it has no effect on the mode (R44). -/
def State.safeStopAt (s : State) (cause src ago : Nat) : State :=
  if s.mode = mSAFE then s.bump SYS.pg SYS.SAFE_STOP_CAUSE_COUNT
  else if s.stoppable then
    { s with modes := { s.modes with causes := s.modes.causes ++ [(cause + 256 * src, s.cyc - BitVec.ofNat 64 ago)] } }
  else s

/-- The Fusebox latches source `src`, and `SELF_MASK` names it: what it stops is a self-reported cause (R775, R779). -/
def State.selfCause (s : State) (src : Nat) : Bool :=
  52 ≤ src && bitOf (s.rd REDUN.pg REDUN.SELF_MASK_SRC) (src - 52) && mREADY ≤ s.mode && s.mode ≤ mSAFE &&
    s.flag FUSE.pg FUSE.MAP_EN src && !s.flag FUSE.pg FUSE.MAP_CYCLE src

/-- A cause on this device: a member sends it to the others, but where `self` says that it is a self-reported one (R775). -/
def State.safeStop (s : State) (cause src : Nat) (self : Bool := false) : State :=
  let s := if s.inSet && s.mode ≠ mSAFE && s.stoppable && !self then
      s.sendAll [.fault s.memberId false (BitVec.ofNat 8 cause) (Fin.ofNat 64 src)] else s
  s.safeStopAt cause src 0

/-! ### Interrupts (R109 to R114) -/

/-- Page number `pg` asserts its router source: `IRQ_STATUS` AND `IRQ_ENABLE` is not zero (R110). -/
def State.pageAsserts (s : State) (pg : Nat) : Bool :=
  (s.rd pg HDR.IRQ_STATUS_BITS) &&& (s.rd pg HDR.IRQ_ENABLE_BITS) ≠ 0

/-- The page that drives router source `src`. -/
def pageOfSource (src : Nat) : Option Nat :=
  pageTable.findSome? fun p =>
    match p.irqSource with
    | some q => if q ≤ src ∧ src < q + p.count then some (p.base + (src - q)) else none
    | none => none

/-- Router source `src` is asserted: its page's, or a doorbell (192 to 255). -/
def State.sourceAsserted (s : State) (src : Nat) : Bool :=
  if 192 ≤ src then
    if src < 224 then bitOf (s.rd IRQ.pg IRQ.DB_STATUS_LO_DB) (src - 192)
    else bitOf (s.rd IRQ.pg IRQ.DB_STATUS_HI_DB) (src - 224)
  else match pageOfSource src with
    | some pg => s.pageAsserts pg
    | none => false

/-- Source `src` is asserted and routed to target `t`. -/
def State.pendingAt (s : State) (t src : Nat) : Bool :=
  bitOf (s.rd IRQ.pg IRQ.ROUTE_TARGETS src) t && s.sourceAsserted src

/-- The line of target `t` is active (R111). -/
def State.lineActive (s : State) (t : Nat) : Bool := (List.range 256).any fun src => s.pendingAt t src

/-- The level of INT_A_N or INT_B_N (R111). -/
def State.intN (s : State) (p : HostPort) : Bool := !s.lineActive (portTarget p)

def State.porch (s : State) : HostPort → Porch
  | .A => s.porchA
  | .B => s.porchB

def State.setPorch (s : State) (p : HostPort) (x : Porch) : State :=
  match p with
  | .A => { s with porchA := x }
  | .B => { s with porchB := x }

/-- A port sends MSIs: PCI Express mode with MSI enabled (R113). -/
def State.msiOn (s : State) (p : HostPort) : Bool :=
  !s.flag (portPg p) PORCH.LINK_MODE && s.flag (portPg p) PORCH.LINK_MSI_EN

/-- A port sends one MSI when its line becomes active (R113). -/
def State.msiPort (s : State) (p : HostPort) : State :=
  if s.msiOn p then
    let a := s.lineActive (portTarget p)
    let x := s.porch p
    s.setPorch p { x with line := a, msiSent := if a && !x.line then x.msiSent + 1 else x.msiSent }
  else s

/-- MSIs that a change of the sources or routes causes. -/
def State.msi (s : State) : State := (s.msiPort .A).msiPort .B

/-- Cause `b` of page `pg` occurs: its `IRQ_STATUS` bit is set (R109). -/
def State.irq (s : State) (pg b : Nat) : State := (s.putBit pg HDR.IRQ_STATUS_BITS 0 b true).msi

/-- `irq` where a condition holds. -/
def State.irqIf (s : State) (c : Bool) (pg b : Nat) : State := if c then s.irq pg b else s

/-! ### Refused writes (R101, R103) -/

/-- `CFG_ERROR` of page `pg` records a refused write: code, register offset, initiator. -/
def State.cfgErr (s : State) (pg code off : Nat) (ini : Initiator) : State :=
  ((s.wr pg HDR.CFG_ERROR_CODE 0 code).wr pg HDR.CFG_ERROR_OFFSET 0 off).wr pg HDR.CFG_ERROR_INITIATOR 0 (ownerId ini)

/-- `STATUS`[31] of every page with staged fields (R102). -/
def commitPendingFld : Fld := FORM.STATUS_COMMIT_PENDING

/-- The commit of page `pg` has taken effect: COMMIT_PENDING returns to 0 (R106) and COMMIT_DONE occurs. -/
def State.commitDone (s : State) (pg : Nat) : State :=
  match pageOf pg with
  | some (p, _) =>
    let s := s.wr pg commitPendingFld 0 0
    match p.commitIrq with
    | some b => s.irq pg b
    | none => s
  | none => s

/-- A commit of page `pg` waits for its boundary. -/
def State.commitPending (s : State) (pg : Nat) : Bool := s.flag pg commitPendingFld

/-- The boundary of page `pg`: an accepted set takes effect (R106). -/
def State.boundary (s : State) (pg : Nat) : State :=
  if s.commitPending pg then (s.applySet pg).commitDone pg else s

/-! ### Main SRAM (R30 to R32, R953) -/

/-- Base and size of the bus regions of R115. -/
abbrev sramBase : Nat := 0x10000000
abbrev sramSize : Nat := 0x400000
abbrev secureBase : Nat := 0x103C0000

/-- Byte at a bus address of Main SRAM. -/
def State.byteAt (s : State) (a : Nat) : Byte := s.sram.get a

/-- The index of the 64-bit ECC word of a Main SRAM bus address. -/
def eccWord (a : Nat) : Nat := (a - sramBase) / 8

/-- `n` bytes of Main SRAM from bus address `a`. -/
def State.bytesAt (s : State) (a n : Nat) : List Byte := (List.range n).map fun i => s.byteAt (a + i)

/-- Store bytes from bus address `a` on, without a check. -/
def State.pokeBytes (s : State) (a : Nat) : List Byte → State
  | [] => s
  | b :: bs => State.pokeBytes { s with sram := s.sram.put a b } (a + 1) bs

/-- An uncorrectable error at bus address `a` (R32). -/
def State.eccUe (s : State) (a : Nat) : State :=
  ((s.bump SYS.pg SYS.ECC_UE_COUNT_COUNT).wr SYS.pg SYS.ECC_LAST_ADDR_ADDR 0 a).wr SYS.pg SYS.STATUS_ECC_UE_SEEN 0 1

/-- The ECC word of bus address `a` is read: a correctable error is counted and written back (R31), an uncorrectable one
is counted and recorded, and answers false (R32). -/
def State.eccCheck (s : State) (a : Nat) : Bool × State :=
  if s.sramUe.contains (eccWord a) then (false, s.eccUe a)
  else if s.sramCe.contains (eccWord a) then
    (true, { s.bump SYS.pg SYS.ECC_CE_COUNT_COUNT with sramCe := s.sramCe.filter (· ≠ eccWord a) })
  else (true, s)

/-- A 32-bit read of Main SRAM; `none` is a bus error. -/
def State.sramRead (s : State) (a : Nat) : Option Word × State :=
  let (ok, s) := s.eccCheck a
  if ok then (some (BitVec.ofNat 32 (ofLeBytes (s.bytesAt a 4))), s) else (none, s)

/-- A write of the enabled bytes of a 32-bit word of Main SRAM; false is a bus error (R953). -/
def State.sramWrite (s : State) (a : Nat) (be : BitVec 4) (v : Word) : Bool × State :=
  let (ok, s) := s.eccCheck a
  if ok then
    (true, (List.range 4).foldl (fun s i => if be.getLsbD i then { s with sram := s.sram.put (a + i) (BitVec.ofNat 8 (v.toNat >>> (8 * i))) } else s) s)
  else (false, s)

/-- A write of whole aligned 64-bit words from bus address `a` on: new data and new check bits, no read (R953). -/
def State.sramWrite64 (s : State) (a : Nat) (bs : List Byte) : State :=
  let ws := (List.range ((bs.length + 7) / 8)).map fun k => eccWord a + k
  let s := s.pokeBytes a bs
  { s with sramUe := s.sramUe.filter (fun w => !ws.contains w), sramCe := s.sramCe.filter (fun w => !ws.contains w) }

/-- A 64-bit read of Main SRAM by the device itself; `none` where the word holds an uncorrectable error. -/
def State.sramRead64 (s : State) (a : Nat) : Option (BitVec 64) × State :=
  let (ok, s) := s.eccCheck a
  if ok then (some (BitVec.ofNat 64 (ofLeBytes (s.bytesAt a 8))), s) else (none, s)

/-- Whether `n` bytes from bus address `a` lie in Main SRAM below the region of R28. -/
def inSram (a n : Nat) : Bool := sramBase ≤ a && a + n ≤ secureBase

/-! ### Main SRAM as the device's own engines reach it (R30 to R32, R953) -/

/-- The 64-bit words of Main SRAM that `n` bytes from `a` on touch. -/
def eccWords (a n : Nat) : List Nat := (List.range ((a % 8 + n + 7) / 8)).map fun i => a / 8 * 8 + 8 * i

/-- `n` bytes from `a` on; none where a word of them holds an uncorrectable error (R31, R32). -/
def State.dmaRead (s : State) (a n : Nat) : Option (List Byte) × State :=
  let (ok, s) := (eccWords a n).foldl (fun (x : Bool × State) w =>
    let (ok, s) := x.2.eccCheck w
    (x.1 && ok, s)) (true, s)
  (if ok then some (s.bytesAt a n) else none, s)

/-- The device writes the bytes from `a` on that lie in one 64-bit word of Main SRAM: a whole word with new check bits, a part of one
after its check; false where that finds an uncorrectable error, and the part is discarded (R953). -/
def State.dmaPiece (s : State) (a : Nat) (bs : List Byte) : Bool × State :=
  if bs.length = 8 then (true, s.sramWrite64 a bs)
  else
    let (ok, s) := s.eccCheck a
    (ok, if ok then s.pokeBytes a bs else s)

/-- The device writes bytes to Main SRAM, one write for each 64-bit word. False where a word's write was discarded. -/
def State.dmaStore (s : State) (a : Nat) (bs : List Byte) : Bool × State :=
  let first := eccWord a
  (List.range (eccWord (a + bs.length + 7) - first)).foldl (fun (x : Bool × State) k =>
    let lo := max a (sramBase + (first + k) * 8)
    let hi := min (a + bs.length) (sramBase + (first + k + 1) * 8)
    let (ok, s) := x.2.dmaPiece lo ((bs.drop (lo - a)).take (hi - lo))
    (x.1 && ok, s)) (true, s)

/-- A write by an engine that reaches no further than hosts do (R28). False where a byte lies elsewhere too. -/
def State.dmaWrite (s : State) (a : Nat) (bs : List Byte) : Bool × State :=
  if !inSram a bs.length then (false, s) else s.dmaStore a bs

/-! ### The Keyrack (R88 to R99) -/

/-- The holder of key `n`, 0 if it is free. -/
def State.holder (s : State) (n : Nat) : Nat := s.rd KEYRACK.pg KEYRACK.KEY_BITS n

/-- Whether an initiator holds key `n`. -/
def State.holds (s : State) (ini : Initiator) (n : Nat) : Bool := hasId ini && s.holder n = ownerId ini

/-- Release key `n`. -/
def State.freeKey (s : State) (n : Nat) : State := s.wr KEYRACK.pg KEYRACK.KEY_BITS n 0

/-- Release every key that owner `id` holds (R93, R99). -/
def State.freeKeysOf (s : State) (id : Nat) : State :=
  (List.range 64).foldl (fun s n => if s.holder n = id then s.freeKey n else s) s

/-! ### Clock domains (R846) -/

/-- The domains that run in each power state (R846, R879): bit numbers as in `CLOCK.DOMSTAT`. -/
def State.domainRuns (s : State) (d : Nat) : Bool :=
  match s.pwr.state with
  | 0 | 1 => true
  | 2 => d = 0 || d = 3 || d = 4 || d = 5 || d = 7 || d = 9
  | 3 => d = 9
  | _ => false

/-- Ticks of CYC since instant `t`. -/
def State.since (s : State) (t : Word64) : Nat := (s.cyc - t).toNat

/-- The SAFE_STOP causes that act at this mode tick: in a set those at least 1 µs old (R775). -/
def State.causeDue (s : State) (c : Nat × Word64) : Bool := !s.inSet || 250 ≤ s.since c.2
def State.dueCauses (s : State) : List Nat := (s.modes.causes.filter s.causeDue).map (·.1)

end Sys2Proof.Machine
end

