-- ==== Sys2Proof/Machine/Otp.lean ====
section
/-!
DEFINITION. Machine/Otp.lean: the OTP array (18 R890, R891) and the keys that it holds (R907).
-/
namespace Sys2Proof.Machine

/-- The first `n` bytes of the SHA-512 of a message. -/
def hashBytes (n : Nat) (m : List Byte) : List Byte := (sha512 m).take n

/-- An OTP bit: bits 16 to 79 are the device UID, burnt at the production test (R891); an unlisted bit is not burnt. -/
def State.otpBit (s : State) (i : Nat) : Bool :=
  if 16 ≤ i ∧ i < 80 then Config.uid.getLsbD (i - 16) else s.sec.otp.get i = 1

/-- Burn an OTP bit: it can only change from 0 to 1. -/
def State.otpBurn (s : State) (i : Nat) : State := { s with sec := { s.sec with otp := s.sec.otp.put i 1 } }

/-- Burn the ones of `n` bits of a number from bit `at_` on. -/
def State.otpBurnBits (s : State) (at_ n v : Nat) : State :=
  (List.range n).foldl (fun s i => if v.testBit i then s.otpBurn (at_ + i) else s) s

/-- The byte at bit `at_`, least significant bit first. -/
def State.otpByte (s : State) (at_ : Nat) : Byte :=
  BitVec.ofNat 8 ((List.range 8).foldl (fun n i => n + if s.otpBit (at_ + i) then 2 ^ i else 0) 0)

/-- `n` bytes from bit `at_` on. -/
def State.otpBytes (s : State) (at_ n : Nat) : List Byte := (List.range n).map fun i => s.otpByte (at_ + 8 * i)

/-- Burn bytes from bit `at_` on. -/
def State.otpBurnBytes (s : State) (at_ : Nat) : List Byte → State
  | [] => s
  | b :: bs => (s.otpBurnBits at_ 8 b.toNat).otpBurnBytes (at_ + 8) bs

/-- A payload agrees with every bit that is already blown (R892). -/
def State.otpAgrees (s : State) (at_ : Nat) : List Byte → Bool
  | [] => true
  | b :: bs => ((List.range 8).all fun i => !s.otpBit (at_ + i) || b.toNat.testBit i) && s.otpAgrees (at_ + 8) bs

/-- Number of burnt bits from `at_` on. -/
def State.otpCount (s : State) (at_ n : Nat) : Nat := (List.range n).countP fun i => s.otpBit (at_ + i)

/-- Lifecycle group `g`, 1 to 3, is blown: at least three of its four bits (R890). -/
def State.groupBlown (s : State) (g : Nat) : Bool := 3 ≤ s.otpCount (4 * (g - 1)) 4

/-- The lifecycle codes of R889. -/
abbrev lcBLANK : Nat := 0
abbrev lcPROVISIONED : Nat := 1
abbrev lcSEALED : Nat := 2
abbrev lcRETURNED : Nat := 3

/-- The lifecycle that the OTP array holds (R890). -/
def State.lifecycle (s : State) : Nat :=
  if s.groupBlown 3 then lcRETURNED else if s.groupBlown 2 then lcSEALED else if s.groupBlown 1 then lcPROVISIONED else lcBLANK

/-- The places of R891. -/
abbrev otpUid : Nat := 16
abbrev otpOwner0 : Nat := 128
abbrev otpOwner1 : Nat := 384
abbrev otpDebug : Nat := 640
abbrev otpIdentity : Nat := 896
abbrev otpMetro : Nat := 1152
abbrev otpCounters : Nat := 1408
abbrev otpEpochs : Nat := 1664
abbrev otpSeal : Nat := 2048

/-- The device UID (R891). -/
def State.uid (s : State) : Nat := ofLeBytes (s.otpBytes otpUid 8)

/-- The seeds of the identity key and of the metrology key (R907): what PROVISION burns is a key from its completion on (R894). -/
def State.seedAt (s : State) (at_ : Nat) : List Byte := if s.lifecycle = lcBLANK then List.replicate 32 0 else s.otpBytes at_ 32
def State.identitySeed (s : State) : List Byte := s.seedAt otpIdentity
def State.metroSeed (s : State) : List Byte := s.seedAt otpMetro

/-- The snapshot key (R907). -/
def State.snapshotKey (s : State) : List Byte := (List.range 32).map (Config.snapshotKey s.identitySeed)

/-- The epoch: burnt epoch bits (R583). -/
def State.epoch (s : State) : Nat := s.otpCount otpEpochs 255

/-- The seal block of R550: calibration block, `PANTRY.CFG`, metrology image hash. -/
def State.sealedCal (s : State) : List Byte := s.otpBytes otpSeal 296
def State.sealedCfg (s : State) : Nat := ofLeBytes (s.otpBytes (otpSeal + 2368) 2)
def State.sealedHash (s : State) : List Byte := s.otpBytes (otpSeal + 2384) 32

end Sys2Proof.Machine
end

