-- ==== Sys2Proof/Machine/Attic.lean ====
section
/-!
DEFINITION. Machine/Attic.lean: the disturbance recorder (14 R720 to R753): signal slots, trigger units, capture
channels, segments and the directory.
-/
namespace Sys2Proof.Machine

/-! ### Precision time as the recorder reads it -/

/-- TIME in nanoseconds (R821). -/
def State.timeNow (s : State) : Nat := s.ptp.time / 2 ^ 42

/-- The trust flags of R562. -/
def State.trustBits (s : State) : Nat :=
  bit01 (s.flag PTP.pg PTP.STATUS_TRUSTED) + 2 * bit01 (s.flag PTP.pg PTP.STATUS_LOCKED) +
    4 * bit01 (s.flag PTP.pg PTP.STATUS_OFFSET_OK) + 8 * bit01 (s.flag PTP.pg PTP.STATUS_NO_JUMP) +
    16 * bit01 (s.flag PTP.pg PTP.STATUS_TIME_SET)

/-- CYC, time and trust of an event (R731). -/
def State.stamp (s : State) : Word64 × Nat × Nat := (s.cyc, s.timeNow, s.trustBits)

/-! ### Accessors -/

def State.cap (s : State) (n : Fin 8) : CapUnit := s.attic.cap[n]
def State.setCap (s : State) (n : Fin 8) (c : CapUnit) : State :=
  { s with attic := { s.attic with cap := s.attic.cap.set n c } }

/-- A word of Attic memory. -/
def State.atticPoke (s : State) (w v : Nat) : State :=
  { s with attic := { s.attic with mem := s.attic.mem.put w (BitVec.ofNat 32 v) } }

def State.capState (s : State) (n : Nat) : Nat := s.rd ATTIC.pg ATTIC.CAP_STAT_STATE n

/-- The states of R737. -/
abbrev capSTOPPED : Nat := 0
abbrev capFILL : Nat := 1
abbrev capARMED : Nat := 2
abbrev capPOST : Nat := 3
abbrev capREARM : Nat := 4
abbrev capFULL : Nat := 5

def State.setCapState (s : State) (n st : Nat) : State :=
  let s := s.wr ATTIC.pg ATTIC.CAP_STAT_STATE n st
  s.putBit ATTIC.pg ATTIC.STATUS_RUNNING 0 n (st ≠ capSTOPPED && st ≠ capFULL)

/-! ### Segment geometry (R727 to R730, R738) -/

/-- Number of set bits below bit `k`. -/
def popCount (k n : Nat) : Nat := (List.range k).countP fun i => n.testBit i

def State.frameWords (s : State) (n : Nat) : Nat :=
  1 + popCount 32 (s.rd ATTIC.pg ATTIC.CAP_SIGMASK_SIG n) * popCount 5 (s.rd ATTIC.pg ATTIC.CAP_BIN_RED n)

def State.segWords (s : State) (n : Nat) : Nat :=
  s.rd ATTIC.pg ATTIC.CAP_REGION_PAGES n * 1024 / s.rd ATTIC.pg ATTIC.CAP_SEGS_NSEG n

def State.capacity (s : State) (n : Nat) : Nat := s.segWords n / s.frameWords n

/-- First word of segment `g` of channel `n`. -/
def State.segBase (s : State) (n g : Nat) : Nat := s.rd ATTIC.pg ATTIC.CAP_REGION_BASE_PAGE n * 1024 + s.segWords n * g

/-- First word of directory entry `e` (R728). -/
def dirWord (e : Nat) : Nat := 0x78000 + 16 * e

/-- The reported figures of channel `n` follow its committed registers. -/
def State.capFigures (s : State) (n : Nat) : State :=
  let c := s.capacity n
  let pre := s.rd ATTIC.pg ATTIC.CAP_PRE_FRAMES n
  let post := s.rd ATTIC.pg ATTIC.CAP_POST_FRAMES n
  let s := s.wr ATTIC.pg ATTIC.CAP_FRAME_WORDS_WORDS n (s.frameWords n)
  let s := s.wr ATTIC.pg ATTIC.CAP_CAPACITY_FRAMES n c
  let s := s.wr ATTIC.pg ATTIC.CAP_POST_EFF_FRAMES n (min post (c - pre))
  s.setFlag ATTIC.pg ATTIC.CAP_STAT_CLAMPED n (c - pre < post)

/-! ### Segments (R737 to R745) -/

/-- Enter segment `NEXT`: its directory entry loses VALID, PRE and POST are those in force now (R743, R752, R741). -/
def State.openSegment (s : State) (n : Fin 8) : State :=
  let c := s.cap n
  let g := s.rd ATTIC.pg ATTIC.CAP_STAT_NEXT n
  let e := dirWord (s.rd ATTIC.pg ATTIC.CAP_SEGS_DIR_BASE n + g)
  let pre := s.rd ATTIC.pg ATTIC.CAP_PRE_FRAMES n
  let s := s.atticPoke e (clearBitOf (s.attic.mem.get e).toNat 0)
  let s := s.setCap n
    { events := c.events, due := c.due, samples := c.samples, acc := c.acc, invalid := c.invalid, trigBin := false,
      pre := pre, postEff := s.rd ATTIC.pg ATTIC.CAP_POST_EFF_FRAMES n,
      clamped := s.flag ATTIC.pg ATTIC.CAP_STAT_CLAMPED n, missedBefore := c.missedNext }
  s.setCapState n (if pre = 0 then capARMED else capFILL)

/-- Complete the directory entry of the segment in progress (R731), stopped before its trigger frame or after it (R745); TIME_S is 0 when
no time is set. -/
def State.closeSegment (s : State) (n : Fin 8) (trunc : Bool) : State :=
  let c := s.cap n
  let e := dirWord (s.rd ATTIC.pg ATTIC.CAP_SEGS_DIR_BASE n + s.rd ATTIC.pg ATTIC.CAP_STAT_NEXT n)
  let (cyc, time, trust) := c.tcyc.getD s.stamp
  let pre := min c.written c.pre
  let cap := s.capacity n
  let (before, first) := if c.post = 0 then (pre, (c.ring + cap - pre % (cap + 1)) % max 1 cap) else (c.preCount, c.first)
  let status := 1 + 2 * bit01 c.short + 4 * bit01 c.clamped + 8 * bit01 trunc + 16 * bit01 c.forced +
    32 * bit01 (c.lastBad ≠ 0 && c.written - c.lastBad < before + c.post) + 256 * c.units.toNat
  let sec := if bitOf trust 4 then time / 1000000000 else 0
  let ws := [status, before, c.post, first, cyc.toNat, cyc.toNat / 2 ^ 32, sec, sec / 2 ^ 32, time % 1000000000,
    trust, s.rd ATTIC.pg ATTIC.CAP_SEG_COUNT_COUNT n, c.retrig, c.missedBefore]
  let s := ws.zipIdx.foldl (fun s x => s.atticPoke (e + x.2) x.1) s
  let s := s.wrapBump ATTIC.pg ATTIC.CAP_SEG_COUNT_COUNT n
  let next := (s.rd ATTIC.pg ATTIC.CAP_STAT_NEXT n + 1) % s.rd ATTIC.pg ATTIC.CAP_SEGS_NSEG n
  (s.wr ATTIC.pg ATTIC.CAP_STAT_NEXT n next).irq ATTIC.pg 0

/-- SEGMENT_COMPLETE (R741, R743). -/
def State.segmentComplete (s : State) (n : Fin 8) : State :=
  if s.capState n ≠ capREARM then s
  else
    let lastSeg := s.rd ATTIC.pg ATTIC.CAP_STAT_NEXT n + 1 = s.rd ATTIC.pg ATTIC.CAP_SEGS_NSEG n
    let s := s.closeSegment n false
    if lastSeg && !s.flag ATTIC.pg ATTIC.CAP_CFG_FULL_MODE n then (s.setCapState n capFULL).irq ATTIC.pg 1
    else s.openSegment n

/-- Stop channel `n` (R745). -/
def State.capStop (s : State) (n : Fin 8) : State :=
  let st := s.capState n
  let s := if st = capPOST then s.closeSegment n true else if st = capREARM then s.closeSegment n false else s
  (s.setCap n {}).setCapState n capSTOPPED

/-- Stop every channel (R745). -/
def State.atticStop (s : State) : State := (List.finRange 8).foldl (fun s (n : Fin 8) => s.capStop n) s

/-- START (R744): FILL at segment `NEXT`. -/
def State.capStart (s : State) (n : Fin 8) : State := (s.setCap n {}).openSegment n

/-- CLEAR (R744): VALID cleared in every entry of the channel; NEXT = 0; STOPPED. -/
def State.capClear (s : State) (n : Fin 8) : State :=
  let base := s.rd ATTIC.pg ATTIC.CAP_SEGS_DIR_BASE n
  let s := (List.range (s.rd ATTIC.pg ATTIC.CAP_SEGS_NSEG n)).foldl
    (fun s g => s.atticPoke (dirWord (base + g)) (clearBitOf (s.attic.mem.get (dirWord (base + g))).toNat 0)) s
  (s.wr ATTIC.pg ATTIC.CAP_STAT_NEXT n 0).setCapState n capSTOPPED

/-! ### Triggers reaching a channel (R736, R739 to R742, R747, R750) -/

/-- Pull TRIG line `l` low until CYC `t`; a pull in progress lasts to the later end (R747). -/
def State.pullTrig (s : State) (l : Fin 4) (w10ns : Nat) : State :=
  let t := s.cyc + BitVec.ofNat 64 ((w10ns * 5 + 1) / 2)
  let t := match s.attic.pull[l] with
    | some u => if t < u then u else t
    | none => t
  { s with attic := { s.attic with pull := s.attic.pull.set l (some t) } }

/-- A trigger that is not acted on goes into its counter, once for all decisions before one latch (R750). -/
def State.capCount (s : State) (n : Fin 8) (f : State → State) : State :=
  if (s.cap n).counted then s else f (s.setCap n { s.cap n with counted := true })

/-- A trigger of channel `n`: decided by the units of `units`, or FORCE; `at_` is CYC and time of a trigger that is no
signal's (R732). -/
def State.capTrigger (s : State) (n : Fin 8) (units : BitVec 8) (force : Bool) (at_ : Option (Word64 × Nat × Nat)) : State :=
  let c := s.cap n
  let st := s.capState n
  if st = capFILL || st = capARMED then
    if s.flag ATTIC.pg ATTIC.CAP_CFG_WATCH n && c.written < c.pre then
      s.capCount n fun s => s.bump ATTIC.pg ATTIC.CAP_MISSED_EARLY n
    else
      let s := s.setCap n { c with wait := true, units := units, forced := force, short := st = capFILL, tcyc := at_ }
      let s := s.setCapState n capPOST
      if s.flag ATTIC.pg ATTIC.CAP_CFG_TRIGOUT_EN n then
        s.pullTrig (Fin.ofNat 4 (s.rd ATTIC.pg ATTIC.CAP_CFG_TRIGOUT_LINE n)) (s.rd ATTIC.pg ATTIC.CAP_CFG_TRIGOUT_WIDTH n)
      else s
  else if st = capPOST then
    if c.wait then s.setCap n { c with units := c.units ||| units, forced := c.forced || force }
    else s.capCount n fun s => s.setCap n { s.cap n with retrig := satInc 32 c.retrig }
  else if st = capREARM then
    s.capCount n fun s =>
      ((s.setCap n { s.cap n with missedNext := satInc 32 c.missedNext }).bump ATTIC.pg ATTIC.CAP_MISSED_MISSED n).irq ATTIC.pg 2
  else s

/-- Trigger unit `t` decides: every channel that selects it takes the trigger (R736). -/
def State.trgDecide (s : State) (t : Fin 8) (at_ : Option (Word64 × Nat × Nat)) : State :=
  (List.finRange 8).foldl (fun s (n : Fin 8) =>
    if bitOf (s.rd ATTIC.pg ATTIC.CAP_TRGMASK_UNITS n) t then s.capTrigger n (BitVec.twoPow 8 t) false at_ else s) s

/-! ### Trigger units (R733 to R735) -/

/-- Whether slot `k` holds binary32 values. -/
def State.sigFloat (s : State) (k : Nat) : Bool :=
  let kind := s.rd ATTIC.pg ATTIC.SIG_KIND k
  kind = 4 || kind = 5 || (kind = 6 && s.flag ATTIC.pg ATTIC.SIG_FLOAT k)

/-- A slot value as a number: binary32, or a signed integer. -/
def sigNum (float : Bool) (w : Word) : Fp := if float then .ofBits w.toNat else .ofRat w.toInt

/-- The same as binary32 (R733). -/
def sigX (float : Bool) (w : Word) : Fp := if float then .ofBits w.toNat else .ofBits (f32 w.toInt).toNat

/-- `x` is beyond A (R733). -/
def beyond (pol : Bool) (a x : Fp) : Bool := if pol then x.lt a else a.lt x || a.eq x

/-- One evaluation of a trigger unit of KIND 1 to 6 with value `x`: the decision and the new history. -/
def trgEval (kind : Nat) (pol : Bool) (cond t1 t2 : Nat) (a b : Fp) (u : TrigUnit) (x : Fp) : Bool × TrigUnit :=
  let bx := beyond pol a x
  let above := beyond false a x
  let u' := { u with hist := (x :: u.hist).take 17 }
  match kind with
  | 1 => ((match u.hist with
    | y :: _ => bx && !beyond pol a y
    | [] => false), u')
  | 2 => (bx, u')
  | 3 =>
    if bx then (false, { u' with width := u.width + 1 })
    else
      let w := u.width
      let hit := match cond with
        | 0 => w < t1
        | 1 => t1 < w
        | 2 => t1 ≤ w && w ≤ t2
        | _ => w < t1 || t2 < w
      (0 < w && hit, { u' with width := 0 })
  | 4 =>
    let aboveB := beyond false b x
    match u.hist with
    | [] => (false, u')
    | y :: _ =>
      if !pol then
        if u.runt then
          if aboveB then (false, { u' with runt := false })
          else if !above then (true, { u' with runt := false })
          else (false, u')
        else (false, { u' with runt := above && !beyond false a y && !aboveB })
      else
        let atA := x.lt a || x.eq a
        if u.runt then
          if atA then (false, { u' with runt := false })
          else if aboveB then (true, { u' with runt := false })
          else (false, u')
        else (false, { u' with runt := !aboveB && beyond false b y && !atA })
  | 5 =>
    match u.hist with
    | [] => (false, { u' with since := 0, timedOut := false })
    | y :: _ =>
      if above ≠ beyond false a y then (false, { u' with since := 0, timedOut := false })
      else
        let n := u.since + 1
        (t1 ≤ n && !u.timedOut, { u' with since := n, timedOut := u.timedOut || t1 ≤ n })
  | 6 =>
    match u.hist[t1 - 1]? with
    | none => (false, u')
    | some y =>
      let d := if pol then y.add x.negate else x.add y.negate
      (a.lt d || a.eq d, u')
  | _ => (false, u')

/-- Trigger unit `t` evaluates the update of its slot with value `w`. -/
def State.trgUpdate (s : State) (t : Fin 8) (w : Word) : State :=
  let k := s.rd ATTIC.pg ATTIC.TRG_CFG_SIG t
  let (hit, u) := trgEval (s.rd ATTIC.pg ATTIC.TRG_CFG_KIND t) (s.flag ATTIC.pg ATTIC.TRG_CFG_POL t)
    (s.rd ATTIC.pg ATTIC.TRG_CFG_COND t) (s.rd ATTIC.pg ATTIC.TRG_TIME_T1 t) (s.rd ATTIC.pg ATTIC.TRG_TIME_T2 t)
    (.ofBits (s.rd ATTIC.pg ATTIC.TRG_A_VALUE t)) (.ofBits (s.rd ATTIC.pg ATTIC.TRG_B_VALUE t)) s.attic.trg[t]
    (sigX (s.sigFloat k) w)
  let s := { s with attic := { s.attic with trg := s.attic.trg.set t u } }
  if hit then s.trgDecide t none else s

/-- Slot `k` takes value `w` (R720, R721); its trigger units evaluate it, but for a write that triggers nothing (`quiet`, R460). -/
def State.sigTake (s : State) (k : Fin 32) (w : Word) (valid : Bool) (quiet : Bool := false) : State :=
  let firstValid := valid && !s.attic.seen.getLsbD k
  let units := (List.finRange 8).filter fun (t : Fin 8) =>
    let kind := s.rd ATTIC.pg ATTIC.TRG_CFG_KIND t
    1 ≤ kind && kind ≤ 6 && s.rd ATTIC.pg ATTIC.TRG_CFG_SIG t = k.val
  let bit := BitVec.twoPow 32 k
  let a := s.attic
  let s := { s with attic := { a with
    value := a.value.set k w
    valid := if valid then a.valid ||| bit else a.valid &&& ~~~bit
    seen := if valid then a.seen ||| bit else a.seen
    trg := if firstValid then units.foldl (fun v (t : Fin 8) => v.set t {}) a.trg else a.trg } }
  if quiet then s else units.foldl (fun s (t : Fin 8) => s.trgUpdate t w) s

/-- Source (KIND, INDEX) takes a new value: every slot that selects it does. -/
def State.sigUpdate (s : State) (kind index : Nat) (w : Word) (valid : Bool := true) (quiet : Bool := false) : State :=
  (List.finRange 32).foldl (fun s (k : Fin 32) =>
    if s.rd ATTIC.pg ATTIC.SIG_KIND k = kind ∧ s.rd ATTIC.pg ATTIC.SIG_INDEX k = index then s.sigTake k w valid quiet else s) s

/-- A trigger unit of KIND 7 or 8 takes an event of line `l`. -/
def State.trgLine (s : State) (kind l : Nat) (at_ : Word64 × Nat × Nat) : State :=
  (List.finRange 8).foldl (fun s (t : Fin 8) =>
    if s.rd ATTIC.pg ATTIC.TRG_CFG_KIND t = kind ∧ s.rd ATTIC.pg ATTIC.TRG_CFG_SIG t % 4 = l then s.trgDecide t (some at_)
    else s) s

/-! ### Sample events and latches (R722 to R726) -/

/-- A sample event of source (KIND, INDEX); `evt` is the PWM event, 0 boundary or 1 mid-period. -/
def State.sampleEvent (s : State) (kind index : Nat) (evt : Nat := 0) : State :=
  (List.finRange 8).foldl (fun s (n : Fin 8) =>
    let st := s.capState n
    let e := s.rd ATTIC.pg ATTIC.CAP_SAMPLE_EVT n
    if s.flag ATTIC.pg ATTIC.CAP_CFG_EN n && st ≠ capSTOPPED && s.rd ATTIC.pg ATTIC.CAP_SAMPLE_KIND n = kind &&
        s.rd ATTIC.pg ATTIC.CAP_SAMPLE_INDEX n = index && (kind ≠ 1 || e = 2 || e = evt) then
      let c := s.cap n
      let counted := c.events % (s.rd ATTIC.pg ATTIC.CAP_SAMPLE_DIV n + 1) = s.rd ATTIC.pg ATTIC.CAP_SAMPLE_DIV n
      s.setCap n { c with events := c.events + 1, due := if counted then c.due ++ [s.stamp] else c.due }
    else s) s

/-- Round to binary64 (R725). -/
def Fp.round64 : Fp → Fp
  | .fin s m =>
    let q := roundTo 53 (-1022) m
    if pow2 1024 ≤ q then .inf s else .fin s q
  | x => x

/-- Add one sample to the reductions of a slot; `first` starts a bin. -/
def BinAcc.add (a : BinAcc) (float first : Bool) (w : Word) : BinAcc :=
  let x := sigNum float w
  let a := if first then { last := w, min := w, max := w : BinAcc } else a
  { last := w
    min := if x.lt (sigNum float a.min) then w else a.min
    max := if (sigNum float a.max).lt x then w else a.max
    nan := a.nan || x = .nan
    sum := (a.sum.add x).round64
    sq := (a.sq.add (x.mul x).round64).round64 }

/-- The words of one slot in a frame, in the order of R724. `r` is free: it stands for a least or greatest sample among
NaNs and for NaN payloads. -/
def BinAcc.words (a : BinAcc) (red bin : Nat) (r : Word) : List Word :=
  (if bitOf red 0 then [a.last] else []) ++
  (if bitOf red 1 then [if a.nan then r else a.min] else []) ++
  (if bitOf red 2 then [if a.nan then r else a.max] else []) ++
  (if bitOf red 3 then [(a.sum.div (.ofRat bin)).toBits r] else []) ++
  (if bitOf red 4 then [(a.sq.div (.ofRat bin)).sqrt.toBits r] else [])

/-- Write the frame of the bin that ends (R724, R726). -/
def State.writeFrame (s : State) (n : Fin 8) : State :=
  let c := s.cap n
  let mask := s.rd ATTIC.pg ATTIC.CAP_SIGMASK_SIG n
  let red := s.rd ATTIC.pg ATTIC.CAP_BIN_RED n
  let bin := s.rd ATTIC.pg ATTIC.CAP_BIN_BIN n
  let (r, s) := s.freshWord
  let status := bit01 c.invalid + 2 * bit01 c.trigBin + 2 ^ 16 * (s.rd ATTIC.pg ATTIC.CAP_SEG_COUNT_COUNT n % 2 ^ 16)
  let body := (List.finRange 32).flatMap fun (k : Fin 32) => if bitOf mask k then (c.acc[k]).words red bin r else []
  let at_ := s.segBase n (s.rd ATTIC.pg ATTIC.CAP_STAT_NEXT n) + s.frameWords n * c.ring
  let s := (s.atticPoke at_ status)
  let s := body.zipIdx.foldl (fun s x => s.atticPoke (at_ + 1 + x.2) x.1.toNat) s
  let cap := s.capacity n
  let trig := c.trigBin
  let pre := min c.written c.pre
  let c := { c with
    samples := 0, invalid := false, trigBin := false
    ring := if cap = 0 then 0 else (c.ring + 1) % cap
    written := c.written + 1
    lastBad := if c.invalid then c.written + 1 else c.lastBad
    post := if trig then 1 else if 0 < c.post then c.post + 1 else 0
    preCount := if trig then pre else c.preCount
    first := if trig then (c.ring + cap - pre % (cap + 1)) % (if cap = 0 then 1 else cap) else c.first }
  let s := s.setCap n c
  if s.capState n = capPOST then
    if 0 < c.post ∧ c.postEff ≤ c.post then s.setCapState n capREARM else s
  else if c.pre ≤ c.written then s.setCapState n capARMED else s

/-- ATTIC_SAMPLE_LATCH (R723): the oldest counted event's sample is latched. -/
def State.sampleLatch (s : State) (n : Fin 8) : State :=
  let c := s.cap n
  match c.due with
  | [] => s
  | ev :: rest =>
    let s := s.setCap n { c with due := rest, counted := false }
    let st := s.capState n
    if st = capFILL || st = capARMED || st = capPOST then
      let mask := s.rd ATTIC.pg ATTIC.CAP_SIGMASK_SIG n
      let c := s.cap n
      let acc := Vector.ofFn fun (k : Fin 32) =>
        if bitOf mask k then (c.acc[k]).add (s.sigFloat k) (c.samples = 0) s.attic.value[k] else c.acc[k]
      let bad := (List.finRange 32).any fun (k : Fin 32) =>
        bitOf mask k && s.rd ATTIC.pg ATTIC.SIG_KIND k = 1 && !s.attic.valid.getLsbD k
      let c := { c with
        acc := acc, samples := c.samples + 1, invalid := c.invalid || bad
        trigBin := c.trigBin || c.wait
        tcyc := if c.wait && c.tcyc.isNone then some ev else c.tcyc
        wait := false }
      let s := s.setCap n c
      if c.samples = s.rd ATTIC.pg ATTIC.CAP_BIN_BIN n then s.writeFrame n else s
    else s

/-! ### Commit (R734, R738, R752) -/

/-- A commit took effect: changed trigger units lose their history, the figures of every channel follow. `changed t` says
whether unit `t` had a staged field. -/
def State.atticCommit (s : State) (changed : Fin 8 → Bool) : State :=
  let s := { s with attic := { s.attic with trg := Vector.ofFn fun t => if changed t then {} else s.attic.trg[t] } }
  (List.range 8).foldl (fun s n => s.capFigures n) s

/-- Trigger unit `t` has a staged field. -/
def State.trgStaged (s : State) (t : Nat) : Bool :=
  [ATTIC.TRG_CFG_KIND, ATTIC.TRG_CFG_POL, ATTIC.TRG_CFG_COND, ATTIC.TRG_CFG_SIG, ATTIC.TRG_A_VALUE, ATTIC.TRG_B_VALUE,
    ATTIC.TRG_TIME_T1, ATTIC.TRG_TIME_T2].any fun f => s.isStaged ATTIC.pg f t

/-- The largest INDEX a signal KIND takes (R720). -/
def sigIndexMax (kind : Nat) : Nat :=
  match kind with
  | 1 => 47
  | 2 => 95
  | 3 => 23
  | 4 => 26
  | 5 => 127
  | _ => 8191

/-- Ranges beyond those of single fields: INDEX of a signal; SAMPLE of an enabled channel (R753). -/
def State.atticRangeBad (s : State) : Bool :=
  ((List.range 32).any fun k =>
    let kind := s.merged ATTIC.pg ATTIC.SIG_KIND k
    let ix := s.merged ATTIC.pg ATTIC.SIG_INDEX k
    kind ≠ 0 && (sigIndexMax kind < ix || (kind = 4 && 10 < ix % 16))) ||
  (List.range 8).any fun n =>
    let kind := s.merged ATTIC.pg ATTIC.CAP_SAMPLE_KIND n
    s.merged ATTIC.pg ATTIC.CAP_CFG_EN n = 1 && (kind = 0 || 5 < kind)

/-- Two ranges of naturals meet. -/
def overlap (a la b lb : Nat) : Bool := a < b + lb && b < a + la

/-- The conditions of R752. -/
def State.atticInconsistent (s : State) : Bool :=
  let m := fun f i => s.merged ATTIC.pg f i
  let en := fun n => m ATTIC.CAP_CFG_EN n = 1
  let fw := fun n => 1 + popCount 32 (m ATTIC.CAP_SIGMASK_SIG n) * popCount 5 (m ATTIC.CAP_BIN_RED n)
  let cap := fun n => m ATTIC.CAP_REGION_PAGES n * 1024 / m ATTIC.CAP_SEGS_NSEG n / fw n
  ((List.range 8).any fun a => (List.range a).any fun b => en a && en b &&
    (overlap (m ATTIC.CAP_REGION_BASE_PAGE a) (m ATTIC.CAP_REGION_PAGES a) (m ATTIC.CAP_REGION_BASE_PAGE b)
        (m ATTIC.CAP_REGION_PAGES b) ||
      overlap (m ATTIC.CAP_SEGS_DIR_BASE a) (m ATTIC.CAP_SEGS_NSEG a) (m ATTIC.CAP_SEGS_DIR_BASE b)
        (m ATTIC.CAP_SEGS_NSEG b))) ||
  ((List.range 8).any fun n =>
    480 < m ATTIC.CAP_REGION_BASE_PAGE n + m ATTIC.CAP_REGION_PAGES n ||
    2048 < m ATTIC.CAP_SEGS_DIR_BASE n + m ATTIC.CAP_SEGS_NSEG n ||
    (en n && (m ATTIC.CAP_SIGMASK_SIG n = 0 || m ATTIC.CAP_BIN_RED n = 0 ||
      (List.range 32).any fun k => bitOf (m ATTIC.CAP_SIGMASK_SIG n) k && m ATTIC.SIG_KIND k = 0)) ||
    cap n ≤ m ATTIC.CAP_PRE_FRAMES n) ||
  4 < ((List.range 8).countP fun n => en n && m ATTIC.CAP_CFG_WATCH n = 1) ||
  (List.range 8).any fun t =>
    let kind := m ATTIC.TRG_CFG_KIND t
    (1 ≤ kind && kind ≤ 6 && m ATTIC.SIG_KIND (m ATTIC.TRG_CFG_SIG t) = 0) ||
    (kind = 4 && (let a := Fp.ofBits (m ATTIC.TRG_A_VALUE t); let b := Fp.ofBits (m ATTIC.TRG_B_VALUE t); b.lt a || b.eq a)) ||
    (kind = 3 && 2 ≤ m ATTIC.TRG_CFG_COND t && m ATTIC.TRG_TIME_T2 t < m ATTIC.TRG_TIME_T1 t) ||
    (kind = 6 && 16 < m ATTIC.TRG_TIME_T1 t)

end Sys2Proof.Machine
end

