-- ==== Sys2Proof/Machine/Fuse.lean ====
section
/-!
DEFINITION. Machine/Fuse.lean: the Fusebox (07 R400 to R418): live sources, latches and clears. What a tripped unit
does stands in Machine/Pwm.lean.
-/
namespace Sys2Proof.Machine

/-- The Fusebox is armed in READY and any later mode, SAFE_STOP included (R403). -/
def State.armed (s : State) : Bool := mREADY ≤ s.mode && s.mode ≤ mSAFE

/-- Live state of source `src` (R402). -/
def State.srcActive (s : State) (src : Nat) : Bool :=
  if src < 32 then bitOf (s.rd FUSE.pg FUSE.ACTIVE_LO_SRC) src else bitOf (s.rd FUSE.pg FUSE.ACTIVE_HI_SRC) (src - 32)

/-- Latch of source `src`. -/
def State.srcLatched (s : State) (src : Nat) : Bool :=
  if src < 32 then bitOf (s.rd FUSE.pg FUSE.LATCH_LO_SRC) src else bitOf (s.rd FUSE.pg FUSE.LATCH_HI_SRC) (src - 32)

def State.putActive (s : State) (src : Nat) (b : Bool) : State :=
  if src < 32 then s.putBit FUSE.pg FUSE.ACTIVE_LO_SRC 0 src b else s.putBit FUSE.pg FUSE.ACTIVE_HI_SRC 0 (src - 32) b

def State.putLatch (s : State) (src : Nat) (b : Bool) : State :=
  if src < 32 then s.putBit FUSE.pg FUSE.LATCH_LO_SRC 0 src b else s.putBit FUSE.pg FUSE.LATCH_HI_SRC 0 (src - 32) b

/-- Source `src` takes live state `b`. A source that becomes active while the Fusebox is armed has an activation to
act on (R403, R404); the command FUSE_SOURCE_ACTIVE is that action. -/
def State.setSource (s : State) (src : Nat) (b : Bool) : State :=
  let rise := b && !s.srcActive src && s.armed
  let s := s.putActive src b
  if rise then { s with fuse := { s.fuse with edges := setBitOf s.fuse.edges src } } else s

/-- `FUSE.STATUS`: ARMED, ANY_LATCH and ANY_UNIT follow the mode and the latches (R416). -/
def State.fuseStatus (s : State) : State :=
  let any := s.rd FUSE.pg FUSE.LATCH_LO_SRC ≠ 0 || s.rd FUSE.pg FUSE.LATCH_HI_SRC ≠ 0
  let s := s.setFlag FUSE.pg FUSE.STATUS_ARMED 0 s.armed
  let s := s.setFlag FUSE.pg FUSE.STATUS_ANY_LATCH 0 any
  s.setFlag FUSE.pg FUSE.STATUS_ANY_UNIT 0 (s.rd FUSE.pg FUSE.UNIT_TRIP_UNIT ≠ 0)

/-- R408: FIRST takes the first source latched since the latches were all zero, and of several in one tick the lowest. -/
def State.recordFirst (s : State) (src : Nat) : State :=
  let same := s.rd64 FUSE.pg FUSE.FIRST_CYC_LO_CYC FUSE.FIRST_CYC_HI_CYC = s.cyc.toNat
  if !s.flag FUSE.pg FUSE.FIRST_VALID || (same && src < s.rd FUSE.pg FUSE.FIRST_SRC) then
    ((s.wr FUSE.pg FUSE.FIRST_SRC 0 src).wr FUSE.pg FUSE.FIRST_VALID 0 1).wr64 FUSE.pg FUSE.FIRST_CYC_LO_CYC
      FUSE.FIRST_CYC_HI_CYC 0 s.cyc.toNat
  else s

/-- A refused clear is counted and sets IRQ bit CLEAR_REFUSED (R410). -/
def State.clearRefused (s : State) : State := (s.bump FUSE.pg FUSE.CLEAR_REFUSED_COUNT).irq FUSE.pg 2

/-- A 1 is written to the bit of source `src` of `CLEAR_LO` or `CLEAR_HI` (R410, R409). -/
def State.clearSourceBit (s : State) (src : Nat) : State :=
  if !s.srcLatched src then s
  else if s.srcActive src then s.clearRefused
  else
    let s := s.putLatch src false
    if s.rd FUSE.pg FUSE.LATCH_LO_SRC = 0 ∧ s.rd FUSE.pg FUSE.LATCH_HI_SRC = 0 then s.wr FUSE.pg FUSE.FIRST_VALID 0 0 else s

/-- The write of `CLEAR_LO` (or `CLEAR_HI`). -/
def State.clearSources (s : State) (hi : Bool) (mask : Nat) : State :=
  ((List.range 32).foldl (fun s i => if bitOf mask i then s.clearSourceBit (if hi then 32 + i else i) else s) s).fuseStatus

/-- A set latch of some source maps to unit `u`. -/
def State.latchMapsTo (s : State) (u : Nat) : Bool :=
  (List.range 64).any fun src => s.srcLatched src && bitOf (s.rd FUSE.pg FUSE.MAP_UNITS src) u

/-- A 1 is written to bit `u` of `CLEAR_UNIT` (R411). The unit's TRIP_VALID is cleared with its latch (R397). -/
def State.clearUnitBit (s : State) (u : Nat) : State :=
  if !bitOf (s.rd FUSE.pg FUSE.UNIT_TRIP_UNIT) u then s
  else if s.latchMapsTo u then s.clearRefused
  else
    let s := s.putBit FUSE.pg FUSE.UNIT_TRIP_UNIT 0 u false
    (s.wr (PWM.pg u) PWM.STATUS_TRIPPED 0 0).wr (PWM.pg u) PWM.STATUS_TRIP_VALID 0 0

/-- The write of `CLEAR_UNIT`. -/
def State.clearUnits (s : State) (mask : Nat) : State :=
  ((List.range 16).foldl (fun s u => if bitOf mask u then s.clearUnitBit u else s) s).fuseStatus

/-- The source of pin `p` follows the pin's filtered level and `PINCFGp.POL` (R401, R402). -/
def State.tripSource (s : State) (p : Nat) : State :=
  let level := s.fuse.pins.getLsbD p
  s.setSource p (if s.flag FUSE.pg FUSE.PINCFG_POL p then !level else level)

/-- TRIP_INPUT_EDGE: pin `p` held `level` for its filter time (R401). -/
def State.tripInput (s : State) (p : Nat) (level : Bool) : State :=
  let bit := BitVec.ofNat 16 (2 ^ p)
  { s with fuse := { s.fuse with pins := if level then s.fuse.pins ||| bit else s.fuse.pins &&& ~~~bit } }.tripSource p

/-- An enabled cycle-by-cycle source mapped to unit `u` is active while the Fusebox is armed (R405). -/
def State.cbcActive (s : State) (u : Nat) : Bool :=
  s.armed && (List.range 64).any fun src =>
    s.srcActive src && s.flag FUSE.pg FUSE.MAP_EN src && s.flag FUSE.pg FUSE.MAP_CYCLE src &&
      bitOf (s.rd FUSE.pg FUSE.MAP_UNITS src) u

end Sys2Proof.Machine
end

