-- ==== Sys2Proof/Machine/Pwm.lean ====
section
/-!
DEFINITION. Machine/Pwm.lean: the PWM units (07 R361 to R399): carriers, compares, edges, driving and safe states.
Instants are in fine steps of 31.25 ps.
-/
namespace Sys2Proof.Machine

def State.pwmUnit (s : State) (n : Fin 16) : PwmUnit := s.pwm[n]

def State.setPwmUnit (s : State) (n : Fin 16) (u : PwmUnit) : State := { s with pwm := s.pwm.set n u }

/-- A unit index taken from a field of four bits. -/
def unitIx (n : Nat) : Fin 16 := Fin.ofNat 16 n

/-! ### Time, periods, lengths

The instants of a carrier are in fine steps of 31.25 ps on CYC's time: 64 to a coarse step of 2 ns, 128 to a tick (R366). A length
that is a fraction of T goes to the nearest fine step, an exact half to the next (DESIGN CHOICE, log entry 47). -/

/-- The instant of the tick in progress. -/
def State.fineNow (s : State) : Int := 128 * (s.cyc.toNat : Int)

/-- Instant `t` lies in the tick in progress or before it. -/
def State.reached (s : State) (t : Int) : Bool := t < s.fineNow + 128

/-- P that is in force for unit `n` by the registers: its own, or under SRC 1 that of the unit it follows, which may follow one in its
turn (R368, R372). -/
def State.pwmPFrom (s : State) : Nat → Nat → Nat
  | 0, n => s.rd (PWM.pg n) PWM.PERIOD_COARSE
  | k + 1, n =>
    if s.rd (PWM.pg n) PWM.SYNC_SRC = 1 then s.pwmPFrom k (s.rd (PWM.pg n) PWM.SYNC_INDEX)
    else s.rd (PWM.pg n) PWM.PERIOD_COARSE

def State.pwmP (s : State) (n : Nat) : Nat := s.pwmPFrom 16 n

/-- T of the period in progress. -/
def State.pwmT (s : State) (n : Fin 16) : Nat := (s.pwmUnit n).per * 64

/-- DT, MINP and PHASE (R371, R377, R379). -/
def State.pwmDT (s : State) (n : Nat) : Nat := s.rd (PWM.pg n) PWM.DEADTIME_COARSE * 64 + s.rd (PWM.pg n) PWM.DEADTIME_FINE
def State.pwmMinp (s : State) (n : Nat) : Nat := s.rd (PWM.pg n) PWM.MINP_COARSE * 64
def State.pwmPhase (s : State) (n : Nat) : Nat := s.rd (PWM.pg n) PWM.PHASE_COARSE * 64 + s.rd (PWM.pg n) PWM.PHASE_FINE

/-- A compare's fraction of `t`: U1.31, a value above 0x8000_0000 taken as 1 (R363). -/
def cmpPart (v t : Nat) : Nat := if 2 ^ 31 ≤ v then t else (2 * (v * t) + 2 ^ 31) / 2 ^ 32

/-- The length of the ideal main interval for compare `v` (R375): d·T, in up-down mode twice d·T/2. -/
def dutyLength (mode v t : Nat) : Nat := if mode = 2 then 2 * cmpPart v (t / 2) else cmpPart v t

/-- The delay of pair `k`: (`PAIRk_PHASE` + s_k × T) modulo T (R374). -/
def State.pairDelay (s : State) (n : Fin 16) (k : Nat) : Nat :=
  (s.rd (PWM.pg n) PWM.PAIR_PHASE_COARSE k * 64 + s.rd (PWM.pg n) PWM.PAIR_PHASE_FINE k +
    cmpPart (s.rd (PWM.pg n) PWM.CMP_FRAC (4 + k)) (s.pwmT n)) % s.pwmT n

/-- The first instant from `from_` on that equals `ph` modulo `t` (R371 SRC 3). -/
def alignedAt (from_ : Int) (ph t : Nat) : Int := from_ + Int.emod ((ph : Int) - from_) t

/-! ### Edges of a pair (R375 to R380) -/

/-- The side whose active interval the last placed edge begins. -/
def PwmPair.side (p : PwmPair) : Option Bool := p.segs.head?.map PwmSeg.main

/-- An output of the pair is at its active level at instant `t`: the last change of side up to `t` names it and its dead time is
over; a lengthened period holds the levels it had (R374). -/
def PwmPair.active (p : PwmPair) (main : Bool) (t : Int) : Bool :=
  let t := match p.hold with
    | some h => min t (h - 1)
    | none => t
  match p.segs.find? fun g => g.at_ ≤ t with
  | some g => g.main = main && g.on ≤ t
  | none => false

/-- Edges at or after `e` do not occur (R374). -/
def PwmPair.cut (p : PwmPair) (e : Int) : PwmPair := { p with segs := p.segs.dropWhile fun g => e ≤ g.at_ }

/-- A held period ends at `e`: an output whose turn-on was held back turns on from there on. -/
def PwmPair.release (p : PwmPair) (e : Int) : PwmPair :=
  match p.hold, p.segs with
  | some h, g :: l => { p with hold := none, segs := (if h ≤ g.on then { g with on := max g.on e } else g) :: l }
  | _, _ => { p with hold := none }

/-- The active side becomes `main` at `x`: the other output turns off there, this one turns on DT later (R377). An interval that
goes on has no edge. -/
def PwmPair.turn (p : PwmPair) (x : Int) (dt : Nat) (main : Bool) : PwmPair :=
  if p.side = some main then p else { p with segs := (⟨x, x + dt, main⟩ :: p.segs).take 8 }

/-- R378 and R379 for a period of length `t` with main length `l`: the length carried out, whether the main output's interval and
whether the complement's is adjusted. A dropped interval leaves the partner active through it. -/
def minpLength (t dt minp l : Nat) (ext : Bool) : Nat × Bool × Bool :=
  if l = 0 || t ≤ l then (l, false, false)
  else if l < minp + dt then (if ext then minp + dt else 0, true, false)
  else if t < l + (minp + dt) then (if ext then t - (minp + dt) else t, false, true)
  else (l, false, false)

/-- The edges of a pair from an instant on: the pair with them, whether an interval of the main output and of the complement is adjusted
in the period that they belong to, and in the period that ended there (R379). -/
structure PwmPlan where
  pair : PwmPair
  main : Bool := false
  comp : Bool := false
  oldMain : Bool := false
  oldComp : Bool := false

/-- The active side becomes `main` at `x`, decided at `now`. Where the interval that ends would be on for less than MINP it is adjusted,
answered by true (R379): it goes on to MINP under EXTEND, and where it is on already (DESIGN CHOICE, log entry 47: what is on cannot be
dropped); else it is dropped, and the partner stays active through it where that has not turned off yet. -/
def PwmPair.turnMin (p : PwmPair) (now x : Int) (dt minp : Nat) (ext main : Bool) : PwmPair × Bool :=
  match p.segs with
  | [] => (p.turn x dt main, false)
  | g :: l =>
    if g.main = main || g.on + minp ≤ x then (p.turn x dt main, false)
    else if ext || g.on < now then (p.turn (g.on + minp) dt main, true)
    else if now ≤ g.at_ then (({ p with segs := l } : PwmPair).turn now dt main, true)
    else (p.turn now dt main, true)

/-- How far behind `e` the side in progress began, for one that began there. -/
def PwmPair.lag (p : PwmPair) (e : Int) : Nat :=
  match p.segs with
  | g :: _ => (g.at_ - e).toNat
  | [] => 0

/-- A period of up or down mode from boundary `e` (R375): the side `first` (main in up mode, complement in down mode) is active
for `f` fine steps, then the other one. EXTEND moves a turn-off later, the second side's into the next period (R379); so does a period that
was cut short (R373, R374). -/
def PwmPair.planPeriod (p : PwmPair) (e : Int) (t dt minp f : Nat) (first ext : Bool) : PwmPlan :=
  let a := p.ext
  let p := { p.cut e with ext := 0 }
  let plan := fun (p : PwmPair) (x y : Bool) (old cut : Bool) =>
    ({ pair := p, main := if first then x else y, comp := if first then y else x
       oldMain := cut && old, oldComp := cut && !old } : PwmPlan)
  if f = 0 then
    let (q, c) := p.turnMin e e dt minp ext !first
    plan q false false first c
  else
    let (q, c) := p.turnMin e (e + a) dt minp ext first
    if t ≤ f then plan q false false (!first) c
    else
      let b := q.lag e
      let short := f < b + dt + minp
      if short && !ext then
        let (q, c) := p.turnMin e e dt minp ext !first
        plan q true false first c
      else
        let x := if short then b + dt + minp else f
        let shortS := t < x + dt + minp
        if shortS && !ext then plan q short true (!first) c
        else
          let q := q.turn (e + x) dt !first
          plan { q with ext := if shortS then x + dt + minp - t else 0 } short shortS (!first) c

/-- A compare that loads at the mid-period point `now` of up or down mode: it governs the turn-off of the first side where that is
still active (R365, R376); a turn-on has passed. -/
def PwmPair.planRest (p : PwmPair) (now : Int) (t dt minp f : Nat) (first ext : Bool) : PwmPlan :=
  let q := p.cut (now + 1)
  let plan := fun (p : PwmPair) (x y : Bool) =>
    ({ pair := p, main := if first then x else y, comp := if first then y else x } : PwmPlan)
  match q.segs with
  | [] => { pair := p }
  | g :: _ =>
    if g.main != first then { pair := p }
    else if t ≤ f then { pair := { q with ext := 0 } }
    else
      let (r, short) := q.turnMin now (max now (p.at_ + f)) dt minp ext !first
      let x := (r.lag p.at_ : Int)
      let shortS := t < x + dt + minp
      if shortS && !ext then plan { q with ext := 0 } short true
      else plan { r with ext := if shortS then (x + dt + minp - t).toNat else 0 } short shortS

/-- The peak `e` of up-down mode starts a period of edges: the falling half up to the valley (R375). -/
def PwmPair.planFall (p : PwmPair) (e : Int) (t dt minp l : Nat) (ext : Bool) : PwmPlan :=
  let (m, am, ac) := minpLength t dt minp l ext
  let p := p.cut e
  let half : Nat := (t - m) / 2
  if m = 0 then
    let (q, c) := p.turnMin e e dt minp ext false
    { pair := q, main := am, comp := ac, oldMain := c }
  else if t ≤ m then
    let (q, c) := p.turnMin e e dt minp ext true
    { pair := q, main := am, comp := ac, oldComp := c }
  else if p.side = some true && half < dt + minp && !ext then { pair := p, main := am, comp := true }
  else
    let (q, c) := p.turnMin e e dt minp ext false
    let (r, d) := q.turnMin e (e + half) dt minp ext true
    { pair := r, main := am, comp := ac || d, oldMain := c }

/-- The valley `e` of up-down mode: the rising half. A main output that is active turns off d·T/2 later; one that turns on here, by the
load or as the valley comes early (R373, R374), turns on DT after the valley (DESIGN CHOICE, log entry 47) or after the complement's
minimum (R379), and its interval is the rest of the ideal one. -/
def PwmPair.planRise (p : PwmPair) (e : Int) (t dt minp l : Nat) (ext : Bool) : PwmPlan :=
  let ac : Bool := l < t && t < l + (minp + dt)
  let m := if !ac then l else if ext then t - (minp + dt) else t
  let p := p.cut e
  let x := e + (m / 2 : Nat)
  if p.side = some true then
    if t ≤ m then { pair := p, comp := ac }
    else
      let (q, c) := p.turnMin e x dt minp ext false
      { pair := q, main := c, comp := ac }
  else if p.segs.isEmpty then { pair := if t ≤ m then p else p.turn x dt false, comp := ac }
  else if m = 0 then { pair := p, comp := ac }
  else
    let (q, c) := p.turnMin e e dt minp ext true
    if t ≤ m then { pair := q, comp := ac || c }
    else
      let (r, d) := q.turnMin e x dt minp ext false
      { pair := r, main := d, comp := ac || (c && (ext || !d)) }

/-- The edges to come at `now` where a commit changes the dead time or the minimum: each gap is the one in force (R380), each on-time that
falls short is adjusted (R379). -/
def PwmPair.retime (p : PwmPair) (now : Int) (dt minp : Nat) (ext : Bool) : PwmPlan :=
  let begun := match p.segs.dropWhile fun g => now ≤ g.at_ with
    | g :: l => (if now < g.on then { g with on := max now (g.at_ + dt) } else g) :: l
    | [] => []
  (p.segs.takeWhile fun g => now ≤ g.at_).foldr (fun g r =>
    let (q, c) := r.pair.turnMin now g.at_ dt minp ext g.main
    { r with pair := q, main := r.main || (c && !g.main), comp := r.comp || (c && g.main) })
    { pair := { p with segs := begun } }

/-! ### Pair carriers (R365, R374) -/

def State.pwmPair (s : State) (n : Fin 16) (k : Fin 4) : PwmPair := (s.pwmUnit n).pairs[k]

def State.setPwmPair (s : State) (n : Fin 16) (k : Fin 4) (p : PwmPair) : State :=
  s.setPwmUnit n { s.pwmUnit n with pairs := (s.pwmUnit n).pairs.set k p }

/-- An adjusted interval counts once (R379). -/
def State.minpCount (s : State) (n : Fin 16) (adj : Bool) : State :=
  if !adj then s
  else
    (s.bump (PWM.pg n) (if s.flag (PWM.pg n) PWM.CFG_MINP_MODE then PWM.MINP_EXT_COUNT_COUNT else PWM.MINP_DROP_COUNT_COUNT)).irq
      (PWM.pg n) 2

/-- A plan of pair `k` takes its place; of the period in progress, and of the one before it where a `fresh` one begins, an interval that
was counted counts no more (R379). -/
def State.placePlan (s : State) (n : Fin 16) (k : Fin 4) (fresh : Bool) (r : PwmPlan) : State :=
  let p := s.pwmPair n k
  let s := (s.minpCount n (r.oldMain && !p.adjMain)).minpCount n (r.oldComp && !p.adjComp)
  let m := !fresh && p.adjMain
  let c := !fresh && p.adjComp
  let s := (s.minpCount n (r.main && !m)).minpCount n (r.comp && !c)
  s.setPwmPair n k { r.pair with adjMain := m || r.main, adjComp := c || r.comp }

/-- The main length that the compare in force asks for in the pair's period (R375). -/
def State.pairLength (s : State) (n : Fin 16) (k : Fin 4) : Nat :=
  dutyLength (s.rd (PWM.pg n) PWM.CFG_MODE) (s.rd (PWM.pg n) PWM.CMP_FRAC k) (s.pwmPair n k).per

/-- The edges from the pair's boundary `e` on (R375). -/
def State.planBoundary (s : State) (n : Fin 16) (k : Fin 4) (e : Int) : State :=
  let p := s.pwmPair n k
  let t := p.per
  let ext := s.flag (PWM.pg n) PWM.CFG_MINP_MODE
  let l := s.pairLength n k
  match s.rd (PWM.pg n) PWM.CFG_MODE with
  | 0 => s.placePlan n k true (p.planPeriod e t (s.pwmDT n) (s.pwmMinp n) l true ext)
  | 1 => s.placePlan n k true (p.planPeriod e t (s.pwmDT n) (s.pwmMinp n) (t - l) false ext)
  | _ => s.placePlan n k false (p.planRise e t (s.pwmDT n) (s.pwmMinp n) l ext)

/-- The edges from the pair's mid-period point `e` on, where compares may have loaded. -/
def State.planMid (s : State) (n : Fin 16) (k : Fin 4) (e : Int) : State :=
  let p := s.pwmPair n k
  let t := p.per
  let ext := s.flag (PWM.pg n) PWM.CFG_MINP_MODE
  let l := s.pairLength n k
  match s.rd (PWM.pg n) PWM.CFG_MODE with
  | 0 => s.placePlan n k false (p.planRest e t (s.pwmDT n) (s.pwmMinp n) l true ext)
  | 1 => s.placePlan n k false (p.planRest e t (s.pwmDT n) (s.pwmMinp n) (t - l) false ext)
  | _ => s.placePlan n k true (p.planFall e t (s.pwmDT n) (s.pwmMinp n) l ext)

/-- R374: the delay of a pair becomes `d` at instant `now`. The end E of the period in progress moves by the difference,
and by T more where it would not lie later than the change; a boundary that is due already falls as it is. From E on a lengthened
period holds its levels. `t` is T of the period in progress, of the falling half where the two halves differ. -/
def PwmPair.delayed (p : PwmPair) (now : Int) (t d : Nat) : PwmPair :=
  if d = p.delay then p
  else
    let shift : Int := (d : Int) - p.delay
    match p.due with
    | [] =>
      let e := p.at_ + p.len
      let e' := if e + shift ≤ now then e + shift + t else e + shift
      { p with delay := d, hold := if e < e' then some e else none }
    | (e, x) :: l =>
      if e ≤ now then { p with delay := d }
      else if e + shift ≤ now then { p with delay := d, due := l, hold := some e }
      else { p with delay := d, due := (e + shift, x) :: l, hold := if 0 < shift then some e else none }

/-- The delay of pair `k` follows `PAIRk_PHASE`, its shift compare and T (R374). -/
def State.changeDelay (s : State) (n : Fin 16) (now : Int) (k : Fin 4) : State :=
  s.setPwmPair n k ((s.pwmPair n k).delayed now ((s.pwmPair n k).fall.getD (s.pwmPair n k).per) (s.pairDelay n k))

def State.changeDelays (s : State) (n : Fin 16) (now : Int) : State :=
  (List.finRange 4).foldl (fun s k => s.changeDelay n now k) s

/-- The load point of pair `k` at `now`: its duty and shift compares come into force (R365). -/
def State.loadPair (s : State) (n : Fin 16) (k : Fin 4) (now : Int) : State :=
  let pg := PWM.pg n
  let u := s.pwmUnit n
  let s := s.wr pg PWM.CMP_FRAC k (u.cmp[k.val]'(by omega)).toNat
  let s := s.wr pg PWM.CMP_FRAC (4 + k) (u.cmp[4 + k.val]'(by omega)).toNat
  s.changeDelay n now k

/-- The boundary `e` of pair `k`'s carrier, at which a period of length `t` starts: the compares load where UPDATE is 0, and the edges are
placed. -/
def State.pairBoundary (s : State) (n : Fin 16) (k : Fin 4) (e : Int) (t : Nat) : State :=
  let p := (s.pwmPair n k).release e
  let s := s.setPwmPair n k { p with at_ := e, per := t, len := t / 2 + p.fall.getD t / 2, mid := some (e + (t / 2 : Nat)) }
  let s := if s.flag (PWM.pg n) PWM.CFG_UPDATE then s else s.loadPair n k e
  s.planBoundary n k e

/-- The mid-period point `e` of pair `k`'s carrier: the compares load where UPDATE is 1. In up-down mode the peak starts the next
period of edges (R375). -/
def State.pairMid (s : State) (n : Fin 16) (k : Fin 4) (e : Int) : State :=
  let p := s.pwmPair n k
  let s := s.setPwmPair n k { p with per := p.fall.getD p.per, fall := none }
  let s := if s.flag (PWM.pg n) PWM.CFG_UPDATE then s.loadPair n k e else s
  if s.rd (PWM.pg n) PWM.CFG_MODE = 2 || s.flag (PWM.pg n) PWM.CFG_UPDATE then s.planMid n k e else s

/-! ### Driving and safe states (R386 to R394) -/

/-- The role drives PWM outputs: SOLO, ACTIVE or OWNER (R55, R387); not in a member that joins or is out of the set (R780). -/
def State.roleDrives (s : State) : Bool :=
  let r := s.rd REDUN.pg REDUN.ROLE_ROLE
  let st := s.rd REDUN.pg REDUN.STATUS_STATE
  (r = 0 || r = 1 || r = 3) && (st = 0 || st = 2)

/-- The role lets unit `n` drive: a former lead drives a unit on to its next boundary after a swap (R787), and a new lead
starts one at least 100 ns after the takeover (R783). -/
def State.roleUnit (s : State) (n : Nat) : Bool :=
  (s.roleDrives || s.redun.passPwm.getLsbD n) &&
    match s.redun.took with
    | some t => s.flag (PWM.pg n) PWM.STATUS_DRIVING || 25 ≤ s.since t
    | none => true

/-- The Form Unit in use whose enabled `BMAPb` entry names unit `n`, if there is one (R388, R180). -/
def State.formOfUnit (s : State) (n : Nat) : Option (Fin 2) :=
  (List.finRange 2).find? fun f =>
    (List.range (s.rd (FORM.pg f) FORM.BASECFG_BRIDGES)).any fun b =>
      s.flag (FORM.pg f) FORM.BMAP_EN b && s.rd (FORM.pg f) FORM.BMAP_PWM b = n

/-- Form Unit `f` releases the gates it owns (R192): its state is SYNC, FORM, RAMP or RUN as `formGate` holds. -/
def State.formGate (s : State) (f : Fin 2) : Bool := s.form[f].gate

/-- The gate of unit `n` is released (R387 condition 3, R388). -/
def State.pwmGate (s : State) (n : Nat) : Bool :=
  match s.formOfUnit n with
  | some f => s.formGate f
  | none =>
    match s.rd (PWM.pg n) PWM.CFG_GATE with
    | 0 => s.flag (PWM.pg n) PWM.CTRL_RUN
    | 1 => s.rd (PWM.pg n) PWM.CFG_GATE_IDX < 2 && s.formGate (Fin.ofNat 2 (s.rd (PWM.pg n) PWM.CFG_GATE_IDX))
    | _ => s.flag (PORT.pg (s.rd (PWM.pg n) PWM.CFG_GATE_IDX)) PORT.STATUS_GATE

/-- A source that acts on unit `n` has become active and its action is of this cycle (R415: trip and the boundary at which a unit would
start to drive). -/
def State.tripComing (s : State) (n : Nat) : Bool :=
  s.armed && (List.range 64).any fun src =>
    bitOf s.fuse.edges src && s.flag FUSE.pg FUSE.MAP_EN src && bitOf (s.rd FUSE.pg FUSE.MAP_UNITS src) n

/-- Conditions 1 to 5 of R387 hold for unit `n`; no trip of this cycle stops it (R415), no cycle-by-cycle source holds it (R405). -/
def State.wouldDrive (s : State) (n : Nat) : Bool :=
  s.forming && !s.tripComing n && !s.cbcActive n && s.flag (PWM.pg n) PWM.CTRL_EN && s.pwmGate n &&
  !bitOf (s.rd FUSE.pg FUSE.UNIT_TRIP_UNIT) n && !s.flag (PWM.pg n) PWM.STATUS_CBC_HOLD &&
  !s.flag (PWM.pg n) PWM.STATUS_HALT_SAFE && !s.flag (PWM.pg n) PWM.STATUS_CLK_SAFE

/-- All conditions of R387 hold for unit `n`. -/
def State.mayDrive (s : State) (n : Nat) : Bool := s.wouldDrive n && s.roleUnit n

/-- When output `i` of a pair may take an active safe level, the pair stopping at `now` (R391): DT after its partner's turn-off, which
is `now` where the partner is active, else the last change of side to this output. -/
def PwmPair.safeFrom (p : PwmPair) (main : Bool) (now : Int) (dt : Nat) : Int :=
  if p.active (!main) now then now + dt
  else
    match p.segs.find? fun g => g.main = main && g.at_ ≤ now with
    | some g => g.at_ + dt
    | none => now

/-- The unit stops driving at once and enters its safe state (R390, R391). -/
def State.stopDrive (s : State) (n : Nat) : State :=
  if s.flag (PWM.pg n) PWM.STATUS_DRIVING then
    let u := s.pwmUnit (unitIx n)
    let at_ := Vector.ofFn fun (i : Fin 8) =>
      (u.pairs[i.val / 2]'(by omega)).safeFrom (i.val % 2 = 0) s.fineNow (s.pwmDT n)
    ((s.setPwmUnit (unitIx n) { u with safeAt := at_ }).wr (PWM.pg n) PWM.STATUS_DRIVING 0 0).irq (PWM.pg n) 0
  else s

/-- Every driving unit for which a condition of R387 fails stops driving (R390). -/
def State.recheckDrive (s : State) : State :=
  (List.range 16).foldl (fun s n => if s.mayDrive n then s else s.stopDrive n) s

/-- The safe level of output `i` of unit `n` is its active level (R381). -/
def State.safeActive (s : State) (n i : Nat) : Bool :=
  let safe := bitsOf (s.rd (PWM.pg n) PWM.SAFE_LEVEL) (2 * i) 2
  let low := bitOf (s.rd (PWM.pg n) PWM.OUTCFG_POL) i
  (safe = 1 && !low) || (safe = 0 && low)

/-- What an output pin shows: driven low or high, high-impedance, or following its compares. -/
inductive PinLevel where
  | low | high | hiz | edges
  deriving DecidableEq, Repr

/-- The level of PWM_O(8n + i) (R382, R386, R391, R392, R394, R943): high-impedance in a follower, but for a unit that a former lead still
drives to its own boundary (R787), and in a member that left the set, until it leads or follows in one again (R780). -/
def State.pwmPin (s : State) (n : Fin 16) (i : Nat) : PinLevel :=
  let pg := PWM.pg n
  let safe := bitsOf (s.rd pg PWM.SAFE_LEVEL) (2 * i) 2
  let activeLow := bitOf (s.rd pg PWM.OUTCFG_POL) i
  let safePin : PinLevel := if safe = 0 then .low else if safe = 1 then .high else .hiz
  let safeActive := s.safeActive n i
  if s.mode = mBOOT || 3 ≤ s.pwr.state then .hiz
  else if s.outOfSet || ((s.rd REDUN.pg REDUN.ROLE_ROLE = 2 || s.rd REDUN.pg REDUN.ROLE_ROLE = 4) && !s.redun.passPwm.getLsbD n) then .hiz
  else if (s.pwmUnit n).rootWait && safeActive then (if activeLow then .high else .low)
  else if s.flag pg PWM.STATUS_DRIVING && bitOf (s.rd pg PWM.OUTCFG_OUTEN) i then .edges
  else if safeActive && s.fineNow < (s.pwmUnit n).safeAt.toList.getD i 0 then (if activeLow then .high else .low)
  else safePin

/-- Output `i` of unit `n` is active by its compares at instant `t` (R375 to R380). -/
def State.pwmActive (s : State) (n : Fin 16) (i : Fin 8) (t : Int) : Bool :=
  (s.pwmPair n (Fin.ofNat 4 (i.val / 2))).active (i.val % 2 = 0) t

/-- The level of PWM_O(8n + i) at instant `t`: an output that follows its compares is high while it is active, low while it is not, and
the reverse with POL 1 (R381). -/
def State.pwmLevel (s : State) (n : Fin 16) (i : Fin 8) (t : Int) : PinLevel :=
  match s.pwmPin n i with
  | .edges => if s.pwmActive n i t = bitOf (s.rd (PWM.pg n) PWM.OUTCFG_POL) i then .low else .high
  | x => x

/-! ### Unit events -/

/-- The carrier of unit `n` runs: EN in force and READY or a later mode (R370), its clock domain (R846). -/
def State.carrierRuns (s : State) (n : Nat) : Bool := s.flag (PWM.pg n) PWM.CTRL_EN && s.armed && s.pwr.state ≤ 1

/-- The carrier of unit `n` starts (R370, R371): its first boundary falls at this instant, under SRC 3 where CYC's time next equals PHASE
modulo T; under SRC 1 the unit it follows places it. -/
def State.startCarrier (s : State) (n : Fin 16) : State :=
  let pg := PWM.pg n
  let u := s.pwmUnit n
  let s := s.setPwmUnit n { u with per := s.pwmP n }
  let first : List (Int × Option Nat) := match s.rd pg PWM.SYNC_SRC with
    | 1 => []
    | 3 => [(alignedAt s.fineNow (s.pwmPhase n) (s.pwmT n), none)]
    | _ => [(s.fineNow, none)]
  let pairs := Vector.ofFn fun (k : Fin 4) => ({ delay := s.pairDelay n k, per := s.pwmT n, len := s.pwmT n } : PwmPair)
  (s.setPwmUnit n { s.pwmUnit n with due := first, mid := none, fall := none, sync := [], pairs := pairs }).wr pg
    PWM.STATUS_RUNNING 0 1

/-- It stops: nothing is due. -/
def State.stopCarrier (s : State) (n : Fin 16) : State :=
  let pairs := (s.pwmUnit n).pairs.map fun p => { p with due := [], mid := none, segs := [], hold := none, ext := 0, fall := none }
  (s.setPwmUnit n { s.pwmUnit n with due := [], mid := none, sync := [], pairs := pairs }).wr (PWM.pg n) PWM.STATUS_RUNNING 0 0

/-- NO_SYNC of every filter bank: the carrier of the unit it names does not run (R456). -/
def State.dsfSync (s : State) : State :=
  (List.range 6).foldl (fun s b =>
    s.setFlag (DSF.pg b) DSF.STATUS_NO_SYNC 0
      (s.rd (DSF.pg b) DSF.SYNC_SRC = 1 && !s.carrierRuns (s.rd (DSF.pg b) DSF.SYNC_INDEX))) s

/-- RUNNING follows R370 (R397). -/
def State.syncCarrier (s : State) (n : Fin 16) : State :=
  if s.carrierRuns n = s.flag (PWM.pg n) PWM.STATUS_RUNNING then s
  else (if s.carrierRuns n then s.startCarrier n else s.stopCarrier n).dsfSync

/-- The carriers start and stop with the mode, EN and the power state (R370). -/
def State.carriers (s : State) : State := (List.finRange 16).foldl State.syncCarrier s

/-- The pairs' falling halves that follow have the unit's T (R374, R383): those of the period in progress, or of the one to come where the
pair is behind the unit's mid-period point. -/
def State.feedFalls (s : State) (n : Fin 16) : State :=
  let t := s.pwmT n
  s.setPwmUnit n { s.pwmUnit n with pairs := (s.pwmUnit n).pairs.map fun p =>
    { p with fall := some t, len := if p.due.isEmpty then p.per / 2 + t / 2 else p.len } }

/-- P of the period in progress becomes `p`, from the mid-period point on where `half` says so; the pair delays follow (R374, R383). -/
def State.setPer (s : State) (n : Fin 16) (now : Int) (p : Nat) (half : Bool := false) : State :=
  let s := s.setPwmUnit n { s.pwmUnit n with per := p }
  (if half then s.feedFalls n else s).changeDelays n now

/-- The edges to come of every pair of unit `n` keep the dead time and the minimum in force (R379, R380). -/
def State.retimePairs (s : State) (n : Fin 16) (now : Int) : State :=
  (List.finRange 4).foldl (fun s k =>
    s.placePlan n k false ((s.pwmPair n k).retime now (s.pwmDT n) (s.pwmMinp n) (s.flag (PWM.pg n) PWM.CFG_MINP_MODE))) s

/-- A commit of the page takes effect at `now` (R383), a mid-period point where `half` says so. A period that the unit takes over changes
where that of the unit it follows does (R372). -/
def State.pwmCommit (s : State) (n : Fin 16) (now : Int) (half : Bool := false) : State :=
  if s.commitPending (PWM.pg n) then
    let was := (s.pwmDT n, s.pwmMinp n)
    let s := s.boundary (PWM.pg n)
    let s := s.setPer n now (if s.rd (PWM.pg n) PWM.SYNC_SRC = 1 then s.pwmT n / 64 else s.pwmP n) half
    let s := if was = (s.pwmDT n, s.pwmMinp n) then s else s.retimePairs n now
    (s.syncCarrier n).recheckDrive
  else s

/-- A commit on a unit whose carrier is stopped takes effect at once (R383). -/
def State.pwmIdleCommit (s : State) (n : Fin 16) : State := if s.carrierRuns n then s else s.pwmCommit n s.fineNow

/-- An output that leaves an active safe level at `t` turns off there: its partner, where that is the active side, turns on DT later
(R380). -/
def PwmPair.leaveSafe (p : PwmPair) (t : Int) (dt : Nat) (main comp : Bool) : PwmPair :=
  { p with segs := p.segs.map fun g => if if g.main then comp else main then { g with on := max g.on (t + dt) } else g }

/-- The unit starts to drive at the boundary `t` of its unit carrier at which all conditions hold (R389, R380). -/
def State.driveStart (s : State) (n : Fin 16) (t : Int) : State :=
  if !s.flag (PWM.pg n) PWM.STATUS_DRIVING && s.mayDrive n then
    let u := s.pwmUnit n
    let pairs := Vector.ofFn fun (k : Fin 4) =>
      (u.pairs[k]).leaveSafe t (s.pwmDT n) (s.safeActive n (2 * k)) (s.safeActive n (2 * k + 1))
    ((s.setPwmUnit n { u with pairs := pairs }).wr (PWM.pg n) PWM.STATUS_DRIVING 0 1).irq (PWM.pg n) 1
  else s

/-- The hold of a cycle-by-cycle source ends at the first boundary at which no such source is active (R405). -/
def State.cbcRelease (s : State) (n : Nat) : State :=
  if s.flag (PWM.pg n) PWM.STATUS_CBC_HOLD && !s.cbcActive n then s.wr (PWM.pg n) PWM.STATUS_CBC_HOLD 0 0 else s

/-- The next boundary after instant `t` (R371). -/
def State.nextDue (s : State) (n : Fin 16) (t : Int) : List (Int × Option Nat) :=
  match s.rd (PWM.pg n) PWM.SYNC_SRC with
  | 1 => []
  | 3 => [(alignedAt (t + 1) (s.pwmPhase n) (s.pwmT n), none)]
  | _ => [(t + s.pwmT n, none)]

/-- The units that follow `n` have a boundary PHASE after its boundary `t`, with its period (R371, R372). -/
def State.feedFollowers (s : State) (n : Fin 16) (t : Int) : State :=
  let p := (s.pwmUnit n).per
  (List.finRange 16).foldl (fun s (v : Fin 16) =>
    if s.carrierRuns v && s.rd (PWM.pg v) PWM.SYNC_SRC = 1 && s.rd (PWM.pg v) PWM.SYNC_INDEX = n.val then
      let u := s.pwmUnit v
      s.setPwmUnit v { u with due := u.due ++ [(t + s.pwmPhase v, some p)] }
    else s) s

/-- The pair carriers have a boundary their delay after the unit's boundary `t` (R374), its length that of the unit's period, which
`feedLengths` gives it. -/
def State.feedPairs (s : State) (n : Fin 16) (t : Int) : State :=
  let pairs := (s.pwmUnit n).pairs.map fun p => { p with due := p.due ++ [(t + p.delay, 0)] }
  s.setPwmUnit n { s.pwmUnit n with pairs := pairs }

def State.feedLengths (s : State) (n : Fin 16) : State :=
  let t := s.pwmT n
  s.setPwmUnit n { s.pwmUnit n with
    pairs := (s.pwmUnit n).pairs.map fun p => { p with due := p.due.map fun d => if d.2 = 0 then (d.1, t) else d } }

/-- The period boundary `t` of the unit carrier: commit (R383), the period that starts, period count, end of a hold (R405), start of
driving (R389). `p` is the period taken over under SRC 1. -/
def State.unitBoundary (s : State) (n : Fin 16) (t : Int) (p : Option Nat) : State :=
  let s := (s.feedPairs n t).pwmCommit n t
  let s := if s.carrierRuns n then
      let s := (s.setPer n t (p.getD (s.pwmP n))).feedLengths n
      let u := s.pwmUnit n
      (s.setPwmUnit n { u with due := u.due ++ s.nextDue n t, mid := some (t + (s.pwmT n / 2 : Nat)) }).feedFollowers n t
    else s
  let s := s.wrapBump (PWM.pg n) PWM.PERIOD_COUNT_COUNT
  (s.cbcRelease n).driveStart n t

/-- The units that follow `n` have its period `p` for their falling half (R372): from their mid-period point on, PHASE after `n`'s; one that
falls at this instant may have passed. -/
def State.feedFall (s : State) (n : Fin 16) (t : Int) (p : Nat) : State :=
  (List.finRange 16).foldl (fun s (v : Fin 16) =>
    if s.carrierRuns v && s.rd (PWM.pg v) PWM.SYNC_SRC = 1 && s.rd (PWM.pg v) PWM.SYNC_INDEX = n.val then
      let u := s.pwmUnit v
      if u.mid.isSome || !u.due.isEmpty then s.setPwmUnit v { u with fall := some p }
      else if s.rd (PWM.pg v) PWM.CFG_MODE = 2 then s.setPer v t p true
      else s
    else s) s

/-- The falling half of unit `n` and of those that follow it has period `p` (R372, R383). -/
def State.startFall (s : State) (n : Fin 16) (t : Int) (p : Nat) : State :=
  let s := s.setPer n t p true
  s.feedFall n t p

/-- A commit takes effect at the mid-period point `t`: the boundary to come, where no other unit gives it, and the units that follow (R372,
R383). -/
def State.midCommit (s : State) (n : Fin 16) (t : Int) : State :=
  let s := s.pwmCommit n t true
  let src := s.rd (PWM.pg n) PWM.SYNC_SRC
  if src = 1 then s
  else
    let due := if src = 3 then s.nextDue n t else [(t + (s.pwmT n / 2 : Nat), none)]
    let s := s.setPwmUnit n { s.pwmUnit n with due := due }
    s.feedFall n t (s.pwmUnit n).per

/-- The mid-period point `t` of the unit carrier: in up-down mode a commit takes effect there with UPDATE 1, and the half that follows has
its period (R383), or the one that a unit under SRC 1 takes over (R372). -/
def State.unitMid (s : State) (n : Fin 16) (t : Int) : State :=
  let p := (s.pwmUnit n).fall
  let s := s.setPwmUnit n { s.pwmUnit n with fall := none }
  if s.rd (PWM.pg n) PWM.CFG_MODE = 2 then
    let s := match p with
      | some p => s.startFall n t p
      | none => s
    if s.flag (PWM.pg n) PWM.CFG_UPDATE && s.commitPending (PWM.pg n) then s.midCommit n t else s
  else s

/-- Synchronisation events (R371, R373): an edge of TRIG line `index` (SRC 2) or an event of schedule `index` (SRC 4) at instant `at_`
comes to every unit that names it, PHASE later; one that has passed falls now (R768). -/
def State.pwmSyncFrom (s : State) (src index : Nat) (at_ : Int) : State :=
  (List.finRange 16).foldl (fun s (n : Fin 16) =>
    if s.carrierRuns n && s.rd (PWM.pg n) PWM.SYNC_SRC = src && s.rd (PWM.pg n) PWM.SYNC_INDEX = index then
      let u := s.pwmUnit n
      s.setPwmUnit n { u with sync := u.sync ++ [max s.fineNow (at_ + s.pwmPhase n)] }
    else s) s

/-- CYC steps to `c`: the carriers keep their instants, those of SRC 3 follow the new count (R371). -/
def State.moveCyc (s : State) (c : Word64) : State :=
  let d : Int := 128 * ((c.toNat : Int) - s.cyc.toNat)
  let s := { s with cyc := c }
  (List.finRange 16).foldl (fun s (n : Fin 16) =>
    let u := s.pwmUnit n
    let pairs := u.pairs.map fun p =>
      { p with due := p.due.map fun x => (x.1 + d, x.2), at_ := p.at_ + d, mid := p.mid.map (· + d), hold := p.hold.map (· + d),
               segs := p.segs.map fun g => { g with at_ := g.at_ + d, on := g.on + d } }
    let due := u.due.map fun x => (x.1 + d, x.2)
    let s := s.setPwmUnit n
      { u with due := due, mid := u.mid.map (· + d), sync := u.sync.map (· + d), safeAt := u.safeAt.map (· + d), pairs := pairs }
    if s.carrierRuns n && s.rd (PWM.pg n) PWM.SYNC_SRC = 3 then
      s.setPwmUnit n { s.pwmUnit n with due := [(alignedAt s.fineNow (s.pwmPhase n) (s.pwmT n), none)] }
    else s) s

/-- A bus write (R364): the compare's value is staged. -/
def State.stageCmp (s : State) (n : Fin 16) (c : Fin 8) (v : Word) : State :=
  let u := s.pwmUnit n
  s.setPwmUnit n { u with cmp := u.cmp.set c v }

/-! ### Trips -/

/-- Unit `u` is latched by source `src` (R404, R408): TRIP_SRC takes the first source that latched it. -/
def State.tripUnit (s : State) (src u : Nat) : State :=
  let had := s.flag (PWM.pg u) PWM.STATUS_TRIP_VALID
  let x := s.pwmUnit (unitIx u)
  let same := x.tripAt = s.cyc
  let s := if had then s else s.setPwmUnit (unitIx u) { x with tripAt := s.cyc }
  let s := s.putBit FUSE.pg FUSE.UNIT_TRIP_UNIT 0 u true
  let s := s.wr (PWM.pg u) PWM.STATUS_TRIPPED 0 1
  let s := if !had || (same && src < s.rd (PWM.pg u) PWM.STATUS_TRIP_SRC) then s.wr (PWM.pg u) PWM.STATUS_TRIP_SRC 0 src else s
  (s.wr (PWM.pg u) PWM.STATUS_TRIP_VALID 0 1).stopDrive u

/-- The units that `MAPs` names. -/
def State.mappedUnits (s : State) (src : Nat) : List Nat :=
  (List.range 16).filter fun u => bitOf (s.rd FUSE.pg FUSE.MAP_UNITS src) u

/-- The Fusebox becomes armed or a mode is entered: every unit to which an enabled cycle-by-cycle source that is active maps is held
(R405). -/
def State.cbcHolds (s : State) : State :=
  (List.range 16).foldl (fun s u => if s.cbcActive u then s.wr (PWM.pg u) PWM.STATUS_CBC_HOLD 0 1 else s) s

/-- An activation of source `src` acts (R404 to R406, R408): latch and unit trips, or the cycle-by-cycle hold; and the mode
stop. -/
def State.fuseAct (s : State) (src : Nat) : State :=
  let s := { s with fuse := { s.fuse with edges := clearBitOf s.fuse.edges src } }
  if !(s.armed && s.flag FUSE.pg FUSE.MAP_EN src) then s
  else
    let s :=
      if s.flag FUSE.pg FUSE.MAP_CYCLE src then
        let s := (s.mappedUnits src).foldl (fun s u => (s.wr (PWM.pg u) PWM.STATUS_CBC_HOLD 0 1).stopDrive u) s
        (s.bump FUSE.pg FUSE.CBC_COUNT_COUNT).irq FUSE.pg 1
      else
        let s := (s.recordFirst src).putLatch src true
        let s := (s.mappedUnits src).foldl (fun s u => s.tripUnit src u) s
        s.irq FUSE.pg 0
    let s := if s.flag FUSE.pg FUSE.MAP_STOP src && s.mode ≠ mSAFE then (s.safeStop 0x10 src (s.selfCause src)).irq FUSE.pg 3 else s
    s.fuseStatus

/-! ### Commit checks (R385, R386) -/

/-- P that would be in force for unit `n` after a commit of its page (R372). -/
def State.pwmPNew (s : State) (n : Nat) : Nat :=
  if s.merged (PWM.pg n) PWM.SYNC_SRC = 1 then s.pwmP (s.merged (PWM.pg n) PWM.SYNC_INDEX)
  else s.merged (PWM.pg n) PWM.PERIOD_COARSE

/-- Dead time that would be in force, in fine steps. -/
def State.pwmDTNew (s : State) (n : Nat) : Nat :=
  s.merged (PWM.pg n) PWM.DEADTIME_COARSE * 64 + s.merged (PWM.pg n) PWM.DEADTIME_FINE

/-- The safe level of output `i` would be its active level (R381, R385). -/
def State.safeIsActive (s : State) (n i : Nat) : Bool :=
  let safe := bitsOf (s.merged (PWM.pg n) PWM.SAFE_LEVEL) (2 * i) 2
  let low := bitOf (s.merged (PWM.pg n) PWM.OUTCFG_POL) i
  (safe = 1 && !low) || (safe = 0 && low)

/-- Period `p` is too short for the dead time and minimum pulse of unit `n` (first condition of R385): as merged, and for a unit that
follows as in force. -/
def State.periodShort (s : State) (p n : Nat) : Bool :=
  p * 64 < 2 * (s.pwmDTNew n + s.merged (PWM.pg n) PWM.MINP_COARSE * 64)
def State.followerShort (s : State) (p v : Nat) : Bool := p * 64 < 2 * (s.pwmDT v + s.pwmMinp v)

/-- Unit `v` follows unit `n`, by way of other units or not (R372). -/
def State.follows (s : State) : Nat → Nat → Nat → Bool
  | 0, _, _ => false
  | k + 1, v, n =>
    s.rd (PWM.pg v) PWM.SYNC_SRC = 1 &&
      (s.rd (PWM.pg v) PWM.SYNC_INDEX = n || s.follows k (s.rd (PWM.pg v) PWM.SYNC_INDEX) n)

/-- A safe level of 3 is out of range (R386). -/
def State.pwmRangeBad (s : State) (n : Nat) : Bool :=
  (List.range 8).any fun i => bitsOf (s.merged (PWM.pg n) PWM.SAFE_LEVEL) (2 * i) 2 = 3

/-- The conditions of R385 and R372. -/
def State.pwmInconsistent (s : State) (n : Nat) : Bool :=
  let pg := PWM.pg n
  let p := s.pwmPNew n
  let idx := s.merged pg PWM.SYNC_INDEX
  s.periodShort p n || (s.merged pg PWM.CFG_MODE = 2 && p % 2 = 1) ||
  p * 64 ≤ s.merged pg PWM.PHASE_COARSE * 64 + s.merged pg PWM.PHASE_FINE ||
  ((List.range 4).any fun k => p * 64 ≤ s.merged pg PWM.PAIR_PHASE_COARSE k * 64 + s.merged pg PWM.PAIR_PHASE_FINE k) ||
  ((List.range 4).any fun k => s.safeIsActive n (2 * k) && s.safeIsActive n (2 * k + 1)) ||
  (((List.range 8).any fun i => s.safeIsActive n i) && 16000 < s.pwmDTNew n) ||
  (s.merged pg PWM.SYNC_SRC = 1 && (idx = n || s.rd (PWM.pg idx) PWM.SYNC_SRC = 1)) ||
  ((List.range 16).any fun v =>
    v ≠ n && s.follows 16 v n && s.isStaged pg PWM.PERIOD_COARSE && s.merged pg PWM.SYNC_SRC ≠ 1 &&
      s.followerShort (s.merged pg PWM.PERIOD_COARSE) v)

end Sys2Proof.Machine
end

