-- ==== Sys2Proof/Machine/LoopEngine.lean ====
section
/-!
DEFINITION. Machine/LoopEngine.lean: the loop engines (05 R240 to R311): slots, triggers, runs, staleness, set points,
hand-overs, coefficient swaps, states. The instructions stand in Machine/LoopIsa.lean.
-/
namespace Sys2Proof.Machine

def State.leUnit (s : State) (n : Fin 16) : LeUnit := s.le[n]
def State.setLe (s : State) (n : Fin 16) (u : LeUnit) : State := { s with le := s.le.set n u }

/-- The states of R297. -/
abbrev leSTOPPED : Nat := 0
abbrev leCLOSED : Nat := 1
abbrev leOPEN : Nat := 2
abbrev leBLEND : Nat := 3
abbrev leHOLD : Nat := 4
abbrev leFALLBACK : Nat := 5
abbrev leFAULT : Nat := 6

def State.leState (s : State) (n : Nat) : Nat := s.rd (LE.pg n) LE.STATUS_STATE

/-- An EVT field selects a PWM event: 0 the boundary, 1 the mid-period point, 2 both (R244, R424, R454). -/
def evtHits (evt : Nat) (mid : Bool) : Bool := evt = 2 || evt = bit01 mid

/-! ### Data memory and the program store -/

def State.dmem (s : State) (n w : Nat) : Word := s.lps.dmem.get (n * 512 + w)
def State.setDmem (s : State) (n w : Nat) (v : Word) : State :=
  { s with lps := { s.lps with dmem := s.lps.dmem.put (n * 512 + w) v } }
def State.lpsWord (s : State) (w : Nat) : BitVec 64 := s.lps.words.get w

/-- The parity bits of a word: P_LO makes [31:0] even, P_HI [63:32] (R322). -/
def parityOf (v : BitVec 64) : BitVec 2 :=
  let odd := fun lo => (List.range 32).foldl (fun p i => p != v.getLsbD (lo + i)) false
  BitVec.ofBool (odd 32) ++ BitVec.ofBool (odd 0)

/-- A word written into the LPS, with parity bits generated for it (R322). -/
def State.setLpsWord (s : State) (w : Nat) (v : BitVec 64) : State :=
  { s with lps := { s.lps with words := s.lps.words.put w v, parity := s.lps.parity.put w (parityOf v) } }

/-- A fetch of word `w` passes its parity check (R348). -/
def State.parityOk (s : State) (w : Nat) : Bool := s.lps.parity.get w = parityOf (s.lpsWord w)

/-- An upset leaves a parity error in word `w`: of the bits that it may flip the model flips P_LO (log entry 36). -/
def State.lpsUpset (s : State) (w : Nat) : State :=
  if s.parityOk w then { s with lps := { s.lps with parity := s.lps.parity.put w (parityOf (s.lpsWord w) ^^^ 1#2) } } else s

/-- Word `w` is a coefficient word of engine `n` (R288, `LEn.DMAP`). -/
def State.isCoef (s : State) (n w : Nat) : Bool :=
  let b := s.rd (LE.pg n) LE.DMAP_COEF_BASE
  b ≤ w && w < b + s.rd (LE.pg n) LE.DMAP_COEF_LEN

/-! ### Sources of the Fusebox, STATE -/

/-- LE_FAULT and LE_STALE follow the engines (R300, R261). -/
def State.leSources (s : State) : State :=
  let s := s.setSource 53 ((List.range 16).any fun n => s.leState n = leFAULT)
  s.setSource 54 (s.le.toList.any fun u => u.trip)

/-- Some port of engine `n` is a PWM port. -/
def State.hasPwmPort (s : State) (n : Nat) : Bool := (List.range 8).any fun j => s.rd (LE.pg n) LE.OPORT_CFG_KIND j = 1

/-- `STATUS.DUTY_LIVE`: the PWM ports stage compares, which they do not in READY (R278, R297). -/
def State.leDuty (s : State) (n : Nat) : State :=
  let st := s.leState n
  s.setFlag (LE.pg n) LE.STATUS_DUTY_LIVE 0
    (s.mode ≠ mREADY && s.hasPwmPort n && (st = leCLOSED || st = leBLEND || st = leFALLBACK))

/-- The engine takes state `st`; a change sets IRQ bit STATE_CHANGE (R297). -/
def State.setLeState (s : State) (n st : Nat) : State :=
  let old := s.leState n
  ((s.wr (LE.pg n) LE.STATUS_STATE 0 st).leDuty n).irqIf (old ≠ st) (LE.pg n) 0

/-! ### Input slots (R253 to R260) -/

/-- A write of slot `k` of engine `n` (R258). -/
def State.slotWrite (s : State) (n : Fin 16) (k : Nat) (v : Word) (valid : Bool) : State :=
  let pg := LE.pg n
  let s := s.wr pg LE.SLOTVAL_VALUE k v.toNat
  if valid then
    let s := s.wrapBump pg LE.SLOTSTAT_FRESH k
    let s := s.wr pg LE.SLOTSTAT_VALID k 1
    s.setLe n { s.leUnit n with adv := (s.leUnit n).adv ||| BitVec.twoPow 32 k }
  else s.wr pg LE.SLOTSTAT_VALID k 0

/-- A result of source (KIND, INDEX) reaches every slot routed to it (R253, R255). -/
def State.routeResult (s : State) (kind index : Nat) (v : Word) (valid : Bool := true) : State :=
  (List.finRange 16).foldl (fun s (n : Fin 16) =>
    (List.range 32).foldl (fun s k =>
      if s.rd (LE.pg n) LE.SLOTROUTE_KIND k = kind ∧ s.rd (LE.pg n) LE.SLOTROUTE_INDEX k = index then
        s.slotWrite n k v valid else s) s) s

/-- Word `w` of a Form Unit's output vector reaches engine `n`'s Form group (R138, R254). -/
def State.formWord (s : State) (n : Fin 16) (w : Nat) (v : Word) : State :=
  if s.flag (LE.pg n) LE.FORMSLOT_EN then s.slotWrite n (8 * s.rd (LE.pg n) LE.FORMSLOT_GROUP + w) v true else s

/-- An event of source (KIND, INDEX): every engine whose TRIG selects it has one more to count; `mid`: a mid-period point of a PWM
unit, else its boundary. A STOPPED or FAULT engine counts none (R244, R248). -/
def State.leEmit (s : State) (kind index : Nat) (mid : Bool := false) : State :=
  (List.finRange 16).foldl (fun s (n : Fin 16) =>
    let pg := LE.pg n
    let st := s.leState n
    if s.rd pg LE.TRIG_KIND = kind && s.rd pg LE.TRIG_INDEX = index && (kind ≠ 1 || evtHits (s.rd pg LE.TRIG_EVT) mid) &&
        st ≠ leSTOPPED && st ≠ leFAULT then
      s.setLe n { s.leUnit n with owed := (s.leUnit n).owed + 1 }
    else s) s

/-! ### Triggers of the SAR units (08 R423, R424) -/

def State.sarUnit (s : State) (u : Fin 6) : SarUnit := s.sar[u]
def State.setSar (s : State) (u : Fin 6) (x : SarUnit) : State := { s with sar := s.sar.set u x }

/-- The unit accepts triggers (R423). -/
def State.sarAccepts (s : State) (u : Nat) : Bool := s.flag (SAR.pg u) SAR.CTRL_EN && s.armed && s.pwr.state ≤ 1

/-- An event of source (KIND, INDEX) of R424: it comes to every unit that accepts triggers and whose REGTRIG or INJTRIG selects it;
`mid`: a mid-period point of a PWM unit, else its boundary. -/
def State.sarEmit (s : State) (kind index : Nat) (mid : Bool := false) : State :=
  (List.finRange 6).foldl (fun s (u : Fin 6) =>
    let pg := SAR.pg u
    if !s.sarAccepts u then s
    else
      let hit := fun (k i e : Fld) => s.rd pg k = kind && s.rd pg i = index && (kind ≠ 1 || evtHits (s.rd pg e) mid)
      let x := s.sarUnit u
      s.setSar u { x with
        owedReg := x.owedReg + bit01 (hit SAR.REGTRIG_KIND SAR.REGTRIG_INDEX SAR.REGTRIG_EVT)
        owedInj := x.owedInj + bit01 (hit SAR.INJTRIG_KIND SAR.INJTRIG_INDEX SAR.INJTRIG_EVT) }) s

/-- A Form Unit in SYNC, FORM, RAMP or FAULT names engine `n` in an enabled BMAP entry (R260). -/
def State.formFeeds (s : State) (n : Nat) : Bool :=
  (List.range 2).any fun f =>
    1 ≤ s.rd (FORM.pg f) FORM.STATUS_STATE && (List.range 4).any fun b =>
      s.flag (FORM.pg f) FORM.BMAP_EN b && s.rd (FORM.pg f) FORM.BMAP_LE b = n

/-- Slot `k` takes part in the stale check: watched, and not of a Form group that no Form Unit feeds (R260). -/
def State.slotWatched (s : State) (n k : Nat) : Bool :=
  bitOf (s.rd (LE.pg n) LE.WATCH_MASK) k &&
    (s.formFeeds n || !s.flag (LE.pg n) LE.FORMSLOT_EN || k / 8 ≠ s.rd (LE.pg n) LE.FORMSLOT_GROUP)

/-- The exclusion of the Form group of each engine that is fed now and was not in `old` ends: AGE of its slots is 0 (R260). -/
def State.formFed (s old : State) : State :=
  (List.range 16).foldl (fun s n =>
    if s.formFeeds n && !old.formFeeds n && s.flag (LE.pg n) LE.FORMSLOT_EN then
      (List.range 8).foldl (fun s i => s.wr (LE.pg n) LE.SLOTSTAT_AGE (8 * s.rd (LE.pg n) LE.FORMSLOT_GROUP + i) 0) s
    else s) s

/-- The engine is stale (R260). -/
def State.leIsStale (s : State) (n : Nat) : Bool :=
  (List.range 32).any fun k => s.slotWatched n k && s.rd (LE.pg n) LE.STALE_LIMIT ≤ s.rd (LE.pg n) LE.SLOTSTAT_AGE k

/-- AGE of every slot at a run start (R259), those that R260 takes out of the check too. -/
def State.leAges (s : State) (n : Fin 16) : State :=
  let pg := LE.pg n
  let adv := (s.leUnit n).adv
  let s := (List.range 32).foldl (fun s k =>
    s.wr pg LE.SLOTSTAT_AGE k (if adv.getLsbD k then 0 else satInc 8 (s.rd pg LE.SLOTSTAT_AGE k))) s
  s.setLe n { s.leUnit n with adv := 0 }

/-! ### The program in force -/

/-- The program of the mode (R280): m of PROGm, none in a mode without one. -/
def progOfMode (m : Nat) : Option Nat :=
  if m = mREADY then some 0 else if m = mSYNC then some 1 else if m = mGRID then some 2 else if m = mISLAND then some 3
  else none

/-- PROGm as (`STATUS.PROG` code, START, LIMSET); m = 4 is FBPROG. -/
def State.progReg (s : State) (n m : Nat) : Nat × Nat × Nat :=
  (m + 1, s.rd (LE.pg n) LE.PROG_START m, s.rd (LE.pg n) LE.PROG_LIMSET m)

/-- The program in force for the mode: PREPROG of a port's sequencer (R487), or PROGm. -/
def State.leProgram (s : State) (n : Fin 16) : Nat × Nat × Nat :=
  match (s.leUnit n).pre with
  | some (st, lim) => (6, st, lim)
  | none => s.progReg n ((progOfMode s.mode).getD 0)

/-- The header fields of the program at START (R316). -/
def State.hdrCycles (s : State) (start : Nat) : Nat := bitsOf (s.lpsWord start).toNat 16 16
def State.hdrLength (s : State) (start : Nat) : Nat := bitsOf (s.lpsWord start).toNat 46 12

/-- `STATUS.PROG` and `RUN_CYCLES.CYCLES` show the program in force and the CYCLES of its header (R307, R316): none in STOPPED, the
fallback program in FALLBACK, else the mode's. In FAULT they stay. -/
def State.leShow (s : State) (n : Fin 16) : State :=
  let st := s.leState n
  if st = leSTOPPED || st = leFAULT then s
  else
    let prog := if st = leFALLBACK then s.progReg n 4 else s.leProgram n
    (s.wr (LE.pg n) LE.STATUS_PROG 0 prog.1).wr (LE.pg n) LE.RUN_CYCLES_CYCLES 0 (s.hdrCycles prog.2.1)

/-! ### Entering STOPPED, FAULT and OPEN -/

/-- Entry to STOPPED (R297, R318): trigger discarded, divider count and every AGE cleared, G registers cleared. Writes since the
last run start stay on record (R259). -/
def State.leStop (s : State) (n : Fin 16) : State :=
  let pg := LE.pg n
  let u := s.leUnit n
  let s := s.setLe n { inS := u.inS, inSP := u.inSP, inL := u.inL, front := u.front, adv := u.adv, pre := u.pre, halted := u.halted }
  let s := (List.range 32).foldl (fun s k => s.wr pg LE.SLOTSTAT_AGE k 0) s
  let s := (s.wr pg LE.STATUS_BUSY 0 0).wr pg LE.STATUS_STALE 0 0
  let s := (s.wr pg LE.STATUS_PROG 0 0).wr pg LE.RUN_CYCLES_CYCLES 0 0
  let s := (s.setLeState n leSTOPPED).leSources
  s.boundary pg

/-- Entry to FAULT (R299, R300): the run is aborted. -/
def State.leFault (s : State) (n : Fin 16) (cause : Nat) : State :=
  let pg := LE.pg n
  let u := s.leUnit n
  let s := s.setLe n { u with run := none, owed := 0, due := false, held := false, kept := false, blend := 0, swap := false, stop := false, trip := false }
  let s := (s.wr pg LE.STATUS_FAULT_CAUSE 0 cause).wr pg LE.STATUS_BUSY 0 0
  let s := ((s.setLeState n leFAULT).irq pg 5).leSources
  s.boundary pg

/-- A trigger is skipped and counted (R292, R916). -/
def State.leSkip (s : State) (n : Nat) : State := s.bump (LE.pg n) LE.SKIP_COUNT_COUNT

/-- Entry to OPEN (R292): a trigger held when OPEN begins is skipped. -/
def State.leOpen (s : State) (n : Fin 16) : State :=
  let u := s.leUnit n
  let s := if u.due || u.held then s.leSkip n else s
  (s.setLe n { u with due := false, held := false, kept := false, swap := false }).setLeState n leOPEN

/-- The hand-over due at the next executed run: a start run outranks a tracking run. -/
def HandOver.atLeastTrack : HandOver → HandOver
  | .start => .start
  | _ => .track

/-- `COEF_LEN` words of an image copied into the coefficient words; false where a word of the image has an uncorrectable
error, and then the words before it are copied. -/
def State.coefCopy (s : State) (n : Fin 16) (src : Nat) : Bool × State :=
  let b := s.rd (LE.pg n) LE.DMAP_COEF_BASE
  (List.range (s.rd (LE.pg n) LE.DMAP_COEF_LEN)).foldl (fun (acc : Bool × State) i =>
    if acc.1 then
      match acc.2.sramRead (src + 4 * i) with
      | (some v, s) => (true, s.setDmem n (b + i) v)
      | (none, s) => (false, s)
    else acc) (true, s)

/-- COEF_COPY_DONE (R293, R294, R295). DESIGN CHOICE (log entry 52), both open in the spec: the copy and `COEF_MASTER` take `COEF_STAGE` as it
reads at the completion, where it was rewritten during OPEN; `COEF_FAIL` and its interrupt are set also where the copy back fails and
the engine enters FAULT. -/
def State.coefCopyDone (s : State) (n : Fin 16) : State :=
  let pg := LE.pg n
  if s.leState n ≠ leOPEN then s
  else
    let stage := s.rd pg LE.COEF_STAGE_ADDR
    let (ok, s) := s.coefCopy n stage
    let resume := fun (s : State) =>
      (s.setLe n { s.leUnit n with hand := (s.leUnit n).hand.atLeastTrack }).setLeState n leCLOSED
    if ok then
      let s := (s.wr pg LE.COEF_MASTER_ADDR 0 stage).wr pg LE.STATUS_COEF_FAIL 0 0
      resume (s.irq pg 3)
    else
      let (ok, s) := s.coefCopy n (s.rd pg LE.COEF_MASTER_ADDR)
      let s := (s.wr pg LE.STATUS_COEF_FAIL 0 1).irq pg 4
      if ok then resume s else s.leFault n 0x05

/-- COEF_SWAP accepted (R291, R292, R302). -/
def State.coefSwap (s : State) (n : Fin 16) : State :=
  let u := s.leUnit n
  if u.run.isSome || u.due then s.setLe n { u with swap := true } else s.leOpen n

/-- Why a COEF_SWAP is refused, if it is (R291). -/
def State.coefSwapRefused (s : State) (n : Nat) : Option Nat :=
  let a := s.rd (LE.pg n) LE.COEF_STAGE_ADDR
  if s.leState n ≠ leCLOSED then some 0x05
  else if a % 8 ≠ 0 || !inSram a (4 * s.rd (LE.pg n) LE.DMAP_COEF_LEN) then some 0x03
  else none

/-- RESUME accepted (R264): the next run is the tracking run, or the start run that waits (R302). -/
def State.leResume (s : State) (n : Fin 16) : State :=
  let u := s.leUnit n
  ((s.setLe n { u with hand := u.hand.atLeastTrack, blend := 0 }).setLeState n leCLOSED).leShow n

/-- A RESUME is refused (R264). -/
def State.resumeRefused (s : State) (n : Nat) : Bool := s.leState n ≠ leFALLBACK || s.leIsStale n

/-! ### Triggers (R246 to R250) -/

/-- LE_TRIGGER: engine `n` counts an event that its source has emitted (R244, R246); without one nothing happens. DESIGN CHOICE (log entry
52): a second trigger between a trigger and its run start, with no run in progress, is held as one during the run would be, and stays
held where that run start leads to HOLD (R250 speaks of a trigger during a run). -/
def State.leTrigger (s : State) (n : Fin 16) : State :=
  let pg := LE.pg n
  let st := s.leState n
  if (s.leUnit n).owed = 0 || st = leSTOPPED || st = leFAULT then s
  else
    let u := s.leUnit n
    let e := u.events
    let s := s.setLe n { u with owed := u.owed - 1, events := e + 1 }
    let u := s.leUnit n
    if e % (s.rd pg LE.TRIG_DIV + 1) ≠ s.rd pg LE.TRIG_PHASE then s
    else if st = leOPEN || u.halted then s.leSkip n
    else if u.run.isNone && !u.due then s.setLe n { u with due := true }
    else if !u.held && !u.kept then s.setLe n { u with held := true }
    else (s.bump pg LE.OVERRUN_COUNT_COUNT).irq pg 1

/-! ### Run starts -/

/-- One step of a ramp from `v` towards `t` by at most `rate` (R268). A ramp with a NaN has no stated value: `r` is free. -/
def rampStep (r v t rate : Word) : Word :=
  match fpIn v, fpIn t with
  | .fin _ _, .fin _ _ =>
    let d := ratOf t.toNat - ratOf v.toNat
    if ratAbs d ≤ ratOf rate.toNat then t else if d < 0 then fsub r v rate else fadd r v rate
  | .fin _ _, .inf neg => if neg then fsub r v rate else fadd r v rate
  | .inf _, .inf _ => t
  | _, _ => r

/-- The measured value of set-point slot `i` (R269). -/
def State.spMeasured (s : State) (n : Fin 16) (i : Nat) : Word :=
  let ix := s.rd (LE.pg n) LE.SP_CFG_MEAS_IDX i
  if s.flag (LE.pg n) LE.SP_CFG_MEAS_KIND i then s.dmem n ix else (s.leUnit n).inS.toList.getD ix 0

/-- Set-point slot `i` at a run start (R266, R268). -/
def State.spStart (s : State) (n : Fin 16) (i : Fin 8) (reset : Bool) : State :=
  let pg := LE.pg n
  let u := s.leUnit n
  let old := u.front[i]
  let front := BitVec.ofNat 32 (s.rd pg LE.SP_TARGET_VALUE i)
  let v := BitVec.ofNat 32 (s.rd pg LE.SP_VALUE_VALUE i)
  let (r, s) := s.freshWord
  let value :=
    if !s.flag pg LE.SP_CFG_RAMP_EN i then front
    else
      let v := if reset || (front ≠ old && v = old) then s.spMeasured n i else v
      rampStep r v front (BitVec.ofNat 32 (s.rd pg LE.SP_RATE_VALUE i))
  let s := s.wr pg LE.SP_VALUE_VALUE i value.toNat
  s.setLe n { s.leUnit n with front := u.front.set i front, inSP := u.inSP.set i value }

def State.spStarts (s : State) (n : Fin 16) (reset : Bool) : State :=
  (List.finRange 8).foldl (fun s (i : Fin 8) => s.spStart n i reset) s

/-- Ticks of BLEND.MS. -/
def State.blendTicks (s : State) (n : Nat) : Nat := s.rd (LE.pg n) LE.BLEND_MS * 250000

/-- The weight w of R285 at the run start in progress. -/
def State.blendW (s : State) (n : Fin 16) : Rat := mkRat (s.since (s.leUnit n).tb) (s.blendTicks n)

/-- The blend ends at the first run with w ≥ 1 (R286). -/
def State.blendEnd (s : State) (n : Fin 16) : State :=
  let u := s.leUnit n
  if u.blend ≠ 0 && s.blendTicks n ≤ s.since u.tb then
    let s := s.setLe n { u with blend := 0 }
    let s := (s.bump (LE.pg n) LE.BLEND_COUNT_COUNT).irq (LE.pg n) 6
    if s.leState n = leBLEND then s.setLeState n leCLOSED else s
  else s

/-- `OPORTj.LAST` of every port. -/
def State.lasts (s : State) (n : Nat) : Vector Word 8 := Vector.ofFn fun j => BitVec.ofNat 32 (s.rd (LE.pg n) LE.OPORT_LAST_VALUE j)

/-- The address of the next word to issue from `w` on: a header takes no cycle and is passed (R316). -/
def State.lePass (s : State) : Nat → Nat → Nat
  | 0, w => w
  | k + 1, w => if (s.lpsWord w).toNat / 2 ^ 58 = 0x3F then s.lePass k ((w + 1) % 4096) else w

/-- An executed run starts: program (code, START, LIMSET) as the hand-over due, a start run or a tracking run. A run of the fallback
program (code 5) leaves the hand-over that waits for the mode's program (R302). -/
def State.leExecute (s : State) (n : Fin 16) (prog : Nat × Nat × Nat) (hand : HandOver) : State :=
  let pg := LE.pg n
  let u := s.leUnit n
  let start := hand = .start
  let track := hand = .track
  let run : LeRun := { prog := prog.1, origin := prog.2.1, pc := s.lePass 4096 ((prog.2.1 + 1) % 4096), start := start, track := track,
                       limset := prog.2.2, at_ := s.cyc }
  let u := { u with run := some run, hand := if prog.1 = 5 then u.hand else .none, last := some prog.2.1, p := 0, rel := false,
                    preStart := u.preStart && prog.1 = 5 }
  let u := if start || track then { u with tb := s.cyc, lastB := s.lasts n, blend := 0 } else u
  let s := (s.setLe n u).wr pg LE.STATUS_BUSY 0 1
  (s.wr pg LE.STATUS_PROG 0 prog.1).wr pg LE.RUN_CYCLES_CYCLES 0 (s.hdrCycles prog.2.1)

/-- The hand-over of the program that would execute: the one due, or a tracking run where the program is a different one
from the last executed (R281, R282). -/
def LeUnit.handFor (u : LeUnit) (start : Nat) : HandOver :=
  match u.hand with
  | .none => if u.last = some start then .none else .track
  | h => h

/-- LE_RUN_START (R256 to R268, R281 to R286, R309). -/
def State.leRunStart (s : State) (n : Fin 16) : State :=
  let pg := LE.pg n
  let st := s.leState n
  if !(s.leUnit n).due || st = leSTOPPED || st = leFAULT || st = leOPEN || (s.leUnit n).halted then s
  else
    let s := s.boundary pg
    let s := s.setLe n { s.leUnit n with
      due := false
      kept := false
      inS := Vector.ofFn fun k => BitVec.ofNat 32 (s.rd pg LE.SLOTVAL_VALUE k)
      inL := s.lasts n }
    let s := s.leAges n
    let stale := s.leIsStale n
    let s := s.setFlag pg LE.STATUS_STALE 0 stale
    let s := s.setLe n { s.leUnit n with trip := stale && st ≠ leFALLBACK && s.rd pg LE.STALE_ACTION = 2 }
    let s := s.leSources
    let u := s.leUnit n
    if st = leFALLBACK then
      ((s.spStarts n u.rel).blendEnd n).leExecute n (s.progReg n 4) (if u.rel then .track else .none)
    else if stale then
      if st = leHOLD then s.spStarts n false
      else
        let s := (s.bump pg LE.STALE_COUNT_COUNT).irq pg 2
        let prog := s.leProgram n
        let s := s.setLe n { s.leUnit n with hand := (u.handFor prog.2.1).atLeastTrack, blend := 0 }
        if s.rd pg LE.STALE_ACTION = 1 then
          ((s.spStarts n true).setLeState n leFALLBACK).leExecute n (s.progReg n 4) .track
        else
          let s := (s.spStarts n false).setLeState n leHOLD
          if (s.leUnit n).swap then s.leOpen n else s
    else
      let prog := s.leProgram n
      let hand := if st = leHOLD then (u.handFor prog.2.1).atLeastTrack else u.handFor prog.2.1
      let s := if st = leHOLD then s.setLeState n leCLOSED else s
      let s := s.spStarts n (hand ≠ .none)
      let s := if hand = .none then s.blendEnd n else s
      s.leExecute n prog hand

/-! ### Mode changes (R280, R281, R297, R298, R301) -/

/-- The conditions of R280 for STOPPED, and of R880. -/
def State.leMustStop (s : State) (n : Nat) : Bool :=
  !s.flag (LE.pg n) LE.CTRL_EN || s.pwr.away ||
  match progOfMode s.mode with
  | none => true
  | some m => !s.flag (LE.pg n) LE.PROG_EN m

/-- FAULT ends on entry to CONFIG (R301). -/
def State.leRecover (s : State) (n : Fin 16) : State := (s.wr (LE.pg n) LE.STATUS_FAULT_CAUSE 0 0).leStop n

/-- Engine `n` at the mode tick that changed the mode from `old`. A run in progress completes before the engine stops, STATE unchanged up
to its END: R298 says so for BOOT, CONFIG and SAFE_STOP, and DESIGN CHOICE (log entry 52) for a mode whose PROGm has EN 0. The stop that
waits for it stands, whatever the mode is by then; the engine leaves STOPPED at the mode tick behind it (R281). A copy in OPEN completes first; where its restore fails the engine
is in FAULT (R294, R298, R302). -/
def State.leMode (s : State) (old : Nat) (n : Fin 16) : State :=
  let st := s.leState n
  let u := s.leUnit n
  if st = leFAULT then
    if s.mode = mCONFIG then s.leRecover n else s
  else if s.leMustStop n then
    if st = leSTOPPED then s
    else if u.run.isSome && !u.halted then (s.setLe n { u with stop := true, due := false, held := false }).leDuty n
    else if st = leOPEN then
      let s := s.coefCopyDone n
      if s.leState n = leFAULT then (if s.mode = mCONFIG then s.leRecover n else s) else s.leStop n
    else s.leStop n
  else if st = leSTOPPED then
    ((s.setLe n { u with hand := .start, preStart := false, owed := 0, events := 0 }).setLeState n leCLOSED).leShow n
  else if old = mREADY || s.mode = mREADY then ((s.setLe n { u with hand := .start, preStart := false }).leDuty n).leShow n
  else (s.leDuty n).leShow n

def State.leModes (s : State) (old : Nat) : State :=
  ((List.finRange 16).foldl (fun s (n : Fin 16) => s.leMode old n) s).leSources

/-! ### Ports (R271 to R279, R284, R285) -/

/-- `v` held within [lo, hi], as binary32 patterns of finite values. -/
def clampW (v lo hi : Word) : Word :=
  if ratOf v.toNat < ratOf lo.toNat then lo else if ratOf hi.toNat < ratOf v.toNat then hi else v

/-- The duty-port write of a PWM port reaches the compares (R273, R274, R364). -/
def State.portStage (s : State) (n : Fin 16) (j : Nat) (v : Word) : State :=
  let pg := LE.pg n
  let unit : Fin 16 := Fin.ofNat 16 (s.rd pg LE.OPORT_CFG_UNIT j)
  let ix := s.rd pg LE.OPORT_CFG_INDEX j
  let q := ratOf v.toNat
  if s.flag pg LE.OPORT_CFG_SPLIT j then
    (s.stageCmp unit (Fin.ofNat 8 ix) (u131 q)).stageCmp unit (Fin.ofNat 8 (ix + 1)) (u131 (-q))
  else s.stageCmp unit (Fin.ofNat 8 ix) (u131 q)

/-- Deliver `v` through port `j` (R272 to R278): nothing of the run of a halted engine, whose instructions LE_STEP issues (R916). -/
def State.portDeliver (s : State) (n : Fin 16) (j : Nat) (v : Word) : State :=
  let pg := LE.pg n
  if (s.leUnit n).halted then s
  else
  match s.rd pg LE.OPORT_CFG_KIND j with
  | 1 =>
    let s := s.wr pg LE.OPORT_LAST_VALUE j v.toNat
    let s := s.sigUpdate 5 (n * 8 + j) v
    if s.mode ≠ mREADY then s.portStage n j v else s
  | 2 =>
    let s := s.wr pg LE.OPORT_LAST_VALUE j v.toNat
    let s := s.sigUpdate 5 (n * 8 + j) v
    s.wr (LE.pg (s.rd pg LE.OPORT_CFG_UNIT j)) LE.SP_TARGET_VALUE (s.rd pg LE.OPORT_CFG_INDEX j) v.toNat
  | _ => s

/-- What port `j` delivers for program value `v` in the run in progress, and whether it blends (R271, R284, R285). DESIGN CHOICE (log entry
52): the sum of R285 is exact and rounded once to binary32, before the clamp; the spec gives no rounding inside it. -/
def State.portValue (s : State) (n : Fin 16) (j : Fin 8) (run : LeRun) (v : Word) : Word × Bool :=
  let pg := LE.pg n
  let u := s.leUnit n
  let lo := BitVec.ofNat 32 (if run.limset = 0 then s.rd pg LE.OPORT_LO0_VALUE j else s.rd pg LE.OPORT_LO1_VALUE j)
  let hi := BitVec.ofNat 32 (if run.limset = 0 then s.rd pg LE.OPORT_HI0_VALUE j else s.rd pg LE.OPORT_HI1_VALUE j)
  let c := clampW v lo hi
  let b := ratOf (u.lastB[j]).toNat
  if run.track then
    if ratAbs (ratOf v.toNat - b) ≤ ratOf (s.rd pg LE.OPORT_BUMP_VALUE j) then (c, false)
    else (clampW u.lastB[j] lo hi, true)
  else if u.blend.getLsbD j then
    let w := mkRat ((run.at_ - u.tb).toNat) (s.blendTicks n)
    (clampW (f32 (b + w * (ratOf v.toNat - b))) lo hi, true)
  else (c, false)

/-- The lowest frequency of the LE domain is `num / den` of 500 MHz (R847, R848, R856): that of the profile in force, in a hop the lower of the
two, less the depth of a spread that runs. -/
def State.leSlow (s : State) : Nat × Nat :=
  let f := fun (p : Nat) => if p = 0 then 480 else if p = 1 then 500 else 520
  let now := f (s.rd CLOCK.pg CLOCK.STATUS_PROFILE_NOW)
  let f := if s.flag CLOCK.pg CLOCK.STATUS_HOPPING then min now (f (s.rd CLOCK.pg CLOCK.SYSCFG_PROFILE)) else now
  let d := if s.flag CLOCK.pg CLOCK.STATUS_SS_ACTIVE && s.clk.spreadMode ≠ 0 then s.clk.spreadDepth else 0
  (f * (400 - d), 500 * 400)

/-- A count of LE cycles in units of 2 ns, rounded up (R850, log entry 19). -/
def State.leTime (s : State) (cycles : Nat) : Nat :=
  let (n, d) := s.leSlow
  (cycles * d + n - 1) / n

/-- A port-write instruction in cycle `cyc` of the run: an answer of false is a value that is not finite (R277). -/
def State.portWrite (s : State) (n : Fin 16) (j : Fin 8) (run : LeRun) (v : Word) : Bool × State :=
  let pg := LE.pg n
  if !finBits v.toNat then (false, s)
  else
    let (d, bl) := s.portValue n j run v
    let bit := BitVec.twoPow 8 j
    let u := s.leUnit n
    let s := s.setLe n { u with blend := if bl then u.blend ||| bit else u.blend &&& ~~~bit }
    let s := s.portDeliver n j d
    let isPwm := s.rd pg LE.OPORT_CFG_KIND j = 1
    let k := s.rd pg LE.TRIG_KIND
    let s := if isPwm then s.wr pg LE.RUN_CYCLES_DUTY_CYC 0 (min run.cycle 65535) else s
    let s := if isPwm && 2 ≤ k && k ≤ 4 then
        s.wr pg LE.LAT_MAX_MAX 0 (max (s.rd pg LE.LAT_MAX_MAX) (min (s.leTime (20 + run.cycle)) 65535)) else s
    (true, s)

/-! ### The end of a run (R250, R252, R285, R286, R292, R298, R313) -/

/-- END issues: completion event, hand-over outcome, waiting stop or swap, the held trigger. An engine that opens here from FALLBACK, for its
COEF_SWAP was accepted before the run whose start went stale with ACTION 1, is CLOSED after the copy without a RESUME: R264 and R292 leave
that open (DESIGN CHOICE, log entry 52). -/
def State.leEnd (s : State) (n : Fin 16) (run : LeRun) : State :=
  let pg := LE.pg n
  let s := (s.wrapBump pg LE.RUN_COUNT_COUNT).wr pg LE.STATUS_BUSY 0 0
  let s := s.setLe n { s.leUnit n with run := none }
  let s := (List.range 32).foldl (fun s k =>
    if s.rd ATTIC.pg ATTIC.SIG_KIND k = 6 ∧ s.rd ATTIC.pg ATTIC.SIG_INDEX k / 512 = n.val then
      s.sigTake (Fin.ofNat 32 k) (s.dmem n (s.rd ATTIC.pg ATTIC.SIG_INDEX k % 512)) true
    else s) s
  let s := ((s.sampleEvent 4 n).leEmit 5 n).sarEmit 4 n
  let u := s.leUnit n
  let st := s.leState n
  let s :=
    if st = leFALLBACK then s
    else if run.track && u.blend ≠ 0 then s.setLeState n leBLEND
    else if run.track || run.start then s.setLeState n leCLOSED
    else s
  if u.stop then s.leStop n
  else if u.swap then s.leOpen n
  else if u.held then s.setLe n { u with held := false, due := true, kept := true }
  else s

/-! ### Commit checks (R242, R243, R245, R247, R253, R254, R265, R270, R272, R273, R279, R288, R344) -/

/-- Ranges beyond those of single fields. -/
def State.leRangeBad (s : State) (n : Nat) : Bool :=
  let m := fun f i => s.merged (LE.pg n) f i
  m LE.TRIG_DIV 0 < m LE.TRIG_PHASE 0 ||
  ((List.range 32).any fun k =>
    let kind := m LE.SLOTROUTE_KIND k
    let ix := m LE.SLOTROUTE_INDEX k
    (kind = 1 && 47 < ix) || (kind = 2 && 95 < ix) || (kind = 3 && 23 < ix)) ||
  ((List.range 8).any fun i =>
    (m LE.SP_CFG_RAMP_EN i = 1 && ratOf (m LE.SP_RATE_VALUE i) ≤ 0) ||
    (m LE.SP_CFG_MEAS_KIND i = 0 && 31 < m LE.SP_CFG_MEAS_IDX i)) ||
  (List.range 8).any fun j => m LE.OPORT_CFG_KIND j = 3

/-- A field of engine `e` as a commit of page LE`n` would leave it. -/
def State.leAfter (s : State) (n e : Nat) (f : Fld) (i : Nat) : Nat :=
  if e = n then s.merged (LE.pg e) f i else s.rd (LE.pg e) f i

/-- The destinations that the ports of engine `e` name after a commit of page LE`n`: (KIND, unit, index). -/
def State.portTargets (s : State) (n e : Nat) : List (Nat × Nat × Nat) :=
  (List.range 8).flatMap fun j =>
    let f := fun x => s.leAfter n e x j
    let kind := f LE.OPORT_CFG_KIND
    let t := (kind, f LE.OPORT_CFG_UNIT, f LE.OPORT_CFG_INDEX)
    if kind = 1 && f LE.OPORT_CFG_SPLIT = 1 then [t, (kind, t.2.1, t.2.2 + 1)]
    else if kind = 1 || kind = 2 then [t] else []

/-- Whether a list names something twice. -/
def hasDup : List (Nat × Nat × Nat) → Bool
  | [] => false
  | x :: xs => xs.contains x || hasDup xs

/-- A program at START lies in the bank range, starts at a header, ends in the range, and its banks are valid (R243, R344). -/
def State.progBad (s : State) (start first count : Nat) : Bool :=
  let w := s.lpsWord start
  let last := start + s.hdrLength start
  let lo := first * 256
  let hi := (first + count) * 256
  start < lo || hi ≤ start || w.toNat / 2 ^ 58 ≠ 0x3F || hi ≤ last ||
    (List.range 16).any fun b => start / 256 ≤ b && b ≤ last / 256 && !bitOf (s.rd LPS.pg LPS.VALID_BANK) b

/-- The largest INDEX of a trigger KIND (R244, R245). -/
def trigIndexMax (kind : Nat) : Nat :=
  match kind with
  | 1 => 15
  | 2 => 5
  | 3 => 5
  | 4 => 47
  | 5 => 15
  | 6 => 1
  | _ => 255

def State.leInconsistent (s : State) (n : Nat) : Bool :=
  let m := fun f i => s.merged (LE.pg n) f i
  let first := m LE.BANKS_FIRST 0
  let count := m LE.BANKS_COUNT 0
  let en := m LE.CTRL_EN 0 = 1
  let kind := m LE.TRIG_KIND 0
  16 < first + count ||
  (en && (List.range 16).any fun e => e ≠ n && s.flag (LE.pg e) LE.CTRL_EN &&
    overlap first count (s.rd (LE.pg e) LE.BANKS_FIRST) (s.rd (LE.pg e) LE.BANKS_COUNT)) ||
  ((List.range 5).any fun p => m LE.PROG_EN p = 1 && s.progBad (m LE.PROG_START p) first count) ||
  (kind = 5 && m LE.TRIG_INDEX 0 = n) || trigIndexMax kind < m LE.TRIG_INDEX 0 ||
  ((List.range 8).any fun i => m LE.FORMSLOT_EN 0 = 1 && m LE.SLOTROUTE_KIND (8 * m LE.FORMSLOT_GROUP 0 + i) ≠ 0) ||
  (m LE.STALE_ACTION 0 = 1 && m LE.PROG_EN 4 = 0) ||
  512 < m LE.DMAP_COEF_BASE 0 + m LE.DMAP_COEF_LEN 0 ||
  ((List.range 8).any fun j =>
    (m LE.OPORT_CFG_SPLIT j = 1 && m LE.OPORT_CFG_INDEX j % 2 = 1) ||
    ratOf (m LE.OPORT_HI0_VALUE j) < ratOf (m LE.OPORT_LO0_VALUE j) ||
    ratOf (m LE.OPORT_HI1_VALUE j) < ratOf (m LE.OPORT_LO1_VALUE j)) ||
  (en && (hasDup (s.portTargets n n) || (List.range 16).any fun e =>
    e ≠ n && s.flag (LE.pg e) LE.CTRL_EN && (s.portTargets n e).any fun t => (s.portTargets n n).contains t))

/-- A commit of page LE`n` outside CONFIG would enable an engine with a bank of a LOAD that is under way (R357). -/
def State.loadClash (s : State) (n : Nat) : Bool :=
  s.mode ≠ mCONFIG && s.isStaged (LE.pg n) LE.CTRL_EN && s.merged (LE.pg n) LE.CTRL_EN = 1 &&
    match s.lps.load with
    | some (_, first, count) => overlap first count (s.merged (LE.pg n) LE.BANKS_FIRST) (s.merged (LE.pg n) LE.BANKS_COUNT)
    | none => false

/-- An accepted commit of page LE`n`: its engine's banks count as committed (R345); while it is STOPPED or in FAULT the
set takes effect (R309). -/
def State.leCommit (s : State) (n : Fin 16) : State :=
  let s := { s with lps := { s.lps with fresh := s.lps.fresh.set n 0 } }
  let st := s.leState n
  if st = leSTOPPED || st = leFAULT then (s.boundary (LE.pg n)).leDuty n else s

end Sys2Proof.Machine
end

