-- ==== Sys2Proof/Machine/Operands.lean ====
section
/-!
DEFINITION. Machine/Operands.lean: the fields of a loop-engine word (R321), the operand forms (R320, R324) and the writes
of results.
-/
namespace Sys2Proof.Machine

/-- The fields of an instruction word (R321). -/
structure LeInstr where
  op : Nat
  pred : Nat
  pneg : Bool
  dst : Nat
  a : Nat
  b : Nat
  c : Nat
  imm : Nat
  deriving DecidableEq, Repr

/-- A word taken apart. -/
def leFields (w : BitVec 64) : LeInstr :=
  let n := w.toNat
  { op := bitsOf n 58 6, pred := bitsOf n 55 3, pneg := n.testBit 54, dst := bitsOf n 48 6, a := bitsOf n 40 8
    b := bitsOf n 32 8, c := bitsOf n 24 8, imm := bitsOf n 0 24 }

/-- The operations that read the Q31 pattern of a constant (R320). -/
def readsQ31 (op : Nat) : Bool :=
  op = 0x04 || (0x13 ≤ op && op ≤ 0x19) || op = 0x1B

/-- The value of an operand code (R320, R324); `none` for a reserved code, which only a word rewritten by a refetch can carry
(R343 refuses it in a LOAD). -/
def State.leOperand (s : State) (n : Fin 16) (q31 : Bool) (imm code : Nat) : Option Word :=
  let u := s.leUnit n
  if code < 0x40 then some (u.g.toList.getD code 0)
  else if code < 0x60 then some (u.inS.toList.getD (code - 0x40) 0)
  else if code < 0x68 then some (u.inSP.toList.getD (code - 0x60) 0)
  else if code < 0x70 then some (u.inL.toList.getD (code - 0x68) 0)
  else match code with
    | 0x70 => some 0
    | 0x71 => some (if q31 then 0x7FFFFFFF#32 else 0x3F800000#32)
    | 0x72 => some (if q31 then 0x80000000#32 else 0xBF800000#32)
    | 0x73 => some (if q31 then 0x40000000#32 else 0x3F000000#32)
    | 0x74 => if q31 then none else some 0x40C90FDB#32
    | 0x75 => some (if q31 then 0x49E69D16#32 else 0x3F13CD3A#32)
    | 0x78 => some (BitVec.ofNat 32 (imm * 256))
    | _ => none

/-- An operand; a reserved code has no stated value and reads the free word `r`. -/
def State.leVal (s : State) (n : Fin 16) (i : LeInstr) (r : Word) (code : Nat) : Word :=
  (s.leOperand n (readsQ31 i.op) i.imm code).getD r

/-- General register `k`. -/
def State.leG (s : State) (n : Fin 16) (k : Nat) : Word := (s.leUnit n).g.toList.getD k 0

/-- Write general register `k`. -/
def State.setG (s : State) (n : Fin 16) (k : Nat) (v : Word) : State :=
  let u := s.leUnit n
  s.setLe n { u with g := u.g.set (Fin.ofNat 64 k) v }

end Sys2Proof.Machine
end

