-- ==== Sys2Proof/Machine/Flags.lean ====
section
/-!
DEFINITION. Machine/Flags.lean: the predicates of a loop engine (R319), the guard of an instruction (R317) and the
predicate operations.
-/
namespace Sys2Proof.Machine

/-- Predicate Pk as the program reads it (R319). -/
def State.lePred (s : State) (n : Fin 16) (run : LeRun) (k : Nat) : Bool :=
  match k with
  | 0 => true
  | 6 => run.track
  | 7 => run.start
  | _ => (s.leUnit n).p.getLsbD k

/-- P1 to P5 are the predicates that an instruction writes; a write of another changes nothing (R319). -/
def State.setPred (s : State) (n : Fin 16) (k : Nat) (b : Bool) : State :=
  let u := s.leUnit n
  if 1 ≤ k ∧ k ≤ 5 then
    s.setLe n { u with p := if b then u.p ||| BitVec.twoPow 8 k else u.p &&& ~~~BitVec.twoPow 8 k }
  else s

/-- The guard of an instruction holds (R317, R321). -/
def State.leGuard (s : State) (n : Fin 16) (run : LeRun) (i : LeInstr) : Bool := s.lePred n run i.pred != i.pneg

/-- The operation of PLOG: AND, OR, XOR, AND NOT. -/
def plogOp (op : Nat) (x y : Bool) : Bool :=
  match op with
  | 0 => x && y
  | 1 => x || y
  | 2 => x != y
  | _ => x && !y

end Sys2Proof.Machine
end

