-- ==== Sys2Proof/Machine/LoopIsa.lean ====
section
/-!
DEFINITION. Machine/LoopIsa.lean: the loop-engine instructions (06 R312 to R337) and the parity events of a run (R348 to
R357).

An engine with a run in progress issues the word its run stands at. `LeBody` is what an instruction does once its guard
holds; `State.leIssue` does what every instruction has in common.
-/
namespace Sys2Proof.Machine

/-- What an instruction leaves: the state, stall cycles of coefficient rereads, the cause of a FAULT, and whether the run
ended. -/
structure LeOut where
  s : State
  extra : Nat := 0
  fault : Option Nat := none
  ended : Bool := false

/-- What an instruction does: engine, run, fields, a free word, and the data-memory words that fail parity. -/
abbrev LeBody := State → Fin 16 → LeRun → LeInstr → Word → List Nat → LeOut

/-- The cost of an operation in cycles (R328); none for a code that is not in the table. -/
def leCost (op imm : Nat) : Option Nat :=
  match op with
  | 0x00 => some (1 + imm % 256)
  | 0x11 => some 8
  | 0x12 => some 8
  | 0x20 => some 12
  | 0x21 => some 2
  | 0x22 => some 2
  | 0x23 => some 3
  | 0x24 => some 3
  | 0x25 => some 4
  | 0x26 => some 6
  | 0x27 => some 2
  | 0x30 => some 1
  | 0x3E => some 1
  | 0x3F => some 0
  | _ => if op ≤ 0x1C then some 1 else none

/-! ### Data memory as the program reads and writes it (R337, R354) -/

/-- `LPS.LAST_ERRn` (R349, R352, R354, R337). -/
def State.leErr (s : State) (n : Fin 16) (kind pc data : Nat) : State :=
  ((s.wr LPS.pg LPS.LAST_ERR_KIND n kind).wr LPS.pg LPS.LAST_ERR_LPS_WORD n pc).wr LPS.pg LPS.LAST_ERR_DATA_WORD n data

/-- An armed injection of kind `kind` waits for address `a` of engine `n` (R356). -/
def State.armed_ (s : State) (n : Fin 16) (kind a : Nat) : Bool :=
  s.flag LPS.pg LPS.INJECT_ARM && s.rd LPS.pg LPS.INJECT_KIND = kind && s.rd LPS.pg LPS.INJECT_ENGINE = n.val &&
    s.rd LPS.pg LPS.INJECT_ADDR = a

/-- A data-memory read by the program: `w` in `bad` or an injection fails its parity (R354, R356). Answers the word, the
stall cycles and the cause of a FAULT. -/
def State.leRead (s : State) (n : Fin 16) (pc : Nat) (bad : List Nat) (w : Nat) : Word × LeOut :=
  let inj := s.armed_ n 2 w
  let s := if inj then s.wr LPS.pg LPS.INJECT_ARM 0 0 else s
  if !(inj || bad.contains w) then (s.dmem n w, { s := s })
  else if s.isCoef n w then
    let s := s.bump LPS.pg LPS.COEF_REPLAY n
    let s := (s.leErr n 3 pc w).irq LPS.pg 5
    let src := s.rd (LE.pg n) LE.COEF_MASTER_ADDR + 4 * (w - s.rd (LE.pg n) LE.DMAP_COEF_BASE)
    match s.sramRead src with
    | (some v, s) => (v, { s := s.setDmem n w v, extra := 24 })
    | (none, s) => (0, { s := s, extra := 24, fault := some 0x05 })
  else (0, { s := s.leErr n 4 pc w, fault := some 0x04 })

/-- Reads of several words, in order, up to a FAULT. -/
def State.leReads (s : State) (n : Fin 16) (pc : Nat) (bad : List Nat) : List Nat → List Word × LeOut
  | [] => ([], { s := s })
  | w :: ws =>
    let (v, o) := s.leRead n pc bad w
    match o.fault with
    | some c => ([v], { o with fault := some c })
    | none =>
      let (vs, o') := o.s.leReads n pc bad ws
      (v :: vs, { o' with extra := o.extra + o'.extra })

/-- A program write of a data-memory word: one to a coefficient word is discarded and counted (R337). -/
def State.leWrite (s : State) (n : Fin 16) (pc w : Nat) (v : Word) : State :=
  if s.isCoef n w then (s.bump LPS.pg LPS.COEF_WR_DISCARD n).leErr n 5 pc w else s.setDmem n w v

/-! ### The instructions -/

/-- An operation of one result: Gd takes it. -/
def leResult (f : (Nat → Word) → LeInstr → Word → Word) : LeBody := fun s n _ i r _ =>
  { s := s.setG n i.dst (f (s.leVal n i r) i r) }

def bodyNop : LeBody := fun s _ _ _ _ _ => { s := s }
def bodyMov : LeBody := leResult fun v i _ => v i.a
def bodySel : LeBody := fun s n run i r _ =>
  { s := s.setG n i.dst (s.leVal n i r (if s.lePred n run (i.imm % 8) then i.a else i.b)) }
def bodyFcmp : LeBody := fun s n _ i r _ =>
  { s := s.setPred n (bitsOf i.imm 3 3) (fcond (i.imm % 8) (s.leVal n i r i.a) (s.leVal n i r i.b)) }
def bodyQcmp : LeBody := fun s n _ i r _ =>
  { s := s.setPred n (bitsOf i.imm 3 3) (qcond (i.imm % 8) (s.leVal n i r i.a) (s.leVal n i r i.b)) }
def bodyPlog : LeBody := fun s n run i _ _ =>
  { s := s.setPred n (i.imm % 8) (plogOp (bitsOf i.imm 9 2) (s.lePred n run (bitsOf i.imm 3 3)) (s.lePred n run (bitsOf i.imm 6 3))) }
def bodyLd : LeBody := fun s n run i _ bad =>
  let (v, o) := s.leRead n run.pc bad (i.imm % 512)
  if o.fault.isSome then o else { o with s := o.s.setG n i.dst v }
def bodySt : LeBody := fun s n run i r _ => { s := s.leWrite n run.pc (i.imm % 512) (s.leVal n i r i.a) }
def bodyFadd : LeBody := leResult fun v i r => fadd r (v i.a) (v i.b)
def bodyFsub : LeBody := leResult fun v i r => fsub r (v i.a) (v i.b)
def bodyFmul : LeBody := leResult fun v i r => fmul r (v i.a) (v i.b)
def bodyFmac : LeBody := leResult fun v i r => fmac r (v i.a) (v i.b) (v i.c)
def bodyFmin : LeBody := leResult fun v i r => fmin r (v i.a) (v i.b)
def bodyFmax : LeBody := leResult fun v i r => fmax r (v i.a) (v i.b)
def bodyFclamp : LeBody := leResult fun v i r => fclamp r (v i.a) (v i.b) (v i.c)
def bodyFabs : LeBody := leResult fun v i _ => fabs (v i.a)
def bodyFneg : LeBody := leResult fun v i _ => fneg (v i.a)
def bodyFdiv : LeBody := leResult fun v i r => fdiv r (v i.a) (v i.b)
def bodyFsqrt : LeBody := leResult fun v i r => fsqrt r (v i.a)
def bodyQadd : LeBody := leResult fun v i _ => qadd (v i.a) (v i.b)
def bodyQsub : LeBody := leResult fun v i _ => qsub (v i.a) (v i.b)
def bodyQmul : LeBody := leResult fun v i _ => qmul (v i.a) (v i.b)
def bodyQmac : LeBody := leResult fun v i _ => qmac (v i.a) (v i.b) (v i.c)
def bodyQshl : LeBody := leResult fun v i _ => qshl (v i.a) (i.imm % 32)
def bodyQshr : LeBody := leResult fun v i _ => qshr (v i.a) (i.imm % 32)
def bodyQabs : LeBody := leResult fun v i _ => qabs (v i.a)
def bodyI2f : LeBody := leResult fun v i _ => i2f (v i.a) (i.imm % 32)
def bodyQ2f : LeBody := leResult fun v i _ => q2f (v i.a)
def bodyF2q : LeBody := leResult fun v i _ => f2q (v i.a)

/-- A word whose subnormal value is replaced by a zero of the same sign (R325). -/
def flushW (w : Word) : Word := fpOut w (fpIn w)

/-- A result of which the spec states only that it lies within `bound` of the real value `q`: the free word `r` where it
does, else the binary32 nearest to `q`; a subnormal one is a zero (R325). -/
def nearOr (r : Word) (q bound : Rat) : Word :=
  let w := flushW r
  if finBits w.toNat && ratAbs (ratOf w.toNat - q) ≤ bound then w else flushW (f32 q)

/-- A sine or cosine within the bound of R329. -/
def withinBound (r : Word) (q : Rat) : Word := nearOr r q (mkRat 2 10000000)

/-- SINCOS (R329): free within its bound for |A| ≤ 1,024, free for a greater finite A, NaN for one that is not finite. -/
def bodySincos : LeBody := fun s n _ i r _ =>
  let (r', s) := s.freshWord
  let a := fpIn (s.leVal n i r i.a)
  let (x, y) : Word × Word :=
    if !a.isFin then (nanBits r, nanBits r')
    else if ratAbs a.toRat ≤ 1024 then (withinBound r (sinR a.toRat), withinBound r' (cosR a.toRat))
    else (flushW r, flushW r')
  { s := (s.setG n i.dst x).setG n (i.dst + 1) y }

/-- A sum of terms. The spec states the form that CLARKE, ICLARKE, PARK and IPARK compute and not where they round inside:
the result is free within 2^−22 of the sum of the magnitudes, which every order of rounding keeps (log entry 22). -/
def looseSum (r : Word) (ts : List Fp) : Word :=
  let x := ts.foldl Fp.add (.fin false 0)
  match x with
  | .fin _ _ => nearOr r x.toRat (ts.foldl (fun q t => q + ratAbs t.toRat) 0 * pow2 (-22))
  | _ => fpOut r x

/-- The exact constant 1/√3 to 2^−64. -/
def rsqrt3 : Rat := 1 / sqrtR 3

/-- The terms kᵢ·xᵢ of exact factors and operands. -/
def linTerms (xs : List (Rat × Word)) : List Fp := xs.map fun x => (Fp.ofRat x.1).mul (fpIn x.2)

/-- The terms a·b and c·d of operands. -/
def dotTerms (a b c d : Word) : List Fp := [(fpIn a).mul (fpIn b), (fpIn c).mul (fpIn d)]

def bodyClarke : LeBody := fun s n _ i r _ =>
  let (r', s) := s.freshWord
  let v := s.leVal n i r
  let al := linTerms [(mkRat 2 3, v i.a), (mkRat (-1) 3, v i.b), (mkRat (-1) 3, v i.c)]
  let be := linTerms [(rsqrt3, v i.b), (-rsqrt3, v i.c)]
  { s := (s.setG n i.dst (looseSum r al)).setG n (i.dst + 1) (looseSum r' be) }

def bodyIclarke : LeBody := fun s n _ i r _ =>
  let (r', s) := s.freshWord
  let (r'', s) := s.freshWord
  let v := s.leVal n i r
  let h := sqrtR 3 / 2
  let b := linTerms [(mkRat (-1) 2, v i.a), (h, v i.b)]
  let c := linTerms [(mkRat (-1) 2, v i.a), (-h, v i.b)]
  { s := ((s.setG n i.dst (fpOut r (fpIn (v i.a)))).setG n (i.dst + 1) (looseSum r' b)).setG n (i.dst + 2) (looseSum r'' c) }

/-- PARK (R331): sin θ in the register that SRCC names, cos θ in the next. -/
def bodyPark : LeBody := fun s n _ i r _ =>
  let (r', s) := s.freshWord
  let v := s.leVal n i r
  let sn := s.leG n (i.c % 64)
  let cs := s.leG n ((i.c + 1) % 64)
  let d := dotTerms (v i.a) cs (v i.b) sn
  let q := dotTerms (fneg (v i.a)) sn (v i.b) cs
  { s := (s.setG n i.dst (looseSum r d)).setG n (i.dst + 1) (looseSum r' q) }

def bodyIpark : LeBody := fun s n _ i r _ =>
  let (r', s) := s.freshWord
  let v := s.leVal n i r
  let sn := s.leG n (i.c % 64)
  let cs := s.leG n ((i.c + 1) % 64)
  let al := dotTerms (v i.a) cs (fneg (v i.b)) sn
  let be := dotTerms (v i.a) sn (v i.b) cs
  { s := (s.setG n i.dst (looseSum r al)).setG n (i.dst + 1) (looseSum r' be) }

/-- INTEG (R332, R333, R334): state word S, block K of kp, ki·T, kb, lo, hi. -/
def bodyInteg : LeBody := fun s n run i r bad =>
  let v := s.leVal n i r
  let sw := i.imm % 512
  let k := bitsOf i.imm 9 9
  let (ws, o) := s.leReads n run.pc bad [k, (k + 1) % 512, (k + 2) % 512, (k + 3) % 512, (k + 4) % 512, sw]
  match ws, o.fault with
  | [kp, ki, kb, lo, hi, st], none =>
    let e := v i.a
    let u := v i.b
    let p := fmul r kp e
    let trk := bitOf i.imm 18
    let st := if run.start then 0 else if run.track && trk then fsub r (fsub r (v i.c) p) u else st
    let yu := fadd r (fadd r st p) u
    let y := fmin r (fmax r yu lo) hi
    let y := if fcond 5 lo hi then fpOut r (fpIn lo) else y
    let d1 := fmul r ki e
    let d2 := fmul r kb (fsub r y yu)
    { o with s := (o.s.leWrite n run.pc sw (fadd r (fadd r st d1) d2)).setG n i.dst y }
  | _, _ => o

/-- RESON (R332, R335): states x1 and x2 at S and S + 1, block K of kr and λ; sin φ and cos φ in Gk and Gk+1. -/
def bodyReson : LeBody := fun s n run i r bad =>
  let v := s.leVal n i r
  let sw := i.imm % 512
  let k := bitsOf i.imm 9 9
  let (ws, o) := s.leReads n run.pc bad [k, (k + 1) % 512, sw, (sw + 1) % 512]
  match ws, o.fault with
  | [kr, lam, x1, x2], none =>
    let x1 := if run.start then 0 else x1
    let x2 := if run.start then 0 else x2
    let sn := s.leG n (i.b % 64)
    let cs := s.leG n ((i.b + 1) % 64)
    let x1' := fadd r (fmul r lam (fsub r (fmul r cs x1) (fmul r sn x2))) (fmul r kr (v i.a))
    let x2' := fmul r lam (fadd r (fmul r sn x1) (fmul r cs x2))
    { o with s := ((o.s.leWrite n run.pc sw x1').leWrite n run.pc ((sw + 1) % 512) x2').setG n i.dst x1' }
  | _, _ => o

/-- A rate with a negative value taken as 0 (R336). -/
def posRate (w : Word) : Word := if (fpIn w).lt (.fin false 0) then 0 else w

/-- RLIM (R332, R336): state word S, block K of rise and fall. -/
def bodyRlim : LeBody := fun s n run i r bad =>
  let v := s.leVal n i r
  let sw := i.imm % 512
  let k := bitsOf i.imm 9 9
  let (ws, o) := s.leReads n run.pc bad [k, (k + 1) % 512, sw]
  match ws, o.fault with
  | [rise, fall, st], none =>
    let y :=
      if run.track && bitOf i.imm 18 then fpOut r (fpIn (v i.c))
      else
        let st := if run.start then v i.a else st
        fadd r st (fmin r (fmax r (fsub r (v i.a) st) (fneg (posRate fall))) (posRate rise))
    { o with s := (o.s.leWrite n run.pc sw y).setG n i.dst y }
  | _, _ => o

/-- OUT (R271 to R278, R328). -/
def bodyOut : LeBody := fun s n run i r _ =>
  let (ok, s) := s.portWrite n (Fin.ofNat 8 i.imm) run (s.leVal n i r i.a)
  { s := s, fault := if ok then none else some 0x06 }

/-- END (R313). -/
def bodyEnd : LeBody := fun s n run _ _ _ => { s := s.leEnd n run, ended := true }

/-- The body of an operation code; a header is not executed (R316). -/
def leBodyOf (op : Nat) : LeBody :=
  match op with
  | 0x00 => bodyNop | 0x01 => bodyMov | 0x02 => bodySel | 0x03 => bodyFcmp | 0x04 => bodyQcmp | 0x05 => bodyPlog
  | 0x06 => bodyLd | 0x07 => bodySt | 0x08 => bodyFadd | 0x09 => bodyFsub | 0x0A => bodyFmul | 0x0B => bodyFmac
  | 0x0C => bodyFmin | 0x0D => bodyFmax | 0x0E => bodyFclamp | 0x0F => bodyFabs | 0x10 => bodyFneg | 0x11 => bodyFdiv
  | 0x12 => bodyFsqrt | 0x13 => bodyQadd | 0x14 => bodyQsub | 0x15 => bodyQmul | 0x16 => bodyQmac | 0x17 => bodyQshl
  | 0x18 => bodyQshr | 0x19 => bodyQabs | 0x1A => bodyI2f | 0x1B => bodyQ2f | 0x1C => bodyF2q | 0x20 => bodySincos
  | 0x21 => bodyClarke | 0x22 => bodyIclarke | 0x23 => bodyPark | 0x24 => bodyIpark | 0x25 => bodyInteg
  | 0x26 => bodyReson | 0x27 => bodyRlim | 0x30 => bodyOut | 0x3E => bodyEnd
  | _ => bodyNop

/-! ### Issue (R313 to R317, R352, R353, R356) -/

/-- NOP, PLOG and END deliver no operand to the datapath (R356). -/
def hasOperands (op : Nat) : Bool := op ≠ 0x00 && op ≠ 0x05 && op ≠ 0x3E

/-- Set the run of engine `n`. -/
def State.setRun (s : State) (n : Fin 16) (run : LeRun) : State := s.setLe n { s.leUnit n with run := some run }

/-- The refetch of word `w` by engine `n` (R348 to R351): 40 stall cycles, then the word issues. `again`: the fetch after the
rewrite fails too (R350). -/
def State.leRefetch (s : State) (n : Fin 16) (run : LeRun) (again : Bool) : State :=
  let w := run.pc
  let b := w / 256
  if s.flag LPS.pg LPS.LAST_REFETCH_SET b && s.rd LPS.pg LPS.LAST_REFETCH_WORD b = w then s.leFault n 0x01
  else
    let s := (s.wr LPS.pg LPS.LAST_REFETCH_WORD b w).wr LPS.pg LPS.LAST_REFETCH_SET b 1
    let s := ((s.bump LPS.pg LPS.FETCH_REPLAY_COUNT n).leErr n 1 w 0).irq LPS.pg 3
    match s.sramRead64 (s.rd LPS.pg LPS.BANKMASTER_ADDR b + 8 * (w % 256)) with
    | (none, s) => s.leFault n 0x02
    | (some v, s) =>
      let s := s.setLpsWord w v
      if again then (s.lpsUpset w).leFault n 0x01
      else if (leCost (v.toNat / 2 ^ 58) 0).isNone then s.leFault n 0x07
      else s.setRun n { run with cycle := run.cycle + 40, pc := s.lePass 4096 w }

/-- The fetch of the word the run stands at: a parity error of the stored word, an armed one (R356) or both are one error
(R357). -/
def State.leFetch (s : State) (n : Fin 16) (run : LeRun) (again : Bool := false) : State :=
  let inj := s.armed_ n 0 run.pc
  let s := if inj then s.wr LPS.pg LPS.INJECT_ARM 0 0 else s
  if inj || !s.parityOk run.pc then s.leRefetch n run again else s

/-- An operand parity error is counted (R352). -/
def State.opndError (s : State) (n : Fin 16) (pc : Nat) : State :=
  ((s.bump LPS.pg LPS.OPND_REPLAY_COUNT n).leErr n 2 pc 0).irq LPS.pg 4

/-- The word the run stands at issues; its operation code is `i.op`. `up`: the upsets it meets. END is not guarded (R328). -/
def State.leIssueWord (s : State) (n : Fin 16) (run : LeRun) (i : LeInstr) (body : LeBody) (up : LeUpset) : State :=
  let inj := s.armed_ n 1 run.pc
  let s := if inj then s.wr LPS.pg LPS.INJECT_ARM 0 0 else s
  let errs := if hasOperands i.op then up.operands + bit01 inj else 0
  let cost := (leCost i.op i.imm).getD 1
  let s := if errs = 0 then s else s.opndError n run.pc
  if 2 ≤ errs then s.leFault n 0x03
  else
    let run := if errs = 0 then run else { run with cycle := run.cycle + cost + 2 }
    let (r, s) := s.freshWord
    let o : LeOut := if i.op = 0x3E || s.leGuard n run i then body s n run i r (up.words.map (·.val)) else { s := s }
    match o.fault with
    | some c => o.s.leFault n c
    | none =>
      if o.ended then o.s
      else o.s.setRun n { run with pc := o.s.lePass 4096 ((run.pc + 1) % 4096), cycle := run.cycle + cost + o.extra }

/-- Engine `n` issues its next word if it is an `op` (a run is in progress and the engine is not halted); a word with an undefined
operation code is FAULT 0x07 (R328); otherwise nothing happens. -/
def State.leIssue (s : State) (n : Fin 16) (op : Nat) (body : LeBody) (up : LeUpset) : State :=
  match (s.leUnit n).run with
  | none => s
  | some run =>
    if (s.leUnit n).halted && !(s.leUnit n).step then s
    else
    let s := s.leFetch n run
    match (s.leUnit n).run with
    | none => s
    | some run =>
      let i := leFields (s.lpsWord run.pc)
      if (leCost i.op i.imm).isNone then s.leFault n 0x07
      else if i.op = op then s.leIssueWord n run i body up
      else s

/-- LE_STEP (R916): a halted engine issues one instruction, whose PWM ports stage nothing. -/
def State.leStepOne (s : State) (n : Fin 16) : State :=
  match (s.leUnit n).run with
  | none => s
  | some run =>
    if !(s.leUnit n).halted then s
    else
      let s := (s.setLe n { s.leUnit n with step := true }).leFetch n run
      let op := (leFields (s.lpsWord (((s.leUnit n).run.map (·.pc)).getD run.pc))).op
      let s := s.leIssue n op (leBodyOf op) { operands := 0, words := [] }
      s.setLe n { s.leUnit n with step := false }

/-- LPS_REFETCH (R348): an upset leaves a parity error in the word the run stands at, and its fetch fails; a halted engine fetches nothing
but at a step (R916). -/
def State.fetchError (s : State) (n : Fin 16) (again : Bool) : State :=
  match (s.leUnit n).run with
  | none => s
  | some run => if (s.leUnit n).halted then s else (s.lpsUpset run.pc).leFetch n run again

end Sys2Proof.Machine
end

