-- ==== Sys2Proof/Machine/Lps.lean ====
section
/-!
DEFINITION. Machine/Lps.lean: the Loop Program Store (06 R338 to R347): LOAD with its check, and the Form ROM library.
-/
namespace Sys2Proof.Machine

/-! ### The check of R343 -/

/-- Which fields an operation uses: results written, sources A, B and C, the bits of IMM, whether IMM may be a value. -/
structure OpUse where
  dst : Nat := 1
  a : Bool := true
  b : Bool := false
  c : Bool := false
  imm : Nat := 0
  value : Bool := false

/-- The use of fields by each operation of R328; none for an undefined code. `trk` is IMM[18]. -/
def opUse (op : Nat) (trk : Bool) : Option OpUse :=
  match op with
  | 0x00 => some { dst := 0, a := false, imm := 8 }
  | 0x01 => some { value := true }
  | 0x02 => some { b := true, imm := 3 }
  | 0x03 => some { dst := 0, b := true, imm := 6 }
  | 0x04 => some { dst := 0, b := true, imm := 6 }
  | 0x05 => some { dst := 0, a := false, imm := 11 }
  | 0x06 => some { a := false, imm := 24 }
  | 0x07 => some { dst := 0, imm := 24 }
  | 0x08 => some { b := true, value := true }
  | 0x09 => some { b := true, value := true }
  | 0x0A => some { b := true, value := true }
  | 0x0B => some { b := true, c := true, value := true }
  | 0x0C => some { b := true, value := true }
  | 0x0D => some { b := true, value := true }
  | 0x0E => some { b := true, c := true, value := true }
  | 0x0F => some {}
  | 0x10 => some {}
  | 0x11 => some { b := true, value := true }
  | 0x12 => some {}
  | 0x13 => some { b := true, value := true }
  | 0x14 => some { b := true, value := true }
  | 0x15 => some { b := true, value := true }
  | 0x16 => some { b := true, c := true, value := true }
  | 0x17 => some { imm := 5 }
  | 0x18 => some { imm := 5 }
  | 0x19 => some {}
  | 0x1A => some { imm := 5 }
  | 0x1B => some {}
  | 0x1C => some {}
  | 0x20 => some { dst := 2 }
  | 0x21 => some { dst := 2, b := true, c := true }
  | 0x22 => some { dst := 3, b := true }
  | 0x23 => some { dst := 2, b := true, c := true }
  | 0x24 => some { dst := 2, b := true, c := true }
  | 0x25 => some { b := true, c := trk, imm := 19 }
  | 0x26 => some { b := true, imm := 18 }
  | 0x27 => some { c := trk, imm := 19 }
  | 0x30 => some { dst := 0, imm := 3 }
  | 0x3E => some { dst := 0, a := false }
  | _ => none

/-- The sources an operation uses. -/
def OpUse.sources (u : OpUse) (i : LeInstr) : List Nat :=
  (if u.a then [i.a] else []) ++ (if u.b then [i.b] else []) ++ (if u.c then [i.c] else [])

/-- A non-zero field that the operation does not use (R323): RESULT 0x2. -/
def unusedBad (u : OpUse) (i : LeInstr) : Bool :=
  (u.dst = 0 && i.dst ≠ 0) || (!u.a && i.a ≠ 0) || (!u.b && i.b ≠ 0) || (!u.c && i.c ≠ 0) ||
  (if u.value then !(u.sources i).contains 0x78 && i.imm ≠ 0 else 2 ^ u.imm ≤ i.imm) ||
  (i.op = 0x3E && (i.pred ≠ 0 || i.pneg))

/-- A source code that the operation does not accept (R320, R324). -/
def sourceBad (op : Nat) (value : Bool) (code : Nat) : Bool :=
  !(code < 0x76 || code = 0x78) || (code = 0x74 && readsQ31 op) || (code = 0x78 && !value)

/-- An illegal operand: RESULT 0x3. -/
def operandBad (u : OpUse) (i : LeInstr) : Bool :=
  ((u.sources i).any fun c => sourceBad i.op u.value c) ||
  (u.dst = 2 && 62 < i.dst) || (u.dst = 3 && 61 < i.dst) ||
  ((i.op = 0x23 || i.op = 0x24) && 62 < i.c) || (i.op = 0x26 && 62 < i.b) ||
  ((i.op = 0x06 || i.op = 0x07) && 511 < i.imm) ||
  (i.op = 0x25 && 507 < bitsOf i.imm 9 9) || ((i.op = 0x26 || i.op = 0x27) && 510 < bitsOf i.imm 9 9) ||
  (i.op = 0x26 && 510 < i.imm % 512) ||
  ((i.op = 0x03 || i.op = 0x04) && (bitsOf i.imm 3 3 = 0 || 5 < bitsOf i.imm 3 3 || 5 < i.imm % 8)) ||
  (i.op = 0x05 && (i.imm % 8 = 0 || 5 < i.imm % 8))

/-- The failure of one instruction word of a program, if it has one; `last` says it is the program's last. DESIGN CHOICE (log entry 50):
where a word meets several failures of R343 the order is 0x1, 0x4 for a header inside a program, 0x2, 0x3, and 0x4 for END. -/
def wordCheck (w : BitVec 64) (ue last : Bool) : Option Nat :=
  let i := leFields w
  if ue then some 0x1
  else if i.op = 0x3F then some 0x4
  else match opUse i.op (bitOf i.imm 18) with
    | none => some 0x2
    | some u =>
      if unusedBad u i then some 0x2
      else if operandBad u i then some 0x3
      else if (i.op = 0x3E) ≠ last then some 0x4
      else none

/-- The instruction words of a program, from address `w` on: the first failure, and the sum of the costs. -/
def programCheck (w : Nat) : List (BitVec 64 × Bool) → Nat → Option (Nat × Nat) × Nat
  | [], sum => (none, sum)
  | (x, ue) :: xs, sum =>
    match wordCheck x ue xs.isEmpty with
    | some e => (some (e, w), sum)
    | none =>
      let i := leFields x
      programCheck (w + 1) xs (sum + (leCost i.op i.imm).getD 0)

/-- A header word: RESULT 0x2 for a reserved field that is not 0, or a LENGTH or CYCLES of 0 (R343). -/
def headerBad (w : BitVec 64) : Bool :=
  let n := w.toNat
  bitsOf n 32 14 ≠ 0 || bitsOf n 8 8 ≠ 0 || bitsOf n 46 12 = 0 || bitsOf n 16 16 = 0

/-- The walk over the loaded range from address `w` on (R343), with fuel for each word: the first failure it reaches. DESIGN CHOICE (log
entry 50): 0x6 is judged at the header, before the program's words, and for 0x5 and 0x6 WORD is the header's address. -/
def rangeCheck : Nat → Nat → List (BitVec 64 × Bool) → Option (Nat × Nat)
  | 0, _, _ => none
  | _, _, [] => none
  | k + 1, w, (x, ue) :: xs =>
    if ue then some (0x1, w)
    else if x.toNat / 2 ^ 58 = 0x3F then
      let len := bitsOf x.toNat 46 12
      if headerBad x then some (0x2, w)
      else if xs.length < len then some (0x6, w)
      else
        match programCheck (w + 1) (xs.take len) 0 with
        | (some e, _) => some e
        | (none, sum) =>
          if sum ≠ bitsOf x.toNat 16 16 then some (0x5, w) else rangeCheck k (w + 1 + len) (xs.drop len)
    else if x ≠ 0 then some (0x7, w)
    else rangeCheck k (w + 1) xs

/-! ### LOAD (R339 to R343) -/

/-- Bank `b` is idle (R339). -/
def State.bankIdle (s : State) (b : Nat) : Bool :=
  s.mode = mBOOT || s.mode = mCONFIG || (List.range 16).all fun n =>
    !s.flag (LE.pg n) LE.CTRL_EN || b < s.rd (LE.pg n) LE.BANKS_FIRST ||
      s.rd (LE.pg n) LE.BANKS_FIRST + s.rd (LE.pg n) LE.BANKS_COUNT ≤ b

/-- Why a LOAD is refused, if it is (R340): state before range. -/
def State.loadRefused (s : State) (first count : Nat) : Option Nat :=
  let src := s.rd LPS.pg LPS.LOAD_SRC_ADDR
  if s.flag LPS.pg LPS.STATUS_LOAD_BUSY || (List.range count).any fun i => !s.bankIdle (first + i) then some 0x05
  else if count = 0 || 16 < first + count || src % 8 ≠ 0 || !inSram src (2048 * count) then some 0x03
  else none

def State.setLoadBusy (s : State) (b : Bool) : State :=
  (s.setFlag LPS.pg LPS.STATUS_LOAD_BUSY 0 b).setFlag LPS.pg LPS.LOAD_STATUS_BUSY 0 b

/-- An accepted LOAD (R341). -/
def State.loadStart (s : State) (first count : Nat) : State :=
  let s := (s.wr LPS.pg LPS.LOAD_STATUS_RESULT 0 0).wr LPS.pg LPS.LOAD_STATUS_WORD 0 0
  let s := s.setLoadBusy true
  { s with lps := { s.lps with load := some (s.rd LPS.pg LPS.LOAD_SRC_ADDR, first, count) } }

/-- Word of the image, with whether it is uncorrectable; such a word is copied as read (R343). -/
def State.imageWord (s : State) (a : Nat) : (BitVec 64 × Bool) × State :=
  match s.sramRead64 a with
  | (some v, s) => ((v, false), s)
  | (none, s) => ((BitVec.ofNat 64 (ofLeBytes (s.bytesAt a 8)), true), s)

/-- The copy of `k` words from bus address `a` to LPS word `w`. -/
def State.loadCopy (s : State) : Nat → Nat → Nat → List (BitVec 64 × Bool) × State
  | 0, _, _ => ([], s)
  | k + 1, a, w =>
    let (x, s) := s.imageWord a
    let (xs, s) := (s.setLpsWord w x.1).loadCopy k (a + 8) (w + 1)
    (x :: xs, s)

/-- LOAD_DONE (R341 to R343). -/
def State.loadDone (s : State) : State :=
  match s.lps.load with
  | none => s
  | some (src, first, count) =>
    let (ws, s) := s.loadCopy (256 * count) src (256 * first)
    let res := rangeCheck (256 * count + 1) (256 * first) ws
    let ok := res.isNone
    let s := (s.wr LPS.pg LPS.LOAD_STATUS_RESULT 0 ((res.map (·.1)).getD 0)).wr LPS.pg LPS.LOAD_STATUS_WORD 0 ((res.map (·.2)).getD 0)
    let s := (List.range count).foldl (fun s i =>
      let b := first + i
      let s := s.wr LPS.pg LPS.BANKMASTER_ADDR b (src + 2048 * i)
      let s := (s.wr LPS.pg LPS.LAST_REFETCH_WORD b 0).wr LPS.pg LPS.LAST_REFETCH_SET b 0
      let s := s.putBit LPS.pg LPS.VALID_BANK 0 b ok
      { s with lps := { s.lps with fresh := s.lps.fresh.map fun m => m ||| BitVec.twoPow 16 b } }) s
    let s := s.setLoadBusy false
    let s := { s with lps := { s.lps with load := none } }
    s.irq LPS.pg (if ok then 0 else 1)

/-! ### The Form ROM library (R303, R346, R347) -/

/-- A row of the table of R303: words, RUN_CYCLES, the cycle of the last duty write (none for NP_BAL), coefficient words, input
slots outside the Form group, whether it reads the Form group, set points, output ports, how many of words 0x1F0 and 0x1F1 it writes
at every run (R304, R486), whether it closes a loop, how many resonant terms it has, and whether it makes a ramp. -/
structure LibRow where
  words : Nat
  cycles : Nat
  last : Option Nat
  coefs : Nat
  slots : List Nat
  form : Bool
  sps : List Nat
  ports : Nat
  measured : Nat
  loop : Bool := false
  resonant : Nat := 0
  ramp : Bool := false

/-- The table of R303. -/
def libRow (id : Nat) : Option LibRow :=
  match id with
  | 0x01 => some ⟨110, 150, some 64, 48, [0, 1, 2, 3, 4], true, [0, 1], 3, 1, true, 0, false⟩
  | 0x02 => some ⟨178, 236, some 64, 96, [0, 1, 2, 3, 4], true, [0, 1], 3, 1, true, 8, false⟩
  | 0x03 => some ⟨32, 40, some 36, 8, [3, 4], true, [0], 3, 0, false, 0, false⟩
  | 0x04 => some ⟨48, 60, none, 12, [0, 1], false, [], 4, 0, true, 0, false⟩
  | 0x05 => some ⟨140, 180, some 72, 40, [0, 1, 2], false, [0, 1], 4, 2, true, 0, false⟩
  | 0x06 => some ⟨24, 30, some 26, 6, [2], false, [0], 4, 2, false, 0, false⟩
  | 0x07 => some ⟨96, 120, some 60, 24, [1, 2], false, [1], 4, 2, false, 0, true⟩
  | _ => none

/-- Words and RUN_CYCLES of library program `id` (R303). -/
def libProgram (id : Nat) : Option (Nat × Nat) := (libRow id).map fun r => (r.words, r.cycles)

/-- The sources an instruction uses. -/
def LeInstr.sources (i : LeInstr) : List Nat :=
  match opUse i.op (bitOf i.imm 18) with
  | some u => u.sources i
  | none => []

/-- It issues with its effect in every run. -/
def unguarded (i : LeInstr) : Bool := i.pred = 0 && !i.pneg

/-- `c` names an input the row of R303 lists: its slots, its set points, the Form group of slots 8·`g` to 8·`g` + 7. -/
def LibRow.reads (r : LibRow) (g c : Nat) : Bool :=
  if 0x40 ≤ c && c < 0x60 then r.slots.contains (c - 0x40) || (r.form && (c - 0x40) / 8 = g)
  else if 0x60 ≤ c && c < 0x68 then r.sps.contains (c - 0x60)
  else true

/-- A coefficient address of the layout of R347, and an address its program may write: a state word, or words 0x1F0 and 0x1F1. -/
def LibRow.coef (r : LibRow) (a len : Nat) : Bool := 0x100 ≤ a && a + len ≤ 0x100 + r.coefs
def LibRow.own (r : LibRow) (a : Nat) : Bool := a < 0x100 || (0x1F0 ≤ a && a < 0x1F0 + r.measured)

/-- The data-memory addresses an instruction uses lie in the layout of R347: coefficients from 0x100 on, state below. -/
def LibRow.places (r : LibRow) (i : LeInstr) : Bool :=
  match i.op with
  | 0x06 => r.own i.imm || r.coef i.imm 1
  | 0x07 => r.own i.imm
  | 0x25 => bitsOf i.imm 0 9 < 0x100 && r.coef (bitsOf i.imm 9 9) 5
  | 0x26 => bitsOf i.imm 0 9 + 1 < 0x100 && r.coef (bitsOf i.imm 9 9) 2
  | 0x27 => bitsOf i.imm 0 9 < 0x100 && r.coef (bitsOf i.imm 9 9) 2
  | _ => true

/-- The coefficient words an instruction reads. -/
def LeInstr.coefs (i : LeInstr) : List Nat :=
  let k := bitsOf i.imm 9 9
  match i.op with
  | 0x06 => [i.imm]
  | 0x25 => [k, k + 1, k + 2, k + 3, k + 4]
  | 0x26 => [k, k + 1]
  | 0x27 => [k, k + 1]
  | _ => []

/-- The cycle in which the last OUT of a program issues, the first cycle being 1; 0 where it has none. -/
def lastOut : List LeInstr → Nat → Nat → Nat
  | [], _, found => found
  | i :: is, at_, found => lastOut is (at_ + (leCost i.op i.imm).getD 0) (if i.op = 0x30 then at_ else found)

/-! What a value in a run comes from, as a set of bits: 0 to 7 the words of the Form group; 8 an L source; 9 a current reference that is
held to the limit in word 6; 10 a quotient of a measured value by a reference (words 0 to 2, 5); 11 an integrator; 12 a resonant term;
13 a rate limiter; 16 + k input slot k; 48 + k set point k. -/

/-- The value comes from a phase reference; from an input slot. -/
def fromReference (v : Nat) : Bool := [0, 1, 2].any fun k => v.testBit k
def fromSlots (v : Nat) : Bool := (List.range 32).any fun k => v.testBit (16 + k)

/-- What the values of a run come from: the registers, the state words (address, bits), the values of the unguarded OUTs (port, bits),
those stored unguarded (address, bits); every tracked integrator takes its target from an L source (R334). -/
structure LibFlow where
  regs : List Nat := List.replicate 64 0
  mem : List (Nat × Nat) := []
  outs : List (Nat × Nat) := []
  stores : List (Nat × Nat) := []
  tracked : Bool := true

/-- What the operand of code `c` comes from, where the Form group is slots 8·`g` to 8·`g` + 7. -/
def LibFlow.source (f : LibFlow) (r : LibRow) (g c : Nat) : Nat :=
  if c < 0x40 then f.regs.getD c 0
  else if c < 0x60 then if r.form && (c - 0x40) / 8 = g then 2 ^ (c % 8) else 2 ^ (16 + (c - 0x40))
  else if c < 0x68 then 2 ^ (48 + (c - 0x60))
  else if c < 0x70 then 2 ^ 8
  else 0

/-- What the word at address `a` comes from. -/
def LibFlow.word (f : LibFlow) (a : Nat) : Nat := ((f.mem.find? fun e => e.1 = a).map (·.2)).getD 0

def LibFlow.putWord (f : LibFlow) (a v : Nat) : LibFlow := { f with mem := (a, v ||| f.word a) :: f.mem.filter fun e => e.1 ≠ a }

/-- The state words that an instruction reads and writes beside its result. -/
def LeInstr.states (i : LeInstr) : List Nat :=
  let k := bitsOf i.imm 0 9
  if i.op = 0x25 || i.op = 0x27 then [k] else if i.op = 0x26 then [k, k + 1] else []

/-- One instruction: its result comes from its sources and from the data words it reads; a guarded one leaves what was there too. -/
def LibFlow.step (r : LibRow) (g : Nat) (f : LibFlow) (i : LeInstr) : LibFlow :=
  let src := f.source r g
  let dst := ((opUse i.op (bitOf i.imm 18)).map (·.dst)).getD 0
  let data := if i.op = 0x06 then [i.imm] else i.states
  let v := (data.map f.word ++ i.sources.map src).foldl (· ||| ·) 0
  let holds := fun (x limit : Nat) => limit.testBit 6 && fromReference x && (!r.loop || x.testBit 11)
  let held := (i.op = 0x0C && (holds (src i.a) (src i.b) || holds (src i.b) (src i.a))) || (i.op = 0x0E && holds (src i.a) (src i.c))
  let v := if held then v ||| 2 ^ 9 else v
  let ratio := i.op = 0x11 && fromSlots (src i.a) && (fromReference (src i.b) || (src i.b).testBit 5)
  let v := if ratio then v ||| 2 ^ 10 else v
  let v := if i.op = 0x25 then v ||| 2 ^ 11 else if i.op = 0x26 then v ||| 2 ^ 12 else if i.op = 0x27 then v ||| 2 ^ 13 else v
  let f := if i.op = 0x25 && bitOf i.imm 18 && !(src i.c).testBit 8 then { f with tracked := false } else f
  let f := { f with regs := (List.range dst).foldl (fun rs k =>
    rs.set (i.dst + k) (if unguarded i then v else v ||| rs.getD (i.dst + k) 0)) f.regs }
  let f := i.states.foldl (fun f a => f.putWord a v) f
  if i.op = 0x07 then
    let f := if unguarded i then { f with mem := (i.imm, v) :: f.mem.filter fun e => e.1 ≠ i.imm } else f.putWord i.imm v
    if unguarded i then { f with stores := (i.imm, v) :: f.stores } else f
  else if i.op = 0x30 && unguarded i then { f with outs := (i.imm, v) :: f.outs }
  else f

/-- One run after the runs that `f` stands for, and `k` runs from the first one on: registers and state words pass from run to run. -/
def LibFlow.run (r : LibRow) (g : Nat) (is : List LeInstr) (f : LibFlow) : LibFlow :=
  is.foldl (LibFlow.step r g) { regs := f.regs, mem := f.mem }
def libFlow (r : LibRow) (g : Nat) (is : List LeInstr) : Nat → LibFlow
  | 0 => {}
  | k + 1 => (libFlow r g is k).run r g is

/-- What word 0x1F0 + `k` comes from (R304, R486): a ratio of a measured value to a reference in the grid-bridge programs; the output current, in a program
without its slot from what it has, and the output voltage in the others. -/
def LibRow.measures (r : LibRow) (k v : Nat) : Bool :=
  if r.form then v.testBit 10 && fromSlots v
  else if k = 0 then if r.slots.contains 1 then v.testBit 17 else v.testBit 18 || v.testBit 48
  else v.testBit 18

/-- What R303 to R305, R334 and R486 say of the code of a library program, as far as its words show it (log entry 50): it passes a LOAD,
costs RUN_CYCLES, writes its last duty in the cycle given; it reads the slots, the references and the limit of the Form group, the set points
and the coefficient words of its row and no others; its duties come from a value that was held to the limit in word 6, or from its slots,
its measured words from what they measure, and the targets of its tracked integrators from L sources. A loop reaches every output through
an integrator, a ramp through a rate limiter or an integrator; the resonant terms are there, and reach some output; every slot and set
point has an effect on an output or a measured word. -/
def LibRow.codeOk (r : LibRow) (ws : List (BitVec 64)) : Bool :=
  let is := ws.map leFields
  let outs := is.filter fun i => i.op = 0x30
  let reads := fun c => is.any fun i => i.sources.contains c
  programCheck 0 ((ws ++ [BitVec.ofNat 64 (0x3E * 2 ^ 58)]).map fun w => (w, false)) 0 = (none, r.cycles) &&
  (match r.last with | some c => lastOut is 1 0 = c | none => true) &&
  (outs.all fun i => i.imm < r.ports) && (is.all fun i => r.places i) &&
  (r.slots.all fun k => reads (0x40 + k)) && (r.sps.all fun k => reads (0x60 + k)) &&
  ((List.range r.coefs).all fun k => is.any fun i => i.coefs.contains (0x100 + k)) &&
  (List.range 4).any fun g =>
    let f := libFlow r g is 4
    (is.all fun i => i.sources.all (r.reads g)) && (!r.form || [0, 1, 2, 6].all fun k => reads (0x40 + 8 * g + k)) &&
    ((List.range r.ports).all fun p => f.outs.any fun e => e.1 = p && (!r.loop || e.2.testBit 11) && (!r.ramp || e.2.testBit 11 || e.2.testBit 13) &&
      if r.form then e.2.testBit 9 else r.slots.any fun k => e.2.testBit (16 + k)) &&
    ((is.filter fun i => i.op = 0x26).length ≥ r.resonant && (r.resonant = 0 || f.outs.any fun e => e.2.testBit 12)) &&
    ((r.slots.map (16 + ·) ++ r.sps.map (48 + ·)).all fun k => (f.outs ++ f.stores).any fun e => e.2.testBit k) &&
    ((List.range r.measured).all fun k => f.stores.any fun e => e.1 = 0x1F0 + k && r.measures k e.2) && f.tracked

/-- A code that meets the row: it stands in where the free words do not (log entry 50). It sums the inputs, closes the loop on the sum or ramps to it, adds
the resonant terms of the run before and holds the result to word 6; after the outputs come the resonant terms and the measured words. -/
def LibRow.someCode (r : LibRow) : List (BitVec 64) :=
  let word := fun op dst a b c imm => BitVec.ofNat 64 (op * 2 ^ 58 + dst * 2 ^ 48 + a * 2 ^ 40 + b * 2 ^ 32 + c * 2 ^ 24 + imm)
  let pad := fun count cost =>
    if count = 0 then [] else word 0x00 0 0 0 0 (cost - count) :: List.replicate (count - 1) (word 0x00 0 0 0 0 0)
  let last := r.last.getD (r.words / 2)
  let inputs := r.sps.map (0x60 + ·) ++ r.slots.map (0x40 + ·) ++ if r.form then [0x58, 0x59, 0x5A] else []
  let sum := inputs.map fun c => word 0x08 1 1 c 0 0
  let loop := if r.loop then [word 0x25 2 1 1 0x68 (2 ^ 18 + 0x100 * 2 ^ 9)] else if r.ramp then [word 0x27 2 1 0 0 (0x100 * 2 ^ 9)]
    else [word 0x01 2 1 0 0 0]
  let terms := if r.resonant = 0 then [] else [word 0x06 3 0 0 0 0x40, word 0x08 2 2 3 0 0]
  let head := sum ++ loop ++ terms ++ if r.form then [word 0x0C 2 2 0x5E 0 0] else []
  let headCost := head.length + if r.loop then 3 else if r.ramp then 1 else 0
  let resons := (List.range r.resonant).flatMap fun k =>
    [word 0x26 5 1 6 0 (2 + 2 * k + (0x105 + 2 * k) * 2 ^ 9), word 0x08 4 4 5 0 0]
  let reson := if r.resonant = 0 then [] else resons ++ [word 0x07 0 4 0 0 0x40]
  let measured := if r.measured = 0 then [] else if r.form then [word 0x11 7 0x40 0x5D 0 0, word 0x08 7 7 1 0 0, word 0x07 0 7 0 0 0x1F0]
    else [word 0x07 0 (if r.slots.contains 1 then 0x41 else 0x42) 0 0 0x1F0, word 0x07 0 0x42 0 0 0x1F1]
  let used := (if r.loop then 5 else if r.ramp then 2 else 0) + 2 * r.resonant
  let loads := (List.range (r.coefs - used)).map fun k => word 0x06 8 0 0 0 (0x100 + used + k)
  let early := min loads.length (last - r.ports - headCost - 1)
  let tail := loads.drop early ++ reson ++ measured
  let tailCost := tail.length + 5 * r.resonant + if r.measured ≠ 0 && r.form then 7 else 0
  let late := r.cycles - 1 - last - tailCost
  let room := r.words - 2 - head.length - early - r.ports - tail.length
  let back := min late (room - 1)
  head ++ loads.take early ++ pad (room - back) (last - r.ports - headCost - early) ++
    (List.range r.ports).map (fun p => word 0x30 0 2 0 0 p) ++ tail ++ pad back late

/-- The code of library program `id` between its header and its END: free words, within what R303 to R305, R334 and R486 say. -/
def libCode (id : Nat) (r : LibRow) : List (BitVec 64) :=
  let ws := (List.range (r.words - 2)).map fun i => Config.formRom id (i + 1)
  if r.codeOk ws then ws else r.someCode

/-- Word `i` of library program `id`: its header (R316), its END (R312), the code between. -/
def libWord (id : Nat) (r : LibRow) (i : Nat) : BitVec 64 :=
  if i = 0 then BitVec.ofNat 64 (0x3F * 2 ^ 58 + (r.words - 1) * 2 ^ 46 + r.cycles * 2 ^ 16 + id)
  else if i + 1 = r.words then BitVec.ofNat 64 (0x3E * 2 ^ 58)
  else (libCode id r).getD (i - 1) 0

def State.setLibBusy (s : State) (b : Bool) : State :=
  (s.setFlag LPS.pg LPS.STATUS_LIB_BUSY 0 b).setFlag LPS.pg LPS.LIB_STATUS_BUSY 0 b

/-- An accepted library command. -/
def State.libStart (s : State) (id : Nat) : State :=
  let s := s.setLibBusy true
  { s with lps := { s.lps with lib := some (id, s.rd LPS.pg LPS.LIB_DEST_ADDR) } }

/-- LIB_DONE (R346, R347). An unknown ID with a bad LIB_DEST is RESULT 0x1, for its ID decides the image's size (DESIGN CHOICE, log entry 50:
R347 gives no order). -/
def State.libDone (s : State) : State :=
  match s.lps.lib with
  | none => s
  | some (id, dest) =>
    let s := s.setLibBusy false
    let s := { s with lps := { s.lps with lib := none } }
    let done := fun (s : State) (res words : Nat) =>
      ((s.wr LPS.pg LPS.LIB_STATUS_RESULT 0 res).wr LPS.pg LPS.LIB_STATUS_WORDS 0 words).irq LPS.pg 2
    match libRow id with
    | none => done s 0x1 0
    | some r =>
      if dest % 8 ≠ 0 || !inSram dest (8 * r.words) then done s 0x2 0
      else
        let bs := (List.range r.words).flatMap fun i => leBytes 8 (libWord id r i).toNat
        done (s.sramWrite64 dest bs) 0x0 r.words

/-- A request from CONFIG to READY meets a bank that is not valid, or loaded since its engine's page was committed last
(R345). -/
def State.banksNotReady (s : State) : Bool :=
  (List.finRange 16).any fun (n : Fin 16) =>
    s.flag (LE.pg n) LE.CTRL_EN && (List.range 16).any fun b =>
      s.rd (LE.pg n) LE.BANKS_FIRST ≤ b && b < s.rd (LE.pg n) LE.BANKS_FIRST + s.rd (LE.pg n) LE.BANKS_COUNT &&
        (!bitOf (s.rd LPS.pg LPS.VALID_BANK) b || (s.lps.fresh[n]).getLsbD b)

end Sys2Proof.Machine
end

