-- ==== Sys2Proof/Machine/Form.lean ====
section
/-!
DEFINITION. Machine/Form.lean: the Form Units (03 R118 to R179, 04 R180 to R239, R956): inputs, the source model, the
estimator, synchronising, the ramps, the harmonic slots, the delivery of references.

Quantities are rationals in the pu of R123; a register shows the nearest binary32.
-/
namespace Sys2Proof.Machine

def State.formUnit (s : State) (n : Fin 2) : FormUnit := s.form[n]
def State.setForm (s : State) (n : Fin 2) (u : FormUnit) : State := { s with form := s.form.set n u }

/-- The states of R172. -/
abbrev fIDLE : Nat := 0
abbrev fSYNC : Nat := 1
abbrev fFORM : Nat := 2
abbrev fRAMP : Nat := 3
abbrev fFAULT : Nat := 4

def State.formState (s : State) (n : Nat) : Nat := s.rd (FORM.pg n) FORM.STATUS_STATE

/-- A binary32 register of the page as a rational. -/
def State.fR (s : State) (n : Nat) (f : Fld) (i : Nat := 0) : Rat := ratOf (s.rd (FORM.pg n) f i)

/-- Publish a quantity as binary32. -/
def State.fW (s : State) (n : Nat) (f : Fld) (q : Rat) (i : Nat := 0) : State := s.wr (FORM.pg n) f i (f32 q).toNat

/-- BRIDGES, and whether the unit is in use (R118, R180). -/
def State.bridges (s : State) (n : Nat) : Nat := s.rd (FORM.pg n) FORM.BASECFG_BRIDGES
def State.formInUse (s : State) (n : Nat) : Bool := 1 ≤ s.bridges n

/-- ωBASE in rad/s (R11, R121). -/
def State.omegaBase (s : State) (n : Nat) : Rat :=
  2 * piR * (if s.flag (FORM.pg n) FORM.BASECFG_FBASE then 60 else 50)

/-- The update period in s: PERIOD × 4 ns. -/
def State.formT (s : State) (n : Nat) : Rat := mkRat (s.rd (FORM.pg n) FORM.RATE_PERIOD) 250000000

/-- The update sequence runs (R133). -/
def State.formRuns (s : State) (n : Nat) : Bool := s.formInUse n && s.armed

/-- FORM_FAULT is active while a unit is in FAULT. -/
def State.formSources (s : State) : State := s.setSource 55 ((List.range 2).any fun n => s.formState n = fFAULT)

/-- A change of CLOSE_PERMIT sets its IRQ bit (R176). -/
def State.setPermit (s : State) (n : Nat) (b : Bool) : State :=
  let old := s.flag (FORM.pg n) FORM.STATUS_CLOSE_PERMIT
  (s.setFlag (FORM.pg n) FORM.STATUS_CLOSE_PERMIT 0 b).irqIf (old ≠ b) (FORM.pg n) 5

/-- The unit takes a state; CLOSE_PERMIT is 0 outside SYNC (R203); the Form groups of the engines it feeds from now on join the stale
check (R260). -/
def State.setFormState (s : State) (n st : Nat) : State :=
  let old := s.formState n
  let s := ((s.wr (FORM.pg n) FORM.STATUS_STATE 0 st).formFed s).irqIf (old ≠ st) (FORM.pg n) 0
  if st = fSYNC then s else s.setPermit n false

/-- Entry to FAULT (R166): θ, ω and E hold. -/
def State.formFault (s : State) (n : Fin 2) (cause : Nat) : State :=
  let s := (s.setFormState n fFAULT).wr (FORM.pg n) FORM.STATUS_FAULT_CAUSE 0 cause
  let s := if cause ≤ 2 then s.bump (FORM.pg n) FORM.FB_LOST_COUNT_COUNT else s
  (s.irq (FORM.pg n) 4).formSources

/-! ### Inputs (R124 to R131) -/

/-- A result of DSF control channel `ch` reaches the inputs routed to it. -/
def State.formResult (s : State) (ch : Nat) (v : BitVec 24) (valid : Bool) : State :=
  (List.finRange 2).foldl (fun s (n : Fin 2) =>
    (List.finRange 18).foldl (fun s (k : Fin 18) =>
      if s.flag (FORM.pg n) FORM.INROUTE_EN k && s.rd (FORM.pg n) FORM.INROUTE_CH k = ch then
        let u := s.formUnit n
        s.setForm n { u with inputs := u.inputs.set k { u.inputs[k] with result := v, valid := valid, fresh := true } }
      else s) s) s

/-- Input `k` at an update: it advanced or aged, and is lost or not (R127). -/
def FormInput.sample (x : FormInput) (limit : Nat) : FormInput :=
  let stale := if x.fresh then 0 else x.stale + 1
  { x with fresh := false, stale := stale, lost := !x.valid || limit ≤ stale }

/-- Some enabled input of a range is lost. -/
def State.formLost (s : State) (n : Fin 2) (lo hi : Nat) : Bool :=
  (List.finRange 18).any fun (k : Fin 18) =>
    lo ≤ k.val && k.val < hi && s.flag (FORM.pg n) FORM.INROUTE_EN k && ((s.formUnit n).inputs[k]).lost

/-- The estimator registers read 0 (R130, R173). -/
def State.gridZero (s : State) (n : Fin 2) : State :=
  ((s.wr (FORM.pg n) FORM.GRID_DANG_VALUE 0 0).wr (FORM.pg n) FORM.GRID_MAG_VALUE 0 0).wr (FORM.pg n) FORM.GRID_SLIP_VALUE 0 0

/-- The feedback flags, and the reaction to a loss: FAULT in SYNC, FORM and RAMP, nothing more in IDLE (R128 to R131). DESIGN CHOICE (log
entry 46): where a current and a capacitor-voltage input are both lost at one update, the spec does not say which cause is recorded; the
model records 0x01. -/
def State.formCheckInputs (s : State) (n : Fin 2) : State :=
  let pg := FORM.pg n
  let s := s.setFlag pg FORM.STATUS_I_FB_OK 0 (!s.formLost n 0 12)
  let s := s.setFlag pg FORM.STATUS_V_FB_OK 0 (!s.formLost n 12 15)
  let s := s.setFlag pg FORM.STATUS_G_FB_OK 0 (!s.formLost n 15 18)
  let s := if s.formLost n 15 18 then s.gridZero n else s
  let st := s.formState n
  if st = fSYNC || st = fFORM || st = fRAMP then
    if s.formLost n 0 12 then s.formFault n 0x01 else if s.formLost n 12 15 then s.formFault n 0x02 else s
  else s

/-- Sample the inputs (step 1 of R148). -/
def State.formSample (s : State) (n : Fin 2) : State :=
  let lim := s.rd (FORM.pg n) FORM.STALE_LIM_LIMIT
  let u := s.formUnit n
  let inputs := Vector.ofFn fun (k : Fin 18) =>
    if s.flag (FORM.pg n) FORM.INROUTE_EN k then (u.inputs[k]).sample lim else u.inputs[k]
  s.setForm n { u with inputs := inputs }

/-- The value of input `k` (R125); 0 where it is not enabled. -/
def State.formIn (s : State) (n : Fin 2) (k : Fin 18) : Rat :=
  if s.flag (FORM.pg n) FORM.INROUTE_EN k then
    let off := signedOf 24 (s.rd (FORM.pg n) FORM.INROUTE_OFFSET k)
    let scale := if k.val < 12 then s.fR n FORM.ISCALE_VALUE else if k.val < 15 then s.fR n FORM.VSCALE_VALUE else s.fR n FORM.GSCALE_VALUE
    ((((s.formUnit n).inputs[k]).result.toInt - off : Int) : Rat) * scale
  else 0

/-- Bus current of phase `x`: the sum of that phase's enabled bridge currents (R126). -/
def State.busCurrent (s : State) (n : Fin 2) (x : Fin 3) : Rat :=
  (List.finRange 4).foldl (fun q (b : Fin 4) => q + s.formIn n (Fin.ofNat 18 (3 * b.val + x.val))) 0

/-- The amplitude-invariant α and β of three phases (R123). -/
def clarkeR (a b c : Rat) : Rat × Rat := ((2 * a - b - c) / 3, (b - c) * rsqrt3)

/-- α and β turned into the frame of angle θ. -/
def parkR (x : Rat × Rat) (th : Rat) : Rat × Rat :=
  let c := cosR th
  let sn := sinR th
  (x.1 * c + x.2 * sn, x.2 * c - x.1 * sn)

def magR (x : Rat × Rat) : Rat := sqrtR (x.1 * x.1 + x.2 * x.2)
def angR (x : Rat × Rat) : Rat := atan2R x.2 x.1

def State.capVoltage (s : State) (n : Fin 2) : Rat × Rat := clarkeR (s.formIn n 12) (s.formIn n 13) (s.formIn n 14)
def State.gridVoltage (s : State) (n : Fin 2) : Rat × Rat := clarkeR (s.formIn n 15) (s.formIn n 16) (s.formIn n 17)
def State.busAB (s : State) (n : Fin 2) : Rat × Rat := clarkeR (s.busCurrent n 0) (s.busCurrent n 1) (s.busCurrent n 2)

/-- The voltage at the δ reference point: the grid side only with ANGLE_POINT 1 and the breaker closed (R161, R185). -/
def State.deltaVoltage (s : State) (n : Fin 2) : Rat × Rat :=
  if s.flag (FORM.pg n) FORM.BASECFG_ANGLE_POINT && (s.formUnit n).mbClosed then s.gridVoltage n else s.capVoltage n

/-- A value moved towards a target by at most `d`. -/
def rampR (v t d : Rat) : Rat := if ratAbs (t - v) ≤ d then t else if t < v then v - d else v + d

/-- A value held in a range. -/
def clampR (v lo hi : Rat) : Rat := if v < lo then lo else if hi < v then hi else v

/-! ### Commit: derived values and checks (R154, R155, R158, R179) -/

/-- A register as a commit would leave it. -/
def State.fM (s : State) (n : Nat) (f : Fld) (i : Nat := 0) : Rat := ratOf (s.merged (FORM.pg n) f i)

def State.omegaBaseM (s : State) (n : Nat) : Rat :=
  2 * piR * (if s.merged (FORM.pg n) FORM.BASECFG_FBASE = 1 then 60 else 50)

/-- ωn and ζ (R154). -/
def State.wnOf (s : State) (n : Nat) : Rat := sqrtR (s.omegaBaseM n / (2 * s.fM n FORM.H_VALUE * s.fM n FORM.XEST_VALUE))
def State.zetaOf (s : State) (n : Nat) : Rat :=
  (1 / s.fM n FORM.MP_VALUE + s.fM n FORM.DAMP_VALUE) /
    (2 * sqrtR (2 * s.fM n FORM.H_VALUE * s.omegaBaseM n / s.fM n FORM.XEST_VALUE))

/-- |RV + jXV| is at least EMAX / ILIM (R158). -/
def State.zEnough (s : State) (n : Nat) : Bool :=
  let r := s.fM n FORM.RV_VALUE
  let x := s.fM n FORM.XV_VALUE
  let z := s.fM n FORM.EMAX_VALUE / s.fM n FORM.ILIM_VALUE
  z * z ≤ r * r + x * x

/-- KCL_MIN (R158): the positive root of the condition, divided by ILIM · (1 − ION). -/
def State.kclMin (s : State) (n : Nat) : Rat :=
  if s.zEnough n then 0
  else
    let r := s.fM n FORM.RV_VALUE
    let x := s.fM n FORM.XV_VALUE
    let z := s.fM n FORM.EMAX_VALUE / s.fM n FORM.ILIM_VALUE
    let xr := s.fM n FORM.XRCL_VALUE
    let c := 1 / sqrtR (1 + xr * xr)
    let k := r * c + x * (xr * c)
    (sqrtR (k * k + z * z - r * r - x * x) - k) / (s.fM n FORM.ILIM_VALUE * (1 - s.fM n FORM.ION_VALUE))

def ratMax (a b : Rat) : Rat := if a < b then b else a
def ratMin (a b : Rat) : Rat := if b < a then b else a

/-- The figures an accepted commit publishes. -/
def State.formFigures (s : State) (n : Nat) : State :=
  let wn := s.wnOf n
  let z := s.zetaOf n
  let k := ratMax (s.fM n FORM.KCL_VALUE) (s.kclMin n)
  ((s.fW n FORM.WN_VALUE wn).fW n FORM.ZETA_VALUE z).fW n FORM.KCL_EFF_VALUE k

/-- Two enabled BMAP entries of one page name the same engine. -/
def State.bmapDup (s : State) (n : Nat) : Bool :=
  (List.range 4).any fun a => (List.range a).any fun b =>
    s.merged (FORM.pg n) FORM.BMAP_EN a = 1 && s.merged (FORM.pg n) FORM.BMAP_EN b = 1 &&
      s.merged (FORM.pg n) FORM.BMAP_LE a = s.merged (FORM.pg n) FORM.BMAP_LE b

/-- The conditions of R179. -/
def State.formInconsistent (s : State) (n : Nat) : Bool :=
  let pg := FORM.pg n
  let o := FORM.pg (1 - n)
  let m := fun f i => s.merged pg f i
  let q := fun f => s.fM n f
  let br := m FORM.BASECFG_BRIDGES 0
  let fb : Nat := if m FORM.BASECFG_FBASE 0 = 1 then 60 else 50
  let z := s.zetaOf n
  z < mkRat 3 10 || 3 < z ||
  q FORM.VSET_VALUE < q FORM.EMIN_VALUE || q FORM.EMAX_VALUE < q FORM.VSET_VALUE ||
  q FORM.FSET_VALUE < q FORM.FMIN_VALUE || q FORM.FMAX_VALUE < q FORM.FSET_VALUE ||
  ((List.range 24).any fun k => m FORM.HSLOT_CFG_EN k = 1 &&
    25000000 < m FORM.HSLOT_CFG_ORDER k * fb * m FORM.RATE_PERIOD 0) ||
  ((List.range 24).any fun a => (List.range a).any fun b => m FORM.HSLOT_CFG_EN a = 1 && m FORM.HSLOT_CFG_EN b = 1 &&
    m FORM.HSLOT_CFG_ORDER a = m FORM.HSLOT_CFG_ORDER b && m FORM.HSLOT_CFG_SEQ a = m FORM.HSLOT_CFG_SEQ b) ||
  (1 ≤ br && (((List.range 18).any fun k => (k < 3 * br || (12 ≤ k && k < 15)) && m FORM.INROUTE_EN k = 0) ||
    q FORM.ISCALE_VALUE = 0 || q FORM.VSCALE_VALUE = 0)) ||
  (m FORM.BASECFG_ANGLE_POINT 0 = 1 && (((List.range 18).any fun k => 15 ≤ k && m FORM.INROUTE_EN k = 0) ||
    q FORM.GSCALE_VALUE = 0)) ||
  ((List.range 4).any fun b => m FORM.BMAP_EN b = 1 && (br ≤ b ||
    (List.range 4).any fun c => s.flag o FORM.BMAP_EN c &&
      (s.rd o FORM.BMAP_LE c = m FORM.BMAP_LE b || s.rd o FORM.BMAP_PWM c = m FORM.BMAP_PWM b))) ||
  s.bmapDup n || (q FORM.ION_VALUE = 1 && !s.zEnough n)

/-- A set of a FORM page takes effect; the Form groups of the engines that it newly feeds join the stale check (R260). -/
def State.formApply (s : State) (n : Fin 2) : State := (s.boundary (FORM.pg n)).formFed s

/-- An accepted commit: its figures are published; while the update sequence is stopped the set takes effect (R136). -/
def State.formCommit (s : State) (n : Fin 2) : State :=
  let s := s.formFigures n
  if s.formRuns n then s else s.formApply n

/-! ### The estimator (R187 to R191, R956) -/

/-- The modes in which the estimator runs (R173). -/
def State.estRuns (s : State) : Bool := s.mode = mREADY || s.mode = mSYNC || s.mode = mISLAND

/-- A free number from a free word: between −1 and 1. -/
def freeUnit (r : Word) : Rat := mkRat r.toInt (2 ^ 31)

/-- Updates in `q` fundamental periods of 1/FBASE, rounded down. -/
def State.updatesIn (s : State) (n : Fin 2) (q : Rat) : Nat := (q / (s.formT n * (s.omegaBase n / (2 * piR)))).floor.toNat

/-- α and β turned forward by an angle. -/
def turnR (x : Rat × Rat) (a : Rat) : Rat × Rat :=
  let c := cosR a
  let sn := sinR a
  (x.1 * c - x.2 * sn, x.1 * sn + x.2 * c)

/-- The positive-sequence fundamental of samples, newest first, at `w` rad per sample: their mean over `per` samples, the last of them in
part, each turned to the newest instant. Over a whole period every other component averages to zero (R187). -/
def posSeq (w per : Rat) (vs : List (Rat × Rat)) : Rat × Rat :=
  let t := vs.zipIdx.foldl (fun (q : Rat × Rat × Rat) v =>
    let k := clampR (per - v.2) 0 1
    let x := turnR v.1 (w * v.2)
    (q.1 + k * x.1, q.2.1 + k * x.2, q.2.2 + k)) (0, 0, 0)
  (t.1 / t.2.2, t.2.1 / t.2.2)

/-- Angle, magnitude and frequency of the grid. -/
structure GridPhase where
  ang : Rat
  mag : Rat
  freq : Rat

/-- What the inputs hold (R187): the positive-sequence fundamental over the last period of its frequency, and that frequency, from the
turn of the fundamental between the last period and the one before it, found in four steps from the turn of the samples themselves and
held in 0.8 to 1.2 pu. -/
def State.gridExtract (s : State) (n : Fin 2) (hist : List (Rat × Rat)) : GridPhase :=
  let rad := s.omegaBase n * s.formT n
  let hold := fun (q : Rat) => clampR q (mkRat 8 10) (mkRat 12 10)
  let per := fun (f : Rat) => 2 * piR / (rad * f)
  let raw := (hist.zip (hist.drop 1)).take (s.updatesIn n 1)
  let f0 := if raw.isEmpty then 1 else hold (raw.foldl (fun q x => q + wrapPi (angR x.1 - angR x.2)) 0 / (rad * raw.length))
  let f := (List.range 4).foldl (fun f _ =>
    let m := (per f).floor.toNat
    let older := hist.drop m
    if older.length < m then f
    else
      let turn := angR (posSeq (rad * f) (per f) hist) - angR (posSeq (rad * f) (per f) older)
      hold (f + wrapPi (turn - rad * f * m) / (rad * m))) f0
  let p := posSeq (rad * f) (per f) hist
  { ang := angR p, mag := magR p, freq := f }

/-- Where an extracted angle, magnitude and frequency stand `k` updates of `rad` rad on, if the grid does not step. -/
def gridOn (rad : Rat) (k : Nat) (o : Rat × Rat × Rat) : Rat × Rat × Rat := (wrapPi (o.1 + rad * o.2.2 * k), o.2.1, o.2.2)

/-- By how much `x` departs from `o`, in parts of the steady bounds of R188: in angle, magnitude and frequency. -/
def gridParts (o x : Rat × Rat × Rat) : Rat × Rat × Rat :=
  (ratAbs (wrapPi (x.1 - o.1)) / mkRat 2 1000, ratAbs (x.2.1 - o.2.1) / mkRat 2 1000, ratAbs (x.2.2 - o.2.2) / mkRat 1 10000)

/-- What the inputs hold departs from what they held a period before by more than a steady bound: the grid has stepped (R188; log entry
23). -/
def gridStepped (o x : Rat × Rat × Rat) : Bool :=
  let p := gridParts o x
  1 < p.1 || 1 < p.2.1 || 1 < p.2.2

/-- How many periods behind a step the extracted values showed it: an angle and a magnitude go over in one period in a straight line, the
frequency as the square of the time. At most two (log entry 23). -/
def stepSeen (o x : Rat × Rat × Rat) : Rat :=
  let p := gridParts o x
  let parts := fun (q : Rat) => if q ≤ mkRat 1 2 then 2 else 1 / q
  ratMin (ratMin (parts p.1) (parts p.2.1)) (if p.2.2 ≤ mkRat 1 2 then 2 else sqrtR (2 / p.2.2))

/-- A free value within `bound` of `q`. -/
def nearR (r : Word) (q bound : Rat) : Rat := q + freeUnit r * bound

/-- A value on the way from `v` to `v + d`, a free part of it. -/
def towardR (r : Word) (v d : Rat) : Rat := v + ratOf r.toNat * d

/-- The bound on an estimate 100 ms behind a step: its steady error, or 1 % of the step where that is more; after twice that time the
steady error (R188; log entry 23). -/
def settleBound (age : Nat) (steady step : Rat) : Rat :=
  if age < 50000000 && steady < ratAbs step / 100 then ratAbs step / 100 else steady

/-- One step of the estimator (R187, R188, R956). It extracts the positive-sequence fundamental of inputs 15 to 17. The spec leaves the
path of an estimate open for 100 ms behind a step, a start or a return of the inputs: there the estimate goes from where it stands a
free part of the way to what the inputs hold; from then on it is free within its bound of what they hold. While an input is lost or the
magnitude is below 0.1 pu the angle coasts, the frequency holds and the magnitude follows the inputs; tracking resumes from there.
DESIGN CHOICE (log entry 23): what counts as a step, and the bounds for inputs that R188 does not name. -/
def State.estimate (s : State) (n : Fin 2) : State :=
  if !s.estRuns then s.setForm n { s.formUnit n with gHist := [], gLast := [], gRef := none, gCoast := false }
  else
    let (r1, s) := s.freshWord
    let (r2, s) := s.freshWord
    let (r3, s) := s.freshWord
    let u := s.formUnit n
    let rad := s.omegaBase n * s.formT n
    let hist := (s.gridVoltage n :: u.gHist).take (s.updatesIn n (mkRat 5 2) + 3)
    let x := s.gridExtract n hist
    let coast := !s.flag (FORM.pg n) FORM.STATUS_G_FB_OK || x.mag < mkRat 1 10
    let on := wrapPi (u.gAng + rad * u.gFreq)
    let per := 2 * piR / (rad * x.freq)
    let now := (x.ang, x.mag, x.freq)
    let ref : GridRef := match u.gRef, u.gLast.drop per.floor.toNat with
      | none, _ => ⟨s.cyc, on, u.gMag, u.gFreq, false⟩
      | some q, older =>
        if coast || u.gCoast then ⟨s.cyc, on, u.gMag, u.gFreq, false⟩
        else match older with
          | [] => q
          | o :: _ =>
            let o := gridOn rad (per.floor.toNat + 1) o
            if gridStepped o now && 4 * per < mkRat (s.since q.at_) (s.rd (FORM.pg n) FORM.RATE_PERIOD) then
              ⟨s.cyc, o.1, o.2.1, o.2.2, true⟩
            else q
    let turned := wrapPi (x.ang - rad * x.freq * mkRat (s.since ref.at_) (s.rd (FORM.pg n) FORM.RATE_PERIOD) - ref.ang)
    let behind := if ref.step then stepSeen (ref.ang, ref.mag, ref.freq) (wrapPi (ref.ang + turned), x.mag, x.freq) else 0
    let age := s.since ref.at_ + (behind * per * s.rd (FORM.pg n) FORM.RATE_PERIOD).floor.toNat
    let settled := 25000000 ≤ age
    let mag :=
      if coast then ratAbs (nearR r1 x.mag (mkRat 2 1000))
      else if settled then ratAbs (nearR r1 x.mag (settleBound age (mkRat 2 1000) (x.mag - ref.mag)))
      else ratAbs (towardR r1 u.gMag (x.mag - u.gMag))
    let ang :=
      if coast || u.gCoast then on
      else if settled then wrapPi (nearR r2 x.ang (settleBound age (mkRat 2 1000) turned))
      else wrapPi (towardR r2 on (wrapPi (x.ang - on)))
    let freq :=
      if coast || u.gCoast then u.gFreq
      else
        clampR (if settled then nearR r3 x.freq (settleBound age (mkRat 1 10000) (x.freq - ref.freq))
          else towardR r3 u.gFreq (x.freq - u.gFreq)) (mkRat 8 10) (mkRat 12 10)
    let period := 1 / (freq * (s.omegaBase n / (2 * piR)))
    let (step_, prev) : Bool × Option (Rat × Word64) := match u.gPrev with
      | none => (false, some (ang, s.cyc))
      | some (a, t) =>
        let dt : Rat := mkRat (s.since t) 250000000
        if dt < period then (false, u.gPrev)
        else (s.fR n FORM.SYNC_ANG_VALUE < ratAbs (wrapPi (ang - (a + s.omegaBase n * freq * dt))), some (ang, s.cyc))
    s.setForm n { u with
      gAng := grid ang, gMag := mag, gFreq := freq, gHist := hist, gLast := (now :: u.gLast).take (s.updatesIn n (mkRat 5 4) + 2), gRef := some ref, gCoast := coast
      gPrev := prev, angleStep := step_ }

/-- The estimator registers (R173, R190, R130). -/
def State.gridPublish (s : State) (n : Fin 2) : State :=
  let u := s.formUnit n
  if s.estRuns && s.flag (FORM.pg n) FORM.STATUS_G_FB_OK then
    let idle := s.formState n = fIDLE
    let dang := if idle then 0 else wrapPi (u.theta - u.gAng)
    let slip := if idle then 1 - u.gFreq else u.omega - u.gFreq
    ((s.fW n FORM.GRID_DANG_VALUE dang).fW n FORM.GRID_MAG_VALUE u.gMag).fW n FORM.GRID_SLIP_VALUE slip
  else s.gridZero n

/-- The conditions of R191 at this update. -/
def State.gridInWindow (s : State) (n : Fin 2) : Bool :=
  let u := s.formUnit n
  s.estRuns && s.flag (FORM.pg n) FORM.STATUS_G_FB_OK &&
  s.fR n FORM.EMIN_VALUE - s.fR n FORM.SYNC_MAG_VALUE ≤ u.gMag && u.gMag ≤ s.fR n FORM.EMAX_VALUE + s.fR n FORM.SYNC_MAG_VALUE &&
  s.fR n FORM.FMIN_VALUE ≤ u.gFreq && u.gFreq ≤ s.fR n FORM.FMAX_VALUE

/-- The run of updates in the window goes on or ends; the grid is absent from the first that fails (R191). -/
def State.gridTrack (s : State) (n : Fin 2) : State :=
  let u := s.formUnit n
  if s.gridInWindow n then s.setForm n { u with presentFrom := some (u.presentFrom.getD s.cyc) }
  else s.setForm n { u with presentFrom := none, present := false }

/-- GRID_PRESENT (R191): the window held for 40 ms. -/
def State.gridPresent (s : State) (n : Fin 2) : State :=
  let u := s.formUnit n
  if u.presentFrom.isSome then s.setForm n { u with present := true } else s

/-- The conditions of R201 other than MB_CLOSED. -/
def State.permitWindows (s : State) (n : Fin 2) : Bool :=
  let pg := FORM.pg n
  let u := s.formUnit n
  s.formState n = fSYNC && u.present && s.flag pg FORM.STATUS_I_FB_OK && s.flag pg FORM.STATUS_V_FB_OK &&
  s.flag pg FORM.STATUS_G_FB_OK && ratAbs (s.fR n FORM.GRID_DANG_VALUE) ≤ s.fR n FORM.SYNC_ANG_VALUE &&
  ratAbs (s.fR n FORM.GRID_MAG_VALUE - s.fR n FORM.VBUS_VALUE) ≤ s.fR n FORM.SYNC_MAG_VALUE &&
  ratAbs (s.fR n FORM.GRID_SLIP_VALUE) ≤ s.fR n FORM.SYNC_SLIP_VALUE

/-- The 40 ms of R201 go on or restart; a permission is withdrawn where a window fails or the angle steps (R202, R203). -/
def State.permitTrack (s : State) (n : Fin 2) : State :=
  let u := s.formUnit n
  if s.permitWindows n && !u.angleStep then
    s.setForm n { u with permitFrom := if u.mbClosed then none else some (u.permitFrom.getD s.cyc) }
  else (s.setForm n { u with permitFrom := none }).setPermit n false

/-- CLOSE_PERMIT_GRANT (R201): every condition held for 40 ms. -/
def State.permitGrant (s : State) (n : Fin 2) : State :=
  if (s.formUnit n).permitFrom.isSome && s.formState n = fSYNC && !(s.formUnit n).mbClosed then s.setPermit n true else s

/-! ### The source model (R146 to R165) -/

/-- One trapezoidal step of T·dy/dt = x − y. -/
def trapLag (h t y x0 x1 : Rat) : Rat :=
  let a := h / (2 * t)
  grid ((y * (1 - a) + a * (x0 + x1)) / (1 + a))

/-- Entry into SYNC, FORM or RAMP at the first update after the mode tick (R148, R151, R194, R211, R226 to R228); FORM from IDLE is the
entry of a member that joins a set in FORM_GRID, with the angle it was copied (R796). DESIGN CHOICE (log entry 46): where the period of
updates does not divide 1/FBASE, "the model update 1/FBASE seconds before" is the one floor(1/(FBASE · T)) updates back, and the angle
change is not scaled. Where READY has not given a whole period of angles, ω on a live bus is a free value in FMIN to FMAX; angles of an
earlier READY count. -/
def State.formEnter (s : State) (n : Fin 2) (st : Nat) : State :=
  let u := s.formUnit n
  let old := s.formState n
  let i := s.busAB n
  let v := s.capVoltage n
  let pq := fun (th : Rat) =>
    let (id, iq) := parkR i th
    let (vd, vq) := parkR v th
    (vd * id + vq * iq, vq * id - vd * iq)
  if st = fSYNC && old = fIDLE then
    let (p, q) := pq u.gAng
    s.setForm n { u with theta := wrap2Pi u.gAng, omega := u.gFreq, omegaW := u.gFreq, pe := p, qe := q, pPrev := p
                         qPrev := q, e := u.gMag, fromIsland := false, dfs := 0 }
  else if st = fRAMP && old = fIDLE then
    let v0 := magR v
    let live := mkRat 1 10 ≤ v0
    let (r, s) := s.freshWord
    let len := s.updatesIn n 1
    let hist := (angR v :: u.capAngles).take (len + 1)
    let turn := (hist.zip (hist.drop 1)).foldl (fun q x => q + wrapPi (x.1 - x.2)) 0
    let w := if hist.length = len + 1 then turn / (2 * piR) else 1 + freeUnit r
    let w := clampR w (s.fR n FORM.FMIN_VALUE) (s.fR n FORM.FMAX_VALUE)
    let th := if live then wrap2Pi (angR v) else 0
    let om := if live then w else s.fR n FORM.FSET_VALUE
    let (p, q) := pq th
    s.setForm n { u with theta := th, omega := om, omegaW := om, pe := p, qe := q, pPrev := p, qPrev := q, pNow := p
                         qNow := q, fNow := om, vNow := v0, ramping := live, dfs := 0 }
  else if st = fFORM && old = fIDLE then
    let (p, q) := pq u.theta
    s.setForm n { u with omegaW := u.omega, pe := p, qe := q, pPrev := p, qPrev := q }
  else if st = fSYNC then
    s.setForm n { u with fromIsland := true, dfs := 0 }
  else if st = fFORM && old = fSYNC then
    if u.fromIsland then s.setForm n { u with fNow := u.fNow + u.dfs, dfs := 0 }
    else s.setForm n { u with omegaW := u.omega, pNow := u.pe, qNow := u.qe, vNow := u.e, fNow := u.omega }
  else s

/-- Steps 3 to 9 of R148 in SYNC, FORM or RAMP: the new unit, and whether ω, E and the angle are at their limits. -/
structure ModelOut where
  u : FormUnit
  delta : Rat := 0
  freqClamp : Bool := false
  eClamp : Bool := false
  angleHit : Bool := false

/-- The angle of the unit in SYNC entered from READY follows the estimator (R195). -/
def State.followsGrid (s : State) (n : Fin 2) (st : Nat) : Bool := st = fSYNC && !(s.formUnit n).fromIsland

/-- Steps 3 to 9 of R148. DESIGN CHOICE (log entry 46): at the first update in RAMP step 4 already moves the set points one step from the
entry values of R228; and at the update at which R185 changes the δ reference point, the rate of change in R162 is that from the
other point's angle at the update before to the new point's angle. -/
def State.formModel (s : State) (n : Fin 2) (st : Nat) : ModelOut :=
  let u := s.formUnit n
  let h := s.formT n
  let wb := s.omegaBase n
  let (id, iq) := parkR (s.busAB n) u.theta
  let (vd, vq) := parkR (s.capVoltage n) u.theta
  let p := grid (vd * id + vq * iq)
  let q := grid (vq * id - vd * iq)
  let pe := trapLag h (s.fR n FORM.TP_VALUE) u.pe u.pPrev p
  let qe := trapLag h (s.fR n FORM.TQ_VALUE) u.qe u.qPrev q
  let follow := s.followsGrid n st
  -- step 4: set points
  let d := s.fR n FORM.SPRATE_VALUE * h
  let ramping := u.ramping || s.flag (FORM.pg n) FORM.CTRL_DEADBUS_EN
  let dv := if st = fRAMP then (if ramping then s.fR n FORM.BS_RATE_VALUE * h else 0) else d
  let pNow := rampR u.pNow (s.fR n FORM.PREF_VALUE) d
  let qNow := rampR u.qNow (s.fR n FORM.QREF_VALUE) d
  let vNow := rampR u.vNow (s.fR n FORM.VSET_VALUE) dv
  let fNow := rampR u.fNow (s.fR n FORM.FSET_VALUE) d
  -- step 5: ω, ω_w and θ by the trapezoidal rule
  let hh := s.fR n FORM.H_VALUE
  let dd := s.fR n FORM.DAMP_VALUE
  let mp := s.fR n FORM.MP_VALUE
  let f0 := (u.pNow - u.pe - (u.omega - (u.fNow + u.dfs)) / mp - dd * (u.omega - u.omegaW)) / (2 * hh)
  let b := h / (2 * s.fR n FORM.TDAMP_VALUE)
  let c1 := b / (1 + b)
  let c0 := (u.omegaW * (1 - b) + b * u.omega) / (1 + b)
  let g := h / (4 * hh)
  let a := pNow - pe + (fNow + u.dfs) / mp
  let w1 := grid ((u.omega + h / 2 * f0 + g * (a + dd * c0)) / (1 + g * (1 / mp + dd - dd * c1)))
  let lo := s.fR n FORM.FMIN_VALUE
  let hi := s.fR n FORM.FMAX_VALUE
  let w := clampR w1 lo hi
  let th := wrap2Pi (u.theta + wb * (h / 2) * (u.omega + w))
  let ww := grid (c0 + c1 * w)
  -- SYNC from READY: the estimator, or coasting while the grid is absent (R195, R196)
  let th := if follow then (if u.present then wrap2Pi u.gAng else wrap2Pi (u.theta + wb * u.omega * h)) else th
  let w := if follow then clampR (if u.present then u.gFreq else u.omega) lo hi else w
  let ww := if follow then w else ww
  -- step 6: the angle limit
  let vr := s.deltaVoltage n
  let low := magR vr < mkRat 1 10
  let av := angR vr
  let delta := if low then 0 else wrapPi (th - av)
  let dmax := s.fR n FORM.DMAX_VALUE
  let hit := !follow && !low && dmax < ratAbs delta
  let excess := if delta < 0 then delta + dmax else delta - dmax
  let th := if hit then wrap2Pi (th - excess) else th
  let wm := wrapPi (av - u.angPrev) / (wb * h)
  let w := if hit then clampR wm lo hi else w
  let ww := if hit then wm else ww
  let delta := if hit then delta - excess else delta
  -- step 7: E
  let e0 := vNow - s.fR n FORM.MQ_VALUE * (qe - qNow)
  let emax := s.fR n FORM.EMAX_VALUE
  let emin := s.fR n FORM.EMIN_VALUE
  let e0 := if follow then (if u.present then u.gMag else u.e) else e0
  let e1 := if st = fRAMP then ratMin e0 emax else clampR e0 emin emax
  let e := grid e1
  let eClamp := emax ≤ e1 || (st ≠ fRAMP && e1 ≤ emin)
  -- step 8: the current-limiting impedance
  let i1 := sqrtR (id * id + iq * iq)
  let im := trapLag h (mkRat 2 10000) u.imag u.iPrev i1
  let excess := ratMax 0 (im - s.fR n FORM.ION_VALUE * s.fR n FORM.ILIM_VALUE)
  let xr := s.fR n FORM.XRCL_VALUE
  let rc := s.fR n FORM.KCL_EFF_VALUE * excess / sqrtR (1 + xr * xr)
  let xc := rc * xr
  -- step 9: the reference
  let rr := s.fR n FORM.RV_VALUE + rc
  let xx := w * (s.fR n FORM.XV_VALUE + xc)
  let vds := e - rr * id + xx * iq
  let vqs := -(rr * iq) - xx * id
  { u := { u with
      theta := grid th, omega := grid w, omegaW := grid ww, pe := pe, qe := qe, e := e, pPrev := p, qPrev := q, iPrev := i1
      imag := im, rc := grid rc, xc := grid xc, vd := grid vds, vq := grid vqs, angPrev := av, ramping := ramping
      pNow := if follow then pe else pNow, qNow := if follow then qe else qNow
      vNow := if follow then e else vNow, fNow := if follow then w else fNow }
    delta := delta, freqClamp := w ≤ lo || hi ≤ w, eClamp := eClamp, angleHit := hit }

/-- A state variable has no finite binary32 image (R165). -/
def FormUnit.overflow (u : FormUnit) : Bool :=
  [u.theta, u.omega, u.omegaW, u.pe, u.qe, u.e, u.imag, u.rc, u.xc, u.vd, u.vq, u.pNow, u.qNow, u.vNow, u.fNow].any
    fun q => pow2 128 ≤ ratAbs q

/-! ### Harmonic slots (R167 to R171) -/

/-- The decaying correction of a slot, at CYC `now` (R171: 10 ms). -/
def HarmSlot.fade (x : HarmSlot) (now : Word64) : Rat × Rat :=
  match x.fadeFrom with
  | none => (0, 0)
  | some t =>
    let k := ratMax 0 (1 - mkRat (now - t).toNat 2500000)
    (x.fre * k, x.fim * k)

/-- The correction of a slot before the limit of R170. -/
def HarmSlot.corr (x : HarmSlot) (now : Word64) : Rat × Rat := if x.live then (x.cre, x.cim) else x.fade now

/-- The bus current in the frame of a slot of sequence `seq` at angle `ph` = h·θ (R168): turned back for the positive sequence, forward
for the negative one; of the zero sequence the component i_0 against a quadrature pair. -/
def slotFrame (seq : Nat) (ph : Rat) (i : Rat × Rat) (i0 : Rat) : Rat × Rat :=
  if seq = 2 then (2 * i0 * cosR ph, -(2 * i0 * sinR ph)) else parkR i (if seq = 1 then -ph else ph)

/-- Bandwidth of a slot's band-pass in Hz (R178). -/
def slotBw (code : Nat) : Rat := 5 * 2 ^ code

/-- Slot `k` at an update (R167 to R169, R171). A band-pass of bandwidth BW about the order is a low-pass of BW/2 in the slot's frame;
DESIGN CHOICE (log entry 23): the spec gives no order of that filter, the model takes the first. Of a slot that is not active HIMAG and
HREFF keep their last values, and a slot made active again while its old correction still decays starts from zero, the decaying one
dropped (DESIGN CHOICE, log entry 46). -/
def State.harmSlot (s : State) (n : Fin 2) (k : Fin 24) (st : Nat) : State :=
  let pg := FORM.pg n
  let u := s.formUnit n
  let x := u.slots[k]
  let active := s.flag pg FORM.CTRL_HARM_EN && s.flag pg FORM.HSLOT_CFG_EN k && (st = fFORM || st = fRAMP)
  let h := s.rd pg FORM.HSLOT_CFG_ORDER k
  let seq := s.rd pg FORM.HSLOT_CFG_SEQ k
  if active then
    let i := slotFrame seq (h * u.theta) (s.busAB n) ((s.busCurrent n 0 + s.busCurrent n 1 + s.busCurrent n 2) / 3)
    let lag := 1 / (piR * slotBw (s.rd pg FORM.HSLOT_CFG_BW k))
    let ire := trapLag (s.formT n) lag (if x.live then x.ire else 0) i.1 i.1
    let iim := trapLag (s.formT n) lag (if x.live then x.iim else 0) i.2 i.2
    let im := magR (ire, iim)
    let rh := s.fR n FORM.HSLOT_HR_VALUE k + s.fR n FORM.HSLOT_HDROOP_VALUE k * ratMax 0 (im - s.fR n FORM.HSLOT_HBUDGET_VALUE k)
    let a := rh - s.fR n FORM.RV_VALUE
    let b := (h : Rat) * u.omega * (s.fR n FORM.HSLOT_HXS_VALUE k - 1) * s.fR n FORM.XV_VALUE
    let cre := -(a * ire - b * iim)
    let cim := -(a * iim + b * ire)
    let m := magR (cre, cim)
    let sc := if mkRat 1 10 < m then mkRat 1 10 / m else 1
    let s := (s.fW n FORM.HSLOT_HIMAG_VALUE im k).fW n FORM.HSLOT_HREFF_VALUE rh k
    let s := if sc = 1 then s else (s.wr pg FORM.STATUS_SLOT_CLAMP 0 1).irq pg 7
    s.setForm n { u with slots := u.slots.set k ({ x with
      live := true, ire := ire, iim := iim, cre := grid (cre * sc), cim := grid (cim * sc), fadeFrom := none
      forder := h, fseq := seq }) }
  else if x.live then
    s.setForm n { u with slots := u.slots.set k ({
      fadeFrom := some s.cyc, fre := x.cre, fim := x.cim, forder := x.forder, fseq := x.fseq }) }
  else s

/-- Every slot, then the limit of their sum, which scales every correction that is delivered, a decaying one too (R170). -/
def State.harmSlots (s : State) (n : Fin 2) (st : Nat) : State :=
  let s := s.wr (FORM.pg n) FORM.STATUS_SLOT_CLAMP 0 0
  let s := (List.finRange 24).foldl (fun s (k : Fin 24) => s.harmSlot n k st) s
  let u := s.formUnit n
  let sum := u.slots.toList.foldl (fun q x => q + magR (x.corr s.cyc)) 0
  if mkRat 1 4 < sum then
    ((s.setForm n { u with hscale := mkRat 1 4 / sum }).wr (FORM.pg n) FORM.STATUS_SLOT_CLAMP 0 1).irq (FORM.pg n) 7
  else s.setForm n { u with hscale := 1 }

/-- SLOT_DECAY_END (R171). -/
def State.slotDecayEnd (s : State) (n : Fin 2) (k : Fin 24) : State :=
  let u := s.formUnit n
  if (u.slots[k]).live then s
  else s.setForm n { u with slots := u.slots.set k {} }

/-! ### Outputs (R138 to R145) -/

/-- Flags of word 7. -/
def State.formFlags (s : State) (n : Nat) : Nat :=
  let f := fun x => bit01 (s.flag (FORM.pg n) x)
  f FORM.STATUS_CUR_LIMIT + 2 * f FORM.STATUS_ANGLE_LIMIT + 4 * f FORM.STATUS_FREQ_CLAMP + 8 * f FORM.STATUS_E_CLAMP +
    16 * s.formState n

/-- The unit writes to Form slots (R144). -/
def State.formWrites (s : State) (n : Nat) : Bool := s.formState n = fSYNC || s.formState n = fFORM || s.formState n = fRAMP

/-- Words 3 to 7 to every engine named by an enabled entry (R143). -/
def State.formWords (s : State) (n : Fin 2) : State :=
  if !s.formWrites n then s
  else
    let u := s.formUnit n
    let ws : List Word := [f32 u.theta, f32 u.omega, f32 u.e, f32 (s.fR n FORM.ILIM_VALUE / (s.bridges n : Rat)),
      BitVec.ofNat 32 (s.formFlags n)]
    (List.range 4).foldl (fun s b =>
      if s.flag (FORM.pg n) FORM.BMAP_EN b then
        ws.zipIdx.foldl (fun s x => s.formWord (Fin.ofNat 16 (s.rd (FORM.pg n) FORM.BMAP_LE b)) (3 + x.2) x.1) s
      else s) s

/-- The three phase references at angle θ_e: fundamental and slot corrections (R140, R169). -/
def State.formRefs (s : State) (n : Fin 2) (the : Rat) : List Rat :=
  let u := s.formUnit n
  let c := cosR the
  let sn := sinR the
  let base := (u.vd * c - u.vq * sn, u.vd * sn + u.vq * c)
  let add := (List.finRange 24).foldl (fun (acc : (Rat × Rat) × Rat) (k : Fin 24) =>
    let x := u.slots[k]
    let (re, im) := x.corr s.cyc
    if re = 0 ∧ im = 0 then acc
    else
      let re := re * u.hscale
      let im := im * u.hscale
      let h : Rat := x.forder
      let seq := x.fseq
      let ph := if seq = 1 then -(h * the) else h * the
      let a := re * cosR ph - im * sinR ph
      let b := re * sinR ph + im * cosR ph
      if seq = 2 then (acc.1, acc.2 + a) else ((acc.1.1 + a, acc.1.2 + b), acc.2)) (base, 0)
  [0, 2 * piR / 3, 4 * piR / 3].map fun phi => add.1.1 * cosR phi + add.1.2 * sinR phi + add.2

/-- FORM_REF_DELIVERY at the event of PWM unit `w` at instant `t`, in steps of 31.25 ps on CYC's time (R138 to R142); `mid`: a mid-period
point. -/
def State.formDeliver (s : State) (w : Nat) (t : Int) (mid : Bool) : State :=
  (List.finRange 2).foldl (fun s (n : Fin 2) =>
    if !s.formWrites n then s
    else (List.range 4).foldl (fun s b =>
      let evt := s.rd (FORM.pg n) FORM.BMAP_EVT b
      if s.flag (FORM.pg n) FORM.BMAP_EN b && s.rd (FORM.pg n) FORM.BMAP_PWM b = w && (evt = 2 || evt = bit01 mid) then
        let u := s.formUnit n
        let dt : Rat := mkRat (t - 128 * (u.tu.toNat : Int) + 128 * (s.rd (FORM.pg n) FORM.LEAD_TICKS : Int)) 32000000000
        let refs := s.formRefs n (wrap2Pi (u.theta + s.omegaBase n * u.omega * dt))
        refs.zipIdx.foldl (fun s x => s.formWord (Fin.ofNat 16 (s.rd (FORM.pg n) FORM.BMAP_LE b)) x.2 (f32 x.1)) s
      else s) s) s

/-! ### The update (R148) -/

/-- The registers of R173 and R177 that show the model; in IDLE those of R173 read 0. -/
def State.formPublish (s : State) (n : Fin 2) (delta : Rat) : State :=
  let u := s.formUnit n
  let idle := s.formState n = fIDLE
  let z := fun (q : Rat) => if idle then 0 else q
  let s := (s.fW n FORM.THETA_VALUE (z u.theta)).fW n FORM.OMEGA_VALUE (z u.omega)
  let s := (s.fW n FORM.EMAG_VALUE (z u.e)).fW n FORM.PMEAS_VALUE (z u.pe)
  let s := (s.fW n FORM.QMEAS_VALUE (z u.qe)).fW n FORM.DELTA_VALUE (z delta)
  let s := s.fW n FORM.IMAG_VALUE (z u.imag)
  let s := (s.fW n FORM.PREF_NOW_VALUE u.pNow).fW n FORM.QREF_NOW_VALUE u.qNow
  (s.fW n FORM.VSET_NOW_VALUE u.vNow).fW n FORM.FSET_NOW_VALUE u.fNow

/-- The Form strobe (R135): the recorder's slots and sample events. -/
def State.formStrobe (s : State) (n : Fin 2) : State :=
  let items := [FORM.THETA_VALUE, FORM.OMEGA_VALUE, FORM.EMAG_VALUE, FORM.PMEAS_VALUE, FORM.QMEAS_VALUE, FORM.VBUS_VALUE,
    FORM.DELTA_VALUE, FORM.IMAG_VALUE, FORM.GRID_DANG_VALUE, FORM.GRID_MAG_VALUE, FORM.GRID_SLIP_VALUE]
  let s := items.zipIdx.foldl (fun s x => s.sigUpdate 4 (n * 16 + x.2) (BitVec.ofNat 32 (s.rd (FORM.pg n) x.1))) s
  (s.sampleEvent 5 n).leEmit 6 n

/-- The status flags of an update in SYNC, FORM or RAMP, with their entry counts and interrupts (R149, R150, R160, R163). -/
def State.formStatus (s : State) (n : Fin 2) (o : ModelOut) : State :=
  let pg := FORM.pg n
  let cl := o.u.rc ≠ 0 || o.u.xc ≠ 0
  let wasCl := s.flag pg FORM.STATUS_CUR_LIMIT
  let s := s.setFlag pg FORM.STATUS_CUR_LIMIT 0 cl
  let s := if cl && !wasCl then (s.bump pg FORM.CL_COUNT_COUNT).irq pg 1 else s
  let wasAl := s.flag pg FORM.STATUS_ANGLE_LIMIT
  let al := o.angleHit || (wasAl && s.fR n FORM.DMAX_VALUE * mkRat 9 10 ≤ ratAbs o.delta)
  let al := al && !s.followsGrid n (s.formState n)
  let s := s.setFlag pg FORM.STATUS_ANGLE_LIMIT 0 al
  let s := if al && !wasAl then
      (s.bump pg FORM.ALIM_COUNT_COUNT).irq pg 2 else s
  let wasFc := s.flag pg FORM.STATUS_FREQ_CLAMP
  let s := (s.setFlag pg FORM.STATUS_FREQ_CLAMP 0 o.freqClamp).irqIf (o.freqClamp && !wasFc) pg 3
  s.setFlag pg FORM.STATUS_E_CLAMP 0 o.eClamp

/-- Δf_s in SYNC entered from FORM_ISLAND, while the grid is present (R198, R199). -/
def State.formSlip (s : State) (n : Fin 2) : State :=
  let u := s.formUnit n
  if s.formState n = fSYNC && u.fromIsland && u.present then
    let lim := s.fR n FORM.SYNC_SLIP_VALUE / 2
    let cmd := clampR (-(s.fR n FORM.GRID_DANG_VALUE) / (s.omegaBase n / 2)) (-lim) lim
    let d := u.dfs + s.formT n * 2 * (cmd - s.fR n FORM.GRID_SLIP_VALUE)
    s.setForm n { u with dfs := grid (clampR d (mkRat (-2) 100) (mkRat 2 100)) }
  else s

/-- A unit in RAMP whose VSET_NOW reached VSET enters FORM (R230). -/
def State.rampEnd (s : State) (n : Fin 2) : State :=
  if s.formState n = fRAMP && (s.formUnit n).vNow = s.fR n FORM.VSET_VALUE && (s.formUnit n).ramping then s.setFormState n fFORM else s

/-- The gates open at the first update after an entry from READY (R192). -/
def State.openGate (s : State) (n : Fin 2) (st : Nat) : State :=
  if st = fSYNC || st = fRAMP then s.setForm n { s.formUnit n with gate := true } else s

/-- The transition is settled once no unit in use waits for its first update (R193). -/
def State.settle (s : State) : State :=
  if s.modes.settling && (List.finRange 2).all fun (n : Fin 2) => (s.formUnit n).target.isNone then
    { s.wr SYS.pg SYS.STATUS_TRANS_BUSY 0 0 with modes := { s.modes with settling := false } }
  else s

/-- The state of this update: the unit enters what the mode asks for (R172, R210, R226). -/
def State.formArrive (s : State) (n : Fin 2) : State :=
  match (s.formUnit n).target with
  | none => s
  | some t =>
    let s := s.setForm n { s.formUnit n with target := none }
    if s.formState n = fFAULT || s.formState n = t then s
    else if t = fIDLE then s.setFormState n fIDLE
    else ((s.formEnter n t).setFormState n t).openGate n t

/-- The instant of the next update of unit `n` is reached (R132, R134). -/
def State.formDue (s : State) (n : Fin 2) : Bool :=
  match (s.formUnit n).next with
  | some t => s.formRuns n && (s.cyc - t).toNat < 2 ^ 63
  | none => false

/-- δ while the unit holds its angle in FAULT (R161, R186): DEDUCED, R166 holds θ, ω and E alone. -/
def State.heldDelta (s : State) (n : Fin 2) : Rat :=
  let v := s.deltaVoltage n
  if magR v < mkRat 1 10 then 0 else wrapPi ((s.formUnit n).theta - angR v)

/-- FORM_UPDATE. An update before its instant does not come about; the one after it follows PERIOD ticks later (R134). DESIGN CHOICE (log
entry 46), where the spec does not say: the estimator and the presence of the grid stand behind the commit and before the entry actions
(R148 does not list them); the advance of Δf_s (R198) is made after publishing, so it acts from the next update; E of the update that
ends a ramp follows RAMP's bound of R231, though the state it publishes is FORM (R230); in FAULT ANGLE_LIMIT stays as the fault left it
(R163, R166). -/
def State.formUpdate (s : State) (n : Fin 2) : State :=
  if !s.formDue n then s
  else
    let pg := FORM.pg n
    let at_ := ((s.formUnit n).next).getD s.cyc
    let s := s.setForm n { s.formUnit n with next := some (at_ + BitVec.ofNat 64 (s.rd pg FORM.RATE_PERIOD)) }
    let s := (s.formSample n).formApply n
    let s := (s.formCheckInputs n).estimate n
    let s := s.gridTrack n
    let s := s.formArrive n
    let s := s.formCheckInputs n
    let st := s.formState n
    let v := s.deltaVoltage n
    let s :=
      if st = fSYNC || st = fFORM || st = fRAMP then
        let o := s.formModel n st
        if o.u.overflow then s.formFault n 0x04
        else
          let s := (s.setForm n { o.u with tu := at_ }).formStatus n o
          let s := s.harmSlots n st
          (s.rampEnd n).formPublish n o.delta
      else (s.wr pg FORM.STATUS_SLOT_CLAMP 0 0).formPublish n (s.heldDelta n)
    let s := s.fW n FORM.VBUS_VALUE (magR v)
    let u := s.formUnit n
    let len := s.updatesIn n 1
    let s := s.setForm n { u with capAngles := (angR (s.capVoltage n) :: u.capAngles).take len, angPrev := angR v }
    let s := s.gridPublish n
    let s := (s.permitTrack n).formSlip n
    let s := s.wrapBump pg FORM.UPD_COUNT_COUNT
    ((s.formWords n).formStrobe n).settle

/-- FORM_INPUT_LOST (R127): input `k` has not advanced for STALE_LIM updates, or its channel marked it invalid. -/
def State.formInputLost (s : State) (n : Fin 2) (k : Fin 18) : State :=
  let u := s.formUnit n
  let x := u.inputs[k]
  if s.flag (FORM.pg n) FORM.INROUTE_EN k && (!x.valid || s.rd (FORM.pg n) FORM.STALE_LIM_LIMIT ≤ x.stale) then
    (s.setForm n { u with inputs := u.inputs.set k { x with lost := true } }).formCheckInputs n
  else s

/-- ANGLE_LIMIT_TIMEOUT (R164). -/
def State.angleTimeout (s : State) (n : Fin 2) : State :=
  let st := s.formState n
  if s.flag (FORM.pg n) FORM.STATUS_ANGLE_LIMIT && (st = fSYNC || st = fFORM || st = fRAMP) then s.formFault n 0x03 else s

/-! ### Mode changes (R172, R192, R193, R197, R237) -/

/-- Entry to IDLE at once: gates off, flags and FAULT_CAUSE cleared (R175, R237). DESIGN CHOICE (log entry 46): the NOW ramps hold in IDLE and
read their last values (R152 does not say), and |i|_f starts from 0 at the next entry (R156 does not say). -/
def State.formIdle (s : State) (n : Fin 2) : State :=
  let pg := FORM.pg n
  let u := s.formUnit n
  let s := s.setForm n { inputs := u.inputs, capAngles := u.capAngles, gAng := u.gAng, gMag := u.gMag, gFreq := u.gFreq
                         gPrev := u.gPrev, presentFrom := u.presentFrom, present := u.present, mbClosed := u.mbClosed
                         gridLost := u.gridLost, angPrev := u.angPrev, pNow := u.pNow, qNow := u.qNow, vNow := u.vNow
                         fNow := u.fNow, next := u.next, gHist := u.gHist, gLast := u.gLast, gRef := u.gRef
                         gCoast := u.gCoast }
  let s := s.setFormState n fIDLE
  let s := (s.wr pg FORM.STATUS_FAULT_CAUSE 0 0).wr pg FORM.STATUS_CUR_LIMIT 0 0
  let s := (s.wr pg FORM.STATUS_ANGLE_LIMIT 0 0).wr pg FORM.STATUS_FREQ_CLAMP 0 0
  let s := (s.wr pg FORM.STATUS_E_CLAMP 0 0).wr pg FORM.STATUS_SLOT_CLAMP 0 0
  (s.formPublish n 0).formSources

/-- The first update of a sequence that starts now (R134): at the next multiple of PERIOD in CYC, or, where SYNC_EN is 1, not before a
boundary of RATE.SYNC_PWM. -/
def State.formFirst (s : State) (n : Fin 2) : Option Word64 :=
  let per := s.rd (FORM.pg n) FORM.RATE_PERIOD
  if s.flag (FORM.pg n) FORM.RATE_SYNC_EN then none else some (BitVec.ofNat 64 ((s.cyc.toNat / per + 1) * per))

/-- A boundary of PWM unit `w` is the first update of each unit whose sequence waits for it (R134). DESIGN CHOICE (log entry 46): updates
are counted in CYC (R132), so a boundary between two ticks starts the sequence at the tick in progress. -/
def State.formSyncPwm (s : State) (w : Nat) : State :=
  (List.finRange 2).foldl (fun s (n : Fin 2) =>
    if s.formRuns n && (s.formUnit n).next.isNone && s.flag (FORM.pg n) FORM.RATE_SYNC_EN &&
        s.rd (FORM.pg n) FORM.RATE_SYNC_PWM = w then
      s.setForm n { s.formUnit n with next := some s.cyc }
    else s) s

/-- Unit `n` at the mode tick that changed the mode from `old`. -/
def State.formModeUnit (s : State) (old : Nat) (n : Fin 2) : State :=
  if !s.formInUse n then s
  else
    let s := if s.estRuns then s else s.gridZero n
    let s := s.setForm n { s.formUnit n with
      next := if !s.formRuns n then none else if old = mBOOT || old = mCONFIG then s.formFirst n else (s.formUnit n).next }
    let m := s.mode
    let want := if m = mSYNC then fSYNC else if m = mGRID then fFORM else if m = mISLAND then
        (if old = mREADY then fRAMP else fFORM) else fIDLE
    let s := if want = fIDLE then s.formIdle n else s
    let s := if s.formRuns n then s else s.formApply n
    let u := s.formUnit n
    let wait := (old = mSYNC || old = mGRID || old = mISLAND || s.forming) && s.formRuns n
    s.setForm n { u with target := if wait then some want else none
                         syncFrom := if m = mSYNC then s.cyc else u.syncFrom
                         presentFrom := if s.estRuns then u.presentFrom else none
                         present := s.estRuns && u.present, permitFrom := none }

def State.formModes (s : State) (old : Nat) : State := (List.finRange 2).foldl (fun s (n : Fin 2) => s.formModeUnit old n) s

end Sys2Proof.Machine
end

