-- ==== Sys2Proof/Machine/Sar.lean ====
section
/-!
DEFINITION. Machine/Sar.lean: the SAR converters and the delta-sigma filter banks (08 R419 to R477).
-/
namespace Sys2Proof.Machine

/-! ### SAR units -/

/-- The busy flags follow the unit (R441). -/
def State.sarStatus (s : State) (u : Fin 6) : State :=
  let x := s.sarUnit u
  (s.setFlag (SAR.pg u) SAR.STATUS_REG_BUSY 0 x.reg.isSome).setFlag (SAR.pg u) SAR.STATUS_INJ_BUSY 0 x.inj.isSome

/-- Fusebox source of comparator `w` of unit `u` (R437), and its status bit. -/
def State.setWin (s : State) (u : Nat) (w : Fin 2) (b : Bool) : State :=
  let f := if w = 0 then SAR.STATUS_WIN0_ACTIVE else SAR.STATUS_WIN1_ACTIVE
  let old := s.flag (SAR.pg u) f
  let s := s.setFlag (SAR.pg u) f 0 b
  (s.setSource (40 + 2 * u + w.val) b).irqIf (b && !old) (SAR.pg u) 3

/-- A set that takes effect: a disabled comparator's source is inactive (R438); a set that makes REGTRIG.KIND 5 starts the continuous
sequence, in its turn (R426). -/
def State.sarBoundary (s : State) (u : Fin 6) : State :=
  let pg := SAR.pg u
  if s.commitPending pg then
    let kind := s.committed.get (SAR.REGTRIG_KIND.key pg 0) ≠ 0
    let s := s.boundary pg
    let s := (List.finRange 2).foldl (fun s (w : Fin 2) => if s.flag pg SAR.WIN_CFG_EN w then s else s.setWin u w false) s
    if kind && s.rd pg SAR.REGTRIG_KIND = 5 && s.sarAccepts u then s.wr pg SAR.STATUS_REG_PENDING 0 1 else s
  else s

/-- A conversion starts: the boundary of the page (R443). -/
def State.sarFly (s : State) (u : Fin 6) (f : SarFlight) : State :=
  let s := if f = .none then s else s.sarBoundary u
  (s.setSar u { s.sarUnit u with flight := f, begun := if f = .none then none else some s.cyc }).sarStatus u

/-- The regular sequence starts. -/
def State.sarStartReg (s : State) (u : Fin 6) : State :=
  (s.setSar u { s.sarUnit u with reg := some (0, 0, 0) }).sarFly u .regular

/-- The injected sequence starts. -/
def State.sarStartInj (s : State) (u : Fin 6) : State :=
  (s.setSar u { s.sarUnit u with inj := some 0, injWait := false }).sarFly u .injected

/-- A regular trigger (R427, R477). -/
def State.sarRegTrigger (s : State) (u : Fin 6) : State :=
  let x := s.sarUnit u
  let pg := SAR.pg u
  if !s.sarAccepts u then s
  else if x.reg.isSome || x.inj.isSome then
    if s.flag pg SAR.STATUS_REG_PENDING then (s.bump pg SAR.MISSED_REG).irq pg 2 else s.wr pg SAR.STATUS_REG_PENDING 0 1
  else s.sarStartReg u

/-- A regular sequence that was triggered in this very tick stays pending behind the injected one (R477). -/
def State.sarYield (s : State) (u : Fin 6) : State :=
  if (s.sarUnit u).reg = some (0, 0, 0) && !s.flag (SAR.pg u) SAR.STATUS_REG_PENDING then
    (s.setSar u { s.sarUnit u with reg := none }).wr (SAR.pg u) SAR.STATUS_REG_PENDING 0 1
  else s

/-- An injected trigger (R432 to R434). One that comes in the tick at which the regular conversion begins lies between two conversions:
nothing is aborted (R434, R477). -/
def State.sarInjTrigger (s : State) (u : Fin 6) : State :=
  let x := s.sarUnit u
  let pg := SAR.pg u
  if !s.sarAccepts u then s
  else if x.inj.isSome || x.injWait then (s.bump pg SAR.MISSED_INJ).irq pg 2
  else if x.flight = .regular then
    if x.begun = some s.cyc then (s.sarYield u).sarStartInj u
    else if s.flag pg SAR.INJTRIG_URGENT then (s.bump pg SAR.ABORT_COUNT_COUNT).sarStartInj u
    else s.setSar u { x with injWait := true }
  else s.sarStartInj u

/-- SAR_REGULAR_TRIGGER: an event of the source that REGTRIG selects reaches the unit (R424). -/
def State.sarRegEvent (s : State) (u : Fin 6) : State :=
  let x := s.sarUnit u
  if x.owedReg = 0 then s else (s.setSar u { x with owedReg := x.owedReg - 1 }).sarRegTrigger u

/-- SAR_INJECTED_TRIGGER: an event of the source that INJTRIG selects reaches the unit (R424). -/
def State.sarInjEvent (s : State) (u : Fin 6) : State :=
  let x := s.sarUnit u
  if x.owedInj = 0 then s else (s.setSar u { x with owedInj := x.owedInj - 1 }).sarInjTrigger u

/-- One evaluation of comparator `w` with a raw code (R437, R438). -/
def State.winEval (s : State) (u : Fin 6) (w : Fin 2) (code : Nat) : State :=
  let pg := SAR.pg u
  let x := s.sarUnit u
  let isOut := code < s.rd pg SAR.WIN_LIM_LO w || s.rd pg SAR.WIN_LIM_HI w < code
  let need := s.rd pg SAR.WIN_CFG_COUNT w + 1
  let o := if isOut then x.out[w] + 1 else 0
  let i := if isOut then 0 else x.inn[w] + 1
  let s := s.setSar u { x with out := x.out.set w o, inn := x.inn.set w i }
  if need ≤ o then s.setWin u w true else if need ≤ i then s.setWin u w false else s

/-- The comparators that watch slot `slot` of a sequence. -/
def State.winEvals (s : State) (u : Fin 6) (injected : Bool) (slot code : Nat) : State :=
  (List.finRange 2).foldl (fun s (w : Fin 2) =>
    if s.flag (SAR.pg u) SAR.WIN_CFG_EN w && s.flag (SAR.pg u) SAR.WIN_CFG_SEQ w = injected &&
        s.rd (SAR.pg u) SAR.WIN_CFG_SLOT w = slot then s.winEval u w code else s) s

/-- The result of a slot: the 12-bit code, or round(S × 16 / N) with ties upward (R429). -/
def sarAverage (avg sum : Nat) : Nat := if avg = 0 then sum else (sum * 16 + 2 ^ avg / 2) / 2 ^ avg

/-- The regular sequence is complete: one completion event (R430, R475). -/
def State.sarRegDone (s : State) (u : Fin 6) : State :=
  let pg := SAR.pg u
  let res := (s.sarUnit u).regRes
  let s := (List.range (s.rd pg SAR.REGSEQ_LAST + 1)).foldl (fun s i =>
    let v := (res.toList.getD i 0).toNat
    let w := BitVec.ofNat 32 v
    let s := s.wr pg SAR.REGRES_VALUE i v
    (s.routeResult 2 (u * 16 + i) w).sigUpdate 2 (u * 16 + i) w) s
  let s := (s.wrapBump pg SAR.REG_COUNT_COUNT).irq pg 0
  ((s.setSar u { s.sarUnit u with reg := none }).sampleEvent 3 u).leEmit 2 u

/-- The injected sequence is complete (R435). -/
def State.sarInjDone (s : State) (u : Fin 6) : State :=
  let pg := SAR.pg u
  let res := (s.sarUnit u).injRes
  let s := (List.range (s.rd pg SAR.INJSEQ_LAST + 1)).foldl (fun s i =>
    let v := (res.toList.getD i 0).toNat
    let w := BitVec.ofNat 32 v
    let s := s.wr pg SAR.INJRES_VALUE i v
    (s.routeResult 3 (u * 4 + i) w).sigUpdate 3 (u * 4 + i) w) s
  ((s.irq pg 1).setSar u { s.sarUnit u with inj := none }).leEmit 3 u

/-- A unit without a conversion in flight takes a set (R443) and starts the regular sequence that is pending. -/
def State.sarIdle (s : State) (u : Fin 6) : State :=
  let s := s.sarBoundary u
  if s.flag (SAR.pg u) SAR.STATUS_REG_PENDING then (s.wr (SAR.pg u) SAR.STATUS_REG_PENDING 0 0).sarStartReg u else s.sarFly u .none

/-- What the unit converts next: an injected sequence that waits, the regular sequence, one that waits. -/
def State.sarNext (s : State) (u : Fin 6) : State :=
  let x := s.sarUnit u
  if x.injWait then s.sarStartInj u
  else if x.inj.isSome then s.sarFly u .injected
  else if x.reg.isSome then s.sarFly u .regular
  else s.sarIdle u

/-- SAR_CONVERSION_COMPLETE with the raw code (R420, R428 to R438). -/
def State.sarComplete (s : State) (u : Fin 6) (code : BitVec 12) : State :=
  let x := s.sarUnit u
  let pg := SAR.pg u
  match x.flight with
  | .none => s
  | .regular =>
    match x.reg with
    | none => s
    | some (slot, done, sum) =>
      let s := s.winEvals u false slot code.toNat
      let x := s.sarUnit u
      let avg := s.rd pg SAR.REGSLOT_AVG slot
      let sum := sum + code.toNat
      if done + 1 < 2 ^ avg then (s.setSar u { x with reg := some (slot, done + 1, sum) }).sarNext u
      else
        let r := BitVec.ofNat 16 (sarAverage avg sum)
        let s := s.setSar u { x with regRes := x.regRes.set (Fin.ofNat 16 slot) r, reg := some (slot + 1, 0, 0) }
        if slot < s.rd pg SAR.REGSEQ_LAST then s.sarNext u
        else
          let s := s.sarRegDone u
          let s := if s.rd pg SAR.REGTRIG_KIND = 5 && s.sarAccepts u then s.wr pg SAR.STATUS_REG_PENDING 0 1 else s
          s.sarNext u
  | .injected =>
    match x.inj with
    | none => s
    | some slot =>
      let s := s.winEvals u true slot code.toNat
      let x := s.sarUnit u
      let s := s.setSar u { x with injRes := x.injRes.set (Fin.ofNat 4 slot) (BitVec.ofNat 16 code.toNat), inj := some (slot + 1) }
      if slot < s.rd pg SAR.INJSEQ_LAST then s.sarNext u else (s.sarInjDone u).sarNext u

/-- The continuous sequence starts on its own (R426). -/
def State.sarContinuous (s : State) (u : Fin 6) : State :=
  if s.sarAccepts u && s.rd (SAR.pg u) SAR.REGTRIG_KIND = 5 && (s.sarUnit u).reg.isNone then s.sarRegTrigger u else s

/-- A mode tick into CONFIG abandons the sequences (R423). -/
def State.sarAbandon (s : State) (u : Fin 6) : State :=
  let x := s.sarUnit u
  let s := (s.setSar u { out := x.out, inn := x.inn }).wr (SAR.pg u) SAR.STATUS_REG_PENDING 0 0
  (s.sarStatus u).sarBoundary u

/-- An accepted commit of a SAR page (R443, R426). -/
def State.sarCommit (s : State) (u : Fin 6) : State :=
  if (s.sarUnit u).flight = .none then s.sarIdle u else s

/-- Ranges: KIND 6 and 7, and 5 for the injected trigger (R425). -/
def State.sarRangeBad (s : State) (u : Nat) : Bool :=
  5 < s.merged (SAR.pg u) SAR.REGTRIG_KIND || 4 < s.merged (SAR.pg u) SAR.INJTRIG_KIND

/-- The conditions of R444. -/
def State.sarInconsistent (s : State) (u : Nat) : Bool :=
  let m := fun f i => s.merged (SAR.pg u) f i
  (List.range 2).any fun w => m SAR.WIN_CFG_EN w = 1 && (m SAR.WIN_LIM_HI w < m SAR.WIN_LIM_LO w ||
    (if m SAR.WIN_CFG_SEQ w = 0 then m SAR.REGSEQ_LAST 0 else m SAR.INJSEQ_LAST 0) < m SAR.WIN_CFG_SLOT w)

/-! ### Delta-sigma filters: arithmetic (R451, R452, R463) -/

/-- A list of weights convolved with `m` unit weights. -/
def boxConv (m : Nat) (h : List Int) : List Int :=
  (List.range (h.length + m - 1)).map fun k =>
    ((h.zipIdx.filter fun x => x.2 ≤ k && k < x.2 + m).map fun x => x.1).sum

/-- h_N of R451: the N-fold convolution of `m` unit weights. -/
def sincWeights (m : Nat) : Nat → List Int
  | 0 => [1]
  | n + 1 => boxConv m (sincWeights m n)

/-- Σ of weights × bits, newest bit first; a 1 counts as +1 and a 0 as −1. -/
def bitSum (h : List Int) (bits : List Bool) : Int :=
  ((h.zip bits).map fun x => if x.2 then x.1 else -x.1).sum

/-- The nearest integer, ties away from zero. -/
def roundAway (q : Rat) : Int := if q < 0 then -((mkRat 1 2 - q).floor) else (q + mkRat 1 2).floor

/-- An integer held in the range of a signed `w`-bit number. -/
def satInt (w : Nat) (z : Int) : Int := max (-(2 ^ (w - 1) : Int)) (min z (2 ^ (w - 1) - 1 : Int))

/-- The main result of order `n` and decimation `m` (R452). -/
def dsfMain (n m : Nat) (bits : List Bool) : Int :=
  satInt 24 (roundAway ((bitSum (sincWeights m n) bits : Rat) * 2 ^ 23 / ((m ^ n : Nat) : Rat)))

/-- The comparator result with oversampling `osr` (R463). -/
def dsfComp (osr : Nat) (bits : List Bool) : Int :=
  satInt 16 (roundAway ((bitSum (sincWeights osr 3) bits : Rat) * 2 ^ 15 / ((osr ^ 3 : Nat) : Rat)))

/-! ### Delta-sigma filters: channels -/

/-- The index of channel `c` of bank `b`. -/
def dsfIx (b : Fin 6) (c : Fin 8) : Fin 48 := Fin.ofNat 48 (8 * b + c)

def State.dsfChan (s : State) (b : Fin 6) (c : Fin 8) : DsfChan := s.dsf[dsfIx b c]
def State.setDsf (s : State) (b : Fin 6) (c : Fin 8) (x : DsfChan) : State := { s with dsf := s.dsf.set (dsfIx b c) x }

/-- Channel `c` measures: enabled, and measurement has started (R453). -/
def State.dsfRuns (s : State) (b c : Nat) : Bool := s.measuring && bitOf (s.rd (DSF.pg b) DSF.CTRL_CHEN) c

/-- The channel is STUCK or NO_CLK, or settling after either (R460). -/
def State.dsfInvalid (s : State) (b : Fin 6) (c : Fin 8) : Bool :=
  s.flag (DSF.pg b) DSF.CHSTAT_STUCK c || s.flag (DSF.pg b) DSF.CHSTAT_NO_CLK c ||
    (s.flag (DSF.pg b) DSF.CHSTAT_SETTLING c && (s.dsfChan b c).bad)

/-- The comparator sources of bank `b` (R466), with IRQ bit CMP on a rise. -/
def State.dsfSources (s : State) (b : Fin 6) : State :=
  (List.range 4).foldl (fun s j =>
    let act := (s.rd (DSF.pg b) DSF.CMPSEL_CHMASK j) &&& (s.rd (DSF.pg b) DSF.STATUS_CMP_OUT) ≠ 0
    let src := 16 + 4 * b.val + j
    let rise := act && !s.srcActive src
    (s.setSource src act).irqIf rise (DSF.pg b) 3) s

/-- CMP_OUT of a channel. -/
def State.setCmpOut (s : State) (b : Fin 6) (c : Fin 8) (v : Bool) : State :=
  let s := (s.setFlag (DSF.pg b) DSF.CHSTAT_CMP_OUT c v).putBit (DSF.pg b) DSF.STATUS_CMP_OUT 0 c v
  s.dsfSources b

/-- CMP_OUT is 1 for want of a valid input (R465). -/
def State.cmpTrips (s : State) (b : Fin 6) (c : Fin 8) : Bool :=
  s.flag (DSF.pg b) DSF.CMPCFG_EN c && s.flag (DSF.pg b) DSF.CMPCFG_INVALID_TRIP c && s.dsfInvalid b c

/-- A channel's own rule for CMP_OUT where no evaluation decides: 0 while disabled, 1 while invalid with INVALID_TRIP (R465), 0 while the
bits since a settling event are too few or the channel does not measure (R464). -/
def State.cmpForced (s : State) (b : Fin 6) (c : Fin 8) : State :=
  let pg := DSF.pg b
  if s.cmpTrips b c then s.setCmpOut b c true
  else if !s.flag pg DSF.CMPCFG_EN c || !s.dsfRuns b c || (s.dsfChan b c).since < 3 * s.rd pg DSF.CMPCFG_OSR c then
    s.setCmpOut b c false
  else s

def State.cmpForcedAll (s : State) (b : Fin 6) : State := (List.finRange 8).foldl (fun s c => s.cmpForced b c) s

/-- A set of the page takes effect (R471). -/
def State.dsfApply (s : State) (b : Fin 6) : State :=
  if s.commitPending (DSF.pg b) then (((s.boundary (DSF.pg b)).cmpForcedAll b).dsfSources b).dsfSync else s

/-- A result reaches every destination (R474). The write of R460 triggers nothing (`quiet`). -/
def State.dsfWrite (s : State) (b : Fin 6) (c : Fin 8) (v : Nat) (valid notch : Bool) (quiet : Bool := false) : State :=
  let ch := 8 * b.val + c.val
  let pg := DSF.pg b
  let s := s.wr pg DSF.RES_VALUE c v
  let s := (s.setFlag pg DSF.RES_VALID c valid).setFlag pg DSF.RES_NOTCH_OFF c notch
  let w := BitVec.ofInt 32 (signedOf 24 v)
  let s := s.routeResult 1 ch w valid
  let s := s.formResult ch (BitVec.ofNat 24 v) valid
  s.sigUpdate 1 ch w valid quiet

/-- A window end of the channel is due: with SRC 0 its M bits are captured (R453), with SRC 1 a selected event has come (R454). -/
def State.windowDue (s : State) (b : Fin 6) (c : Fin 8) : Bool :=
  if s.rd (DSF.pg b) DSF.SYNC_SRC = 1 then (s.dsfChan b c).owed ≠ []
  else !s.flag (DSF.pg b) DSF.CHSTAT_NO_CLK c && s.rd (DSF.pg b) DSF.CHCFG_DEC c ≤ (s.dsfChan b c).win

/-- A channel becomes invalid (R460): its last result is written with VALID 0, which is no completion event; a window end that is due
writes it instead (R477). -/
def State.dsfBecomeInvalid (s : State) (b : Fin 6) (c : Fin 8) (clk : Bool) : State :=
  let pg := DSF.pg b
  let s := if s.windowDue b c then s else s.dsfWrite b c (s.rd pg DSF.RES_VALUE c) false (s.flag pg DSF.RES_NOTCH_OFF c) true
  let s := s.bump pg DSF.INVALID_COUNT_COUNT c
  let s := (s.putBit pg DSF.STATUS_VALID 0 c false).wr pg DSF.CHSTAT_VALID c 0
  let s := (s.irq pg 0).irqIf clk pg 2
  s.cmpForced b c

/-- A settling event (R457); `bad`: after STUCK or NO_CLK. CMP_OUT is 0 from here, or 1 under R465 (R464). -/
def State.dsfSettle (s : State) (b : Fin 6) (c : Fin 8) (bad : Bool) : State :=
  let x := s.dsfChan b c
  ((s.setDsf b c { x with since := 0, bad := bad, out := 0, inn := 0 }).wr (DSF.pg b) DSF.CHSTAT_SETTLING c 1).cmpForced b c

/-- One comparator evaluation (R463, R464). -/
def State.cmpEval (s : State) (b : Fin 6) (c : Fin 8) : State :=
  let pg := DSF.pg b
  let x := s.dsfChan b c
  let osr := s.rd pg DSF.CMPCFG_OSR c
  let (r, s) := s.freshWord
  let v := if 3 * osr - 2 ≤ x.bits.length then dsfComp osr x.bits else signedOf 16 r.toNat
  let s := s.wr pg DSF.CMPVAL_VALUE c (wrapOf 16 v)
  let isOut := v < s.rdInt pg DSF.CMPLIM_LO c || s.rdInt pg DSF.CMPLIM_HI c < v
  let o := if isOut then x.out + 1 else 0
  let i := if isOut then 0 else x.inn + 1
  let need := s.rd pg DSF.CMPCFG_COUNT c + 1
  let s := s.setDsf b c { x with out := o, inn := i }
  if s.cmpTrips b c then s.setCmpOut b c true
  else if !s.flag pg DSF.CMPCFG_EN c || x.since < 3 * osr then s.setCmpOut b c false
  else if need ≤ o then s.setCmpOut b c true
  else if need ≤ i then s.setCmpOut b c false
  else s

/-- One captured bit (R449): the boundary of the page (R471), history, STUCK and its end (R458), settling (R457), the comparator. -/
def State.dsfBit (s : State) (b : Fin 6) (c : Fin 8) (raw : Bool) : State :=
  let pg := DSF.pg b
  if s.flag pg DSF.CHSTAT_NO_CLK c then s
  else
    let s := s.dsfApply b
    if !s.dsfRuns b c then s
    else
      let bit := raw != s.flag pg DSF.CHCFG_INVERT c
      let x := s.dsfChan b c
      let same := match x.bits with
        | y :: _ => if y = bit then x.same + 1 else 1
        | [] => 1
      let s := s.setDsf b c { x with bits := (bit :: x.bits).take 8192, same := same, since := x.since + 1, win := x.win + 1 }
      let s :=
        if same = 64 then
          let was := s.dsfInvalid b c
          let s := s.wr pg DSF.CHSTAT_STUCK c 1
          if was then s else s.dsfBecomeInvalid b c false
        else if s.flag pg DSF.CHSTAT_STUCK c && same = 1 then
          let s := (s.wr pg DSF.CHSTAT_STUCK c 0).dsfSettle b c true
          s.setDsf b c { s.dsfChan b c with since := 1 }
        else s
      let s :=
        if s.flag pg DSF.CHSTAT_SETTLING c && s.rd pg DSF.CHCFG_ORDER c * s.rd pg DSF.CHCFG_DEC c ≤ (s.dsfChan b c).since then
          (s.wr pg DSF.CHSTAT_SETTLING c 0).setDsf b c { s.dsfChan b c with bad := false }
        else s
      s.cmpEval b c

/-- Bits captured, oldest first. -/
def State.dsfBits (s : State) (b : Fin 6) (c : Fin 8) (bits : List Bool) : State :=
  bits.foldl (fun s x => s.dsfBit b c x) s

/-- An event of PWM unit `n` at instant `t` comes to every enabled channel of the banks that select it (R454). -/
def State.dsfEmit (s : State) (n : Fin 16) (t : Int) (mid : Bool := false) : State :=
  (List.finRange 6).foldl (fun s (b : Fin 6) =>
    let pg := DSF.pg b
    if s.rd pg DSF.SYNC_SRC = 1 && s.rd pg DSF.SYNC_INDEX = n.val && evtHits (s.rd pg DSF.SYNC_EVT) mid then
      (List.finRange 8).foldl (fun s (c : Fin 8) =>
        if s.dsfRuns b c then s.setDsf b c { s.dsfChan b c with owed := (s.dsfChan b c).owed ++ [t] } else s) s
    else s) s

/-- DS_CKk is driven by this device (R447, R784). -/
def State.dsckDriven (s : State) (k : Fin 4) : Bool :=
  s.flag (DSF.pg 0) DSF.DSCK_EN k && !s.outOfSet &&
    (!s.flag (DSF.pg 0) DSF.DSCK_RECEIVE k ||
      (s.setSize ≠ 0 && s.memState = rMEMBER && (s.isLead || s.redun.rescued.getLsbD k)))

/-- The modulator clock that bank `b` selects. -/
def State.dsfClock (s : State) (b : Fin 6) : Fin 4 := Fin.ofNat 4 (s.rd (DSF.pg b) DSF.BANKCFG_CKSEL)

/-- The period of the modulator clock of bank `b` in fine steps: DIV × 0.5 ns of a clock that the device drives, that of the clock at the
ball, `ck`, of one it receives (R447, R455). -/
def State.dsfPeriod (s : State) (b : Fin 6) (ck : Nat) : Nat :=
  if s.dsckDriven (s.dsfClock b) then 16 * s.rd (DSF.pg 0) DSF.DSCK_DIV (s.dsfClock b) else ck

/-- DSF_WINDOW_END (R451 to R462) after the bits of the window. A window that is not due does not end. -/
def State.dsfWindow (s : State) (b : Fin 6) (c : Fin 8) (ck : Nat) : State :=
  let pg := DSF.pg b
  let src1 : Bool := s.rd pg DSF.SYNC_SRC = 1
  if !s.dsfRuns b c || !s.windowDue b c || (src1 && !s.carrierRuns (s.rd pg DSF.SYNC_INDEX)) then s
  else
    let x := s.dsfChan b c
    let n := s.rd pg DSF.CHCFG_ORDER c
    let m := s.rd pg DSF.CHCFG_DEC c
    let bits := if src1 then x.bits else x.bits.drop (x.win - m)
    let (r, s) := s.freshWord
    let v := if n * (m - 1) + 1 ≤ bits.length then wrapOf 24 (dsfMain n m bits) else r.toNat % 2 ^ 24
    let ev := x.owed.head?
    let per : Int := s.dsfPeriod b ck
    let notch := match src1, x.prev, ev with
      | true, some p, some t => per < t - p - m * per || t - p - m * per < -per
      | _, _, _ => false
    let was := s.flag pg DSF.RES_NOTCH_OFF c
    let ok := !s.dsfInvalid b c && !s.flag pg DSF.CHSTAT_SETTLING c
    let s := s.dsfWrite b c v ok notch
    let s := s.irqIf (notch && !was) pg 4
    let s := s.setDsf b c { s.dsfChan b c with prev := if src1 then ev else none, owed := x.owed.tail, win := if src1 then 0 else x.win - m }
    let s := if ok && !s.flag pg DSF.CHSTAT_VALID c then
        ((s.wr pg DSF.CHSTAT_VALID c 1).putBit pg DSF.STATUS_VALID 0 c true).irq pg 1 else s
    let s := s.cmpForced b c
    ((s.wrapBump pg DSF.WINDOW_COUNT_COUNT).sampleEvent 2 (8 * b.val + c.val)).leEmit 4 (8 * b.val + c.val)

/-- Start of measurement of one channel (R453, R457, R458). -/
def State.dsfStart (s : State) (b : Fin 6) (c : Fin 8) : State :=
  let pg := DSF.pg b
  let s := s.setDsf b c {}
  let s := ((s.wr pg DSF.CHSTAT_STUCK c 0).wr pg DSF.CHSTAT_VALID c 0).putBit pg DSF.STATUS_VALID 0 c false
  if bitOf (s.rd pg DSF.CTRL_CHEN) c then
    let s := s.dsfSettle b c false
    if s.flag pg DSF.CHSTAT_NO_CLK c then (s.setDsf b c { s.dsfChan b c with bad := true }).dsfBecomeInvalid b c true else s
  else s.cmpForced b c

/-- The clock that bank `b` selects is neither driven nor received (R459). -/
def State.dsfClkOff (s : State) (b : Fin 6) : Bool :=
  !s.flag (DSF.pg 0) DSF.DSCK_EN (s.dsfClock b) && !s.flag (DSF.pg 0) DSF.DSCK_RECEIVE (s.dsfClock b)

/-- In a set with CK_RESCUE and a successor that is ready, that member drives a received clock of the set that fails before four periods
are over: it is never NO_CLK (R784). -/
def State.dsfRescues (s : State) (b : Fin 6) : Bool :=
  s.inSet && s.flag REDUN.pg REDUN.CFG_CK_RESCUE && (s.successor s.leadId).isSome &&
    s.flag (DSF.pg 0) DSF.DSCK_EN (s.dsfClock b) && s.flag (DSF.pg 0) DSF.DSCK_RECEIVE (s.dsfClock b)

/-- The receiver of bank `b` watches its clock: from the end of BOOT in P0 and P1 (R459). -/
def State.dsfWatches (s : State) : Bool := s.mode ≠ mBOOT && s.pwr.state ≤ 1

/-- Bank `b` captures bits: its clock is there and runs, which it does not in P2 (R448, R879), and a channel measures. -/
def State.dsfCaptures (s : State) (b : Fin 6) : Bool :=
  s.flag (DSF.pg b) DSF.STATUS_CK_OK && s.pwr.state ≤ 1 && (List.range 8).any (fun c => s.dsfRuns b c)

/-- Bank `b` has no clock (R459, R460): its channels are NO_CLK, and a set that waited takes effect (R471). -/
def State.dsfNoClk (s : State) (b : Fin 6) : State :=
  let pg := DSF.pg b
  let s := s.wr pg DSF.STATUS_CK_OK 0 0
  let s := (List.finRange 8).foldl (fun s (c : Fin 8) =>
    if s.flag pg DSF.CHSTAT_NO_CLK c then s
    else
      let was := s.dsfInvalid b c
      let s := s.wr pg DSF.CHSTAT_NO_CLK c 1
      if s.dsfRuns b c && !was then s.dsfBecomeInvalid b c true
      else (s.irqIf (s.dsfRuns b c) pg 2).cmpForced b c) s
  s.dsfApply b

/-- DSF_NO_CLK: the receiver has seen no edge for four nominal periods (R459). -/
def State.dsfLost (s : State) (b : Fin 6) : State := if s.dsfWatches && !s.dsfRescues b then s.dsfNoClk b else s

/-- The clocks stop in P2: a set that waits for a bit takes effect (R471). -/
def State.dsfIdle (s : State) : State := (List.finRange 6).foldl (fun s (b : Fin 6) => s.dsfApply b) s

/-- Every bank whose clock is off is NO_CLK, in any mode after BOOT (R459). -/
def State.dsfClocks (s : State) : State :=
  if s.mode = mBOOT then s
  else (List.finRange 6).foldl (fun s (b : Fin 6) =>
    if s.dsfClkOff b && (List.range 8).any (fun c => !s.flag (DSF.pg b) DSF.CHSTAT_NO_CLK c) then s.dsfNoClk b else s) s

/-- DSF_CLOCK_RETURN (R453, R457, R459): edges return on a clock that is driven or received. -/
def State.dsfClockReturn (s : State) (b : Fin 6) : State :=
  let pg := DSF.pg b
  if s.dsfClkOff b then s
  else
    let s := s.wr pg DSF.STATUS_CK_OK 0 1
    (List.finRange 8).foldl (fun s (c : Fin 8) =>
      if s.flag pg DSF.CHSTAT_NO_CLK c then
        let s := (s.wr pg DSF.CHSTAT_NO_CLK c 0).wr pg DSF.CHSTAT_STUCK c 0
        if s.dsfRuns b c then (s.setDsf b c { owed := (s.dsfChan b c).owed }).dsfSettle b c true else s.cmpForced b c
      else s) s

/-- The start and the stop of measurement at a mode tick: it starts at READY (R42), and in a member that takes a later mode of its lead from
CONFIG (R794) with that one. -/
def State.measureMode (s : State) : State :=
  let s :=
    if (s.mode = mREADY || s.forming) && !s.measuring then
      let s := { s with measuring := true }
      let s := (List.finRange 6).foldl (fun s (b : Fin 6) => (List.finRange 8).foldl (fun s (c : Fin 8) => s.dsfStart b c) s) s
      (List.finRange 6).foldl (fun s (u : Fin 6) => s.sarContinuous u) s
    else if s.mode = mREADY then (List.finRange 6).foldl (fun s (u : Fin 6) => s.sarContinuous u) s
    else if s.mode = mCONFIG || s.mode = mBOOT then
      let s := (List.finRange 6).foldl (fun s (u : Fin 6) => s.sarAbandon u) { s with measuring := false }
      (List.finRange 6).foldl (fun s (b : Fin 6) => (s.cmpForcedAll b).dsfApply b) s
    else s
  s.dsfClocks.dsfSync

/-- An accepted commit of a DSF page: without a clock the set takes effect at once; while no channel of the bank brings its bits, at the
next bit that the bank captures, which no command carries (R471; log entry 48). What DSCKk and CKSEL say of the clocks follows
(R459). -/
def State.dsfCommit (s : State) (b : Fin 6) : State :=
  if s.dsfCaptures b then s else (s.dsfApply b).dsfClocks

/-- The condition of R472. -/
def State.dsfInconsistent (s : State) (b : Nat) : Bool :=
  (List.range 8).any fun c =>
    signedOf 16 (s.merged (DSF.pg b) DSF.CMPLIM_HI c) < signedOf 16 (s.merged (DSF.pg b) DSF.CMPLIM_LO c)

end Sys2Proof.Machine
end

