-- ==== Sys2Proof/Machine/Port.lean ====
section
/-!
DEFINITION. Machine/Port.lean: the port sequencers of the charging outputs and the control pilots (09 R478 to R534).
-/
namespace Sys2Proof.Machine

def State.portUnit (s : State) (p : Fin 8) : PortUnit := s.port[p]
def State.setPort (s : State) (p : Fin 8) (u : PortUnit) : State := { s with port := s.port.set p u }

/-- The state of each phase (R492). -/
def stateOfPhase (ph : Nat) : Nat :=
  if ph = 0 then 0 else if ph ≤ 5 then 1 else if ph ≤ 7 then 2 else if ph ≤ 9 then 3 else if ph ≤ 11 then 4 else 5

def State.portPhase (s : State) (p : Nat) : Nat := s.rd (PORT.pg p) PORT.STATUS_PHASE

/-- STATUS.STATE, which a port takes with its phase (R492). -/
def State.portState (s : State) (p : Nat) : Nat := stateOfPhase (s.portPhase p)

/-- The engine of MAP.LE. -/
def State.portLe (s : State) (p : Nat) : Fin 16 := Fin.ofNat 16 (s.rd (PORT.pg p) PORT.MAP_LE)

/-- Every port that takes part is OFF (R52, R208). -/
def State.portsOff (s : State) : Bool := (List.range 8).all fun p => s.portState p = 0

/-- A floating-point register of the page. -/
def State.pR (s : State) (p : Nat) (f : Fld) : Rat := ratOf (s.rd (PORT.pg p) f)

/-! ### Measurements (R483 to R485) -/

/-- The signed result of DSF control channel `ch` times a scale; above channel 47 the result is a free value (log entry 18). -/
def State.dsfScaled (s : State) (p ch : Nat) (scale : Fld) : Rat :=
  let res := if ch < 48 then s.rd (DSF.pg (ch / 8)) DSF.RES_VALUE (ch % 8) else (Config.absentChannel ch s.cyc).toNat
  (signedOf 24 res : Rat) * s.pR p scale

/-- The 12-bit code of a SAR regular result, or bits 15:4 of an averaged one. -/
def State.sarCode (s : State) (u slot : Nat) : Nat :=
  let v := s.rd (SAR.pg u) SAR.REGRES_VALUE slot
  if s.rd (SAR.pg u) SAR.REGSLOT_AVG slot = 0 then v % 4096 else v / 16 % 4096

/-- V_OUT, I_OUT and V_VEH of port `p` as its tick takes them. -/
def State.portV (s : State) (p : Nat) : Rat := s.dsfScaled p (s.rd (PORT.pg p) PORT.MEAS_V_CH) PORT.V_SCALE_VALUE
def State.portI (s : State) (p : Nat) : Rat := s.dsfScaled p (s.rd (PORT.pg p) PORT.MEAS_I_CH) PORT.I_SCALE_VALUE
def State.portVeh (s : State) (p : Nat) : Rat :=
  (s.sarCode (s.rd (PORT.pg p) PORT.SARMAP_VEH_UNIT) (s.rd (PORT.pg p) PORT.SARMAP_VEH_SLOT) : Nat) * s.pR p PORT.VEH_SCALE_VALUE
def State.isoCode (s : State) (p : Nat) : Nat :=
  s.sarCode (s.rd (PORT.pg p) PORT.SARMAP_ISO_UNIT) (s.rd (PORT.pg p) PORT.SARMAP_ISO_SLOT)
def State.proxCode (s : State) (p : Nat) : Nat :=
  s.sarCode (s.rd (PORT.pg p) PORT.SARMAP_PP_UNIT) (s.rd (PORT.pg p) PORT.SARMAP_PP_SLOT)

/-- The insulation class is FAULT, or WARN (R484). -/
def State.isoFault (s : State) (p : Nat) : Bool := s.isoCode p < s.rd (PORT.pg p) PORT.ISO_LIM_FAULT
def State.isoWarn (s : State) (p : Nat) : Bool := !s.isoFault p && s.isoCode p < s.rd (PORT.pg p) PORT.ISO_LIM_WARN

/-- The proximity code lies in its window (R485). -/
def State.plugOk (s : State) (p : Nat) : Bool :=
  s.rd (PORT.pg p) PORT.PP_LIM_LO ≤ s.proxCode p && s.proxCode p ≤ s.rd (PORT.pg p) PORT.PP_LIM_HI

/-- A DSF channel of MEAS is invalid (R460). -/
def State.measInvalid (s : State) (p : Nat) : Bool :=
  [PORT.MEAS_V_CH, PORT.MEAS_I_CH].any fun f =>
    let ch := s.rd (PORT.pg p) f
    if ch < 48 then s.dsfInvalid (Fin.ofNat 6 (ch / 8)) (Fin.ofNat 8 ch) else (Config.absentChannel ch s.cyc).getLsbD 24

/-- The voltage or current test of a phase: |x − target| at most a tolerance. -/
def within (x target tol : Rat) : Bool := ratAbs (x - target) ≤ tol

/-! ### Contactor feedback (R504, R508) -/

/-- CFB_p is unavailable. -/
def State.cfbGone (s : State) (p : Nat) : Bool :=
  !s.flag SAFEIO.pg SAFEIO.STATUS_EN || s.flag SAFEIO.pg SAFEIO.STATUS_RECOMMIT || bitOf (s.rd SAFEIO.pg SAFEIO.CHFAULT_CH) (16 + p)

/-- The feedback reads closed: energised means open where CFB_POL is 1. -/
def State.cfbClosed (s : State) (p : Nat) : Bool :=
  bitOf (s.rd SAFEIO.pg SAFEIO.LEVEL_CH) (16 + p) != s.flag (PORT.pg p) PORT.CFG_CFB_POL

/-! ### Enables (R500, R501, R943) -/

/-- The enables are held low whatever the phase (R501), and by a role that does not drive (R55, R497); a swap passes them at port ticks (R787). -/
def State.cdoLow (s : State) : Bool :=
  s.mode = mBOOT || s.mode = mCONFIG || s.mode = mSAFE || 3 ≤ s.pwr.state ||
    if s.roleDrives then s.redun.holdCdo else s.redun.passCdo = 0

/-- The levels that CDO_Ap and CDO_Bp are driven to. -/
def State.cdoA (s : State) (p : Nat) : Bool := s.flag (PORT.pg p) PORT.STATUS_CDO_A && !s.cdoLow
def State.cdoB (s : State) (p : Nat) : Bool := s.flag (PORT.pg p) PORT.STATUS_CDO_B && !s.cdoLow

/-- Command the enables. Both rising counts a closure (R500); the last one falling opens the window of R506. -/
def State.setEnables (s : State) (p : Fin 8) (a b : Bool) : State :=
  let pg := PORT.pg p
  let a0 := s.flag pg PORT.STATUS_CDO_A
  let b0 := s.flag pg PORT.STATUS_CDO_B
  let s := (s.setFlag pg PORT.STATUS_CDO_A 0 a).setFlag pg PORT.STATUS_CDO_B 0 b
  let s := if a && b && !(a0 && b0) then s.wrapBump pg PORT.CLOSE_COUNT_COUNT else s
  if a || b then s.setPort p { s.portUnit p with opening := none, susp := false }
  else if a0 || b0 then s.setPort p { s.portUnit p with opening := some 0, susp := false }
  else s

/-! ### Phases (R487, R488, R491, R492) -/

/-- PREPROG is in force (R487). -/
def prePhase (ph : Nat) : Bool := (1 ≤ ph && ph ≤ 7) || ph = 10 || ph = 11

/-- The gate is released in phase `ph`. -/
def gatePhase (weldActive : Bool) (ph : Nat) : Bool := (3 ≤ ph && ph ≤ 9) || (ph = 11 && weldActive)

/-- The program of the port's engine as the phase changes from `old` to `ph` (R487, R488): a start run of PREPROG that has not run is
no start run of the program that follows. -/
def State.portProgram (s : State) (p : Fin 8) (old ph : Nat) : State :=
  let pg := PORT.pg p
  let n := s.portLe p
  if prePhase old = prePhase ph then s
  else
    let u := s.leUnit n
    if prePhase ph then
      let u := { u with pre := some (s.rd pg PORT.PREPROG_START, s.rd pg PORT.PREPROG_LIMSET) }
      (s.setLe n (if old = 0 then { u with hand := .start, preStart := u.hand ≠ .start }
        else { u with hand := u.hand.atLeastTrack })).leShow n
    else
      let hand := if u.preStart then .track else u.hand.atLeastTrack
      (s.setLe n { u with pre := none, hand := hand, preStart := false }).leShow n

/-- The port enters phase `ph`: STATE and PHASE, the enables of the phase, the gate, the program, the interrupts. -/
def State.portEnter (s : State) (p : Fin 8) (ph : Nat) : State :=
  let pg := PORT.pg p
  let old := s.portPhase p
  let oldState := s.portState p
  let s := (s.wr pg PORT.STATUS_PHASE 0 ph).wr pg PORT.STATUS_STATE 0 (stateOfPhase ph)
  let u := s.portUnit p
  let s := s.setPort p { u with
    ticks := 0
    match_ := 0
    check := if ph = 1 || ph = 2 || ph = 3 || ph = 4 then u.check else none
    pre := if ph = 6 then u.pre else none
    ready := u.ready && ph ≠ 0 }
  let s :=
    if ph = 1 then s.setEnables p true false
    else if 2 ≤ ph && ph ≤ 9 then s.setEnables p true true
    else if ph = 12 then s
    else s.setEnables p false false
  let s := (s.setFlag pg PORT.STATUS_GATE 0 (gatePhase (s.flag pg PORT.CFG_WELD_ACTIVE) ph)).recheckDrive
  let s := s.portProgram p old ph
  let s := s.irqIf (oldState ≠ stateOfPhase ph) pg 0
  s.irqIf ((ph = 5 || ph = 7) && old ≠ ph) pg 1

/-- A cause for which the enables fall at entry to FAULT (R513). -/
def dropsEnables (cause : Nat) : Bool := cause = 0x0B || cause = 0x0D || cause = 0x0E

/-- Entry to FAULT (R512, R513): the gate is held; the enables fall where the current allows it or a cause that holds, recorded or not, asks
for it (`drop`). -/
def State.portFault (s : State) (p : Fin 8) (cause : Nat) (drop : Bool) : State :=
  let pg := PORT.pg p
  let s := (s.wr pg PORT.STATUS_FAULT_CAUSE 0 cause).bump pg PORT.FAULT_COUNT_COUNT
  let s := (s.irq pg 2).portEnter p 12
  let s := if drop || within (s.portI p) 0 (s.pR p PORT.I_OPEN_VALUE) then s.setEnables p false false else s
  if s.flag pg PORT.STATUS_CDO_A || s.flag pg PORT.STATUS_CDO_B || (s.portUnit p).opening.isSome then s
  else s.setPort p { s.portUnit p with opening := some 0, susp := false }

/-- A stop cause in phases 1 to 8 (R493). -/
def State.portStop (s : State) (p : Fin 8) (cause : Nat) : State :=
  (s.wr (PORT.pg p) PORT.STATUS_STOP_CAUSE 0 cause).portEnter p (if s.portPhase p = 8 then 9 else 10)

/-! ### The control pilots: CP_Op and what senses it (R517 to R523, R528) -/

def State.pilotChan (s : State) (p : Fin 8) : PilotChan := s.pilot[p]
def State.setPilot (s : State) (p : Fin 8) (x : PilotChan) : State := { s with pilot := s.pilot.set p x }

/-- CP_Op is held low (R521). -/
def State.pilotLow (s : State) (p : Fin 8) : Bool :=
  s.mode = mBOOT || s.mode = mCONFIG || s.mode = mSAFE || 3 ≤ s.pwr.state ||
    (s.portState p = 5 && s.flag PILOT.pg PILOT.CH_GEN_F_ON_FAULT p)

/-- For how many µs of its 1 ms period CP_Op is high (R518). -/
def State.pilotHigh (s : State) (p : Fin 8) : Nat :=
  match s.rd PILOT.pg PILOT.CH_GEN_MODE p with
  | 0 => 0
  | 1 => 1000
  | _ => s.rd PILOT.pg PILOT.CH_GEN_DUTY p

/-- CP_Op is high at this instant, and its last falling edge. -/
def PilotChan.up (x : PilotChan) (now : Word64) : Bool := !x.forced && (1000 ≤ x.high || (now - x.start).toNat < 250 * x.high)
def PilotChan.lastFall (x : PilotChan) : Word64 :=
  if x.forced || x.high = 0 || 1000 ≤ x.high then x.fall else x.start + BitVec.ofNat 64 (250 * x.high)

/-- CP_Op begins or ceases to be held low (R521): the edge that it makes of it. What held it low before is its last falling edge, also
where the high part of the period has passed when it ceases to be held. -/
def State.pilotForce (s : State) (p : Fin 8) : State :=
  let x := s.pilotChan p
  if s.pilotLow p = x.forced then s
  else
    let y := { x with forced := s.pilotLow p, fall := x.lastFall }
    s.setPilot p (if x.up s.cyc then { y with fall := s.cyc } else if y.up s.cyc then { y with rise := s.cyc }
      else if x.forced then { y with high := 0 } else y)

/-- Channel `p` senses: EN, and the SAR unit converts (R423, R528). -/
def State.pilotSenses (s : State) (p : Nat) : Bool :=
  s.flag PILOT.pg PILOT.CH_SENSE_EN p && s.sarAccepts (s.rd PILOT.pg PILOT.CH_SENSE_UNIT p)

/-- `SENSE_ERR` of a channel, in its own register and in `PILOT.STATUS` (R528). -/
def State.setSenseErr (s : State) (p : Fin 8) (b : Bool) : State :=
  (s.setFlag PILOT.pg PILOT.CH_STATE_SENSE_ERR p b).putBit PILOT.pg PILOT.STATUS_SENSE_ERR 0 p b

/-- A channel that does not sense reads UNKNOWN (R528). -/
def State.pilotUnknown (s : State) (p : Fin 8) : State :=
  let s := (s.wr PILOT.pg PILOT.CH_STATE_STATE p 6).setSenseErr p false
  s.setPilot p { s.pilotChan p with cls := 6, held := 0, blank := 0, hiSum := 0, hiCount := 0, loSum := 0, loCount := 0 }

/-- A channel that has no sensing, or whose SAR unit does not convert, reads UNKNOWN (R528). -/
def State.pilotShow (s : State) : State :=
  (List.finRange 8).foldl (fun s (p : Fin 8) => if s.pilotSenses p then s else s.pilotUnknown p) s

/-! ### The evaluation of a port tick -/

/-- The feedback at a port tick (R502, R505 to R508): the window counts on; whether cause 0x04 holds, whether WELDED is set,
and whether opening is confirmed. -/
def State.portFeedback (s : State) (p : Fin 8) : (Bool × Bool × Bool) × State :=
  let pg := PORT.pg p
  let u := s.portUnit p
  let st := s.portState p
  let a := s.flag pg PORT.STATUS_CDO_A
  let b := s.flag pg PORT.STATUS_CDO_B
  let ph := s.portPhase p
  let closed := s.cfbClosed p
  if s.cfbGone p then
    let s := if u.opening.isSome then s.setPort p { u with opening := some 0, susp := true } else s
    ((st ≠ 0 && st ≠ 5, false, false), s)
  else if u.susp then ((false, false, false), s.setPort p { u with susp := false })
  else if a && b then
    let late := ph = 2 && 10 * s.rd pg PORT.CFB_TIME_CLOSE_MS ≤ u.ticks
    ((!closed && ((3 ≤ ph && ph ≤ 9) || late), false, false), s)
  else if a || b then ((false, false, false), s)
  else
    match u.opening with
    | some k =>
      if !closed then ((false, false, true), s.setPort p { u with opening := none })
      else if 10 * s.rd pg PORT.CFB_TIME_OPEN_MS ≤ k + 1 then ((true, true, false), s.setPort p { u with opening := none })
      else ((false, false, false), s.setPort p { u with opening := some (k + 1) })
    | none => if ph = 12 then ((false, false, false), s) else ((closed, closed, false), s)

/-- The causes of R511 that hold at a port tick, the feedback's and FORCE_FAULT apart. -/
def State.portCauses (s : State) (p : Fin 8) : List Nat :=
  let pg := PORT.pg p
  let u := s.portUnit p
  let ph := s.portPhase p
  let v := s.portV p
  let veh := s.portVeh p
  let tol := s.pR p PORT.V_TOL_VALUE
  let cp := s.rd PILOT.pg PILOT.CH_STATE_STATE p
  let le := s.leState (s.portLe p)
  let vmax := s.pR p PORT.V_MAX_VALUE
  let ifc := fun (c : Bool) (n : Nat) => if c then [n] else []
  ifc (100 ≤ u.iso) 0x01 ++
  ifc (1 ≤ ph && ph ≤ 4 && 10 * s.rd pg PORT.TIMEOUT_A_CC_MS ≤ u.check.getD 0 &&
    !(ph = 4 && 10 * s.rd pg PORT.TIMEOUT_B_CC_HOLD_MS ≤ u.ticks)) 0x02 ++
  ifc (ph = 6 && 10 * s.rd pg PORT.TIMEOUT_A_PRE_MS ≤ u.pre.getD 0 &&
    !(99 ≤ u.match_ && within v (s.pR p PORT.PRE_V_VALUE) tol)) 0x03 ++
  ifc (ph = 11 && 10 * s.rd pg PORT.WELD_TIME_WELD_MS ≤ u.ticks && s.pR p PORT.V_SAFE_VALUE < v) 0x05 ++
  ifc (cp = 0 || cp = 4 || cp = 5 || s.flag PILOT.pg PILOT.CH_STATE_DIODE_ERR p || s.flag PILOT.pg PILOT.CH_STATE_SENSE_ERR p) 0x06 ++
  ifc (100 ≤ u.plug) 0x07 ++
  ifc (bitOf (s.rd FUSE.pg FUSE.UNIT_TRIP_UNIT) (s.rd pg PORT.MAP_PWM)) 0x08 ++
  ifc (le = leFAULT || le = leHOLD || le = leSTOPPED) 0x09 ++
  ifc (vmax < v || vmax < veh) 0x0A ++
  ifc (ph = 1 && !s.cfbGone p && s.cfbClosed p) 0x0D ++
  ifc (s.measInvalid p) 0x0E ++
  ifc (ph = 9 && 10 * s.rd pg PORT.TIMEOUT_B_STOP_MS ≤ u.ticks &&
    !within (s.portI p) 0 (s.pR p PORT.I_OPEN_VALUE)) 0x0F

/-- The role is STANDBY or VOTER (R497). -/
def State.roleFollows (s : State) : Bool := s.rd REDUN.pg REDUN.ROLE_ROLE = 2 || s.rd REDUN.pg REDUN.ROLE_ROLE = 4

/-- The conditions of START_CHECK (R496). -/
def State.startCheckOk (s : State) (p : Fin 8) : Bool :=
  let pg := PORT.pg p
  let cp := s.rd PILOT.pg PILOT.CH_STATE_STATE p
  let le := s.leState (s.portLe p)
  let safe := s.pR p PORT.V_SAFE_VALUE
  s.portPhase p = 0 && s.formMode && !s.roleFollows && (cp = 1 || cp = 2 || cp = 3) &&
    !s.flag PILOT.pg PILOT.CH_STATE_DIODE_ERR p && s.plugOk p && !s.flag pg PORT.STATUS_WELDED &&
    !s.cfbGone p && !s.cfbClosed p && s.portV p ≤ safe && s.portVeh p ≤ safe &&
    (le = leCLOSED || le = leBLEND || le = leFALLBACK) &&
    !bitOf (s.rd FUSE.pg FUSE.UNIT_TRIP_UNIT) (s.rd pg PORT.MAP_PWM)

/-- An accepted START_CHECK (R492, R493, R494, R498). -/
def State.startCheck (s : State) (p : Fin 8) : State :=
  let pg := PORT.pg p
  let s := (s.wr pg PORT.STATUS_STOP_CAUSE 0 0).wr pg PORT.STATUS_FAULT_CAUSE 0 0
  let s := (s.wr pg PORT.STATUS_ISO_WARN 0 0).wr pg PORT.STATUS_WELD_INCONCL 0 0
  let s := s.setPort p { s.portUnit p with check := some 0 }
  s.portEnter p (if s.flag pg PORT.CFG_CHTEST_EN then 1 else 2)

/-- A command at the port tick (R496, R534): false where it is refused. -/
def State.portCommand (s : State) (p : Fin 8) (code : Nat) : Bool × State :=
  let pg := PORT.pg p
  let ph := s.portPhase p
  let cp := s.rd PILOT.pg PILOT.CH_STATE_STATE p
  match code with
  | 1 => if s.startCheckOk p then (true, s.startCheck p) else (false, s)
  | 2 => if ph = 5 then (true, (s.setPort p { s.portUnit p with pre := some 0 }).portEnter p 6) else (false, s)
  | 3 =>
    if ph = 7 && (cp = 2 || cp = 3) then (true, (s.wrapBump pg PORT.SESSION_COUNT_COUNT).portEnter p 8)
    else (false, if ph = 7 && (s.pilot[p]).newB then s.portStop p 2 else s)
  | 4 => (true, if 1 ≤ ph && ph ≤ 8 then s.portStop p 1 else s)
  | 5 => if ph = 13 && s.mode ≠ mSAFE then (true, s.portEnter p 0) else (false, s)
  | 6 => if s.portState p ≠ 5 then (true, s.portFault p 0x0C false) else (false, s)
  | 7 =>
    if s.mode = mCONFIG && s.flag pg PORT.STATUS_WELDED && !s.cfbGone p && !s.cfbClosed p then (true, s.wr pg PORT.STATUS_WELDED 0 0)
    else (false, s)
  | _ => (false, s)

/-- The phase's own progress (R492, R503, R505, R509, R513, R514). -/
def State.portProgress (s : State) (p : Fin 8) (opened : Bool) : State :=
  let pg := PORT.pg p
  let u := s.portUnit p
  let ph := s.portPhase p
  let v := s.portV p
  let tol := s.pR p PORT.V_TOL_VALUE
  let iOpen := within (s.portI p) 0 (s.pR p PORT.I_OPEN_VALUE)
  let near := fun (f : Fld) => within v (s.pR p f) tol
  let count := fun (c : Bool) (next : Nat) =>
    if c && 99 ≤ u.match_ then s.portEnter p next else s.setPort p { u with match_ := if c then u.match_ + 1 else 0 }
  match ph with
  | 1 =>
    let t := 10 * s.rd pg PORT.CFB_TIME_CHTEST_MS
    if 2 * t ≤ u.ticks then s.portEnter p 2 else if u.ticks = t then s.setEnables p false true else s
  | 2 => if !s.cfbGone p && s.cfbClosed p then s.portEnter p 3 else s
  | 3 => count (near PORT.CC_V_VALUE) 4
  | 4 => if 10 * s.rd pg PORT.TIMEOUT_B_CC_HOLD_MS ≤ u.ticks then s.portEnter p 5 else s
  | 6 => count (near PORT.PRE_V_VALUE) 7
  | 7 => count (!near PORT.PRE_V_VALUE) 6
  | 9 => if iOpen then s.portEnter p 10 else s
  | 10 => if opened then s.portEnter p 11 else s
  | 11 =>
    if v ≤ s.pR p PORT.V_SAFE_VALUE then
      let s := if s.portVeh p ≤ s.pR p PORT.V_SAFE_VALUE then s.wr pg PORT.STATUS_WELD_INCONCL 0 1 else s
      s.portEnter p 0
    else s
  | 12 =>
    if opened then s.portEnter p (if u.ready then 0 else 13)
    else if (s.flag pg PORT.STATUS_CDO_A || s.flag pg PORT.STATUS_CDO_B) &&
        (iOpen || 10 * s.rd pg PORT.CFB_TIME_OPEN_DELAY_MS ≤ u.ticks) then s.setEnables p false false
    else s
  | 13 => if u.ready then s.portEnter p 0 else s
  | _ => s

/-- The targets of the phase (R489). -/
def State.portSetPoints (s : State) (p : Fin 8) : State :=
  let pg := PORT.pg p
  let le := LE.pg (s.portLe p)
  let put := fun (s : State) (slot scale : Fld) (x : Rat) =>
    s.wr le LE.SP_TARGET_VALUE (s.rd pg slot % 8) (f32 (x * s.pR p scale)).toNat
  let v := fun (s : State) (x : Rat) => put s PORT.MAP_VSP PORT.SP_SCALE_V_VALUE x
  let i := fun (s : State) (x : Rat) => put s PORT.MAP_ISP PORT.SP_SCALE_I_VALUE x
  match s.portPhase p with
  | 1 => v s 0
  | 2 => v s 0
  | 3 => v s (s.pR p PORT.CC_V_VALUE)
  | 4 => v s (s.pR p PORT.CC_V_VALUE)
  | 5 => v s (s.pR p PORT.CC_END_V_VALUE)
  | 6 => v s (s.pR p PORT.PRE_V_VALUE)
  | 7 => v s (s.pR p PORT.PRE_V_VALUE)
  | 8 => v (i s (s.pR p PORT.I_SET_VALUE)) (s.pR p PORT.V_LIM_VALUE)
  | 9 => v (i s 0) (s.pR p PORT.V_LIM_VALUE)
  | 10 => v s 0
  | 11 => v s 0
  | _ => s

/-- What a port tick measures and shows (R483 to R485, R502, R504, R508). -/
def State.portShow (s : State) (p : Fin 8) (rbA rbB : Bool) : State :=
  let pg := PORT.pg p
  let s := (s.wr pg PORT.V_OUT_VALUE 0 (f32 (s.portV p)).toNat).wr pg PORT.I_OUT_VALUE 0 (f32 (s.portI p)).toNat
  let s := s.wr pg PORT.V_VEH_VALUE 0 (f32 (s.portVeh p)).toNat
  let s := (s.wr pg PORT.CODES_ISO 0 (s.isoCode p)).wr pg PORT.CODES_PP 0 (s.proxCode p)
  let s := s.setFlag pg PORT.STATUS_PLUG_OK 0 (s.plugOk p)
  let s := s.setFlag pg PORT.STATUS_CFB_CLOSED 0 (s.cfbGone p || s.cfbClosed p)
  let wrong := rbA != s.cdoA p || rbB != s.cdoB p
  let u := s.portUnit p
  let s := s.setPort p { u with wrong := if wrong then u.wrong + 1 else 0 }
  (s.setFlag pg PORT.STATUS_CDO_A_RB 0 rbA).setFlag pg PORT.STATUS_CDO_B_RB 0 rbB

/-- The counts of a port tick (R482, R515). A port in phases 9 to 11 that receives stop cause 3 records it and continues (R494). -/
def State.portCounts (s : State) (p : Fin 8) : State :=
  let pg := PORT.pg p
  let u := s.portUnit p
  let ph := s.portPhase p
  let open_ := 4 ≤ ph && ph ≤ 9
  let s := if s.modes.ramp.isSome && !u.ready && 9 ≤ ph && ph ≤ 11 then s.wr pg PORT.STATUS_STOP_CAUSE 0 3 else s
  let s := s.setPort p { u with
    ticks := u.ticks + 1
    check := u.check.map (· + 1)
    pre := u.pre.map (· + 1)
    iso := if open_ && s.isoFault p then u.iso + 1 else 0
    plug := if s.plugOk p then 0 else u.plug + 1
    ready := (u.ready || s.modes.ramp.isSome) && ph ≠ 0 }
  if open_ && s.isoWarn p then (s.wr pg PORT.STATUS_ISO_WARN 0 1).irq pg 3 else s

/-- A follower takes the lead's phase, timers and enables (R497, R774), the window of R506 among the timers (DEDUCED, log entry 24). -/
def State.portFollow (s : State) (p : Fin 8) (c : PortCopy) : State :=
  let s := if c.phase = s.portPhase p then s else s.portEnter p c.phase
  let s := s.setEnables p c.cdoA c.cdoB
  let low := !c.cdoA && !c.cdoB
  let u := s.portUnit p
  s.setPort p { u with ticks := c.ticks, check := c.check, pre := c.pre, opening := if low then c.opening else u.opening, copy := none }

/-- Entry to SAFE_STOP falls at this instant, a mode tick at which a cause acts (R534). -/
def State.safeNow (s : State) : Bool := s.cyc.toNat % 250 = 0 && s.stoppable && s.dueCauses ≠ []

/-- A command that waits is refused (R496). -/
def State.portCmdDrop (s : State) (p : Fin 8) : State :=
  match (s.portUnit p).cmd with
  | some (_, ini) => (s.setPort p { s.portUnit p with cmd := none }).cfgErr (PORT.pg p) 0x05 0x0B4 ini
  | none => s

/-- One port tick of port `p` whose enables read back as given (R481 to R516, R534). The last PORTS state that a follower received is taken
at the first port tick behind it, by a member that leads since then too (R774, R783). A command that waits when EN 0 takes effect at its
tick is refused (R480, R496). -/
def State.portStep (s : State) (p : Fin 8) (rbA rbB : Bool) : State :=
  let pg := PORT.pg p
  let s := s.portShow p rbA rbB
  if s.mode = mBOOT then s
  else if !s.flag pg PORT.CTRL_EN then
    let s := s.portCmdDrop p
    if s.portPhase p = 0 then s else s.portEnter p 0
  else
    let s := s.portCounts p
    let s := match (s.portUnit p).copy with
      | some c => s.portFollow p c
      | none => s
    let ((c04, weld, opened), s) := s.portFeedback p
    let s := if weld then s.wr pg PORT.STATUS_WELDED 0 1 else s
    let st := s.portState p
    let ph := s.portPhase p
    let u := s.portUnit p
    let causes := (if c04 && st ≠ 5 then [0x04] else []) ++ (if 2 ≤ u.wrong && st ≠ 5 then [0x0D] else []) ++
      (if st = 0 || st = 5 then [] else s.portCauses p ++ if s.safeNow then [0x0B] else [])
    let s := s.setPort p { u with cmd := none }
    let refuse := fun (s : State) =>
      match u.cmd with
      | some (_, ini) => s.cfgErr pg 0x05 0x0B4 ini
      | none => s
    let s :=
      match causes.min? with
      | some c =>
        let s := if c = 0x05 || causes.contains 0x05 then s.wr pg PORT.STATUS_WELDED 0 1 else s
        refuse (s.portFault p c (causes.any dropsEnables))
      | none =>
        let s := match u.cmd with
          | some (code, _) =>
            let (ok, s) := s.portCommand p code
            if ok then s else refuse s
          | none => s
        if s.portPhase p ≠ ph then s
        else if ph = 8 && s.rd PILOT.pg PILOT.CH_STATE_STATE p = 1 then s.portStop p 2
        else if u.ready && 1 ≤ ph && ph ≤ 8 then s.portStop p 3
        else s.portProgress p opened
    let s := { s with pilot := s.pilot.set p { s.pilot[p] with newB := false } }
    s.portSetPoints p

/-- PORT_TICK: the commits of the pages take effect (R529, R533), then every port's tick; `rbA` and `rbB` are the levels of
the enables' balls. -/
def State.portTick (s : State) (rbA rbB : BitVec 8) : State :=
  let s := (List.range 8).foldl (fun s p => s.boundary (PORT.pg p)) s
  let s := (s.boundary PILOT.pg).pilotShow
  let s := (List.finRange 8).foldl (fun s (p : Fin 8) => s.portStep p (rbA.getLsbD p) (rbB.getLsbD p)) s
  (List.finRange 8).foldl (fun s (p : Fin 8) => s.pilotForce p) s

/-! ### The port ticks at which a time runs out

Each is the port tick of one port at which its count reaches the time (R482). -/

/-- The port tick of port `p` after its counts were set as `f` sets them, with every enable reading back as driven. -/
def State.portTickAt (s : State) (p : Fin 8) (f : PortUnit → PortUnit) : State :=
  ((s.setPort p (f (s.portUnit p))).portStep p (s.cdoA p) (s.cdoB p)).pilotForce p

/-- CHTEST_MS of one channel test ends (R503). -/
def State.chtestExpiry (s : State) (p : Fin 8) : State :=
  if s.portPhase p ≠ 1 then s
  else
    let t := 10 * s.rd (PORT.pg p) PORT.CFB_TIME_CHTEST_MS
    s.portTickAt p fun u => { u with ticks := if u.ticks < t then t - 1 else 2 * t - 1 }

/-- CLOSE_MS ends (R505). -/
def State.closeDeadline (s : State) (p : Fin 8) : State :=
  if s.portPhase p ≠ 2 then s
  else s.portTickAt p fun u => { u with ticks := 10 * s.rd (PORT.pg p) PORT.CFB_TIME_CLOSE_MS - 1 }

/-- OPEN_MS ends (R506, R514). -/
def State.openDeadline (s : State) (p : Fin 8) : State :=
  if (s.portUnit p).opening.isNone then s
  else s.portTickAt p fun u => { u with opening := some (10 * s.rd (PORT.pg p) PORT.CFB_TIME_OPEN_MS - 1) }

/-- The voltage condition of phase 3 or 6 has held for 10 ms (R492). -/
def State.voltageMatchHold (s : State) (p : Fin 8) : State :=
  if s.portPhase p = 3 || s.portPhase p = 6 then s.portTickAt p fun u => { u with match_ := 99 } else s

/-- CC_HOLD_MS ends (R492). -/
def State.ccHoldExpiry (s : State) (p : Fin 8) : State :=
  if s.portPhase p ≠ 4 then s
  else s.portTickAt p fun u => { u with ticks := 10 * s.rd (PORT.pg p) PORT.TIMEOUT_B_CC_HOLD_MS - 1 }

/-- CC_MS ends (R511). -/
def State.ccDeadline (s : State) (p : Fin 8) : State :=
  if s.portPhase p = 0 || 5 ≤ s.portPhase p then s
  else s.portTickAt p fun u => { u with check := some (10 * s.rd (PORT.pg p) PORT.TIMEOUT_A_CC_MS - 1) }

/-- PRE_MS ends (R511). -/
def State.preDeadline (s : State) (p : Fin 8) : State :=
  if s.portPhase p ≠ 6 || (s.portUnit p).pre.isNone then s
  else s.portTickAt p fun u => { u with pre := some (10 * s.rd (PORT.pg p) PORT.TIMEOUT_A_PRE_MS - 1) }

/-- STOP_MS ends (R511). -/
def State.stopDeadline (s : State) (p : Fin 8) : State :=
  if s.portPhase p ≠ 9 then s
  else s.portTickAt p fun u => { u with ticks := 10 * s.rd (PORT.pg p) PORT.TIMEOUT_B_STOP_MS - 1 }

/-- WELD_MS ends (R509). -/
def State.weldDeadline (s : State) (p : Fin 8) : State :=
  if s.portPhase p ≠ 11 then s
  else s.portTickAt p fun u => { u with ticks := 10 * s.rd (PORT.pg p) PORT.WELD_TIME_WELD_MS - 1 }

/-- OPEN_DELAY_MS ends (R513). -/
def State.openDelayExpiry (s : State) (p : Fin 8) : State :=
  if s.portPhase p ≠ 12 then s
  else s.portTickAt p fun u => { u with ticks := 10 * s.rd (PORT.pg p) PORT.CFB_TIME_OPEN_DELAY_MS - 1 }

/-- Insulation class FAULT has held for 10 ms (R511). -/
def State.isoHold (s : State) (p : Fin 8) : State :=
  if s.portPhase p < 4 || 9 < s.portPhase p then s else s.portTickAt p fun u => { u with iso := 99 }

/-- PLUG_OK 0 has held for 10 ms (R511). -/
def State.plugHold (s : State) (p : Fin 8) : State :=
  if s.portState p = 0 || s.portState p = 5 then s else s.portTickAt p fun u => { u with plug := 99 }

/-! ### Writes and commits -/

/-- Why a write of `CMD` is refused at once, if it is (R480, R496, R497). -/
def State.portCmdRefused (s : State) (p code : Nat) : Option Nat :=
  if code = 0 then some 0x03
  else if !s.flag (PORT.pg p) PORT.CTRL_EN || s.roleFollows then some 0x05
  else none

/-- A write of `CMD` waits for the port tick; a second one replaces it (R496). -/
def State.portCmd (s : State) (ini : Initiator) (p : Fin 8) (code : Nat) : State :=
  s.setPort p { s.portUnit p with cmd := some (code, ini) }

/-- A write of CC_V, CC_END_V, PRE_V or V_LIM is refused (R532). -/
def State.portVBad (s : State) (p v : Nat) : Bool :=
  !finBits v || ratOf v < 0 || s.pR p PORT.V_MAX_VALUE < ratOf v

/-- A write of I_SET is refused (R532). -/
def State.portIBad (s : State) (p v : Nat) : Bool :=
  !finBits v || (ratOf v < 0 && !s.flag (PORT.pg p) PORT.CFG_BIDIR)

/-- The conditions of R479 and of PREPROG.EN (R531). -/
def State.portInconsistent (s : State) (p : Nat) : Bool :=
  let m := fun f => s.merged (PORT.pg p) f
  let le := m PORT.MAP_LE
  let pwm := m PORT.MAP_PWM
  m PORT.CTRL_EN = 1 &&
   (s.rd (PWM.pg pwm) PWM.CFG_GATE ≠ 2 || s.rd (PWM.pg pwm) PWM.CFG_GATE_IDX ≠ p ||
    ((List.range 8).any fun q => q ≠ p && s.flag (PORT.pg q) PORT.CTRL_EN &&
      (s.rd (PORT.pg q) PORT.MAP_LE = le || s.rd (PORT.pg q) PORT.MAP_PWM = pwm)) ||
    ((List.range 2).any fun f => (List.range 4).any fun b =>
      s.flag (FORM.pg f) FORM.BMAP_EN b && s.rd (FORM.pg f) FORM.BMAP_PWM b = pwm) ||
    m PORT.PREPROG_EN = 0 ||
    s.progBad (m PORT.PREPROG_START) (s.rd (LE.pg le) LE.BANKS_FIRST) (s.rd (LE.pg le) LE.BANKS_COUNT) ||
    m PORT.MAP_ISP = m PORT.MAP_VSP ||
    ([PORT.V_SCALE_VALUE, PORT.I_SCALE_VALUE, PORT.VEH_SCALE_VALUE, PORT.SP_SCALE_V_VALUE, PORT.SP_SCALE_I_VALUE].any fun f =>
      ratOf (m f) = 0) ||
    m PORT.ISO_LIM_WARN < m PORT.ISO_LIM_FAULT || m PORT.PP_LIM_HI < m PORT.PP_LIM_LO)

/-- A write of `SPs.TARGET` by the bus to slot `slot` of engine `n` falls to R490. -/
def State.spHeldByPort (s : State) (n slot : Nat) : Bool :=
  (List.range 8).any fun p =>
    s.flag (PORT.pg p) PORT.CTRL_EN && s.portState p ≠ 0 && s.portLe p = n &&
      (s.rd (PORT.pg p) PORT.MAP_ISP = slot || s.rd (PORT.pg p) PORT.MAP_VSP = slot)

/-! ### Mode ticks (R494, R501, R511, R516) -/

/-- A command that waits while a fault cause holds at its port tick is refused (R534). -/
def State.portRefuseNow (s : State) (p : Fin 8) : State :=
  if s.cyc.toNat % 25000 = 0 then s.portCmdDrop p else s

/-- Port `p` at a mode tick that changed the mode. -/
def State.portMode (s : State) (p : Fin 8) : State :=
  if !s.flag (PORT.pg p) PORT.CTRL_EN then s
  else if s.mode = mSAFE then
    let s := s.setPort p { s.portUnit p with ready := false, copy := none }
    if s.portState p = 5 then s.setEnables p false false
    else if s.portState p = 0 then s
    else (s.portRefuseNow p).portFault p 0x0B true
  else if s.mode = mCONFIG then if s.portState p = 5 then s.portEnter p 0 else s
  else s

def State.portModes (s : State) : State := (List.finRange 8).foldl (fun s (p : Fin 8) => s.portMode p) s

/-! ### The control pilots (R517 to R528) -/

/-- What CP_Op shows: low, high, high-impedance, or the pulse width (R518, R521, R943). -/
def State.pilotPin (s : State) (p : Fin 8) : PinLevel :=
  if (if s.roleDrives then s.redun.holdCp else !s.redun.passCp) then .hiz
  else if s.pilotLow p then .low
  else match s.rd PILOT.pg PILOT.CH_GEN_MODE p with
    | 0 => .low
    | 1 => .high
    | _ =>
      let duty := s.rd PILOT.pg PILOT.CH_GEN_DUTY p
      if duty = 0 then .low else if duty = 1000 then .high else .edges

/-- A write of GEN waits for the next period start; the last one before it wins, and one in the cycle of a start waits for the start after it
(R519). -/
def State.genWrite (s : State) (p : Fin 8) (v : Nat) : State :=
  let x := s.pilotChan p
  let before := match x.genLast with
    | some (w, t) => if t = s.cyc then x.gen else some w
    | none => x.gen
  s.setPilot p { x with gen := before, genLast := some (v, s.cyc) }

/-- A period of CP_Op starts: it rises where the period has a high part and it was low, and falls where it has none (R518). -/
def State.pilotBegin (s : State) (p : Fin 8) : State :=
  let x := s.pilotChan p
  let was := x.up (s.cyc - 1)
  let y := { x with start := s.cyc, high := s.pilotHigh p, forced := s.pilotLow p, fall := x.lastFall }
  let is := y.up s.cyc
  s.setPilot p (if is && !was then { y with rise := s.cyc } else if was && !is then { y with fall := s.cyc } else y)

/-- A conversion that ends now and began `half` half ticks of 2 ns ago is a high sample, or a low one (R523). -/
def PilotChan.highSample (x : PilotChan) (now : Word64) (settle half : Nat) : Bool :=
  !x.forced && (1000 ≤ x.high || (0 < x.high && (now - x.start).toNat ≤ 250 * x.high)) &&
    half + 500 * settle ≤ 2 * (now - x.rise).toNat
def PilotChan.lowSample (x : PilotChan) (now : Word64) (settle half : Nat) : Bool :=
  !x.up now && half + 500 * settle ≤ 2 * (now - x.lastFall).toNat

/-- The last GEN write before this instant, and what is left of the writes behind it. -/
def PilotChan.genDue (x : PilotChan) (now : Word64) : Option Nat × PilotChan :=
  match x.genLast with
  | some (v, t) => if t = now then (x.gen, { x with gen := none }) else (some v, { x with gen := none, genLast := none })
  | none => (x.gen, { x with gen := none })

/-- The GEN write that waits takes effect. -/
def State.takeGen (s : State) (p : Fin 8) : State :=
  match (s.pilotChan p).genDue s.cyc with
  | (none, _) => s
  | (some v, x) =>
    let s := s.setPilot p x
    ((s.wr PILOT.pg PILOT.CH_GEN_MODE p (bitsOf v 0 2)).wr PILOT.pg PILOT.CH_GEN_DUTY p (bitsOf v 2 10)).wr PILOT.pg
      PILOT.CH_GEN_F_ON_FAULT p (bitsOf v 12 1)

/-- PILOT_PERIOD_START: the last GEN write is in force from here (R518, R519). -/
def State.pilotStart (s : State) : State :=
  (List.finRange 8).foldl (fun s (p : Fin 8) => (s.takeGen p).pilotBegin p) s

/-- A write of GEN is refused: MODE 3, DUTY above 1,000 (R518, R533). -/
def pilotGenBad (v : Nat) : Bool := bitsOf v 0 2 = 3 || 1000 < bitsOf v 2 10

/-- A conversion with raw code `code` is complete in unit `u`: a sample of the channels whose slot it is (R522, R523). It took SMP + 21 ADC
clocks of 10 ns (R420). A line at whose CP_Op this member is high-impedance (R521) has the edges that another member gives it, or none: for
it `hi` and `lo` say of which channels the sample is high or low. -/
def State.pilotSample (s : State) (u : Fin 6) (code : BitVec 12) (hi lo : BitVec 8) : State :=
  match (s.sarUnit u).flight, (s.sarUnit u).reg with
  | .regular, some (slot, _, _) =>
    let half := 5 * (s.rd (SAR.pg u) SAR.REGSLOT_SMP slot + 21)
    (List.finRange 8).foldl (fun s (p : Fin 8) =>
      if s.pilotSenses p && s.rd PILOT.pg PILOT.CH_SENSE_UNIT p = u.val && s.rd PILOT.pg PILOT.CH_SENSE_SLOT p = slot then
        let x := s.pilotChan p
        let settle := s.rd PILOT.pg PILOT.CH_SENSE_SETTLE p
        let away : Bool := s.pilotPin p = .hiz
        if (if away then hi.getLsbD p else x.highSample s.cyc settle half) then
          s.setPilot p { x with hiSum := x.hiSum + code.toNat, hiCount := x.hiCount + 1 }
        else if (if away then lo.getLsbD p else x.lowSample s.cyc settle half) then s.setPilot p { x with loSum := x.loSum + code.toNat, loCount := x.loCount + 1 }
        else s
      else s) s
  | _, _ => s

/-- The class of R525: thresholds above the band of the accepted state are raised by HYST, those below it lowered. -/
def pilotClass (ab bc cd de hyst : Int) (state : Nat) (high : Int) : Nat :=
  let th := fun (i : Nat) (t : Int) => if state ≤ 4 then (if i < state then t + hyst else t - hyst) else t
  if th 0 ab ≤ high then 0 else if th 1 bc ≤ high then 1 else if th 2 cd ≤ high then 2 else if th 3 de ≤ high then 3 else 4

/-- STATE of a channel takes a value; a change sets its IRQ bit (R527). -/
def State.pilotAccept (s : State) (p : Fin 8) (st : Nat) : State :=
  let old := s.rd PILOT.pg PILOT.CH_STATE_STATE p
  if old = st then s
  else
    let s := (s.wr PILOT.pg PILOT.CH_STATE_STATE p st).irq PILOT.pg p
    if st = 1 then s.setPilot p { s.pilotChan p with newB := true } else s

/-- The end of a period of channel `p` (R524 to R528). -/
def State.pilotPeriod (s : State) (p : Fin 8) : State :=
  if !s.pilotSenses p then s.pilotUnknown p
  else
    let x := s.pilotChan p
    let isBlank := x.hiCount < 2
    let s := if isBlank then s else s.wr PILOT.pg PILOT.CH_LEVELS_HIGH p (x.hiSum / x.hiCount)
    let s := if x.loCount = 0 then s else s.wr PILOT.pg PILOT.CH_LEVELS_LOW p (x.loSum / x.loCount)
    let lows := 2 ≤ x.loCount
    let s := s.setPilot p { x with hiSum := 0, hiCount := 0, loSum := 0, loCount := 0 }
    let x := s.pilotChan p
    if s.rd PILOT.pg PILOT.CH_GEN_MODE p = 0 then
      let s := s.setPilot p { x with blank := 0 }
      (if isBlank then s else s.setSenseErr p false).pilotAccept p 5
    else if isBlank then
      let s := s.setPilot p { x with blank := x.blank + 1 }
      if x.blank + 1 = 5 then ((s.setSenseErr p true).wr PILOT.pg PILOT.CH_STATE_STATE p 6).irq PILOT.pg 8 else s
    else
      let t := fun (f : Fld) => (s.rd PILOT.pg f : Int)
      let low := s.rd PILOT.pg PILOT.CH_LEVELS_LOW p
      let c := pilotClass (t PILOT.TH0_TH_AB) (t PILOT.TH0_TH_BC) (t PILOT.TH1_TH_CD) (t PILOT.TH1_TH_DE) (t PILOT.TH2_HYST)
        (s.rd PILOT.pg PILOT.CH_STATE_STATE p) (s.rd PILOT.pg PILOT.CH_LEVELS_HIGH p)
      let known := 1 ≤ c && c ≤ 3
      let bad := known && lows && s.rd PILOT.pg PILOT.TH2_TH_DIODE < low
      let good := c = 0 || (known && lows && !bad)
      let c := if bad then 4 else c
      let s := s.setSenseErr p false
      let s := if bad then s.wr PILOT.pg PILOT.CH_STATE_DIODE_ERR p 1
        else if good then s.wr PILOT.pg PILOT.CH_STATE_DIODE_ERR p 0 else s
      let held := if x.cls = c then x.held + 1 else 1
      let s := s.setPilot p { x with blank := 0, cls := c, held := held }
      if s.rd PILOT.pg PILOT.CH_SENSE_DEBOUNCE p ≤ held then s.pilotAccept p c else s

/-- PILOT_PERIOD_END. -/
def State.pilotEnd (s : State) : State := (List.finRange 8).foldl (fun s (p : Fin 8) => s.pilotPeriod p) s

/-- The pilots after a mode tick (R521, R528). -/
def State.pilotModes (s : State) : State := (List.finRange 8).foldl (fun s (p : Fin 8) => s.pilotForce p) s.pilotShow

/-- The condition of R533. -/
def State.pilotInconsistent (s : State) : Bool :=
  let m := fun f => (s.merged PILOT.pg f : Int)
  let gap := 2 * m PILOT.TH2_HYST
  !(gap < m PILOT.TH0_TH_AB - m PILOT.TH0_TH_BC && gap < m PILOT.TH0_TH_BC - m PILOT.TH1_TH_CD &&
    gap < m PILOT.TH1_TH_CD - m PILOT.TH1_TH_DE && gap < m PILOT.TH1_TH_DE - m PILOT.TH2_TH_DIODE)

end Sys2Proof.Machine
end

