-- ==== Sys2Proof/Machine/Metro.lean ====
section
/-!
DEFINITION. Machine/Metro.lean: the legal meters, their records and the Pantry (10 R535 to R591).
-/
namespace Sys2Proof.Machine

def State.meter (s : State) (m : Fin 9) : Meter := s.metro.meter[m]
def State.setMeter (s : State) (m : Fin 9) (x : Meter) : State :=
  { s with metro := { s.metro with meter := s.metro.meter.set m x } }

/-! ### Channels (R538 to R541) -/

/-- One captured bit (R458, R457 with N = 3 and M = 250). -/
def MetChan.bit (x : MetChan) (b : Bool) : MetChan :=
  let same := match x.bits with
    | y :: _ => if y = b then x.same + 1 else 1
    | [] => 1
  let x := if 64 ≤ x.same && same = 1 then { x with since := 0, bad := true } else x
  let since := x.since + 1
  { x with bits := (b :: x.bits).take 748, same := same, since := since, bad := x.bad && (since < 750 || 64 ≤ same) }

/-- A window of captured bits: 250 of them (R539). A window with fewer is a clock that was absent (R459). -/
def MetChan.window (x : MetChan) (bits : List Bool) : MetChan :=
  if bits.length < 250 then { x with noClk := true, prev := x.res, old := x.prev }
  else
    let bits := bits.take 250
    let x := if x.noClk then { res := x.res, prev := x.prev } else x
    let x := bits.foldl MetChan.bit x
    { x with prev := x.res, old := x.prev, res := if 748 ≤ x.bits.length then dsfMain 3 250 x.bits else x.res }

/-- The channel is invalid (R540). -/
def MetChan.invalid (x : MetChan) : Bool := x.noClk || 64 ≤ x.same || x.bad

/-- A result at either end of its range (R541). -/
def MetChan.beyondRange (x : MetChan) : Bool := x.res = -(2 ^ 23) || x.res = 2 ^ 23 - 1

/-! ### Calibration (R546, R548) -/

/-- `n` bytes from offset `i` of a block, as a number. -/
def blockNat (b : List Byte) (i n : Nat) : Nat := ofLeBytes ((b.drop i).take n)

def State.calNat (s : State) (i n : Nat) : Nat := blockNat s.metro.cal i n
def State.calScale (s : State) (c : Nat) : Rat := ratOf (s.calNat (8 + 12 * c) 4)

/-- METER_EN of the block in force. -/
def State.meterEn (s : State) (m : Nat) : Bool := bitOf (s.calNat 2 2) m

/-- The entry of channel `c` lies in its ranges (R548). -/
def calEntryOk (b : List Byte) (c : Nat) : Bool :=
  let sc := blockNat b (8 + 12 * c) 4
  let off := signedOf 32 (blockNat b (12 + 12 * c) 4)
  let dl := signedOf 16 (blockNat b (16 + 12 * c) 2)
  blockNat b (18 + 12 * c) 2 = 0 &&
  if 22 ≤ c then sc = 0x3F800000 && off = 0 && dl = 0
  else finBits sc && ratOf 0x3DCCCCCD ≤ ratOf sc && ratOf sc ≤ 100000 && -65536 ≤ off && off ≤ 65536 && -25000 ≤ dl && dl ≤ 25000

/-- A calibration block is in range (R548). -/
def calOk (b : List Byte) : Bool :=
  b.length = 296 && blockNat b 0 1 ≤ 79 && blockNat b 1 1 ≤ 79 && blockNat b 2 2 < 512 && blockNat b 4 4 = 0 &&
    (List.range 24).all fun c => calEntryOk b c

/-- DELAY of channel `c` in ns. -/
def State.calDelay (s : State) (c : Fin 24) : Int := signedOf 16 (s.calNat (16 + 12 * c) 2)

/-- The count of channel `c` after its DELAY (R546, R547): interpolated between the two samples around the shifted instant. `late`: that
instant counts from the sample before the last one. -/
def State.calCount (s : State) (late : Bool) (c : Fin 24) : Rat :=
  let x := s.metro.chan[c]
  let d := s.calDelay c
  let at_ := if late then x.prev else x.res
  let near := if d < 0 then x.res else if late then x.old else x.prev
  (at_ : Rat) + ((near - at_ : Int) : Rat) * (d.natAbs : Nat) / 25000

/-- The calibrated value of a channel (R546). -/
def State.calValue (s : State) (late : Bool) (c : Fin 24) : Rat :=
  (s.calCount late c - signedOf 32 (s.calNat (12 + 12 * c) 4)) * s.calScale c / 2 ^ 23

/-- The voltage and current channels of a meter (R537). -/
def meterChans (m : Nat) : List Nat × List Nat := if m < 8 then ([2 * m], [2 * m + 1]) else ([16, 17, 18], [19, 20, 21])

/-- The creep threshold of a meter, W (R544). -/
def State.creep (s : State) (m : Nat) : Rat :=
  (if m < 8 then s.calScale (2 * m) * s.calScale (2 * m + 1) else 3 * s.calScale 16 * s.calScale 19) * mkRat 2 100000

/-! ### Energy (R542 to R545, R549) -/

/-- Some channel of a list is shifted towards the sample after the last one, which is not known yet: a meter of such a channel forms its
power one sample later (DESIGN CHOICE, log entry 39). -/
def State.calLate (s : State) (cs : List Nat) : Bool := cs.any fun c => s.calDelay (Fin.ofNat 24 c) < 0

/-- The calibrated values of a list of channels. -/
def State.calValues (s : State) (late : Bool) (cs : List Nat) : List Rat := cs.map fun c => s.calValue late (Fin.ofNat 24 c)

/-- A register and its 32-bit fraction after `q` µWh more. A fraction below its last bit rounds either way: `up` is free. -/
def addEnergy (whole frac : Nat) (q : Rat) (up : Bool) : Nat × Nat :=
  let x := q * 2 ^ 32
  let n := x.floor.toNat + (if up && (x.floor : Rat) ≠ x then 1 else 0)
  let t := whole * 2 ^ 32 + frac + n
  if 2 ^ 63 ≤ t / 2 ^ 32 then (2 ^ 63 - 1, 2 ^ 32 - 1) else (t / 2 ^ 32, t % 2 ^ 32)

/-- The meters accumulate: FW_OK, CAL_OK and RESTORED, in PROVISIONED or SEALED (R549, R551, R553, R585). -/
def State.accumulates (s : State) : Bool :=
  let f := fun x => s.flag METRO.pg x
  f METRO.STATUS_FW_OK && f METRO.STATUS_CAL_OK && f METRO.STATUS_RESTORED &&
    (s.lifecycle = lcPROVISIONED || s.lifecycle = lcSEALED)

def ratMean (l : List Rat) : Rat := if l = [] then 0 else l.foldl (· + ·) 0 / (l.length : Nat)

/-- The root mean square of column `k` of the last 200 ms. -/
def rmsCol (h : List (List Rat)) (k : Nat) : Rat :=
  sqrtR (ratMean (h.map fun r => (r.getD k 0) * (r.getD k 0)))

/-- POWER, VOLT and CURR of a meter (R589). -/
def State.meterMeans (s : State) (m : Fin 9) : State :=
  let h := (s.meter m).hist
  let mean := fun (g : Rat × List Rat × List Rat → List Rat) =>
    let rows := h.map g
    if m.val < 8 then ratMean (rows.map fun r => r.getD 0 0) else (rmsCol rows 0 + rmsCol rows 1 + rmsCol rows 2) / 3
  let s := s.wr METRO.pg METRO.POWER_VALUE m (f32 (ratMean (h.map fun x => x.1))).toNat
  let s := s.wr METRO.pg METRO.VOLT_VALUE m (f32 (mean fun x => x.2.1)).toNat
  s.wr METRO.pg METRO.CURR_VALUE m (f32 (mean fun x => x.2.2)).toNat

/-- What a sample of meter `m` adds to its session: the one that is open, and one whose END waits for its write, which is open again where
that record is discarded (R560, R567). -/
def State.sessSample (s : State) (m : Fin 9) (f : Session → Session) : State :=
  let s := s.setMeter m { s.meter m with sess := (s.meter m).sess.map f }
  { s with metro := { s.metro with
    pend := s.metro.pend.map fun r => if r.type = 3 && r.meter = m.val then { r with before := r.before.map f } else r } }

/-- A sample of meter `m` with an invalid channel: its `INVALID_SAMPLES` counts, whether or not the meter accumulates (R540). -/
def State.meterMissed (s : State) (m : Fin 9) : State := s.sessSample m fun y => { y with invalid := satInc 32 y.invalid }

/-- The sample of one meter (R540 to R544): with a calibration block in force its power is formed (R542, R589), and a meter that
accumulates adds it to a register (R544, R549). -/
def State.meterSample (s : State) (m : Fin 9) : State :=
  let (vc, ic) := meterChans m
  let chans := vc ++ ic
  let bad := chans.any fun c => (s.metro.chan[Fin.ofNat 24 c]).invalid
  let beyondRange := chans.any fun c => (s.metro.chan[Fin.ofNat 24 c]).beyondRange
  let was := s.flag METRO.pg METRO.MSTAT_CH_FAULT m
  let s := (s.setFlag METRO.pg METRO.MSTAT_CH_FAULT m bad).setFlag METRO.pg METRO.MSTAT_OVERRANGE m beyondRange
  let s := s.irqIf (bad && !was) PANTRY.pg 5
  let s := if bad then s.meterMissed m else s
  if s.metro.cal = [] then s
  else
    let vs := s.calValues (s.calLate chans) vc
    let is := s.calValues (s.calLate chans) ic
    let p := if bad then 0 else ((vs.zip is).map fun x => x.1 * x.2).foldl (· + ·) 0
    let x := s.meter m
    let (r, s) := s.freshWord
    let add := s.accumulates && s.meterEn m && s.creep m ≤ ratAbs p
    let (imp, impF) := if add && 0 < p then addEnergy x.imp x.impFrac (p / 144) r.msb else (x.imp, x.impFrac)
    let (exp, expF) := if add && p < 0 then addEnergy x.exp x.expFrac (-p / 144) r.msb else (x.exp, x.expFrac)
    let s := s.sessSample m fun y => { y with
      peak := if y.peak < ratAbs p then ratAbs p else y.peak
      fault := y.fault || bad
      beyondRange := y.beyondRange || beyondRange }
    let s := s.setMeter m { s.meter m with
      imp := imp, impFrac := impF, exp := exp, expFrac := expF
      readFault := x.readFault || bad, readOver := x.readOver || beyondRange, hist := ((p, vs, is) :: x.hist).take 8000 }
    s.meterMeans m

/-! ### What the pages show -/

/-- The number of record slots, 0 while no CFG is in force (R572). -/
def State.slots (s : State) : Nat := if s.metro.cfg then (2 ^ (19 + s.rd PANTRY.pg PANTRY.CFG_SIZE) - 1024) / 256 else 0

/-- The count part of a SEQ (R556). -/
def seqCount (q : Nat) : Nat := q % 2 ^ 56

/-- Records of the epoch above ACK_SEQ (R575). -/
def State.unacked (s : State) : Nat :=
  seqCount s.metro.next - (match s.pantry.ack with | some a => seqCount a + 1 | none => 0)

/-- The log is full (R575). -/
def State.logFull (s : State) : Bool := s.slots ≠ 0 && s.slots - 64 ≤ s.unacked

/-- The status that follows from the log (R575, R586, R589, R590). -/
def State.pantryShow (s : State) : State :=
  let full := s.logFull
  let was := s.flag PANTRY.pg PANTRY.STATUS_FULL
  let s := s.setFlag PANTRY.pg PANTRY.STATUS_FULL 0 full
  let s := s.irqIf (full && !was) PANTRY.pg 1
  let s := (s.wr PANTRY.pg PANTRY.UNACKED_COUNT 0 s.unacked).wr PANTRY.pg PANTRY.FREE_COUNT 0 (s.slots - 64 - s.unacked)
  let idle := s.metro.meter.toList.all fun x => x.sess.isNone
  let s := s.setFlag PANTRY.pg PANTRY.STATUS_FLUSHED 0 (idle && s.metro.pend = [] && s.metro.cmd.isNone && s.metro.fresh)
  let s := s.setFlag PANTRY.pg PANTRY.STATUS_WRITE_BUSY 0 (s.metro.pend ≠ [])
  let s := s.wr METRO.pg METRO.NEXT_SEQ_LO_SEQ 0 s.metro.next
  let s := (s.wr METRO.pg METRO.START_COUNT_COUNT 0 s.metro.startCount)
  let ack := s.pantry.ack.getD (2 ^ 64 - 1)
  let s := s.wr64 PANTRY.pg PANTRY.ACK_SEQ_LO_SEQ PANTRY.ACK_SEQ_HI_SEQ 0 ack
  (List.finRange 9).foldl (fun s (m : Fin 9) =>
    let x := (s.meter m).sess
    let s := s.wr METRO.pg METRO.IMP_LO_VALUE m (s.meter m).imp
    let s := s.wr METRO.pg METRO.INVALID_COUNT m ((x.map (·.invalid)).getD 0)
    let s := s.setFlag METRO.pg METRO.MSTAT_SESSION_OPEN m x.isSome
    let s := s.wr64 METRO.pg METRO.SESSION_LO_ID METRO.SESSION_HI_ID m ((x.map (·.id)).getD 0)
    s.wr64 METRO.pg METRO.BEGIN_LO_SEQ METRO.BEGIN_HI_SEQ m ((x.map (·.beginSeq)).getD 0)) s

/-- TIME_TRUSTED follows TRUSTED, and each change sets IRQ bit TRUST (R563). -/
def State.trustShow (s : State) : State :=
  let t := s.flag PTP.pg PTP.STATUS_TRUSTED
  let was := s.flag METRO.pg METRO.STATUS_TIME_TRUSTED
  (s.setFlag METRO.pg METRO.STATUS_TIME_TRUSTED 0 t).irqIf (t ≠ was) PANTRY.pg 6

/-- CAL_OK, METER_EN and CFG as shown (R549, R589). -/
def State.calShow (s : State) : State :=
  let s := s.setFlag METRO.pg METRO.STATUS_CAL_OK 0 (s.metro.cal ≠ [])
  let s := s.wr METRO.pg METRO.CFG_VIEW_METER_EN 0 (s.calNat 2 2)
  let s := (List.range 9).foldl (fun s m => s.setFlag METRO.pg METRO.MSTAT_ENABLED m (s.meterEn m)) s
  let s := s.wr METRO.pg METRO.CFG_VIEW_SIZE 0 (s.rd PANTRY.pg PANTRY.CFG_SIZE)
  (s.wr METRO.pg METRO.CFG_VIEW_CLK 0 (s.rd PANTRY.pg PANTRY.CFG_CLK)).wr METRO.pg METRO.CFG_VIEW_QUAD 0
    (s.rd PANTRY.pg PANTRY.CFG_QUAD)

/-- The epoch as shown (R589). -/
def State.epochShow (s : State) : State :=
  (s.wr METRO.pg METRO.EPOCH_EPOCH 0 s.epoch).wr METRO.pg METRO.EPOCH_LEFT 0 (255 - s.epoch)

/-! ### Records (R555 to R562) -/

/-- The metrology public key, and the identifiers in a record. -/
def State.metroPub (s : State) : List Byte := edPublic s.metroSeed
def State.keyId (s : State) : List Byte := hashBytes 8 s.metroPub
def State.fwId (s : State) : List Byte := s.sealedHash.take 8

/-- The precision time of a record, 0 while no time has been set since the start (R561). -/
def State.recTime (s : State) : Nat := if s.flag PTP.pg PTP.STATUS_TIME_SET then s.timeNow else 0

/-- A record with TRUST, time and CYC of now; its SEQ follows the records that wait. -/
def State.newRec (s : State) (type m : Nat) : PendRec :=
  let t := s.recTime
  { type := type, meter := m, seq := s.metro.next + s.metro.pend.length, timeS := t / 1000000000, timeNs := t % 1000000000,
    trust := s.trustBits, cyc := s.cyc.toNat, cycStart := s.cyc.toNat, start := s.metro.startCount }

def State.pushRec (s : State) (r : PendRec) : State :=
  ({ s with metro := { s.metro with pend := s.metro.pend ++ [r] } }).pantryShow

/-- The registers of a meter as a record takes them. -/
def PendRec.regs (r : PendRec) (x : Meter) : PendRec := { r with impStop := x.imp, expStop := x.exp }

/-- SESSION_BEGIN at its record instant (R559, R565, R567). -/
def State.sessionBegin (s : State) (m : Fin 9) (id : Nat) : State :=
  let x := s.meter m
  let r := (s.newRec 0x02 m).regs x
  let y : Session := { id := id, beginSeq := r.seq, imp := x.imp, exp := x.exp, timeS := r.timeS, timeNs := r.timeNs,
                       trust := r.trust, cyc := r.cyc }
  let bad := s.flag METRO.pg METRO.MSTAT_CH_FAULT m
  let beyondRange := s.flag METRO.pg METRO.MSTAT_OVERRANGE m
  let r := { r with session := id, impStart := x.imp, expStart := x.exp, cmd := true, after := some y, before := x.sess,
                    status := 2 * bit01 bad + 4 * bit01 beyondRange }
  (s.setMeter m { x with sess := some y }).pushRec r

/-- SESSION_END at its record instant; `cause` is END_CAUSE (R559, R568). -/
def State.sessionEnd (s : State) (m : Fin 9) (cause : Nat) (cmd : Bool) : State :=
  let x := s.meter m
  match x.sess with
  | none => s
  | some y =>
    let r := (s.newRec 0x03 m).regs x
    let data := leBytes 8 y.beginSeq ++ leBytes 8 y.timeS ++ leBytes 4 y.timeNs ++ leBytes 4 y.trust ++ leBytes 4 y.invalid ++
      leBytes 4 (f32 y.peak).toNat
    let r := { r with session := y.id, impStart := y.imp, expStart := y.exp, cycStart := y.cyc, data := data, cmd := cmd, before := some y,
                      status := 2 * bit01 y.fault + 4 * bit01 y.beyondRange + 256 * cause }
    (s.setMeter m { x with sess := none }).pushRec r

/-- READING at its record instant (R559). -/
def State.readingRec (s : State) (m : Fin 9) (id : Nat) : State :=
  let x := s.meter m
  let r := (s.newRec 0x05 m).regs x
  let r := { r with session := id, impStart := x.readImp, expStart := x.readExp, cycStart := x.readCyc, cmd := true,
                    read := (x.readImp, x.readExp, x.readCyc), readFault := x.readFault, readOver := x.readOver
                    status := 2 * bit01 x.readFault + 4 * bit01 x.readOver }
  (s.setMeter m { x with readImp := x.imp, readExp := x.exp, readCyc := s.cyc.toNat, readFault := false, readOver := false }).pushRec r

/-- The 256 bytes of a record with its SEQ and PREV_HASH (R555, R557, R558). -/
def State.recBytes (s : State) (r : PendRec) (seq : Nat) (reserve : Bool) : List Byte :=
  let test := s.lifecycle = lcPROVISIONED
  let status := r.status + bit01 test + 32 * bit01 reserve
  let pad := fun (n : Nat) (l : List Byte) => (l ++ List.replicate n 0).take n
  let body := leBytes 1 1 ++ leBytes 1 r.type ++ leBytes 1 r.meter ++ leBytes 1 r.trust ++ leBytes 4 status ++
    leBytes 8 r.session ++ leBytes 8 seq ++ leBytes 8 r.impStart ++ leBytes 8 r.expStart ++ leBytes 8 r.impStop ++
    leBytes 8 r.expStop ++ leBytes 8 r.timeS ++ leBytes 4 r.timeNs ++ leBytes 4 r.start ++ leBytes 8 r.cyc ++
    leBytes 8 r.cycStart ++ s.keyId ++ s.fwId ++ pad 56 r.data ++ pad 32 s.metro.prevHash
  body ++ edSign s.metroSeed body

/-- Bytes of the slot of count `c` (R572). -/
def State.slotAddr (s : State) (c : Nat) : Nat := 0x400 + 256 * (c % (max 1 s.slots))
def State.slotBytes (s : State) (c : Nat) : List Byte := (List.range 256).map fun i => s.pantry.bytes.get (s.slotAddr c + i)
def State.putSlot (s : State) (c : Nat) (bs : List Byte) : State :=
  let a := s.slotAddr c
  { s with pantry := { s.pantry with bytes := bs.zipIdx.foldl (fun m x => m.put (a + x.2) x.1) s.pantry.bytes } }

/-- A command completes (R566). -/
def State.pantryDone (s : State) (result : Nat) : State :=
  ((s.wr PANTRY.pg PANTRY.CMD_STATUS_BUSY 0 0).wr PANTRY.pg PANTRY.CMD_STATUS_RESULT 0 result).irq PANTRY.pg 3

/-- What a record in the Pantry means for the stored sessions. -/
def State.storeSession (s : State) (r : PendRec) : State :=
  if r.meter < 9 && (r.type = 2 || r.type = 3 || r.type = 4) then
    let m : Fin 9 := Fin.ofNat 9 r.meter
    s.setMeter m { s.meter m with stored := r.after }
  else s

/-- A record takes effect again as if it had not been made: the session and the reading values of its meter before it (R567). -/
def State.undoRec (s : State) (r : PendRec) : State :=
  if 9 ≤ r.meter then s
  else
    let m : Fin 9 := Fin.ofNat 9 r.meter
    let x := s.meter m
    if r.type = 2 || r.type = 3 then s.setMeter m { x with sess := r.before }
    else if r.type = 5 then
      s.setMeter m { x with readImp := r.read.1, readExp := r.read.2.1, readCyc := r.read.2.2
                            readFault := x.readFault || r.readFault, readOver := x.readOver || r.readOver }
    else s

/-- The pending records behind the first `kept` are discarded, the newest first; a command among them completes with `result`. -/
def State.dropRecs (s : State) (kept result : Nat) : State :=
  let gone := s.metro.pend.drop kept
  let s := gone.reverse.foldl State.undoRec s
  let s := { s with metro := { s.metro with pend := s.metro.pend.take kept } }
  if gone.any fun p => p.cmd then s.pantryDone result else s

/-- A discarded command was neither written nor refused: its RESULT is one of a refusal, and the spec does not say which (R566). -/
def State.discardRecs (s : State) (kept : Nat) : State :=
  let (r, s) := s.freshWord
  s.dropRecs kept (1 + r.toNat % 8)

/-- The metrology key is there to sign with (R553). -/
def State.canSign (s : State) : Bool := s.lifecycle = lcPROVISIONED || s.lifecycle = lcSEALED

/-- The first pending record is in the Pantry and verified (R556, R557, R566, R577, R579). -/
def State.recordStore (s : State) (r : PendRec) (rest : List PendRec) : State :=
  let q := s.metro.next
  if s.slots ≤ s.unacked then s
  else
    let lost := s.rd PANTRY.pg PANTRY.LOST_INTERRUPTIONS_COUNT
    let r := if r.type = 4 then { r with data := r.data ++ leBytes 4 lost } else r
    let bs := s.recBytes r q s.logFull
    let s := s.putSlot (seqCount q) bs
    let s := if r.type = 4 then s.wr PANTRY.pg PANTRY.LOST_INTERRUPTIONS_COUNT 0 0 else s
    let s := { s with metro := { s.metro with pend := rest, next := q + 1, prevHash := hashBytes 32 bs, fresh := false } }
    let s := s.storeSession r
    let s := if r.type = 5 && r.meter < 9 then
        { s with pantry := { s.pantry with
          reads := (List.range 9).map fun i => if i = r.meter then (r.impStop, r.expStop, r.cyc) else s.pantry.reads.getD i (0, 0, 0) } }
      else s
    let idle := s.metro.meter.toList.all fun x => x.stored.isNone
    let s := if idle then { s with metro := { s.metro with snapDue := s.metro.snapDue ++ [4] } } else s
    let s := s.irq PANTRY.pg 0
    let s := if r.cmd then (s.wr64 PANTRY.pg PANTRY.CMD_SEQ_LO_SEQ PANTRY.CMD_SEQ_HI_SEQ 0 q).pantryDone 0 else s
    s.pantryShow

/-- INTERRUPTION records that find UNACKED equal to N are not written but counted (R577), with fuel for each record. -/
def State.loseRecs (s : State) : Nat → State
  | 0 => s
  | k + 1 =>
    match s.metro.pend with
    | [] => s
    | r :: rest =>
      if r.type = 4 && s.slots ≤ s.unacked then
        let s := { s with metro := { s.metro with pend := rest } }
        (((s.wrapBump PANTRY.pg PANTRY.LOST_INTERRUPTIONS_COUNT).storeSession r).pantryShow).loseRecs k
      else s

/-- A restore is over once its records are written: RESTORED (R582). -/
def State.restoreEnd (s : State) : State :=
  let s := s.loseRecs 16
  if s.metro.restoring && s.metro.pend = [] then
    ({ s with metro := { s.metro with restoring := false } }.wr METRO.pg METRO.STATUS_RESTORED 0 1).pantryShow
  else s

/-- A write to the Pantry read back differently twice (R573). -/
def State.writeFault (s : State) : State :=
  ((s.wr PANTRY.pg PANTRY.STATUS_FAULT 0 1).bump PANTRY.pg PANTRY.WRITE_FAULTS_COUNT).irq PANTRY.pg 2

/-- Records are written: the key is there (R553), and no MET halt holds them (R920). -/
def State.writesRecords (s : State) : Bool := s.canSign && !s.flag DEBUG.pg DEBUG.HALTED_MET

/-- The write of the first pending record failed: it has begun and stays (R573, R580). -/
def State.recordFailed (s : State) (r : PendRec) (rest : List PendRec) : State :=
  { s with metro := { s.metro with pend := { r with begun := true } :: rest } }.writeFault

/-- RECORD_WRITTEN: the write in progress is done; `ok`: it read back as written, at the second attempt at the latest (R573). A write
that fails may be that of a record, of a snapshot or of an acknowledgement; the last two go on without the key (R553). -/
def State.recordWritten (s : State) (ok : Bool) : State :=
  if s.flag PANTRY.pg PANTRY.STATUS_FAULT || !s.flag PANTRY.pg PANTRY.STATUS_READY then s
  else
    match (if s.writesRecords then s.metro.pend else []) with
    | [] =>
      let writing := s.metro.ackDue || s.metro.latched ≠ []
      let s := if s.metro.ackDue then { s with metro := { s.metro with ackDue := false } } else s
      if writing && !ok then s.writeFault else s
    | r :: rest => if ok then (s.recordStore r rest).restoreEnd else s.recordFailed r rest

/-- PANTRY_REWRITE_RETRY: the held record is written again (R573), but during a MET halt (R920). -/
def State.rewriteRetry (s : State) (ok : Bool) : State :=
  if !s.flag PANTRY.pg PANTRY.STATUS_FAULT || s.flag DEBUG.pg DEBUG.HALTED_MET then s
  else if ok then
    let s := s.wr PANTRY.pg PANTRY.STATUS_FAULT 0 0
    match s.metro.pend with
    | [] => s
    | r :: rest => if s.canSign then (s.recordStore r rest).restoreEnd else s
  else (s.bump PANTRY.pg PANTRY.WRITE_FAULTS_COUNT).irq PANTRY.pg 2

/-! ### Commands (R548, R549, R553, R564, R565) -/

/-- The RESULT with which a command is refused, if it is, the log apart (R564). -/
def State.pantryRefused (s : State) (op m session : Nat) : Option Nat :=
  let f := fun x => s.flag METRO.pg x
  let sess := if m < 9 then (s.meter (Fin.ofNat 9 m)).sess else none
  if s.lifecycle = lcBLANK || s.lifecycle = lcRETURNED || f METRO.STATUS_EPOCHS_OUT then some 0x5
  else if !f METRO.STATUS_FW_OK then some 0x8
  else if !s.flag PANTRY.pg PANTRY.STATUS_READY || s.flag PANTRY.pg PANTRY.STATUS_FAULT then some 0x6
  else if !f METRO.STATUS_RESTORED || (op ≠ 4 && !f METRO.STATUS_CAL_OK) then some 0x8
  else if op = 4 then if s.lifecycle ≠ lcPROVISIONED then some 0x5 else none
  else if 9 ≤ m || !s.meterEn m then some 0x1
  else if op = 1 && sess.isSome then some 0x2
  else if op = 2 && (sess.map (·.id)) ≠ some session then some 0x3
  else none

/-- The 296 bytes at CAL_SRC, if they lie in Main SRAM below 0x103C_0000 and can be read. -/
def State.calBlock (s : State) : Option (List Byte) × State :=
  let a := s.rd PANTRY.pg PANTRY.CAL_SRC_ADDR
  if !inSram a 296 then (none, s)
  else
    let (ok, s) := (List.range 38).foldl (fun (x : Bool × State) i =>
      let b := if a % 8 = 0 then a + 8 * i else a - a % 8 + 8 * i
      if b < a + 296 then
        let (ok, s) := x.2.eccCheck b
        (x.1 && ok, s)
      else x) (true, s)
    (if ok then some (s.bytesAt a 296) else none, s)

/-- CAL_LOAD (R548). -/
def State.calLoad (s : State) : State :=
  match s.calBlock with
  | (some b, s) => if calOk b then (({ s with metro := { s.metro with cal := b } }).calShow).pantryDone 0 else s.pantryDone 0x7
  | (none, s) => s.pantryDone 0x7

/-- A write of `CMD` that is not refused at once (R564). -/
def State.pantryCmd (s : State) (op m : Nat) : State :=
  let session := s.rd64 PANTRY.pg PANTRY.SESSION_LO_ID PANTRY.SESSION_HI_ID
  let s := (s.wr PANTRY.pg PANTRY.CMD_STATUS_BUSY 0 1).wr PANTRY.pg PANTRY.CMD_STATUS_OP 0 op
  match s.pantryRefused op m session with
  | some r => s.pantryDone r
  | none =>
    if op = 4 then s.calLoad
    else { s with metro := { s.metro with cmd := some ⟨op, m, session, s.cyc⟩ } }

/-- Why a write of `CMD` is refused at the write, if it is (R564). -/
def State.pantryCmdRefused (s : State) (op : Nat) : Option Nat :=
  if s.flag PANTRY.pg PANTRY.CMD_STATUS_BUSY then some 0x05 else if op = 0 || 4 < op then some 0x03 else none

/-- The record instant of the waiting command (R565, R576). -/
def State.cmdInstant (s : State) : State :=
  match s.metro.cmd with
  | none => s
  | some c =>
    if s.since c.at_ < 250 then s
    else
      let s := { s with metro := { s.metro with cmd := none } }
      match s.pantryRefused c.op c.meter c.session with
      | some r => s.pantryDone r
      | none =>
        let m : Fin 9 := Fin.ofNat 9 c.meter
        if (c.op = 1 || c.op = 3) && s.logFull then s.pantryDone 0x4
        else if c.op = 1 then s.sessionBegin m c.session
        else if c.op = 2 then s.sessionEnd m 0 true
        else s.readingRec m c.session

/-- The record instant of the ends that SAFE_STOP causes (R568): of the sessions open at its mode tick those that are open still. -/
def State.endsInstant (s : State) : State :=
  match s.metro.ends with
  | none => s
  | some (t, open_) =>
    if s.since t < 250 then s
    else
      let s := { s with metro := { s.metro with ends := none } }
      if !s.canSign then s
      else (List.finRange 9).foldl (fun s (m : Fin 9) =>
        match (s.meter m).sess with
        | some y => if open_.contains y.beginSeq then s.sessionEnd m 1 false else s
        | none => s) s

/-! ### Snapshots (R579, R580) -/

/-- The session of meter `m` by the records in the Pantry, with what it has gathered: open still, or ended by a record that waits. -/
def State.recorded (s : State) (m : Fin 9) : Option Session :=
  let x := s.meter m
  x.stored.map fun y =>
    let ended := (s.metro.pend.filter fun r => r.type = 3 && r.meter = m.val).map (·.before)
    ((x.sess :: ended).findSome? fun z => z.filter fun z => z.beginSeq = y.beginSeq).getD y

/-- The bytes of a snapshot that its HMAC covers: its values in the order of the list before R579 (DESIGN CHOICE, log entry 39: R572 keeps the
layout inside the device). -/
def Snapshot.bytes (x : Snapshot) : List Byte :=
  let n := leBytes 8
  let sess := fun (y : Option Session) => match y with
    | none => leBytes 1 0
    | some y => leBytes 1 1 ++ n y.id ++ n y.beginSeq ++ n y.imp ++ n y.exp ++ n y.timeS ++ leBytes 4 y.timeNs ++ leBytes 1 y.trust ++
        n y.cyc ++ leBytes 4 y.invalid ++ leBytes 4 (f32 y.peak).toNat ++ leBytes 1 (bit01 y.fault + 2 * bit01 y.beyondRange)
  (x.regs.flatMap fun r => n r.1 ++ leBytes 4 r.2.1 ++ n r.2.2.1 ++ leBytes 4 r.2.2.2) ++ x.sessions.flatMap sess ++
    (x.flags.flatMap fun r => leBytes 1 (bit01 r.1 + 2 * bit01 r.2)) ++ n x.next ++ n (x.ack.getD (2 ^ 64 - 1)) ++ leBytes 4 x.startCount ++
    leBytes 4 x.lost ++ n x.timeS ++ leBytes 4 x.timeNs ++ leBytes 1 x.trust ++ n x.cyc ++ leBytes 1 x.cause

/-- HMAC-SHA-512 under the snapshot key, truncated to 32 bytes (04 Snapshots, R907). -/
def State.snapshotMac (s : State) (x : Snapshot) : List Byte := (hmac512 s.snapshotKey x.bytes).take 32

/-- A snapshot verifies (R582): it read back as it was written (`ok`), and its HMAC is that of this device's key. -/
def State.snapshotOk (s : State) (x : Snapshot) (ok : Bool) : Bool := ok && x.mac = s.snapshotMac x

/-- The values of a snapshot, latched at a sample instant: its sessions are those whose records are in the Pantry. -/
def State.snapshotValues (s : State) (cause : Nat) : Snapshot :=
  let t := s.recTime
  { flags := s.metro.meter.toList.map fun x => (x.readFault, x.readOver)
    regs := s.metro.meter.toList.map fun x => (x.imp, x.impFrac, x.exp, x.expFrac)
    sessions := (List.finRange 9).map s.recorded
    next := s.metro.next, ack := s.pantry.ack, startCount := s.metro.startCount
    lost := s.rd PANTRY.pg PANTRY.LOST_INTERRUPTIONS_COUNT
    timeS := t / 1000000000, timeNs := t % 1000000000, trust := s.trustBits, cyc := s.cyc.toNat, cause := cause }

def State.snapshotNow (s : State) (cause : Nat) : Snapshot :=
  let x := s.snapshotValues cause
  { x with mac := s.snapshotMac x }

/-- The cause of the one snapshot that is made for the causes that wait: PFW before KEEP before the others (R587). -/
def snapCause (l : List Nat) : Option Nat :=
  if l.contains 2 then some 2 else if l.contains 3 then some 3 else l.head?

/-- A snapshot that waits is latched at the sample instant; one latched before is written first. -/
def State.snapInstant (s : State) : State :=
  match snapCause s.metro.snapDue with
  | some c =>
    if s.flag METRO.pg METRO.STATUS_RESTORED then
      { s with metro := { s.metro with snapDue := [], latched := s.metro.latched ++ [s.snapshotNow c] } }
    else s
  | none => s

/-- The partition runs: from the end of BOOT on (R43), in P0 to P2 (R536). -/
def State.metroRuns (s : State) : Bool := s.flag METRO.pg METRO.STATUS_RUNNING && s.mode ≠ mBOOT && s.pwr.state ≤ 2

def State.snapWant (s : State) (cause : Nat) : State :=
  if !s.metroRuns then s
  else { s with metro := { s.metro with snapDue := s.metro.snapDue ++ [cause] } }

/-- SNAPSHOT_VERIFIED (R579, R580, R586): a PFW snapshot discards the records not yet begun; one whose write began and failed stays
(R573). -/
def State.snapVerified (s : State) : State :=
  match s.metro.latched with
  | [] => s
  | x :: more =>
    let s := { s with pantry := { s.pantry with snaps := (x :: s.pantry.snaps).take 2 } }
    let s := { s with metro := { s.metro with latched := more, fresh := x.next = s.metro.next } }
    let s := (s.wr PANTRY.pg PANTRY.SNAP_CAUSE 0 x.cause).wrapBump PANTRY.pg PANTRY.SNAP_COUNT_COUNT
    let s := if x.cause = 2 then s.discardRecs (s.metro.pend.countP fun r => r.begun) else s
    let s := { s with pwr := { s.pwr with
      keepDue := s.pwr.keepDue && (s.metro.snapDue.contains 3 || more.any fun y => y.cause = 3) } }
    s.pantryShow

/-! ### The sample instant -/

/-- METRO_SAMPLE with the bits that each of the 24 channels captured in the window (R538 to R546, R565, R568, R579). -/
def State.metroSample (s : State) (bits : List (List Bool)) : State :=
  if !s.metroRuns then s
  else
    let s := { s with metro := { s.metro with chan := Vector.ofFn fun i => (s.metro.chan[i]).window (bits.getD i []) } }
    let s := s.wrapBump METRO.pg METRO.SAMPLE_COUNT_COUNT
    let s :=
      if s.commitPending PANTRY.pg then
        let s := (s.boundary PANTRY.pg).wr PANTRY.pg PANTRY.STATUS_READY 0 0
        ({ s with metro := { s.metro with cfg := true } }).calShow
      else s
    let s := (List.finRange 9).foldl (fun s (m : Fin 9) => s.meterSample m) s
    ((s.cmdInstant.endsInstant).snapInstant).pantryShow

/-- Entry to SAFE_STOP at a mode tick (R568). -/
def State.metroSafeStop (s : State) : State :=
  { s with metro := { s.metro with
    ends := some (s.cyc, s.metro.meter.toList.filterMap fun x => x.sess.map (·.beginSeq)) } }

/-! ### Start, READY and restore (R551, R554, R571, R582 to R584) -/

/-- The partition starts at the end of BOOT (R535, R551): `hash` is the metrology image's. The calibration and `PANTRY.CFG` come from the
OTP array where a SEAL has fused them (R550), in RETURNED too. -/
def State.metroStart (s : State) (hash : List Byte) : State :=
  let lc := s.lifecycle
  let sealed_ := lc = lcSEALED
  let fused := s.groupBlown 2
  let ok := !sealed_ || hash = s.sealedHash
  let cal := if fused then s.sealedCal else []
  let s := { s with metro := { cal := cal, cfg := fused, sram := s.metro.sram } }
  let s := (s.setFlag METRO.pg METRO.STATUS_RUNNING 0 ok).setFlag METRO.pg METRO.STATUS_FW_OK 0 ok
  let s := s.setFlag METRO.pg METRO.STATUS_KEY_OK 0 (lc = lcPROVISIONED || sealed_)
  let s := s.setFlag METRO.pg METRO.STATUS_TEST 0 (lc = lcPROVISIONED)
  let s := if fused then
      let c := s.sealedCfg
      let s := (s.wr PANTRY.pg PANTRY.CFG_SIZE 0 c).wr PANTRY.pg PANTRY.CFG_CLK 0 (c / 4)
      s.wr PANTRY.pg PANTRY.CFG_QUAD 0 (c / 16)
    else s
  let s := (List.range 8).foldl (fun s i => s.wr METRO.pg METRO.FWHASH_BYTES i (blockNat s.sealedHash (4 * i) 4)) s
  let s := if lc = lcPROVISIONED || sealed_ then
      (List.range 8).foldl (fun s i => s.wr METRO.pg METRO.PUBKEY_BYTES i (blockNat s.metroPub (4 * i) 4)) s
    else s
  (s.calShow.epochShow).pantryShow

/-- The memory answered RDID with the density code given, or did not: READY (R571). -/
def State.pantryReady (s : State) (density : Option Nat) : State :=
  let ok := match density with
    | some d => s.rd PANTRY.pg PANTRY.CFG_SIZE ≤ d
    | none => false
  if s.metro.cfg && s.lifecycle ≠ lcBLANK && s.metroRuns then
    (s.setFlag PANTRY.pg PANTRY.STATUS_READY 0 ok).pantryShow
  else s

/-- RDID_RETRY: while READY is 0 (R571). -/
def State.rdidRetry (s : State) (density : Option Nat) : State :=
  if s.flag PANTRY.pg PANTRY.STATUS_READY then s else s.pantryReady density

/-- A GENESIS record (R559). -/
def State.genesis (s : State) (reason : Nat) : State :=
  let r := s.newRec 0x01 0xFF
  let data := leBytes 1 s.epoch ++ leBytes 1 reason ++ leBytes 2 (s.calNat 2 2) ++ leBytes 4 s.slots
  s.pushRec { r with data := data ++ hashBytes 32 s.metro.cal }

/-- The log, the registers and START_COUNT of a new chain; the means go on (R589). -/
def State.freshLog (s : State) (first : Nat) : State :=
  let s := s.discardRecs 0
  { s with
    metro := { s.metro with meter := s.metro.meter.map fun x => { hist := x.hist }, next := first, prevHash := [], startCount := 0
                            fresh := false }
    pantry := { bytes := [], bound := true, ack := none, snaps := [], reads := [] } }

/-- A new epoch (R583): an epoch bit is burnt; `reason` is that of GENESIS. False where no epoch remains. -/
def State.newEpoch (s : State) (reason : Nat) : Bool × State :=
  if 255 ≤ s.epoch then (false, s.wr METRO.pg METRO.STATUS_EPOCHS_OUT 0 1)
  else
    let s := (s.otpBurn (otpEpochs + s.epoch)).epochShow
    (true, (s.freshLog (s.epoch * 2 ^ 56)).genesis reason)

/-- A field of a stored record. -/
def recField (b : List Byte) (off n : Nat) : Nat := blockNat b off n

/-- The record in the slot of `q` continues the chain whose last hash is `h`. -/
def State.continues (s : State) (q : Nat) (h : List Byte) : Bool :=
  let b := s.slotBytes (seqCount q)
  recField b 0 1 = 1 && recField b 0x10 8 = q && ((b.drop 0xA0).take 32 = h || h = [])

/-- The session that a SESSION_BEGIN record opens. -/
def sessionOfRec (b : List Byte) : Session :=
  { id := recField b 8 8, beginSeq := recField b 0x10 8, imp := recField b 0x28 8, exp := recField b 0x30 8
    timeS := recField b 0x38 8, timeNs := recField b 0x40 4, trust := recField b 3 1, cyc := recField b 0x48 8 }

/-- Step 3 and 4 of R582 for one record: registers never below its STOP values, and its session. -/
def State.restoreRec (s : State) (b : List Byte) : State :=
  let m := recField b 2 1
  let s := { s with metro := { s.metro with startCount := max s.metro.startCount (recField b 0x44 4) } }
  if 9 ≤ m then s
  else
    let ix : Fin 9 := Fin.ofNat 9 m
    let x := s.meter ix
    let imp := recField b 0x28 8
    let exp := recField b 0x30 8
    let x := { x with imp := max x.imp imp, impFrac := if x.imp < imp then 0 else x.impFrac,
                      exp := max x.exp exp, expFrac := if x.exp < exp then 0 else x.expFrac }
    let t := recField b 1 1
    let x := if t = 2 then { x with sess := some (sessionOfRec b), stored := some (sessionOfRec b) }
      else if t = 3 || t = 4 then { x with sess := none, stored := none }
      else if t = 5 then { x with readFault := false, readOver := false } else x
    s.setMeter ix x

/-- The forward walk of step 3, with fuel for each slot. -/
def State.walk (s : State) : Nat → Nat → List Byte → State
  | 0, _, _ => s
  | k + 1, q, h =>
    if s.continues q h then
      let b := s.slotBytes (seqCount q)
      let s := s.restoreRec b
      let s := { s with metro := { s.metro with next := q + 1, prevHash := hashBytes 32 b } }
      s.walk k (q + 1) (hashBytes 32 b)
    else s

/-- The epoch part of the SEQ values now: test records carry 0xFF (R554, R556). -/
def State.seqEpoch (s : State) : Nat := if s.lifecycle = lcPROVISIONED then 0xFF else s.epoch

/-- The lowest SEQ of the epoch that a slot holds. -/
def State.oldest (s : State) : Nat :=
  let seqs := (List.range s.slots).filterMap fun c =>
    let b := s.slotBytes c
    if recField b 0 1 = 1 && recField b 0x10 8 / 2 ^ 56 = s.seqEpoch then some (recField b 0x10 8) else none
  seqs.min?.getD (s.seqEpoch * 2 ^ 56)

/-- Steps 2 to 4 of R582 from the newest snapshot that verifies, or from the oldest record held; FLUSHED's snapshot is then later than every
record where no record follows it (R586). `SNAP.CAUSE` shows its cause (R591). -/
def State.restoreFrom (s : State) (snap : Option Snapshot) : State :=
  match snap with
  | some x =>
    let s := { s with metro := { s.metro with
      meter := Vector.ofFn fun i =>
        let r := x.regs.getD i (0, 0, 0, 0)
        let y := (x.sessions.getD i none)
        let rd := s.pantry.reads.getD i (0, 0, 0)
        { imp := r.1, impFrac := r.2.1, exp := r.2.2.1, expFrac := r.2.2.2, sess := y, stored := y,
          readImp := rd.1, readExp := rd.2.1, readCyc := rd.2.2, readFault := (x.flags.getD i (false, false)).1
          readOver := (x.flags.getD i (false, false)).2, hist := (s.metro.meter[i]).hist }
      startCount := x.startCount
      next := x.next } }
    let s := (s.wr PANTRY.pg PANTRY.LOST_INTERRUPTIONS_COUNT 0 x.lost).wr PANTRY.pg PANTRY.SNAP_CAUSE 0 x.cause
    let last := s.slotBytes (seqCount (x.next - 1))
    let s := { s with metro := { s.metro with prevHash := if seqCount x.next = 0 then [] else hashBytes 32 last } }
    let s := s.walk s.slots x.next s.metro.prevHash
    { s with metro := { s.metro with fresh := s.metro.next = x.next } }
  | none =>
    let q := s.oldest
    let s := { s with metro := { s.metro with
      meter := Vector.ofFn fun i =>
        let rd := s.pantry.reads.getD i (0, 0, 0)
        { readImp := rd.1, readExp := rd.2.1, readCyc := rd.2.2, hist := (s.metro.meter[i]).hist }
      next := q } }
    s.walk s.slots q []

/-- An INTERRUPTION record of meter `m`, or of the whole device (R559, R582, R584). -/
def State.interruption (s : State) (m : Option (Fin 9)) (snap : Option Snapshot) : State :=
  let cause := (snap.map (·.cause)).getD 0
  let flags := 8 * bit01 (cause = 1 || cause = 3) + 16 * bit01 snap.isNone + 512
  let y := match m with
    | some m => (s.meter m).sess
    | none => none
  let r := s.newRec 0x04 (match m with | some m => m.val | none => 0xFF)
  let g := fun (f : Snapshot → Nat) => (snap.map f).getD 0
  let data := leBytes 8 ((y.map (·.beginSeq)).getD 0) ++ leBytes 8 (g (·.timeS)) ++ leBytes 4 (g (·.timeNs)) ++ leBytes 1 (g (·.trust)) ++
    leBytes 1 cause ++ leBytes 2 0 ++ leBytes 8 (g (·.cyc))
  let r := { r with status := flags, data := data }
  match m, y with
  | some m, some y =>
    let x := s.meter m
    let r := (r.regs x)
    let r := { r with session := y.id, impStart := y.imp, expStart := y.exp,
                      status := r.status + 2 * bit01 y.fault + 4 * bit01 y.beyondRange }
    (s.setMeter m { x with sess := none }).pushRec r
  | _, _ => s.pushRec r

/-- Step 6 of R582. -/
def State.interruptions (s : State) (snap : Option Snapshot) : State :=
  let open_ := (List.finRange 9).filter fun (m : Fin 9) => (s.meter m).sess.isSome
  if open_.isEmpty then s.interruption none snap else open_.foldl (fun s m => s.interruption (some m) snap) s

/-- METRO_RESTORE (R582). The Pantry's header as found: blank or foreign, or bound to this device's key with a readable
chain; and which of the two snapshots read back as they were written, newest first. In PROVISIONED no epoch begins and the records start a test chain of
their own (R554); in RETURNED the log is read and no record is written (R553). RESTORED comes with the last record written. -/
def State.metroRestore (s : State) (blank foreign newOk oldOk : Bool) : State :=
  let f := fun x => s.flag METRO.pg x
  let lc := s.lifecycle
  if s.mode = mBOOT || !f METRO.STATUS_RUNNING || !f METRO.STATUS_FW_OK || f METRO.STATUS_RESTORED ||
      s.metro.restoring || !s.flag PANTRY.pg PANTRY.STATUS_READY || lc = lcBLANK then s
  else
    let snap := match s.pantry.snaps with
      | [] => none
      | [x] => if s.snapshotOk x newOk then some x else none
      | x :: y :: _ => if s.snapshotOk x newOk then some x else if s.snapshotOk y oldOk then some y else none
    let finish := fun (s : State) => ({ s with metro := { s.metro with restoring := true } }).restoreEnd.pantryShow
    let unread := blank || foreign || !s.pantry.bound
    if lc = lcRETURNED then
      let s := if unread then s else s.restoreFrom snap
      finish { s with metro := { s.metro with startCount := s.metro.startCount + 1 } }
    else if lc = lcPROVISIONED then
      let s := if unread then s.freshLog 0 else s.restoreFrom snap
      let s := { s with metro := { s.metro with next := 0xFF * 2 ^ 56, prevHash := [], startCount := s.metro.startCount + 1 } }
      let s := { s with pantry := { s.pantry with ack := none } }
      finish (s.interruptions (if unread then none else snap))
    else if unread then
      let (ok, s) := s.newEpoch (if foreign && !blank then 2 else 1)
      if ok then
        let s := { s with metro := { s.metro with startCount := 1 } }
        finish (s.interruption none none)
      else s
    else
      let s := s.restoreFrom snap
      let s := { s with metro := { s.metro with startCount := s.metro.startCount + 1 } }
      finish (s.interruptions snap)

/-- The transition to SEALED (R550, R552): GENESIS of epoch 0. -/
def State.metroSeal (s : State) : State :=
  (((s.freshLog 0).genesis 0).wr METRO.pg METRO.STATUS_TEST 0 0).pantryShow

/-- The transition to RETURNED (R553, R588): the key is destroyed, records that wait are not signed, a command among them is refused with
RESULT 0x5, and nothing is a test record. A session that is open has no record that ends it and stays open (DEDUCED from R567). -/
def State.metroReturn (s : State) : State :=
  (((s.dropRecs 0 5).wr METRO.pg METRO.STATUS_KEY_OK 0 0).wr METRO.pg METRO.STATUS_TEST 0 0).pantryShow

/-- The entry to P3 or P4: READY is 0 there and until the memory has answered again (R571). -/
def State.metroSleep (s : State) : State := (s.wr PANTRY.pg PANTRY.STATUS_READY 0 0).pantryShow

/-! ### Acknowledgements and reads (R574, R578) -/

/-- A write of `ACK_SEQ_LO` is refused (R574). -/
def State.ackBad (s : State) (lo : Nat) : Bool :=
  let q := s.metro.ackHi * 2 ^ 32 + lo
  q / 2 ^ 56 ≠ s.metro.next / 2 ^ 56 || s.metro.next ≤ q ||
    match s.pantry.ack with
    | some a => q < a
    | none => false

/-- An accepted acknowledgement (R574). -/
def State.ackSeq (s : State) (lo : Nat) : State :=
  ({ s with pantry := { s.pantry with ack := some (s.metro.ackHi * 2 ^ 32 + lo) }
            metro := { s.metro with ackDue := true } }).pantryShow

/-- A write of `READ_SEQ_LO` starts a read (R578). -/
def State.readStart (s : State) (lo : Nat) : State :=
  let s := (s.wr PANTRY.pg PANTRY.READ_SEQ_LO_SEQ 0 lo).wr PANTRY.pg PANTRY.READ_STATUS_BUSY 0 1
  { s with metro := { s.metro with read := some (s.rd PANTRY.pg PANTRY.READ_SEQ_HI_SEQ * 2 ^ 32 + lo) } }

/-- READ_DONE; `memErr`: the memory did not answer (R578). -/
def State.readDone (s : State) (memErr : Bool) : State :=
  match s.metro.read with
  | none => s
  | some q =>
    let b := s.slotBytes (seqCount q)
    let held := s.slots ≠ 0 && recField b 0 1 = 1 && recField b 0x10 8 = q && q / 2 ^ 56 = s.metro.next / 2 ^ 56 && q < s.metro.next
    let s := { s with metro := { s.metro with read := none } }
    let s := if held && !memErr then
        (List.range 64).foldl (fun s w => s.wr PANTRY.pg PANTRY.RECBUF_BYTES w (recField b (4 * w) 4)) s
      else s
    let s := s.wr PANTRY.pg PANTRY.READ_STATUS_RESULT 0 (if memErr then 2 else if held then 0 else 1)
    (s.wr PANTRY.pg PANTRY.READ_STATUS_BUSY 0 0).irq PANTRY.pg 4

/-- A commit of `PANTRY.CFG` lies outside PROVISIONED (R550, R591). -/
def State.pantryCfgLocked (s : State) : Bool := s.lifecycle ≠ lcPROVISIONED

end Sys2Proof.Machine
end

