-- ==== Sys2Proof/Machine/SafeIo.lean ====
section
/-!
DEFINITION. Machine/SafeIo.lean: safety inputs, test pulses, safety frames, the safety demand and the supervisor watchdogs
(11 R592 to R638, R952).
-/
namespace Sys2Proof.Machine

/-- The bits of which a test holds. -/
def maskOf {n : Nat} (f : Fin n → Bool) : BitVec n :=
  BitVec.ofNat n ((List.finRange n).foldl (fun m i => m + if f i then 2 ^ i.val else 0) 0)

def State.sChan (s : State) (c : Fin 24) : SafeChan := s.safety.chan[c]
def State.setSChan (s : State) (c : Fin 24) (x : SafeChan) : State :=
  { s with safety := { s.safety with chan := s.safety.chan.set c x } }
def State.tpOut (s : State) (k : Fin 4) : TestOut := s.safety.tp[k]
def State.setTp (s : State) (k : Fin 4) (x : TestOut) : State :=
  { s with safety := { s.safety with tp := s.safety.tp.set k x } }
def State.pairUnit (s : State) (q : Fin 8) : PairUnit := s.safety.pair[q]
def State.setPair (s : State) (q : Fin 8) (x : PairUnit) : State :=
  { s with safety := { s.safety with pair := s.safety.pair.set q x } }
def State.wdog (s : State) (x : Fin 2) : Wdog := s.safety.wdog[x]
def State.setWdog (s : State) (x : Fin 2) (w : Wdog) : State :=
  { s with safety := { s.safety with wdog := s.safety.wdog.set x w } }
def State.netChan (s : State) (q : Fin 8) : NetChan := s.safety.net[q]
def State.setNet (s : State) (q : Fin 8) (x : NetChan) : State :=
  { s with safety := { s.safety with net := s.safety.net.set q x } }

/-- The logic runs: after BOOT, in P0, P1 and P2 (R594). -/
def State.safetyRuns (s : State) : Bool := s.mode ≠ mBOOT && s.pwr.state ≤ 2

/-- EN in force (R595, R596). -/
def State.safeEn (s : State) : Bool := s.flag SAFEIO.pg SAFEIO.STATUS_EN

/-! ### Test pulses (R597, R600) -/

/-- Output `k` has a fault. -/
def State.tpFaulted (s : State) (k : Nat) : Bool :=
  bitOf (s.rd SAFEIO.pg SAFEIO.TPSTAT_FAULT_HIGH) k || bitOf (s.rd SAFEIO.pg SAFEIO.TPSTAT_FAULT_LOW) k

/-- Output `k` pulses: EN, TPEN, no fault. -/
def State.tpRuns (s : State) (k : Nat) : Bool :=
  s.safetyRuns && s.safeEn && bitOf (s.rd SAFEIO.pg SAFEIO.TPCFG_TPEN) k && !s.tpFaulted k

/-- TPSTAT.RUNNING and TP_FAULT follow. -/
def State.tpShow (s : State) : State :=
  let s := s.wr SAFEIO.pg SAFEIO.TPSTAT_RUNNING 0 ((List.range 4).foldl (fun n k => n + if s.tpRuns k then 2 ^ k else 0) 0)
  s.setFlag SAFEIO.pg SAFEIO.STATUS_TP_FAULT 0 ((List.range 4).any fun k => s.tpFaulted k)

/-- What TP_k shows (R597, R594, R774): high-impedance in a follower, energised outside its pulses. -/
def State.tpPin (s : State) (k : Fin 4) : PinLevel :=
  if !s.roleDrives then .hiz
  else if s.tpRuns k && !(s.tpOut k).low && s.flag SYS.pg SYS.STATUS_DIE_LINK_OK then .high else .low

/-- The pulse of TP_k starts now (R597): k × S after a multiple of PERIOD_MS, in a period that began after the last commit that
changed the schedule (R632). -/
def State.pulseDue (s : State) (k : Fin 4) : Bool :=
  let p := s.rd SAFEIO.pg SAFEIO.TPCFG_PERIOD_MS
  let now := s.cyc.toNat
  now % (250000 * p) = 25000 * (k * (10 * p / 4)) && s.safety.pulsesFrom ≤ now

/-- TEST_PULSE_START. -/
def State.pulseStart (s : State) (k : Fin 4) : State :=
  if s.tpRuns k && s.pulseDue k then
    s.setTp k { s.tpOut k with pulse := some (0, s.rd SAFEIO.pg SAFEIO.TPCFG_WIDTH), start := s.cyc, low := true }
  else s

/-- TEST_PULSE_END, W after the start. -/
def State.pulseEnd (s : State) (k : Fin 4) : State :=
  let x := s.tpOut k
  match x.pulse with
  | some (_, w) => if 25000 * w ≤ s.since x.start then s.setTp k { x with low := false } else s
  | none => s.setTp k { x with low := false }

/-- Output `k` takes a fault (R600): switched off, counted. -/
def State.tpFault (s : State) (k : Fin 4) (high : Bool) : State :=
  let s := s.putBit SAFEIO.pg (if high then SAFEIO.TPSTAT_FAULT_HIGH else SAFEIO.TPSTAT_FAULT_LOW) 0 k true
  let s := s.setTp k { s.tpOut k with low := false, lowRun := 0 }
  ((s.bump SAFEIO.pg SAFEIO.TEST_FAULT_COUNT_COUNT).irq SAFEIO.pg 2).tpShow

/-- The sample in progress is a check sample of output `k` (R598): 100 µs before the end of its pulse. -/
def TestOut.check (x : TestOut) : Bool :=
  match x.pulse with
  | some (i, w) => i + 1 = w
  | none => false

/-- The sample in progress lies after the pulse (R602). -/
def TestOut.over (x : TestOut) : Bool :=
  match x.pulse with
  | some (i, w) => w ≤ i
  | none => true

/-- The readback of output `k` at a sample (R600). -/
def State.tpSample (s : State) (k : Fin 4) (level : Bool) : State :=
  let x := s.tpOut k
  if !s.tpRuns k || !s.roleDrives then s
  else if x.check then if level then s.tpFault k true else s
  else if x.pulse.isSome then s
  else
    let n := if level then 0 else x.lowRun + 1
    if 2 ≤ n then s.tpFault k false else s.setTp k { x with lowRun := n }

/-! ### Channel checks and debounce (R602 to R604) -/

/-- The output that tests channel `c`, if one does. -/
def State.tpSrc (s : State) (c : Fin 24) : Option (Fin 4) :=
  let t := s.rd SAFEIO.pg SAFEIO.CHCFG_TPSRC c
  if t = 0 then none else some (Fin.ofNat 4 (t - 1))

/-- The sample is masked for channel `c` (R598). -/
def State.chMasked (s : State) (c : Fin 24) : Bool :=
  match s.tpSrc c with
  | some k => (s.tpOut k).pulse.isSome
  | none => false

/-- The output of channel `c` has a fault (R602, SOURCE_FAULT). -/
def State.srcFault (s : State) (c : Fin 24) : Bool :=
  match s.tpSrc c with
  | some k => s.tpFaulted k
  | none => false

/-- A check failure of channel `c` with its cause (R603, R952): the pair that holds it takes the lowest cause of the sample. -/
def State.chFail (s : State) (c : Fin 24) (cause : Nat) (count fresh : Bool) : State :=
  let x := s.sChan c
  let s := s.setSChan c { x with fail := x.fail || cause ≠ 4, src := x.src || cause = 4, passes := 0, sinceFail := 0 }
  let s := if count then (s.bump SAFEIO.pg SAFEIO.TEST_FAULT_COUNT_COUNT).irq SAFEIO.pg 2 else s
  if c.val < 16 then
    let q : Fin 8 := Fin.ofNat 8 (c.val / 2)
    let x := s.pairUnit q
    if x.cause = 0 || (fresh && cause < x.cause) then s.setPair q { x with cause := cause } else s
  else s

/-- One sample of channel `c`; `faulted` are the outputs that took a fault at this sample, `first` the pairs whose cause was
clear before it. A check failure counts once, a source fault when it begins; where the output took its fault at its own check sample, its
channels' failures are in that one count (R603, R632). -/
def State.chSample (s : State) (c : Fin 24) (raw : Bool) (faulted : BitVec 4) (first : BitVec 8) : State :=
  let x := s.sChan c
  let own := s.tpSrc c
  let masked := s.chMasked c
  let fresh := first.getLsbD (c.val / 2)
  let need := s.rd SAFEIO.pg SAFEIO.CHCFG_FILT_MS c * 10 + 1
  let x := if masked then x
    else if raw = x.deb then { x with run := 0 }
    else if need ≤ x.run + 1 then { x with deb := raw, run := 0 }
    else { x with run := x.run + 1 }
  let x := { x with sinceFail := x.sinceFail + 1, src := x.src && s.srcFault c }
  let s := s.setSChan c x
  if s.safety.skip then s
  else
    let ended : BitVec 4 := maskOf fun k => x.cross.getLsbD k && (s.tpOut k).over && !masked
    let s := s.setSChan c { x with cross := x.cross &&& ~~~ended }
    let s := if ended ≠ 0 && raw && x.deb then s.chFail c 3 true fresh else s
    let ownFault := match own with
      | some k => faulted.getLsbD k
      | none => false
    let atOwn := match own with
      | some k => (s.tpOut k).check
      | none => false
    let s := if s.srcFault c && x.deb then s.chFail c 4 (!x.src && !(ownFault && atOwn)) fresh else s
    let s :=
      if atOwn && raw && x.deb then s.chFail c 2 (!ownFault) fresh
      else if atOwn && raw then s.setSChan c { s.sChan c with passes := 0 }
      else if atOwn && !raw then
        let y := s.sChan c
        s.setSChan c { y with passes := y.passes + 1, fail := y.fail && y.passes + 1 < 2 }
      else s
    let foreign : BitVec 4 := maskOf fun k => (s.tpOut k).check && own ≠ some k
    let s := if foreign ≠ 0 && !raw && x.deb then s.setSChan c { s.sChan c with cross := (s.sChan c).cross ||| foreign } else s
    let y := s.sChan c
    if own.isNone && y.fail && 20 * s.rd SAFEIO.pg SAFEIO.TPCFG_PERIOD_MS ≤ y.sinceFail then s.setSChan c { y with fail := false } else s

/-- Channel `c` has a fault of R602: a source fault lasts as long as the fault of its output (R603). -/
def State.chBad (s : State) (c : Fin 24) : Bool := (s.sChan c).fail || ((s.sChan c).src && s.srcFault c)

/-- CHFAULT and LEVEL as reported (R595, R596, R603). CFB_CHANGE (R635). -/
def State.levelShow (s : State) : State :=
  let old := s.rd SAFEIO.pg SAFEIO.LEVEL_CH
  let f := fun (g : Fin 24 → Bool) => (List.finRange 24).foldl (fun n (c : Fin 24) => n + if g c then 2 ^ c.val else 0) 0
  let s := s.wr SAFEIO.pg SAFEIO.CHFAULT_CH 0 (if s.safeEn then f s.chBad else 0)
  let new := if s.safeEn then f fun c => (s.sChan c).deb && !s.chBad c else 0
  let s := s.wr SAFEIO.pg SAFEIO.LEVEL_CH 0 new
  s.irqIf (old / 2 ^ 16 ≠ new / 2 ^ 16) SAFEIO.pg 6

/-- SAFEIO_SAMPLE with the raw level of every channel and of every test output (R593, R600 to R604); without the
inter-die link every channel is de-energised (R20). -/
def State.safeSample (s : State) (raw : BitVec 24) (tp : BitVec 4) : State :=
  let raw := if s.flag SYS.pg SYS.STATUS_DIE_LINK_OK then raw else 0
  if !s.safetyRuns then s
  else if !s.safeEn then s.wr SAFEIO.pg SAFEIO.RAW_CH 0 raw.toNat
  else
    let s := match s.safety.skipUntil with
      | some t => if s.cyc < t then s else { s with safety := { s.safety with skip := false, skipUntil := none } }
      | none => s
    let s := s.wr SAFEIO.pg SAFEIO.RAW_CH 0 raw.toNat
    let was : BitVec 4 := maskOf fun k => s.tpFaulted k
    let s := (List.finRange 4).foldl (fun s (k : Fin 4) => s.tpSample k (tp.getLsbD k)) s
    let now : BitVec 4 := maskOf fun k => s.tpFaulted k
    let first : BitVec 8 := maskOf fun q => (s.pairUnit q).cause = 0
    let s := (List.finRange 24).foldl (fun s (c : Fin 24) => s.chSample c (raw.getLsbD c) (now &&& ~~~was) first) s
    let s := (List.finRange 4).foldl (fun s (k : Fin 4) =>
      let x := s.tpOut k
      s.setTp k { x with pulse := x.pulse.bind fun p => if p.1 < p.2 + 2 then some (p.1 + 1, p.2) else none }) s
    s.levelShow

/-! ### Pairs (R606 to R611) -/

/-- The states of R609. -/
abbrev pSAFE : Nat := 0
abbrev pACTIVE : Nat := 1
abbrev pDISC : Nat := 2
abbrev pFAULT : Nat := 3
abbrev pWAIT : Nat := 4
abbrev pOFF : Nat := 5

def State.level (s : State) (c : Nat) : Bool := bitOf (s.rd SAFEIO.pg SAFEIO.LEVEL_CH) c
def State.pairMode (s : State) (q : Nat) : Nat := s.rd SAFEIO.pg SAFEIO.PAIRCFG_MODE q
def State.pairValue (s : State) (q : Nat) : Bool := s.flag SAFEIO.pg SAFEIO.PAIRSTAT_VALUE q

/-- The active and the safe pattern (R606). -/
def State.pairActive (s : State) (q : Nat) : Bool := s.level (2 * q) && (s.level (2 * q + 1) = (s.pairMode q = 1))
def State.pairSafe (s : State) (q : Nat) : Bool := !s.level (2 * q) && (s.level (2 * q + 1) = (s.pairMode q = 2))

/-- A channel fault of R602 in either channel. -/
def State.pairBad (s : State) (q : Nat) : Bool := bitsOf (s.rd SAFEIO.pg SAFEIO.CHFAULT_CH) (2 * q) 2 ≠ 0

/-- The pair takes a state with its VALUE (R609, R611). -/
def State.pairEnter (s : State) (q : Fin 8) (st : Nat) (v : Bool) : State :=
  let old := s.pairValue q
  let s := (s.wr SAFEIO.pg SAFEIO.PAIRSTAT_STATE q st).setFlag SAFEIO.pg SAFEIO.PAIRSTAT_VALUE q v
  s.irqIf (old != v) SAFEIO.pg 0

/-- Entry to FAULT (R611). -/
def State.pairFault (s : State) (q : Fin 8) (cause : Nat) : State :=
  let s := (s.wr SAFEIO.pg SAFEIO.PAIRSTAT_CAUSE q cause).bump SAFEIO.pg SAFEIO.PAIRSTAT_FAULT_COUNT q
  (s.irq SAFEIO.pg 1).pairEnter q pFAULT false

/-- One safety tick of pair `q` (R607, R609, R610, R632). -/
def State.pairTick (s : State) (q : Fin 8) : State :=
  let x := s.pairUnit q
  let st := s.rd SAFEIO.pg SAFEIO.PAIRSTAT_STATE q
  let act := s.pairActive q
  let safe := s.pairSafe q
  let count := if act || safe then 0 else x.count + 1
  let bad := s.pairBad q
  let s := s.setPair q { x with count := count, ack := false, cause := if bad then x.cause else 0 }
  if s.pairMode q = 0 then s
  else if bad then if st = pFAULT then s else s.pairFault q x.cause
  else if safe then s.pairEnter q pSAFE false
  else if st = pFAULT then s
  else if act then
    let restart := s.flag SAFEIO.pg SAFEIO.PAIRCFG_RESTART q
    if st = pACTIVE || (st = pWAIT && x.ack) || (st = pDISC && x.from_ = pACTIVE) || ((st = pSAFE || st = pDISC) && !restart) then
      s.pairEnter q pACTIVE true
    else s.pairEnter q pWAIT false
  else if s.rd SAFEIO.pg SAFEIO.PAIRCFG_DISC_MS q ≤ count then s.pairFault q 0x1
  else if st = pDISC then s
  else (s.setPair q { s.pairUnit q with from_ := st }).pairEnter q pDISC (s.pairValue q)

/-- A pair as a commit that changes MODE or EN leaves it (R606); the cause of a channel fault that still stands is kept for the FAULT
that follows (R611). -/
def State.pairInit (s : State) (q : Fin 8) : State :=
  let bad := s.chBad (Fin.ofNat 24 (2 * q)) || s.chBad (Fin.ofNat 24 (2 * q + 1))
  (s.setPair q { cause := if bad then (s.pairUnit q).cause else 0 }).pairEnter q (if s.pairMode q = 0 then pOFF else pSAFE) false

/-! ### The demand (R621, R622) -/

/-- Channel `q` contributes. -/
def State.netDemands (s : State) (q : Nat) : Bool :=
  s.flag SAFENET.pg SAFENET.CH_CFG_DEMAND q && s.flag SAFENET.pg SAFENET.CH_CFG_EN q &&
    !s.flag SAFENET.pg SAFENET.CH_STAT_VALUE q

/-- SAFETY_DEMAND and what `STATUS` shows of it. -/
def State.demand (s : State) : State :=
  let pair := (List.range 8).any fun q => s.pairMode q ≠ 0 && s.flag SAFEIO.pg SAFEIO.PAIRCFG_DEMAND q && !s.pairValue q
  let net := (List.range 8).foldl (fun n q => n + if s.netDemands q then 2 ^ q else 0) 0
  let sw := s.flag SAFEIO.pg SAFEIO.DEMAND_SW_DEMAND
  let on := pair || net ≠ 0 || sw
  let was := s.flag SAFEIO.pg SAFEIO.STATUS_DEMAND
  let s := (s.setFlag SAFEIO.pg SAFEIO.STATUS_DEMAND_PAIR 0 pair).setFlag SAFEIO.pg SAFEIO.STATUS_DEMAND_NET 0 (net ≠ 0)
  let s := (s.setFlag SAFEIO.pg SAFEIO.STATUS_DEMAND_SW 0 sw).setFlag SAFEIO.pg SAFEIO.STATUS_DEMAND 0 on
  let s := s.wr SAFENET.pg SAFENET.STATUS_DEMAND 0 net
  (s.setSource 60 on).irqIf (on && !was) SAFEIO.pg 3

/-! ### Breaker and grid-loss pairs (R612) -/

/-- MB_CLOSED of Form Unit `n`. -/
def State.mbNow (s : State) (n : Fin 2) : Bool :=
  let (en, q) := if n = 0 then (SAFEIO.ASSIGN_MB_EN0, SAFEIO.ASSIGN_MB_PAIR0) else (SAFEIO.ASSIGN_MB_EN1, SAFEIO.ASSIGN_MB_PAIR1)
  s.flag SAFEIO.pg en && s.pairValue (s.rd SAFEIO.pg q)

/-- GRID_LOST of Form Unit `n`. -/
def State.glNow (s : State) (n : Fin 2) : Bool :=
  let (en, q) := if n = 0 then (SAFEIO.ASSIGN_GL_EN0, SAFEIO.ASSIGN_GL_PAIR0) else (SAFEIO.ASSIGN_GL_EN1, SAFEIO.ASSIGN_GL_PAIR1)
  s.flag SAFEIO.pg en && !s.pairValue (s.rd SAFEIO.pg q)

/-! ### Watchdogs (R624 to R628) -/

/-- The pair of watchdog `x` is debug-halted; a lock-step halt is none (R628). -/
def State.wdHalted (s : State) (x : Fin 2) : Bool :=
  if x = 0 then s.flag DEBUG.pg DEBUG.HALTED_SUPA && !s.sec.lsHaltA else s.flag DEBUG.pg DEBUG.HALTED_SUPB && !s.sec.lsHaltB

/-- Watchdog `x` counts (R628). -/
def State.wdRuns (s : State) (x : Fin 2) : Bool :=
  s.flag SAFEIO.pg SAFEIO.WDCFG_EN x && !bitOf (s.rd SAFEIO.pg SAFEIO.WDSTAT_EXPIRED) x && s.safetyRuns && !s.wdHalted x

/-- WDSTAT.RUN, STATUS.WDOG and source 59 follow. -/
def State.wdShow (s : State) : State :=
  let s := s.wr SAFEIO.pg SAFEIO.WDSTAT_RUN 0 (bit01 (s.wdRuns 0) + 2 * bit01 (s.wdRuns 1))
  let any := s.rd SAFEIO.pg SAFEIO.WDSTAT_EXPIRED ≠ 0
  (s.setFlag SAFEIO.pg SAFEIO.STATUS_WDOG 0 any).setSource 59 any

/-- Watchdog `x` expires (R625). -/
def State.wdExpire (s : State) (x : Fin 2) : State :=
  let s := s.putBit SAFEIO.pg SAFEIO.WDSTAT_EXPIRED 0 x true
  ((s.irq SAFEIO.pg 4).wdShow).safeStop 0x13 0 (s.selfCause 59)

/-- The window restarts, expecting 0xA5. -/
def State.wdStart (s : State) (x : Fin 2) : State := (s.setWdog x { last := s.cyc }).wdShow

/-- One safety tick of watchdog `x`. -/
def State.wdTick (s : State) (x : Fin 2) : State :=
  if s.wdRuns x then
    let w := s.wdog x
    let s := s.setWdog x { w with count := w.count + 1 }
    if s.rd SAFEIO.pg SAFEIO.WDCFG_WIN_MAX x ≤ w.count + 1 then s.wdExpire x else s
  else s

/-- A write of WDSVCx by its pair (R624, R625). -/
def State.wdService (s : State) (x : Fin 2) (token : Byte) : State :=
  if !s.flag SAFEIO.pg SAFEIO.WDCFG_EN x || bitOf (s.rd SAFEIO.pg SAFEIO.WDSTAT_EXPIRED) x then s
  else
    let w := s.wdog x
    let want : Byte := if w.next5A then 0x5A else 0xA5
    if s.since w.last < 250000 * s.rd SAFEIO.pg SAFEIO.WDCFG_WIN_MIN x || token ≠ want then s.wdExpire x
    else s.setWdog x { count := 0, next5A := !w.next5A, last := s.cyc }

/-- A write of WDCLEAR (R627). -/
def State.wdClear (s : State) (mask : Nat) : State :=
  (List.finRange 2).foldl (fun s (x : Fin 2) =>
    if bitOf mask x && bitOf (s.rd SAFEIO.pg SAFEIO.WDSTAT_EXPIRED) x then
      (s.putBit SAFEIO.pg SAFEIO.WDSTAT_EXPIRED 0 x false).wdStart x
    else s) s

/-- A write of WDCFGx took effect: a watchdog that is enabled by it starts (R624). -/
def State.wdConfig (s : State) (x : Fin 2) (was : Bool) : State :=
  if s.flag SAFEIO.pg SAFEIO.WDCFG_EN x && !was then s.wdStart x else s.wdShow

/-- A write of WDCFGx is refused for its range (R636). -/
def wdCfgBad (v : Nat) : Bool :=
  let hi := bitsOf v 0 10
  hi = 0 || 1000 < hi || hi ≤ bitsOf v 10 10

/-- WATCHDOG_EXPIRY: the safety tick at which the counter reaches WIN_MAX. -/
def State.wdExpiry (s : State) (x : Fin 2) : State :=
  if !s.wdRuns x then s
  else (s.setWdog x { s.wdog x with count := s.rd SAFEIO.pg SAFEIO.WDCFG_WIN_MAX x - 1 }).wdTick x

/-! ### Safety frames (R613 to R620) -/

/-- One byte of the CRC-32 of IEEE 802.3, bit by bit. -/
def crcByte (r : BitVec 32) (b : Byte) : BitVec 32 :=
  (List.range 8).foldl (fun r _ => if r.getLsbD 0 then (r >>> 1) ^^^ 0xEDB88320#32 else r >>> 1) (r ^^^ b.setWidth 32)

/-- CRC-32 with an initial register. -/
def crc32 (init : BitVec 32) (bs : List Byte) : BitVec 32 := ~~~(bs.foldl crcByte init)

/-- A big-endian number. -/
def beNat (bs : List Byte) : Nat := bs.foldl (fun n b => n * 256 + b.toNat) 0

/-- Bytes `off` to `off + n - 1` of a payload, big-endian. -/
def payNat (p : List Byte) (off n : Nat) : Nat := beNat ((p.drop off).take n)

/-- The states of R619. -/
abbrev nWAIT : Nat := 0
abbrev nRUN : Nat := 1
abbrev nSTOP : Nat := 2
abbrev nACK : Nat := 3
abbrev nFAULT : Nat := 4

def State.netState (s : State) (q : Nat) : Nat := s.rd SAFENET.pg SAFENET.CH_STAT_STATE q

/-- The channel takes a state; VALUE is 1 in RUN only (R619, R620). -/
def State.netEnter (s : State) (q : Fin 8) (st : Nat) : State :=
  let old := s.flag SAFENET.pg SAFENET.CH_STAT_VALUE q
  let v := st = nRUN
  let s := (s.wr SAFENET.pg SAFENET.CH_STAT_STATE q st).setFlag SAFENET.pg SAFENET.CH_STAT_VALUE q v
  let s := s.putBit SAFENET.pg SAFENET.STATUS_VALUE 0 q v
  (s.irqIf (old ≠ v) SAFENET.pg 0).demand

/-- Entry to FAULT (R620). -/
def State.netFault (s : State) (q : Fin 8) (cause : Nat) : State :=
  if s.netState q = nFAULT then s
  else ((s.wr SAFENET.pg SAFENET.CH_STAT_CAUSE q cause).irq SAFENET.pg 1).netEnter q nFAULT

/-- The compare window closes without the other copy (R617). -/
def State.netMiss (s : State) (q : Fin 8) : State :=
  match (s.netChan q).win with
  | none => s
  | some (p, _) =>
    let s := s.setNet q { s.netChan q with win := none }
    let s := s.bump SAFENET.pg (if p = 0 then SAFENET.CH_MISS_MISS_B else SAFENET.CH_MISS_MISS_A) q
    let was := bitOf (s.rd SAFENET.pg SAFENET.STATUS_DEGRADED) q
    (s.putBit SAFENET.pg SAFENET.STATUS_DEGRADED 0 q true).irqIf (!was) SAFENET.pg 2

/-- A copy is accepted (R616, R619). -/
def State.netAccept (s : State) (q : Fin 8) (p : Fin 2) (pay : List Byte) : State :=
  let s := s.netMiss q
  let s := s.wr SAFENET.pg SAFENET.CH_SEQ_LAST_SEQ q (payNat pay 4 4)
  let s := s.setNet q { win := some (p, pay.take 8), wd := 0, took := some s.cyc }
  let st := s.netState q
  if bitOf (payNat pay 1 1) 0 then
    if st = nWAIT then s.netEnter q nACK
    else if st = nSTOP then s.netEnter q (if s.flag SAFENET.pg SAFENET.CH_CFG_RESTART q then nACK else nRUN)
    else s
  else s.netEnter q nSTOP

/-- A valid copy (R616). -/
def State.netValid (s : State) (q : Fin 8) (p : Fin 2) (pay : List Byte) : State :=
  let d := (payNat pay 4 4 + 2 ^ 32 - s.rd SAFENET.pg SAFENET.CH_SEQ_LAST_SEQ q) % 2 ^ 32
  if s.netState q = nWAIT then s.netAccept q p pay
  else if d = 0 then
    match (s.netChan q).win with
    | some (p0, b) =>
      if p = p0 then s
      else if b = pay.take 8 then
        (s.setNet q { s.netChan q with win := none }).putBit SAFENET.pg SAFENET.STATUS_DEGRADED 0 q false
      else (s.setNet q { s.netChan q with win := none }).netFault q 2
    | none => s
  else if d ≤ s.rd SAFENET.pg SAFENET.CH_WD_MAX_GAP q then s.netAccept q p pay
  else if d < 2 ^ 31 then s.netFault q 3
  else s.bump SAFENET.pg SAFENET.CH_ERR_OLD q

/-- A copy is valid for channel `q` (R614, R615). -/
def State.netOk (s : State) (q : Fin 8) (pay : List Byte) : Bool :=
  let seed := BitVec.ofNat 32 (s.rd SAFENET.pg SAFENET.CH_SEED_SEED q)
  20 ≤ pay.length && payNat pay 0 1 = 1 && payNat pay 1 1 < 2 &&
    (List.range 8).all (fun i => pay.getD (8 + i) 0 = ~~~(pay.getD i 0)) &&
    payNat pay 0x10 4 = (crc32 (0xFFFFFFFF#32 ^^^ seed) (pay.take 16)).toNat

/-- The switch runs (R808). -/
def State.ethRuns (s : State) : Bool := s.flag ETHSW.pg ETHSW.CTRL_EN && s.pwr.state ≤ 2 && s.mode ≠ mBOOT

def linkFld (p : Nat) : Fld := if p = 0 then ETHSW.STATUS_LINK0 else ETHSW.STATUS_LINK1

/-- Port `p` carries frames. -/
def State.portLive (s : State) (p : Nat) : Bool := s.ethRuns && s.flag ETHSW.pg ETHSW.PORT_EN p && s.flag ETHSW.pg (linkFld p)

/-- A copy that the switch delivers from ETH0 or ETH1: what follows the EtherType of its frame (R613 to R616). -/
def State.netCopy (s : State) (p : Fin 2) (pay : List Byte) : State :=
  if !s.portLive p || !s.flag SAFENET.pg SAFENET.CTRL_EN || pay.length < 4 || !s.safetyRuns then s
  else
    match (List.finRange 8).find? fun (q : Fin 8) =>
        s.flag SAFENET.pg SAFENET.CH_CFG_EN q && s.rd SAFENET.pg SAFENET.CH_CFG_ID q = payNat pay 2 2 with
    | none => s
    | some q => if s.netOk q pay then s.netValid q p pay else s.bump SAFENET.pg SAFENET.CH_ERR_CRC_ERR q

/-- One safety tick of channel `q`'s watchdog (R618). -/
def State.netTick (s : State) (q : Fin 8) : State :=
  if !s.flag SAFENET.pg SAFENET.CH_CFG_EN q then s
  else
    let n := (s.netChan q).wd + 1
    let s := s.setNet q { s.netChan q with wd := n }
    if s.rd SAFENET.pg SAFENET.CH_WD_WD_MS q ≤ n then s.netFault q 1 else s

/-- SAFENET_WATCHDOG_FAULT: the safety tick at which the counter reaches WD_MS; none at the instant of an acceptance, which is taken
first (R632). -/
def State.netWatchdog (s : State) (q : Fin 8) : State :=
  if !s.safetyRuns || !s.flag SAFENET.pg SAFENET.CTRL_EN || !s.flag SAFENET.pg SAFENET.CH_CFG_EN q || (s.netChan q).took = some s.cyc then s
  else (s.setNet q { s.netChan q with wd := s.rd SAFENET.pg SAFENET.CH_WD_WD_MS q - 1 }).netTick q

/-- A write of `SAFENET.ACK` (R619). -/
def State.netAck (s : State) (mask : Nat) : State :=
  (List.finRange 8).foldl (fun s (q : Fin 8) => if bitOf mask q && s.netState q = nACK then s.netEnter q nRUN else s) s

/-- The fields of a frame channel. -/
def netFields : List Fld :=
  [SAFENET.CH_CFG_ID, SAFENET.CH_CFG_EN, SAFENET.CH_CFG_DEMAND, SAFENET.CH_CFG_RESTART, SAFENET.CH_SEED_SEED, SAFENET.CH_WD_WD_MS,
   SAFENET.CH_WD_MAX_GAP]

/-- A commit of SAFENET takes effect: a channel that it changes returns to WAIT (R619, R638). -/
def State.netBoundary (s : State) : State :=
  if !s.commitPending SAFENET.pg then s
  else
    let t := s.boundary SAFENET.pg
    ((List.finRange 8).foldl (fun t (q : Fin 8) =>
      if t.flag SAFENET.pg SAFENET.CTRL_EN != s.flag SAFENET.pg SAFENET.CTRL_EN ||
          netFields.any (fun f => t.rd SAFENET.pg f q ≠ s.rd SAFENET.pg f q) then (t.setNet q {}).netEnter q nWAIT else t) t).demand

/-! ### The safety tick, commits and the die link -/

/-- A commit of SAFEIO takes effect (R596, R600, R603, R606). After a loss of the link EN returns with one that was accepted in CONFIG
after the link's return (R22). -/
def State.safeBoundary (s : State) : State :=
  if !s.commitPending SAFEIO.pg then s
  else
    let was := s.safeEn
    let ok := !s.flag SAFEIO.pg SAFEIO.STATUS_RECOMMIT || s.safety.again
    let t := s.boundary SAFEIO.pg
    let en := t.flag SAFEIO.pg SAFEIO.CTRL_EN && ok
    let t := (t.setFlag SAFEIO.pg SAFEIO.STATUS_EN 0 en).setFlag SAFEIO.pg SAFEIO.CTRL_EN 0 en
    let t := if ok then t.wr SAFEIO.pg SAFEIO.STATUS_RECOMMIT 0 0 else t
    let t := (t.wr SAFEIO.pg SAFEIO.TPSTAT_FAULT_HIGH 0 0).wr SAFEIO.pg SAFEIO.TPSTAT_FAULT_LOW 0 0
    let per := 250000 * t.rd SAFEIO.pg SAFEIO.TPCFG_PERIOD_MS
    let same := en = was && [SAFEIO.TPCFG_PERIOD_MS, SAFEIO.TPCFG_WIDTH, SAFEIO.TPCFG_TPEN].all fun f =>
      t.rd SAFEIO.pg f = s.rd SAFEIO.pg f
    let t := if same then t else
      { t with safety := { t.safety with pulsesFrom := (t.cyc.toNat / per + 1) * per } }
    let t := if en = was then t else { t with safety := { t.safety with chan := Vector.replicate 24 {}, tp := Vector.replicate 4 {} } }
    let t := (List.finRange 8).foldl (fun t (q : Fin 8) =>
      if en ≠ was || t.pairMode q ≠ s.pairMode q then t.pairInit q else t) t
    ((t.tpShow).levelShow).demand

/-- SAFETY_TICK (R593, R607, R618, R625). -/
def State.safetyTick (s : State) : State :=
  let s := (s.safeBoundary).netBoundary
  if !s.safetyRuns then s
  else
    let s := if s.safeEn then (List.finRange 8).foldl (fun s (q : Fin 8) => s.pairTick q) s else s
    let s := (List.finRange 2).foldl (fun s (x : Fin 2) => s.wdTick x) s
    let s := if s.flag SAFENET.pg SAFENET.CTRL_EN then (List.finRange 8).foldl (fun s (q : Fin 8) => s.netTick q) s else s
    s.demand

/-- PAIR_DISCREPANCY_FAULT: the safety tick of pair `q` at which its counter reaches DISC_MS (R607). -/
def State.pairDiscrepancy (s : State) (q : Fin 8) : State :=
  if !s.safetyRuns || !s.safeEn || s.pairMode q = 0 then s
  else
    let x := s.pairUnit q
    ((s.setPair q { x with count := s.rd SAFEIO.pg SAFEIO.PAIRCFG_DISC_MS q - 1 }).pairTick q).demand

/-- A write of `SAFEIO.ACK`: the pairs in WAIT_ACK act on it at the next safety tick (R610). -/
def State.safeAck (s : State) (mask : Nat) : State :=
  (List.finRange 8).foldl (fun s (q : Fin 8) =>
    if bitOf mask q && s.rd SAFEIO.pg SAFEIO.PAIRSTAT_STATE q = pWAIT then s.setPair q { s.pairUnit q with ack := true } else s) s

/-- Loss of the inter-die link (R20, R596). -/
def State.safeLinkLoss (s : State) : State :=
  let s := (s.wr SAFEIO.pg SAFEIO.CTRL_EN 0 0).wr SAFEIO.pg SAFEIO.STATUS_EN 0 0
  let s := s.wr SAFEIO.pg SAFEIO.STATUS_RECOMMIT 0 1
  let s := { s with safety := { s.safety with chan := Vector.replicate 24 {}, tp := Vector.replicate 4 {}, again := false } }
  let s := (List.finRange 8).foldl (fun s (q : Fin 8) => s.pairInit q) s
  ((s.tpShow).levelShow).demand

/-- A set of SAFEIO was accepted: in CONFIG, with the link up, it is the commit of R22 and R596. -/
def State.safeAccepted (s : State) : State :=
  if s.mode = mCONFIG && s.flag SYS.pg SYS.STATUS_DIE_LINK_OK then { s with safety := { s.safety with again := true } } else s

/-- The conditions of R631 and R633. -/
def State.safeInconsistent (s : State) : Bool :=
  let m := fun f i => s.merged SAFEIO.pg f i
  let mode := fun q => m SAFEIO.PAIRCFG_MODE q
  let src := fun c => m SAFEIO.CHCFG_TPSRC c
  let named := [(SAFEIO.ASSIGN_MB_EN0, SAFEIO.ASSIGN_MB_PAIR0), (SAFEIO.ASSIGN_MB_EN1, SAFEIO.ASSIGN_MB_PAIR1),
    (SAFEIO.ASSIGN_GL_EN0, SAFEIO.ASSIGN_GL_PAIR0), (SAFEIO.ASSIGN_GL_EN1, SAFEIO.ASSIGN_GL_PAIR1)].filterMap fun x =>
      if m x.1 0 = 1 then some (m x.2 0) else none
  ((List.range 8).any fun q => mode q ≠ 0 && src (2 * q) ≠ 0 && src (2 * q) = src (2 * q + 1)) ||
  m SAFEIO.TPCFG_PERIOD_MS 0 * 10 / 4 < m SAFEIO.TPCFG_WIDTH 0 + 2 ||
  ((List.range 24).any fun c => src c ≠ 0 && !bitOf (m SAFEIO.TPCFG_TPEN 0) (src c - 1)) ||
  named.any (fun q => mode q = 0) || hasDup (named.map fun q => (q, 0, 0)) ||
  (List.range 8).any fun q => m SAFEIO.PAIRCFG_DEMAND q = 1 && mode q = 0

/-- Two enabled channels with one ID (R638). -/
def State.netInconsistent (s : State) : Bool :=
  let m := fun f i => s.merged SAFENET.pg f i
  hasDup ((List.range 8).filterMap fun q => if m SAFENET.CH_CFG_EN q = 1 then some (m SAFENET.CH_CFG_ID q, 0, 0) else none)

end Sys2Proof.Machine
end

