-- ==== Sys2Proof/Machine/Gdrv.lean ====
section
/-!
DEFINITION. Machine/Gdrv.lean: the integrated gate drivers and the Chimney (12 R639 to R680).
-/
namespace Sys2Proof.Machine

def State.legUnit (s : State) (n : Fin 12) : LegUnit := s.leg[n]
def State.setLeg (s : State) (n : Fin 12) (u : LegUnit) : State := { s with leg := s.leg.set n u }
def State.axisUnit (s : State) (a : Fin 4) : AxisUnit := s.axis[a]
def State.setAxis (s : State) (a : Fin 4) (u : AxisUnit) : State := { s with axis := s.axis.set a u }

/-- The states of R643. -/
abbrev gOFF : Nat := 0
abbrev gARMED : Nat := 1
abbrev gRUN : Nat := 2
abbrev gDIAG : Nat := 3
abbrev gFAULT : Nat := 4
abbrev gBRAKE : Nat := 5

/-- The states of R687. -/
abbrev aIDLE : Nat := 0
abbrev aHOLD : Nat := 1
abbrev aMOVE : Nat := 2
abbrev aHOMING : Nat := 3
abbrev aSTEP : Nat := 4
abbrev aGEAR : Nat := 5
abbrev aFAULT : Nat := 6

def State.legState (s : State) (n : Nat) : Nat := s.rd (GDRV.pg n) GDRV.STATUS_STATE
def State.legAxis (s : State) (n : Nat) : Nat := s.rd (GDRV.pg n) GDRV.CFG_AXIS % 4
def State.axisState (s : State) (a : Nat) : Nat := s.rd (AXIS.pg a) AXIS.STATUS_STATE

/-! ### What a leg does to its axis (R687, R688) -/

/-- The axis takes a state; a change sets STATE_CHANGE, and GEAR_STATUS.ENGAGED follows. -/
def State.setAxisState (s : State) (a : Fin 4) (st : Nat) : State :=
  let old := s.axisState a
  let s := (s.wr (AXIS.pg a) AXIS.STATUS_STATE 0 st).setFlag (AXIS.pg a) AXIS.GEAR_STATUS_ENGAGED 0 (st = aGEAR)
  let s := if st = aGEAR then s else s.wr (AXIS.pg a) AXIS.STATUS_GEAR_CLAMP 0 0
  s.irqIf (old ≠ st) (AXIS.pg a) 0

/-! ### What the two switches of a leg do (R640, R641, R653) -/

/-- DT and WIDTH in 5 ns steps (R641, R653). -/
def State.legDt (s : State) (n : Nat) : Rat := mkRat (2 * s.rd (GDRV.pg n) GDRV.DEADTIME_DT) 5
def State.legWidth (s : State) (n : Nat) : Rat := 2 * s.rd (GDRV.pg n) GDRV.REFRESH_WIDTH

/-- The command that leg `n` carries out now and the 5 ns steps since its start: a commanded edge appears 300 ns later (R640). -/
def State.legNow (s : State) (n : Fin 12) : Option (LegCmd × Rat) :=
  let u := s.legUnit n
  let at_ := fun (c : LegCmd) => mkRat (4 * (s.since c.start : Int) - 300) 5
  match u.cmd with
  | some c => if 0 ≤ at_ c then some (c, at_ c) else u.prev.map fun p => (p, at_ p)
  | none => none

/-- The 5 ns steps since the start of a refresh pulse in progress: high side off, DT, low side on for WIDTH, low side off, DT (R653). -/
def State.legPulse (s : State) (n : Fin 12) : Option Rat :=
  (s.legUnit n).pulse.bind fun p =>
    let t : Rat := mkRat (4 * (s.since p : Int)) 5
    if t < 2 * s.legDt n + s.legWidth n then some t else none

/-- A time in 5 ns steps, for a number of CYC ticks. -/
def stepsOf (ticks : Nat) : Rat := mkRat (4 * ticks) 5

/-- The intervals of command `c` in which a switch is on (true: the high side), in 5 ns steps from now; what is on behind the end of the
period stays on until `till`, the start of the next command. -/
def State.cmdSpans (s : State) (c : LegCmd) (till : Option Rat) : List (Bool × Rat × Rat) :=
  let t : Rat := mkRat (4 * (s.since c.start : Int) - 300) 5
  let end_ : Rat := (2 * c.per : Nat)
  let stop := till.getD (ratMax (end_ - t) 1)
  let high := match c.high with
    | some (a, b) => [(true, a - t, b - t)]
    | none => []
  let low := if end_ ≤ c.on then [(false, c.low - t, stop)] else [(false, c.low - t, c.on - t)]
  let tail := if c.tail < end_ then [(false, c.tail - t, stop)] else []
  ((low ++ high ++ tail).map fun x => (x.1, x.2.1, ratMin x.2.2 stop)).filter fun x => x.2.1 < x.2.2

/-- An interval that goes on where the one before it ends is one with it. -/
def joinSpans : List (Bool × Rat × Rat) → List (Bool × Rat × Rat)
  | [] => []
  | x :: l =>
    match joinSpans l with
    | y :: m => if x.1 = y.1 && x.2.2 = y.2.1 then (x.1, x.2.1, y.2.2) :: m else x :: y :: m
    | [] => [x]

/-- The intervals with what lies between `p` and `q` taken out. -/
def cutSpans (l : List (Bool × Rat × Rat)) (p q : Rat) : List (Bool × Rat × Rat) :=
  (l.flatMap fun x => [(x.1, x.2.1, ratMin x.2.2 p), (x.1, ratMax x.2.1 q, x.2.2)]).filter fun x => x.2.1 < x.2.2

/-- The intervals in which a switch of leg `n` is on, in 5 ns steps from now: the commands of the period in progress and of the one
before it, a refresh pulse in their place (R653); in BRAKE the low side. -/
def State.legSpans (s : State) (n : Fin 12) : List (Bool × Rat × Rat) :=
  let u := s.legUnit n
  if s.legState n = gBRAKE then
    match u.brake with
    | some (t, w) => [(false, w - stepsOf (s.since t), 1)]
    | none => []
  else if s.legState n = gRUN then
    let l := match u.cmd with
      | some c =>
        let begin_ : Rat := -(mkRat (4 * (s.since c.start : Int) - 300) 5)
        joinSpans ((match u.prev with
          | some p => s.cmdSpans p (some begin_)
          | none => []) ++ s.cmdSpans c none)
      | none => []
    match u.pulse with
    | some p =>
      let t := stepsOf (s.since p)
      let on := s.legDt n - t
      cutSpans l (-t) (on + s.legWidth n + s.legDt n) ++ [(false, on, on + s.legWidth n)]
    | none => l
  else []

/-- How long a switch that is on within the present tick, its turn-off included, has been on, in 5 ns steps. -/
def State.legOnFor (s : State) (n : Fin 12) (high : Bool) : Option Rat :=
  ((s.legSpans n).find? fun x => x.1 = high && x.2.1 < mkRat 4 5 && 0 ≤ x.2.2).map fun x => ratMin x.2.2 (mkRat 4 5) - x.2.1

/-- The 5 ns steps since the high side last turned off, where it is off (R641). -/
def State.highOffFor (s : State) (n : Fin 12) : Option Rat :=
  let ended := ((s.legSpans n).filter fun x => x.1 && x.2.2 ≤ 0).getLast?.map fun x => -x.2.2
  match ended, (s.legUnit n).left with
  | some t, _ => some t
  | none, some l => if l.high.isSome then some (stepsOf (s.since l.cyc)) else none
  | none, none => none

/-- The 5 ns steps from an entry to BRAKE now to the low side's turn-on, negative where it is on already (R641, R643). -/
def State.brakeDelay (s : State) (n : Fin 12) : Rat :=
  match s.legOnFor n false, s.legOnFor n true, s.highOffFor n with
  | some t, _, _ => -t
  | none, some _, _ => s.legDt n
  | none, none, some t => ratMax 0 (s.legDt n - t)
  | none, none, none => 0

/-! ### Leg states (R643 to R645) -/

/-- `REDUN.ROLE` is SOLO, ACTIVE or OWNER (R644): the role alone, whatever the member's state in its set. -/
def State.roleOwns (s : State) : Bool := [0, 1, 3].contains (s.rd REDUN.pg REDUN.ROLE_ROLE)

/-- The conditions of R644 that ARMED and RUN share with BRAKE. -/
def State.legPowered (s : State) (n : Nat) : Bool :=
  s.flag (GDRV.pg n) GDRV.CTRL_EN && (s.mode = mREADY || s.forming) && !s.pwr.away && s.roleOwns &&
    s.flag SYS.pg SYS.STATUS_DIE_LINK_OK && !s.flag (GDRV.pg n) GDRV.STATUS_RECOMMIT &&
    !s.flag CHIMNEY.pg CHIMNEY.STATUS_VGD_UV &&
    (s.flag (GDRV.pg n) GDRV.STATUS_DIAG_OK || !s.flag (GDRV.pg n) GDRV.CFG_DIAG_REQ)

/-- A leg with the same AXIS is in FAULT. -/
def State.axisLegFault (s : State) (n : Nat) : Bool :=
  (List.range 12).any fun m => s.legAxis m = s.legAxis n && s.legState m = gFAULT

/-- A leg may be in ARMED or RUN; a leg may be in BRAKE (R675: a fault of another leg does not end it). -/
def State.legMayRun (s : State) (n : Nat) : Bool :=
  s.legPowered n && !s.flag CHIMNEY.pg CHIMNEY.STATUS_MBOV && !s.axisLegFault n
def State.legMayBrake (s : State) (n : Nat) : Bool := s.legPowered n && s.flag CHIMNEY.pg CHIMNEY.CFG_OV_ACTION

/-- `FIXED` clamped to `[MIN, MAX]`. -/
def clampN (v lo hi : Nat) : Nat := if v < lo then lo else if hi < v then hi else v

/-- The source and the sink code as a new set of bounds, or entry to ARMED, leaves them (R650). -/
def State.legCodes (s : State) (n : Fin 12) (entry : Bool) : State :=
  let pg := GDRV.pg n
  let u := s.legUnit n
  let code := fun (was on : Bool) (now fixed lo hi : Nat) =>
    if !on then fixed else if entry || !was then clampN fixed lo hi else clampN now lo hi
  let src := s.flag pg GDRV.STRENGTH_SRC_ADAPT
  let snk := s.flag pg GDRV.STRENGTH_SNK_ADAPT
  let a := code u.srcAd src (s.rd pg GDRV.ADAPT_SRC_NOW) (s.rd pg GDRV.STRENGTH_SRC_FIXED) (s.rd pg GDRV.STRENGTH_SRC_MIN)
    (s.rd pg GDRV.STRENGTH_SRC_MAX)
  let b := code u.snkAd snk (s.rd pg GDRV.ADAPT_SNK_NOW) (s.rd pg GDRV.STRENGTH_SNK_FIXED) (s.rd pg GDRV.STRENGTH_SNK_MIN)
    (s.rd pg GDRV.STRENGTH_SNK_MAX)
  let s := (s.wr pg GDRV.ADAPT_SRC_NOW 0 a).wr pg GDRV.ADAPT_SNK_NOW 0 b
  s.setLeg n { u with srcAd := src, snkAd := snk }

/-- The gate-supply threshold in 0.1 V, of VGD and of every bootstrap supply (R656). -/
def State.vgdThr (s : State) : Nat := 75 + 10 * s.rd CHIMNEY.pg CHIMNEY.CFG_UV_SEL

/-- A set that waited for a switching period takes effect as the leg leaves RUN (R642, R645). -/
def State.legLeave (s : State) (n : Fin 12) : State :=
  let pg := GDRV.pg n
  if s.legState n = gRUN && s.commitPending pg then ((s.applySet pg).legCodes n false).commitDone pg else s

/-- The leg leaves RUN or BRAKE for state `st`: what was on is remembered; a low-side interval of at least WIDTH that ends here ends a
bootstrap lock-out where the voltage behind it, a free value, has come back (R655). -/
def State.legQuit (s : State) (n : Fin 12) (st : Nat) : State :=
  let hi := s.legOnFor n true
  let lo := s.legOnFor n false
  let wait := s.brakeDelay n
  let left := if s.legState n = gRUN || s.legState n = gBRAKE then some ⟨s.cyc, s.cyc, hi, lo⟩ else (s.legUnit n).left
  let s := s.setLeg n { s.legUnit n with left := left, brake := if st = gBRAKE then some (s.cyc, wait) else none }
  if st ≠ gBRAKE && s.flag (GDRV.pg n) GDRV.STATUS_GD_BOOT_UV && s.legWidth n ≤ lo.getD 0 then
    let (w, s) := s.freshWord
    if s.vgdThr + 4 ≤ w.toNat % 256 then s.wr (GDRV.pg n) GDRV.STATUS_GD_BOOT_UV 0 0 else s
  else s

/-- The leg takes a state (R643). -/
def State.setLegState (s : State) (n : Fin 12) (st : Nat) : State :=
  let old := s.legState n
  if old = st then s
  else
    let s := (s.legQuit n st).legLeave n
    let s := (s.setLeg n { s.legUnit n with cmd := none, prev := none, pulse := none, diag := 0, mend := none }).wr (GDRV.pg n) GDRV.STATUS_STATE 0 st
    let s := s.irq (GDRV.pg n) 4
    if st = gARMED then s.legCodes n true else s

/-- The axis gives a leg no more commands: RUN returns to ARMED (R643, R687). -/
def State.legRest (s : State) (n : Fin 12) : State := if s.legState n = gRUN then s.setLegState n gARMED else s

/-- The axis stands: position held, what was in progress ended, no more commands to its legs. -/
def State.axisStill (s : State) (a : Fin 4) : State :=
  let s := (List.finRange 12).foldl (fun s (n : Fin 12) => if s.legAxis n = a.val then s.legRest n else s) s
  let u := s.axisUnit a
  let s := s.setAxis a { u with vel := 0, acc := 0, jog := none, stop := false, limit := none, steps := [] }
  (s.wr (AXIS.pg a) AXIS.VEL_VALUE 0 0).wr (AXIS.pg a) AXIS.ACC_VALUE 0 0

/-- For MOTOR 0 the position reference is lost (R688). -/
def State.unhome (s : State) (a : Fin 4) : State :=
  if s.flag (AXIS.pg a) AXIS.CFG_MOTOR then s else s.wr (AXIS.pg a) AXIS.STATUS_HOMED 0 0

/-- The axis enters FAULT with a cause (R688, R703, R705, R710). -/
def State.axisFault (s : State) (a : Fin 4) (cause : Nat) : State :=
  if s.axisState a = aFAULT then s
  else
    let s := s.wr (AXIS.pg a) AXIS.STATUS_FAULT_CAUSE 0 cause
    let s := s.axisStill a
    ((s.setAxis a { s.axisUnit a with disable := false }).setAxisState a aFAULT).irq (AXIS.pg a) 4

/-- A leg of the axis faults (R688); with a stall at the same tick the cause is the leg's (R713). -/
def State.axisLegFaulted (s : State) (a : Fin 4) : State :=
  if s.axisState a = aFAULT then
    if (s.axisUnit a).stalled = some s.cyc then s.wr (AXIS.pg a) AXIS.STATUS_FAULT_CAUSE 0 1 else s
  else s.axisFault a 1

/-- The axis enters IDLE (R688, R689), from FAULT too; FAULT_CAUSE stays until CLEAR (DESIGN CHOICE, log entry 43). -/
def State.axisIdle (s : State) (a : Fin 4) : State :=
  let s := (s.unhome a).axisStill a
  (s.setAxis a { s.axisUnit a with disable := false }).setAxisState a aIDLE

/-- Leg `n` is in ARMED or RUN. -/
def State.legReady (s : State) (n : Nat) : Bool := s.legState n = gARMED || s.legState n = gRUN

/-- The leg enters OFF for a reason of R644, and with it every leg of its axis for which a condition fails too; its axis enters IDLE when
it was in ARMED or RUN (R688), or in any state with the mode change to CONFIG (R713). -/
def State.legOff (s : State) (n : Fin 12) : State :=
  let t := (List.finRange 12).foldl (fun t (m : Fin 12) =>
    if m = n || (s.legReady n && s.legAxis m = s.legAxis n && s.legReady m && !s.legMayRun m) then t.setLegState m gOFF else t) s
  if s.legReady n || s.mode = mCONFIG then t.axisIdle (Fin.ofNat 4 (s.legAxis n)) else t

/-- R644 evaluated for one leg. -/
def State.legCheck (s : State) (n : Fin 12) : State :=
  let st := s.legState n
  if st = gOFF then if s.legMayRun n then s.setLegState n gARMED else s
  else if st = gARMED || st = gRUN then if s.legMayRun n then s else s.legOff n
  else if st = gBRAKE then if s.legMayBrake n then s else s.legOff n
  else s

/-- R644 evaluated for every leg: what fails first, then what may leave OFF. -/
def State.legsCheck (s : State) : State := (List.finRange 12).foldl (fun s (n : Fin 12) => s.legCheck n) s

/-- Every leg in OFF, as VGD lock-out and link loss put it (R657, R645). -/
def State.legsOff (s : State) : State := (List.finRange 12).foldl (fun s (n : Fin 12) => s.legOff n) s

/-- The inter-die link is lost: legs in OFF and RECOMMIT set (R645). -/
def State.gdrvLinkLoss (s : State) : State :=
  ((List.finRange 12).foldl (fun s (n : Fin 12) => s.wr (GDRV.pg n) GDRV.STATUS_RECOMMIT 0 1) s).legsOff

/-- The mode changed (R644, R666). -/
def State.gdrvModes (s : State) : State :=
  let s := if s.mode = mCONFIG then
      (List.finRange 12).foldl (fun s (n : Fin 12) => s.wr (GDRV.pg n) GDRV.STATUS_DIAG_OK 0 0) s
    else s
  s.legsCheck

/-! ### Commits (R642, R645, R650, R678) -/

/-- A set of the page of leg `n` took effect. Only one that is accepted in CONFIG while the inter-die link is up is the commit that R22
asks for behind a loss of the link, and clears RECOMMIT (DEDUCED, log entry 42). -/
def State.gdrvCommit (s : State) (n : Fin 12) : State :=
  let s := if s.mode = mCONFIG && s.flag SYS.pg SYS.STATUS_DIE_LINK_OK then s.wr (GDRV.pg n) GDRV.STATUS_RECOMMIT 0 0 else s
  (s.legCodes n false).legsCheck

/-- The boundary of the page (R642): in RUN it waits for the switching period. -/
def State.gdrvWaits (s : State) (n : Nat) : Bool := s.legState n = gRUN

/-- A commit is refused with 0x04 (R678). -/
def State.gdrvInconsistent (s : State) (n : Nat) : Bool :=
  let pg := GDRV.pg n
  let m := fun f => s.merged pg f
  m GDRV.STRENGTH_SRC_MAX < m GDRV.STRENGTH_SRC_MIN || m GDRV.STRENGTH_SNK_MAX < m GDRV.STRENGTH_SNK_MIN ||
    (m GDRV.DIAG_PARTNER_EN = 1 && m GDRV.DIAG_PARTNER = n) ||
    (m GDRV.CTRL_EN = 1 && (List.range 12).any fun k =>
      k ≠ n && s.flag (GDRV.pg k) GDRV.CTRL_EN && s.legAxis k = m GDRV.CFG_AXIS && s.rd (GDRV.pg k) GDRV.CFG_LEG = m GDRV.CFG_LEG)

def State.chimneyInconsistent (s : State) : Bool :=
  let off := s.merged CHIMNEY.pg CHIMNEY.VM_THR_CHOP_OFF
  let on := s.merged CHIMNEY.pg CHIMNEY.VM_THR_CHOP_ON
  !(off < on && on < s.merged CHIMNEY.pg CHIMNEY.VM_THR_OV_TRIP)

/-- A set of the `CHIMNEY` page took effect: the high-voltage die holds it (R658, R679); without UV_EN nothing is locked out (R657). -/
def State.chimneyCommit (s : State) : State :=
  let s := s.wr CHIMNEY.pg CHIMNEY.STATUS_CFG_HELD 0 1
  let s := if s.flag CHIMNEY.pg CHIMNEY.CFG_MBOV_EN then s else s.wr CHIMNEY.pg CHIMNEY.STATUS_CHOP_ON 0 0
  let s := if s.flag CHIMNEY.pg CHIMNEY.CFG_UV_EN then s else s.wr CHIMNEY.pg CHIMNEY.STATUS_VGD_UV 0 0
  s.legsCheck

/-! ### Adaptation (R648 to R651) -/

/-- The step of an adaptive code (R649): the new code, PINNED, the bound it is pinned at. -/
def adaptStep (t target hyst now lo hi : Nat) (pinned top : Bool) : Nat × Bool × Bool :=
  if target + hyst < t then
    if now < hi then (now + 1, pinned && top, top) else (now, true, true)
  else if t + hyst < target then
    if lo < now then (now - 1, pinned && !top, top) else (now, true, false)
  else (now, false, top)

/-- The last edge of the period just ended that is attributed to the source code, or else to the sink code, in ns (R648): one that starts
while a switch is on belongs to the source code; with VM_SENSE below 10 V, or behind 255 ns, an edge is not measured. -/
def State.lastEdge (s : State) (n : Fin 12) (src : Bool) (es : List LegEdge) : Option Nat :=
  let spans := s.legSpans n
  let on := fun (e : LegEdge) => spans.any fun x => x.2.1 < mkRat 4 5 - stepsOf e.ago && -stepsOf e.ago < x.2.2
  let from_ := match (s.legUnit n).cmd with
    | some c => s.since c.start
    | none => 0
  let mine := es.filter fun e => e.ago ≤ from_ && 100 ≤ e.vm.toNat && e.ns ≤ 255 && on e == src
  (mine.foldl (fun (b : Option LegEdge) e => match b with
    | some x => if e.ago ≤ x.ago then some e else b
    | none => some e) none).map (·.ns)

/-- One code's part of the adaptation: its new value, whether it is pinned, and whether it went to its maximum (R649). A code whose
adaptation is off is not pinned; one with no edge measured keeps everything. -/
def adaptSide (on : Bool) (t : Option Nat) (target hyst now lo hi : Nat) (pinned top : Bool) : Nat × Bool × Bool :=
  match on, t with
  | false, _ => (now, false, top)
  | true, none => (now, pinned, top)
  | true, some t => adaptStep t target hyst now lo hi pinned top

/-- The source code's part at a boundary with a last rising edge of `t` ns. -/
def State.adaptSrc (s : State) (n : Fin 12) (t : Option Nat) : Nat × Bool × Bool :=
  let pg := GDRV.pg n
  adaptSide (s.legUnit n).srcAd t (s.rd pg GDRV.TARGET_TARGET_NS) (s.rd pg GDRV.TARGET_HYST_NS) (s.rd pg GDRV.ADAPT_SRC_NOW)
    (s.rd pg GDRV.STRENGTH_SRC_MIN) (s.rd pg GDRV.STRENGTH_SRC_MAX) (bitOf (s.rd pg GDRV.STATUS_PINNED) 0) (s.legUnit n).srcTop

/-- The sink code's part at a boundary with a last falling edge of `t` ns. -/
def State.adaptSnk (s : State) (n : Fin 12) (t : Option Nat) : Nat × Bool × Bool :=
  let pg := GDRV.pg n
  adaptSide (s.legUnit n).snkAd t (s.rd pg GDRV.TARGET_TARGET_NS) (s.rd pg GDRV.TARGET_HYST_NS) (s.rd pg GDRV.ADAPT_SNK_NOW)
    (s.rd pg GDRV.STRENGTH_SNK_MIN) (s.rd pg GDRV.STRENGTH_SNK_MAX) (bitOf (s.rd pg GDRV.STATUS_PINNED) 1) (s.legUnit n).snkTop

/-- A last-edge field takes the measured edge, where there is one (R651). -/
def State.lastNs (s : State) (n : Fin 12) (f : Fld) (t : Option Nat) : State :=
  match t with
  | some t => s.wr (GDRV.pg n) f 0 t
  | none => s

/-- Both codes' new values are shown, with PINNED and its interrupt (R649, R651). -/
def State.adaptShow (s : State) (n : Fin 12) (a b : Nat × Bool × Bool) : State :=
  let pg := GDRV.pg n
  let pins := s.rd pg GDRV.STATUS_PINNED
  let s := (s.wr pg GDRV.ADAPT_SRC_NOW 0 a.1).wr pg GDRV.ADAPT_SNK_NOW 0 b.1
  let s := s.setLeg n { s.legUnit n with srcTop := a.2.2, snkTop := b.2.2 }
  (s.wr pg GDRV.STATUS_PINNED 0 (bit01 a.2.1 + 2 * bit01 b.2.1)).irqIf
    ((a.2.1 && !bitOf pins 0) || (b.2.1 && !bitOf pins 1)) pg 3

/-- Adaptation of both codes at a boundary (R649, R651). -/
def State.legAdapt (s : State) (n : Fin 12) (m : LegMeasure) : State :=
  let src := s.lastEdge n true m.edges
  let snk := s.lastEdge n false m.edges
  ((s.adaptShow n (s.adaptSrc n src) (s.adaptSnk n snk)).lastNs n GDRV.ADAPT_LAST_SRC_NS src).lastNs n
    GDRV.ADAPT_LAST_SNK_NS snk

/-! ### A switching period of a leg (R640, R641, R652 to R655) -/

/-- The high-side interval in progress, if there is one. -/
def LegUnit.high (u : LegUnit) : Option (Rat × Rat) := u.cmd.bind (·.high)

/-- A commanded edge appears 300 ns after it is given (R640). -/
def edgeDelay : Rat := 60

/-- The high-side interval of a command ends where it stands, `t` 5 ns steps behind the command's start; one to come is not made. -/
def LegCmd.stopHigh (c : LegCmd) (t : Rat) : LegCmd :=
  match c.high with
  | some (a, b) => if t < b then { c with high := if a < t then some (a, t) else none, off := ratMax c.on t } else c
  | none => c

/-- No high-side interval is carried out from now to the next command (R654, R655); what has been carried out stands (R648). -/
def State.legDark (s : State) (n : Fin 12) : State :=
  let at_ := fun (c : LegCmd) => stepsOf (s.since c.start) - edgeDelay
  let u := s.legUnit n
  s.setLeg n { u with cmd := u.cmd.map fun c => c.stopHigh (at_ c), prev := u.prev.map fun c => c.stopHigh (at_ c) }

/-- A bootstrap lock-out ends `t` 5 ns steps from now where the voltage `dv` behind the interval that ends then reaches the threshold
plus 0.4 V (R655, R656); the end that comes first stands. -/
def State.mendAt (s : State) (n : Fin 12) (t : Rat) (dv : Nat) : State :=
  let u := s.legUnit n
  if s.flag (GDRV.pg n) GDRV.STATUS_GD_BOOT_UV && u.mend.isNone && s.vgdThr + 4 ≤ dv then
    s.setLeg n { u with mend := some (s.cyc + BitVec.ofInt 64 (5 * t / 4).ceil) }
  else s

/-- The length of a refresh pulse: DT, WIDTH, DT (R653). -/
def State.pulseLen (s : State) (n : Nat) : Rat := 2 * s.legDt n + s.legWidth n

/-- A refresh pulse starts (R653), with the bootstrap voltage behind it. -/
def State.refreshPulse (s : State) (n : Fin 12) (dv : Nat) : State :=
  let low := s.cyc.toNat + (5 * (s.legDt n + s.legWidth n) / 4).floor.toNat
  let s := s.setLeg n { s.legUnit n with pulse := some s.cyc, lastLow := low }
  (s.wrapBump (GDRV.pg n) GDRV.REFRESH_COUNT_COUNT).mendAt n (s.pulseLen n) dv

/-- The bootstrap lock-outs whose end has come (R655). -/
def State.legMends (s : State) : State :=
  (List.finRange 12).foldl (fun s (n : Fin 12) =>
    match (s.legUnit n).mend with
    | some t =>
      if s.since t < 2 ^ 63 then (s.setLeg n { s.legUnit n with mend := none }).wr (GDRV.pg n) GDRV.STATUS_GD_BOOT_UV 0 0 else s
    | none => s) s

/-- PERIOD_US have passed without a low-side interval of at least WIDTH (R653): neither one that the leg remembers nor one of the commands
in progress, the one that is on now among them. -/
def State.refreshWants (s : State) (n : Fin 12) : Bool :=
  let us := s.rd (GDRV.pg n) GDRV.REFRESH_PERIOD_US
  s.legState n = gRUN && (s.legUnit n).lastLow + 250 * us ≤ s.cyc.toNat &&
    !(s.legSpans n).any fun x => !x.1 && x.2.1 ≤ 0 && s.legWidth n ≤ x.2.2 - x.2.1 && -stepsOf (250 * us) < x.2.2

/-- REFRESH_PULSE. -/
def State.refreshDue (s : State) (n : Fin 12) (dv : Nat) : State :=
  if s.refreshWants n then s.refreshPulse n dv else s

/-- The low side is on at the end of the period in progress, and how long it has been on then. -/
def LegUnit.lowTail (u : LegUnit) : Option Rat :=
  u.cmd.bind fun c =>
    let end_ : Rat := (2 * c.per : Nat)
    if c.tail < end_ then some (end_ - c.tail) else if end_ ≤ c.on && c.low < end_ then some (end_ - c.low) else none

/-- What leg `n` makes of a high-side command of `len` × 10 ns centred in a period of `per` × 10 ns (R641, R652, R684), after the
period before it; whether the cap truncated it. A commanded low-side interval that the dead time leaves no room for is not made. -/
def State.legCommand (s : State) (n : Fin 12) (per len : Nat) : LegCmd × Bool :=
  let dt := s.legDt n
  let end_ : Rat := (2 * per : Nat)
  let on : Rat := if len = 0 then end_ else (per - len : Nat)
  let cap : Rat := mkRat (2 * per * s.rd (GDRV.pg n) GDRV.CAP_DUTY_CAP) 256
  let cut := s.flag (GDRV.pg n) GDRV.CFG_CAP_EN && cap < (2 * len : Nat)
  let off : Rat := if len = 0 then end_ else on + if cut then cap else (2 * len : Nat)
  let before : Rat := match (s.legUnit n).cmd with
    | some c => if c.high.isSome then (2 * c.per : Nat) - c.off else dt
    | none => dt
  let low : Rat := if before < dt then dt - before else 0
  let gap : Rat := if low < on || (on = 0 && (s.legUnit n).lowTail.isSome) then dt else 0
  ({ start := s.cyc, per := per, low := low, on := on, high := if on + gap < off then some (on + gap, off) else none, off := off,
     tail := off + dt }, cut)

/-- The leg takes the command of a switching period; a low-side interval over its start that is long enough is remembered (R653). -/
def State.legTake (s : State) (n : Fin 12) (c : LegCmd) : State :=
  let u := s.legUnit n
  let len : Rat := (if c.low = 0 then u.lowTail.getD 0 else 0) + ratMax 0 (c.on - c.low)
  let last := if s.legWidth n ≤ len then s.cyc.toNat + (5 * (c.on + edgeDelay) / 4).floor.toNat else u.lastLow
  s.setLeg n { u with prev := u.cmd, cmd := some c, lastLow := last }

/-- A bootstrap lock-out may end with a low-side interval from `a` to `b`, in 5 ns steps from now, that lasts WIDTH; the voltage behind it is a
free value (R655). -/
def State.mendFree (s : State) (n : Fin 12) (a b : Rat) : State :=
  let (w, s) := s.freshWord
  if s.legWidth n ≤ b - a then s.mendAt n b (w.toNat % 256) else s

/-- The low-side intervals that end in the period of command `c` may end a bootstrap lock-out (R655), each where it lasts WIDTH: the one
behind the refresh pulse of the boundary, with the voltage `dv` behind it, and the one behind the high side's, up to the next boundary's
pulse. -/
def State.lowMends (s : State) (n : Fin 12) (c : LegCmd) (dv : Nat) : State :=
  let next : Rat := (2 * c.per : Nat)
  let end_ := ratMin (c.on + edgeDelay) next
  let from_ := ratMax (s.pulseLen n) (if c.low = 0 then 0 else c.low + edgeDelay)
  let s := if s.legWidth n ≤ end_ - from_ then s.mendAt n end_ dv else s
  s.mendFree n (ratMax from_ (c.tail + edgeDelay)) next

/-- The low-side intervals in progress or to come in this period when a bootstrap lock-out starts may end it (R655), a refresh pulse with its
dead time. -/
def State.lockMends (s : State) (n : Fin 12) : State :=
  let next : Rat := match (s.legUnit n).cmd with
    | some c => (2 * c.per : Nat) - stepsOf (s.since c.start)
    | none => 0
  let pulse := (s.legPulse n).map fun t => s.legDt n + s.legWidth n - t
  ((s.legSpans n).filter fun x => !x.1 && 0 < x.2.2).foldl (fun s x =>
    if pulse = some x.2.2 then
      let (w, s) := s.freshWord
      s.mendAt n (x.2.2 + s.legDt n) (w.toNat % 256)
    else s.mendFree n x.2.1 (ratMin x.2.2 next)) s

/-- The commanded high-side interval begins before the bootstrap lock-out ends (R654, R655). -/
def State.lockedOut (s : State) (n : Fin 12) (c : LegCmd) : Bool :=
  s.flag (GDRV.pg n) GDRV.STATUS_GD_BOOT_UV &&
    match (s.legUnit n).mend, c.high with
    | some t, some (a, _) => a + edgeDelay < stepsOf (t - s.cyc).toNat
    | _, _ => true

/-- The start of a switching period for leg `n` of a switching axis (R642, R643, R649, R652, R655, R675). -/
def State.legPeriod (s : State) (n : Fin 12) (m : LegMeasure) (per len : Nat) : State :=
  let pg := GDRV.pg n
  let fresh := s.legState n = gARMED
  let s := if s.commitPending pg then ((s.applySet pg).gdrvCommit n).commitDone pg else s
  let s := if s.legState n = gRUN then s.legAdapt n m else s
  let s := if fresh then (s.setLegState n gRUN).refreshPulse n m.pulse.toNat
    else if s.legState n = gRUN && s.flag pg GDRV.STATUS_GD_BOOT_UV then s.refreshPulse n m.pulse.toNat
    else s
  if s.legState n = gRUN then
    let (c, cut) := s.legCommand n per len
    let s := s.lowMends n c m.low.toNat
    if s.lockedOut n c then s.legTake n { c with high := none }
    else
      let s := s.legTake n c
      if cut then s.bump pg GDRV.CAP_COUNT_COUNT else s
  else s

/-- GD_HOn is high, and GD_LOn is high (R641, R643, R653, R654). -/
def State.legHigh (s : State) (n : Fin 12) : Bool :=
  s.legState n = gRUN && !s.flag (GDRV.pg n) GDRV.STATUS_GD_BOOT_UV && (s.legPulse n).isNone &&
    match s.legNow n with
    | some ({ high := some (a, b), .. }, t) => a ≤ t && t < b
    | _ => false

def State.legLow (s : State) (n : Fin 12) : Bool :=
  if s.legState n = gBRAKE then
    match (s.legUnit n).brake with
    | some (t, w) => w ≤ stepsOf (s.since t)
    | none => true
  else if s.legState n ≠ gRUN then false
  else match s.legPulse n with
    | some t => s.legDt n ≤ t && t < s.legDt n + s.legWidth n
    | none => match s.legNow n with
      | some (c, t) => (c.low ≤ t && t < c.on) || (c.tail ≤ t && c.tail < (2 * c.per : Nat))
      | none => false

/-- BOOT_UV_LOCKOUT (R654, R656): a bootstrap supply below the threshold, in every state. -/
def State.bootUv (s : State) (n : Fin 12) (dv : Nat) : State :=
  let pg := GDRV.pg n
  if s.flag pg GDRV.STATUS_GD_BOOT_UV || s.vgdThr ≤ dv then s
  else
    let left := match s.legOnFor n true with
      | some t => some ⟨s.cyc, s.cyc, some t, none⟩
      | none => (s.legUnit n).left
    let s := (s.wr pg GDRV.STATUS_GD_BOOT_UV 0 1).bump pg GDRV.BOOT_UV_COUNT_COUNT
    let s := (s.setLeg n { s.legUnit n with left := left, mend := none }).legDark n
    (s.lockMends n).irq pg 1

/-! ### Faults (R667 to R673) -/

/-- `FIRST_FAULT` takes a leg fault (R671). -/
def State.recordFault (s : State) (n : Fin 12) (kind : Nat) : State :=
  let pg := CHIMNEY.pg
  let at_ := s.rd64 pg CHIMNEY.FIRST_CYC_LO_CYC CHIMNEY.FIRST_CYC_HI_CYC
  let leg := s.rd pg CHIMNEY.FIRST_FAULT_LEG
  if !s.flag pg CHIMNEY.FIRST_FAULT_VALID then
    let s := ((s.wr pg CHIMNEY.FIRST_FAULT_LEG 0 n).wr pg CHIMNEY.FIRST_FAULT_KIND 0 kind).wr pg CHIMNEY.FIRST_FAULT_VALID 0 1
    (s.wr64 pg CHIMNEY.FIRST_CYC_LO_CYC CHIMNEY.FIRST_CYC_HI_CYC 0 s.cyc.toNat).irq pg 3
  else if !s.flag pg CHIMNEY.FIRST_FAULT_LEG2_VALID && leg ≠ n && s.since (BitVec.ofNat 64 at_) ≤ 50 then
    let s := s.wr pg CHIMNEY.FIRST_FAULT_LEG2_VALID 0 1
    let s := if at_ = s.cyc.toNat && n < leg then
        ((s.wr pg CHIMNEY.FIRST_FAULT_LEG2 0 leg).wr pg CHIMNEY.FIRST_FAULT_LEG 0 n).wr pg CHIMNEY.FIRST_FAULT_KIND 0 kind
      else s.wr pg CHIMNEY.FIRST_FAULT_LEG2 0 n
    s.irq pg 3
  else s

/-- Another leg that faulted within 200 ns (R670). -/
def State.otherFault (s : State) (n : Fin 12) : Option (Fin 12) :=
  match s.chimney.last with
  | some (k, t) => if k ≠ n ∧ s.since t ≤ 50 then some k else none
  | none => none

/-- Leg `n` turns off in a fault, with the sink of two faults within 200 ns, else its own (R669, R670). -/
def State.legTurnOff (s : State) (n : Fin 12) : State :=
  let s := match s.otherFault n with
    | some k => (s.setLeg k { s.legUnit k with offSink := 2 }).setLeg n { s.legUnit n with offSink := 2 }
    | none => s.setLeg n { s.legUnit n with offSink := s.rd (GDRV.pg n) GDRV.VDS_FAULT_SNK }
  { s with chimney := { s.chimney with last := some (n, s.cyc) } }

/-- A leg enters OFF with the fault of another leg of its axis, within 30 ns of the detection: a fault of its own detected until then
still counts (R669, R671). -/
def State.legCut (s : State) (n : Fin 12) : State :=
  let s := s.setLegState n gOFF
  s.setLeg n { s.legUnit n with left := (s.legUnit n).left.map fun l => if l.cyc = s.cyc then { l with last := s.cyc + 7 } else l }

/-- A fault of leg `n` (R669, R670): it turns off, the other legs of its axis enter OFF, the axis enters FAULT. -/
def State.legFault (s : State) (n : Fin 12) (kind : Nat) : State :=
  let pg := GDRV.pg n
  let s := (s.setLegState n gFAULT).wr pg GDRV.STATUS_FAULT_KIND 0 kind
  let s := (s.wr pg GDRV.STATUS_DIAG_OK 0 0).bump pg GDRV.FAULT_COUNT_COUNT
  let s := ((s.irq pg 0).legTurnOff n).recordFault n kind
  let a : Fin 4 := Fin.ofNat 4 (s.legAxis n)
  let s := (List.finRange 12).foldl (fun s (m : Fin 12) =>
    if s.legAxis m = a.val && s.legState m ≠ gFAULT && s.legState m ≠ gBRAKE then s.legCut m else s) s
  (s.axisLegFaulted a).unhome a

/-- How long a switch has been on, in 5 ns steps, where it is on or was turned off so lately that a fault of it still counts (R667 to
R671, R675). -/
def State.legConducts (s : State) (n : Fin 12) (high : Bool) : Option Rat :=
  match s.legOnFor n high, (s.legUnit n).left with
  | some t, _ => some t
  | none, some l =>
    if (l.last - s.cyc).toNat < 8 then (if high then l.high else l.low).map (· + stepsOf (s.since l.cyc)) else none
  | none, none => none

/-- A detection that needs the switch to have been on for `need` 5 ns steps. -/
def State.legOn (s : State) (n : Fin 12) (high : Bool) (need : Rat) : Bool :=
  s.legState n ≠ gFAULT && s.legState n ≠ gDIAG &&
    match s.legConducts n high with
    | some t => need ≤ t
    | none => false

/-- VDS_FAULT (R667): above THR × 0.1 V for 40 ns behind the blanking time. -/
def State.vdsTrips (s : State) (n : Fin 12) (d : DrainDrop) : Bool :=
  100 * s.rd (GDRV.pg n) GDRV.VDS_THR < d.mv.toNat && s.legOn n d.high (2 * s.rd (GDRV.pg n) GDRV.VDS_BLANK + 8 : Nat)
def State.vdsFault (s : State) (n : Fin 12) (d : DrainDrop) : State :=
  if s.vdsTrips n d then s.legFault n (if d.high then 1 else 2) else s

/-- HARD_SHORT (R668): above 4 V for 50 ns of the time for which the switch is on. -/
def State.shortTrips (s : State) (n : Fin 12) (d : DrainDrop) : Bool := 4000 < d.mv.toNat && s.legOn n d.high 10
def State.hardShort (s : State) (n : Fin 12) (d : DrainDrop) : State :=
  if s.shortTrips n d then s.legFault n (if d.high then 3 else 4) else s

/-- `CTRL.CLEAR` (R673). -/
def State.legClear (s : State) (n : Fin 12) : State :=
  if s.legState n = gFAULT then (s.setLegState n gOFF).legsCheck else s

/-! ### Diagnostics (R664 to R666) -/

/-- The end of the diagnostics of leg `n` with a result. -/
def State.diagEnd (s : State) (n : Fin 12) (res : Nat) : State :=
  let s := s.wr (GDRV.pg n) GDRV.STATUS_DIAG_RES 0 res
  let s := if res = 0 then s.wr (GDRV.pg n) GDRV.STATUS_DIAG_OK 0 1 else s
  ((s.irq (GDRV.pg n) 2).setLegState n gOFF).legsCheck

/-- A `CTRL.DIAG` command is refused with 0x05. -/
def State.diagRefused (s : State) (n : Nat) : Bool :=
  s.legState n ≠ gOFF || (List.range 12).any (fun m => s.legState m = gDIAG) || !(s.mode = mCONFIG || s.mode = mREADY)

/-- An accepted `CTRL.DIAG`. -/
def State.diagStart (s : State) (n : Fin 12) : State :=
  if s.rd CHIMNEY.pg CHIMNEY.MEAS_VM_DV < 100 then s.diagEnd n 4
  else
    let s := s.setLegState n gDIAG
    s.setLeg n { s.legUnit n with diag := 1 }

/-- DIAG_PHASE_END with GD_VSn and VM_SENSE in 0.1 V. -/
def State.diagPhase (s : State) (n : Fin 12) (vs : Int) (vm : Nat) : State :=
  let s := s.wr CHIMNEY.pg CHIMNEY.MEAS_VM_DV 0 vm
  if s.legState n ≠ gDIAG then s
  else
    let u := s.legUnit n
    let next := fun (s : State) => s.setLeg n { u with diag := u.diag + 1 }
    if u.diag = 1 then if 5 * vs < vm then s.diagEnd n 1 else next s
    else if u.diag = 2 then
      if 4 * (vm : Int) < 5 * vs then s.diagEnd n 2
      else if s.flag (GDRV.pg n) GDRV.DIAG_PARTNER_EN then next s
      else s.diagEnd n 0
    else if 4 * (vm : Int) < 5 * vs then s.diagEnd n 3
    else s.diagEnd n 0

/-! ### Supply lock-out, chopper, motor-bus overvoltage (R656 to R663) -/

/-- VGD_LOCKOUT: VGD below the threshold for 2 µs. -/
def State.vgdLockout (s : State) (vgd : Nat) : State :=
  let pg := CHIMNEY.pg
  let s := s.wr pg CHIMNEY.MEAS_VGD_DV 0 vgd
  if s.vgdThr ≤ vgd then s
  else
    let s := (s.wr pg CHIMNEY.STATUS_VGD_OK 0 0).wr pg CHIMNEY.STATUS_CHOP_ON 0 0
    if s.flag pg CHIMNEY.CFG_UV_EN && !s.flag pg CHIMNEY.STATUS_VGD_UV then
      (((s.wr pg CHIMNEY.STATUS_VGD_UV 0 1).bump pg CHIMNEY.VGD_UV_COUNT_COUNT).irq pg 0).legsOff
    else s

/-- VGD_LOCKOUT_END: VGD at or above the threshold plus 0.4 V for 10 µs. -/
def State.vgdBack (s : State) (vgd : Nat) : State :=
  let pg := CHIMNEY.pg
  let s := s.wr pg CHIMNEY.MEAS_VGD_DV 0 vgd
  if vgd < s.vgdThr + 4 then s
  else ((s.wr pg CHIMNEY.STATUS_VGD_OK 0 1).wr pg CHIMNEY.STATUS_VGD_UV 0 0).legsCheck

/-- The comparator acts (R658, R659, R663). -/
def State.mbovRuns (s : State) : Bool :=
  s.flag CHIMNEY.pg CHIMNEY.STATUS_CFG_HELD && s.flag CHIMNEY.pg CHIMNEY.CFG_MBOV_EN

/-- BRK_O turns on where it may. -/
def State.chopOn (s : State) (vm : Nat) : State :=
  let pg := CHIMNEY.pg
  let s := s.wr pg CHIMNEY.MEAS_VM_DV 0 vm
  if s.mbovRuns && s.flag pg CHIMNEY.STATUS_VGD_OK && !s.chimney.rest && !s.flag pg CHIMNEY.STATUS_CHOP_ON &&
      5 * s.rd pg CHIMNEY.VM_THR_CHOP_ON ≤ vm then
    ((s.wr pg CHIMNEY.STATUS_CHOP_ON 0 1).wr pg CHIMNEY.STATUS_CHOP_LIMIT 0 0).wrapBump pg CHIMNEY.CHOP_COUNT_COUNT
  else s

/-- BRK_O turns off. -/
def State.chopOff (s : State) (vm : Nat) : State :=
  let pg := CHIMNEY.pg
  let s := s.wr pg CHIMNEY.MEAS_VM_DV 0 vm
  if s.mbovRuns && vm ≤ 5 * s.rd pg CHIMNEY.VM_THR_CHOP_OFF then s.wr pg CHIMNEY.STATUS_CHOP_ON 0 0 else s

/-- CHOP_LIMIT (R660). -/
def State.chopLimit (s : State) : State :=
  let pg := CHIMNEY.pg
  if s.flag pg CHIMNEY.STATUS_CHOP_ON then
    let s := (s.wr pg CHIMNEY.STATUS_CHOP_ON 0 0).wr pg CHIMNEY.STATUS_CHOP_LIMIT 0 1
    ({ s with chimney := { s.chimney with rest := true } }).irq pg 2
  else s

/-- CHOP_REST_END: the chopper turns on again where VM_SENSE still asks for it. -/
def State.chopRestEnd (s : State) (vm : Nat) : State := ({ s with chimney := { s.chimney with rest := false } }).chopOn vm

/-- MBOV_TRIP (R661). -/
def State.mbovTrip (s : State) (vm : Nat) : State :=
  let pg := CHIMNEY.pg
  let s := s.wr pg CHIMNEY.MEAS_VM_DV 0 vm
  if s.mbovRuns && 5 * s.rd pg CHIMNEY.VM_THR_OV_TRIP ≤ vm then
    let s := ((s.wr pg CHIMNEY.STATUS_MBOV 0 1).bump pg CHIMNEY.OV_COUNT_COUNT).irq pg 1
    let brake := s.flag pg CHIMNEY.CFG_OV_ACTION
    (List.finRange 12).foldl (fun s (n : Fin 12) =>
      if s.legState n = gARMED || s.legState n = gRUN then if brake then s.setLegState n gBRAKE else s.legOff n else s) s
  else s

/-- `CTRL.CLEAR_OV` is refused with 0x05; an accepted one (R662). -/
def State.clearOvRefused (s : State) : Bool :=
  5 * s.rd CHIMNEY.pg CHIMNEY.VM_THR_CHOP_OFF < s.rd CHIMNEY.pg CHIMNEY.MEAS_VM_DV
def State.clearOv (s : State) : State :=
  let s := s.wr CHIMNEY.pg CHIMNEY.STATUS_MBOV 0 0
  ((List.finRange 12).foldl (fun s (n : Fin 12) => if s.legState n = gBRAKE then s.legOff n else s) s).legsCheck

/-- `CTRL.CLEAR_FIRST` (R671). -/
def State.clearFirst (s : State) : State :=
  [CHIMNEY.FIRST_FAULT_LEG, CHIMNEY.FIRST_FAULT_KIND, CHIMNEY.FIRST_FAULT_LEG2, CHIMNEY.FIRST_FAULT_LEG2_VALID,
    CHIMNEY.FIRST_FAULT_VALID].foldl (fun s f => s.wr CHIMNEY.pg f 0 0) s

end Sys2Proof.Machine
end

