-- ==== Sys2Proof/Machine/Axis.lean ====
section
/-!
DEFINITION. Machine/Axis.lean: motion axes and encoders (13 R681 to R719).
-/
namespace Sys2Proof.Machine

/-- A floating-point register of the page, and a duty amplitude in U0.16. -/
def State.aR (s : State) (a : Nat) (f : Fld) : Rat := ratOf (s.rd (AXIS.pg a) f)
def State.aU (s : State) (a : Nat) (f : Fld) : Rat := mkRat (s.rd (AXIS.pg a) f) 65536

/-- The profile tick, 10 µs. -/
def tickT : Rat := mkRat 1 100000

def State.motor1 (s : State) (a : Nat) : Bool := s.flag (AXIS.pg a) AXIS.CFG_MOTOR

/-- The three legs of the axis by leg index, where exactly three such legs exist (R681). -/
def State.axisLegs (s : State) (a : Nat) : Option (Fin 12 × Fin 12 × Fin 12) :=
  let ls := (List.finRange 12).filter fun (n : Fin 12) => s.legAxis n = a && s.flag (GDRV.pg n) GDRV.CTRL_EN
  let at_ := fun k => ls.find? fun (n : Fin 12) => s.rd (GDRV.pg n) GDRV.CFG_LEG = k
  if ls.length = 3 then
    match at_ 0, at_ 1, at_ 2 with
    | some x, some y, some z => some (x, y, z)
    | _, _, _ => none
  else none

/-- All three legs are ARMED (R689). -/
def State.axisArmed (s : State) (a : Nat) : Bool :=
  match s.axisLegs a with
  | some (x, y, z) => s.legState x = gARMED && s.legState y = gARMED && s.legState z = gARMED
  | none => false

/-- `COUNTe`. -/
def State.encCount (s : State) (e : Nat) : Int := s.rdInt ENC.pg ENC.COUNT_COUNT e

/-- Position, velocity, acceleration and FOLLOW as the page shows them. -/
def State.axisShow (s : State) (a : Fin 4) : State :=
  let pg := AXIS.pg a
  let u := s.axisUnit a
  let s := s.wr pg AXIS.POS_POS 0 (wrapOf 32 u.pos.floor)
  let s := (s.wr pg AXIS.VEL_VALUE 0 (f32 u.vel).toNat).wr pg AXIS.ACC_VALUE 0 (f32 u.acc).toNat
  if s.motor1 a then s.wr pg AXIS.FOLLOW_DIST 0 (wrapOf 32 (u.pos.floor - s.encCount a)) else s

/-! ### Profiles (R690 to R693) -/

/-- Motion at constant jerk `j` for a time `t`. The position is kept to 64 binary places. -/
def AxisUnit.glide (u : AxisUnit) (j t : Rat) : AxisUnit :=
  let d := u.vel * t + u.acc * t * t / 2 + j * t * t * t / 6
  { u with pos := grid (u.pos + d), vel := u.vel + u.acc * t + j * t * t / 2, acc := u.acc + j * t, travel := grid (u.travel + ratAbs d) }

/-- The velocity that bringing the acceleration to 0 at once would end at. -/
def settleAt (v a j : Rat) : Rat := v + a * ratAbs a / (2 * j)

/-- The quickest way from velocity `v` and acceleration `a` to velocity `vt` and acceleration 0 on one side of rest (R691), as times at a
constant jerk: the acceleration goes to its peak, at most `amax` away from rest and `dec` towards it, holds it, and goes to 0. -/
def jerkPlan (v a vt amax dec j : Rat) : List (Rat × Rat) :=
  let σ : Rat := if settleAt v a j ≤ vt then 1 else -1
  let away : Bool := if v = 0 then 0 ≤ σ * vt else 0 < σ * v
  let lim := if away then amax else dec
  let b := σ * a
  let dv := σ * (vt - v)
  let q := j * dv + b * b / 2
  if lim * lim < q then
    let ramps := if b ≤ lim then (2 * lim * lim - b * b) / (2 * j) else b * b / (2 * j)
    [(if b ≤ lim then σ * j else -(σ * j), ratAbs (lim - b) / j), (0, (dv - ramps) / lim), (-(σ * j), lim / j)]
  else
    let p := ratMax b (sqrtR q)
    [(σ * j, (p - b) / j), (-(σ * j), p / j)]

/-- A plan followed for a time `t`; behind its end the velocity is `vt`. -/
def AxisUnit.follow (vt : Rat) : List (Rat × Rat) → Rat → AxisUnit → AxisUnit
  | [], t, u => ({ u with vel := vt, acc := 0 } : AxisUnit).glide 0 t
  | (j, d) :: l, t, u => if t < d then u.glide j t else AxisUnit.follow vt l (t - d) (u.glide j d)

/-- A time `t` towards velocity `vt`, with at most `amax` away from rest, `dec` towards rest and jerk `j` (R691); a reversal goes through
rest (R693). -/
def AxisUnit.toVel (u : AxisUnit) (vt amax dec j : Rat) (t : Rat := tickT) : AxisUnit :=
  let plan := if u.vel * vt < 0 then jerkPlan u.vel u.acc 0 amax dec j ++ jerkPlan 0 0 vt amax dec j
    else jerkPlan u.vel u.acc vt amax dec j
  u.follow vt plan t

/-- Decelerating at once from velocity `v` ≥ 0 with acceleration `a` ends more than `d` away (R693). -/
def stopsBeyond (v a dec j d : Rat) : Bool :=
  let b := ratAbs a
  let v1 := v + b * b / (2 * j)
  let base := if 0 ≤ a then v * b / j + b * b * b / (3 * j * j) else b * b * b / (6 * j * j) - v1 * b / j
  let r := d - base
  if a < 0 && v * 2 * j < b * b then 2 * b * d < v * v
  else if dec * dec ≤ v1 * j then r < v1 * v1 / (2 * dec) + v1 * dec / (2 * j)
  else r < 0 || r * r < v1 * v1 * v1 / j

/-- The direction of motion: 1, −1, or 0 at rest. -/
def AxisUnit.dir (u : AxisUnit) : Int :=
  if 0 < u.vel then 1 else if u.vel < 0 then -1 else if 0 < u.acc then 1 else if u.acc < 0 then -1 else 0

/-- The point at which the axis would stop lies beyond `p` in the direction of motion. -/
def AxisUnit.overshoots (u : AxisUnit) (dec j p : Rat) : Bool :=
  u.dir ≠ 0 && stopsBeyond (u.dir * u.vel) (u.dir * u.acc) dec j (u.dir * (p - u.pos))

/-- The largest `n` below `lo + 2^k` for which `ok` holds, `ok lo` taken for granted: `ok` does not hold again behind a failure. -/
def largestOk (ok : Nat → Bool) : Nat → Nat → Nat
  | 0, lo => lo
  | k + 1, lo => if ok (lo + 2 ^ k) then largestOk ok k (lo + 2 ^ k) else largestOk ok k lo

/-- One tick of a move to position `p` (R691 to R693), and whether the axis reached it: it goes on towards VMAX for as long as it can still
stop at `p`, to 2^−24 of a tick, and stops from then on. -/
def AxisUnit.toPos (u : AxisUnit) (p vmax amax dec j : Rat) : Bool × AxisUnit :=
  let d := p - u.pos
  let go := fun (t : Rat) => u.toVel (if 0 < d then vmax else -vmax) amax dec j t
  let part := fun (n : Nat) => tickT * mkRat n (2 ^ 24)
  let w :=
    if d = 0 && u.dir = 0 then u
    else if u.overshoots dec j p || u.dir * d < 0 then u.toVel 0 amax dec j
    else if !(go tickT).overshoots dec j p then go tickT
    else
      let t := part (largestOk (fun n => !(go (part n)).overshoots dec j p) 24 0)
      (go t).toVel 0 amax dec j (tickT - t)
  if w.vel = 0 && w.acc = 0 && ratAbs (p - w.pos) ≤ mkRat 1 256 then (true, { w with pos := p }) else (false, w)

/-! ### Soft limits (R694 to R696, R700) -/

/-- The limit in the direction of motion that the axis would stop beyond. -/
def State.limitAhead (s : State) (a : Fin 4) (u : AxisUnit) : Option Int :=
  let dec := s.aR a AXIS.DECEL_VALUE
  let j := s.aR a AXIS.JMAX_VALUE
  let st := s.axisState a
  if s.flag (AXIS.pg a) AXIS.CFG_SOFT_EN && (st = aMOVE || st = aSTEP || st = aGEAR) && u.limit.isNone then
    let lo := s.rdInt (AXIS.pg a) AXIS.SOFT_MIN_POS
    let hi := s.rdInt (AXIS.pg a) AXIS.SOFT_MAX_POS
    if 0 < u.dir && u.overshoots dec j hi then some hi
    else if u.dir < 0 && u.overshoots dec j lo then some lo
    else none
  else none

/-- The limit stop begins (R694, R695); in STEP_IN only a coarse step accepted behind it moves the axis again (R700). -/
def State.limitStop (s : State) (a : Fin 4) (lim : Int) : State :=
  let pg := AXIS.pg a
  let u := s.axisUnit a
  let left := u.dir * ((lim : Rat) - u.pos)
  let max := s.aR a AXIS.LIM_DECEL_VALUE
  let past := left ≤ 0 || max * (2 * left) < u.vel * u.vel
  let dec := if past then max else u.vel * u.vel / (2 * left)
  let s := s.setAxis a { u with limit := some (dec, if past then none else some (lim : Rat)), jog := none, stop := false, rate := 0 }
  let s := (s.wr pg AXIS.STATUS_LIMIT_STOP 0 1).bump pg AXIS.LIMIT_COUNT_COUNT
  let s := if past then s.wr pg AXIS.STATUS_LIMIT_OVER 0 1 else s
  s.irq pg 3

/-- One tick of the constant deceleration of a limit stop, and whether the axis is at rest. -/
def AxisUnit.limitTick (u : AxisUnit) (dec : Rat) (lim : Option Rat) : Bool × AxisUnit :=
  let v := ratAbs u.vel - dec * tickT
  if dec ≤ 0 || v ≤ 0 then
    let p := match lim with
      | some l => l
      | none => if dec ≤ 0 then u.pos else u.pos + u.dir * (u.vel * u.vel / (2 * dec))
    (true, { u with pos := p, vel := 0, acc := 0, limit := none, travel := u.travel + ratAbs (p - u.pos) })
  else
    let d := (ratAbs u.vel + v) * tickT / 2
    (false, { u with pos := u.pos + u.dir * d, vel := u.dir * v, acc := -(u.dir * dec), travel := u.travel + d })

/-! ### Commands (R689, R690) -/

/-- The flags that an accepted motion command clears. -/
def State.clearStops (s : State) (a : Fin 4) : State :=
  [AXIS.STATUS_AT_TARGET, AXIS.STATUS_LIMIT_STOP, AXIS.STATUS_LIMIT_OVER].foldl (fun s f => s.wr (AXIS.pg a) f 0 0) s

/-- An accepted motion command enters a state; travel and stall run start where the state is entered. -/
def State.startMotion (s : State) (a : Fin 4) (st : Nat) (f : AxisUnit → AxisUnit) : State :=
  let entry := s.axisState a ≠ st
  let u := f { s.axisUnit a with stop := false, limit := none, jog := none }
  let s := s.setAxis a (if entry then { u with travel := 0, run := 0, seen := (u.seen.1, 0) } else u)
  (s.clearStops a).setAxisState a st

/-- VJOG as JOG takes it: an infinite one is beyond every VMAX, and the velocity of a NaN, which no rule gives, is a free value within
VMAX (R717, log entry 43). -/
def State.jogVel (s : State) (a : Fin 4) : Rat × State :=
  match Fp.ofBits (s.rd (AXIS.pg a) AXIS.VJOG_VALUE) with
  | .inf neg => ((if neg then -1 else 1) * 2 ^ 128, s)
  | .nan => let (w, s) := s.freshWord; (mkRat w.toInt (2 ^ 31) * s.aR a AXIS.VMAX_VALUE, s)
  | x => (x.toRat, s)

/-- The effect of command `code` at a profile tick: the state after it, or the code it is refused with. -/
def State.axisCommand (s : State) (a : Fin 4) (code : Nat) : Except Nat State :=
  let pg := AXIS.pg a
  let st := s.axisState a
  let u := s.axisUnit a
  let soft := s.flag pg AXIS.CFG_SOFT_EN
  let tgt := s.rdInt pg AXIS.TARGET_POS
  let lost := soft && !s.flag pg AXIS.STATUS_HOMED && !s.motor1 a
  match code with
  | 1 => if st = aIDLE && s.axisArmed a then .ok ((s.axisStill a).setAxisState a aHOLD) else .error 5
  | 2 =>
    if !(st = aHOLD || st = aMOVE) then .error 5
    else if soft && (tgt < s.rdInt pg AXIS.SOFT_MIN_POS || s.rdInt pg AXIS.SOFT_MAX_POS < tgt) then .error 3
    else if lost then .error 5
    else .ok (s.startMotion a aMOVE fun u => { u with target := tgt })
  | 3 =>
    if !(st = aHOLD || st = aMOVE) || lost then .error 5
    else
      let (v, s) := s.jogVel a
      .ok (s.startMotion a aMOVE fun u => { u with jog := some v })
  | 4 => .ok (if aMOVE ≤ st && st ≤ aGEAR && !u.stop then s.setAxis a { u with stop := true, stopAt := s.cyc } else s)
  | 5 => if st = aHOLD then .ok (s.startMotion a aHOMING id) else .error 5
  | 6 => if st = aHOLD then .ok (s.startMotion a aSTEP fun u => { u with stepTo := u.pos, steps := [], lastStep := none, rate := 0 })
    else .error 5
  | 7 =>
    if st = aHOLD then
      let s := s.startMotion a aGEAR fun u => { u with m0 := s.encCount 4, p0 := u.pos, mSeen := none, mSpeed := 0 }
      .ok (s.wr pg AXIS.RATIO_NOW_RATIO 0 (s.rd pg AXIS.GEAR_RATIO_RATIO))
    else .error 5
  | 8 => if st = aFAULT then .error 5 else .ok (s.setAxis a { u with disable := true })
  | 9 => if st = aFAULT then .ok ((s.wr pg AXIS.STATUS_FAULT_CAUSE 0 0).setAxisState a aIDLE) else .error 5
  | 10 =>
    if st = aHOLD then .ok ((s.setAxis a { u with pos := tgt }).wr pg AXIS.STATUS_HOMED 0 1) else .error 5
  | _ => .error 3

/-- The command that waits is acted on. -/
def State.axisTakeCmd (s : State) (a : Fin 4) : State :=
  match (s.axisUnit a).cmd with
  | none => s
  | some (code, ini) =>
    let s := s.setAxis a { s.axisUnit a with cmd := none }
    match s.axisCommand a code with
    | .ok s => s
    | .error e => s.cfgErr (AXIS.pg a) e 0x0A8 ini

/-- A write of `CMD`: a code outside the table is refused at once (R689). -/
def axisCmdBad (code : Nat) : Bool := code = 0 || 10 < code
def State.axisCmd (s : State) (ini : Initiator) (a : Fin 4) (code : Nat) : State :=
  s.setAxis a { s.axisUnit a with cmd := some (code, ini) }

/-! ### Coarse steps (R697 to R700) -/

/-- COARSE_STEP: the edge waits for the profile tick (R683). -/
def State.coarseStep (s : State) (a : Fin 4) (up : Bool) : State :=
  if s.axisState a = aSTEP then
    let u := s.axisUnit a
    s.setAxis a { u with steps := u.steps ++ [(up, s.cyc)] }
  else s

/-- One coarse step. -/
def State.takeStep (s : State) (a : Fin 4) (up : Bool) (t : Word64) : State :=
  let pg := AXIS.pg a
  let u := s.axisUnit a
  let size : Rat := (s.rd pg AXIS.STEPCFG_SIZE : Nat)
  let next := if up then u.stepTo + size else u.stepTo - size
  let beyond := s.flag pg AXIS.CFG_SOFT_EN &&
    (if up then (s.rdInt pg AXIS.SOFT_MAX_POS : Rat) < next else next < (s.rdInt pg AXIS.SOFT_MIN_POS : Rat))
  if beyond then s.setAxis a { u with lastStep := some t }
  else
    let lag := ratAbs (next - u.pos)
    let vmax := s.aR a AXIS.VMAX_VALUE
    let limit := 250 * s.rd pg AXIS.STEPCFG_TIMEOUT_US
    let rate := match u.lastStep with
      | none => vmax
      | some t0 =>
        let n := (t - t0).toNat
        if limit < n then vmax else ratMin vmax (lag * 250000000 / (if n < 2500 then 2500 else n : Nat))
    let s := s.setAxis a { u with stepTo := next, lastStep := some t, rate := rate }
    if 2 * size < lag then (s.wr pg AXIS.STATUS_STEP_LAG 0 1).bump pg AXIS.STEP_LAG_COUNT_COUNT
    else if lag ≤ size then s.wr pg AXIS.STATUS_STEP_LAG 0 0
    else s

/-- The coarse steps since the last tick. -/
def State.takeSteps (s : State) (a : Fin 4) : State :=
  let l := (s.axisUnit a).steps
  l.foldl (fun s e => s.takeStep a e.1 e.2) (s.setAxis a { s.axisUnit a with steps := [] })

/-- One tick towards the step target. -/
def AxisUnit.stepTick (u : AxisUnit) : AxisUnit :=
  let d := u.stepTo - u.pos
  let m := ratMin (u.rate * tickT) (ratAbs d)
  let σ : Rat := if d < 0 then -1 else 1
  { u with pos := u.pos + σ * m, vel := if m = 0 then 0 else σ * u.rate, acc := 0, travel := u.travel + m }

/-! ### Stall detection and homing (R701 to R705) -/

/-- The axis enters HOLD at rest. -/
def State.axisHold (s : State) (a : Fin 4) : State :=
  (s.setAxis a { s.axisUnit a with vel := 0, acc := 0, stop := false, limit := none, jog := none }).setAxisState a aHOLD

/-- An evaluation is due: the commanded position, or with MOTOR 1 the travel, crossed a multiple of 256 since the last tick. -/
def AxisUnit.evalDue (u : AxisUnit) (motor1 : Bool) : Bool :=
  if motor1 then (u.seen.2 / 256).floor ≠ (u.travel / 256).floor else (u.seen.1 / 256).floor ≠ (u.pos / 256).floor

/-- The load indicator (R701). -/
def State.loadIndicator (s : State) (a : Fin 4) : Nat :=
  if s.motor1 a then min ((s.axisUnit a).pos.floor - s.encCount a).natAbs 4095
  else s.sarCode (s.rd (AXIS.pg a) AXIS.STALL_UNIT) (s.rd (AXIS.pg a) AXIS.STALL_SLOT)

/-- A stall in state `st` (R703, R704); with a limit stop that begins at the same tick it is only recorded (R713). -/
def State.stall (s : State) (a : Fin 4) (st : Nat) (limitNow : Bool) : State :=
  let pg := AXIS.pg a
  if st = aHOMING then
    let u := s.axisUnit a
    let s := s.setAxis a { u with pos := s.rdInt pg AXIS.HOME_POS_POS }
    (s.wr pg AXIS.STATUS_HOMED 0 1).axisHold a
  else
    let s := ((s.wr pg AXIS.STATUS_STALL 0 1).bump pg AXIS.STALL_COUNT_COUNT).irq pg 2
    let s := s.unhome a
    if s.flag pg AXIS.CFG_STALL_ACTION && !limitNow then
      (s.axisFault a 2).setAxis a { (s.axisFault a 2).axisUnit a with stalled := some s.cyc }
    else s

/-- The evaluation at a profile tick (R701, R702) whose motion was that of state `st`. -/
def State.stallCheck (s : State) (a : Fin 4) (st : Nat) (limitNow : Bool) : State :=
  let pg := AXIS.pg a
  let u := s.axisUnit a
  if s.flag pg AXIS.CFG_STALL_EN && aMOVE ≤ st && st ≤ aGEAR && u.evalDue (s.motor1 a) then
    let load := s.loadIndicator a
    let s := s.wr pg AXIS.LOAD_CODE 0 load
    let blank := (st = aMOVE || st = aHOMING) && u.travel < (256 * s.rd pg AXIS.STALL_BLANK : Nat)
    if blank || ratAbs u.vel < s.aR a AXIS.STALL_VMIN_VALUE || load < s.rd pg AXIS.STALL_THR then s.setAxis a { u with run := 0 }
    else if s.rd pg AXIS.STALL_COUNT ≤ u.run + 1 then (s.setAxis a { u with run := 0 }).stall a st limitNow
    else s.setAxis a { u with run := u.run + 1 }
  else s

/-- HOME_MAX (R705). -/
def State.homeMax (s : State) (a : Fin 4) : State :=
  if s.axisState a = aHOMING && (s.rd (AXIS.pg a) AXIS.HOME_MAX_DIST : Nat) ≤ (s.axisUnit a).travel then s.axisFault a 4 else s

/-- HOME_MAX_REACHED: it acts where the travel has reached HOME_MAX. -/
def State.homeMaxReached (s : State) (a : Fin 4) : State := s.homeMax a

/-! ### Gearing (R706 to R709) -/

/-- The geared target. -/
def State.geared (s : State) (a : Fin 4) : Rat :=
  let u := s.axisUnit a
  u.p0 + mkRat (s.rdInt (AXIS.pg a) AXIS.RATIO_NOW_RATIO * (s.encCount 4 - u.m0)) 65536

/-- DEPTH follows the queue. -/
def State.setQueue (s : State) (a : Fin 4) (q : List (Nat × Nat)) : State :=
  (s.setAxis a { s.axisUnit a with queue := q }).wr (AXIS.pg a) AXIS.GEAR_STATUS_DEPTH 0 q.length

/-- `GEAR_CMD.PUSH` is refused; an accepted one; FLUSH (R707). -/
def State.gearFull (s : State) (a : Fin 4) : Bool := 4 ≤ (s.axisUnit a).queue.length
def State.gearPush (s : State) (a : Fin 4) : State :=
  s.setQueue a ((s.axisUnit a).queue ++ [(s.rd (AXIS.pg a) AXIS.GEAR_RATIO_RATIO, s.rd (AXIS.pg a) AXIS.GEAR_TRIG_COUNT)])
def State.gearFlush (s : State) (a : Fin 4) : State := s.setQueue a []

/-- The axis follows the master: STOP and the limit stop end it (R709), a STOP acted on at this very tick not yet (R713). -/
def State.gearOn (s : State) (a : Fin 4) : Bool :=
  let u := s.axisUnit a
  s.axisState a = aGEAR && u.limit.isNone && (!u.stop || u.stopAt = s.cyc)

/-- A master edge (R708): the head entry whose TRIG the count reached is applied; the axis has the new geared velocity from then on,
VMAX its bound, by the master's speed over the last switching period (R709, R713). -/
def State.masterEdge (s : State) (a : Fin 4) : State :=
  if !s.gearOn a then s
  else match (s.axisUnit a).queue with
    | [] => s
    | (ratio, trig) :: q =>
      if signedOf 32 trig = s.encCount 4 then
        let g := s.geared a
        let vmax := s.aR a AXIS.VMAX_VALUE
        let v := clampR (mkRat (signedOf 32 ratio) 65536 * (s.axisUnit a).mSpeed) (-vmax) vmax
        let s := s.setAxis a { s.axisUnit a with m0 := s.encCount 4, p0 := g, vel := v }
        let s := (s.wr (AXIS.pg a) AXIS.RATIO_NOW_RATIO 0 ratio).setQueue a q
        (s.wrapBump (AXIS.pg a) AXIS.GEAR_APPLIED_COUNT).irq (AXIS.pg a) 5
      else s

/-- The axis follows its geared target at a switching-period start (R709); without that nothing holds it back. -/
def State.gearFollow (s : State) (a : Fin 4) : State :=
  let u := s.axisUnit a
  if s.axisState a = aGEAR && !u.stop && u.limit.isNone then
    let pg := AXIS.pg a
    let t : Rat := mkRat (s.rd pg AXIS.SWITCH_PERIOD) 100000000
    let d := s.geared a - u.pos
    let m := s.aR a AXIS.VMAX_VALUE * t
    let held := m < ratAbs d
    let e := if held then if d < 0 then -m else m else d
    let rise := held && !s.flag pg AXIS.STATUS_GEAR_CLAMP
    let m := s.encCount 4
    let u := { u with mSeen := some m, mSpeed := (u.mSeen.map fun (k : Int) => ((signedOf 32 (wrapOf 32 (m - k)) : Int) : Rat) / t).getD 0 }
    let s := s.setAxis a { u with pos := u.pos + e, vel := e / t, acc := 0, travel := u.travel + ratAbs e }
    let s := s.setFlag pg AXIS.STATUS_GEAR_CLAMP 0 held
    if rise then s.bump pg AXIS.GEAR_CLAMP_COUNT_COUNT else s
  else s.wr (AXIS.pg a) AXIS.STATUS_GEAR_CLAMP 0 0

/-! ### The profile tick (R683) -/

/-- |FOLLOW| exceeds FOLLOW_MAX while the axis switches (R686). -/
def State.followCheck (s : State) (a : Fin 4) : State :=
  let st := s.axisState a
  if s.motor1 a && aHOLD ≤ st && st ≤ aGEAR &&
      s.rd (AXIS.pg a) AXIS.FOLLOW_MAX_DIST < ((s.axisUnit a).pos.floor - s.encCount a).natAbs then s.axisFault a 3 else s

/-- The commanded motion of one tick. An axis at rest in GEAR stays there for the tick of its STOP: a TRIG may still come at this CYC
(R713). -/
def State.axisMove (s : State) (a : Fin 4) : State :=
  let pg := AXIS.pg a
  let st := s.axisState a
  let u := s.axisUnit a
  let vmax := s.aR a AXIS.VMAX_VALUE
  let amax := s.aR a AXIS.AMAX_VALUE
  let dec := s.aR a AXIS.DECEL_VALUE
  let j := s.aR a AXIS.JMAX_VALUE
  match u.limit with
  | some (d, lim) =>
    let (rest, v) := u.limitTick d lim
    let s := s.setAxis a v
    if rest && st ≠ aSTEP then s.axisHold a else s
  | none =>
    if u.stop && aMOVE ≤ st && st ≤ aGEAR then
      let v := u.toVel 0 amax dec j
      let s := s.setAxis a v
      if v.vel = 0 && v.acc = 0 && !s.gearOn a then s.axisHold a else s
    else if st = aMOVE then
      match u.jog with
      | some v => s.setAxis a (u.toVel (clampR v (-vmax) vmax) amax dec j)
      | none =>
        let (there, v) := u.toPos u.target vmax amax dec j
        let s := s.setAxis a v
        if there then ((s.axisHold a).wr pg AXIS.STATUS_AT_TARGET 0 1).irq pg 1 else s
    else if st = aHOMING then
      let hv := s.aR a AXIS.HOME_VEL_VALUE
      s.setAxis a (u.toVel (if s.flag pg AXIS.HOMECFG_DIR then hv else -hv) amax dec j)
    else if st = aSTEP then s.setAxis a u.stepTick
    else s

/-- One profile tick of axis `a`: commit, command, limit check, coarse steps, motion, stall, homing (R683, R713). -/
def State.axisTick (s : State) (a : Fin 4) : State :=
  let s := s.boundary (AXIS.pg a)
  let s := s.axisTakeCmd a
  let ahead := s.limitAhead a (s.axisUnit a)
  let s := match ahead with
    | some l => s.limitStop a l
    | none => s
  let st := s.axisState a
  let s := if st = aSTEP then s.takeSteps a else s
  let s := s.axisMove a
  let s := ((s.stallCheck a st ahead.isSome).homeMax a).followCheck a
  let u := s.axisUnit a
  (s.setAxis a { u with seen := (u.pos, u.travel) }).axisShow a

/-- PROFILE_TICK. The axes work in P0 and P1 (R879). -/
def State.profileTick (s : State) : State :=
  if s.mode = mBOOT || 2 ≤ s.pwr.state then s else (List.finRange 4).foldl (fun s (a : Fin 4) => s.axisTick a) s

/-! ### Switching periods (R684 to R686) -/

/-- A duty as a count of 10 ns, rounded to the nearest; a tie is a free value. -/
def State.dutyLen (s : State) (per : Nat) (d : Rat) : Nat × State :=
  let x := clampR d 0 1 * per
  let n := x.floor.toNat
  let f := x - n
  if f = mkRat 1 2 then
    let (w, s) := s.freshWord
    (n + bit01 (w.getLsbD 0), s)
  else (if f < mkRat 1 2 then n else n + 1, s)

/-- The amplitude of the state (R685, R686). -/
def State.axisAmpl (s : State) (a : Nat) : Rat :=
  let st := s.axisState a
  if st = aHOLD then s.aU a AXIS.AMPL_HOLD else if st = aHOMING then s.aU a AXIS.HOMECFG_AMPL else s.aU a AXIS.AMPL_RUN

/-- The duties of the three leg indices. -/
def State.axisDuties (s : State) (a : Fin 4) : (Rat × Rat × Rat) × State :=
  let pg := AXIS.pg a
  let u := s.axisUnit a
  let amp := s.axisAmpl a
  let h : Rat := mkRat 1 2
  if s.motor1 a then
    let count := s.encCount a
    let th := 2 * piR * mkRat (s.rd pg AXIS.BLDC_POLE_PAIRS * (count - s.rdInt pg AXIS.ENC_OFFSET_COUNT)) (s.rd pg AXIS.BLDC_CPR)
    let kv := s.aR a AXIS.KV_VALUE
    let (w, s) := if kv = 0 then (0, s) else s.freshWord
    let x := clampR (s.aR a AXIS.KP_VALUE * ((u.pos.floor - count : Int) : Rat) + kv * (u.vel - if finBits w.toNat then ratOf w.toNat else 0)) (-amp) amp
    let d := fun (k : Nat) => h + h * x * cosR (wrapPi (th + piR / 2 - 2 * piR * k / 3))
    ((d 0, d 1, d 2), s)
  else
    let m : Int := 256 / 2 ^ s.rd pg AXIS.CFG_MSTEP
    let q : Int := u.pos.floor.fdiv m * m
    let q := if s.flag pg AXIS.CFG_DIR_INV then -q else q
    let th := 2 * piR * mkRat (q.emod 1024) 1024
    ((h + h * amp * cosR (wrapPi th), h + h * amp * sinR (wrapPi th), h), s)

/-- SWITCHING_PERIOD_START. -/
def State.switchingPeriod (s : State) (a : Fin 4) (m0 m1 m2 : LegMeasure) : State :=
  let s := if (s.axisUnit a).disable then s.axisIdle a else s
  let st := s.axisState a
  if aHOLD ≤ st && st ≤ aGEAR then
    let s := ((s.gearFollow a).followCheck a).axisShow a
    match s.axisLegs a with
    | some (x, y, z) =>
      if aHOLD ≤ s.axisState a && s.axisState a ≤ aGEAR then
        let per := s.rd (AXIS.pg a) AXIS.SWITCH_PERIOD
        let ((d0, d1, d2), s) := s.axisDuties a
        let (n0, s) := s.dutyLen per d0
        let (n1, s) := s.dutyLen per d1
        let (n2, s) := s.dutyLen per d2
        ((s.legPeriod x m0 per n0).legPeriod y m1 per n1).legPeriod z m2 per n2
      else s
    | none => s
  else s

/-! ### Encoders (R710, R711) -/

/-- The encoders count in every mode after BOOT and in P0 to P2 (R711); encoder `e` decodes where it is enabled (R710). -/
def State.encRuns (s : State) : Bool := s.mode ≠ mBOOT && s.pwr.state ≤ 2
def State.encOn (s : State) (e : Fin 5) : Bool := s.flag ENC.pg ENC.CFG_EN e && s.encRuns

/-- The place of an A and B pair in the quadrature cycle 00, A, AB, B. -/
def quadPlace (ab : BitVec 2) : Nat := if ab = 0 then 0 else if ab = 1 then 1 else if ab = 3 then 2 else 3

/-- ENCODER_EDGE: the lines take the levels `ab`. -/
def State.encoderEdge (s : State) (e : Fin 5) (ab : BitVec 2) : State :=
  let was := s.encAB[e]
  let s := { s with encAB := s.encAB.set e ab }
  if !s.encOn e then s
  else
    let d := (quadPlace ab + 4 - quadPlace was) % 4
    if d = 0 then s
    else if d = 2 then
      let s := (s.bump ENC.pg ENC.QERR_COUNT e).irq ENC.pg (5 + e.val)
      if e.val < 4 && s.motor1 e then s.axisFault (Fin.ofNat 4 e) 5 else s
    else
      let up := (d = 1) != s.flag ENC.pg ENC.CFG_INVERT e
      let s := s.wr ENC.pg ENC.COUNT_COUNT e (wrapOf 32 (s.encCount e + if up then 1 else -1))
      if e.val = 4 then (List.finRange 4).foldl (fun s (a : Fin 4) => s.masterEdge a) s else s

/-- INDEX_CAPTURE (R711): ZCAP_EN alone lets an index edge copy the count, whether or not the encoder decodes. -/
def State.indexCapture (s : State) (e : Fin 5) : State :=
  if s.encRuns && s.flag ENC.pg ENC.CFG_ZCAP_EN e then
    let s := s.wr ENC.pg ENC.ZCAP_COUNT e (s.rd ENC.pg ENC.COUNT_COUNT e)
    (s.putBit ENC.pg ENC.STATUS_Z_VALID 0 e true).irq ENC.pg e
  else s

/-! ### Commits (R716) -/

def State.axisInconsistent (s : State) (a : Nat) : Bool :=
  let m := fun f => s.merged (AXIS.pg a) f
  let lo := signedOf 32 (m AXIS.SOFT_MIN_POS)
  let hi := signedOf 32 (m AXIS.SOFT_MAX_POS)
  let pos := s.rdInt (AXIS.pg a) AXIS.POS_POS
  (m AXIS.CFG_SOFT_EN = 1 && (hi ≤ lo || pos < lo || hi < pos)) ||
    ratOf (m AXIS.LIM_DECEL_VALUE) < ratOf (m AXIS.DECEL_VALUE) ||
    (m AXIS.CFG_MOTOR = 1 && !s.flag ENC.pg ENC.CFG_EN a)

end Sys2Proof.Machine
end

