-- ==== Sys2Proof/Machine/Redun.lean ====
section
/-!
DEFINITION. Machine/Redun.lean: redundant sets, the Twitos links and the house clock (15 R754 to R805).
-/
namespace Sys2Proof.Machine

def State.setPeer (s : State) (m : Fin 3) (p : Peer) : State :=
  { s with redun := { s.redun with peer := s.redun.peer.set m p } }

/-- A member that takes the lead's modes: a follower, and a joiner from phase MODE on (R774, R794). -/
def State.takesMode (s : State) : Bool := s.follower || (s.memState = rJOINING && 4 ≤ s.rd REDUN.pg REDUN.JOIN_PHASE)

/-- The set cycle of an instant (R769). -/
def State.setCycle (s : State) : Nat := s.cyc.toNat / (if s.rd REDUN.pg REDUN.CYCLE_TICKS = 0 then 1 else s.rd REDUN.pg REDUN.CYCLE_TICKS)

/-! ### Lanes (R756 to R761) -/

def State.laneUp (s : State) (l : Nat) : Bool := s.flag (TWITOS.pg l) TWITOS.STATUS_UP

/-- The member that lane `l` connects to by R756. -/
def State.lanePartner (s : State) (l : Nat) : Nat :=
  let m := s.memberId.val
  if s.setSize = 1 then 1 - m else if l < 2 then (m + 1) % 3 else (m + 2) % 3

/-- Some lane to member `m` is up. -/
def State.reaches (s : State) (m : Nat) : Bool := (List.range 4).any fun l => s.laneUp l && s.rd (TWITOS.pg l) TWITOS.STATUS_PARTNER = m

/-- Every enabled lane to member `m` is up, and there is one. -/
def State.lanesUpTo (s : State) (m : Nat) : Bool :=
  let ls := (List.range 4).filter fun l => s.lanePartner l = m && s.flag (TWITOS.pg l) TWITOS.CTRL_EN
  !ls.isEmpty && ls.all fun l => s.laneUp l

/-- The type byte of a frame (R758). -/
def twKind : TwFrame → Nat
  | .idle _ => 0x01
  | .state _ => 0x02
  | .fault .. => 0x03
  | .swap .. => 0x04
  | .ports _ => 0x05
  | .copy _ => 0x06
  | .xfer .. => 0x07
  | .ping _ => 0x08
  | .echo _ => 0x09
  | .cycmark _ => 0x0A

/-- The payload of a frame, 0 to 32 bytes (R758). DESIGN CHOICE (log entry 24): numbers are little-endian, and the member byte of a FAULT frame
says a self-report in its bit 7, for the 12 symbols of R760 leave three bytes; the layouts that R758 does not give are free. -/
def twPayload (f : TwFrame) : List Byte :=
  (match f with
    | .idle c => leBytes 4 c.toNat
    | .fault m self cause src => [BitVec.ofNat 8 (m.val + if self then 128 else 0), cause, BitVec.ofNat 8 src.val]
    | .swap t k => BitVec.ofNat 8 t.val :: leBytes 4 k.toNat
    | .xfer a d => leBytes 4 a.toNat ++ d
    | .ping t | .echo t | .cycmark t => leBytes 8 t.toNat
    | .state _ | .ports _ | .copy _ => Config.twPayload f).take 32

/-- What the CRC-32 of a frame covers: type, length, link sequence number and payload (R758). -/
def twBody (f : TwFrame) (seq : BitVec 16) : List Byte :=
  [BitVec.ofNat 8 (twKind f), BitVec.ofNat 8 (twPayload f).length] ++ leBytes 2 seq.toNat ++ twPayload f

/-- A frame on the wire, behind its K28.5 comma (R758). -/
def twBytes (f : TwFrame) (seq : BitVec 16) : List Byte := twBody f seq ++ leBytes 4 (crc32 0xFFFFFFFF (twBody f seq)).toNat

/-- The symbols that lane `l` sent in its last release, frame by frame; none stands for a comma. -/
def State.laneWire (s : State) (l : Fin 4) : List (Option Byte) :=
  s.redun.lane[l].sent.flatMap fun e => none :: (twBytes e.2 e.1).map some

/-- Frames in a row on lane `l` that failed their check. -/
def State.setFailed (s : State) (l : Fin 4) (n : Nat) : State :=
  { s with redun := { s.redun with lane := s.redun.lane.set l { s.redun.lane[l] with failed := n } } }

/-- A valid frame arrives on lane `l`: it is counted on an up lane. -/
def State.laneRx (s : State) (l : Fin 4) : Option State :=
  if s.laneUp l then some ((s.wrapBump (TWITOS.pg l) TWITOS.FRAMES_RX_COUNT).setFailed l 0) else none

/-- A frame that is sent on every lane: the first copy of its link sequence number counts (R759). The sender and the state
after its receipt; `none` where it is discarded. -/
def State.frameRx (s : State) (l : Fin 4) (seq : BitVec 16) : State × Option (Fin 3) :=
  match s.laneRx l with
  | none => (s, none)
  | some s =>
    let m : Fin 3 := Fin.ofNat 3 (s.rd (TWITOS.pg l) TWITOS.STATUS_PARTNER)
    if s.redun.seen.contains (m, seq) then (s, none)
    else ({ s with redun := { s.redun with seen := ((m, seq) :: s.redun.seen).take 64 } }, some m)

/-! ### Roles (R55, R762, R783) -/

/-- `HOUSE.STATUS.DRIVING`: the lead drives HCLK (R762). -/
def State.hclkShow (s : State) : State :=
  s.setFlag HOUSE.pg HOUSE.STATUS_DRIVING 0 (s.memState = rMEMBER && s.isLead && s.flag HOUSE.pg HOUSE.CTRL_EN)

/-- Source 56 is active while the device, OWNER or ACTIVE, is isolated from another member (R400). -/
def State.isolShow (s : State) : State :=
  let r := s.rd REDUN.pg REDUN.ROLE_ROLE
  s.setSource 56 ((r = 1 || r = 3) && s.redun.isolated ≠ 0)

/-- Which members the device is isolated from (R782). -/
def State.setIsolated (s : State) (x : BitVec 3) : State := { s with redun := { s.redun with isolated := x } }.isolShow

/-- The role takes a value; what a role drives follows. -/
def State.setRole (s : State) (r : Nat) : State :=
  let old := s.rd REDUN.pg REDUN.ROLE_ROLE
  let s := ((s.wr REDUN.pg REDUN.ROLE_ROLE 0 r).irqIf (old ≠ r) REDUN.pg 0).isolShow
  (s.recheckDrive.hclkShow).legsCheck

/-- The role of the lead and of a follower in the set. -/
def State.leadRole (s : State) : Nat := if s.setSize = 2 then 3 else 1
def State.followRole (s : State) : Nat := if s.setSize = 2 then 4 else 2

/-- A pending swap is cancelled (R788). -/
def State.cancelSwap (s : State) : State := { s with redun := { s.redun with swap := none } }

/-- A rescue ends with a takeover or a swap (R798). -/
def State.endRescue (s : State) : State :=
  { s.wr REDUN.pg REDUN.STATUS_CK_RESCUED 0 0 with redun := { s.redun with rescued := 0 } }

/-- This member leads: its root is the set's, so a holdover or a slew of it ends (DEDUCED from R762 and R766, log entry 24). -/
def State.becomeLead (s : State) : State :=
  let s := (s.wr REDUN.pg REDUN.STATUS_LEAD 0 1).wr REDUN.pg REDUN.ROLE_LEAD_ID 0 s.memberId
  let s := (s.endRescue.wr REDUN.pg REDUN.STATUS_TAKEOVER_READY 0 0).cancelSwap
  let s := (s.wr HOUSE.pg HOUSE.STATUS_HOLDOVER 0 0).wr HOUSE.pg HOUSE.STATUS_SLEWING 0 0
  s.setRole s.leadRole

/-- This member enters the set as lead: the initial lead, and PROMOTE (R793). A follower leads the members that are left without its
former lead. -/
def State.enterAsLead (s : State) : State :=
  let s := if s.follower then (s.putPresent s.leadId false).putPresent s.memberId true else s.wr REDUN.pg REDUN.STATUS_PRESENT 0 (2 ^ s.memberId.val)
  let s := (s.wr REDUN.pg REDUN.STATUS_STATE 0 rMEMBER).wr REDUN.pg REDUN.JOIN_PHASE 0 0
  let s := { s with redun := { s.redun with aliveStop := false } }
  s.becomeLead

/-- `TAKEOVER` and what goes with it. -/
def State.recordTakeover (s : State) (cause fromId toId : Nat) : State :=
  let pg := REDUN.pg
  let s := ((s.wr pg REDUN.TAKEOVER_CAUSE 0 cause).wr pg REDUN.TAKEOVER_FROM 0 fromId).wr pg REDUN.TAKEOVER_TO 0 toId
  let s := s.wr64 pg REDUN.TAKEOVER_CYC_LO_CYC REDUN.TAKEOVER_CYC_HI_CYC 0 s.cyc.toNat
  (s.bump pg REDUN.TAKEOVER_COUNT_COUNT).irq pg 1

/-! ### Leaving (R779 to R781) -/

/-- R781: too few members are left. -/
def State.integrity (s : State) : State :=
  if s.memState = rMEMBER && s.memberCount < s.rd REDUN.pg REDUN.CFG_MIN_MEMBERS then s.safeStopAt 0x15 0 0 else s

/-- The device follows no HCLK any more: neither in holdover, nor slewing, nor locked (DEDUCED from R762, R766 and R780, log entry 24). -/
def State.leaveHclk (s : State) : State :=
  let pg := HOUSE.pg
  let old := s.flag pg HOUSE.STATUS_LOCKED
  let s := ((s.wr pg HOUSE.STATUS_HOLDOVER 0 0).wr pg HOUSE.STATUS_SLEWING 0 0).wr pg HOUSE.STATUS_LOCKED 0 0
  { s with redun := { s.redun with holdFrom := 0 } }.irqIf old pg 0

/-- This member leaves the set with a cause (R780). -/
def State.leaveSet (s : State) (cause : Nat) : State :=
  if s.memState ≠ rMEMBER && s.memState ≠ rJOINING then s
  else
    let pg := REDUN.pg
    let s := (s.wr pg REDUN.STATUS_STATE 0 rOUT).wr pg REDUN.STATUS_LEAVE_CAUSE 0 cause
    let s := ((s.wr pg REDUN.STATUS_LEAD 0 0).wr pg REDUN.STATUS_TAKEOVER_READY 0 0).wr pg REDUN.STATUS_PRESENT 0 0
    let s := ((s.wr pg REDUN.STATUS_DEGRADED 0 0).wr pg REDUN.STATUS_CK_RESCUED 0 0).wr pg REDUN.JOIN_PHASE 0 0
    let s := { s with redun := { s.redun with aliveStop := true, swap := none, rescued := 0, passPwm := 0, passCp := false, passCdo := 0, isolated := 0, excluded := 0 }
                      safety := { s.safety with skip := false, skipUntil := none } }
    let s := s.leaveHclk.setRole 0
    if s.modes.causes.isEmpty then s.safeStopAt 0x15 0 0 else s

/-- A self-report (R779): a FAULT frame with its cause and source number (R758), then the leave. -/
def State.selfReport (s : State) (cause : Byte) (src : Fin 64) : State :=
  if s.inSet then (s.sendAll [.fault s.memberId true cause src]).leaveSet 1 else s

/-- The Fusebox latched source `src`: the report has its entry cause (R45; DEDUCED, log entry 24). A member that is DIVERGED leaves as such. -/
def State.selfReportOf (s : State) (src : Fin 64) : State :=
  if 52 ≤ src.val && !s.flag REDUN.pg REDUN.STATUS_DIVERGED && bitOf (s.rd REDUN.pg REDUN.SELF_MASK_SRC) (src - 52) then s.selfReport 0x10 src
  else s

/-! ### Losing a member, takeover (R771 to R773, R778, R783) -/

/-- The channel checks start again one test-pulse period after D (R785). -/
def State.skipTail (s : State) : State :=
  let until_ := s.cyc + BitVec.ofNat 64 (250000 * s.rd SAFEIO.pg SAFEIO.TPCFG_PERIOD_MS)
  { s with safety := { s.safety with skipUntil := if s.safety.skip then some until_ else none } }

/-- This member takes over from lead `m` at instant D (R783). -/
def State.takeOver (s : State) (m cause : Nat) : State :=
  let s := { s with redun := { s.redun with took := some s.cyc, holdCdo := true, passPwm := 0 } }
  (s.recordTakeover cause m s.memberId).becomeLead

/-- A join restarts at phase 1 (R794). -/
def State.joinRestart (s : State) : State :=
  if s.memState = rJOINING then s.wr REDUN.pg REDUN.JOIN_PHASE 0 1 else s

/-- The lead role passes from lead `m` to the successor, if there is one (R783). -/
def State.leadPasses (s : State) (m : Fin 3) (cause : Nat) (next : Option Nat) : State :=
  match next with
  | some k => if k = s.memberId.val then s.takeOver m cause else s.endRescue.wr REDUN.pg REDUN.ROLE_LEAD_ID 0 k
  | none => s

/-- The device has excluded member `m` (R770, R778). -/
def State.exclude (s : State) (m : Fin 3) : State :=
  { s with redun := { s.redun with excluded := s.redun.excluded ||| BitVec.ofNat 3 (2 ^ m.val) } }

/-- Member `m` is no longer in the set: FAILED or DIVERGED (R773, R778), which cancels a pending swap (R788); `cause` as `TAKEOVER.CAUSE`. -/
def State.loseMember (s : State) (m : Fin 3) (cause : Nat) : State :=
  if !(s.memState = rMEMBER && s.present m) then s
  else
    let wasLead := s.leadId = m
    let next := s.successor m
    let s := (s.putPresent m false).irq REDUN.pg (if cause = 3 then 3 else 2)
    let s := ((s.setPeer m {}).cancelSwap).exclude m
    let s := if s.setSize = 2 then s.wr REDUN.pg REDUN.STATUS_DEGRADED 0 1 else s
    (if wasLead && !s.isLead then s.skipTail.leadPasses m cause next else s).integrity

/-- This member is DIVERGED: it leaves with cause 2, also where `SELF_MASK` names source 61 (R773, R798). -/
def State.diverged (s : State) : State :=
  ((s.wr REDUN.pg REDUN.STATUS_DIVERGED 0 1).setSource 61 true).leaveSet 2

/-! ### Digests and the set cycle (R769, R770) -/

/-- CRC-32 over registers in little-endian order. -/
def digestOf (ws : List Nat) : Nat := (crc32 0xFFFFFFFF (ws.flatMap fun w => leBytes 4 w)).toNat

/-- The three digests (R769). -/
def State.digests (s : State) : State :=
  let form := (List.range 2).flatMap fun n =>
    if s.formInUse n then [FORM.THETA_VALUE, FORM.OMEGA_VALUE, FORM.EMAG_VALUE, FORM.PMEAS_VALUE, FORM.QMEAS_VALUE].map fun f => s.rd (FORM.pg n) f
    else []
  let duty := (List.range 16).flatMap fun n =>
    if s.flag (PWM.pg n) PWM.CTRL_EN then (List.range 8).map fun c => s.rd (PWM.pg n) PWM.CMP_FRAC c else []
  let trip := [s.rd FUSE.pg FUSE.LATCH_LO_SRC, s.rd FUSE.pg FUSE.LATCH_HI_SRC, s.rd FUSE.pg FUSE.UNIT_TRIP_UNIT]
  ((s.wr REDUN.pg REDUN.DIGEST_FORM_CRC 0 (digestOf form)).wr REDUN.pg REDUN.DIGEST_DUTY_CRC 0 (digestOf duty)).wr
    REDUN.pg REDUN.DIGEST_TRIP_CRC 0 (digestOf trip)

/-- The pages that the configuration digest does not cover (R795). -/
def undigested : List PageInfo :=
  [CLOCK.info, RESET.info, KEYRACK.info, PORCH.info, IRQ.info, METRO.info, PANTRY.info, ATTIC.info, REDUN.info, TWITOS.info,
    HOUSE.info, ETHSW.info, PTP.info, CELLAR.info, ATTEST.info, DEBUG.info, XFLASH.info]

/-- The in-force fields of a page: RW, RWL and RWS fields hold the value in force (R1), in the order of their addresses; of the header
`IRQ_ENABLE` is one (R100). -/
def State.inForceWords (s : State) (p : PageInfo) : List Nat :=
  let inForce := p.fields.filter fun f => f.acc = .rw || f.acc = .rwl || f.acc = .rws
  let fs := inForce.filter (fun f => f.off < HDR.IRQ_ENABLE_BITS.off) ++ HDR.IRQ_ENABLE_BITS :: inForce.filter fun f => HDR.IRQ_ENABLE_BITS.off < f.off
  (List.range p.count).flatMap fun k => fs.flatMap fun f => (List.range f.cnt).map fun i => s.rd (p.base + k) f i

/-- The configuration digest (R795): pages and fields in the order of their addresses, then the valid banks, then the coefficient words
of each engine (log entry 24). -/
def State.configDigest (s : State) : Nat :=
  let pages := (pageTable.filter fun p => !(undigested.any fun q => q.base = p.base)).flatMap s.inForceWords
  let banks := (List.range 16).flatMap fun b =>
    if bitOf (s.rd LPS.pg LPS.VALID_BANK) b then
      (List.range 256).flatMap fun i => let w := (s.lpsWord (256 * b + i)).toNat; [w % 2 ^ 32, w / 2 ^ 32]
    else []
  let coefs := (List.range 16).flatMap fun n =>
    if s.flag (LE.pg n) LE.CTRL_EN then
      (List.range (s.rd (LE.pg n) LE.DMAP_COEF_LEN)).map fun i => (s.dmem n (s.rd (LE.pg n) LE.DMAP_COEF_BASE + i)).toNat
    else []
  digestOf (pages ++ banks ++ coefs)

/-- The swap's boundary (R787). -/
def State.swapEffect (s : State) (t : Fin 3) : State :=
  let was := s.leadId
  let s := s.endRescue.cancelSwap
  if t = s.memberId then
    let s := { s with redun := { s.redun with holdCp := true, holdCdo := true, took := none, heir := true } }
    (s.recordTakeover 0 was t).becomeLead
  else if s.isLead then
    let driven : BitVec 16 := maskOf fun n => s.flag (PWM.pg n) PWM.STATUS_DRIVING
    let s := { s with redun := { s.redun with passPwm := driven, passCp := true, passCdo := 2, marked := true, agree := 0 } }
    let s := ((s.recordTakeover 0 was t).wr REDUN.pg REDUN.STATUS_LEAD 0 0).wr REDUN.pg REDUN.ROLE_LEAD_ID 0 t
    (s.wr REDUN.pg REDUN.STATUS_TAKEOVER_READY 0 1).setRole s.followRole
  else s.wr REDUN.pg REDUN.ROLE_LEAD_ID 0 t

/-- A set of the `REDUN` page took effect (R793, R799). DESIGN CHOICE (log entry 24): where it changes `SET` between DUPLEX and TRIPLEX in
MEMBER, `ROLE` stays as it was until the next change of role (R55 does not say). -/
def State.redunCommit (s : State) : State :=
  let on := s.flag REDUN.pg REDUN.CTRL_EN && s.setSize ≠ 0
  if !on then
    if s.memState = rALONE then s
    else
      let s := (s.wr REDUN.pg REDUN.STATUS_STATE 0 rALONE).wr REDUN.pg REDUN.STATUS_LEAD 0 0
      let s := (s.wr REDUN.pg REDUN.STATUS_PRESENT 0 0).wr REDUN.pg REDUN.STATUS_TAKEOVER_READY 0 0
      let s := { s with redun := { s.redun with aliveStop := false } }
      ((s.wr REDUN.pg REDUN.STATUS_DEGRADED 0 0).wr REDUN.pg REDUN.JOIN_PHASE 0 0).setRole 0
  else if s.memState = rALONE && s.rd REDUN.pg REDUN.CFG_INIT_LEAD = s.memberId.val then s.enterAsLead
  else s

/-- The lines are read back: in STANDBY and VOTER, and by a joiner in VERIFY (R776, R794; log entry 24). -/
def State.readsBack (s : State) : Bool := s.follower || (s.memState = rJOINING && s.rd REDUN.pg REDUN.JOIN_PHASE = 6)

/-- `SETCYC` shows the current set cycle (R801). -/
def State.showCycle (s : State) : State := s.wr REDUN.pg REDUN.SETCYC_K 0 s.setCycle

/-- A line that read back otherwise is a mismatch (R776): it would drive under conditions 1 to 5 of R387, and an edge is missing, has no
computed one, or lies beyond `RB_TOL` × 2 ns of it, or beyond 1 µs on CP_O. -/
def State.rbMismatch (s : State) : RbLine → Bool
  | .pwm n i dev => s.wouldDrive n && bitOf (s.rd (PWM.pg n) PWM.OUTCFG_OUTEN) i &&
      dev.all fun d => 2000 * s.rd REDUN.pg REDUN.CFG_RB_TOL < d
  | .cp p dev => !s.pilotLow p && dev.all fun d => 1000000 < d

/-- The reads of a set cycle are counted from its boundary on, also where a read falls on the boundary itself (R790, R798). -/
def State.cycleReads (s : State) : State :=
  if s.redun.readsAt = s.setCycle then s
  else { s with redun := { s.redun with readsPrev := s.redun.reads, reads := Vector.replicate 8 0, readsAt := s.setCycle } }

/-- SET_CYCLE_BOUNDARY. -/
def State.setCycleBoundary (s : State) (lines : List RbLine) : State :=
  let rb := lines.any s.rbMismatch
  let s := if s.commitPending REDUN.pg then ((s.applySet REDUN.pg).redunCommit).commitDone REDUN.pg else s
  let s := s.showCycle.digests.cycleReads
  let slip := s.flag HOUSE.pg HOUSE.STATUS_HOLDOVER || s.flag HOUSE.pg HOUSE.STATUS_SLEWING
  let rb := rb && s.readsBack && !slip
  let s := { s with redun := { s.redun with rb := rb } }
  let s := if rb then s.bump REDUN.pg REDUN.MISMATCH_RB else s
  match s.redun.swap with
  | some (t, k) => if k ≤ s.setCycle then s.swapEffect t else s
  | none => s

/-! ### What a member sends (R758, R764, R770, R796) -/

/-- The STATE frame of this set cycle (R770). -/
def State.stateOut (s : State) : StateFrame :=
  let w := fun f => BitVec.ofNat 32 (s.rd REDUN.pg f)
  { k := BitVec.ofNat 32 s.setCycle, state := BitVec.ofNat 2 s.memState, phase := BitVec.ofNat 3 (s.rd REDUN.pg REDUN.JOIN_PHASE)
    ready := s.flag REDUN.pg REDUN.STATUS_TAKEOVER_READY, role := BitVec.ofNat 3 (s.rd REDUN.pg REDUN.ROLE_ROLE)
    form := w REDUN.DIGEST_FORM_CRC, duty := w REDUN.DIGEST_DUTY_CRC, trip := w REDUN.DIGEST_TRIP_CRC, rb := s.redun.rb
    reads := s.redun.readsPrev, view := s.redun.view, excluded := if s.isLead then s.redun.excluded else 0
    config := BitVec.ofNat 32 s.configDigest }

/-- What a PORTS frame says of port `p` (R758). -/
def State.portOut (s : State) (p : Fin 8) : PortCopy :=
  let u := s.portUnit p
  { phase := s.portPhase p, ticks := u.ticks, check := u.check, pre := u.pre, opening := u.opening
    cdoA := s.flag (PORT.pg p) PORT.STATUS_CDO_A, cdoB := s.flag (PORT.pg p) PORT.STATUS_CDO_B }

/-- The COPY items of engine `n`: none in a run, for an item is taken between two runs (R796). -/
def State.leCopies (s : State) (n : Fin 16) : List CopyWord :=
  let u := s.leUnit n
  let reg := fun f i => BitVec.ofNat 32 (s.rd (LE.pg n) f i)
  if !s.flag (LE.pg n) LE.CTRL_EN || u.run.isSome then []
  else
    ((List.finRange 64).map fun (r : Fin 64) => .g n r u.g[r]) ++
    (((List.finRange 512).filter fun (w : Fin 512) => !s.isCoef n w).map fun (w : Fin 512) => .data n w (s.dmem n w)) ++
    ((List.finRange 8).flatMap fun (k : Fin 8) =>
      [.spBack n k (reg LE.SP_TARGET_VALUE k), .spFront n k u.front[k], .spValue n k (reg LE.SP_VALUE_VALUE k), .last n k (reg LE.OPORT_LAST_VALUE k)]) ++
    (((List.finRange 8).filter fun (j : Fin 8) => u.blend.getLsbD j).map fun (j : Fin 8) => .blend n j u.lastB[j] u.tb) ++
    [.state n (Fin.ofNat 6 (s.leState n)), .events n u.events]

/-- The COPY items of Form Unit `n` (R796). -/
def State.formCopies (s : State) (n : Fin 2) : List CopyWord :=
  let u := s.formUnit n
  if !s.formInUse n then []
  else
    ([u.theta, u.omega, u.omegaW, u.pe, u.qe, u.e, u.pNow, u.qNow, u.vNow, u.fNow, u.dfs].zipIdx.map fun x => .form n (Fin.ofNat 11 x.2) x.1) ++
    (List.finRange 24).map fun (k : Fin 24) => .slot n k u.slots[k].ire u.slots[k].iim

/-- A joiner's last STATE frame said a phase of `f`. -/
def State.joinerIn (s : State) (f : Nat → Bool) : Bool := (List.finRange 3).any fun (m : Fin 3) => m ≠ s.memberId && f (s.peer m).phase

/-- What the lead sends a joiner: CYC at the next HCLK edge until its clock agrees, the COPY items while it is in COPY (R764, R794, R796).
DESIGN CHOICE (log entry 24): they go out with the STATE frame, and HCLK rises where CYC is a multiple of 10. -/
def State.joinFrames (s : State) : List TwFrame :=
  (if s.joinerIn fun n => n = 1 || n = 2 then [.cycmark (BitVec.ofNat 64 ((s.cyc.toNat / 10 + 1) * 10))] else []) ++
  (if s.joinerIn fun n => n = 5 then
    ((List.finRange 16).flatMap s.leCopies ++ (List.finRange 2).flatMap s.formCopies).map .copy
  else [])

/-- STATE_FRAME_RELEASE: a member sends its STATE frame, the lead a PORTS frame with it, and what a joiner needs (R758, R770). -/
def State.stateRelease (s : State) : State :=
  if s.memState = rMEMBER || s.memState = rJOINING then
    s.sendAll ([.state s.stateOut] ++ if s.isLead then [.ports (Vector.ofFn s.portOut)] ++ s.joinFrames else [])
  else s

/-- What a tick lets the lanes send, up or not: PING every 1 ms on each lane, and IDLE where a lane sent nothing for 1 µs (R757, R758). -/
def State.lanesTick (s : State) : State :=
  (List.finRange 4).foldl (fun s (l : Fin 4) =>
    if !s.laneOn l then s
    else if s.cyc.toNat % 250000 = 0 then s.sendTo (· = l) [.ping s.cyc]
    else if 250 ≤ s.since s.redun.lane[l].at_ then s.sendTo (· = l) [.idle (s.cyc.setWidth 32)]
    else s) s

/-! ### Joining (R793 to R796) -/

/-- R755: an enabled PWM unit has a safe level other than HIZ. -/
def State.safeLevelBad (s : State) : Bool :=
  (List.range 16).any fun n => s.flag (PWM.pg n) PWM.CTRL_EN &&
    (List.range 8).any fun i => bitsOf (s.rd (PWM.pg n) PWM.SAFE_LEVEL) (2 * i) 2 ≠ 2

/-- A commit with EN 1 is refused with 0x04 (R755, R801). -/
def State.redunInconsistent (s : State) : Bool :=
  let m := fun f => s.merged REDUN.pg f
  let size := m REDUN.CFG_SET + 1
  (m REDUN.CFG_SET ≠ 0 && s.safeLevelBad) ||
    (m REDUN.CTRL_EN = 1 && (s.rd SYS.pg SYS.STRAPS_DEVID = 3 || size < m REDUN.CFG_MIN_MEMBERS || size ≤ m REDUN.CFG_INIT_LEAD))

/-- Phases 1 and 2 complete as their conditions hold (R794). -/
def State.joinStep (s : State) : State :=
  let pg := REDUN.pg
  if s.memState ≠ rJOINING then s
  else
    let s := if s.rd pg REDUN.JOIN_PHASE = 1 && s.lanesUpTo s.leadId then s.wr pg REDUN.JOIN_PHASE 0 2 else s
    if s.rd pg REDUN.JOIN_PHASE = 2 && s.flag HOUSE.pg HOUSE.STATUS_LOCKED && s.flag HOUSE.pg HOUSE.STATUS_CYC_OK then
      s.wr pg REDUN.JOIN_PHASE 0 3
    else s

/-- The join fails and the member leaves (R794, R795). -/
def State.joinFail (s : State) (cause : Nat) : State := (s.leaveSet cause).irq REDUN.pg 5

/-- A failure in phase COPY or VERIFY (R794). -/
def State.copyFail (s : State) : State :=
  let n := s.rd REDUN.pg REDUN.JOIN_ATTEMPTS
  if 3 ≤ n then s.joinFail 4
  else
    let s := (s.wr REDUN.pg REDUN.JOIN_ATTEMPTS 0 (n + 1)).wr REDUN.pg REDUN.JOIN_PHASE 0 5
    { s with redun := { s.redun with verify := 0 } }

/-- The join is done. -/
def State.joinDone (s : State) : State :=
  let pg := REDUN.pg
  let s := (s.wr pg REDUN.JOIN_PHASE 0 7).wr pg REDUN.STATUS_STATE 0 rMEMBER
  let s := ((s.putPresent s.memberId true).putPresent s.leadId true).wr pg REDUN.STATUS_TAKEOVER_READY 0 1
  (s.setRole s.followRole).irq pg 4

/-- JOIN, SWAP, LEAVE and PROMOTE are refused with 0x05 (R788, R793). -/
def State.redunCmdRefused (s : State) (code target : Nat) : Bool :=
  let on := s.flag REDUN.pg REDUN.CTRL_EN && s.setSize ≠ 0
  let outside := s.memState = rALONE || s.memState = rOUT
  match code with
  | 1 => !(on && outside && !s.safeLevelBad &&
      ((s.mode = mCONFIG && s.allCommitted) || s.mode = mREADY))
  | 2 => !(s.memState = rMEMBER && s.isLead && target < 3 && target ≠ s.memberId.val && s.present target &&
      (s.peer (Fin.ofNat 3 target)).ready)
  | 3 => outside
  | _ => !(on && !(s.memState = rMEMBER && s.isLead) && s.mode = mCONFIG && 2 ≤ s.redun.leadless)

/-- An accepted command of `REDUN.CMD`. -/
def State.redunCmd (s : State) (code target : Nat) : State :=
  let pg := REDUN.pg
  match code with
  | 1 =>
    let s := ((s.wr pg REDUN.STATUS_STATE 0 rJOINING).wr pg REDUN.JOIN_PHASE 0 1).wr pg REDUN.JOIN_ATTEMPTS 0 0
    let s := (s.wr pg REDUN.STATUS_DIVERGED 0 0).wr pg REDUN.STATUS_LEAVE_CAUSE 0 0
    let s := s.setSource 61 false
    let s := { s with redun := { s.redun with verify := 0, marked := false, agree := 0, aliveStop := false } }
    ((s.leaveHclk.wr HOUSE.pg HOUSE.STATUS_CYC_OK 0 0).setRole 0).joinStep
  | 2 => { s with redun := { s.redun with swap := some (Fin.ofNat 3 target, s.setCycle + 2) } }.sendAll
      [.swap (Fin.ofNat 3 target) (BitVec.ofNat 32 (s.setCycle + 2))]
  | 3 => s.leaveSet 5
  | _ => s.enterAsLead

/-- JOIN_PHASE_TIMEOUT: phases 1 to 3. -/
def State.joinTimeout (s : State) : State :=
  if s.memState = rJOINING && s.rd REDUN.pg REDUN.JOIN_PHASE ≤ 3 then s.joinFail 4 else s

/-- A copied word (R796). -/
def State.copyWord (s : State) : CopyWord → State
  | .g n r v => s.setLe n { s.leUnit n with g := (s.leUnit n).g.set r v }
  | .data n w v => if s.isCoef n w then s else s.setDmem n w v
  | .spBack n k v => s.wr (LE.pg n) LE.SP_TARGET_VALUE k v.toNat
  | .spFront n k v => s.setLe n { s.leUnit n with front := (s.leUnit n).front.set k v }
  | .spValue n k v => s.wr (LE.pg n) LE.SP_VALUE_VALUE k v.toNat
  | .last n j v => s.wr (LE.pg n) LE.OPORT_LAST_VALUE j v.toNat
  | .blend n j v tb =>
    let u := s.leUnit n
    s.setLe n { u with lastB := u.lastB.set j v, tb := tb, blend := u.blend ||| BitVec.ofNat 8 (2 ^ j.val) }
  | .state n st => s.setLeState n st
  | .events n k => s.setLe n { s.leUnit n with events := k }
  | .form u var v =>
    let x := s.formUnit u
    s.setForm u (match var.val with
      | 0 => { x with theta := v }
      | 1 => { x with omega := v }
      | 2 => { x with omegaW := v }
      | 3 => { x with pe := v }
      | 4 => { x with qe := v }
      | 5 => { x with e := v }
      | 6 => { x with pNow := v }
      | 7 => { x with qNow := v }
      | 8 => { x with vNow := v }
      | 9 => { x with fNow := v }
      | _ => { x with dfs := v })
  | .slot u k re im =>
    let x := s.formUnit u
    s.setForm u { x with slots := x.slots.set k { x.slots[k] with ire := re, iim := im } }

/-! ### Votes (R770 to R773, R778, R785) -/

/-- The three values of a digest all differ: no member is trusted, and none is in the minority (R771). -/
def allDiffer (ds : List (Fin 3 × Nat)) : Bool :=
  ds.length = 3 && ds.all fun e => (ds.countP fun f => f.2 = e.2) = 1

/-- A member is in a mismatch with the others at a vote instant, as seen over the digests `ds` (member, digest). -/
def minorityOf (ds : List (Fin 3 × Nat)) (m : Fin 3) : Bool :=
  match ds.find? fun e => e.1 = m with
  | some (_, x) => (ds.countP fun e => e.2 = x) = 1 && ds.length = 3 && !allDiffer ds
  | none => false

/-- The frame of cycle K from member `m`, if one is held. -/
def State.held (s : State) (m : Fin 3) : Option StateFrame :=
  (s.peer m).frame.bind fun f => if f.k.toNat = s.setCycle % 2 ^ 32 then some f else none

/-- The values of one digest at a vote, this member's included. -/
def State.voteOf (s : State) (own : Fld) (f : StateFrame → Word) : List (Fin 3 × Nat) :=
  (List.finRange 3).filterMap fun (m : Fin 3) =>
    if m = s.memberId then some (m, s.rd REDUN.pg own) else if s.present m then (s.held m).map fun x => (m, (f x).toNat) else none

/-- Members of the set without a frame of this cycle are counted (R770). -/
def State.voteMiss (s : State) : State :=
  let s := (List.finRange 3).foldl (fun s (m : Fin 3) =>
    if m ≠ s.memberId && s.present m then
      match s.held m with
      | some f => s.setPeer m { s.peer m with miss := 0, ready := f.ready }
      | none => (s.bump REDUN.pg REDUN.HB_MISS_COUNT).setPeer m { s.peer m with miss := (s.peer m).miss + 1 }
    else s) s
  if s.follower then
    let gone := 1 ≤ (s.peer (Fin.ofNat 3 s.leadId)).miss
    { s with safety := { s.safety with skip := gone || (s.safety.skip && s.safety.skipUntil.isSome) } }
  else s

/-- Member `m` is FAILED by its silence (R778): for a lead of a triplex, as its successor sees it; the other follower learns it from the
exclusions of its new lead (R770). -/
def State.silent (s : State) (m : Fin 3) : Bool :=
  let alive := s.flag REDUN.pg REDUN.CFG_ALIVE_EN && bitOf (s.rd REDUN.pg REDUN.STATUS_ALIVE_SEEN) m
  let third := (List.finRange 3).any fun (k : Fin 3) => k ≠ m && k ≠ s.memberId && s.present k &&
    (s.held k).any fun f => !f.view.getLsbD m
  m ≠ s.memberId && s.present m && 2 ≤ (s.peer m).miss && (!alive || (s.setSize = 2 && m.val = s.leadId && s.successor m = some s.memberId.val && third))

/-- The mismatches of this vote: which members are in the minority or, of two, in disagreement (R771, R772). -/
def State.voteBad (s : State) : State :=
  let ds := [s.voteOf REDUN.DIGEST_FORM_CRC (·.form), s.voteOf REDUN.DIGEST_DUTY_CRC (·.duty), s.voteOf REDUN.DIGEST_TRIP_CRC (·.trip)]
  let differ := fun (d : List (Fin 3 × Nat)) => d.any fun e => d.any fun f => e.2 ≠ f.2
  let s := ([REDUN.MISMATCH_FORM, REDUN.MISMATCH_DUTY, REDUN.MISMATCH_TRIP].zip ds).foldl (fun s x => if differ x.2 then s.bump REDUN.pg x.1 else s) s
  let n := ds.map List.length
  let follower : Fin 3 := (List.finRange 3).find? (fun (m : Fin 3) => s.present m && m.val ≠ s.leadId) |>.getD s.memberId
  let rb := if s.isLead then (s.held follower).any (·.rb) else s.redun.rb
  let s := (List.finRange 3).foldl (fun s (m : Fin 3) =>
    let bad := if s.memberCount = 3 then ds.any fun d => minorityOf d m
      else s.memberCount = 2 && m = follower && ((n.all (· = 2) && ds.any differ) || rb)
    s.setPeer m { s.peer m with bad := if bad then (s.peer m).bad + 1 else 0 }) s
  if s.memberCount = 3 && ds.any allDiffer then s.safeStopAt 0x15 0 0 else s

/-- The vote of a joiner in phase VERIFY: without a frame of the lead its digests are not compared, and the vote instant is none of the
consecutive ones (DEDUCED from R794, log entry 24). -/
def State.voteJoin (s : State) : State :=
  if s.memState = rJOINING && s.rd REDUN.pg REDUN.JOIN_PHASE = 6 then
    match s.held (Fin.ofNat 3 s.leadId) with
    | none => if s.redun.rb then s.copyFail else { s with redun := { s.redun with verify := 0 } }
    | some f =>
      let same := f.form.toNat = s.rd REDUN.pg REDUN.DIGEST_FORM_CRC && f.duty.toNat = s.rd REDUN.pg REDUN.DIGEST_DUTY_CRC &&
        f.trip.toNat = s.rd REDUN.pg REDUN.DIGEST_TRIP_CRC && !s.redun.rb
      if !same then s.copyFail
      else
        let s := { s with redun := { s.redun with verify := s.redun.verify + 1 } }
        if s.rd REDUN.pg REDUN.CFG_JOIN_CYCLES ≤ s.redun.verify then s.joinDone else s
  else s

/-- What a member does at a vote instant: misses and mismatches are counted, and one that lasts removes its cause. -/
def State.voteMember (s : State) : State :=
  let s := s.voteMiss.voteBad
  let div := s.rd REDUN.pg REDUN.CFG_DIV_CYCLES
  if div ≤ (s.peer s.memberId).bad then s.diverged
  else
    let s := (List.finRange 3).foldl (fun s (m : Fin 3) => if m ≠ s.memberId && div ≤ (s.peer m).bad then s.loseMember m 3 else s) s
    (List.finRange 3).foldl (fun s (m : Fin 3) => if s.silent m then s.loseMember m 2 else s) s

/-- VOTE_INSTANT. -/
def State.vote (s : State) : State :=
  let r := s.redun
  let s := { s with redun := { r with leadless := if r.leadHeard then 0 else r.leadless + 1, leadHeard := false,
                                      view := maskOf fun m => m = s.memberId || (s.held m).isSome } }
  let s := if s.memState = rMEMBER then s.voteMember else s.voteJoin
  (List.finRange 3).foldl (fun s (m : Fin 3) => s.setPeer m { s.peer m with frame := none }) s

/-! ### Frames (R758 to R764, R774, R775, R791, R796) -/

/-- R764: the K of a STATE frame from the lead is compared, by a joiner once it has loaded CYC. -/
def State.cycCheck (s : State) (f : StateFrame) : State :=
  if !(s.follower || s.redun.marked) then s
  else if f.k.toNat = s.setCycle % 2 ^ 32 then
    let s := { s with redun := { s.redun with agree := s.redun.agree + 1 } }
    if 4 ≤ s.redun.agree then s.wr HOUSE.pg HOUSE.STATUS_CYC_OK 0 1 else s
  else
    let s := ((s.wr HOUSE.pg HOUSE.STATUS_CYC_OK 0 0).bump HOUSE.pg HOUSE.CYC_ERR_COUNT).irq HOUSE.pg 2
    ({ s with redun := { s.redun with agree := 0 } }).leaveSet 7

/-- R791: the stream counts that differ from the lead's. -/
def State.stampCheck (s : State) (f : StateFrame) : State :=
  let n := (List.finRange 8).countP fun (k : Fin 8) => f.reads[k] ≠ s.redun.readsPrev[k]
  if n = 0 then s else ((List.range n).foldl (fun s _ => s.bump REDUN.pg REDUN.STAMP_ERR_COUNT) s).irq REDUN.pg 6

/-- What the last STATE frame of a member says (R770, R794): a lead was heard, whatever its set cycle (R793); an exclusion ends when the
member joins (R780). -/
def State.takeState (s : State) (m : Fin 3) (f : StateFrame) (lead : Bool) : State :=
  let s := s.setPeer m { s.peer m with frame := some f, ready := f.ready, phase := if f.state = 1 then f.phase.toNat else 0 }
  let back := if f.state = 1 then BitVec.ofNat 3 (2 ^ m.val) else 0
  { s with redun := { s.redun with leadHeard := s.redun.leadHeard || lead, excluded := s.redun.excluded &&& ~~~back } }

/-- A follower excludes what the lead excluded (R770, R778). -/
def State.takeExcluded (s : State) (x : BitVec 3) : State :=
  (List.finRange 3).foldl (fun s (k : Fin 3) =>
    if x.getLsbD k && k ≠ s.memberId && k.val ≠ s.leadId then s.loseMember k 2 else s) s

/-- STATE_FRAME. -/
def State.stateFrame (s : State) (l : Fin 4) (seq : BitVec 16) (f : StateFrame) : State :=
  match s.frameRx l seq with
  | (s, none) => s
  | (s, some m) =>
    let lead := f.role = 1 || f.role = 3
    let s := s.takeState m f lead
    let s := if lead && s.memState = rJOINING && s.leadId ≠ m then s.joinRestart else s
    let s := if lead && (s.memState = rJOINING || (s.follower && s.present m)) then s.wr REDUN.pg REDUN.ROLE_LEAD_ID 0 m else s
    let s := if f.state = 2 && s.memState = rMEMBER && !s.present m && !s.redun.excluded.getLsbD m then
        let s := s.putPresent m true
        if s.memberCount = 3 then s.wr REDUN.pg REDUN.STATUS_DEGRADED 0 0 else s
      else s
    let s := if lead && s.follower && m.val = s.leadId then s.takeExcluded f.excluded else s
    let s := if s.memState = rMEMBER && (s.isLead || lead) then s.stampCheck f else s
    if lead && s.memState ≠ rOUT && !s.isLead then
      let s := s.cycCheck f
      let s := s.joinStep
      if s.memState = rJOINING && s.rd REDUN.pg REDUN.JOIN_PHASE = 3 then
        if f.config.toNat = s.configDigest then s.wr REDUN.pg REDUN.JOIN_PHASE 0 4 else s.joinFail 6
      else s
    else s

/-- FAULT_FRAME. -/
def State.faultFrame (s : State) (l : Fin 4) (seq : BitVec 16) (m : Fin 3) (self : Bool) (cause : Byte) (src : Fin 64) (ago : Nat) : State :=
  match s.frameRx l seq with
  | (s, none) => s
  | (s, some _) =>
    if self then
      let s := if m.val = s.leadId then s.joinRestart else s
      s.loseMember m 1
    else if s.memState = rMEMBER then s.safeStopAt cause.toNat src ago
    else s

/-- The set cycle whose low 32 bits a frame carries: the one next to the current one. -/
def State.fullCycle (s : State) (k : Word) : Nat :=
  let d := (k - BitVec.ofNat 32 s.setCycle).toNat
  if d < 2 ^ 31 then s.setCycle + d else s.setCycle

/-- SWAP_FRAME. -/
def State.swapFrame (s : State) (l : Fin 4) (seq : BitVec 16) (t : Fin 3) (k : Word) : State :=
  match s.frameRx l seq with
  | (s, none) => s
  | (s, some m) =>
    if s.memState = rMEMBER && m.val = s.leadId then { s with redun := { s.redun with swap := some (t, s.fullCycle k) } } else s

/-- PORTS_FRAME. -/
def State.portsFrame (s : State) (l : Fin 4) (seq : BitVec 16) (ports : Vector PortCopy 8) : State :=
  match s.frameRx l seq with
  | (s, none) => s
  | (s, some m) =>
    if m.val = s.leadId && s.takesMode then
      (List.finRange 8).foldl (fun s (p : Fin 8) => s.setPort p { s.portUnit p with copy := some ports[p] }) s
    else s

/-- COPY_FRAME: a joiner in COPY takes the items of its lead (R796). -/
def State.copyFrame (s : State) (l : Fin 4) (seq : BitVec 16) (words : List CopyWord) (last : Bool) : State :=
  match s.frameRx l seq with
  | (s, none) => s
  | (s, some m) =>
    if s.memState = rJOINING && s.rd REDUN.pg REDUN.JOIN_PHASE = 5 && m.val = s.leadId then
      let s := words.foldl State.copyWord s
      if last then { s.wr REDUN.pg REDUN.JOIN_PHASE 0 6 with redun := { s.redun with verify := 0 } } else s
    else s

/-- XFER_FRAME: a write of the device, with the checks of Main SRAM (R32, R953). -/
def State.xferFrame (s : State) (l : Fin 4) (seq : BitVec 16) (addr : Word) (data : List Byte) : State :=
  match s.frameRx l seq with
  | (s, none) => s
  | (s, some _) => (s.dmaWrite addr.toNat data).2

/-! ### CYC of a follower (R764) -/

/-- Moments of CYC that a structure holds move by `d`, so that what has passed since them stays. -/
def FormUnit.stepCyc (u : FormUnit) (d : Word64) : FormUnit :=
  { u with
    slots := u.slots.map fun x => { x with fadeFrom := x.fadeFrom.map (· + d) }
    next := u.next.map (· + d), tu := u.tu + d, gRef := u.gRef.map fun x => { x with at_ := x.at_ + d }, gPrev := u.gPrev.map fun x => (x.1, x.2 + d)
    presentFrom := u.presentFrom.map (· + d), permitFrom := u.permitFrom.map (· + d), syncFrom := u.syncFrom + d }
def LegUnit.stepCyc (u : LegUnit) (d : Word64) : LegUnit :=
  { u with
    cmd := u.cmd.map fun c => { c with start := c.start + d }, prev := u.prev.map fun c => { c with start := c.start + d }
    pulse := u.pulse.map (· + d), lastLow := (BitVec.ofNat 64 u.lastLow + d).toNat, mend := u.mend.map (· + d)
    brake := u.brake.map fun x => (x.1 + d, x.2), left := u.left.map fun x => { x with cyc := x.cyc + d, last := x.last + d } }
def AxisUnit.stepCyc (u : AxisUnit) (d : Word64) : AxisUnit :=
  { u with
    steps := u.steps.map fun x => (x.1, x.2 + d), lastStep := u.lastStep.map (· + d), stalled := u.stalled.map (· + d), stopAt := u.stopAt + d }
def SafetyState.stepCyc (u : SafetyState) (d : Word64) : SafetyState :=
  { u with
    tp := u.tp.map fun x => { x with start := x.start + d }, wdog := u.wdog.map fun x => { x with last := x.last + d }
    net := u.net.map fun x => { x with took := x.took.map (· + d) }, skipUntil := u.skipUntil.map (· + d)
    pulsesFrom := (BitVec.ofNat 64 u.pulsesFrom + d).toNat }
def RedunState.stepCyc (u : RedunState) (d : Word64) : RedunState :=
  { u with took := u.took.map (· + d), holdFrom := u.holdFrom + d, lane := u.lane.map fun x => { x with at_ := x.at_ + d } }
def EthState.stepCyc (u : EthState) (d : Word64) : EthState :=
  { u with delivered := u.delivered.map fun e => (e.1, e.2.1, e.2.2 + d), sent := u.sent.map fun e => (e.1, e.2.1, e.2.2.1, e.2.2.2 + d) }

/-- CYC takes the value `c` (R764): the carriers follow as R371 says, and every moment that a time is counted from moves with it; stamps
of events that have been recorded stay. -/
def State.loadCyc (s : State) (c : Word64) : State :=
  let d := c - s.cyc
  let fine : Int := 128 * ((c.toNat : Int) - s.cyc.toNat)
  let s := s.moveCyc c
  { s with
    modes := { s.modes with causes := s.modes.causes.map fun x => (x.1, x.2 + d) }
    clk := { s.clk with substSince := s.clk.substSince + d }
    sec := { s.sec with challenge := s.sec.challenge.map (· + d), session := s.sec.session.map fun x => (x.1 + d, x.2) }
    form := s.form.map (·.stepCyc d)
    le := s.le.map fun u => { u with tb := u.tb + d, run := u.run.map fun r => { r with at_ := r.at_ + d } }
    pwm := s.pwm.map fun u => { u with tripAt := u.tripAt + d }
    sar := s.sar.map fun u => { u with begun := u.begun.map (· + d) }
    dsf := s.dsf.map fun u => { u with owed := u.owed.map (· + fine), prev := u.prev.map (· + fine) }
    pilot := s.pilot.map fun u =>
      { u with genLast := u.genLast.map fun x => (x.1, x.2 + d), start := u.start + d, rise := u.rise + d, fall := u.fall + d }
    metro := { s.metro with cmd := s.metro.cmd.map fun x => { x with at_ := x.at_ + d }, ends := s.metro.ends.map fun x => (x.1 + d, x.2) }
    safety := s.safety.stepCyc d
    leg := s.leg.map (·.stepCyc d)
    chimney := { s.chimney with last := s.chimney.last.map fun x => (x.1, x.2 + d) }
    axis := s.axis.map (·.stepCyc d)
    attic := { s.attic with pull := s.attic.pull.map fun x => x.map (· + d) }
    redun := s.redun.stepCyc d
    ptp := { s.ptp with sched := s.ptp.sched.map fun x => { x with until_ := x.until_ + d } }
    eth := s.eth.stepCyc d }

/-- CYCMARK: a joiner loads CYC; a mark that its CYC agrees with leaves the count of agreeing set cycles. -/
def State.cycMark (s : State) (l : Fin 4) (seq : BitVec 16) (cyc : Word64) : State :=
  match s.frameRx l seq with
  | (s, none) => s
  | (s, some _) =>
    if s.memState = rJOINING then
      let agree := if s.redun.marked && s.cyc = cyc then s.redun.agree else 0
      let s := s.loadCyc cyc
      { s with redun := { s.redun with marked := true, agree := agree } }.showCycle
    else s

/-- LANE_UP. -/
def State.laneUpEvent (s : State) (l : Fin 4) (m : Fin 3) : State :=
  let pg := TWITOS.pg l
  if !s.flag pg TWITOS.CTRL_EN || s.laneUp l then s
  else
    let s := ((s.wr pg TWITOS.STATUS_UP 0 1).wr pg TWITOS.STATUS_PARTNER 0 m).wr pg TWITOS.STATUS_PARTNER_VALID 0 1
    let s := (s.wrapBump pg TWITOS.FRAMES_RX_COUNT).irq pg 0
    (s.setIsolated (s.redun.isolated &&& ~~~BitVec.ofNat 3 (2 ^ m.val))).joinStep

/-- The lane is down: its partner is not valid. A joiner in COPY or VERIFY that no lane joins to its lead any more fails there (DEDUCED from
R794, log entry 24). -/
def State.laneDown (s : State) (l : Fin 4) : State :=
  let pg := TWITOS.pg l
  if s.laneUp l then
    let s := (((s.wr pg TWITOS.STATUS_UP 0 0).wr pg TWITOS.STATUS_PARTNER_VALID 0 0).bump pg TWITOS.ERR_DOWN_COUNT).irq pg 0
    let ph := s.rd REDUN.pg REDUN.JOIN_PHASE
    if s.memState = rJOINING && (ph = 5 || ph = 6) && !s.reaches s.leadId then s.copyFail else s
  else s

/-- A frame on lane `l` fails its check: it is counted, and the fourth in a row loses the lane (R757). -/
def State.badFrame (s : State) (l : Fin 4) : State :=
  if !s.flag (TWITOS.pg l) TWITOS.CTRL_EN then s
  else
    let n := s.redun.lane[l].failed + 1
    let s := (s.bump (TWITOS.pg l) TWITOS.ERR_CRC_ERR).setFailed l n
    if 4 ≤ n then (s.laneDown l).setFailed l 0 else s

/-- LANE_LOST. -/
def State.laneLost (s : State) (l : Fin 4) (failed : Nat) : State :=
  (((List.range failed).foldl (fun s _ => s.bump (TWITOS.pg l) TWITOS.ERR_CRC_ERR) s).laneDown l).setFailed l 0

/-- IDLE_FRAME, PING and ECHO. -/
def State.idleFrame (s : State) (l : Fin 4) (cyc : Option Word) : State :=
  match cyc with
  | some _ => (s.laneRx l).getD s
  | none => s.badFrame l
def State.ping (s : State) (l : Fin 4) (at_ : Word64) : State :=
  match s.laneRx l with
  | some s => s.sendTo (· = l) [.echo at_]
  | none => s
def State.echo (s : State) (l : Fin 4) (ps : Nat) : State :=
  match s.laneRx l with
  | some s => s.wr (TWITOS.pg l) TWITOS.RTT_PS 0 ps
  | none => s

/-- A set of the page of lane `l` took effect: a lane that is off is not up. -/
def State.twitosCommit (s : State) (l : Fin 4) : State := if s.flag (TWITOS.pg l) TWITOS.CTRL_EN then s else s.laneDown l

/-! ### ALIVE, isolation (R777, R782) -/

/-- ALIVE_TOGGLE. -/
def State.aliveToggle (s : State) : State :=
  if s.mode = mBOOT || s.redun.aliveStop then s else { s with redun := { s.redun with alive := !s.redun.alive } }

/-- The pin that watches member `m`. -/
def alivePin (m : Fin 3) : Fld := if m = 0 then REDUN.ALIVE_PIN0 else if m = 1 then REDUN.ALIVE_PIN1 else REDUN.ALIVE_PIN2

/-- An edge on TRIP_I pin `p` is an ALIVE edge of the members watched there. -/
def State.aliveEdge (s : State) (p : Nat) : State :=
  if s.flag REDUN.pg REDUN.CFG_ALIVE_EN && s.setSize ≠ 0 then
    (List.finRange 3).foldl (fun s (m : Fin 3) =>
      if m ≠ s.memberId && m.val ≤ s.setSize && s.rd REDUN.pg (alivePin m) = p then s.putBit REDUN.pg REDUN.STATUS_ALIVE_SEEN 0 m true else s) s
  else s

/-- ALIVE_LOST. -/
def State.aliveLost (s : State) (m : Fin 3) : State :=
  (s.putBit REDUN.pg REDUN.STATUS_ALIVE_SEEN 0 m false).setIsolated (s.redun.isolated &&& ~~~BitVec.ofNat 3 (2 ^ m.val))

/-- ISOLATION. -/
def State.isolation (s : State) (m : Fin 3) : State :=
  if s.memState = rMEMBER && m ≠ s.memberId && s.present m && !s.reaches m &&
      bitOf (s.rd REDUN.pg REDUN.STATUS_ALIVE_SEEN) m then
    let s := s.setIsolated (s.redun.isolated ||| BitVec.ofNat 3 (2 ^ m.val))
    if s.isLead then s
    else if m.val = s.leadId then s.leaveSet 3
    else s
  else s

/-! ### The house clock (R762 to R766, R784) -/

/-- `HOUSE.STATUS.LOCKED` takes a value. -/
def State.setLocked (s : State) (b : Bool) : State :=
  let old := s.flag HOUSE.pg HOUSE.STATUS_LOCKED
  (s.setFlag HOUSE.pg HOUSE.STATUS_LOCKED 0 b).irqIf (old != b) HOUSE.pg 0

/-- The device follows HCLK: a member or joiner that does not lead. -/
def State.followsHclk (s : State) : Bool := (s.follower || s.memState = rJOINING) && s.flag HOUSE.pg HOUSE.CTRL_EN

/-- DLL_LOCKED. -/
def State.dllLocked (s : State) (tap e : Nat) : State :=
  if s.followsHclk && !s.flag HOUSE.pg HOUSE.STATUS_HOLDOVER then
    (((s.wr HOUSE.pg HOUSE.DLL_TAP 0 tap).wr HOUSE.pg HOUSE.DLL_PHASE_PS 0 e).setLocked true).joinStep
  else s

/-- HCLK_ABSENT. -/
def State.hclkAbsent (s : State) : State :=
  if s.followsHclk && !s.flag HOUSE.pg HOUSE.STATUS_HOLDOVER then
    let s := (s.wr HOUSE.pg HOUSE.STATUS_HOLDOVER 0 1).wr HOUSE.pg HOUSE.STATUS_SLEWING 0 0
    let s := { s with redun := { s.redun with holdFrom := s.cyc } }
    ((s.bump HOUSE.pg HOUSE.HOLD_COUNT_COUNT).irq HOUSE.pg 1).setLocked false
  else s

/-- The device is in holdover as a follower (R766). -/
def State.inHoldover (s : State) : Bool := s.followsHclk && s.flag HOUSE.pg HOUSE.STATUS_HOLDOVER

/-- HCLK_RETURN: at the 1 ms limit the limit governs (R798). -/
def State.hclkReturn (s : State) (e : Int) : State :=
  if s.inHoldover then
    let s := s.wr HOUSE.pg HOUSE.DLL_PHASE_PS 0 (wrapOf 16 e)
    if e.natAbs ≤ 16000 && s.since s.redun.holdFrom < 250000 then (s.wr HOUSE.pg HOUSE.STATUS_HOLDOVER 0 0).wr HOUSE.pg HOUSE.STATUS_SLEWING 0 1
    else s.leaveSet 7
  else s

/-- SLEW_END. -/
def State.slewEnd (s : State) (e : Nat) : State :=
  if s.flag HOUSE.pg HOUSE.STATUS_SLEWING then
    ((s.wr HOUSE.pg HOUSE.STATUS_SLEWING 0 0).wr HOUSE.pg HOUSE.DLL_PHASE_PS 0 e).setLocked true
  else s

/-- HOLDOVER_LIMIT. -/
def State.holdoverLimit (s : State) : State := if s.inHoldover then s.leaveSet 7 else s

/-- CK_RESCUE. -/
def State.ckRescue (s : State) (k : Fin 4) : State :=
  if s.follower && s.flag REDUN.pg REDUN.CFG_CK_RESCUE && s.successor s.leadId = some s.memberId.val &&
      s.flag (DSF.pg 0) DSF.DSCK_EN k && s.flag (DSF.pg 0) DSF.DSCK_RECEIVE k then
    { s.wr REDUN.pg REDUN.STATUS_CK_RESCUED 0 1 with redun := { s.redun with rescued := s.redun.rescued ||| BitVec.ofNat 4 (2 ^ k.val) } }
  else s

/-! ### Stamps and transfers (R790, R796) -/

/-- A read of `STAMPs`: the value returned and the state after. -/
def State.stampRead (s : State) (k : Fin 8) : Nat × State :=
  let s := s.cycleReads
  let i := s.redun.reads[k]
  let s := { s with redun := { s.redun with reads := s.redun.reads.set k (i + 1) } }
  if i < 256 then ((s.setCycle % 2 ^ 24) * 256 + i, s) else (0xFFFFFFFF, s.bump REDUN.pg REDUN.STAMP_ERR_COUNT)

/-- `XFER_CMD` with GO is refused with a code. -/
def State.xferRefused (s : State) (len : Nat) : Option Nat :=
  if len % 8 ≠ 0 then some 0x03 else if s.flag REDUN.pg REDUN.XFER_STATUS_BUSY then some 0x05 else none

/-- The XFER frames of a transfer: 24 bytes each, which its address and a payload of 32 bytes leave room for (log entry 24). -/
def xferFrames (a : Nat) (bs : List Byte) : List TwFrame :=
  (List.range ((bs.length + 23) / 24)).map fun i => .xfer (BitVec.ofNat 32 (a + 24 * i)) ((bs.drop (24 * i)).take 24)

/-- An accepted `XFER_CMD`: the data is read at once and sent to the target; no RESULT is stated for a source word that cannot be corrected,
and none of it is sent then (log entry 24). -/
def State.xferStart (s : State) (len target : Nat) : State :=
  let dst := s.rd REDUN.pg REDUN.XFER_DST_ADDR
  let src := s.rd REDUN.pg REDUN.XFER_SRC_ADDR
  let (r, s) :=
    if !(target < 3 && target ≠ s.memberId.val && s.reaches target) then (1, s)
    else if !inSram src len || !inSram dst len then (2, s)
    else
      match s.dmaRead src len with
      | (some bs, s) => (0, s.sendTo (fun l => s.rd (TWITOS.pg l) TWITOS.STATUS_PARTNER = target) (xferFrames dst bs))
      | (none, s) => let (r, s) := s.freshWord; (r.toNat % 8, s)
  { s.wr REDUN.pg REDUN.XFER_STATUS_BUSY 0 1 with redun := { s.redun with xfer := some r } }

/-- XFER_DONE. -/
def State.xferDone (s : State) : State :=
  match s.redun.xfer with
  | some r =>
    let s := { s with redun := { s.redun with xfer := none } }
    ((s.wr REDUN.pg REDUN.XFER_STATUS_BUSY 0 0).wr REDUN.pg REDUN.XFER_STATUS_RESULT 0 r).irq REDUN.pg 7
  | none => s

/-! ### What a swap passes on (R787) -/

/-- A boundary of PWM unit `n`: a former lead hands it over. -/
def State.passUnit (s : State) (n : Fin 16) : State :=
  if s.redun.passPwm.getLsbD n then
    ({ s with redun := { s.redun with passPwm := s.redun.passPwm &&& ~~~BitVec.ofNat 16 (2 ^ n.val) } }).recheckDrive
  else s

/-- A pilot period starts. -/
def State.passPilot (s : State) : State := { s with redun := { s.redun with passCp := false, holdCp := false } }

/-- A port tick. -/
def State.passPorts (s : State) : State := { s with redun := { s.redun with passCdo := s.redun.passCdo - 1, holdCdo := false } }

/-! ### The trigger bus (R767, R768) -/

/-- TRIG_EDGE at its recognition: Attic kind 7 takes the edge instant; PWM boundaries of SRC 2 that lie before recognition are
late. -/
def State.trigEdge (s : State) (l : Fin 4) : State :=
  let back := 12 + 2 * s.rd HOUSE.pg HOUSE.TRIG_DELAY l
  let s := s.trgLine 7 l (s.cyc - BitVec.ofNat 64 (back / 4), s.timeNow - back, s.trustBits)
  let s := (s.pwmSyncFrom 2 l (s.fineNow - (back * 32 : Nat))).sarEmit 2 l
  (List.finRange 16).foldl (fun s (n : Fin 16) =>
    let pg := PWM.pg n
    if s.carrierRuns n && s.rd pg PWM.SYNC_SRC = 2 && s.rd pg PWM.SYNC_INDEX % 4 = l.val &&
        s.rd pg PWM.PHASE_COARSE * 64 + s.rd pg PWM.PHASE_FINE < back * 32 then
      (s.bump HOUSE.pg HOUSE.TRIG_LATE_COUNT).irq HOUSE.pg 3
    else s) s

end Sys2Proof.Machine
end

