-- ==== Sys2Proof/Machine/Ptp.lean ====
section
/-!
DEFINITION. Machine/Ptp.lean: the precision-time block (16 R821 to R840, R843, R844).
-/
namespace Sys2Proof.Machine

/-- One nanosecond and one second in the unit of TIME, 2^−42 ns. -/
abbrev nsU : Nat := 2 ^ 42
abbrev secU : Nat := 1000000000 * nsU

def State.sched (s : State) (n : Fin 4) : Schedule := s.ptp.sched[n]
def State.setSched (s : State) (n : Fin 4) (x : Schedule) : State :=
  { s with ptp := { s.ptp with sched := s.ptp.sched.set n x } }

/-- The block runs (R808, R821). -/
def State.ptpRuns (s : State) : Bool := s.flag PTP.pg PTP.CTRL_EN && s.pwr.state ≤ 2 && s.mode ≠ mBOOT

/-! ### Status (R827) -/

/-- NO_JUMP and TRUSTED follow, and what other blocks show of them. -/
def State.ptpShow (s : State) : State :=
  let pg := PTP.pg
  let was := s.flag pg PTP.STATUS_TRUSTED
  let s := s.setFlag pg PTP.STATUS_NO_JUMP 0 (!s.flag pg PTP.STATUS_JUMP_PENDING)
  let now := s.flag pg PTP.STATUS_LOCKED && s.flag pg PTP.STATUS_OFFSET_OK && s.flag pg PTP.STATUS_NO_JUMP && s.flag pg PTP.STATUS_TIME_SET
  ((s.setFlag pg PTP.STATUS_TRUSTED 0 now).irqIf (was != now) pg 0).trustShow

/-- LOCKED falls. -/
def State.ptpUnlock (s : State) : State :=
  ({ s.wr PTP.pg PTP.STATUS_LOCKED 0 0 with ptp := { s.ptp with good := 0, bad := 0 } }).ptpShow

/-! ### Timestamps and offsets (R822, R823, R826) -/

/-- A corrected timestamp in ps at an instant within this tick. -/
def State.ingress (s : State) (p : Nat) (frac : Nat) : Rat :=
  mkRat (s.ptp.time * 1000) nsU + (800 * frac : Nat) - (s.rdInt PTP.pg PTP.PORT_INGRESS_LAT_PS p : Int)
def State.egress (s : State) (p : Nat) (frac : Nat) : Rat :=
  mkRat (s.ptp.time * 1000) nsU + (800 * frac : Nat) + (s.rdInt PTP.pg PTP.PORT_EGRESS_LAT_PS p : Int)

/-- A received 48-bit seconds value, extended to lie nearest to TIME_S (R822). -/
def State.extendS (s : State) (x : Nat) : Int :=
  let own : Int := (s.ptp.time / secU : Nat)
  let base : Int := own / 2 ^ 48 * 2 ^ 48 + (x % 2 ^ 48 : Nat)
  let h : Int := 2 ^ 47
  if base - own > h then base - 2 ^ 48 else if own - base > h then base + 2 ^ 48 else base

/-- A value in ps as an integer; where it is none, which of the two nearest is a free value. -/
def State.roundPs (s : State) (q : Rat) : Int × State :=
  if (q.floor : Rat) = q then (q.floor, s)
  else
    let (w, s) := s.freshWord
    (q.floor + bit01 (w.getLsbD 0), s)

/-- An offset is produced (R826, R827). -/
def State.takeOffset (s : State) (m : PtpMsg) (t2 : Rat) (c : Int) : State :=
  let pg := PTP.pg
  let t1 : Rat := ((s.extendS m.s.toNat * 1000000000 + (m.ns.toNat : Int)) * 1000 : Int)
  let d : Nat := if s.flag pg PTP.PARENT_E2E then s.rd pg PTP.PATH_DELAY_PS
    else s.rd pg PTP.PORT_LINK_DELAY_PS (s.rd pg PTP.PARENT_SLAVE_PORT)
  let (off, s) := s.roundPs (t2 - t1 - mkRat (c * 1000) 65536 - (d : Rat))
  let ok := off.natAbs ≤ s.rd pg PTP.LOCK_LOCK_NS * 1000
  let good := if ok then s.ptp.good + 1 else 0
  let bad := if ok then 0 else s.ptp.bad + 1
  let s := { s with ptp := { s.ptp with offset := off, good := good, bad := bad } }
  let s := if 4 ≤ good then s.wr pg PTP.STATUS_LOCKED 0 1 else if 2 ≤ bad then s.wr pg PTP.STATUS_LOCKED 0 0 else s
  let s := s.setFlag pg PTP.STATUS_OFFSET_OK 0 (off.natAbs < 1000000000)
  (s.irq pg 2).ptpShow

/-- The message is the parent's, received on the slave port (R826). -/
def State.fromParent (s : State) (p : Nat) (m : PtpMsg) : Bool :=
  let pg := PTP.pg
  s.ptpRuns && s.flag pg PTP.PARENT_EN && s.rd pg PTP.PARENT_SLAVE_PORT = p && m.domain.toNat = s.rd pg PTP.DOMAIN_NUMBER &&
    m.port.toNat = s.rd pg PTP.PARENT_PORT_NUMBER &&
    leBytes 4 (s.rd pg PTP.PARENT_ID_LO_ID) ++ leBytes 4 (s.rd pg PTP.PARENT_ID_HI_ID) = (leBytes 8 m.clock.toNat).reverse

/-- PTP_SYNC. -/
def State.ptpSync (s : State) (p : Fin 2) (m : PtpMsg) (frac : Nat) : State :=
  if s.fromParent p m then
    let t2 := s.ingress p frac
    if m.twoStep then { s with ptp := { s.ptp with sync := some (p, m, t2) } }
    else ({ s with ptp := { s.ptp with sync := none } }).takeOffset m t2 m.corr.toInt
  else s

/-- The Follow_Up `m` on port `p` belongs to the Sync `y` that port `q` took. -/
def followsSync (p : Fin 2) (m : PtpMsg) (q : Fin 2) (y : PtpMsg) : Bool := p = q && m.clock = y.clock && m.port = y.port && m.seq = y.seq

/-- FOLLOW_UP: it and its Sync are checked against the parent of now (R840). -/
def State.followUp (s : State) (p : Fin 2) (m : PtpMsg) : State :=
  match s.ptp.sync with
  | some (q, y, t2) =>
    if s.fromParent p m && followsSync p m q y then
      ({ s with ptp := { s.ptp with sync := none } }).takeOffset m t2 (y.corr.toInt + m.corr.toInt)
    else s
  | none => s

/-- PTP_SYNC_TIMEOUT. -/
def State.syncTimeout (s : State) : State :=
  if s.ptpRuns then (s.wr PTP.pg PTP.STATUS_OFFSET_OK 0 0).ptpUnlock else s

/-! ### Peer delay (R829) -/

/-- A frame leaves port `p`. -/
def State.sendFrame (s : State) (p : Fin 2) (x : Sent) : State :=
  let s := s.wrapBump ETHSW.pg ETHSW.TX_FRAMES_COUNT p
  { s with eth := { s.eth with line := s.eth.line.set p (some x) } }

/-- The 802.1Q tag of the PTP frames of port `p` (R825, R842). -/
def State.vlanOf (s : State) (p : Fin 2) : Option (BitVec 12 × BitVec 3) :=
  if s.flag ETHSW.pg ETHSW.PORT_VLAN_EN p then
    some (BitVec.ofNat 12 (s.rd ETHSW.pg ETHSW.PORT_VID p), BitVec.ofNat 3 (s.rd ETHSW.pg ETHSW.PORT_PCP p))
  else none

/-- The MAC address of the switch, byte 0 first; the clock identity of the device: its EUI-64, with FF-FE inserted (R829). -/
def State.macBytes (s : State) : List Byte := leBytes 4 (s.rd ETHSW.pg ETHSW.MAC_LO_BYTES) ++ leBytes 2 (s.rd ETHSW.pg ETHSW.MAC_HI_BYTES)
def State.clockIdentity (s : State) : List Byte := s.macBytes.take 3 ++ [0xFF, 0xFE] ++ s.macBytes.drop 3

/-- The port identity of port `p`: port number `p` + 1 (R829). -/
def State.portIdentity (s : State) (p : Fin 2) : List Byte := s.clockIdentity ++ (leBytes 2 (p.val + 1)).reverse

/-- The header of a peer delay message of 54 bytes (PRESUMED, log entry 25: the layout of IEEE 1588-2019, which R825 names). -/
def State.ptpHeader (s : State) (p : Fin 2) (type domain : Byte) (seq : BitVec 16) (corr : BitVec 64) : List Byte :=
  [type, 0x12, 0, 54, domain, 0, 0, 0] ++ (leBytes 8 corr.toNat).reverse ++ [0, 0, 0, 0] ++ s.portIdentity p ++ (leBytes 2 seq.toNat).reverse ++ [5, 0x7F]

/-- The one's-complement sum of an IPv4 header. -/
def ipSum (bs : List Byte) : BitVec 16 :=
  let fold := fun (n : Nat) => n % 2 ^ 16 + n / 2 ^ 16
  ~~~BitVec.ofNat 16 (fold (fold ((List.range (bs.length / 2)).foldl (fun n k => n + payNat bs (2 * k) 2) 0)))

/-- A peer delay message in the transport of port `p`: Ethernet, or UDP/IPv4 without a checksum (R825, R844; PRESUMED, log entry 25: the
addresses of IEEE 1588; the source address is free, for no register holds one). -/
def State.ptpFrame (s : State) (p : Fin 2) (msg : List Byte) : List Byte :=
  if s.flag PTP.pg PTP.PORT_CFG_IPV4 p then
    let head := fun (sum : BitVec 16) =>
      [0x45, 0] ++ (leBytes 2 (28 + msg.length)).reverse ++ [0, 0, 0, 0, 1, 17] ++ (leBytes 2 sum.toNat).reverse ++
        leBytes 4 (Config.ipSource p).toNat ++ ([224, 0, 0, 107] : List Byte)
    [0x01, 0x00, 0x5E, 0x00, 0x00, 0x6B] ++ s.macBytes ++ [0x08, 0x00] ++ head (ipSum (head 0)) ++
      [0x01, 0x3F, 0x01, 0x3F] ++ (leBytes 2 (8 + msg.length)).reverse ++ [0, 0] ++ msg
  else [0x01, 0x80, 0xC2, 0x00, 0x00, 0x0E] ++ s.macBytes ++ [0x88, 0xF7] ++ msg

/-- A message of the peer delay mechanism leaves port `p`, with what is added to its correctionField. -/
def State.ptpSend (s : State) (p : Fin 2) (msg : List Byte) (corr : Rat) : State :=
  s.sendFrame p { bytes := s.ptpFrame p msg, red := .none, corr := corr, vlan := s.vlanOf p }

/-- The time in ps from the ingress of a Pdelay_Req to the egress of its answer `turn` steps of 0.8 ns later (R829). -/
def State.turnaround (s : State) (p : Fin 2) (frac turn : Nat) : Rat :=
  let n := frac + turn
  let time : Int := s.ptp.time + (n / 5 : Nat) * (2 ^ 44 + s.rdInt PTP.pg PTP.RATE_ADJ)
  mkRat (time * 1000) nsU + (800 * (n % 5) : Nat) + (s.rdInt PTP.pg PTP.PORT_EGRESS_LAT_PS p : Int) - s.ingress p frac

/-- Port `p` takes part in the peer delay mechanism. -/
def State.pdelayOn (s : State) (p : Nat) : Bool :=
  s.ptpRuns && s.flag PTP.pg PTP.PORT_CFG_PDELAY_EN p &&
    s.flag ETHSW.pg (if p = 0 then ETHSW.STATUS_LINK0 else ETHSW.STATUS_LINK1)

/-- PDELAY_REQ_SEND. -/
def State.pdelaySend (s : State) (p : Fin 2) (frac : Nat) : State :=
  if s.pdelayOn p then
    let n := if s.ptp.req[p].isSome then s.ptp.missed[p] + 1 else s.ptp.missed[p]
    let fail := 3 ≤ n
    let t1 := s.egress p frac
    let q := s.ptp.reqSeq[p]
    let msg := s.ptpHeader p 0x02 (BitVec.ofNat 8 (s.rd PTP.pg PTP.DOMAIN_NUMBER)) q 0 ++ List.replicate 20 0
    let s := { s with ptp := { s.ptp with req := s.ptp.req.set p (some t1), missed := s.ptp.missed.set p (if fail then 0 else n)
                                          reqSeq := s.ptp.reqSeq.set p (q + 1) } }
    let s := s.ptpSend p msg 0
    if fail then (s.bump PTP.pg PTP.PORT_PDELAY_FAIL_COUNT p).irq PTP.pg 4 else s
  else s

/-- PDELAY_REQ_RECEIVE: a one-step Pdelay_Resp answers, with the turnaround in its correctionField. -/
def State.pdelayAnswer (s : State) (p : Fin 2) (m : PtpMsg) (frac turn : Nat) : State :=
  if s.pdelayOn p then
    let msg := s.ptpHeader p 0x03 m.domain m.seq m.corr ++ List.replicate 10 0 ++ (leBytes 8 m.clock.toNat).reverse ++ (leBytes 2 m.port.toNat).reverse
    s.ptpSend p msg (s.turnaround p frac turn * 65536 / 1000)
  else s

/-- PDELAY_RESP_RECEIVE. -/
def State.pdelayResp (s : State) (p : Fin 2) (turn : Int) (frac : Nat) : State :=
  match s.ptp.req[p] with
  | some t1 =>
    if s.pdelayOn p then
      let (d, s) := s.roundPs ((s.ingress p frac - t1 - turn) / 2)
      let s := { s with ptp := { s.ptp with req := s.ptp.req.set p none, missed := s.ptp.missed.set p 0 } }
      if 0 ≤ d ∧ d < 2 ^ 32 then s.wr PTP.pg PTP.PORT_LINK_DELAY_PS p d.toNat
      else
        let (w, s) := s.freshWord
        s.wr PTP.pg PTP.PORT_LINK_DELAY_PS p w.toNat
    else s
  | none => s

/-- A link went down: the exchange is abandoned (R840). -/
def State.pdelayAbandon (s : State) (p : Fin 2) : State :=
  { s with ptp := { s.ptp with req := s.ptp.req.set p none, missed := s.ptp.missed.set p 0 } }

/-! ### Schedules (R836 to R839) -/

/-- START of schedule `n`, its period. -/
def State.schedStart (s : State) (n : Nat) : Nat :=
  s.rd64 PTP.pg PTP.TIMEO_START_S_LO_S PTP.TIMEO_START_S_HI_S n * secU + s.rd PTP.pg PTP.TIMEO_START_NS_NS n * nsU
def State.schedPeriod (s : State) (n : Nat) : Nat := s.rd PTP.pg PTP.TIMEO_PERIOD_NS_NS n * nsU

/-- The first instant of a periodic schedule after `t`. -/
def nextInstant (start per t : Nat) : Nat :=
  if t < start || per = 0 then start else start + ((t - start) / per + 1) * per

/-- Schedule `n` may fire. -/
def State.schedOn (s : State) (n : Fin 4) : Bool :=
  s.ptpRuns && s.flag PTP.pg PTP.TIMEO_CFG_EN n && (s.flag PTP.pg PTP.TIMEO_CFG_PERIODIC n || !(s.sched n).fired)

/-- A time event of schedule `n`. -/
def State.schedFire (s : State) (n : Fin 4) : State :=
  let pg := PTP.pg
  let x := s.sched n
  let t := if s.ptp.time < x.next then x.next else s.ptp.time
  let s := s.setSched n { fired := true, out := s.flag pg PTP.TIMEO_CFG_OUT_EN n, next := nextInstant (s.schedStart n) (s.schedPeriod n) t,
                          until_ := s.cyc + BitVec.ofNat 64 (s.rd pg PTP.TIMEO_CFG_WIDTH n) }
  let s := (s.wrapBump pg PTP.TIMEO_COUNT_COUNT n).irq pg 3
  ((s.trgLine 8 n s.stamp).pwmSyncFrom 4 n s.fineNow).sarEmit 3 n

/-- TIME_EVENT: the tick at which TIME reaches the scheduled instant (R836). -/
def State.timeEvent (s : State) (n : Fin 4) : State := if s.schedOn n && (s.sched n).next ≤ s.ptp.time then s.schedFire n else s

/-- TIME_OUTPUT_END: WIDTH ticks after the event (R837). -/
def State.timeOutputEnd (s : State) (n : Fin 4) : State :=
  if s.since (s.sched n).until_ < 2 ^ 63 then s.setSched n { s.sched n with out := false } else s

/-- TIME_On (R837). -/
def State.timeO (s : State) (n : Fin 4) : Bool := (s.sched n).out && s.flag PTP.pg PTP.TIMEO_CFG_OUT_EN n && s.pwr.state ≤ 2

/-- What a step of TIME from `old` does to schedule `n` (R839). -/
def State.schedStep (s : State) (n : Fin 4) (old : Nat) : State :=
  let x := s.sched n
  if !s.schedOn n then s
  else if old ≤ s.ptp.time then
    if x.next ≤ s.ptp.time then
      let per := s.schedPeriod n
      let more := if s.flag PTP.pg PTP.TIMEO_CFG_PERIODIC n && per ≠ 0 then (s.ptp.time - x.next) / per else 0
      let k := s.rd PTP.pg PTP.TIMEO_SKIP_COUNT n + more
      (s.wr PTP.pg PTP.TIMEO_SKIP_COUNT n (if 65535 < k then 65535 else k)).schedFire n
    else s
  else if s.flag PTP.pg PTP.TIMEO_CFG_PERIODIC n then
    s.setSched n { x with next := nextInstant (s.schedStart n) (s.schedPeriod n) s.ptp.time }
  else s

/-! ### Setting and stepping (R831 to R834) -/

/-- TIME becomes `t`. -/
def State.setTime (s : State) (t : Nat) : State :=
  let old := s.ptp.time
  let s := { s with ptp := { s.ptp with time := t % (2 ^ 64 * secU) } }
  (List.finRange 4).foldl (fun s (n : Fin 4) => s.schedStep n old) s

/-- TIME steps by Δ. -/
def State.stepTime (s : State) (d : Int) : State := s.setTime (((s.ptp.time : Int) + d) % ((2 ^ 64 * secU : Nat) : Int)).toNat

/-- The next tick applies a change of TIME (R831, R832, R834). -/
def State.atNextTick (s : State) (x : TimeChange) : State := { s with ptp := { s.ptp with todo := s.ptp.todo ++ [x] } }

/-- A change of TIME acts. -/
def State.changeTime (s : State) (x : TimeChange) : State :=
  match x with
  | .set t => s.setTime t
  | .by_ d => s.stepTime d
  | .pending => ((s.wr PTP.pg PTP.STATUS_JUMP_PENDING 0 0).ptpShow).stepTime s.ptp.pend

/-- A tick of CYC: TIME advances (R821), and what was requested since the last tick acts. -/
def State.ptpTick (s : State) : State :=
  let s :=
    if s.ptpRuns then
      let t := ((s.ptp.time : Int) + 2 ^ 44 + s.rdInt PTP.pg PTP.RATE_ADJ).toNat % (2 ^ 64 * secU)
      { s with ptp := { s.ptp with time := t } }
    else s
  s.ptp.todo.foldl State.changeTime { s with ptp := { s.ptp with todo := [] } }

/-- A jump request of Δ in 2^−42 ns (R832): one that is applied leaves an ACCEPT of the same tick without effect (R840). -/
def State.jumpRequest (s : State) (d : Int) : State :=
  let pg := PTP.pg
  if d.natAbs ≤ s.rd pg PTP.JUMP_LIMIT_NS * nsU then
    let s := { s with ptp := { s.ptp with todo := s.ptp.todo.filter (· ≠ TimeChange.pending) } }
    ((s.atNextTick (.by_ d)).wr pg PTP.STATUS_JUMP_PENDING 0 0).ptpShow
  else
    let s := { s with ptp := { s.ptp with pend := d } }
    let s := ((s.wr pg PTP.STATUS_JUMP_PENDING 0 1).bump pg PTP.REFUSED_COUNT_COUNT).irq pg 1
    s.ptpShow

/-- A write of `SET_NS` with GO (R831). -/
def State.setRequest (s : State) (ns : Nat) : State :=
  let t := s.rd64 PTP.pg PTP.SET_S_LO_S PTP.SET_S_HI_S * secU + ns * nsU
  if s.flag PTP.pg PTP.STATUS_TIME_SET then s.jumpRequest ((t : Int) - s.ptp.time)
  else ((s.wr PTP.pg PTP.STATUS_TIME_SET 0 1).atNextTick (.set t)).ptpShow

/-- A write of `STEP_HI` (R832); refused with 0x05 while TIME_SET is 0. -/
def State.stepRefused (s : State) : Bool := !s.flag PTP.pg PTP.STATUS_TIME_SET
def State.stepRequest (s : State) (hi : Nat) : State :=
  s.jumpRequest (signedOf 64 (s.rd PTP.pg PTP.STEP_LO_NS + 2 ^ 32 * hi) * nsU)

/-- A write of `JUMP_CMD` (R834): what is accepted is the jump that is pending at the tick, a refused request of the same tick included (R840). -/
def State.jumpCmd (s : State) (accept reject : Bool) : State :=
  if !s.flag PTP.pg PTP.STATUS_JUMP_PENDING || !(accept || reject) then s
  else
    let s := if accept then s.atNextTick .pending else s
    (s.wr PTP.pg PTP.STATUS_JUMP_PENDING 0 0).ptpShow

/-! ### Snapshots (R844) and commits (R838) -/

/-- A read of `TIME_NS`, of `OFFSET_LO`, of `JUMP_PEND_LO`: the live value, with its other half snapshot. -/
def State.timeSnap (s : State) : State :=
  let t := s.timeNow
  (s.wr PTP.pg PTP.TIME_NS_NS 0 (t % 1000000000)).wr64 PTP.pg PTP.TIME_S_LO_S PTP.TIME_S_HI_S 0 (t / 1000000000)
def State.offsetSnap (s : State) : State := s.wr64 PTP.pg PTP.OFFSET_LO_PS PTP.OFFSET_HI_PS 0 (wrapOf 64 s.ptp.offset)
def State.jumpSnap (s : State) : State :=
  s.wr64 PTP.pg PTP.JUMP_PEND_LO_NS PTP.JUMP_PEND_HI_NS 0 (wrapOf 64 (s.ptp.pend.fdiv nsU))

/-- A commit is refused with 0x04 (R838). -/
def State.ptpInconsistent (s : State) : Bool :=
  (List.range 4).any fun n =>
    let w := s.merged PTP.pg PTP.TIMEO_CFG_WIDTH n
    w = 0 || (s.merged PTP.pg PTP.TIMEO_CFG_PERIODIC n = 1 && s.merged PTP.pg PTP.TIMEO_PERIOD_NS_NS n ≤ 4 * w + 100)

/-- The staged set of schedule `n` is not empty. -/
def State.schedStaged (s : State) (n : Nat) : Bool :=
  [PTP.TIMEO_CFG_EN, PTP.TIMEO_CFG_OUT_EN, PTP.TIMEO_CFG_PERIODIC, PTP.TIMEO_CFG_WIDTH, PTP.TIMEO_START_S_LO_S,
    PTP.TIMEO_START_S_HI_S, PTP.TIMEO_START_NS_NS, PTP.TIMEO_PERIOD_NS_NS].any fun f => s.isStaged PTP.pg f n

/-- A set took effect; an enabled schedule among it restarts from its START. -/
def State.ptpCommit (s : State) (changed : Fin 4 → Bool) : State :=
  (List.finRange 4).foldl (fun s (n : Fin 4) =>
    if changed n && s.flag PTP.pg PTP.TIMEO_CFG_EN n then s.setSched n { next := s.schedStart n } else s) s

end Sys2Proof.Machine
end

