-- ==== Sys2Proof/Machine/Eth.lean ====
section
/-!
DEFINITION. Machine/Eth.lean: the Ethernet switch and its host queues (16 R806 to R820, R828, R830, R841, R842).
-/
namespace Sys2Proof.Machine

def State.ethMode (s : State) : Nat := s.rd ETHSW.pg ETHSW.CFG_MODE

/-- The device's MAC address, byte 0 first. -/
def State.mac (s : State) : BitVec 48 := BitVec.ofNat 48 (beNat s.macBytes)

/-- A group address; one of the addresses that are never forwarded (R810). -/
def groupMac (d : BitVec 48) : Bool := d.getLsbD 40
def linkLocalMac (d : BitVec 48) : Bool := d >>> 4 = 0x0180C200000#48

/-! ### Sending (R812, R816, R824, R830) -/

/-- The redundancy control trailer of a PRP copy (R812): sequence number, LAN ID with the LSDU size, suffix 0x88FB. Which bytes the LSDU
size counts is PRESUMED (log entry 25): those after the EtherType and an 802.1Q tag, and the trailer's own six. -/
def prpTrailer (lanB : Bool) (seq : BitVec 16) (bytes : List Byte) : List Byte :=
  let head := if payNat bytes 12 2 = 0x8100 then 18 else 14
  let lsdu := (bytes.length - head + 6) % 2 ^ 12
  (leBytes 2 seq.toNat).reverse ++ (leBytes 2 ((if lanB then 0xB else 0xA) * 2 ^ 12 + lsdu)).reverse ++ [0x88, 0xFB]

/-- What follows a sent frame's bytes before its FCS. -/
def Sent.trailer (x : Sent) : List Byte :=
  match x.red with
  | .prp lanB seq => prpTrailer lanB seq x.bytes
  | _ => []

/-- `sendFrame` where the port carries frames. -/
def State.trySend (s : State) (p : Fin 2) (x : Sent) : State := if s.portLive p then s.sendFrame p x else s

/-- What PTP message a frame's bytes are: `some true` an event message, `some false` another (log entry 25: the layouts of IEEE 802.3, IPv4
and IEEE 1588). -/
def ptpMessage (bytes : List Byte) : Option Bool :=
  let tag := if payNat bytes 12 2 = 0x8100 then 4 else 0
  let type := payNat bytes (12 + tag) 2
  let ip := 14 + tag
  let udp := ip + 4 * (payNat bytes ip 1 % 16)
  if type = 0x88F7 then some (payNat bytes ip 1 % 16 < 4)
  else if type = 0x0800 && payNat bytes (ip + 9) 1 = 17 then
    if payNat bytes (udp + 2) 2 = 319 then some true else if payNat bytes (udp + 2) 2 = 320 then some false else none
  else none

/-- A frame that is changed as it leaves: the checksum of a PTP message over UDP/IPv4 is 0 (R828, R830). -/
def udpSumZero (bytes : List Byte) : List Byte :=
  let ip := if payNat bytes 12 2 = 0x8100 then 18 else 14
  let sum := ip + 4 * (payNat bytes ip 1 % 16) + 6
  if (ptpMessage bytes).isSome && payNat bytes (ip - 2) 2 = 0x0800 then (bytes.set sum 0).set (sum + 1) 0 else bytes

/-- The transparent clock changes a frame that it forwards: a PTP event message, in MODE 0 or 2 with `TC_EN` on both ports (R830). -/
def State.tcActs (s : State) (f : EthFrame) : Bool :=
  (f.ptp = .sync || f.ptp = .event) && s.ethMode ≠ 1 && s.ptpRuns && s.flag PTP.pg PTP.PORT_CFG_TC_EN 0 && s.flag PTP.pg PTP.PORT_CFG_TC_EN 1

/-- What a transparent clock adds to the correctionField of a PTP event message, in 2^−16 ns (R830). -/
def State.residenceCorr (s : State) (p : Fin 2) (f : EthFrame) (ticks : Nat) : Rat :=
  if s.tcActs f then
    let res := mkRat (ticks * (2 ^ 44 + s.rdInt PTP.pg PTP.RATE_ADJ)) (2 ^ 42)
    let d := if f.ptp = .sync && s.flag PTP.pg PTP.PORT_CFG_PDELAY_EN p then mkRat (s.rd PTP.pg PTP.PORT_LINK_DELAY_PS p) 1000 else 0
    (res + d) * 65536
  else 0

/-- A received frame is forwarded to the other port. -/
def State.forward (s : State) (p : Fin 2) (f : EthFrame) (ticks : Nat) : State :=
  s.trySend (if p = 0 then 1 else 0) { bytes := if s.tcActs f then udpSumZero f.bytes else f.bytes, red := f.red, corr := s.residenceCorr p f ticks, badFcs := !f.fcsOk }

/-! ### Host frame queues (R818 to R820) -/

/-- The next index of a ring. -/
def ringNext (size i : Nat) : Nat := if size = 0 then i else (i + 1) % size

/-- The device reads a word of a descriptor. -/
def State.dmaWord (s : State) (a : Nat) : Option Nat × State :=
  let (w, s) := s.sramRead a
  (w.map BitVec.toNat, s)

/-- A timestamp in ps as seconds and nanoseconds. -/
def stampOf (ps : Rat) : Nat × Nat :=
  let ns := (ps / 1000).floor.toNat
  (ns / 1000000000, ns % 1000000000)

/-- A frame goes to receive queue `q` (R818, R820). -/
def State.rxDeliver (s : State) (q : Fin 4) (p : Fin 2) (f : EthFrame) (ts : Rat) : State :=
  let pg := ETHSW.pg
  let size := s.rd pg ETHSW.RXQ_SIZE_ENTRIES q
  let tail := s.rd pg ETHSW.RXQ_TAIL_INDEX q
  if ringNext size tail = s.rd pg ETHSW.RXQ_HEAD_INDEX q then (s.bump pg ETHSW.RX_DROP_COUNT).irq pg 3
  else
    let d := s.rd pg ETHSW.RXQ_BASE_ADDR q + 16 * tail
    let (buf, s) := s.dmaWord d
    let (ok, s) := match buf with
      | some b => s.dmaWrite b f.bytes
      | none => (false, s)
    let (sec, ns) := stampOf ts
    let len := f.bytes.length + 2 ^ 12 * p.val + 2 ^ 16 + (if f.red = .none then 2 ^ 18 else 0) + (if ok then 0 else 2 ^ 29) + 2 ^ 30
    let (_, s) := s.dmaWrite (d + 4) (leBytes 4 len ++ leBytes 4 ns ++ leBytes 4 sec)
    (s.wr pg ETHSW.RXQ_TAIL_INDEX q (ringNext size tail)).irq pg 1

/-- A safety frame: `SAFENET` alone takes it, and no duplicate discard applies to it (R613, R819). -/
def State.isSafety (s : State) (f : EthFrame) : Bool := f.etype.toNat = s.rd SAFENET.pg SAFENET.CFG_ETYPE

/-- What follows the EtherType of a frame with or without one 802.1Q tag (R613). -/
def framePayload (f : EthFrame) : List Byte := f.bytes.drop (if payNat f.bytes 12 2 = 0x8100 then 18 else 14)

/-- The queue of a frame received on port `p` (R819); none for what the host does not get. -/
def State.rxQueue (s : State) (p : Fin 2) (f : EthFrame) : Option (Fin 4) :=
  let pg := ETHSW.pg
  if s.isSafety f then none
  else if f.ptp ≠ .none && (!f.udp || s.flag PTP.pg PTP.PORT_CFG_IPV4 p) then
    if f.ptp = .pdelay then none else some (Fin.ofNat 4 (s.rd pg ETHSW.CFG_PTP_Q))
  else match (List.range 8).find? fun r => s.flag pg ETHSW.CLASS_EN r && s.rd pg ETHSW.CLASS_ETYPE r = f.etype.toNat with
    | some r => some (Fin.ofNat 4 (s.rd pg ETHSW.CLASS_QUEUE r))
    | none => some 0

/-- A frame is delivered to the host. -/
def State.toHost (s : State) (p : Fin 2) (f : EthFrame) (ts : Rat) : State :=
  match s.rxQueue p f with
  | some q => s.rxDeliver q p f ts
  | none => s

/-! ### Duplicates (R813, R815) -/

/-- FORGET_MS in ticks. -/
def State.forget (s : State) : Nat := 250000 * s.rd ETHSW.pg ETHSW.CFG_FORGET_MS

/-- A frame with this source and sequence number was delivered within FORGET_MS; the delivery is noted. -/
def State.wasDelivered (s : State) (src : BitVec 48) (seq : BitVec 16) : Bool :=
  s.eth.delivered.any fun e => e.1 = src && e.2.1 = seq && s.since e.2.2 < s.forget
def State.noteDelivered (s : State) (src : BitVec 48) (seq : BitVec 16) : State :=
  let old := s.eth.delivered.filter fun e => s.since e.2.2 < s.forget
  { s with eth := { s.eth with delivered := (src, seq, s.cyc) :: old } }
def State.wasSent (s : State) (p : Fin 2) (src : BitVec 48) (seq : BitVec 16) : Bool :=
  s.eth.sent.any fun e => e.1 = p && e.2.1 = src && e.2.2.1 = seq && s.since e.2.2.2 < s.forget
def State.noteSent (s : State) (p : Fin 2) (src : BitVec 48) (seq : BitVec 16) : State :=
  let old := s.eth.sent.filter fun e => s.since e.2.2.2 < s.forget
  { s with eth := { s.eth with sent := (p, src, seq, s.cyc) :: old } }

/-- Delivery of a frame that carries a sequence number: once. -/
def State.hostOnce (s : State) (p : Fin 2) (f : EthFrame) (ts : Rat) (seq : BitVec 16) : State :=
  if s.isSafety f then s
  else if s.wasDelivered f.src seq then s.bump ETHSW.pg ETHSW.DUP_DISCARD_COUNT p
  else (s.noteDelivered f.src seq).toHost p f ts

/-- A ring frame is forwarded once (R815). -/
def State.ringForward (s : State) (p : Fin 2) (f : EthFrame) (ticks : Nat) (seq : BitVec 16) : State :=
  let o : Fin 2 := if p = 0 then 1 else 0
  if s.wasSent o f.src seq then s.bump ETHSW.pg ETHSW.DUP_DISCARD_COUNT p
  else (s.noteSent o f.src seq).forward p f ticks

/-! ### Receipt (R806, R809 to R817, R819) -/

/-- BRIDGE: the address table. -/
def State.learn (s : State) (src : BitVec 48) (p : Fin 3) : State :=
  let t := s.eth.table.filter fun e => e.1 ≠ src
  if groupMac src || (t.length = s.eth.table.length && 1024 ≤ t.length) then s
  else { s with eth := { s.eth with table := (src, p) :: t } }
def State.learned (s : State) (d : BitVec 48) : Option (Fin 3) :=
  if d = s.mac then some 2 else (s.eth.table.find? fun e => e.1 = d).map (·.2)

/-- The frame may be forwarded between ports (R810). -/
def mayForward (f : EthFrame) : Bool := !linkLocalMac f.dst && f.ptp ≠ .pdelay

/-- BRIDGE (R809). -/
def State.bridgeRx (s : State) (p : Fin 2) (f : EthFrame) (ts : Rat) (ticks : Nat) : State :=
  let s := s.learn f.src (Fin.ofNat 3 p)
  let dest := if groupMac f.dst then none else s.learned f.dst
  let s := if mayForward f && (dest.isNone || dest = some (if p = 0 then 1 else 0)) then s.forward p f ticks else s
  if dest.isNone || dest = some 2 then s.toHost p f ts else s

/-- The node table takes a node (R814). -/
def State.addNode (s : State) (src : BitVec 48) : State :=
  if s.eth.nodes.contains src || 256 ≤ s.eth.nodes.length then s
  else
    let l := src :: s.eth.nodes
    { s with eth := { s.eth with nodes := l } }.wr ETHSW.pg ETHSW.NODES_COUNT 0 l.length

def lanOkFld (p : Nat) : Fld := if p = 0 then ETHSW.STATUS_LAN_A_OK else ETHSW.STATUS_LAN_B_OK

/-- PRP (R813, R814). -/
def State.prpRx (s : State) (p : Fin 2) (f : EthFrame) (ts : Rat) : State :=
  let s := if f.supervision then (s.addNode f.src).wr ETHSW.pg (lanOkFld p) 0 1 else s
  match f.red with
  | .prp lanB seq =>
    let s := if lanB ≠ (p = 1) then s.bump ETHSW.pg ETHSW.LAN_ERR_COUNT p else s
    s.hostOnce p f ts seq
  | _ => s.toHost p f ts

/-- The sequence number of a tag or trailer. -/
def redSeq : RedTag → Option (BitVec 16)
  | .hsr n => some n
  | .prp _ n => some n
  | .none => none

/-- A ring frame goes on, once where it carries a sequence number (R815, R816); a safety frame always (R613). -/
def State.ringPass (s : State) (p : Fin 2) (f : EthFrame) (ticks : Nat) : State :=
  if !mayForward f then s
  else if s.isSafety f then s.forward p f ticks
  else match redSeq f.red with
    | some n => s.ringForward p f ticks n
    | none => s.forward p f ticks

/-- HSR (R815, R817). -/
def State.hsrRx (s : State) (p : Fin 2) (f : EthFrame) (ts : Rat) (ticks : Nat) : State :=
  if f.src = s.mac then
    if f.supervision then
      let r := s.eth.ring ||| BitVec.ofNat 2 (2 ^ p.val)
      ({ s with eth := { s.eth with ring := r } }).setFlag ETHSW.pg ETHSW.STATUS_RING_OK 0 (r = 3)
    else s
  else
    let s := if f.supervision then s.addNode f.src else s
    let host := match redSeq f.red with
      | some n => s.hostOnce p f ts n
      | none => s.toHost p f ts
    if f.dst = s.mac then host
    else if groupMac f.dst then host.ringPass p f ticks
    else s.ringPass p f ticks

/-- Bytes of the frame on the wire: tag or trailer and FCS included. -/
def wireLen (f : EthFrame) : Nat := f.bytes.length + (if f.red = .none then 0 else 6) + 4

/-- ETH_FRAME_RECEIVE: a safety frame goes to SAFENET from its port, before any duplicate discard (R613). -/
def State.ethReceive (s : State) (p : Fin 2) (f : EthFrame) (frac ticks : Nat) : State :=
  if !s.portLive p then s
  else if 1536 < wireLen f then s.bump ETHSW.pg ETHSW.RX_ERR_COUNT p
  else if !f.fcsOk then
    let s := s.bump ETHSW.pg ETHSW.RX_ERR_COUNT p
    if s.ethMode = 2 && f.dst ≠ s.mac && f.src ≠ s.mac then s.ringPass p f ticks else s
  else
    let ts := s.ingress p frac
    let s := s.wrapBump ETHSW.pg ETHSW.RX_FRAMES_COUNT p
    let s := if s.isSafety f then s.netCopy p (framePayload f) else s
    if s.ethMode = 0 then s.bridgeRx p f ts ticks
    else if s.ethMode = 1 then s.prpRx p f ts
    else s.hsrRx p f ts ticks

/-! ### Transmission (R812, R818, R820, R828) -/

/-- The ports a host frame leaves on, and its tag or trailer. -/
def State.txPlan (s : State) (ports : Nat) (noRed : Bool) (dst : BitVec 48) : List (Fin 2 × RedTag) :=
  if ports = 1 then [(0, .none)] else if ports = 2 then [(1, .none)]
  else if s.ethMode = 0 then
    match if groupMac dst then none else s.learned dst with
    | some q => if q = 0 then [(0, .none)] else if q = 1 then [(1, .none)] else []
    | none => [(0, .none), (1, .none)]
  else if noRed then [(0, .none), (1, .none)]
  else if s.ethMode = 1 then [(0, .prp false s.eth.seq), (1, .prp true s.eth.seq)]
  else [(0, .hsr s.eth.seq), (1, .hsr s.eth.seq)]

/-- The words of a transmit buffer are read; whether all of them could be. -/
def State.txRead (s : State) (a len : Nat) : Bool × State :=
  (List.range ((len + 10) / 4)).foldl (fun (x : Bool × State) k =>
    if inSram a len && k * 4 < len + a % 4 then
      let (w, s) := x.2.sramRead (a - a % 4 + 4 * k)
      (x.1 && w.isSome, s)
    else x) (inSram a len, s)

/-- The frame leaves on one port of the plan; with `stamp` the egress time goes into an event message (R828). -/
def State.txOne (s : State) (frac : Nat) (bytes : List Byte) (stamp : Bool) (e : Fin 2 × RedTag) : State :=
  let (sec, ns) := stampOf (s.egress e.1 frac)
  let sub := (s.egress e.1 frac / 1000 - (s.egress e.1 frac / 1000).floor) * 65536
  let stamp := stamp && ptpMessage bytes = some true
  s.sendFrame e.1 { bytes := if stamp then udpSumZero bytes else bytes, red := e.2, corr := if stamp then sub else 0, origin := if stamp then some (sec % 2 ^ 48, ns) else none,
                    vlan := if (ptpMessage bytes).isSome && payNat bytes 12 2 ≠ 0x8100 then s.vlanOf e.1 else none }

/-- The frame leaves on every port of the plan. -/
def State.txPut (s : State) (frac : Nat) (bytes : List Byte) (plan : List (Fin 2 × RedTag)) (tagged stamp : Bool) : State :=
  let s := if s.ethMode = 0 then s.learn (BitVec.ofNat 48 (beNat ((bytes.drop 6).take 6))) 2 else s
  let s := plan.foldl (fun s e => s.txOne frac bytes stamp e) s
  if tagged then { s with eth := { s.eth with seq := s.eth.seq + 1 } } else s

/-- Transmit queue `q` holds a descriptor to send. -/
def State.txReady (s : State) (q : Fin 4) : Bool := s.rd ETHSW.pg ETHSW.TXQ_TAIL_INDEX q ≠ s.rd ETHSW.pg ETHSW.TXQ_HEAD_INDEX q

/-- With no frame in transmission, that of the highest ready queue begins (R818). -/
def State.txStart (s : State) : State :=
  if !s.ethRuns then { s with eth := { s.eth with tx := none } }
  else if s.eth.tx.isSome then s
  else { s with eth := { s.eth with tx := ((List.finRange 4).reverse.find? s.txReady).map fun q => (q, 0) } }

/-- The descriptor at TAIL of transmit queue `q` completes; `lost`: the ports whose link went down during the transmission. A link of its
own ports that went down drops the frame there and sets ERR (R820). -/
def State.txComplete (s : State) (q : Fin 4) (lost : BitVec 2) (frac : Nat) : State :=
  let pg := ETHSW.pg
  let size := s.rd pg ETHSW.TXQ_SIZE_ENTRIES q
  let tail := s.rd pg ETHSW.TXQ_TAIL_INDEX q
  let d := s.rd pg ETHSW.TXQ_BASE_ADDR q + 16 * tail
  let (buf, s) := s.dmaWord d
  let (ctl, s) := s.dmaWord (d + 4)
  let w := ctl.getD 0
  let len := bitsOf w 0 11
  let ports := bitsOf w 12 2
  let tagged := s.ethMode ≠ 0 && !bitOf w 18 && ports = 0
  let max := if tagged then 1526 else 1532
  let a := buf.getD 0
  let (readable, s) := s.txRead a len
  let bytes := s.bytesAt a len
  let all := s.txPlan ports (bitOf w 18) (BitVec.ofNat 48 (beNat (bytes.take 6)))
  let cut := all.any fun e => lost.getLsbD e.1
  let plan := all.filter fun e => s.portLive e.1 && !lost.getLsbD e.1
  let ok := buf.isSome && ctl.isSome && readable && ports ≠ 3 && 60 ≤ len && len ≤ max && !plan.isEmpty
  let s := if ok then s.txPut frac bytes plan tagged (bitOf w 17) else s
  let port : Fin 2 := (plan.head?.map (·.1)).getD 0
  let (sec, ns) := stampOf (s.egress port frac)
  let (_, s) := s.dmaWrite (d + 4) (leBytes 4 (setBitOf (putBitOf w 29 (!ok || cut)) 30))
  let (_, s) := if ok && bitOf w 16 then s.dmaWrite (d + 8) (leBytes 4 ns ++ leBytes 4 sec) else (true, s)
  (s.wr pg ETHSW.TXQ_TAIL_INDEX q (ringNext size tail)).irq pg 2

/-- TX_FRAME_SENT: the frame in transmission completes, and the next begins. -/
def State.txSent (s : State) (q : Fin 4) (frac : Nat) : State :=
  match s.eth.tx with
  | some (r, lost) =>
    if s.ethRuns && r = q && s.txReady q then
      let s := s.txComplete q lost frac
      { s with eth := { s.eth with tx := none } }.txStart
    else s
  | none => s

/-! ### Links, supervision, tables, MDIO (R807, R814, R817) -/

/-- The SGMII line of port `p` is driven. -/
def State.portOn (s : State) (p : Fin 2) : Bool := s.ethRuns && s.flag ETHSW.pg ETHSW.PORT_EN p

/-- LINKk as R807 has it. -/
def State.linkOn (s : State) (p : Fin 2) : Bool :=
  s.portOn p && s.eth.sense[p].sync && (!s.flag ETHSW.pg ETHSW.PORT_AN_EN p || s.eth.sense[p].done)

/-- LINKk follows, with LINK_CHANGE; a link that goes down marks the frame in transmission (R820). -/
def State.linkShow (s : State) (p : Fin 2) : State :=
  let now := s.linkOn p
  if s.flag ETHSW.pg (linkFld p) = now then s
  else
    let s := (s.setFlag ETHSW.pg (linkFld p) 0 now).irq ETHSW.pg 0
    if now then s
    else
      let tx := s.eth.tx.map fun x => (x.1, x.2 ||| BitVec.ofNat 2 (2 ^ p.val))
      { s with eth := { s.eth with tx := tx } }.pdelayAbandon p

/-- ETH_LINK_CHANGE: a line that is not driven reports nothing. -/
def State.ethLink (s : State) (p : Fin 2) (x : LinkSense) : State :=
  { s with eth := { s.eth with sense := s.eth.sense.set p (if s.portOn p then x else {}) } }.linkShow p

/-- A set of the `ETHSW` page took effect, or the block stopped: the links follow, and the queues start (R807, R808). -/
def State.ethCheck (s : State) : State :=
  ((List.finRange 2).foldl (fun s (p : Fin 2) => s.ethLink p s.eth.sense[p]) s).txStart

/-- SUPERVISION_SEND. -/
def State.supervisionSend (s : State) : State :=
  if s.ethRuns && s.ethMode ≠ 0 then
    (List.finRange 2).foldl (fun s (p : Fin 2) => s.trySend p
      { bytes := [], red := if s.ethMode = 1 then .prp (p = 1) s.eth.seq else .hsr s.eth.seq }) s
  else s

/-- A redundancy status bit falls. -/
def State.redFall (s : State) (f : Fld) : State :=
  if s.flag ETHSW.pg f then (s.wr ETHSW.pg f 0 0).irq ETHSW.pg 4 else s

/-- SUPERVISION_TIMEOUT: none on port `p` for 3 × LIFE_CHECK. -/
def State.supervisionTimeout (s : State) (p : Fin 2) : State :=
  if s.ethMode = 1 then if s.eth.nodes.isEmpty then s else s.redFall (lanOkFld p)
  else if s.ethMode = 2 then
    ({ s with eth := { s.eth with ring := s.eth.ring &&& ~~~BitVec.ofNat 2 (2 ^ p.val) } }).redFall ETHSW.STATUS_RING_OK
  else s

/-- NODE_AGEING and ADDRESS_AGEING. -/
def State.nodeAge (s : State) (mac : BitVec 48) : State :=
  let l := s.eth.nodes.filter (· ≠ mac)
  { s with eth := { s.eth with nodes := l } }.wr ETHSW.pg ETHSW.NODES_COUNT 0 l.length
def State.addressAge (s : State) (mac : BitVec 48) : State :=
  { s with eth := { s.eth with table := s.eth.table.filter fun e => e.1 ≠ mac } }

/-- `MDIO_CMD` with GO is refused while an access is in progress; an accepted one; MDIO_DONE. -/
def State.mdioBusy (s : State) : Bool := s.flag ETHSW.pg ETHSW.MDIO_DATA_BUSY
def State.mdioStart (s : State) (v : Nat) : State :=
  let x : MdioAccess := ⟨bitOf v 10, BitVec.ofNat 5 (bitsOf v 5 5), BitVec.ofNat 5 v, BitVec.ofNat 16 (s.rd ETHSW.pg ETHSW.MDIO_DATA_DATA)⟩
  { s.wr ETHSW.pg ETHSW.MDIO_DATA_BUSY 0 1 with eth := { s.eth with mdio := some x } }
def State.mdioDone (s : State) (data : Nat) : State :=
  match s.eth.mdio with
  | some x =>
    let s := { s.wr ETHSW.pg ETHSW.MDIO_DATA_BUSY 0 0 with eth := { s.eth with mdio := none } }
    if x.write then s else s.wr ETHSW.pg ETHSW.MDIO_DATA_DATA 0 data
  | none => s

/-- A commit is refused with 0x04: a ring does not lie wholly in Main SRAM below 0x103C_0000 (R818). -/
def State.ethInconsistent (s : State) : Bool :=
  let bad := fun (b z : Fld) q => (s.isStaged ETHSW.pg b q || s.isStaged ETHSW.pg z q) && !inSram (s.merged ETHSW.pg b q) (16 * s.merged ETHSW.pg z q)
  (List.range 4).any fun q => bad ETHSW.TXQ_BASE_ADDR ETHSW.TXQ_SIZE_ENTRIES q || bad ETHSW.RXQ_BASE_ADDR ETHSW.RXQ_SIZE_ENTRIES q

end Sys2Proof.Machine
end

