-- ==== Sys2Proof/Machine/Clock.lean ====
section
/-!
DEFINITION. Machine/Clock.lean: SYSPLL, its substitute, hops and spread, the loss of the root (17 R845 to R869, R883, R394).
-/
namespace Sys2Proof.Machine

/-- Whether the device runs: no reset condition holds it (R872) and its clocks run, in P0 to P2 (R846, R881, R882). -/
def State.live (s : State) : Bool := !s.pwr.held && s.pwr.state ≤ 2

/-- An event of the running device; nothing happens in reset, P3 and P4. -/
def State.ifLive (s : State) (f : State → State) : State := if s.live then f s else s

/-- An event of the high-voltage die, which acts in every power state (R663); nothing happens in reset. -/
def State.ifDie (s : State) (f : State → State) : State := if s.pwr.held then s else f s

/-- The stored band of a profile. -/
def bandFld (p : Nat) : Fld := if p = 0 then CLOCK.BAND_BAND0 else if p = 1 then CLOCK.BAND_BAND1 else CLOCK.BAND_BAND2

/-- A band is stored for profile `p` (R861). -/
def State.bandStored (s : State) (p : Nat) : Bool := bitOf (s.rd CLOCK.pg CLOCK.BAND_VALID) p

/-- Store a band. -/
def State.storeBand (s : State) (p : Nat) (band : Byte) : State :=
  (s.wr CLOCK.pg (bandFld p) 0 band.toNat).putBit CLOCK.pg CLOCK.BAND_VALID 0 p true

/-- The SYSPLL domains go to their substitutes and the spread stops (R854, R857, R862). -/
def State.substitute (s : State) : State :=
  let s := if s.flag CLOCK.pg CLOCK.STATUS_SUBST then s else { s with clk := { s.clk with substSince := s.cyc } }
  (s.wr CLOCK.pg CLOCK.STATUS_SUBST 0 1).wr CLOCK.pg CLOCK.STATUS_SS_ACTIVE 0 0

/-- SYSPLL retunes to the profile in force: from its stored band, or by band search (R860, R861). -/
def State.relock (s : State) (search : Bool) : State :=
  let s := (s.substitute).wr CLOCK.pg CLOCK.STATUS_SYS_LOCK 0 0
  { s with clk := { s.clk with relocking := true, bandSearch := search || !s.bandStored (s.rd CLOCK.pg CLOCK.SYSCFG_PROFILE) } }

/-- SYSPLL relocks after the root's return: a profile that was committed meanwhile is a hop (R860). -/
def State.relockFound (s : State) (search : Bool) : State :=
  (s.relock search).setFlag CLOCK.pg CLOCK.STATUS_HOPPING 0 (s.rd CLOCK.pg CLOCK.STATUS_PROFILE_NOW ≠ s.rd CLOCK.pg CLOCK.SYSCFG_PROFILE)

/-- The root counts as lost: declared under R394, or CLNPLL lost lock (R855). Every unit is driven safe, CLK_SAFE is set, source
52 is active; a hop or relock is abandoned (R883). -/
def State.rootLost (s : State) : State :=
  let s := { s with clk := { s.clk with rootAbsent := true, relocking := false, lockLoss := false, clnBandSearch := false } }
  let s := (s.wr CLOCK.pg CLOCK.STATUS_ROOT_OK 0 0).wr CLOCK.pg CLOCK.STATUS_HOPPING 0 0
  let s := (s.bump CLOCK.pg CLOCK.ROOT_LOSS_COUNT_COUNT).irq CLOCK.pg 4
  let s := (List.finRange 16).foldl (fun s (n : Fin 16) =>
    ((s.setPwmUnit n { s.pwmUnit n with rootWait := true }).wr (PWM.pg n) PWM.STATUS_CLK_SAFE 0 1).stopDrive n) s
  s.setSource 52 true

/-- ROOT_CLOCK_LOSS (R394, R869): an absence that is declared already is declared once. Without its clocks running the device only has no
root from then on (R876). -/
def State.rootClockLoss (s : State) : State :=
  if !s.live then { s with clk := { s.clk with rootAbsent := true } }
  else if s.clk.rootAbsent && !s.clk.clnBandSearch then s
  else s.rootLost

/-- ROOT_LOSS_SAFE_LEVEL (R394): the fixed delay ended, active safe levels are driven. -/
def State.rootSafeLevel (s : State) : State :=
  (List.finRange 16).foldl (fun s (n : Fin 16) => s.setPwmUnit n { s.pwmUnit n with rootWait := false }) s

/-- The root is no longer lost: source 52 ends, CLK_SAFE stays (R394). -/
def State.rootFound (s : State) : State :=
  ({ s with clk := { s.clk with rootAbsent := false } }.wr CLOCK.pg CLOCK.STATUS_ROOT_OK 0 1).setSource 52 false

/-- ROOT_CLOCK_RETURN (R869): both PLLs relock by band search; SYSPLL only where it is powered. In reset the root has been present for 1 ms
from then on (R876). -/
def State.rootClockReturn (s : State) : State :=
  if !s.live then { s with clk := { s.clk with rootAbsent := false } }
  else if s.clk.rootAbsent && !s.clk.clnBandSearch then
    let s := s.rootFound.wr CLOCK.pg CLOCK.STATUS_CLN_LOCK 0 0
    let s := { s with clk := { s.clk with clnBandSearch := true } }
    if s.clk.sysOff then s else s.relockFound true
  else s

/-- The count that a PLL's lock detector expects in a window of 1,024 root cycles (R852): for SYSPLL that of its profile, less under a down
spread that runs. -/
def State.lockExpected (s : State) (sys : Bool) : Nat :=
  if !sys then 1024
  else
    let e := match s.rd CLOCK.pg CLOCK.SYSCFG_PROFILE with
      | 0 => 983
      | 1 => 1024
      | _ => 1065
    if s.flag CLOCK.pg CLOCK.STATUS_SS_ACTIVE && s.clk.spreadMode = 1 then e - (e * s.clk.spreadDepth + 400) / 800 else e

/-- A window is good (R852). -/
def State.windowGood (s : State) (sys : Bool) (count : Nat) : Bool :=
  let e := s.lockExpected sys
  let tol := s.rd CLOCK.pg CLOCK.LOCKCFG_TOL
  e ≤ count + tol && count ≤ e + tol

/-- PLL_LOCK_LOST, by two bad windows (R852, R853): SYSPLL relocks from the stored band, or from band search when it hopped (R854, R883); a
loss of CLNPLL lock counts as loss of the root, and CLNPLL relocks by band search (R855). -/
def State.lockLost (s : State) (sys : Bool) (counts : List Nat) : State :=
  if counts.any (s.windowGood sys) then s
  else if sys then
    let hop := s.flag CLOCK.pg CLOCK.STATUS_HOPPING
    if s.flag CLOCK.pg CLOCK.STATUS_SYS_LOCK || hop then
      let s := s.relock hop
      ({ s with clk := { s.clk with lockLoss := true } }.bump CLOCK.pg CLOCK.LOCK_LOST_COUNT_SYS).irq CLOCK.pg 0
    else s
  else if s.flag CLOCK.pg CLOCK.STATUS_CLN_LOCK then
    let s := (s.rootLost.wr CLOCK.pg CLOCK.STATUS_CLN_LOCK 0 0).bump CLOCK.pg CLOCK.LOCK_LOST_COUNT_CLN
    { s with clk := { s.clk with clnBandSearch := true } }
  else s

/-- Whole microseconds since the domains went to their substitutes, saturating (R858). -/
def State.substUs (s : State) : Nat := min (s.since s.clk.substSince / 250) 65535

/-- SYSPLL is locked: the band of a search is stored (R861), the domains switch back (R858), a hop ends (R862). -/
def State.sysLocked (s : State) (band : Byte) : State :=
  let p := s.rd CLOCK.pg CLOCK.SYSCFG_PROFILE
  let hop := s.flag CLOCK.pg CLOCK.STATUS_HOPPING
  let s := if s.clk.bandSearch then s.storeBand p band else s
  let s := { s with clk := { s.clk with relocking := false, lockLoss := false, bandSearch := false } }
  let s := (s.wr CLOCK.pg CLOCK.STATUS_SYS_LOCK 0 1).wr CLOCK.pg CLOCK.STATUS_PROFILE_NOW 0 p
  let s := (s.wr CLOCK.pg CLOCK.SUBST_TIME_US 0 s.substUs).wr CLOCK.pg CLOCK.STATUS_SUBST 0 0
  let s := s.irq CLOCK.pg 1
  if hop then ((s.wr CLOCK.pg CLOCK.STATUS_HOPPING 0 0).wrapBump CLOCK.pg CLOCK.HOP_COUNT_HOPS).irq CLOCK.pg 2 else s

/-- PLL_LOCK_DECLARED, by four good windows of a PLL that relocks (R852, R853). A CLNPLL that had lost its lock with the root present ends the
loss; a profile that was committed meanwhile is then hopped to (R860). -/
def State.lockDeclared (s : State) (sys : Bool) (band : Byte) (counts : List Nat) : State :=
  if !counts.all (s.windowGood sys) then s
  else if sys then if s.clk.relocking then s.sysLocked band else s
  else if s.clk.clnBandSearch then
    let s := { s with clk := { s.clk with clnBandSearch := false } }.wr CLOCK.pg CLOCK.STATUS_CLN_LOCK 0 1
    if s.clk.rootAbsent then
      let s := s.rootFound
      let same := s.rd CLOCK.pg CLOCK.STATUS_PROFILE_NOW = s.rd CLOCK.pg CLOCK.SYSCFG_PROFILE
      if (s.flag CLOCK.pg CLOCK.STATUS_SYS_LOCK && same) || s.clk.sysOff then s else s.relockFound false
    else s
  else s

/-- BAND_MISS (R861): the stored band has not settled. -/
def State.bandMiss (s : State) : State :=
  if s.clk.relocking && !s.clk.bandSearch then
    { s with clk := { s.clk with bandSearch := true } }.bump CLOCK.pg CLOCK.HOP_COUNT_BAND_MISS
  else s

/-- SPREAD_TRIANGLE_START (R848, R858): the committed spread is in force from here, while SYSPLL clocks its domains. -/
def State.spreadStart (s : State) : State :=
  let m := s.rd CLOCK.pg CLOCK.SYSCFG_SS_MODE
  if s.flag CLOCK.pg CLOCK.STATUS_SUBST || !s.flag CLOCK.pg CLOCK.STATUS_SYS_LOCK then s
  else
    { s with clk := { s.clk with spreadMode := m, spreadDepth := s.rd CLOCK.pg CLOCK.SYSCFG_SS_DEPTH } }.setFlag CLOCK.pg
      CLOCK.STATUS_SS_ACTIVE 0 (m ≠ 0)

/-- A commit would change PROFILE while SYSPLL hops, or relocks after a loss of its lock (R863). -/
def State.profileBusy (s : State) : Bool :=
  s.merged CLOCK.pg CLOCK.SYSCFG_PROFILE ≠ s.rd CLOCK.pg CLOCK.SYSCFG_PROFILE && !s.clk.sysOff &&
    (s.flag CLOCK.pg CLOCK.STATUS_HOPPING || s.clk.lockLoss)

/-- DEPTH lies outside the range of its SS_MODE (R849). -/
def State.clockInconsistent (s : State) : Bool :=
  let d := s.merged CLOCK.pg CLOCK.SYSCFG_SS_DEPTH
  match s.merged CLOCK.pg CLOCK.SYSCFG_SS_MODE with
  | 1 => d < 2 || 8 < d
  | 2 => d < 1 || 4 < d
  | _ => false

/-- A set of the `CLOCK` page took effect; `old` is the profile before: a changed one starts a hop (R860), at the exit from P2 in
P2 (R863). While the root is lost the hop waits for its return. -/
def State.clockCommit (s : State) (old : Nat) : State :=
  if s.rd CLOCK.pg CLOCK.SYSCFG_PROFILE = old || s.clk.sysOff then s
  else if s.clk.rootAbsent then s.substitute
  else (s.relock false).wr CLOCK.pg CLOCK.STATUS_HOPPING 0 1

/-- Entry to P2 powers SYSPLL down (R879, R883): a hop in progress is not completed. -/
def State.sysDown (s : State) : State :=
  let s := (s.substitute.wr CLOCK.pg CLOCK.STATUS_SYS_LOCK 0 0).wr CLOCK.pg CLOCK.STATUS_HOPPING 0 0
  { s with clk := { s.clk with relocking := false, lockLoss := false, sysOff := true } }

/-- The exit from P2: SYSPLL relocks in the background on the profile in force (R863, R879). -/
def State.sysUp (s : State) : State :=
  let s := { s with clk := { s.clk with sysOff := false } }
  if s.clk.rootAbsent then s else s.relock false

/-- A clock-domain crossing: the value before was not taken, or an event count saturated (R864, R866). -/
def State.crossing (s : State) : Crossing → State
  | .taken => s
  | .overrun => (s.bump CLOCK.pg CLOCK.XING_OVERRUN).irq CLOCK.pg 3
  | .overflow => (s.bump CLOCK.pg CLOCK.XING_OVERFLOW).irq CLOCK.pg 3

end Sys2Proof.Machine
end

