-- ==== Sys2Proof/Machine/Modes.lean ====
section
/-!
DEFINITION. Machine/Modes.lean: the mode machine (01 R38 to R58), the inter-die link (R17 to R22), lock-step (R24 to R26).

A request waits for the mode tick, where the mode machine evaluates requests and events together (01 Operating modes).
-/
namespace Sys2Proof.Machine

/-- Fold over the units of a kind. -/
def State.forAll (s : State) (k : Nat) (f : State → Fin k → State) : State := (List.finRange k).foldl f s

/-- A commit that waits on a page whose block has stopped takes effect (R136, R309, R383, R471). -/
def State.idleBoundaries (s : State) : State :=
  let s := s.forAll 16 State.pwmIdleCommit
  s.forAll 16 fun s n =>
    if s.commitPending (LE.pg n) && (s.leState n = leSTOPPED || s.leState n = leFAULT) then (s.boundary (LE.pg n)).leDuty n else s

/-- Entry to CONFIG ends HALT_SAFE, and CLK_SAFE where the clock is back (R393, R394). -/
def State.clearSafe (s : State) : State :=
  s.forAll 16 fun s n =>
    let s := s.wr (PWM.pg n) PWM.STATUS_HALT_SAFE 0 0
    if s.clk.rootAbsent then s else s.wr (PWM.pg n) PWM.STATUS_CLK_SAFE 0 0

/-- No transition to READY is under way any more: the ports run on as they are (R494). -/
def State.endRamp (s : State) : State :=
  if s.modes.ramp.isNone then s
  else
    let s := s.forAll 8 fun s p => s.setPort p { s.portUnit p with ready := false }
    { s with modes := { s.modes with ramp := none } }

/-- The mode changes to `m` with PREV_MODE and an entry cause, and every block acts on it (R42, R43, R193). An exit from SAFE_STOP leaves
`SAFE_STOP_CAUSE` as it reads until the next entry: R39 does not say when it clears (DESIGN CHOICE, log entry 6). -/
def State.enterMode (s : State) (m prev cause : Nat) : State :=
  let old := s.mode
  let s := (s.wr SYS.pg SYS.MODE_MODE 0 m).wr SYS.pg SYS.MODE_PREV_MODE 0 prev
  let s := s.wr SYS.pg SYS.MODE_ENTRY_CAUSE 0 cause
  let s := s.endRamp
  let s := { s with modes := { s.modes with request := none } }
  let s := if m = mCONFIG then s.clearSafe else s
  let s := ((s.fuseStatus.leModes old).formModes old).measureMode
  let s := ((s.cbcHolds.carriers).idleBoundaries).recheckDrive
  let s := ((s.portModes.pilotModes).gdrvModes).wdShow
  let s := if m = mSAFE then s.metroSafeStop else s
  let s := if m = mCONFIG || m = mBOOT then s.atticStop else s
  ({ s.wr SYS.pg SYS.STATUS_TRANS_BUSY 0 1 with modes := { s.modes with settling := true } }).settle

/-! ### Requests (R44 to R50, R53, R57) -/

/-- The initiator's identifier as an entry cause (R45). -/
def causeOf (id : Nat) : Nat :=
  match id with
  | 0x01 => 1
  | 0x02 => 2
  | 0x10 => 3
  | 0x11 => 4
  | _ => 0

/-- Every unit in use meets a condition (R182). -/
def State.unitsAll (s : State) (f : Fin 2 → Bool) : Bool := (List.finRange 2).all fun (n : Fin 2) => !s.formInUse n || f n

/-- Some unit is in use (R180). -/
def State.unitsAny (s : State) : Bool := s.formInUse 0 || s.formInUse 1

/-- The condition of R44 from CONFIG to READY, with R345, R413, R623 and R955. -/
def State.readyOk (s : State) : Bool :=
  s.allCommitted && !s.banksNotReady &&
  ((List.range 16).all fun u => !(bitOf (s.rd FUSE.pg FUSE.UNIT_TRIP_UNIT) u && s.flag (PWM.pg u) PWM.CTRL_EN)) &&
  [59, 60].all fun src => !(s.srcActive src && s.flag FUSE.pg FUSE.MAP_EN src)

/-- The condition of R235 for one unit. -/
def State.recloseOk (s : State) (n : Fin 2) : Bool :=
  let u := s.formUnit n
  !u.mbClosed && u.present &&
    ratAbs (s.fR n FORM.GRID_MAG_VALUE - s.fR n FORM.VBUS_VALUE) ≤ s.fR n FORM.SYNC_MAG_VALUE &&
    ratAbs (s.fR n FORM.GRID_SLIP_VALUE) ≤ s.fR n FORM.SYNC_SLIP_VALUE

/-- R44 lists the transition as one by request, and its condition holds (R182, R183, R191, R235). -/
def State.transitionOk (s : State) (target : Nat) : Bool :=
  match s.mode, target with
  | 2, 3 => s.readyOk
  | 3, 2 => true
  | 3, 4 => s.unitsAny && s.unitsAll fun n => (s.formUnit n).present
  | 3, 6 => s.unitsAll fun n => !(s.formUnit n).mbClosed
  | 4, 3 => true
  | 5, 3 => true
  | 6, 3 => true
  | 6, 4 => s.unitsAny && s.unitsAll s.recloseOk
  | 7, 2 => true
  | _, _ => false

/-- A member that joins takes the lead's modes and makes none of its own (R794). -/
def State.joinerFollows (s : State) : Bool := s.memState = rJOINING && s.takesMode

/-- A request is accepted at the mode tick: the current mode (R48), or a transition that the rules allow the requester. Outside P0, R48
accepts a request for the current mode and R53 refuses it, and the spec does not say which wins; the model accepts it, for it causes no
action (DESIGN CHOICE, log entry 6). -/
def State.requestOk (s : State) (target id : Nat) : Bool :=
  target = s.mode ||
    (s.transitionOk target && !(s.mode = mSAFE && id ≠ 0x01 && id ≠ 0x02) && !s.joinerFollows &&
      (target = mCONFIG || target = mSAFE || (s.pwr.state = 0 && !s.pwr.away && !s.pwr.stopDue)))

/-- A request of the initiator with identifier `id` is refused or abandoned (R46, R47, R52). -/
def State.requestRefused (s : State) (id : Nat) : State :=
  let s := (s.wr SYS.pg HDR.CFG_ERROR_CODE 0 0x05).wr SYS.pg HDR.CFG_ERROR_OFFSET 0 0x044
  (s.wr SYS.pg HDR.CFG_ERROR_INITIATOR 0 id).wr SYS.pg SYS.STATUS_REQ_REFUSED 0 1

/-- A write of `MODE_REQ` that passed R103: refused while a transition is in progress (R47) and on a member that takes the lead's modes
(R57); else it waits for the mode tick, and a swap before that tick changes nothing of it (R798). -/
def State.modeRequest (s : State) (ini : Initiator) (target : Nat) : State :=
  if s.flag SYS.pg SYS.STATUS_TRANS_BUSY || s.takesMode then s.requestRefused (ownerId ini)
  else
    let s := s.wr SYS.pg SYS.STATUS_TRANS_BUSY 0 1
    { s with modes := { s.modes with request := some (target, ownerId ini) } }

/-- What waits is given up: a pending request, and a request whose ports still ramp down (R50, R52). -/
def State.abandon (s : State) : State :=
  let s := match s.modes.request with
    | some (_, id) => s.requestRefused id
    | none => s
  let s := match s.modes.ramp with
    | some (_, some id) => s.requestRefused id
    | _ => s
  let s := s.endRamp
  { s with modes := { s.modes with request := none } }

/-- Every port that is not OFF receives stop cause 3; one in phases 9 to 11 records it and continues (R494). -/
def State.portsToReady (s : State) : State :=
  s.forAll 8 fun s p =>
    if s.portPhase p = 0 then s
    else
      let s := s.setPort p { s.portUnit p with ready := true }
      if 9 ≤ s.portPhase p && s.portPhase p ≤ 11 then s.wr (PORT.pg p) PORT.STATUS_STOP_CAUSE 0 3 else s

/-- The transition from a forming mode to READY: at once when every port is OFF, else the ports take stop cause 3 and the mode
waits for them (R52, R208, R494). -/
def State.toReady (s : State) (cause : Nat) (id : Option Nat) : State :=
  if s.portsOff then s.enterMode mREADY s.mode cause
  else
    let s := { s with modes := { s.modes with request := none, ramp := some (cause, id) } }
    (s.portsToReady).wr SYS.pg SYS.STATUS_TRANS_BUSY 0 1

/-- The request that waits is evaluated (R44 to R49). -/
def State.judge (s : State) : State :=
  match s.modes.request with
  | none => s
  | some (target, id) =>
    let s := { s with modes := { s.modes with request := none } }
    if s.requestOk target id then
      let s := (s.wr SYS.pg SYS.MODE_REQ_TARGET 0 target).wr SYS.pg SYS.STATUS_REQ_REFUSED 0 0
      if target = s.mode then s.wr SYS.pg SYS.STATUS_TRANS_BUSY 0 0
      else if target = mREADY && s.forming then s.toReady (causeOf id) (some id)
      else s.enterMode target s.mode (causeOf id)
    else (s.requestRefused id).wr SYS.pg SYS.STATUS_TRANS_BUSY 0 0

/-! ### The mode tick -/

/-- The breaker and the grid-loss state as of this mode tick (R181). -/
def State.latchBreaker (s : State) : State :=
  s.forAll 2 fun s n =>
    if s.formInUse n then s.setForm n { s.formUnit n with mbClosed := s.mbNow n, gridLost := s.glNow n } else s

/-- The causes that acted no longer wait. -/
def State.dropCauses (s : State) : State :=
  { s with modes := { s.modes with causes := s.modes.causes.filter fun c => !s.causeDue c } }

/-- The lowest cause code among causes (R51); of equal ones the lowest source. -/
def lowestCause (l : List Nat) : Nat :=
  l.foldl (fun a b => if b % 256 < a % 256 || (b % 256 = a % 256 && b < a) then b else a) (l.headD 0)

/-- Entry to SAFE_STOP by the causes of one mode tick (R39, R51). -/
def State.enterSafe (s : State) (cs : List Nat) : State :=
  let c := lowestCause cs
  let s := s.abandon.dropCauses
  let s := (s.wr SYS.pg SYS.SAFE_STOP_CAUSE_FIRST 0 c).wr SYS.pg SYS.SAFE_STOP_CAUSE_COUNT 0 (min (cs.length - 1) 65535)
  s.enterMode mSAFE s.mode (c % 256)

/-- The main breaker closed while close permission is granted, for every unit in use (R205). -/
def State.closedUnderPermit (s : State) : Bool :=
  s.mode = mSYNC && s.unitsAny && s.unitsAll fun n => s.mbNow n && s.flag (FORM.pg n) FORM.STATUS_CLOSE_PERMIT

/-- Islanding detected or the main breaker opened, for any unit in use (R182). -/
def State.islanded (s : State) : Bool :=
  s.mode = mGRID && (List.finRange 2).any fun (n : Fin 2) => s.formInUse n && (!(s.formUnit n).mbClosed || (s.formUnit n).gridLost)

/-- The P1 actions of a power command, at the mode tick after it (R879): engines stop, legs leave for OFF, axes enter IDLE. At
other ticks an engine for which the conditions of R280 for STOPPED have ceased to hold leaves STOPPED (R281). -/
def State.powerStop (s : State) : State :=
  if s.pwr.stopDue then
    let s := { s with pwr := { s.pwr with stopDue := false, away := true } }
    let s := s.forAll 16 fun s n => if s.leState n = leFAULT then s else s.leMode s.mode n
    let s := (s.leSources.idleBoundaries).legsCheck
    s.forAll 4 fun s a => s.axisIdle a
  else
    let s := s.forAll 16 fun s n => if s.leState n = leSTOPPED && !s.leMustStop n then s.leMode s.mode n else s
    s.legsCheck

/-- The transition that the lead makes at this mode tick: a member that takes its modes follows it (R774), and so does a member that a
swap has just made the lead, for a request written before it (R798). -/
def State.leadMove (s : State) (lead : Option LeadMode) : Option LeadMode :=
  lead.filter fun l => (s.takesMode || s.redun.heir) && l.mode.val ≠ s.mode && l.mode.val ≠ 0

/-- A follower holds TRANS_BUSY with the lead while that waits for its ports, and goes on with it as the lead after a swap (R52, R56); a
member that a swap has just made the lead takes what the former lead's request began, and its ports receive stop cause 3 (R57, R798). What
this member's own request began at this tick stands: `had` says that it waited for its ports before. -/
def State.followRamp (s : State) (l : LeadMode) (had : Bool) : State :=
  match l.ramp, s.modes.ramp with
  | some c, r =>
    if s.forming then
      let s := { s with modes := { s.modes with ramp := some (c.toNat, r.bind (·.2)) } }.wr SYS.pg SYS.STATUS_TRANS_BUSY 0 1
      if s.redun.heir && !s.takesMode then s.portsToReady else s
    else s
  | none, some _ =>
    if had && s.takesMode then s.endRamp.wr SYS.pg SYS.STATUS_TRANS_BUSY 0 0 else s
  | none, none => s

/-- The lead's transition is the one that a request of this member asks for, written while it was the lead (R57, R798): the request is
accepted, and what waits besides is given up. -/
def State.fulfil (s : State) (l : LeadMode) : State :=
  match s.modes.request, s.modes.ramp with
  | some (target, _), _ =>
    if target = l.mode.val && s.takesMode then
      let s := { s with modes := { s.modes with request := none } }
      ((s.wr SYS.pg SYS.MODE_REQ_TARGET 0 target).wr SYS.pg SYS.STATUS_REQ_REFUSED 0 0).abandon
    else s.abandon
  | none, some (c, _) =>
    if l.mode.val = mREADY && l.cause.toNat = c && s.takesMode then { s with modes := { s.modes with ramp := none } } else s.abandon
  | none, none => s

/-- MODE_TICK: at most one transition: SAFE_STOP, the lead's, a hardware-caused one, a request's (R44, R50, R51, R774). -/
def State.modeTick (s : State) (lead : Option LeadMode) : State :=
  if s.mode = mBOOT then s
  else
    let s := s.latchBreaker
    let had := s.modes.ramp.isSome
    let cs := s.dueCauses
    let s :=
      if s.mode ≠ mSAFE && cs ≠ [] then s.enterSafe cs
      else
        let s := if cs = [] then s else (cs.foldl (fun s _ => s.bump SYS.pg SYS.SAFE_STOP_CAUSE_COUNT) s).dropCauses
        match s.leadMove lead with
        | some l => (s.fulfil l).enterMode l.mode l.prev.toNat l.cause.toNat
        | none =>
          if s.takesMode then s.judge
          else if s.closedUnderPermit then (s.abandon).enterMode mGRID s.mode 0x20
          else if s.islanded then (s.abandon).enterMode mISLAND s.mode 0x21
          else s.judge
    let s := match s.takesMode || s.redun.heir, lead with
      | true, some l =>
        if s.memState = rJOINING && s.rd REDUN.pg REDUN.JOIN_PHASE = 4 && l.mode.val = s.mode then
          (s.wr SYS.pg SYS.MODE_PREV_MODE 0 l.prev.toNat).wr SYS.pg SYS.MODE_ENTRY_CAUSE 0 l.cause.toNat |>.wr REDUN.pg REDUN.JOIN_PHASE 0 5
        else s.followRamp l had
      | _, _ => s
    { s with redun := { s.redun with heir := false } }.powerStop

/-- SYNC_TIMEOUT of a unit in use (R207); a closure under permission at the same tick wins (R239); a request that waits is refused
(R50), and one for READY that waits for the ports is abandoned (R52). -/
def State.syncExpiry (s : State) (n : Fin 2) : State :=
  if s.mode = mSYNC && s.formInUse n && s.modes.ramp.all (fun r => r.1 ≠ 0x22) && !s.closedUnderPermit && !s.takesMode then
    (s.abandon).toReady 0x22 none
  else s

/-- READY_AFTER_PORTS_OFF (R52, R208); a follower takes the lead's transition (R56, R774). -/
def State.readyAfterPorts (s : State) : State :=
  match s.modes.ramp with
  | some (cause, _) => if s.portsOff && !s.takesMode then s.enterMode mREADY s.mode cause else s
  | none => s

/-! ### Inter-die link and lock-step -/

/-- DIE_LINK_LOSS (R18 to R21): a loss that is not declared yet. With the high-voltage die unpowered from the start no frame ever comes, and
the loss is declared without a link before it (R946). -/
def State.dieLinkLoss (s : State) : State :=
  if !s.srcActive 57 then
    let s := (s.wr SYS.pg SYS.STATUS_DIE_LINK_OK 0 0).setSource 57 true
    ((s.gdrvLinkLoss).safeLinkLoss).safeStop 0x14 0 (s.selfCause 57)
  else s

/-- DIE_LINK_RESTORE (R22): a `CHIMNEY` commit that waited reaches the high-voltage die. -/
def State.dieLinkRestore (s : State) : State :=
  let s := (s.wr SYS.pg SYS.STATUS_DIE_LINK_OK 0 1).setSource 57 false
  let s := if s.commitPending CHIMNEY.pg then (s.boundary CHIMNEY.pg).chimneyCommit else s
  s.legsCheck

/-- A lock-step mismatch at this CYC waits for its mode tick. -/
def State.mismatchNow (s : State) : Bool := s.modes.causes.any fun c => c.1 % 256 = 0x12 && c.2 = s.cyc

/-- The SUP halt at this CYC gives way to a mismatch (R921): its cause is dropped, where no engine is halted that gave the same cause. -/
def State.dropHaltCause (s : State) : State :=
  if s.rd DEBUG.pg DEBUG.LE_HALT_ENGINE = 0 then
    { s with modes := { s.modes with causes := s.modes.causes.filter fun c => !(c.1 % 256 = 0x11 && c.2 = s.cyc) } }
  else s

/-- LOCKSTEP_MISMATCH (R25, R93): the pair halts until the next reset (R26); it governs over a SUP halt that falls together with it (R921). -/
def State.lockstep (s : State) (p : Pair) : State :=
  if (match p with
    | .A => s.sec.lsHaltA
    | .B => s.sec.lsHaltB) then s
  else
  let s := match p with
    | .A =>
      let s := ((s.wr SYS.pg SYS.STATUS_SUPA_LS_ERR 0 1).wr DEBUG.pg DEBUG.HALTED_SUPA 0 1).freeKeysOf 0x10
      { s with sec := { s.sec with lsHaltA := true } }
    | .B =>
      let s := ((s.wr SYS.pg SYS.STATUS_SUPB_LS_ERR 0 1).wr DEBUG.pg DEBUG.HALTED_SUPB 0 1).freeKeysOf 0x11
      { s with sec := { s.sec with lsHaltB := true } }
  (((s.wdShow).setSource 58 true).dropHaltCause).safeStop 0x12 0 (s.selfCause 58)

end Sys2Proof.Machine
end

