-- ==== Sys2Proof/Machine/Boot.lean ====
section
/-!
DEFINITION. Machine/Boot.lean: boot images, slots and the boot (18 R895 to R903).
-/
namespace Sys2Proof.Machine

/-! ### Where images are read from -/

/-- A byte of the image flash; an erased byte is 0xFF. -/
def State.flashByte (s : State) (a : Nat) : Byte := s.sec.flash.get a ^^^ 0xFF

/-- Program a byte of the image flash to `b`. -/
def State.putFlash (s : State) (a : Nat) (b : Byte) : State :=
  { s with sec := { s.sec with flash := s.sec.flash.put a (b ^^^ 0xFF) } }

/-- `n` bytes from `a` on, and the little-endian number they hold. -/
def readBytes (rd : Nat → Byte) (a n : Nat) : List Byte := (List.range n).map fun i => rd (a + i)
def readLe (rd : Nat → Byte) (a n : Nat) : Nat := ofLeBytes (readBytes rd a n)

/-- An entry of a directory (R898). -/
structure DirEntry where
  type : Nat
  off : Nat
  len : Nat
  deriving DecidableEq, Repr

/-- A directory (R898). -/
structure Directory where
  gen : Nat
  xfcfg : Nat
  entries : List DirEntry
  deriving DecidableEq, Repr

/-- The directory at `base`: none where its MAGIC or COUNT is not that of one, or the three bytes behind a TYPE are not zero. Widths and places that R898 leaves open are those
of log entry 26; image offsets count from `origin`. -/
def readDir (rd : Nat → Byte) (base origin : Nat) : Option Directory :=
  let count := readLe rd (base + 12) 4
  if readBytes rd base 4 = [0x4B, 0x58, 0x44, 0x52] ∧ 1 ≤ count ∧ count ≤ 16 ∧
      (List.range count).all (fun i => readLe rd (base + 17 + 16 * i) 3 = 0) then
    some { gen := readLe rd (base + 4) 4, xfcfg := readLe rd (base + 8) 4
           entries := (List.range count).map fun i =>
             let a := base + 16 + 16 * i
             { type := (rd a).toNat, off := origin + readLe rd (a + 4) 4, len := readLe rd (a + 8) 4 } }
  else none

/-- The types of R895. -/
abbrev imSEC : Nat := 1
abbrev imSUPA : Nat := 2
abbrev imSUPB : Nat := 3
abbrev imMET : Nat := 4
abbrev imDATA : Nat := 5

/-- An image whose payload was hashed: where its payload is read and where it goes. -/
structure Loaded where
  type : Nat
  svn : Nat
  entry : Nat
  src : Nat
  dst : Nat
  len : Nat
  xip : Bool
  hash16 : List Byte
  hash32 : List Byte
  deriving DecidableEq, Repr

/-- What stays of an image after boot. -/
def Loaded.image (i : Loaded) : Image := ⟨i.type, i.svn, i.entry, i.hash16, i.hash32⟩

/-- Where a payload goes (R896), MET's partition SRAM standing at 2^32: none outside its region. -/
def imagePlace (type load len : Nat) (xip : Bool) : Option Nat :=
  let inside := fun lo hi => decide (lo ≤ load ∧ load + len ≤ hi)
  if type = imSEC then if inside secureBase (sramBase + sramSize) then some load else none
  else if type = imMET then if load + len ≤ 0x40000 then some (2 ^ 32 + load) else none
  else if xip && (type = imSUPA || type = imSUPB) then if inside 0x60000000 0x70000000 then some load else none
  else if inside sramBase secureBase then some load else none

/-- The rollback counter of an image type (R904): SEC, SUP, MET, DATA. -/
def counterOf (type : Nat) : Nat := if type = imSEC then 0 else if type = imSUPA || type = imSUPB then 1 else if type = imMET then 2 else 3
def State.rollback (s : State) (c : Nat) : Nat := s.otpCount (otpCounters + 64 * c) 64

/-- The key hash of a signer's slot (R896): 0 and 1 Keanex, 2 and 3 owner; none where an owner slot is all zero or the slot does not
exist. -/
def State.slotHash (s : State) (signer : Nat) : Option (List Byte) :=
  if signer ≤ 1 then s.sec.keanex[signer]?
  else if signer ≤ 3 then
    let h := s.otpBytes (if signer = 2 then otpOwner0 else otpOwner1) 32
    if h.all (· = 0) then none else some h
  else none

/-- A public key belongs to a slot: the first 32 bytes of its SHA-512 equal the slot's hash. -/
def State.keyOf (s : State) (signer : Nat) (pub : List Byte) : Bool := s.slotHash signer = some (hashBytes 32 pub)

/-- The signer is accepted for the type (R896). -/
def State.signerOk (s : State) (type signer : Nat) (pub : List Byte) : Bool :=
  if type = imSEC || type = imMET then signer ≤ 1 && s.keyOf signer pub
  else s.lifecycle = lcBLANK || ((signer = 2 || signer = 3) && s.keyOf signer pub)

/-- The checks of R897 on the image of entry `e`, in their order: a failure code and no image, a failure code and the image
whose payload was loaded, or the image. `readOk`: the flash brought its bytes; `before` are the images hashed before it. An SVN above 64
is malformed (DEDUCED, log entry 26). -/
def State.imageCheck (s : State) (rd : Nat → Byte) (e : DirEntry) (readOk : Bool) (before : List Loaded) :
    Option Nat × Option Loaded :=
  let h := fun i n => readLe rd (e.off + i) n
  let type := h 5 1
  let len := h 0x14 4
  let xip := bitOf (h 7 1) 0
  let zero := fun i n => (readBytes rd (e.off + i) n).all (· = 0)
  if readBytes rd e.off 4 ≠ [0x4B, 0x58, 0x49, 0x4D] ∨ h 4 1 ≠ 1 ∨ type ≠ e.type ∨ type = 0 ∨ imDATA < type ∨ 1 < h 7 1 ∨
      !zero 0x80 64 ∨ 64 < h 8 4 ∨ len % 8 ≠ 0 ∨ 256 + len ≠ e.len then (some 0x5, none)
  else if h 0x18 8 ≠ 0 ∧ h 0x18 8 ≠ s.uid then (some 0xC, none)
  else match imagePlace type (h 0xC 4) len xip with
    | none => (some 0x8, none)
    | some dst =>
      if before.any fun b => overlap dst len b.dst b.len then (some 0x8, none)
      else if !readOk then (some 0xB, none)
      else
        let pub := readBytes rd (e.off + 0x20) 32
        let im : Loaded := { type := type, svn := h 8 4, entry := h 0x10 4, src := e.off + 256, dst := dst, len := len
                             xip := xip && (type = imSUPA || type = imSUPB), hash16 := readBytes rd (e.off + 0x40) 16
                             hash32 := if type = imMET then hashBytes 32 (readBytes rd e.off (256 + len)) else [] }
        if sha512 (readBytes rd im.src len) ≠ readBytes rd (e.off + 0x40) 64 then (some 0xA, some im)
        else if !(s.signerOk type (h 6 1) pub && edVerify pub (sha512 (readBytes rd e.off 0xC0)) (readBytes rd (e.off + 0xC0) 64)) then
          (some 0x3, some im)
        else if im.svn < s.rollback (counterOf type) then (some 0x4, some im)
        else (none, some im)

/-- A type that every set must hold in this lifecycle (R897). -/
def State.required (s : State) (t : Nat) : Bool := t ≤ imSUPB || (t = imMET && (s.lifecycle = lcPROVISIONED || s.lifecycle = lcSEALED))

/-- The images of a directory in the order of R898, each with its entry; none stands for a required type without an image. -/
def State.bootOrder (s : State) (d : Directory) : List (Option (Nat × DirEntry)) :=
  let es := (List.range d.entries.length).zip d.entries
  let of := fun t => (es.filter fun e => e.2.type = t).map some
  ([imSEC, imSUPA, imSUPB, imMET].flatMap fun t => if of t = [] && s.required t then [none] else of t) ++ of imDATA ++
    (es.filter fun e => e.2.type = 0 || imDATA < e.2.type).map some

/-- The result of a set's checks: the first failure (code, entry), the images hashed. -/
structure SetResult where
  fail : Option (Nat × Option Nat) := none
  images : List Loaded := []
  deriving DecidableEq, Repr

/-- One image too many of its type (R898). -/
def tooMany (t : Nat) (before : List Loaded) : Bool :=
  let n := (before.filter fun b => b.type = t).length
  if t = imDATA then 8 ≤ n else 1 ≤ n

/-- The checks of R897 over a set; `bad` are the entries whose image the flash fails to bring. -/
def State.setCheck (s : State) (rd : Nat → Byte) (bad : List (Fin 16)) : List (Option (Nat × DirEntry)) → List Loaded → SetResult
  | [], done => { images := done }
  | none :: _, done => { fail := some (0x9, none), images := done }
  | some (i, e) :: rest, done =>
    if tooMany e.type done then { fail := some (0x5, some i), images := done }
    else match s.imageCheck rd e (!(bad.map (·.val)).contains i) done with
      | (some c, im) => { fail := some (c, some i), images := done ++ im.toList }
      | (none, im) => s.setCheck rd bad rest (done ++ im.toList)

/-- Bytes into the partition SRAM from its address `a` on (R896). -/
def State.metroPut (s : State) (a : Nat) (bs : List Byte) : State :=
  { s with metro := { s.metro with sram := bs.zipIdx.foldl (fun m x => m.put (a + x.2) x.1) s.metro.sram } }

/-- A payload goes to its place (R896, R899); an XIP payload stays where it is. Where a word of Main SRAM that it covers in part holds an
uncorrectable error, its bytes there are discarded (R953) and the boot goes on: R897 has no code for it (DESIGN CHOICE, log entry 26). -/
def State.placeOne (s : State) (im : Loaded) (bs : List Byte) : State :=
  if im.xip then s else if im.type = imMET then s.metroPut (im.dst - 2 ^ 32) bs else (s.dmaStore im.dst bs).2

/-- The payloads go to their places. -/
def State.place (s : State) (rd : Nat → Byte) (ims : List Loaded) : State :=
  ims.foldl (fun s im => s.placeOne im (readBytes rd im.src im.len)) s

/-- One image of a set in Main SRAM is checked and, once it is hashed, placed. A word that cannot be corrected is the bus error of R32 to
the Boot ROM, whose code is that of a read error (DEDUCED, log entry 26). -/
def State.ramImage (s : State) (e : DirEntry) (before : List Loaded) : (Option Nat × Option Loaded) × State :=
  match s.dmaRead e.off 256 with
  | (none, s) => ((some 0xB, none), s)
  | (some _, s) =>
    match s.imageCheck s.byteAt e true before with
    | (r, none) => ((r, none), s)
    | (r, some im) =>
      match s.dmaRead im.src im.len with
      | (none, s) => ((some 0xB, none), s)
      | (some bs, s) => ((r, some im), s.placeOne im bs)

/-- The checks of R897 over a set in Main SRAM (R903). -/
def State.ramCheck : List (Option (Nat × DirEntry)) → List Loaded → State → SetResult × State
  | [], done, s => ({ images := done }, s)
  | none :: _, done, s => ({ fail := some (0x9, none), images := done }, s)
  | some (i, e) :: rest, done, s =>
    if tooMany e.type done then ({ fail := some (0x5, some i), images := done }, s)
    else match s.ramImage e done with
      | ((some c, im), s) => ({ fail := some (c, some i), images := done ++ im.toList }, s)
      | ((none, im), s) => State.ramCheck rest (done ++ im.toList) s

/-- The directory in Main SRAM: none where it is malformed, or a word of it cannot be read; then the code. -/
def State.ramDir (s : State) (src : Nat) : Except Nat Directory × State :=
  match s.dmaRead src 16 with
  | (none, s) => (.error 0xB, s)
  | (some _, s) =>
    match readDir s.byteAt src src with
    | none => (.error 0x5, s)
    | some d =>
      match s.dmaRead (src + 16) (16 * d.entries.length) with
      | (none, s) => (.error 0xB, s)
      | (some _, s) => (.ok d, s)

/-! ### Slots (R898, R899) -/

/-- Flash offset of a slot: 0 A, 1 B. -/
def slotBase (k : Nat) : Nat := 0x800000 * k

/-- The slots that the Boot ROM tries, in order (R899). -/
def State.bootSlots (s : State) : List Nat :=
  let gen := fun k => (readDir s.flashByte (slotBase k) 0).map (·.gen)
  match s.rd SYS.pg SYS.STRAPS_BOOT_S with
  | 1 => [0]
  | 2 => [1]
  | 7 => []
  | _ => match gen 0, gen 1 with
    | some a, some b => if a < b then [1, 0] else [0, 1]
    | none, some _ => [1, 0]
    | _, _ => [0, 1]

/-- The checks of a slot. A slot without a directory is malformed (log entry 26). -/
def State.slotCheck (s : State) (k : Nat) (bad : List (Fin 16)) : SetResult :=
  match readDir s.flashByte (slotBase k) 0 with
  | none => { fail := some (0x5, none) }
  | some d => s.setCheck s.flashByte bad (s.bootOrder d) []

/-- The result of a boot: the slot that boots and its images, or the failure of the last slot tried; the images that the slots
tried loaded, in order, and the XFCFG with which the last of them was read (R898). -/
structure BootResult where
  slot : Option Nat := none
  fallback : Bool := false
  images : List Loaded := []
  fail : Option (Nat × Option Nat) := none
  loaded : List Loaded := []
  xfcfg : Option Nat := none
  deriving DecidableEq, Repr

/-- Try slots in order (R899). -/
def State.trySlots (s : State) (bad : Nat → List (Fin 16)) : List Nat → BootResult → BootResult
  | [], r => r
  | k :: ks, r =>
    let x := s.slotCheck k (bad k)
    let cfg := (readDir s.flashByte (slotBase k) 0).map (·.xfcfg)
    let r := { r with loaded := r.loaded ++ x.images, fail := x.fail, xfcfg := cfg <|> r.xfcfg }
    match x.fail with
    | none => { r with slot := some k, images := x.images }
    | some _ => s.trySlots bad ks { r with fallback := r.fallback || !ks.isEmpty }

/-- The boot from flash. -/
def State.bootRun (s : State) (badA badB : List (Fin 16)) : BootResult := s.trySlots (fun k => if k = 0 then badA else badB) s.bootSlots {}

/-! ### The end of BOOT (R900, R902, R903) -/

/-- The Boot ROM waits for an outcome: BOOT, and not in recovery. -/
def State.booting (s : State) : Bool := s.live && s.mode = mBOOT && !s.flag CELLAR.pg CELLAR.STATUS_RECOVERY

/-- What the Cellar shows of the OTP array (R889, R891, R904). -/
def State.cellarShow (s : State) : State :=
  let s := s.wr CELLAR.pg CELLAR.LIFECYCLE_STATE 0 s.lifecycle
  let s := s.wr64 CELLAR.pg CELLAR.UID_LO_UID CELLAR.UID_HI_UID 0 s.uid
  let s := (s.wr CELLAR.pg CELLAR.COUNTERS_SEC 0 (s.rollback 0)).wr CELLAR.pg CELLAR.COUNTERS_SUP 0 (s.rollback 1)
  (s.wr CELLAR.pg CELLAR.COUNTERS_MET 0 (s.rollback 2)).wr CELLAR.pg CELLAR.COUNTERS_DATA 0 (s.rollback 3)

/-- `CELLAR.STATUS.KEYS_OK`: the spec states no rule for it; a free value (log entry 3). -/
def State.keysOk (s : State) : State :=
  let (r, s) := s.freshWord
  s.setFlag CELLAR.pg CELLAR.STATUS_KEYS_OK 0 (r.getLsbD 0)

/-- Every core starts, R28 takes effect, the mode goes to CONFIG (R900, R44). After a wake from P3 the metrology partition goes
on (R881). An interrupt of R873 that waited is set. -/
def State.bootStart (s : State) (slot gen : Nat) (fallback : Bool) (ims : List Image) : State :=
  let s := { s with sec := { s.sec with images := ims } }
  let s := (s.wr CELLAR.pg CELLAR.BOOT_SLOT 0 slot).wr CELLAR.pg CELLAR.BOOT_OK 0 1
  let s := (s.setFlag CELLAR.pg CELLAR.BOOT_FALLBACK 0 fallback).wr CELLAR.pg CELLAR.BOOT_GENERATION 0 gen
  let s := s.keysOk.wr CELLAR.pg CELLAR.STATUS_RECOVERY 0 0
  let s := s.enterMode mCONFIG mBOOT 0
  let s := match ims.find? fun (i : Image) => i.type = imMET with
    | some i => if s.flag METRO.pg METRO.STATUS_RUNNING then s else s.metroStart i.hash32
    | none => s
  let s := s.ptpShow
  if s.pwr.stuckIrq then { s with pwr := { s.pwr with stuckIrq := false } }.irq RESET.pg 0 else s

/-- `XFLASH.CFG` takes the XFCFG of a slot, with which its images are read (R898, log entry 26). -/
def State.takeXfcfg (s : State) (v : Nat) : State :=
  let s := (s.wr XFLASH.pg XFLASH.CFG_PROTO 0 v).wr XFLASH.pg XFLASH.CFG_CLK 0 (v / 4)
  let s := (s.wr XFLASH.pg XFLASH.CFG_XIP_EN 0 (v / 16)).wr XFLASH.pg XFLASH.CFG_SIZE 0 (v / 256)
  s.wr XFLASH.pg XFLASH.STATUS_XIP_ACTIVE 0 (v / 16)

/-- What the slots tried leave, whether one passes or not: the payloads that were hashed stand at their places, and `XFLASH.CFG` holds what
the last of them was read with (R898, R899). -/
def State.bootReads (s : State) (r : BootResult) : State :=
  let s := s.place s.flashByte r.loaded
  match r.xfcfg with
  | some v => s.takeXfcfg v
  | none => s

/-- BOOT_COMPLETE: a slot passes every check. -/
def State.bootComplete (s : State) (badA badB : List (Fin 16)) : State :=
  let r := s.bootRun badA badB
  match s.booting, r.slot with
  | true, some k =>
    match readDir s.flashByte (slotBase k) 0 with
    | some d => (s.bootReads r).bootStart k d.gen r.fallback (r.images.map Loaded.image)
    | none => s
  | _, _ => s

/-- The failure of a boot is recorded and recovery begins (R902). The entry of a failure that has none is a free value. -/
def State.recovery (s : State) (fail : Option (Nat × Option Nat)) (fallback : Bool) : State :=
  let (r, s) := s.freshWord
  let s := s.setFlag CELLAR.pg CELLAR.BOOT_FALLBACK 0 fallback
  let s := match fail with
    | some (c, e) => (s.wr CELLAR.pg CELLAR.BOOT_CODE 0 c).wr CELLAR.pg CELLAR.BOOT_ENTRY 0 (e.getD r.toNat)
    | none => s
  (s.wr CELLAR.pg CELLAR.STATUS_RECOVERY 0 1).irq CELLAR.pg 1

/-- BOOT_FAIL: the OTP array could not be read, or no slot passes. -/
def State.bootFail (s : State) (otpOk : Bool) (badA badB : List (Fin 16)) : State :=
  if !s.booting then s
  else if !otpOk then s.recovery (some (0x6, none)) false
  else
    let r := s.bootRun badA badB
    if r.slot.isSome then s else (s.bootReads r).recovery r.fail r.fallback

end Sys2Proof.Machine
end

