-- ==== Sys2Proof/Machine/Sec.lean ====
section
/-!
DEFINITION. Machine/Sec.lean: the Cellar's commands, attestation, debug sessions and halts, the flash operations (18 R889 to
R894, R903 to R925).
-/
namespace Sys2Proof.Machine

/-! ### Debug sessions: halts (R909, R916 to R920) -/

/-- Scope `k` is granted: 0 SUP, 1 LOOP, 2 SEC, 3 MET. -/
def State.granted (s : State) (k : Nat) : Bool := bitOf (s.rd DEBUG.pg DEBUG.SESSION_GRANTED) k

/-- PWM unit `n` stops driving with HALT_SAFE (R393). -/
def State.haltUnit (s : State) (n : Nat) : State := (s.wr (PWM.pg n) PWM.STATUS_HALT_SAFE 0 1).stopDrive n

/-- A LOOP halt reaches engine `n`: a stop that waits for the END of its run is made at once, for the rest of the run is given up. -/
def State.leHaltOne (s : State) (n : Fin 16) : State :=
  if (s.leUnit n).halted then s
  else
    let s := if (s.leUnit n).stop then s.leStop n else s
    let s := (s.setLe n { s.leUnit n with halted := true }).putBit DEBUG.pg DEBUG.LE_HALT_ENGINE 0 n true
    (List.range 8).foldl (fun s j =>
      if s.rd (LE.pg n) LE.OPORT_CFG_KIND j = 1 then s.haltUnit (s.rd (LE.pg n) LE.OPORT_CFG_UNIT j) else s) s

/-- What every SUP or LOOP halt does besides: IRQ bit HALT, the mark for attestation, the self-report, SAFE_STOP in a forming
mode (R779, R908, R918, R919); `governed`: a lock-step mismatch that falls together with it gives the cause (R921). -/
def State.haltMade (s : State) (governed : Bool := false) : State :=
  let s := ({ s with sec := { s.sec with haltSeen := true } }).irq DEBUG.pg 2
  (if s.forming && !governed then s.safeStop 0x11 0 true else s).selfReport 0x11 0

/-- LE_HALT: the engines of a mask that are not halted yet. -/
def State.leHalts (s : State) (mask : BitVec 16) : State :=
  if (List.finRange 16).any fun (n : Fin 16) => mask.getLsbD n && !(s.leUnit n).halted then
    (s.forAll 16 fun s n => if mask.getLsbD n then s.leHaltOne n else s).haltMade
  else s

/-- The release of halted engine `n` (R920): the abandoned run is discarded, the next run is a tracking run; a trigger that was held starts
it (R250). DESIGN CHOICE (log entry 52): where a trigger is due and another is held, both give this one run and `OVERRUN` does not count
(the spec does not say). -/
def State.leResumeOne (s : State) (n : Fin 16) : State :=
  let u := s.leUnit n
  if !u.halted then s
  else
    let s := s.putBit DEBUG.pg DEBUG.LE_HALT_ENGINE 0 n false
    let st := s.leState n
    if st = leSTOPPED || st = leFAULT then s.setLe n { u with halted := false }
    else
      let s := s.setLe n { u with halted := false, run := none, rel := true, hand := u.hand.atLeastTrack
                                  due := u.due || u.held, kept := u.kept || u.held, held := false }
      let s := s.wr (LE.pg n) LE.STATUS_BUSY 0 0
      if u.swap then s.leOpen n else s

def State.leResumes (s : State) (mask : BitVec 16) : State :=
  s.forAll 16 fun s n => if mask.getLsbD n then s.leResumeOne n else s

/-- The `HALTED` bit of a pair, and whether a lock-step mismatch halted it. -/
def haltedFld : Pair → Fld
  | .A => DEBUG.HALTED_SUPA
  | .B => DEBUG.HALTED_SUPB
def State.lsHalted (s : State) : Pair → Bool
  | .A => s.sec.lsHaltA
  | .B => s.sec.lsHaltB

/-- SUP_HALT (R917): every PWM unit stops driving; a pair that is halted already stays so. -/
def State.supHalt (s : State) (p : Pair) : State :=
  if !s.granted 0 || s.flag DEBUG.pg (haltedFld p) then s
  else
    let s := (s.wr DEBUG.pg (haltedFld p) 0 1).wdShow
    ((List.range 16).foldl (fun s n => s.haltUnit n) s).haltMade s.mismatchNow

/-- CORE_HALT (R920). -/
def State.coreHalt (s : State) (c : Core) : State :=
  let (scope, f) := match c with
    | .security => (2, DEBUG.HALTED_SEC)
    | .metrology => (3, DEBUG.HALTED_MET)
  if !s.granted scope || s.flag DEBUG.pg f then s else (s.wr DEBUG.pg f 0 1).irq DEBUG.pg 2

/-- HALT_RELEASE (R920); a lock-step mismatch is not released (R26). -/
def State.haltRelease (s : State) (pairs : List Pair) (cores : List Core) : State :=
  let s := pairs.foldl (fun s p => if s.lsHalted p then s else s.wr DEBUG.pg (haltedFld p) 0 0) s
  let s := cores.foldl (fun s c => match c with
    | .security => s.wr DEBUG.pg DEBUG.HALTED_SEC 0 0
    | .metrology => s.wr DEBUG.pg DEBUG.HALTED_MET 0 0) s
  s.wdShow

/-- The end of a session (R915): its halts are released. -/
def State.endSession (s : State) (cause : Nat) : State :=
  if !s.flag DEBUG.pg DEBUG.STATUS_SESSION_OPEN then s
  else
    let s := (s.leResumes (BitVec.allOnes 16)).haltRelease [.A, .B] [.security, .metrology]
    let s := { s with sec := { s.sec with session := none } }
    let s := (s.wr DEBUG.pg DEBUG.STATUS_SESSION_OPEN 0 0).wr DEBUG.pg DEBUG.SESSION_GRANTED 0 0
    (s.wr DEBUG.pg DEBUG.LAST_END_CAUSE 0 cause).irq DEBUG.pg 0

/-- `SESSION.REMAINING_S`: seconds left, rounded up (R915). -/
def State.remaining (s : State) : Nat :=
  match s.sec.session with
  | some (t, d) => d - s.since t / 250000000
  | none => 0

/-! ### Authenticated unlock (R910 to R914) -/

/-- The initiators that may write the `DEBUG` page (R914). -/
def debugWriter : Initiator → Bool
  | .dap | .porchA | .porchB => true
  | _ => false

/-- CHAL_NEW: 32 fresh random bytes. -/
def State.chalNew (s : State) : State :=
  let n := s.free
  let s := { s with free := n + 1, sec := { s.sec with challenge := some s.cyc } }
  (List.range 8).foldl (fun s i => s.wr DEBUG.pg DEBUG.CHALLENGE_BYTES i (ofLeBytes ((List.range 4).map fun j => Config.random 2 n (4 * i + j)))) s

/-- The challenge is unused and at most 60 s old. -/
def State.challengeFresh (s : State) : Bool :=
  match s.sec.challenge with
  | some t => s.since t ≤ 15000000000
  | none => false

/-- Every scope of a mask can be granted now under an authorisation of the key selected (R910). -/
def State.scopesAllowed (s : State) (mask : Nat) (keanex : Bool) : Bool :=
  let lc := s.lifecycle
  (s.pwr.state ≠ 2 || mask ≤ 1) &&
  if lc = lcBLANK then true
  else if lc = lcPROVISIONED then !bitOf mask 2
  else mask ≤ 3 && (lc = lcSEALED || keanex)

/-- A GO fails (R913): the third failure in a row begins the lock-out. -/
def State.authFail (s : State) : State :=
  let s := (s.bump DEBUG.pg DEBUG.AUTH_FAIL_COUNT).irq DEBUG.pg 1
  let n := s.sec.failures + 1
  let s := { s with sec := { s.sec with failures := n % 3 } }
  s.setFlag DEBUG.pg DEBUG.STATUS_LOCKOUT 0 (3 ≤ n)

/-- A session opens with the scopes of `mask` (R912). -/
def State.openSession (s : State) (mask dur : Nat) : State :=
  let s := { s with sec := { s.sec with failures := 0, session := some (s.cyc, dur) } }
  let s := (s.wr DEBUG.pg DEBUG.STATUS_SESSION_OPEN 0 1).wr DEBUG.pg DEBUG.SESSION_GRANTED 0 mask
  s.wr CELLAR.pg CELLAR.STATUS_DEBUG_SEEN 0 1

/-- The message of an authorisation (R912): the challenge, the UID, the SCOPE byte (bit 7 asks for RETURN, R893), LIFECYCLE, DURATION_S. -/
def State.authMessage (s : State) : List Byte :=
  (List.range 8).flatMap (fun i => leBytes 4 (s.rd DEBUG.pg DEBUG.CHALLENGE_BYTES i)) ++ leBytes 8 s.uid ++
    leBytes 1 (s.rd DEBUG.pg DEBUG.AUTH_SCOPE + 128 * bit01 (s.flag DEBUG.pg DEBUG.AUTH_RETURN)) ++ leBytes 1 s.lifecycle ++
    leBytes 2 (s.rd DEBUG.pg DEBUG.AUTH_DURATION_S) ++ List.replicate 4 0

/-- The staged authorisation verifies (R912): the public key hashes to the selected key, either Keanex slot under KEYSEL 1; the signature is
that of the message; the challenge is fresh. -/
def State.authVerifies (s : State) : Bool :=
  let pub := (List.range 8).flatMap fun i => leBytes 4 (s.rd DEBUG.pg DEBUG.PUBKEY_BYTES i)
  let sig := (List.range 16).flatMap fun j => leBytes 4 (s.rd DEBUG.pg DEBUG.SIG_BYTES j)
  let h := hashBytes 32 pub
  s.challengeFresh && (if s.flag DEBUG.pg DEBUG.AUTH_KEYSEL then s.sec.keanex.contains h else h = s.otpBytes otpDebug 32) &&
    edVerify pub s.authMessage sig

/-- Why a GO is refused, if it is: lock-out (R913), or a GO that is open (DESIGN CHOICE, log entry 26). -/
def State.goRefused (s : State) : Option Nat :=
  if s.flag DEBUG.pg DEBUG.STATUS_LOCKOUT || s.flag DEBUG.pg DEBUG.STATUS_AUTH_BUSY then some 0x05 else none

/-- AUTH_GO (R912): the security core takes what is staged; the challenge is used. The GO is open until the next tick (log entry 26). In BLANK
it needs no signature (R913). -/
def State.authGo (s : State) : State :=
  let o : AuthOpen := { scope := s.rd DEBUG.pg DEBUG.AUTH_SCOPE, duration := s.rd DEBUG.pg DEBUG.AUTH_DURATION_S
                        keanex := s.flag DEBUG.pg DEBUG.AUTH_KEYSEL, ok := s.lifecycle = lcBLANK || s.authVerifies }
  { s with sec := { s.sec with challenge := none, auth := some o } }.wr DEBUG.pg DEBUG.STATUS_AUTH_BUSY 0 1

/-- The open GO ends, whatever its outcome. -/
def State.authClose (s : State) : State := { s with sec := { s.sec with auth := none } }.wr DEBUG.pg DEBUG.STATUS_AUTH_BUSY 0 0

/-- The open GO completes (R912, R913): the session opens, or the authorisation has failed. -/
def State.authEnd (s : State) : State :=
  match s.sec.auth with
  | none => s
  | some o =>
    let s := s.authClose
    if o.ok && o.duration ≠ 0 && s.scopesAllowed o.scope o.keanex then s.openSession o.scope o.duration else s.authFail

/-! ### The Cellar's commands (R892 to R894, R903 to R906) -/

/-- Why a write of `CELLAR.CMD` is refused, if it is (R894, R922). -/
def State.cellarRefused (s : State) (ini : Initiator) (op type : Nat) : Option Nat :=
  if !s.holds ini 0 then some 0x01
  else if !isHost ini || s.flag CELLAR.pg CELLAR.CMD_STATUS_BUSY then some 0x05
  else if op = 0 || 6 < op || (op = 4 && 3 < type) || (op = 5 && 1 < type) then some 0x03
  else none

/-- Command `op` is in progress and will complete with a RESULT and an ENTRY. -/
def State.cellarBegin (s : State) (op result entry : Nat) : State :=
  let s := (s.wr CELLAR.pg CELLAR.CMD_STATUS_BUSY 0 1).wr CELLAR.pg CELLAR.CMD_STATUS_OP 0 op
  { s with sec := { s.sec with cmd := some (op, result, entry % 16) } }

/-- A RESULT that the spec does not state, of a command that cannot be carried out (log entry 3). -/
def State.freeFailure (s : State) : Nat × State :=
  let (r, s) := s.freshWord
  (max 1 (r.toNat % 16), s)

/-- A transition's payload is burnt where it agrees with every bit blown before; else it is refused with RESULT 0x6, and only RETURN remains
open (R892). -/
def State.burnPayload (s : State) (op at_ : Nat) (payload : List Byte) : State :=
  if s.sec.conflict then s.cellarBegin op 0x6 0
  else if s.otpAgrees at_ payload then (s.otpBurnBytes at_ payload).cellarBegin op 0 0
  else { s with sec := { s.sec with conflict := true } }.cellarBegin op 0x6 0

/-- 32 random bytes for the seed of kind `k` (R893): fresh at each draw. -/
def State.freshSeed (s : State) (k : Nat) : List Byte × State :=
  ((List.range 32).map fun i => Config.random k s.free i, { s with free := s.free + 1 })

/-- PROVISION. -/
def State.provision (s : State) : State :=
  let src := s.rd CELLAR.pg CELLAR.SRC_ADDR
  if s.lifecycle ≠ lcBLANK then s.cellarBegin 1 0x1 0
  else if s.mode ≠ mCONFIG then s.cellarBegin 1 0x2 0
  else if !inSram src 96 then s.cellarBegin 1 0x8 0
  else
    match s.dmaRead src 96 with
    | (none, s) =>
      let (r, s) := s.freeFailure
      s.cellarBegin 1 r 0
    | (some b, s) =>
      let (k0, s) := s.freshSeed 0
      let (k1, s) := s.freshSeed 1
      s.burnPayload 1 otpOwner0 (b ++ k0 ++ k1)

/-- SHA-512 head of the metrology image that was loaded (R551). -/
def State.metHash (s : State) : List Byte := ((s.sec.images.find? fun i => i.type = imMET).map (·.hash32)).getD []

/-- `PANTRY.CFG` as the seal block holds it (R550). -/
def State.pantryCfgNat (s : State) : Nat :=
  s.rd PANTRY.pg PANTRY.CFG_SIZE + 4 * s.rd PANTRY.pg PANTRY.CFG_CLK + 16 * s.rd PANTRY.pg PANTRY.CFG_QUAD

/-- SEAL. -/
def State.seal (s : State) : State :=
  if s.lifecycle ≠ lcPROVISIONED then s.cellarBegin 2 0x1 0
  else if s.mode ≠ mCONFIG then s.cellarBegin 2 0x2 0
  else if !(s.flag METRO.pg METRO.STATUS_CAL_OK && s.flag METRO.pg METRO.STATUS_FW_OK && s.flag PANTRY.pg PANTRY.STATUS_READY &&
      s.metro.meter.toList.all fun x => x.sess.isNone) then s.cellarBegin 2 0x7 0
  else
    let payload := s.metro.cal ++ leBytes 2 s.pantryCfgNat ++ s.metHash
    s.burnPayload 2 otpSeal payload

/-- RETURN: it needs an authorisation under a Keanex key with SCOPE bit 7, staged on the `DEBUG` page, whose challenge it uses up; a condition
that fails changes nothing. -/
def State.returnCmd (s : State) : State :=
  let lc := s.lifecycle
  if lc ≠ lcPROVISIONED && lc ≠ lcSEALED then s.cellarBegin 3 0x1 0
  else if s.forming then s.cellarBegin 3 0x2 0
  else if s.flag DEBUG.pg DEBUG.AUTH_RETURN && s.flag DEBUG.pg DEBUG.AUTH_KEYSEL && s.authVerifies then
    { s with sec := { s.sec with challenge := none } }.cellarBegin 3 0 0
  else s.cellarBegin 3 0x3 0

/-- The image types that counter `c` serves (R904). -/
def typesOf (c : Nat) : List Nat := match c with
  | 0 => [imSEC]
  | 1 => [imSUPA, imSUPB]
  | 2 => [imMET]
  | _ => [imDATA]

/-- The lowest SVN in force among the types of counter `c`; none without such an image. -/
def State.lowestSvn (s : State) (c : Nat) : Option Nat :=
  ((s.sec.images.filter fun i => (typesOf c).contains i.type).map (·.svn)).min?

/-- ADVANCE (R905). -/
def State.advance (s : State) (c : Nat) : State :=
  if s.mode ≠ mCONFIG then s.cellarBegin 4 0x2 0
  else if s.lifecycle = lcSEALED && c = 2 then s.cellarBegin 4 0x1 0
  else
    let n := min 64 ((s.lowestSvn c).getD 0)
    (s.otpBurnBits (otpCounters + 64 * c) 64 (2 ^ n - 1)).cellarBegin 4 0 0

/-- The RESULT of a set's checks, and its ENTRY: free where the failure has none. -/
def State.begunWith (s : State) (op : Nat) (r : SetResult) : State :=
  match r.fail with
  | none => s.cellarBegin op 0 0
  | some (c, some e) => s.cellarBegin op c e
  | some (c, none) =>
    let (r, s) := s.freshWord
    s.cellarBegin op c r.toNat

/-- CHECK (R906) of a slot: 0 A, 1 B. -/
def State.checkSlot (s : State) (k : Nat) (bad : List (Fin 16)) : State :=
  if s.mode ≠ mCONFIG && s.mode ≠ mREADY then s.cellarBegin 5 0x2 0 else s.begunWith 5 (s.slotCheck k bad)

/-- RAM_BOOT (R903): the set at `SRC` is checked and placed; the cores start when the command completes. -/
def State.ramBoot (s : State) : State :=
  let src := s.rd CELLAR.pg CELLAR.SRC_ADDR
  if !(s.mode = mBOOT && s.flag CELLAR.pg CELLAR.STATUS_RECOVERY) then s.cellarBegin 6 0x2 0
  else
    match s.ramDir src with
    | (.error c, s) => s.begunWith 6 { fail := some (c, none) }
    | (.ok d, s) =>
      let (r, s) := State.ramCheck (s.bootOrder d) [] s
      let s := if r.fail.isNone then { s with sec := { s.sec with ramGen := d.gen, images := r.images.map Loaded.image } } else s
      s.begunWith 6 r

/-- The identity public key (R907). -/
def State.identityPub (s : State) : List Byte := edPublic s.identitySeed

/-- What a command that is done changes at its completion (R893, R903, R905). -/
def State.cellarEffect (s : State) (op : Nat) : State :=
  match op with
  | 1 =>
    let s := s.otpBurnBits 0 4 15
    let s := (List.range 8).foldl (fun s i => s.wr CELLAR.pg CELLAR.ID_PUB_BYTES i (ofLeBytes ((s.identityPub.drop (4 * i)).take 4))) s
    let s := (List.range 8).foldl (fun s i => s.wr METRO.pg METRO.PUBKEY_BYTES i (ofLeBytes ((s.metroPub.drop (4 * i)).take 4))) s
    let s := if s.flag METRO.pg METRO.STATUS_RUNNING then (s.wr METRO.pg METRO.STATUS_KEY_OK 0 1).wr METRO.pg METRO.STATUS_TEST 0 1 else s
    s.endSession 4
  | 2 =>
    let s := (s.otpBurnBits 4 4 15).metroSeal
    let s := (List.range 8).foldl (fun s i => s.wr METRO.pg METRO.FWHASH_BYTES i (ofLeBytes ((s.sealedHash.drop (4 * i)).take 4))) s
    s.endSession 4
  | 3 =>
    let s := (s.otpBurnBytes otpMetro (List.replicate 32 0xFF)).otpBurnBits 8 4 15
    s.metroReturn.endSession 4
  | 6 => s.bootStart 2 s.sec.ramGen false s.sec.images
  | _ => s

/-- CELLAR_CMD_DONE (R892 to R894); `burnOk`: every OTP bit read back as burnt. -/
def State.cellarDone (s : State) (burnOk : Bool) : State :=
  match s.sec.cmd with
  | none => s
  | some (op, result, entry) =>
    let s := { s with sec := { s.sec with cmd := none } }
    let result := if result = 0 && !burnOk && op ≤ 4 then 0x6 else result
    let s := (if result = 0 then s.cellarEffect op else s).cellarShow
    let s := (s.wr CELLAR.pg CELLAR.CMD_STATUS_BUSY 0 0).wr CELLAR.pg CELLAR.CMD_STATUS_RESULT 0 result
    (s.wr CELLAR.pg CELLAR.CMD_STATUS_ENTRY 0 entry).irq CELLAR.pg 0

/-! ### Attestation (R908) -/

/-- An accepted `ATTEST.CMD.GO`. -/
def State.attestGo (s : State) : State :=
  let code := bit01 (s.flag DEBUG.pg DEBUG.HALTED_SEC)
  let s := s.wr ATTEST.pg ATTEST.RESULT_BUSY 0 1
  { s with sec := { s.sec with attest := some code } }

/-- The SVN of an image of one of the types, the lowest; 0 without one. -/
def State.svnOf (s : State) (ts : List Nat) : Nat := (((s.sec.images.filter fun i => ts.contains i.type).map (·.svn)).min?).getD 0

/-- The first 16 bytes of the PAYLOAD_HASH of the first image of a type; zeros when absent. -/
def State.hash16Of (s : State) (t : Nat) : List Byte :=
  ((s.sec.images.find? fun i => i.type = t).map (·.hash16)).getD (List.replicate 16 0)

/-- Bytes 0x00 to 0xBF of the report. -/
def State.reportBody (s : State) : List Byte :=
  let flags := bit01 (s.flag CELLAR.pg CELLAR.STATUS_DEBUG_SEEN) + 2 * bit01 s.sec.haltSeen + 4 * bit01 (s.flag METRO.pg METRO.STATUS_FW_OK)
  let nonce := (List.range 8).flatMap fun i => leBytes 4 (s.rd ATTEST.pg ATTEST.NONCE_BYTES i)
  let pub := if s.lifecycle = lcRETURNED then List.replicate 32 0 else s.metroPub
  let dataSvn := ((s.sec.images.find? fun i => i.type = imDATA).map (·.svn)).getD 0
  leBytes 1 1 ++ leBytes 1 s.lifecycle ++ leBytes 1 (s.rd CELLAR.pg CELLAR.BOOT_SLOT) ++ leBytes 1 flags ++ leBytes 4 0 ++
    leBytes 8 s.uid ++ nonce ++ pub ++
    ([imSEC, imSUPA, imSUPB, imMET, imDATA].flatMap fun t => s.hash16Of t) ++
    ([0, 1, 2, 3].flatMap fun c => leBytes 1 (s.rollback c)) ++
    leBytes 1 (s.svnOf [imSEC]) ++ leBytes 1 (s.svnOf [imSUPA, imSUPB]) ++ leBytes 1 (s.svnOf [imMET]) ++ leBytes 1 dataSvn ++
    leBytes 8 s.cyc.toNat ++ List.replicate 16 0

/-- ATTEST_DONE: the report, signed with the identity key. -/
def State.attestDone (s : State) : State :=
  match s.sec.attest with
  | none => s
  | some code =>
    let s := { s with sec := { s.sec with attest := none } }
    let s := if code = 0 then
        let body := s.reportBody
        let report := body ++ edSign s.identitySeed body
        (List.range 64).foldl (fun s w => s.wr ATTEST.pg ATTEST.REPORT_BYTES w (ofLeBytes ((report.drop (4 * w)).take 4))) s
      else s
    ((s.wr ATTEST.pg ATTEST.RESULT_BUSY 0 0).wr ATTEST.pg ATTEST.RESULT_CODE 0 code).irq ATTEST.pg 0

/-! ### Flash operations (R925) -/

/-- Why a write of `XFLASH.OP` with GO is refused, if it is. -/
def State.flashRefused (s : State) (code : Nat) : Option Nat :=
  if s.flag XFLASH.pg XFLASH.OP_STATUS_BUSY then some 0x05 else if code = 0 || 5 < code then some 0x03 else none

/-- The flash bytes that an operation touches: first and number. -/
def flashRange (code off len : Nat) : Nat × Nat :=
  match code with
  | 2 => (off / 4096 * 4096, 4096)
  | 3 => (off / 65536 * 65536, 65536)
  | 1 => (0, 0)
  | _ => (off, len)

/-- The RESULT that an operation completes with if the flash does its part. -/
def State.flashResult (s : State) (code off sram len : Nat) : Nat :=
  let (a, n) := flashRange code off len
  let slot := s.rd CELLAR.pg CELLAR.BOOT_SLOT
  if 4 ≤ code && (len = 0 || 4096 < len || !inSram sram len) then 0x3
  else if code ≠ 1 && 2 ^ (20 + s.rd XFLASH.pg XFLASH.CFG_SIZE) < a + n then 0x3
  else if 2 ≤ code && code ≤ 4 && s.flag CELLAR.pg CELLAR.BOOT_OK && slot ≤ 1 && overlap a n (slotBase slot) 0x800000 then 0x1
  else 0

/-- A flash operation starts; `id` are the bytes that READ_ID brings. -/
def State.flashStart (s : State) (code id : Nat) : State :=
  let off := s.rd XFLASH.pg XFLASH.ADDR_OFFSET
  let sram := s.rd XFLASH.pg XFLASH.SRAM_ADDR
  let len := s.rd XFLASH.pg XFLASH.LEN_BYTES
  let op : FlashOp := { code := code, result := s.flashResult code off sram len, off := off, sram := sram, len := len }
  let s := (s.wr XFLASH.pg XFLASH.OP_STATUS_BUSY 0 1).wr XFLASH.pg XFLASH.STATUS_READY 0 0
  { s with sec := { s.sec with flashOp := some op, flashId := id } }

/-- Bytes of flash that a failed erase or program leaves as it may: free values. -/
def State.flashScramble (s : State) (a : Nat) : Nat → State
  | 0 => s
  | k + 1 =>
    let (r, s) := s.freshWord
    (s.putFlash (a + k) (r.truncate 8)).flashScramble a k

/-- What the operation did: its RESULT and the state. A program clears bits; an erase sets them. -/
def State.flashDo (s : State) (op : FlashOp) (ok : Bool) : Nat × State :=
  let (a, n) := flashRange op.code op.off op.len
  if op.result ≠ 0 then (op.result, s)
  else
    match op.code, ok with
    | 1, true => (0, s.wr XFLASH.pg XFLASH.FLASH_ID_ID 0 s.sec.flashId)
    | 2, true | 3, true => (0, { s with sec := { s.sec with flash := s.sec.flash.clearRange a (a + n) } })
    | 4, true =>
      match s.dmaRead op.sram op.len with
      | (none, s) =>
        let (r, s) := s.freeFailure
        (r, s)
      | (some bs, s) =>
        (0, ((List.range op.len).zip bs).foldl (fun s x => s.putFlash (a + x.1) (s.flashByte (a + x.1) &&& x.2)) s)
    | 5, true =>
      let (ok, s) := s.dmaWrite op.sram (readBytes s.flashByte a n)
      if ok then (0, s)
      else
        let (r, s) := s.freeFailure
        (r, s)
    | 1, false | 5, false => (0x2, s)
    | _, _ => (0x2, s.flashScramble a n)

/-- XFLASH_OP_DONE. -/
def State.flashDone (s : State) (ok : Bool) : State :=
  match s.sec.flashOp with
  | none => s
  | some op =>
    let s := { s with sec := { s.sec with flashOp := none } }
    let (r, s) := s.flashDo op ok
    let s := (s.wr XFLASH.pg XFLASH.OP_STATUS_BUSY 0 0).wr XFLASH.pg XFLASH.STATUS_READY 0 1
    (s.wr XFLASH.pg XFLASH.OP_STATUS_RESULT 0 r).irq XFLASH.pg (if r = 0 then 0 else 1)

/-- Why a write of `XFLASH.CFG` is refused, if it is (R925). -/
def State.flashCfgRefused (s : State) (v : Nat) : Option Nat :=
  if s.mode ≠ mBOOT && s.mode ≠ mCONFIG then some 0x05
  else if v % 4 = 3 || v / 4 % 4 = 3 || 8 < v / 256 % 16 then some 0x03
  else none

/-! ### Boundary scan (R911) -/

/-- The operations that boundary scan offers. -/
inductive ScanOp where
  | bypass | idcode | extest | sample
  deriving DecidableEq, Repr

/-- A scan operation is available: BYPASS and IDCODE in every state, EXTEST and SAMPLE in BLANK and RETURNED alone, and only in BOOT and
CONFIG (R911). -/
def State.scanAvailable (s : State) : ScanOp → Bool
  | .bypass | .idcode => true
  | .extest | .sample => (s.lifecycle = lcBLANK || s.lifecycle = lcRETURNED) && (s.mode = mBOOT || s.mode = mCONFIG)

/-- IDCODE: the low nibble of SILICON, 0x0F08, 0x2A5 and 1. -/
def State.idcode (s : State) : Word :=
  BitVec.ofNat 32 (s.rd SYS.pg SYS.DEVICE_ID_SILICON % 16 * 2 ^ 28 + 0x0F08 * 2 ^ 12 + 0x2A5 * 2 + 1)

end Sys2Proof.Machine
end

