-- ==== Sys2Proof/Machine/Reset.lean ====
section
/-!
DEFINITION. Machine/Reset.lean: resets and power states (17 R870 to R883, R933).
-/
namespace Sys2Proof.Machine

/-! ### Resets -/

/-- The AON fields of R871, which only a power-on reset resets. -/
def aonFields : List (Nat × Fld) :=
  [(RESET.pg, RESET.CAUSE_CAUSE), (RESET.pg, RESET.CAUSE_PREV), (RESET.pg, RESET.RSTREQ_STUCK_STUCK),
   (RESET.pg, RESET.RSTREQ_STUCK_COUNT), (RESET.pg, RESET.RESET_COUNT_COUNT), (POWER.pg, POWER.WAKECFG_PORCHA),
   (POWER.pg, POWER.WAKECFG_PORCHB), (POWER.pg, POWER.WAKECFG_TRIG0), (POWER.pg, POWER.WAKE_SRC)]

/-- The fields that follow the filter of RSTREQ_N, which runs on through a reset (R873). -/
def rstreqFields : List (Nat × Fld) := [(RESET.pg, RESET.STATUS_RSTREQ_IGNORED), (RESET.pg, RESET.STATUS_RSTREQ_LOW)]

/-- Fields of `old` put into `s`. -/
def State.keepFields (s old : State) (fs : List (Nat × Fld)) : State := fs.foldl (fun s f => s.wr f.1 f.2 0 (old.rd f.1 f.2)) s

/-- What no reset touches: the commands that wait, the OTP array, the Boot ROM, the flash and the Pantry outside, the encoder pins, a
root that is absent (R869, R876), the count of free values. -/
def State.blank (s : State) : State :=
  { pending := s.pending, free := s.free, pantry := s.pantry, encAB := s.encAB, sec := { otp := s.sec.otp, flash := s.sec.flash, keanex := s.sec.keanex, conflict := s.sec.conflict }
    clk := { rootAbsent := s.clk.rootAbsent && !s.clk.clnBandSearch } }

/-- What a wake keeps besides: the metrology partition, with its two pages and what is staged and committed there (R536, R871, R883). Its
channels had no clock meanwhile (R540). -/
def State.wakeBlank (s : State) : State :=
  let chan := s.metro.chan.map fun x => { res := x.res, prev := x.prev, old := x.old, noClk := true }
  let mine := fun (k : Nat) => keyOnPage METRO.pg k || keyOnPage PANTRY.pg k
  { s.blank with
    metro := { s.metro with chan := chan }, regs := s.regs.filter fun e => mine e.1
    staged := s.staged.filter fun e => mine e.1, committed := s.committed.filter fun e => mine e.1 }

/-- A reset with a cause of R870: every page resets, CYC is 0, the state is P0 (R871). The metrology partition is kept through a
wake. -/
def State.resetTo (s : State) (cause : Nat) : State :=
  let b := if cause = 6 then s.wakeBlank else s.blank
  if cause = 1 then b
  else
    let b := { b with pwr := { held := true, rstreq := s.pwr.rstreq, ignoring := s.pwr.ignoring, stuckIrq := s.pwr.stuckIrq } }
    let b := b.keepFields s (aonFields ++ rstreqFields)
    let b := (b.wr RESET.pg RESET.CAUSE_PREV 0 (s.rd RESET.pg RESET.CAUSE_CAUSE)).wr RESET.pg RESET.CAUSE_CAUSE 0 cause
    b.wrapBump RESET.pg RESET.RESET_COUNT_COUNT

/-- POWER_ON_RESET (R870, R933). -/
def State.powerOnReset (s : State) : State := s.resetTo 1

/-- RESET_N_ASSERT: no new cause while it or a power-on reset holds the device. -/
def State.resetNAssert (s : State) : State :=
  if s.pwr.held && s.rd RESET.pg RESET.CAUSE_CAUSE ≤ 2 then s else s.resetTo 2

/-- RSTREQ_RESET: no new cause while another condition holds the device (R883); nothing in P4. -/
def State.rstreqReset (s : State) : State :=
  if s.pwr.ignoring || s.pwr.rstreq || s.pwr.state = 4 then s
  else
    let s := if s.pwr.held then s else s.resetTo 3
    { s with pwr := { s.pwr with rstreq := true } }.wr RESET.pg RESET.STATUS_RSTREQ_LOW 0 1

/-- RSTREQ_RELEASE: the condition has ended. -/
def State.rstreqRelease (s : State) : State :=
  if s.pwr.rstreq then { s with pwr := { s.pwr with rstreq := false } }.wr RESET.pg RESET.STATUS_RSTREQ_LOW 0 0 else s

/-- RSTREQ_STUCK. -/
def State.rstreqStuck (s : State) : State :=
  if s.pwr.rstreq then
    let s := { s with pwr := { s.pwr with rstreq := false, ignoring := true, stuckIrq := true } }
    let s := (s.wr RESET.pg RESET.RSTREQ_STUCK_STUCK 0 1).bump RESET.pg RESET.RSTREQ_STUCK_COUNT
    s.wr RESET.pg RESET.STATUS_RSTREQ_IGNORED 0 1
  else s

/-- RSTREQ_UNIGNORE: not in P4, where nothing runs (R882). -/
def State.rstreqUnignore (s : State) : State :=
  if s.pwr.ignoring && s.pwr.state ≠ 4 then
    let s := { s with pwr := { s.pwr with ignoring := false } }
    (s.wr RESET.pg RESET.STATUS_RSTREQ_IGNORED 0 0).wr RESET.pg RESET.STATUS_RSTREQ_LOW 0 0
  else s

/-- ROOT_LOSS_RESET (R869). -/
def State.rootLossReset (s : State) : State := if s.live && s.clk.rootAbsent then s.resetTo 5 else s

/-- Why a write of 0xD1 to `RESET.SWRST` is refused, if it is (R874). -/
def State.swrstRefused (s : State) (ini : Initiator) : Option Nat :=
  if !s.holds ini 0 then some 0x01
  else if !isHost ini || !(s.mode = mBOOT || s.mode = mCONFIG || s.mode = mREADY || s.mode = mSAFE) then some 0x05
  else none

/-- The mode of a host port as strapped (R63, R86). -/
def State.strapPort (s : State) (p : HostPort) (qspi : Bool) : State :=
  (s.setFlag (portPg p) PORCH.LINK_MODE 0 qspi).setFlag (portPg p) PORCH.LINK_UP 0 qspi

/-- RESET_RELEASE (R875, R899 step 1, R902): no condition holds the device any more, and the root is present (R876). The PLLs lock by band search; the band is a
free value (R861). -/
def State.resetRelease (s : State) (st : Straps) : State :=
  if !s.pwr.held || s.pwr.rstreq || s.clk.rootAbsent then s
  else
    let (r, s) := s.freshWord
    let s := { s with pwr := { s.pwr with held := false } }
    let s := (s.wr SYS.pg SYS.STRAPS_BOOT_S 0 st.bootS.toNat).setFlag SYS.pg SYS.STRAPS_PORCH_A 0 st.porchA
    let s := (s.setFlag SYS.pg SYS.STRAPS_PORCH_B 0 st.porchB).wr SYS.pg SYS.STRAPS_DEVID 0 st.devid.toNat
    let s := s.wr REDUN.pg REDUN.ROLE_MEMBER 0 st.devid.toNat
    let s := (s.wr SYS.pg SYS.DEVICE_ID_SILICON 0 Config.silicon.toNat).strapPort .A st.porchA |>.strapPort .B st.porchB
    let s := (s.wr CLOCK.pg CLOCK.STATUS_SYS_LOCK 0 1).wr CLOCK.pg CLOCK.STATUS_CLN_LOCK 0 1
    let s := (s.wr CLOCK.pg CLOCK.STATUS_ROOT_OK 0 1).storeBand 1 (r.truncate 8)
    let s := (s.wr XFLASH.pg XFLASH.STATUS_READY 0 1).cellarShow
    (s.wr IRQ.pg IRQ.ROUTE_TARGETS 160 3).putBit CELLAR.pg HDR.IRQ_ENABLE_BITS 0 1 true

/-! ### Power states (R877 to R883) -/

/-- The REFUSE reason of a command to `target` (R878). With a SAFE_STOP cause that acts at the mode tick of the command it is checked against
SAFE_STOP (R883). -/
def State.powerRefuse (s : State) (target : Nat) : Option Nat :=
  let set := s.rd REDUN.pg REDUN.STATUS_STATE
  if target ≠ 0 && s.forming && s.dueCauses = [] then some 1
  else if target = 4 && !s.flag PANTRY.pg PANTRY.STATUS_FLUSHED then some 2
  else if set = 1 || set = 2 then some 3
  else if s.flag POWER.pg POWER.STATUS_BUSY then some 4
  else none

/-- An accepted command (R878, R879): a debug session ends (R915), and an open GO is refused without a count (R921). The entry to P3 waits for a KEEP snapshot of a partition that has restored its registers (R579): before
that nothing has been accumulated (R585) and no snapshot can be made (DESIGN CHOICE, log entry 39). -/
def State.powerAccept (s : State) (target : Nat) : State :=
  let s := (s.endSession 3).authClose
  if target = s.pwr.state then s
  else
    let away := s.pwr.state = 0 && target ≠ 0
    let s := { s with pwr := { s.pwr with target := some target, stopDue := away } }
    let s := s.wr POWER.pg POWER.STATUS_BUSY 0 1
    if target = 3 && s.flag METRO.pg METRO.STATUS_RESTORED then { s.snapWant 3 with pwr := { s.pwr with keepDue := true } } else s

/-- A write of `POWER.CMD` by a holder of KEY0 (R877, R878). -/
def State.powerCmd (s : State) (ini : Initiator) (target : Nat) : State :=
  if !isHost ini then s.cfgErr POWER.pg 0x05 0x044 ini
  else if 4 < target then (s.cfgErr POWER.pg 0x03 0x044 ini).irq POWER.pg 1
  else
    match s.powerRefuse target with
    | some k => ((s.cfgErr POWER.pg 0x05 0x044 ini).wr POWER.pg POWER.STATE_REFUSE 0 k).irq POWER.pg 1
    | none => s.powerAccept target

/-- A run of some engine has not ended (R879: every engine finishes its run). -/
def State.someRun (s : State) : Bool := s.le.toList.any fun u => u.run.isSome && !u.halted

/-- A wake event of source 0 Porch A, 1 Porch B, 2 TRIG0 is enabled (R881). -/
def State.wakeEnabled (s : State) (src : Fin 3) : Bool :=
  s.flag POWER.pg (match src with
    | 0 => POWER.WAKECFG_PORCHA
    | 1 => POWER.WAKECFG_PORCHB
    | 2 => POWER.WAKECFG_TRIG0)

/-- The release from P3 by a wake event (R881). -/
def State.wakeNow (s : State) (src : Fin 3) : State :=
  let s := (s.resetTo 6).trustShow
  s.wr POWER.pg POWER.WAKE_SRC 0 (src.val + 1)

/-- WAKE: in P3; during the entry to P3 it follows the entry (R883). -/
def State.wake (s : State) (src : Fin 3) : State :=
  if s.pwr.held || !s.wakeEnabled src then s
  else if s.pwr.state = 3 then s.wakeNow src
  else if s.pwr.target = some 3 && s.pwr.wakeDue.isNone then { s with pwr := { s.pwr with wakeDue := some src } }
  else s

/-- What the clocks of LE, PWM, ADC and DSCK do at the entry to and the exit from P2 (R879). -/
def State.clocksStop (s : State) : State :=
  ((((s.forAll 6 fun s u => s.sarAbandon u).sysDown).carriers).pilotShow).dsfIdle
def State.clocksStart (s : State) : State :=
  (s.sysUp.carriers).forAll 6 fun s u => s.sarContinuous u

/-- POWER_TRANSITION_DONE (R879): once the P1 actions are done and, for P3, the snapshot is verified. -/
def State.powerDone (s : State) : State :=
  match s.pwr.target with
  | none => s
  | some t =>
    if s.pwr.keepDue then s
    else
      let s := if s.pwr.stopDue then s.powerStop else s
      if s.someRun then s
      else
        let old := s.pwr.state
        let s := { s with pwr := { s.pwr with target := none, state := t, away := t ≠ 0 } }
        let s := (s.wr POWER.pg POWER.STATE_STATE 0 t).wr POWER.pg POWER.STATE_PREV 0 old
        let s := (s.wr POWER.pg POWER.STATUS_BUSY 0 0).irq POWER.pg 0
        let s := if 2 ≤ t then s.atticStop else s
        let s := if 3 ≤ t then (s.metroSleep).ethCheck else s
        let s := if old = 2 && t < 2 then s.clocksStart else if t = 2 then s.clocksStop else s
        match t, s.pwr.wakeDue with
        | 3, some src => s.wakeNow src
        | _, _ => s

end Sys2Proof.Machine
end

