-- ==== Sys2Proof/Machine/Commit.lean ====
section
/-!
DEFINITION. Machine/Commit.lean: a write of 1 to SHADOW_COMMIT (02 R105 to R107): the range and consistency checks of every
page, and where each page's boundary lies.
-/
namespace Sys2Proof.Machine

/-- Value `v` of `w` bits lies in a range. -/
def Rng.ok (r : Rng) (w v : Nat) : Bool :=
  match r with
  | .any => true
  | .nat lo hi => lo ≤ v && v ≤ hi
  | .int lo hi => lo ≤ signedOf w v && signedOf w v ≤ hi
  | .pow2 lo hi => lo ≤ v && v ≤ hi && (List.range 32).any fun k => v = 2 ^ k
  | .finite => finBits v
  | .positive => finBits v && 0 < ratOf v
  | .nonneg => finBits v && 0 ≤ ratOf v
  | .flt lo hi => finBits v && ratOf lo ≤ ratOf v && ratOf v ≤ ratOf hi

/-- A staged field of page `pg` lies outside its range (R105, R10). -/
def State.stagedBad (s : State) (p : PageInfo) (pg : Nat) : Bool :=
  p.fields.any fun f => f.acc = .rws && (List.range f.cnt).any fun i =>
    s.isStaged pg f i && !f.rng.ok f.width (s.merged pg f i)

/-- The ranges that a block's chapter states for more than one field. -/
def State.pageRangeBad (s : State) (p : PageInfo) (inst : Nat) : Bool :=
  match p.block with
  | 0x0010 => s.leRangeBad inst
  | 0x0020 => s.pwmRangeBad inst
  | 0x0030 => s.sarRangeBad inst
  | 0x0090 => s.atticRangeBad
  | _ => false

/-- The interlocked fields of page `pg` would be inconsistent (0x04). -/
def State.pageInconsistent (s : State) (p : PageInfo) (inst : Nat) : Bool :=
  match p.block with
  | 0x0003 => s.clockInconsistent
  | 0x0010 => s.leInconsistent inst
  | 0x0012 => s.formInconsistent inst
  | 0x0020 => s.pwmInconsistent inst
  | 0x0030 => s.sarInconsistent inst
  | 0x0031 => s.dsfInconsistent inst
  | 0x0040 => s.portInconsistent inst
  | 0x0041 => s.pilotInconsistent
  | 0x0060 => s.safeInconsistent
  | 0x0061 => s.netInconsistent
  | 0x0070 => s.gdrvInconsistent inst
  | 0x0071 => s.chimneyInconsistent
  | 0x0080 => s.axisInconsistent inst
  | 0x0090 => s.atticInconsistent
  | 0x00A0 => s.redunInconsistent
  | 0x00B0 => s.ethInconsistent
  | 0x00B1 => s.ptpInconsistent
  | _ => false

/-- Why a commit is refused, if it is (R105, R107; R357, R550 and R863 for three pages). -/
def State.commitRefused (s : State) (p : PageInfo) (pg inst : Nat) : Option Nat :=
  if s.commitPending pg then some 0x05
  else if p.block = 0x0003 && s.profileBusy then some 0x05
  else if p.block = 0x0051 && s.pantryCfgLocked then some 0x05
  else if p.block = 0x0010 && s.loadClash inst then some 0x05
  else if s.stagedBad p pg || s.pageRangeBad p inst then some 0x03
  else if s.pageInconsistent p inst then some 0x04
  else none

/-- A set of page `pg` was accepted: where the block's boundary is now, it takes effect; `old` is the state before (R106). -/
def State.commitNow (s old : State) (p : PageInfo) (pg inst : Nat) : State :=
  match p.block with
  | 0x0003 => (s.boundary pg).clockCommit (old.rd CLOCK.pg CLOCK.SYSCFG_PROFILE)
  | 0x0010 => s.leCommit (Fin.ofNat 16 inst)
  | 0x0012 => s.formCommit (Fin.ofNat 2 inst)
  | 0x0020 => s.pwmIdleCommit (Fin.ofNat 16 inst)
  | 0x0030 => (s.sarCommit (Fin.ofNat 6 inst)).pilotShow
  | 0x0031 => s.dsfCommit (Fin.ofNat 6 inst)
  | 0x0060 => s.safeAccepted
  | 0x0070 => if s.gdrvWaits inst then s else ((s.applySet pg).gdrvCommit (Fin.ofNat 12 inst)).commitDone pg
  | 0x0071 => if s.flag SYS.pg SYS.STATUS_DIE_LINK_OK then (s.boundary pg).chimneyCommit else s
  | 0x0081 => s.boundary pg
  | 0x0090 => (s.boundary pg).atticCommit fun t => old.trgStaged t
  | 0x00A1 => (s.boundary pg).twitosCommit (Fin.ofNat 4 inst)
  | 0x00A2 => (s.boundary pg).hclkShow
  | 0x00B0 => (s.boundary pg).ethCheck
  | 0x00B1 => (s.boundary pg).ptpCommit fun n => old.schedStaged n
  | _ => s

/-- An accepted commit (R106). -/
def State.commitAccept (s : State) (p : PageInfo) (pg inst : Nat) : State :=
  ((s.acceptSet pg).wr pg commitPendingFld 0 1).commitNow s p pg inst

/-- A write of 1 to SHADOW_COMMIT that passed R103; on a page without staged fields there is nothing to commit. -/
def State.shadowCommit (s : State) (ini : Initiator) (p : PageInfo) (pg inst : Nat) : State :=
  if !p.staged then s
  else
    match s.commitRefused p pg inst with
    | some code => s.cfgErr pg code 0x020 ini
    | none => s.commitAccept p pg inst

end Sys2Proof.Machine
end

