-- ==== Sys2Proof/Machine/Bus.lean ====
section
/-!
DEFINITION. Machine/Bus.lean: the bus map (02 R115, R116), which initiator reaches what (R28, R81, R902, R909), reads of the
register window with their side effects (00 R1, R2), and the read side of every other region.
-/
namespace Sys2Proof.Machine

/-- What the bus answers to an access: the word of a read, a write done, a bus error, or no answer while the clock of the
page's domain is stopped (R81, R83). -/
inductive BusRes where
  | data (w : Word)
  | done
  | error
  | stall
  deriving DecidableEq, Repr

/-- What a host reads in place of data (R80, R81, R749). -/
abbrev badWord : Word := 0xBAD00BAD#32

/-! ### The map (R115) -/

abbrev regBase : Nat := 0x40000000

/-- The regions of the bus map. -/
inductive Region where
  | rom | sram | lps | dmem | attic | window | flash
  deriving DecidableEq, Repr

/-- The region of a bus address. -/
def regionOf (a : Nat) : Option Region :=
  if a < 0x20000 then some .rom
  else if 0x01000000 ≤ a && a < 0x01010000 then some .rom
  else if sramBase ≤ a && a < sramBase + sramSize then some .sram
  else if 0x20000000 ≤ a && a < 0x20008000 then some .lps
  else if 0x21000000 ≤ a && a < 0x21008000 then some .dmem
  else if 0x30000000 ≤ a && a < 0x30200000 then some .attic
  else if regBase ≤ a && a < 0x41000000 then some .window
  else if 0x60000000 ≤ a && a < 0x70000000 then some .flash
  else none

/-- Page number and register offset of a bus address of the register window. Its base, like that of every region below, is a multiple
of its size. -/
def pageNo (a : Nat) : Nat := a / 4096 % 4096
def pageOff (a : Nat) : Nat := a % 4096

/-! ### Who reaches what -/

/-- An initiator from outside the device. -/
def outside (ini : Initiator) : Bool := isHost ini || ini = .dap

/-- What hosts reach in BOOT (R902). -/
def bootReach (a : Nat) : Bool :=
  match regionOf a with
  | some .sram => a < secureBase
  | some .window => [SYS.pg, RESET.pg, KEYRACK.pg, PORCH.pg 0, PORCH.pg 1, IRQ.pg, CELLAR.pg, XFLASH.pg].contains (pageNo a)
  | _ => false

/-- What the debug access port reaches under the scopes granted (R909, R914): its own page always; with SUP what hosts reach;
with LOOP reads of the engines; with SEC the region of R28. -/
def State.dapReach (s : State) (a : Nat) (write : Bool) : Bool :=
  (regionOf a = some .window && pageNo a = DEBUG.pg) ||
  (s.granted 0 && (s.mode ≠ mBOOT || bootReach a) && !(regionOf a = some .sram && secureBase ≤ a)) ||
  (s.granted 1 && !write && (regionOf a = some .dmem || (regionOf a = some .window && LE.pg 0 ≤ pageNo a && pageNo a < LE.pg 16))) ||
  (s.granted 2 && regionOf a = some .sram && secureBase ≤ a)

/-- What the debug access port reads beside the bus under the scopes granted (R909): with LOOP the registers and predicates of an engine, with
MET the partition SRAM. -/
def State.dapLoopReg (s : State) (n : Fin 16) (r : Fin 64) : Option Word := if s.granted 1 then some (s.leUnit n).g[r] else none
def State.dapLoopPred (s : State) (n : Fin 16) (k : Fin 8) : Option Bool :=
  if s.granted 1 then (s.leUnit n).run.map fun run => s.lePred n run k else none
def State.dapMetroByte (s : State) (a : Nat) : Option Byte := if s.granted 3 && a < 0x40000 then some (s.metro.sram.get a) else none

/-- The initiator reaches the address (R28, R30, R81, R115): the metrology core is none of those that write Main SRAM. -/
def State.mayReach (s : State) (ini : Initiator) (a : Nat) (write : Bool) : Bool :=
  match regionOf a with
  | none => false
  | some .rom => !outside ini && !write
  | some .flash => !outside ini && !write && s.flag XFLASH.pg XFLASH.CFG_XIP_EN
  | some .sram =>
    if ini = .dap then s.dapReach a write
    else if write && ini = .met then false
    else if secureBase ≤ a then ini = .sec || (s.mode = mBOOT && !isHost ini)
    else true
  | some .lps | some .attic => !write && (ini ≠ .dap || s.dapReach a write) && (s.mode ≠ mBOOT || !isHost ini)
  | some .dmem => (ini ≠ .dap || s.dapReach a write) && (s.mode ≠ mBOOT || !isHost ini)
  | some .window =>
    (pageOf (pageNo a)).isSome && (ini ≠ .dap || s.dapReach a write) && (s.mode ≠ mBOOT || !isHost ini || bootReach a)

/-! ### Registers by offset -/

/-- The instance of field `f` whose register stands at offset `off`. -/
def Fld.indexAt (f : Fld) (off : Nat) : Option Nat :=
  if f.cnt = 1 then if off = f.off then some 0 else none
  else if f.off ≤ off && (off - f.off) % f.stride = 0 && (off - f.off) / f.stride < f.cnt then some ((off - f.off) / f.stride)
  else none

/-- The fields of the register at offset `off` of a page of instance number `inst`: the `DSCKk` registers of DSF1 to DSF5 are
reserved (R447). -/
def regFields (p : PageInfo) (inst off : Nat) : List (Fld × Nat) :=
  if p.block = DSF.info.block && inst ≠ 0 && (DSF.DSCK_DIV.indexAt off).isSome then []
  else (HDR.fields ++ p.fields).filterMap fun f => (f.indexAt off).map fun i => (f, i)

/-- The page lists a register at the offset (R7): the header of R100, or a block register. -/
def regListed (p : PageInfo) (inst off : Nat) : Bool := off < 0x030 || !(regFields p inst off).isEmpty

/-- The registers that answer while the domain clock is stopped (R84). -/
def answersStopped (off : Nat) : Bool := off = 0x000 || off = 0x004 || off = 0x024 || off = 0x028 || off = 0x02C

/-! ### Guards (R96, R97) -/

/-- The key that a `BIND` entry in force names for page `pg`. -/
def State.boundKey (s : State) (pg : Nat) : Option Nat :=
  (List.range 16).findSome? fun m =>
    if s.flag KEYRACK.pg KEYRACK.BIND_EN m && s.rd KEYRACK.pg KEYRACK.BIND_PAGE m = pg then
      some (s.rd KEYRACK.pg KEYRACK.BIND_KEY m)
    else none

/-- The key that guards a register of page `pg`: `OWNER.KEY`. -/
def State.pageKey (s : State) (pg : Nat) : Option Nat :=
  if pg = SYS.pg || pg = POWER.pg then some 0
  else if pg = FORM.pg 0 || pg = FORM.pg 1 then some 1
  else s.boundKey pg

/-- The key that guards writes of the register at `off`; on SYS and POWER one register alone is guarded, and the read window of PANTRY
needs no key (R578). -/
def State.guardOf (s : State) (pg off : Nat) : Option Nat :=
  if (pg = SYS.pg || pg = POWER.pg) && off ≠ 0x044 then none
  else if pg = PANTRY.pg && (off = 0x070 || off = 0x074) then none
  else s.pageKey pg

/-- The write is refused for want of the key (0x01). -/
def State.keyMissing (s : State) (ini : Initiator) (pg off : Nat) : Bool :=
  match s.guardOf pg off with
  | some k => !s.holds ini k
  | none => false

/-! ### Reads of the register window -/

/-- The header words that are not stored: PAGE_ID, PAGE_CAPS, OWNER (R100). `OWNER.KEY` of a page that no key guards, whose value R100
does not give, shows 0 (DESIGN CHOICE, log entry 1). -/
def State.headerWord (s : State) (p : PageInfo) (pg inst off : Nat) : Option Nat :=
  match off with
  | 0x000 => some (1 + 2 ^ 8 * inst + 2 ^ 16 * p.block)
  | 0x004 =>
    let caps := if p.block = 0x0051 then s.slots else p.blockCaps
    some (bit01 p.staged + 2 * bit01 p.lockable + 4 * bit01 p.clocked + 2 ^ 8 * p.irqBits + 2 ^ 16 * caps)
  | 0x028 =>
    match s.pageKey pg with
    | some k => some (k + 2 ^ 7 + 2 ^ 8 * s.holder k)
    | none => some 0
  | _ => none

/-- The pending source of target `t` with the highest priority, the lowest index on a tie; 0x100 if there is none (R114). -/
def State.claim (s : State) (t : Nat) : Nat :=
  let ps := (List.range 256).filter fun src => s.pendingAt t src
  let best := ps.foldl (fun b src => max b (s.rd IRQ.pg IRQ.ROUTE_PRIO src)) 0
  (ps.find? fun src => s.rd IRQ.pg IRQ.ROUTE_PRIO src = best).getD 0x100

/-- 32 truth values as a word. -/
def wordOf (f : Nat → Bool) : Nat := (List.range 32).foldl (fun n i => if f i then n + 2 ^ i else n) 0

/-- What a read of instance `i` of field `f` of page `pg` shows: what the device computes, 0 for a WO field, else the value in
force (R1). -/
def State.shown (s : State) (pg : Nat) (f : Fld) (i : Nat) : Nat :=
  if f.acc = .wo then 0
  else if pg = IRQ.pg && f = IRQ.ROUTE_ACTIVE then bit01 (s.sourceAsserted i)
  else if pg = IRQ.pg && f = IRQ.CLAIM_SRC then s.claim i
  else if pg = KEYRACK.pg && f = KEYRACK.HELD_LO_HELD then wordOf fun n => s.holder n ≠ 0
  else if pg = KEYRACK.pg && f = KEYRACK.HELD_HI_HELD then wordOf fun n => s.holder (32 + n) ≠ 0
  else if pg = CLOCK.pg && f = CLOCK.DOMSTAT_RUN then wordOf (fun d => d < 10 && s.domainRuns d)
  else if pg = DEBUG.pg && f = DEBUG.SESSION_REMAINING_S then s.remaining
  else s.rd pg f i

/-- A take of key `n` by a read (R41, R88, R92): whether this initiator may hold it. -/
def mayTake (ini : Initiator) (n : Nat) : Bool := hasId ini && (n ≠ 0 || ini ≠ .sec)

/-- A read of `KEYRACK.KEYn` (R88, R89). -/
def State.keyRead (s : State) (ini : Initiator) (n : Nat) : Nat × State :=
  let s := if mayTake ini n && s.holder n = 0 then s.wr KEYRACK.pg KEYRACK.KEY_BITS n (ownerId ini) else s
  (2 ^ 31 * bit01 (s.holds ini n) + 2 ^ 30 * bit01 (s.holder n ≠ 0) + s.holder n, s)

/-- `STAMPs` through the debug access port: what the next read would return; the index stays (R3). -/
def State.stampReadBy (s : State) (ini : Initiator) (k : Fin 8) : Nat × State :=
  if ini = .dap then ((s.stampRead k).1, s) else s.stampRead k

/-- `CHIMNEY.MEAS` shows VM_SENSE and VGD as they are at the read (R1, R680), which no earlier event tells: free values (DESIGN CHOICE,
log entry 14). -/
def State.measSnap (s : State) : State :=
  let (vm, s) := s.freshWord
  let (vgd, s) := s.freshWord
  (s.wr CHIMNEY.pg CHIMNEY.MEAS_VM_DV 0 (vm.toNat % 4096)).wr CHIMNEY.pg CHIMNEY.MEAS_VGD_DV 0 (vgd.toNat % 4096)

/-- The snapshots that a read takes (R2, R39, R589, R844), before it returns its word. -/
def State.readSnap (s : State) (pg off : Nat) : State :=
  if pg = SYS.pg && off = 0x050 then s.wr64 SYS.pg SYS.CYC_LO_CYC_LO SYS.CYC_HI_CYC_HI 0 s.cyc.toNat
  else if pg = METRO.pg && off = METRO.NEXT_SEQ_LO_SEQ.off then
    s.wr64 METRO.pg METRO.NEXT_SEQ_LO_SEQ METRO.NEXT_SEQ_HI_SEQ 0 s.metro.next
  else if pg = METRO.pg then
    match METRO.IMP_LO_VALUE.indexAt off with
    | some m =>
      let x := s.meter (Fin.ofNat 9 m)
      (s.wr64 METRO.pg METRO.IMP_LO_VALUE METRO.IMP_HI_VALUE m x.imp).wr64 METRO.pg METRO.EXP_LO_VALUE METRO.EXP_HI_VALUE m x.exp
    | none => s
  else if pg = CHIMNEY.pg && off = CHIMNEY.MEAS_VM_DV.off then s.measSnap
  else if pg = PTP.pg && off = PTP.TIME_NS_NS.off then s.timeSnap
  else if pg = PTP.pg && off = PTP.OFFSET_LO_PS.off then s.offsetSnap
  else if pg = PTP.pg && off = PTP.JUMP_PEND_LO_NS.off then s.jumpSnap
  else s

/-- The registers whose read does more than R1 says: `KEYn`, `STAMPs`; and `PENDtk`. -/
def State.readSpecial (s : State) (ini : Initiator) (pg off : Nat) : Option (Nat × State) :=
  if pg = KEYRACK.pg then (KEYRACK.KEY_BITS.indexAt off).map fun n => s.keyRead ini n
  else if pg = REDUN.pg then (REDUN.STAMP_RSEQ.indexAt off).map fun k => s.stampReadBy ini (Fin.ofNat 8 k)
  else if pg = IRQ.pg && 0x440 ≤ off && off < 0x4C0 then
    let t := (off - 0x440) / 32
    let k := (off - 0x440) % 32 / 4
    some (wordOf (fun j => s.pendingAt t (32 * k + j)), s)
  else none

/-- An RC field clears to its reset value when it is read (R1). -/
def State.readClear (s : State) (pg : Nat) (fs : List (Fld × Nat)) : State :=
  fs.foldl (fun s x => if x.1.acc = .rc then s.wr pg x.1 x.2 (resetValue pg x.1 x.2) else s) s

/-- The word of a register, assembled from its fields. -/
def State.assemble (s : State) (pg : Nat) (fs : List (Fld × Nat)) : Nat :=
  fs.foldl (fun w x => w + 2 ^ x.1.lo * s.shown pg x.1 x.2) 0

/-- A read of the register at offset `off` of page `pg`. -/
def State.regRead (s : State) (ini : Initiator) (p : PageInfo) (pg inst off : Nat) : Nat × State :=
  match s.headerWord p pg inst off with
  | some w => (w, s)
  | none =>
    match s.readSpecial ini pg off with
    | some x => x
    | none =>
      let fs := regFields p inst off
      let s := s.readSnap pg off
      (s.assemble pg fs, s.readClear pg fs)

/-! ### Reads of every region -/

/-- A read of the Attic (R749): `bad` are the words whose parity fails. -/
def State.atticRead (s : State) (bad : List Nat) (a : Nat) : Word × State :=
  let w := a % 0x200000 / 4
  if bad.contains w then
    (badWord, ((s.bump ATTIC.pg ATTIC.PERR_COUNT_COUNT).wr ATTIC.pg ATTIC.PERR_ADDR_ADDR 0 a).irq ATTIC.pg 3)
  else (s.attic.mem.get w, s)

/-- A word of the LPS view: each 64-bit word low half first (R338). -/
def State.lpsView (s : State) (a : Nat) : Word :=
  let x := s.lpsWord (a % 0x8000 / 8)
  if a % 8 < 4 then x.truncate 32 else (x >>> 32).truncate 32

/-- A word of the image flash's window. -/
def State.flashView (s : State) (a : Nat) : Word := BitVec.ofNat 32 (readLe s.flashByte (a % 0x10000000) 4)

/-- A word of the data-memory view (R338). -/
def State.dmemView (s : State) (a : Nat) : Word := s.dmem (a % 0x8000 / 2048) (a % 2048 / 4)

/-- A 32-bit read of Main SRAM by an initiator. -/
def State.sramAnswer (s : State) (a : Nat) : BusRes × State :=
  match s.sramRead a with
  | (some w, s) => (.data w, s)
  | (none, s) => (.error, s)

/-- A read of the Attic by an initiator. -/
def State.atticAnswer (s : State) (bad : List Nat) (a : Nat) : BusRes × State :=
  let (w, s) := s.atticRead bad a
  (.data w, s)

/-- A read of the register window (R115, R116, R83). -/
def State.windowRead (s : State) (ini : Initiator) (a : Nat) : BusRes × State :=
  match pageOf (pageNo a) with
  | none => (.error, s)
  | some (p, inst) =>
    if !s.domainRuns p.domain && !answersStopped (pageOff a) then (.stall, s)
    else
      let (w, s) := s.regRead ini p (pageNo a) inst (pageOff a)
      (.data (BitVec.ofNat 32 w), s)

/-- A 32-bit read at an aligned bus address. -/
def State.busRead (s : State) (ini : Initiator) (bad : List Nat) (a : Nat) : BusRes × State :=
  if !s.mayReach ini a false then (.error, s)
  else
    match regionOf a with
    | none => (.error, s)
    | some .rom => (.data (Config.rom a), s)
    | some .flash => (.data (s.flashView a), s)
    | some .sram => s.sramAnswer a
    | some .lps => (.data (s.lpsView a), s)
    | some .dmem => (.data (s.dmemView a), s)
    | some .attic => s.atticAnswer bad a
    | some .window => s.windowRead ini a

end Sys2Proof.Machine
end

