-- ==== Sys2Proof/Machine/Pages.lean ====
section
/-!
DEFINITION. Machine/Pages.lean: writes of the register window: the checks of 02 R103 and R951 in their order, the effect of each
access code (00 R1), and what a register does beyond it (00 R2).
-/
namespace Sys2Proof.Machine

/-- What the world outside brings to a write that starts something: VM_SENSE in 0.1 V (R662, R664), the
directory entries whose image the flash fails to bring (R897), the flash's identification (R925), and whether an engine's port wrote the same target in the same cycle (R266, R364). -/
structure Env where
  vm : Nat := 0
  bad : List (Fin 16) := []
  flashId : Nat := 0
  portToo : Bool := false

/-- What the outside brings to a write whose command does not say it: free values (log entry 28). -/
def State.envOf (s : State) (e : Option Env) : Env × State :=
  match e with
  | some e => (e, s)
  | none =>
    let r := (Config.freeWord s.free).toNat
    ({ vm := bitsOf r 0 12, flashId := bitsOf r 8 24
       bad := (List.finRange 16).filter fun k => bitOf (Config.freeWord (s.free + 1)).toNat k }, { s with free := s.free + 2 })

/-- A port wrote the same target too, as the command says. -/
def portToo (e : Option Env) : Bool :=
  match e with
  | some e => e.portToo
  | none => false

/-! ### Access codes -/

/-- A field accepts a write. -/
def Fld.writable (f : Fld) : Bool := f.acc ≠ .ro && f.acc ≠ .rc

/-- The part of a register's word that belongs to a field. -/
def Fld.part (f : Fld) (v : Nat) : Nat := bitsOf v f.lo f.width

/-- The bits of the interrupt registers that a page uses (R100). -/
def irqPart (p : PageInfo) (v : Nat) : Nat := v % 2 ^ p.irqBits

/-- A write of `v` to a field as its access code says (R1, R104). -/
def State.writeField (s : State) (pg : Nat) (f : Fld) (i v : Nat) : State :=
  match f.acc with
  | .rw | .rwl => s.wr pg f i v
  | .rws => s.stage pg f i v
  | .w1c => s.wr pg f i (s.rd pg f i - (s.rd pg f i &&& v))
  | .w1s => s.wr pg f i (s.rd pg f i ||| v)
  | _ => s

/-- A write of a register's fields; the CONFIG-only ones only in CONFIG (R951). -/
def State.writeFields (s : State) (pg : Nat) (fs : List (Fld × Nat)) (v : Nat) : State :=
  let cfg := s.mode = mCONFIG
  (fs.foldl (fun s x => if x.1.cfgOnly && !cfg then s else s.writeField pg x.1 x.2 (x.1.part v)) s).msi

/-! ### Checks (R103, R951) -/

/-- A write outside CONFIG is refused for its CONFIG-only fields: a register that holds no other field that accepts writes,
or a value that differs from the one in force. -/
def State.configRefused (s : State) (pg : Nat) (fs : List (Fld × Nat)) (v : Nat) : Bool :=
  s.mode ≠ mCONFIG && fs.any (fun x => x.1.cfgOnly) &&
    (fs.all (fun x => x.1.cfgOnly || !x.1.writable) || fs.any fun x => x.1.cfgOnly && x.1.part v ≠ s.rd pg x.1 x.2)

/-- The page's lock refuses the write (R4); of SHADOW_COMMIT of the safety pages a write of 1 (R633, R638). -/
def State.lockRefused (s : State) (p : PageInfo) (pg off : Nat) (fs : List (Fld × Nat)) (v : Nat) : Bool :=
  s.flag pg HDR.PAGE_LOCK_LOCKED &&
    (fs.any (fun x => x.1.acc = .rwl) || (off = 0x020 && bitOf v 0 && (p.block = 0x0060 || p.block = 0x0061)))

/-- The code that refuses a write, if one does: lock, key, mode. -/
def State.writeRefused (s : State) (ini : Initiator) (p : PageInfo) (pg off : Nat) (fs : List (Fld × Nat)) (v : Nat) : Option Nat :=
  if s.lockRefused p pg off fs v then some 0x02
  else if s.keyMissing ini pg off then some 0x01
  else if s.configRefused pg fs v then some 0x05
  else if pg = DEBUG.pg && !debugWriter ini then some 0x05
  else if pg = PANTRY.pg && off = 0x040 && s.pantryCfgLocked then some 0x05
  else none

/-! ### The page header (R100, R109) -/

/-- A write of a header register. -/
def State.headerWrite (s : State) (ini : Initiator) (p : PageInfo) (pg inst off v : Nat) : State :=
  match off with
  | 0x014 => (s.wr pg HDR.IRQ_ENABLE_BITS 0 (irqPart p v)).msi
  | 0x01C => (s.wr pg HDR.IRQ_STATUS_BITS 0 (s.rd pg HDR.IRQ_STATUS_BITS ||| irqPart p v)).msi
  | 0x020 => if bitOf v 0 then s.shadowCommit ini p pg inst else s
  | _ => s.writeFields pg (regFields p inst off) v

/-! ### System pages -/

/-- The action, or the refusal with its code. -/
def State.orRefuse (s : State) (ini : Initiator) (pg off : Nat) (bad : Option Nat) (f : State → State) : State :=
  match bad with
  | some code => s.cfgErr pg code off ini
  | none => f s

/-- `RESET` (R874): `SWRST`; a code other than 0xD1 is ignored. -/
def State.resetWrite (s : State) (ini : Initiator) (fs : List (Fld × Nat)) (off v : Nat) : State :=
  if off = 0x048 then
    if v % 256 = 0xD1 then s.orRefuse ini RESET.pg off (s.swrstRefused ini) fun s => s.resetTo 4 else s
  else s.writeFields RESET.pg fs v

/-- A write of `KEYn` (R90). -/
def State.keyRelease (s : State) (ini : Initiator) (n off : Nat) : State :=
  if s.holder n = 0 then s else if s.holds ini n then s.freeKey n else s.cfgErr KEYRACK.pg 0x01 off ini

/-- Key `n` is released by force (R94, R95). -/
def State.forceRelease (s : State) (n : Nat) : State :=
  let h := s.holder n
  let s := (s.freeKey n).bump KEYRACK.pg KEYRACK.FORCE_COUNT_COUNT
  if h = 1 then s.irq (portPg .A) 1 else if h = 2 then s.irq (portPg .B) 1 else s

/-- A write of `FORCE_RELEASE` with GO is refused (R94). -/
def mayForce (ini : Initiator) : Bool := isHost ini || ini = .sec

/-- A `BIND` entry with EN 1 may not stand (R98). -/
def State.bindBad (s : State) (m v : Nat) : Bool :=
  let page := bitsOf v 0 12
  let key := bitsOf v 12 6
  bitOf v 31 && (key ≤ 1 || [SYS.pg, POWER.pg, FORM.pg 0, FORM.pg 1, KEYRACK.pg].contains page ||
    (List.range 16).any fun k => k ≠ m && s.flag KEYRACK.pg KEYRACK.BIND_EN k && s.rd KEYRACK.pg KEYRACK.BIND_PAGE k = page)

/-- `KEYRACK` (R88 to R99). -/
def State.keyrackWrite (s : State) (ini : Initiator) (fs : List (Fld × Nat)) (off v : Nat) : State :=
  match KEYRACK.KEY_BITS.indexAt off, KEYRACK.BIND_PAGE.indexAt off with
  | some n, _ => s.keyRelease ini n off
  | _, some m => if s.bindBad m v then s.cfgErr KEYRACK.pg 0x03 off ini else s.writeFields KEYRACK.pg fs v
  | _, _ =>
    if off = 0x148 then if bitOf v 0 && hasId ini then s.freeKeysOf (ownerId ini) else s
    else if off = 0x14C then
      if !bitOf v 31 then s else if mayForce ini then s.forceRelease (v % 64) else s.cfgErr KEYRACK.pg 0x01 off ini
    else s

/-- A write of `EOIt` (R113): one further MSI while the line is active. -/
def State.eoiPort (s : State) (p : HostPort) : State :=
  if s.msiOn p && s.lineActive (portTarget p) then s.setPorch p { s.porch p with msiSent := (s.porch p).msiSent + 1 } else s
def State.eoi (s : State) (t : Nat) : State := if t = 0 then s.eoiPort .A else if t = 1 then s.eoiPort .B else s

/-- Doorbell `src` (R114). -/
def State.doorbell (s : State) (src : Nat) : State :=
  (if src < 224 then s.putBit IRQ.pg IRQ.DB_STATUS_LO_DB 0 (src - 192) true
    else s.putBit IRQ.pg IRQ.DB_STATUS_HI_DB 0 (src - 224) true).msi

/-- `IRQ` (R114). -/
def State.irqWrite (s : State) (ini : Initiator) (fs : List (Fld × Nat)) (off v : Nat) : State :=
  match IRQ.EOI_EOI.indexAt off with
  | some t => s.eoi t
  | none =>
    if off = 0x4E0 then if v % 256 < 192 then s.cfgErr IRQ.pg 0x03 off ini else s.doorbell (v % 256)
    else s.writeFields IRQ.pg fs v

/-! ### Loop engines, Loop Program Store -/

/-- The action bits of `LEn.CTRL` (R264, R291). -/
def State.leCtrl (s : State) (ini : Initiator) (n : Fin 16) (v : Nat) : State :=
  let s := if bitOf v 1 then s.orRefuse ini (LE.pg n) 0x008 (s.coefSwapRefused n) fun s => s.coefSwap n else s
  if bitOf v 2 then
    s.orRefuse ini (LE.pg n) 0x008 (if s.resumeRefused n then some 0x05 else none) fun s => s.leResume n
  else s

/-- A write of `SPk.TARGET` (R266, R490). -/
def State.spWrite (s : State) (e : Option Env) (ini : Initiator) (n k off v : Nat) : State :=
  if s.spHeldByPort n k then s.cfgErr (LE.pg n) 0x05 off ini
  else if portToo e then s
  else s.wr (LE.pg n) LE.SP_TARGET_VALUE k v

/-- `LEn`. -/
def State.leWritePage (s : State) (e : Option Env) (ini : Initiator) (n : Fin 16) (fs : List (Fld × Nat)) (off v : Nat) : State :=
  match LE.SP_TARGET_VALUE.indexAt off with
  | some k => s.spWrite e ini n k off v
  | none =>
    let s := s.writeFields (LE.pg n) fs v
    if off = 0x008 then s.leCtrl ini n v else s

/-- Why a write of `LPS.INJECT` is refused, if it is (R356). -/
def State.injectRefused (s : State) (v : Nat) : Option Nat :=
  if s.mode ≠ mCONFIG && s.mode ≠ mREADY then some 0x05 else if bitsOf v 16 2 = 3 then some 0x03 else none

/-- `LPS` (R340, R346, R356). -/
def State.lpsWrite (s : State) (ini : Initiator) (fs : List (Fld × Nat)) (off v : Nat) : State :=
  if off = 0x044 then
    if bitOf v 31 then s.orRefuse ini LPS.pg off (s.loadRefused (bitsOf v 0 4) (bitsOf v 4 5)) fun s => s.loadStart (bitsOf v 0 4) (bitsOf v 4 5)
    else s
  else if off = 0x04C then
    if bitOf v 31 then
      s.orRefuse ini LPS.pg off (if s.flag LPS.pg LPS.STATUS_LIB_BUSY then some 0x05 else none) fun s => s.libStart (v % 256)
    else s
  else if off = 0x05C then s.orRefuse ini LPS.pg off (s.injectRefused v) fun s => s.writeFields LPS.pg fs v
  else s.writeFields LPS.pg fs v

/-! ### PWM units, Fusebox, converters -/

/-- `PWMn` (R364, R389). -/
def State.pwmWrite (s : State) (e : Option Env) (n : Fin 16) (fs : List (Fld × Nat)) (off v : Nat) : State :=
  match PWM.CMP_FRAC.indexAt off with
  | some c => if portToo e then s else s.stageCmp n (Fin.ofNat 8 c) (BitVec.ofNat 32 v)
  | none =>
    let s := s.writeFields (PWM.pg n) fs v
    if off = 0x008 then s.recheckDrive else s

/-- `FUSE` (R410, R411, R413). -/
def State.fuseWrite (s : State) (fs : List (Fld × Nat)) (off v : Nat) : State :=
  if off = 0x054 then s.clearSources false v
  else if off = 0x058 then s.clearSources true v
  else if off = 0x05C then s.clearUnits (v % 2 ^ 16)
  else
    let s := s.writeFields FUSE.pg fs v
    match FUSE.PINCFG_POL.indexAt off with
    | some p => s.tripSource p
    | none => if off = 0x074 then s.setSource 63 (bitOf v 0) else s

/-- `SARu` (R440). -/
def State.sarWrite (s : State) (u : Fin 6) (fs : List (Fld × Nat)) (off v : Nat) : State :=
  let s := s.writeFields (SAR.pg u) fs v
  if off = 0x008 then
    let s := if bitOf v 1 then s.sarRegTrigger u else s
    if bitOf v 2 then s.sarInjTrigger u else s
  else s

/-! ### Charging outputs, metering -/

/-- `PORTp` (R496, R532). -/
def State.portWritePage (s : State) (ini : Initiator) (p : Fin 8) (fs : List (Fld × Nat)) (off v : Nat) : State :=
  if off = 0x0B4 then s.orRefuse ini (PORT.pg p) off (s.portCmdRefused p (v % 8)) fun s => s.portCmd ini p (v % 8)
  else if off = 0x0AC then if s.portIBad p v then s.cfgErr (PORT.pg p) 0x03 off ini else s.writeFields (PORT.pg p) fs v
  else if 0x0A0 ≤ off && off ≤ 0x0B0 then
    if s.portVBad p v then s.cfgErr (PORT.pg p) 0x03 off ini else s.writeFields (PORT.pg p) fs v
  else s.writeFields (PORT.pg p) fs v

/-- `PILOT` (R519). -/
def State.pilotWrite (s : State) (ini : Initiator) (fs : List (Fld × Nat)) (off v : Nat) : State :=
  match PILOT.CH_GEN_MODE.indexAt off with
  | some p => if pilotGenBad v then s.cfgErr PILOT.pg 0x03 off ini else s.genWrite (Fin.ofNat 8 p) v
  | none => s.writeFields PILOT.pg fs v

/-- `PANTRY` (R564, R574, R578). -/
def State.pantryWrite (s : State) (ini : Initiator) (fs : List (Fld × Nat)) (off v : Nat) : State :=
  if off = 0x044 then
    s.orRefuse ini PANTRY.pg off (s.pantryCmdRefused (bitsOf v 0 4)) fun s => s.pantryCmd (bitsOf v 0 4) (bitsOf v 4 4)
  else if off = 0x060 then s.orRefuse ini PANTRY.pg off (if s.ackBad v then some 0x03 else none) fun s => s.ackSeq v
  else if off = 0x064 then { s with metro := { s.metro with ackHi := v } }
  else if off = 0x070 then s.readStart v
  else s.writeFields PANTRY.pg fs v

/-! ### Safety -/

/-- The pair of a watchdog (R624). -/
def wdPair (x : Fin 2) : Initiator := if x = 0 then .supA else .supB

/-- A write of `WDSVCx` (R624, R626). -/
def State.wdsvcWrite (s : State) (ini : Initiator) (x : Fin 2) (off v : Nat) : State :=
  if ini = wdPair x then s.wdService x (BitVec.ofNat 8 v) else s.cfgErr SAFEIO.pg 0x01 off ini

/-- A write of `WDCFGx` (R624, R636). -/
def State.wdcfgWrite (s : State) (ini : Initiator) (x : Fin 2) (fs : List (Fld × Nat)) (off v : Nat) : State :=
  if wdCfgBad v then s.cfgErr SAFEIO.pg 0x03 off ini
  else
    let was := s.flag SAFEIO.pg SAFEIO.WDCFG_EN x
    (s.writeFields SAFEIO.pg fs v).wdConfig x was

/-- A write of `WDCLEAR` (R627). -/
def State.wdclearWrite (s : State) (ini : Initiator) (off v : Nat) : State :=
  if isHost ini && s.mode = mCONFIG then s.wdClear (v % 4) else if v % 4 = 0 then s else s.cfgErr SAFEIO.pg 0x05 off ini

/-- `SAFEIO`. -/
def State.safeioWrite (s : State) (ini : Initiator) (fs : List (Fld × Nat)) (off v : Nat) : State :=
  match SAFEIO.WDCFG_EN.indexAt off, SAFEIO.WDSVC_TOKEN.indexAt off with
  | some x, _ => s.wdcfgWrite ini (Fin.ofNat 2 x) fs off v
  | _, some x => s.wdsvcWrite ini (Fin.ofNat 2 x) off v
  | _, _ =>
    if off = 0x050 then s.safeAck (v % 256)
    else if off = 0x154 then s.wdclearWrite ini off v
    else if off = 0x04C then (s.writeFields SAFEIO.pg fs v).demand
    else s.writeFields SAFEIO.pg fs v

/-- `SAFENET` (R619). -/
def State.safenetWrite (s : State) (fs : List (Fld × Nat)) (off v : Nat) : State :=
  if off = 0x044 then s.netAck (v % 256) else s.writeFields SAFENET.pg fs v

/-! ### Gate drivers, axes -/

/-- The action bits of `GDRVn.CTRL` (R664, R673). -/
def State.gdrvCtrl (s : State) (e : Option Env) (ini : Initiator) (n : Fin 12) (v : Nat) : State :=
  let s := if bitOf v 1 then s.legClear n else s
  if bitOf v 2 then
    let (e, s) := s.envOf e
    let s := s.wr CHIMNEY.pg CHIMNEY.MEAS_VM_DV 0 e.vm
    s.orRefuse ini (GDRV.pg n) 0x008 (if s.diagRefused n then some 0x05 else none) fun s => s.diagStart n
  else s
def State.gdrvWrite (s : State) (e : Option Env) (ini : Initiator) (n : Fin 12) (fs : List (Fld × Nat)) (off v : Nat) : State :=
  let s := s.writeFields (GDRV.pg n) fs v
  if off = 0x008 then s.gdrvCtrl e ini n v else s

/-- `CHIMNEY` (R662, R671). -/
def State.chimneyWrite (s : State) (e : Option Env) (ini : Initiator) (fs : List (Fld × Nat)) (off v : Nat) : State :=
  if off = 0x008 then
    let s :=
      if bitOf v 0 then
        let (e, s) := s.envOf e
        let s := s.wr CHIMNEY.pg CHIMNEY.MEAS_VM_DV 0 e.vm
        s.orRefuse ini CHIMNEY.pg off (if s.clearOvRefused then some 0x05 else none) fun s => s.clearOv
      else s
    if bitOf v 1 then s.clearFirst else s
  else s.writeFields CHIMNEY.pg fs v

/-- `AXISa` (R689, R707): FLUSH comes before PUSH where both are written. -/
def State.axisWrite (s : State) (ini : Initiator) (a : Fin 4) (fs : List (Fld × Nat)) (off v : Nat) : State :=
  if off = 0x0A8 then if axisCmdBad (v % 16) then s.cfgErr (AXIS.pg a) 0x03 off ini else s.axisCmd ini a (v % 16)
  else if off = 0x0D8 then
    let s := if bitOf v 1 then s.gearFlush a else s
    if bitOf v 0 then s.orRefuse ini (AXIS.pg a) off (if s.gearFull a then some 0x05 else none) fun s => s.gearPush a else s
  else s.writeFields (AXIS.pg a) fs v

/-! ### The Attic -/

/-- Why a write of `CAPn.CMD` is refused, if it is (R744); FORCE joins a unit's trigger whose sample is still to come (R750). -/
def State.capRefused (s : State) (n : Fin 8) (code : Nat) : Option Nat :=
  let st := s.capState n
  match code with
  | 1 => if st = capSTOPPED && mREADY ≤ s.mode && s.pwr.state ≤ 1 then none else some 0x05
  | 2 => none
  | 3 => if st = capFILL || st = capARMED || ((s.cap n).wait && !(s.cap n).forced) then none else some 0x05
  | 4 => if st = capSTOPPED || st = capFULL then none else some 0x05
  | _ => some 0x03

/-- A command of a capture channel (R744). -/
def State.capDo (s : State) (n : Fin 8) (code : Nat) : State :=
  match code with
  | 1 => s.capStart n
  | 2 => s.capStop n
  | 3 => s.capTrigger n 0 true (some s.stamp)
  | _ => s.capClear n

/-- `ATTIC`. -/
def State.atticWrite (s : State) (ini : Initiator) (fs : List (Fld × Nat)) (off v : Nat) : State :=
  match ATTIC.CAP_CMD_CODE.indexAt off with
  | some n => s.orRefuse ini ATTIC.pg off (s.capRefused (Fin.ofNat 8 n) (v % 8)) fun s => s.capDo (Fin.ofNat 8 n) (v % 8)
  | none => s.writeFields ATTIC.pg fs v

/-! ### Redundancy, network, time -/

/-- Why a write of `REDUN.CMD` is refused, if it is (R788, R793). -/
def State.redunRefused (s : State) (code target : Nat) : Option Nat :=
  if code = 0 || 4 < code then some 0x03 else if s.redunCmdRefused code target then some 0x05 else none

/-- `REDUN` (R787, R793, R796). -/
def State.redunWrite (s : State) (ini : Initiator) (fs : List (Fld × Nat)) (off v : Nat) : State :=
  if off = 0x054 then s.orRefuse ini REDUN.pg off (s.redunRefused (v % 8) (bitsOf v 3 2)) fun s => s.redunCmd (v % 8) (bitsOf v 3 2)
  else if off = 0x08C then
    if bitOf v 31 then
      s.orRefuse ini REDUN.pg off (s.xferRefused (v % 2 ^ 16)) fun s => s.xferStart (v % 2 ^ 16) (bitsOf v 16 2)
    else s
  else s.writeFields REDUN.pg fs v

/-- `ETHSW` (R842). -/
def State.ethWrite (s : State) (ini : Initiator) (fs : List (Fld × Nat)) (off v : Nat) : State :=
  if off = 0x054 then
    if bitOf v 31 then s.orRefuse ini ETHSW.pg off (if s.mdioBusy then some 0x05 else none) fun s => s.mdioStart v
    else s
  else if (ETHSW.TXQ_HEAD_INDEX.indexAt off).isSome then (s.writeFields ETHSW.pg fs v).txStart
  else s.writeFields ETHSW.pg fs v

/-- `PTP` (R827, R831 to R835). -/
def State.ptpWrite (s : State) (ini : Initiator) (fs : List (Fld × Nat)) (off v : Nat) : State :=
  if off = 0x058 then if bitOf v 31 then s.setRequest (v % 2 ^ 30) else s
  else if off = 0x060 then s.orRefuse ini PTP.pg off (if s.stepRefused then some 0x05 else none) fun s => s.stepRequest v
  else if off = 0x064 then
    if v % 2 ^ 30 < 1000 || 1000000000 < v % 2 ^ 30 then s.cfgErr PTP.pg 0x03 off ini else s.writeFields PTP.pg fs v
  else if off = 0x070 then s.orRefuse ini PTP.pg off (if isHost ini then none else some 0x01) fun s => s.jumpCmd (bitOf v 0) (bitOf v 1)
  else if off = 0x090 then (s.writeFields PTP.pg fs v).ptpUnlock
  else s.writeFields PTP.pg fs v

/-! ### Security, debug, flash -/

/-- A Cellar command that is accepted (R893, R903 to R906). -/
def State.cellarDo (s : State) (e : Option Env) (op type : Nat) : State :=
  match op with
  | 1 => s.provision
  | 2 => s.seal
  | 3 => s.returnCmd
  | 4 => s.advance type
  | 5 =>
    let (e, s) := s.envOf e
    s.checkSlot type e.bad
  | _ => s.ramBoot

/-- `CELLAR` (R922). -/
def State.cellarWrite (s : State) (e : Option Env) (ini : Initiator) (fs : List (Fld × Nat)) (off v : Nat) : State :=
  if off = 0x04C then
    let op := bitsOf v 0 4
    let type := bitsOf v 4 3
    s.orRefuse ini CELLAR.pg off (s.cellarRefused ini op type) fun s => s.cellarDo e op type
  else s.writeFields CELLAR.pg fs v

/-- `ATTEST` (R908). -/
def State.attestWrite (s : State) (ini : Initiator) (fs : List (Fld × Nat)) (off v : Nat) : State :=
  if off = 0x060 then
    if bitOf v 0 then s.orRefuse ini ATTEST.pg off (if s.flag ATTEST.pg ATTEST.RESULT_BUSY then some 0x05 else none) fun s => s.attestGo
    else s
  else s.writeFields ATTEST.pg fs v

/-- The `LE_` registers act only through the debug access port with LOOP granted (R914, R924). -/
def State.loopRefused (s : State) (ini : Initiator) : Option Nat := if ini = .dap && s.granted 1 then none else some 0x05

/-- `DEBUG` (R912 to R916, R924). -/
def State.debugWrite (s : State) (ini : Initiator) (fs : List (Fld × Nat)) (off v : Nat) : State :=
  if off = 0x060 then if bitOf v 0 then s.chalNew else s
  else if off = 0x0C8 then
    if bitOf v 0 then
      s.orRefuse ini DEBUG.pg off s.goRefused fun s => s.authGo
    else s
  else if off = 0x0D0 then if bitOf v 0 then s.endSession 1 else s
  else if off = 0x0D8 then s.orRefuse ini DEBUG.pg off (s.loopRefused ini) fun s => s.leHalts (BitVec.ofNat 16 v)
  else if off = 0x0DC then s.orRefuse ini DEBUG.pg off (s.loopRefused ini) fun s => s.leResumes (BitVec.ofNat 16 v)
  else if off = 0x0E0 then s.orRefuse ini DEBUG.pg off (s.loopRefused ini) fun s => s.leStepOne (Fin.ofNat 16 (v % 16))
  else s.writeFields DEBUG.pg fs v

/-- `XFLASH` (R925). -/
def State.xflashWrite (s : State) (e : Option Env) (ini : Initiator) (fs : List (Fld × Nat)) (off v : Nat) : State :=
  if off = 0x040 then
    s.orRefuse ini XFLASH.pg off (s.flashCfgRefused v) fun s =>
      (s.writeFields XFLASH.pg fs v).setFlag XFLASH.pg XFLASH.STATUS_XIP_ACTIVE 0 (bitOf v 4)
  else if off = 0x044 then
    if bitOf v 31 then
      s.orRefuse ini XFLASH.pg off (s.flashRefused (v % 8)) fun s =>
        let (e, s) := if v % 8 = 1 then s.envOf e else ({}, s)
        s.flashStart (v % 8) e.flashId
    else s
  else s.writeFields XFLASH.pg fs v

/-! ### A write of the register window -/

/-- A write that passed its checks, to a block register. -/
def State.blockWrite (s : State) (e : Option Env) (ini : Initiator) (p : PageInfo) (pg inst off : Nat) (fs : List (Fld × Nat)) (v : Nat) : State :=
  match p.block with
  | 0x0001 => s.modeRequest ini (v % 16)
  | 0x0002 => if off = 0x044 then s.powerCmd ini (v % 8) else s.writeFields pg fs v
  | 0x0004 => s.resetWrite ini fs off v
  | 0x0005 => s.keyrackWrite ini fs off v
  | 0x0007 => s.irqWrite ini fs off v
  | 0x0010 => s.leWritePage e ini (Fin.ofNat 16 inst) fs off v
  | 0x0011 => s.lpsWrite ini fs off v
  | 0x0020 => s.pwmWrite e (Fin.ofNat 16 inst) fs off v
  | 0x0021 => s.fuseWrite fs off v
  | 0x0030 => s.sarWrite (Fin.ofNat 6 inst) fs off v
  | 0x0040 => s.portWritePage ini (Fin.ofNat 8 inst) fs off v
  | 0x0041 => s.pilotWrite ini fs off v
  | 0x0051 => s.pantryWrite ini fs off v
  | 0x0060 => s.safeioWrite ini fs off v
  | 0x0061 => s.safenetWrite fs off v
  | 0x0070 => s.gdrvWrite e ini (Fin.ofNat 12 inst) fs off v
  | 0x0071 => s.chimneyWrite e ini fs off v
  | 0x0080 => s.axisWrite ini (Fin.ofNat 4 inst) fs off v
  | 0x0090 => s.atticWrite ini fs off v
  | 0x00A0 => s.redunWrite ini fs off v
  | 0x00B0 => s.ethWrite ini fs off v
  | 0x00B1 => s.ptpWrite ini fs off v
  | 0x00C0 => s.cellarWrite e ini fs off v
  | 0x00C1 => s.attestWrite ini fs off v
  | 0x00C2 => s.debugWrite ini fs off v
  | 0x00D0 => s.xflashWrite e ini fs off v
  | _ => s.writeFields pg fs v

/-- The header registers that accept a write: IRQ_ENABLE to SHADOW_COMMIT, PAGE_LOCK (R100). -/
def headerOff (off : Nat) : Bool := off < 0x008 || (0x010 ≤ off && off < 0x040)

/-- A refused write of `MODE_REQ`, for want of KEY0 too, shows in REQ_REFUSED (R38, R40; DEDUCED, log entry 6). -/
def State.noteRefused (s : State) (pg off : Nat) : State :=
  if pg = SYS.pg && off = 0x044 then s.wr SYS.pg SYS.STATUS_REQ_REFUSED 0 1 else s

/-- A write of the register at offset `off` of a page whose clock runs (R103): a register without a field that accepts writes is
left alone, without an error (R1, R7); a listed one of `METRO` is left alone, with an error, for all but its core (R117). -/
def State.regWrite (s : State) (e : Option Env) (ini : Initiator) (p : PageInfo) (pg inst off v : Nat) : State :=
  let fs := regFields p inst off
  if pg = METRO.pg && ini ≠ .met then if regListed p inst off then s.cfgErr pg 0x05 off ini else s
  else if !fs.any (fun x => x.1.writable) then s
  else
    match s.writeRefused ini p pg off fs v with
    | some code => (s.cfgErr pg code off ini).noteRefused pg off
    | none => if headerOff off then s.headerWrite ini p pg inst off v else s.blockWrite e ini p pg inst off fs v

/-! ### Writes of every region -/

/-- A write of the enabled bytes of a data-memory word (R289); false is a bus error. -/
def State.dmemWrite (s : State) (a : Nat) (be : BitVec 4) (v : Word) : Bool × State :=
  let n := a % 0x8000 / 2048
  let w := a % 2048 / 4
  if s.leState n = leSTOPPED || s.leState n = leFAULT then
    let mask : Word := (List.range 4).foldl (fun m i => if be.getLsbD i then m ||| (0xFF#32 <<< (8 * i)) else m) 0
    (true, s.setDmem n w ((s.dmem n w &&& ~~~mask) ||| (v &&& mask)))
  else (false, s)

/-- A write of Main SRAM by an initiator. -/
def State.sramTake (s : State) (a : Nat) (be : BitVec 4) (v : Word) : BusRes × State :=
  let (ok, s) := s.sramWrite a be v
  (if ok then .done else .error, s)

/-- A write of a data memory by an initiator. -/
def State.dmemTake (s : State) (a : Nat) (be : BitVec 4) (v : Word) : BusRes × State :=
  let (ok, s) := s.dmemWrite a be v
  (if ok then .done else .error, s)

/-- A write of the register window (R115, R116, R83). -/
def State.windowWrite (s : State) (e : Option Env) (ini : Initiator) (a : Nat) (v : Word) : BusRes × State :=
  match pageOf (pageNo a) with
  | none => (.error, s)
  | some (p, inst) =>
    if !s.domainRuns p.domain && !answersStopped (pageOff a) then (.stall, s)
    else (.done, s.regWrite e ini p (pageNo a) inst (pageOff a) v.toNat)

/-- A 32-bit write at an aligned bus address. -/
def State.busWrite (s : State) (e : Option Env) (ini : Initiator) (a : Nat) (be : BitVec 4) (v : Word) : BusRes × State :=
  if !s.mayReach ini a true then (.error, s)
  else
    match regionOf a with
    | some .sram => s.sramTake a be v
    | some .dmem => s.dmemTake a be v
    | some .window => s.windowWrite e ini a v
    | _ => (.error, s)

end Sys2Proof.Machine
end

