-- ==== Sys2Proof/Machine/Porch.lean ====
section
/-!
DEFINITION. Machine/Porch.lean: accesses and their responses (02 R66, R80 to R85, R954), the two host ports in PCI Express mode
(R67 to R70, R86) and in quad-SPI mode (R71 to R79).
-/
namespace Sys2Proof.Machine

/-! ### Errors of a host port -/

/-- The host port of an initiator. -/
def portOf : Initiator → Option HostPort
  | .porchA => some .A
  | .porchB => some .B
  | _ => none

/-- A host port logs an error (R86, R87). -/
def State.hostErr (s : State) (p : HostPort) (code addr : Nat) : State :=
  let pg := portPg p
  (((s.wr pg PORCH.ERR_CODE_CODE 0 code).wr pg PORCH.ERR_ADDR_ADDR 0 addr).bump pg PORCH.ERR_COUNT_COUNT).irq pg 0

/-- The port is strapped to quad-SPI. -/
def State.isQspi (s : State) (p : HostPort) : Bool := s.flag (portPg p) PORCH.LINK_MODE

/-- A host can send over the port: in PCI Express mode the link is up (R86). -/
def State.portUp (s : State) (p : HostPort) : Bool := s.isQspi p || s.flag (portPg p) PORCH.LINK_UP

/-- A supervisor pair or a core that is halted, by a lock-step mismatch (R25) or through debug (R917, R920), sends nothing. -/
def State.coreStopped (s : State) (ini : Initiator) : Bool :=
  match ini with
  | .supA => s.sec.lsHaltA || s.flag DEBUG.pg DEBUG.HALTED_SUPA
  | .supB => s.sec.lsHaltB || s.flag DEBUG.pg DEBUG.HALTED_SUPB
  | .sec => s.flag DEBUG.pg DEBUG.HALTED_SEC
  | .met => s.flag DEBUG.pg DEBUG.HALTED_MET
  | _ => false

/-- The initiator's access reaches the device: it is out of reset, in P0 to P2, a host's port is up, and a pair or core is not halted. -/
def State.canSend (s : State) (ini : Initiator) : Bool :=
  s.live && !s.coreStopped ini && match portOf ini with
    | some p => s.portUp p
    | none => true

def State.answer (s : State) (st : Status) (data : List Word) : State := { s with resp := { status := st, data := data } }

/-- The completion of an access that failed (R80 to R82, R954): for a write, none carries data. R82 names the completion of a read;
that of a failed PCI Express write is taken alike, a Completer Abort with ERR_MODE 1 and no error with ERR_MODE 0 (DESIGN CHOICE, log
entry 28). -/
def State.failAnswer (s : State) (ini : Initiator) (write : Bool) (data : List Word) : State :=
  let data := if write then [] else data
  match portOf ini with
  | some p =>
    if s.isQspi p then s.answer .busError data
    else if s.flag (portPg p) PORCH.CFG_ERR_MODE then s.answer .aborted []
    else s.answer .ok data
  | none => s.answer .busError data

/-! ### Serving an access -/

/-- The access stalls: a register of a stopped clock domain (R83, R84). -/
def State.stallsAt (s : State) (ini : Initiator) (write : Bool) (a : Nat) : Bool :=
  s.mayReach ini a write && regionOf a = some .window && !answersStopped (pageOff a) &&
    match pageOf (pageNo a) with
    | some (p, _) => !s.domainRuns p.domain
    | none => false

def State.stalls (s : State) (a : Access) : Bool := a.words.any fun w => s.stallsAt a.ini a.write w.addr

/-- One word of an access: the word it brings, or none on a bus error. A write without an enabled byte does nothing. -/
def State.doWord (s : State) (e : Option Env) (bad : List Nat) (a : Access) (w : AccWord) : Option Word × State :=
  if a.write && w.be = 0 then (some 0, s)
  else
    match if a.write then s.busWrite e a.ini w.addr w.be w.value else s.busRead a.ini bad w.addr with
    | (.data x, s) => (some x, s)
    | (.done, s) => (some 0, s)
    | (_, s) => (none, s)

/-- The words of an access in order: their data, with 0xBAD0_0BAD where one failed, and the address of the first that did. -/
def State.doWords (s : State) (e : Option Env) (bad : List Nat) (a : Access) : List AccWord → (List Word × Option Nat) × State
  | [] => (([], none), s)
  | w :: ws =>
    let (x, s) := s.doWord e bad a w
    let ((xs, f), s) := s.doWords e bad a ws
    ((x.getD badWord :: xs, if x.isSome then f else some w.addr), s)

/-- The words of an access that does not stall, with its completion (R81, R954). -/
def State.serveWords (s : State) (e : Option Env) (bad : List Nat) (a : Access) : State :=
  match s.doWords e bad a a.words with
  | ((xs, none), s) => s.answer .ok (if a.write then [] else xs)
  | ((xs, some addr), s) =>
    let s := match portOf a.ini with
      | some p => s.hostErr p 0x2 addr
      | none => s
    s.failAnswer a.ini a.write xs

/-- What a port does itself (R68, R69, R73, R76, R77). -/
def State.serveWork (s : State) (p : HostPort) (w : PortWork) : State :=
  match w with
  | .refused code addr st data => (s.hostErr p code addr).answer st data
  | .status => s.answer .ok [BitVec.ofNat 32 (s.rd (portPg p) PORCH.ERR_CODE_CODE)]
  | .ident => s.answer .ok [BitVec.ofNat 32 (s.rd SYS.pg SYS.DEVICE_ID_PART + 2 ^ 16 * s.rd SYS.pg SYS.DEVICE_ID_SILICON)]

/-- An access whose turn has come and that does not stall; the answer to an abandoned one is dropped (R78). -/
def State.serve (s : State) (e : Option Env) (bad : List Nat) (a : Access) : State :=
  let t := match a.work, portOf a.ini with
    | some w, some p => s.serveWork p w
    | _, _ => s.serveWords e bad a
  if a.dropped then { t with resp := s.resp } else t

/-- An access that had waited is served; its completion is noted. -/
def State.serveLate (s : State) (a : Access) : State :=
  let s := s.serve none [] a
  if a.dropped then s else { s with late := s.late ++ [(a.ini, s.resp)] }

/-- The accesses of an initiator that wait (R66, R83). -/
def State.waitingOf (s : State) (ini : Initiator) : List Access :=
  match portOf ini with
  | some p => (s.porch p).waiting
  | none => s.stalled.filter fun a => a.ini = ini

/-- An access waits behind those before it. -/
def State.enqueue (s : State) (a : Access) : State :=
  let s := s.answer .stalled []
  match portOf a.ini with
  | some p => s.setPorch p { s.porch p with waiting := (s.porch p).waiting ++ [a] }
  | none => { s with stalled := s.stalled ++ [a] }

/-- An access of an initiator: behind one that waits, or stalled itself, it waits (R66, R83); else it is served. -/
def State.access (s : State) (e : Option Env) (bad : List Nat) (a : Access) : State :=
  if !s.canSend a.ini then s.answer .absent []
  else if !(s.waitingOf a.ini).isEmpty || s.stalls a then s.enqueue a
  else s.serve e bad a

/-- A read and a write of one register. The two low address bits of a register's address are 0. -/
def State.readReg (s : State) (ini : Initiator) (addr : Nat) : State :=
  s.access none [] { ini := ini, write := false, words := [{ addr := addr / 4 * 4 }] }
def State.writeReg (s : State) (e : Option Env) (ini : Initiator) (addr v : Nat) : State :=
  s.access e [] { ini := ini, write := true, words := [{ addr := addr / 4 * 4, value := BitVec.ofNat 32 v }] }

/-- The bus address of the register at offset `off` of page `pg`. -/
def regAddr (pg off : Nat) : Nat := regBase + 4096 * pg + off

/-- The accesses of an initiator that wait are `q`. -/
def State.setWaiting (s : State) (ini : Initiator) (q : List Access) : State :=
  match portOf ini with
  | some p => s.setPorch p { s.porch p with waiting := q }
  | none => { s with stalled := s.stalled.filter (fun a => a.ini ≠ ini) ++ q }

/-- An initiator's turn: its oldest access is served if its clock runs; behind one that stalls the others wait on (R66). -/
def State.takeTurn (s : State) (ini : Initiator) : State :=
  match s.waitingOf ini with
  | [] => s
  | a :: q => if s.stalls a then s else (s.setWaiting ini q).serveLate a

/-- The arbiter's rounds, one turn each (R65). -/
def State.rounds (inis : List Initiator) : Nat → State → State
  | 0, s => s
  | n + 1, s => State.rounds inis n (inis.foldl State.takeTurn s)

/-- Serve what waits at a port. -/
def State.drainPort (s : State) (p : HostPort) : State :=
  let ini := match p with
    | .A => Initiator.porchA
    | .B => Initiator.porchB
  State.rounds [ini] (s.porch p).waiting.length s

/-- A stopped clock has returned: every access that waited for it completes (R83), round-robin (R65); that Porch A has the first turn is a
DESIGN CHOICE (log entry 28), and so is that the accesses of a pair that has halted meanwhile are served too: they were issued before (R93
frees its keys at the halt, and a key that such an access takes later stays held). -/
def State.drainAll (s : State) : State :=
  let inis := (([Initiator.porchA, .porchB] ++ s.stalled.map (·.ini)).eraseDups)
  State.rounds inis (s.porchA.waiting.length + s.porchB.waiting.length + s.stalled.length) { s with late := [] }

/-- The page of a register write that its stopped clock kept from it is marked (R85), but for an unlisted offset (R7). -/
def State.markStopped (s : State) (a : Access) (addr : Nat) : State :=
  match pageOf (pageNo addr) with
  | some (p, inst) =>
    if a.write && s.stalls a && regListed p inst (pageOff addr) then s.cfgErr (pageNo addr) 0x06 (pageOff addr) a.ini else s
  | none => s

/-- The error response of an access that timed out (R80). -/
def State.timeoutAnswer (s : State) (a : Access) : State :=
  if a.dropped then s
  else
    let s := s.failAnswer a.ini a.write (a.words.map fun _ => badWord)
    { s with late := s.late ++ [(a.ini, s.resp)] }

/-- HOST_ACCESS_TIMEOUT (R80, R85): the oldest access that waits ends with an error; those behind it follow in order (R66). -/
def State.accessTimeout (s : State) (p : HostPort) : State :=
  match (s.porch p).waiting with
  | [] => s
  | a :: as =>
    let addr := ((a.words.head?).map (·.addr)).getD 0
    let s := ({ s with late := [] }.markStopped a addr).hostErr p 0x1 addr
    let s := s.setPorch p { s.porch p with waiting := as }
    (s.timeoutAnswer a).drainPort p

/-! ### Upsets that an access meets -/

/-- A Main SRAM word of 64 bits or an LPS word holds an error from now on (R30, R322). -/
def State.upset (s : State) : Upset → State
  | .sram w true => { s with sramCe := w.val :: s.sramCe.filter (· ≠ w.val) }
  | .sram w false => { s with sramUe := w.val :: s.sramUe.filter (· ≠ w.val) }
  | .lps w => s.lpsUpset w
  | _ => s
def State.upsets (s : State) (us : List Upset) : State := us.foldl (fun s u => s.upset u) s

/-- The Attic words whose parity fails in this access (R749). -/
def atticBad (us : List Upset) : List Nat :=
  us.filterMap fun u => match u with
    | .attic w => some w.val
    | _ => none

/-! ### PCI Express (R67 to R70, R86) -/

/-- The bus address that a BAR2 offset maps to (R67). -/
def bar2Map (o : Nat) : Option Nat :=
  if o < 0x400000 then some (sramBase + o)
  else if o < 0x600000 then some (0x30000000 + (o - 0x400000))
  else if o < 0x608000 then some (0x20000000 + (o - 0x600000))
  else if 0x610000 ≤ o && o < 0x618000 then some (0x21000000 + (o - 0x610000))
  else none

/-- The lowest enabled byte of a DWORD; 0 where none is. -/
def firstByte (be : BitVec 4) : Nat := ((List.range 4).find? fun i => be.getLsbD i).getD 0

/-- The request's DWORDs: offset, byte enables, data. -/
def reqDwords (r : PcieReq) : List (Nat × BitVec 4 × Word) :=
  r.be.zipIdx.map fun (be, i) => (r.offset.toNat / 4 * 4 + 4 * i, be, r.data.getD i 0)

/-- A BAR0 request that R68 admits. -/
def reqBar0Ok (r : PcieReq) : Bool := r.be = [0xF#4] && r.offset.toNat % 4 = 0

/-- The first byte of the request, as an offset. -/
def reqFirst (r : PcieReq) : Nat := r.offset.toNat + firstByte (r.be.headD 0)

/-- The offset of the first byte of a BAR2 request that lies in a reserved range. -/
def reqReserved (r : PcieReq) : Option Nat :=
  ((reqDwords r).find? fun d => (bar2Map d.1).isNone).map fun d => d.1 + firstByte d.2.1

/-- The request as an access of the bus. -/
def reqAccess (r : PcieReq) (p : HostPort) : Access :=
  { ini := portIni p, write := r.write
    words := (reqDwords r).map fun d =>
      { addr := if r.bar2 then (bar2Map d.1).getD 0 else regBase + d.1, be := d.2.1, value := d.2.2 } }

/-- What a port answers itself, in its turn (R66, R78). -/
def State.portAnswer (s : State) (p : HostPort) (w : PortWork) : State :=
  s.access none [] { ini := portIni p, write := false, words := [], work := some w }

/-- A request or a frame that the port refuses, in its turn. -/
def State.portRefuse (s : State) (p : HostPort) (code addr : Nat) (st : Status) (data : List Word) : State :=
  s.portAnswer p (.refused code addr st data)

/-- A PCI Express memory request. A write of more than 256 bytes is malformed before its address is looked at: the port discards it as
it arrives. Where its first byte lies in a reserved range no bus address exists for the ERR_ADDR that R69 asks for; it then holds the
BAR2 offset (DESIGN CHOICE, log entry 28). -/
def State.pcie (s : State) (p : HostPort) (r : PcieReq) : State :=
  if !s.live || s.isQspi p || !s.portUp p then s.answer .absent []
  else if !r.bar2 then
    if reqBar0Ok r then s.access none [] (reqAccess r p) else s.portRefuse p 0x3 (regBase + reqFirst r) .unsupported []
  else if r.write && 64 < r.be.length then (s.hostErr p 0x3 ((bar2Map (reqFirst r)).getD (reqFirst r))).answer .malformed []
  else
    match reqReserved r with
    | some o => s.portRefuse p 0x7 o .unsupported []
    | none =>
      if !r.write && 128 < r.be.length then s.portRefuse p 0x3 ((bar2Map (reqFirst r)).getD 0) .unsupported []
      else (s.upsets r.upsets).access none (atticBad r.upsets) (reqAccess r p)

/-- PCIE_LINK_UP (R86, R87). -/
def State.pcieUp (s : State) (p : HostPort) (gen2 : Bool) : State :=
  if !s.live || s.isQspi p || s.flag (portPg p) PORCH.LINK_UP then s
  else ((s.wr (portPg p) PORCH.LINK_UP 0 1).wr (portPg p) PORCH.LINK_SPEED 0 (if gen2 then 2 else 1)).irq (portPg p) 2

/-- PCIE_LINK_DOWN: a hot reset or link-down (R70, R86, R93). It resets the function's configuration space, MSI enable with it (PCI
Express Base Specification; PRESUMED, log entry 28). -/
def State.pcieDown (s : State) (p : HostPort) : State :=
  if !s.live || s.isQspi p then s
  else
    let s := s.setPorch p { s.porch p with waiting := [] }
    let s := s.freeKeysOf (ownerId (portIni p))
    let s := (s.wr (portPg p) PORCH.LINK_UP 0 0).wr (portPg p) PORCH.LINK_SPEED 0 0
    (s.wr (portPg p) PORCH.LINK_MSI_EN 0 0).irq (portPg p) 2

/-- PCIE_CONFIG_WRITE: MSI enable (R86, R113). A line that is active already becomes active no more. -/
def State.pcieConfig (s : State) (p : HostPort) (msi : Bool) : State :=
  if !s.live || s.isQspi p || !s.portUp p then s
  else
    let s := s.setFlag (portPg p) PORCH.LINK_MSI_EN 0 msi
    s.setPorch p { s.porch p with line := s.lineActive (portTarget p) }

/-! ### Quad-SPI (R71 to R79) -/

/-- The port answers quad-SPI frames. -/
def State.qspiOn (s : State) (p : HostPort) : Bool := s.live && s.isQspi p

/-- The address of word `k` of a frame. -/
def qspiAddr (a : Word) (k : Nat) : Nat := (a + BitVec.ofNat 32 (4 * k)).toNat

/-- Word `k` of a READ: an access, or, of a misaligned READ, the error of R76. -/
def qspiWord (p : HostPort) (a : Word) (k : Nat) : Access :=
  { ini := portIni p, write := false, words := if a.toNat % 4 = 0 then [{ addr := qspiAddr a k }] else []
    work := if a.toNat % 4 = 0 then none else some (.refused 0x3 (qspiAddr a k) .busError [badWord]) }

/-- The words of a READ from word `k` on: each is an access and logs its own error (R75, R76, R954); once one stalls, the rest
wait behind it. -/
def State.qspiWords (s : State) (p : HostPort) (bad : List Nat) (a : Word) : Nat → Nat → List Word → List Word × State
  | 0, _, l => (l, s)
  | n + 1, k, l =>
    let x := s.access none bad (qspiWord p a k)
    x.qspiWords p bad a n (k + 1) (l ++ x.resp.data)

/-- The bus access of a word that is pending when CS_N rises is completed, its data dropped (R78), also where it stalls. -/
def State.qspiDrop (s : State) (p : HostPort) (bad : List Nat) (a : Word) (k : Nat) : State :=
  { s.access none bad { qspiWord p a k with dropped := true } with resp := s.resp }

/-- The answer to a READ frame: its words, whether the last of them still wait, and, of a misaligned one, the errors (R76). -/
def State.qspiFrameEnd (s : State) (p : HostPort) (a : Word) (l : List Word) : State :=
  s.answer (if !(s.waitingOf (portIni p)).isEmpty then .stalled else if a.toNat % 4 = 0 then .ok else .busError) l

/-- QSPI_READ (R73, R75, R76, R78). -/
def State.qspiRead (s : State) (p : HostPort) (a : Word) (n : Nat) (abandoned : Bool) (us : List Upset) : State :=
  if !s.qspiOn p then s.answer .absent []
  else
    let (l, s) := (s.upsets us).qspiWords p (atticBad us) a n 0 []
    let s := s.qspiFrameEnd p a l
    if abandoned then s.qspiDrop p (atticBad us) a n else s

/-- The data of a WRITE frame taken apart: whole words, and whether a partial one follows. -/
def qspiSplit : List Byte → List Word × Bool
  | b0 :: b1 :: b2 :: b3 :: bs =>
    let (ws, part) := qspiSplit bs
    (BitVec.ofNat 32 (ofLeBytes [b0, b1, b2, b3]) :: ws, part)
  | [] => ([], false)
  | _ => ([], true)

/-- The whole words of an aligned WRITE; those after the sixteenth are discarded with an error (R77). -/
def State.qspiPut (s : State) (p : HostPort) (a : Word) : Nat → List Word → State
  | _, [] => s
  | k, w :: ws =>
    let s := if k < 16 then s.access none [] { ini := portIni p, write := true, words := [{ addr := qspiAddr a k, value := w }] }
      else s.portRefuse p 0x6 (qspiAddr a k) .busError []
    s.qspiPut p a (k + 1) ws

/-- QSPI_WRITE (R73, R77). -/
def State.qspiWrite (s : State) (p : HostPort) (a : Word) (bs : List Byte) (us : List Upset) : State :=
  if !s.qspiOn p then s.answer .absent []
  else if a.toNat % 4 ≠ 0 then s.portRefuse p 0x3 a.toNat .busError []
  else
    let (ws, part) := qspiSplit bs
    let s := ((s.answer .ok []).upsets us).qspiPut p a 0 ws
    if part then s.portRefuse p 0x4 (qspiAddr a ws.length) .busError [] else s

/-- QSPI_STATUS and QSPI_ID, served inside the port (R73), with wait bytes while an abandoned access has not ended (R78). -/
def State.qspiStatus (s : State) (p : HostPort) : State :=
  if !s.qspiOn p then s.answer .absent [] else s.portAnswer p .status
def State.qspiId (s : State) (p : HostPort) : State :=
  if !s.qspiOn p then s.answer .absent [] else s.portAnswer p .ident

/-- RELEASE_ALL (R73, R93): it has no answer that R78 could hold back, so it acts at once, beside an access of the port that still waits
(DESIGN CHOICE, log entry 28). -/
def State.releaseAll (s : State) (p : HostPort) : State :=
  if !s.qspiOn p then s.answer .absent []
  else ((s.freeKeysOf (ownerId (portIni p))).wr (portPg p) PORCH.ERR_CODE_CODE 0 0).answer .ok []

/-- QSPI_UNKNOWN_COMMAND (R73): at once, as RELEASE_ALL (log entry 28). ERR_ADDR: the frame has no address, so what it then holds is a
free value. -/
def State.qspiUnknown (s : State) (p : HostPort) (code : Byte) : State :=
  if !s.qspiOn p then s.answer .absent []
  else if [0x0B#8, 0x02#8, 0x05#8, 0x9F#8, 0x99#8].contains code then s
  else
    let (r, s) := s.freshWord
    (s.hostErr p 0x5 r.toNat).answer .ok []

end Sys2Proof.Machine
end

