-- ==== Sys2Proof/Machine/Meanings.lean ====
section
/-!
DEFINITION. Machine/Meanings.lean: what the meanings of several rows share: the address of a field's register, the write of an
action bit beside EN, the clock domain an event needs, and the composite events of PWM carriers, Fusebox sources and power
transitions.
-/
namespace Sys2Proof.Machine

/-- The bus address of the register that holds instance `i` of field `f` of page `pg` (R115, R116). -/
def fieldAddr (pg : Nat) (f : Fld) (i : Nat) : Nat := regAddr pg (f.off + f.stride * i)

/-- A write of the register that holds instance `i` of field `f`, its whole word `v`. -/
def State.writeAt (s : State) (e : Option Env) (ini : Initiator) (pg : Nat) (f : Fld) (i v : Nat) : State :=
  s.writeReg e ini (fieldAddr pg f i) v

/-- A read of the register that holds instance `i` of field `f`. -/
def State.readAt (s : State) (ini : Initiator) (pg : Nat) (f : Fld) (i : Nat) : State := s.readReg ini (fieldAddr pg f i)

/-- The word that sets action bits of `CTRL` and leaves EN as the host wrote it: the value that a commit would put in force while
the page is configured, else the value in force (log entry 28). -/
def State.ctrlWith (s : State) (pg : Nat) (en : Fld) (action : Nat) : Nat :=
  action + bit01 ((if s.mode = mCONFIG then s.merged pg en else s.rd pg en) ≠ 0)

/-- An event of a block whose clock domain must run (R83, R846). -/
def State.inDomain (s : State) (d : Nat) (f : State → State) : State := if s.live && s.domainRuns d then f s else s

/-- The register of PORT_VALUE_WRITE (R532). -/
def portValueFld (r : Fin 5) : Fld :=
  match r with
  | 0 => PORT.CC_V_VALUE
  | 1 => PORT.CC_END_V_VALUE
  | 2 => PORT.PRE_V_VALUE
  | 3 => PORT.I_SET_VALUE
  | 4 => PORT.V_LIM_VALUE

/-- The period boundary `t` of the unit carrier (R369, R374): what a swap hands over there (R787), the delivery of a Form Unit's
duties (R180), the unit's own boundary, what its event triggers (R244, R424, R454, R722), the first update of a Form Unit that waits for it
(R134). `p` is the period that the unit takes over there under SRC 1. -/
def State.boundaryEvent (s : State) (n : Fin 16) (t : Int) (p : Option Nat) : State :=
  (((((((s.passUnit n).formDeliver n t false).unitBoundary n t p).sampleEvent 1 n 0).leEmit 1 n).sarEmit 1 n).dsfEmit n t).formSyncPwm n

/-- The mid-period point `t` of the unit carrier. -/
def State.midEvent (s : State) (n : Fin 16) (t : Int) : State :=
  (((((s.formDeliver n t true).unitMid n t).sampleEvent 1 n 1).leEmit 1 n true).sarEmit 1 n true).dsfEmit n t true

/-- The coming boundary of unit `n` is past: its boundaries that are left. -/
def State.dropDue (s : State) (n : Fin 16) : State := s.setPwmUnit n { s.pwmUnit n with due := (s.pwmUnit n).due.tail }

/-- The coming boundary of pair `k` is past. -/
def State.dropPairDue (s : State) (n : Fin 16) (k : Fin 4) : State :=
  s.setPwmPair n k { s.pwmPair n k with due := (s.pwmPair n k).due.tail }

/-- PWM_CARRIER_EVENT (R369, R370, R371): the carrier reaches the point at its instant; a stopped carrier has no events, and a point
whose instant has not come is not reached yet (DEDUCED, log entry 47). -/
def State.carrierEvent (s : State) (n : Fin 16) (pt : CarrierPoint) : State :=
  if !s.carrierRuns n then s
  else
    match pt with
    | .boundary =>
      match (s.pwmUnit n).due with
      | (t, p) :: _ => if s.reached t then (s.dropDue n).boundaryEvent n t p else s
      | [] => s
    | .mid =>
      match (s.pwmUnit n).mid with
      | some t => if s.reached t then (s.setPwmUnit n { s.pwmUnit n with mid := none }).midEvent n t else s
      | none => s
    | .pairBoundary k =>
      match (s.pwmPair n k).due with
      | (e, t) :: _ => if s.reached e then (s.dropPairDue n k).pairBoundary n k e t else s
      | [] => s
    | .pairMid k =>
      match (s.pwmPair n k).mid with
      | some e => if s.reached e then (s.setPwmPair n k { s.pwmPair n k with mid := none }).pairMid n k e else s
      | none => s

/-- PWM_SYNC_EVENT (R373): a synchronisation event of R371 has come to the unit; the period in progress ends there. -/
def State.syncEvent (s : State) (n : Fin 16) : State :=
  match (s.pwmUnit n).sync with
  | t :: rest =>
    if s.carrierRuns n && s.reached t then
      let s := s.setPwmUnit n { s.pwmUnit n with due := [], sync := rest }
      ((s.boundaryEvent n t none).bump (PWM.pg n) PWM.SYNC_COUNT_COUNT).irq (PWM.pg n) 3
    else s
  | [] => s

/-- A source that acts latches, for its map is enabled and not cycle by cycle (R404, R405). -/
def State.latches (s : State) (src : Nat) : Bool :=
  s.armed && s.flag FUSE.pg FUSE.MAP_EN src && !s.flag FUSE.pg FUSE.MAP_CYCLE src

/-- FUSE_SOURCE_ACTIVE (R403 to R406): an activation that has not acted yet acts; a member reports itself failed on a latched source of
SELF_MASK (R778). -/
def State.fuseSource (s : State) (src : Fin 64) (overtemp : Bool) : State :=
  let s := if src = 62 then s.setSource 62 overtemp else s
  if bitOf s.fuse.edges src then
    let l := s.latches src
    let s := s.fuseAct src
    if l then s.selfReportOf src else s
  else s

/-- TRIGOUT_RELEASE (R747). -/
def State.releasePull (s : State) (l : Fin 4) : State :=
  match s.attic.pull[l] with
  | some t => if s.since t < 2 ^ 63 then { s with attic := { s.attic with pull := s.attic.pull.set l none } } else s
  | none => s

/-- POWER_TRANSITION_DONE (R879): the accesses that waited for a stopped clock complete once it runs (R83). -/
def State.powerEnd (s : State) : State := s.powerDone.drainAll

/-- AUTH_LOCKOUT_END (R913). -/
def State.lockoutEnd (s : State) : State := s.wr DEBUG.pg DEBUG.STATUS_LOCKOUT 0 0

/-- A tick of CYC without a command: CYC counts, precision time advances (R39, R821), bootstrap lock-outs end (R655), the Twitos lanes
send what no command stands for (R757, R758), and an open GO completes (R912). -/
def State.tick (s : State) : State := s.ifLive fun s => (((({ s with cyc := s.cyc + 1 }).ptpTick).legMends).lanesTick).authEnd

end Sys2Proof.Machine
end

