-- ==== Sys2Proof/Machine/ExecAttic.lean ====
section
/-!
DEFINITION. Machine/ExecAttic.lean: the meanings of the commands of the disturbance recorder (14), one definition per row.
-/
namespace Sys2Proof.Machine

/-- `ATTIC_SAMPLE_LATCH` (R723). 40 ns after a counted sample event a capture channel latches its selected slots. -/
def execAtticSampleLatch (n : Fin 8) (s : State) : Host.Outcome State Fault Refusal :=
  .next (s.ifLive fun s => s.sampleLatch n)

/-- `SEGMENT_COMPLETE` (R741). After the last post-trigger frame the channel completes the directory entry and moves to the next segment. -/
def execSegmentComplete (n : Fin 8) (s : State) : Host.Outcome State Fault Refusal :=
  .next (s.ifLive fun s => s.segmentComplete n)

/-- `CAP_START` (R744). The START command begins capture in FILL at segment NEXT. -/
def execCapStart (ini : Initiator) (n : Fin 8) (s : State) : Host.Outcome State Fault Refusal :=
  .next (s.writeAt none ini ATTIC.pg ATTIC.CAP_CMD_CODE n 1)

/-- `CAP_STOP` (R745). The STOP command stops the channel, truncating a segment in POST. -/
def execCapStop (ini : Initiator) (n : Fin 8) (s : State) : Host.Outcome State Fault Refusal :=
  .next (s.writeAt none ini ATTIC.pg ATTIC.CAP_CMD_CODE n 2)

/-- `CAP_FORCE` (R744). The FORCE command makes a trigger with FORCED set. -/
def execCapForce (ini : Initiator) (n : Fin 8) (s : State) : Host.Outcome State Fault Refusal :=
  .next (s.writeAt none ini ATTIC.pg ATTIC.CAP_CMD_CODE n 3)

/-- `CAP_CLEAR` (R744). The CLEAR command invalidates the channel's entries and resets NEXT. -/
def execCapClear (ini : Initiator) (n : Fin 8) (s : State) : Host.Outcome State Fault Refusal :=
  .next (s.writeAt none ini ATTIC.pg ATTIC.CAP_CMD_CODE n 4)

/-- `TRIGOUT_RELEASE` (R747). The trigger-out pull ends after TRIGOUT_WIDTH and the line is released. -/
def execTrigoutRelease (l : Fin 4) (s : State) : Host.Outcome State Fault Refusal :=
  .next (s.ifLive fun s => s.releasePull l)

end Sys2Proof.Machine
end

