-- ==== Sys2Proof/Machine/ExecAxis.lean ====
section
/-!
DEFINITION. Machine/ExecAxis.lean: the meanings of the commands of motion axes (13), one definition per row.
-/
namespace Sys2Proof.Machine

/-- `PROFILE_TICK` (R683). Every 10 µs each axis acts on commands and commits and advances its profile. -/
def execProfileTick (s : State) : Host.Outcome State Fault Refusal :=
  .next (s.ifLive fun s => s.profileTick)

/-- `ENABLE` (R689). The command moves the axis from IDLE to HOLD. -/
def execEnable (ini : Initiator) (a : Fin 4) (s : State) : Host.Outcome State Fault Refusal :=
  .next (s.writeAt none ini (AXIS.pg a) AXIS.CMD_CODE 0 1)

/-- `MOVE` (R689). The command moves the axis to TARGET under its jerk-limited profile. -/
def execMove (ini : Initiator) (a : Fin 4) (s : State) : Host.Outcome State Fault Refusal :=
  .next (s.writeAt none ini (AXIS.pg a) AXIS.CMD_CODE 0 2)

/-- `JOG` (R689). The command moves the axis towards velocity VJOG. -/
def execJog (ini : Initiator) (a : Fin 4) (s : State) : Host.Outcome State Fault Refusal :=
  .next (s.writeAt none ini (AXIS.pg a) AXIS.CMD_CODE 0 3)

/-- `AXIS_STOP` (R689). The STOP command decelerates the axis to HOLD. -/
def execAxisStop (ini : Initiator) (a : Fin 4) (s : State) : Host.Outcome State Fault Refusal :=
  .next (s.writeAt none ini (AXIS.pg a) AXIS.CMD_CODE 0 4)

/-- `HOME` (R704). The command moves the axis at HOME_VEL towards a hard stop. -/
def execHome (ini : Initiator) (a : Fin 4) (s : State) : Host.Outcome State Fault Refusal :=
  .next (s.writeAt none ini (AXIS.pg a) AXIS.CMD_CODE 0 5)

/-- `STEP_IN` (R689). The command makes the axis follow coarse steps. -/
def execStepIn (ini : Initiator) (a : Fin 4) (s : State) : Host.Outcome State Fault Refusal :=
  .next (s.writeAt none ini (AXIS.pg a) AXIS.CMD_CODE 0 6)

/-- `GEAR` (R706). The command engages electronic gearing to the master encoder. -/
def execGear (ini : Initiator) (a : Fin 4) (s : State) : Host.Outcome State Fault Refusal :=
  .next (s.writeAt none ini (AXIS.pg a) AXIS.CMD_CODE 0 7)

/-- `DISABLE` (R689). The command puts the axis in IDLE. -/
def execDisable (ini : Initiator) (a : Fin 4) (s : State) : Host.Outcome State Fault Refusal :=
  .next (s.writeAt none ini (AXIS.pg a) AXIS.CMD_CODE 0 8)

/-- `AXIS_CLEAR` (R689). The CLEAR command returns the axis from FAULT to IDLE. -/
def execAxisClear (ini : Initiator) (a : Fin 4) (s : State) : Host.Outcome State Fault Refusal :=
  .next (s.writeAt none ini (AXIS.pg a) AXIS.CMD_CODE 0 9)

/-- `SET_POS` (R689). The command sets POS to TARGET and sets HOMED. -/
def execSetPos (ini : Initiator) (a : Fin 4) (s : State) : Host.Outcome State Fault Refusal :=
  .next (s.writeAt none ini (AXIS.pg a) AXIS.CMD_CODE 0 10)

/-- `HOME_MAX_REACHED` (R705). Travel of HOME_MAX without a stall puts the axis in FAULT with cause 0x4. -/
def execHomeMaxReached (a : Fin 4) (s : State) : Host.Outcome State Fault Refusal :=
  .next (s.ifLive fun s => s.homeMaxReached a)

/-- `COARSE_STEP` (R697). A rising STEP_In edge adds SIZE to the step target and sets the interpolation rate. Operands: the level of DIR_In at the edge. -/
def execCoarseStep (a : Fin 4) (up : Bool) (s : State) : Host.Outcome State Fault Refusal :=
  .next (s.ifLive fun s => s.coarseStep a up)

/-- `GEAR_PUSH` (R707). A write of GEAR_CMD.PUSH appends a ratio and trigger to the queue. -/
def execGearPush (ini : Initiator) (a : Fin 4) (s : State) : Host.Outcome State Fault Refusal :=
  .next (s.writeAt none ini (AXIS.pg a) AXIS.GEAR_CMD_PUSH 0 1)

/-- `GEAR_FLUSH` (R707). A write of GEAR_CMD.FLUSH empties the gear queue. -/
def execGearFlush (ini : Initiator) (a : Fin 4) (s : State) : Host.Outcome State Fault Refusal :=
  .next (s.writeAt none ini (AXIS.pg a) AXIS.GEAR_CMD_FLUSH 0 2)

/-- `ENCODER_EDGE` (R710). A quadrature edge updates the encoder COUNT. Operands: the levels of ENC_A (bit 0) and ENC_B (bit 1) after the edge, past the filter. -/
def execEncoderEdge (e : Fin 5) (ab : BitVec 2) (s : State) : Host.Outcome State Fault Refusal :=
  .next (s.ifLive fun s => s.encoderEdge e ab)

/-- `INDEX_CAPTURE` (R711). A rising ENC_Z edge copies COUNT into ZCAP. -/
def execIndexCapture (e : Fin 5) (s : State) : Host.Outcome State Fault Refusal :=
  .next (s.ifLive fun s => s.indexCapture e)

end Sys2Proof.Machine
end

