-- ==== Sys2Proof/Machine/ExecClock.lean ====
section
/-!
DEFINITION. Machine/ExecClock.lean: the meanings of the commands of clocks, reset and power (17), one definition per row.
-/
namespace Sys2Proof.Machine

/-- `PLL_LOCK_DECLARED` (R853). Four good windows declare a PLL locked and substituted domains switch back. Operands: SYSPLL, or else CLNPLL; `band`: the band it settled in; the counts of its last four windows. -/
def execPllLockDeclared (sys : Bool) (band : Byte) (counts : Vector (BitVec 12) 4) (s : State) : Host.Outcome State Fault Refusal :=
  .next (s.ifLive fun s => s.lockDeclared sys band (counts.toList.map (·.toNat)))

/-- `PLL_LOCK_LOST` (R853). Two bad windows lose lock; SYSPLL domains go to substitutes or CLNPLL loss counts as root loss. Operands: the PLL; the counts of its last two windows. -/
def execPllLockLost (sys : Bool) (counts : Vector (BitVec 12) 2) (s : State) : Host.Outcome State Fault Refusal :=
  .next (s.ifLive fun s => s.lockLost sys (counts.toList.map (·.toNat)))

/-- `BAND_MISS` (R861). A stored band not settled in 20 µs starts a band search. -/
def execBandMiss (s : State) : Host.Outcome State Fault Refusal :=
  .next (s.ifLive fun s => s.bandMiss)

/-- `SPREAD_TRIANGLE_START` (R848). A spread triangle starts at each CYC multiple of 8,000, applying a committed spread. -/
def execSpreadTriangleStart (s : State) : Host.Outcome State Fault Refusal :=
  .next (s.ifLive fun s => s.spreadStart)

/-- `POWER_ON_RESET` (R933). A rail below its threshold holds the device in power-on reset. -/
def execPowerOnReset (s : State) : Host.Outcome State Fault Refusal :=
  .next (s.powerOnReset)

/-- `RESET_N_ASSERT` (R870). RESET_N low for 1 µs resets the device with cause 0x02. -/
def execResetNAssert (s : State) : Host.Outcome State Fault Refusal :=
  .next (s.resetNAssert)

/-- `RSTREQ_RESET` (R873). RSTREQ_N low for 20 ms resets the device. -/
def execRstreqReset (s : State) : Host.Outcome State Fault Refusal :=
  .next (s.rstreqReset)

/-- `RSTREQ_RELEASE` (R873). RSTREQ_N high for 20 ms releases the reset. -/
def execRstreqRelease (s : State) : Host.Outcome State Fault Refusal :=
  .next (s.rstreqRelease)

/-- `RSTREQ_STUCK` (R873). RSTREQ_N low for 5 s is declared stuck and the reset released. -/
def execRstreqStuck (s : State) : Host.Outcome State Fault Refusal :=
  .next (s.rstreqStuck)

/-- `RSTREQ_UNIGNORE` (R873). RSTREQ_N high for 100 ms ends the ignoring of the pin. -/
def execRstreqUnignore (s : State) : Host.Outcome State Fault Refusal :=
  .next (s.rstreqUnignore)

/-- `SWRST` (R874). A write of 0xD1 to RESET.SWRST from a host port under KEY0 resets the device. -/
def execSwrst (ini : Initiator) (s : State) : Host.Outcome State Fault Refusal :=
  .next (s.writeAt none ini RESET.pg RESET.SWRST_CODE 0 0xD1)

/-- `RESET_RELEASE` (R875). Reset is released, straps sampled, PLLs lock and the security core starts the Boot ROM. -/
def execResetRelease (st : Straps) (s : State) : Host.Outcome State Fault Refusal :=
  .next (s.resetRelease st)

/-- `POWER_CMD_P0` (R879). A power command to P0 restarts stopped domains. -/
def execPowerCmdP0 (ini : Initiator) (s : State) : Host.Outcome State Fault Refusal :=
  .next (s.writeAt none ini POWER.pg POWER.CMD_TARGET 0 0)

/-- `POWER_CMD_P1` (R879). A power command to P1 stops the loop engines, legs and axes. -/
def execPowerCmdP1 (ini : Initiator) (s : State) : Host.Outcome State Fault Refusal :=
  .next (s.writeAt none ini POWER.pg POWER.CMD_TARGET 0 1)

/-- `POWER_CMD_P2` (R879). A power command to P2 stops LE, PWM, ADC and DSCK and powers down SYSPLL. -/
def execPowerCmdP2 (ini : Initiator) (s : State) : Host.Outcome State Fault Refusal :=
  .next (s.writeAt none ini POWER.pg POWER.CMD_TARGET 0 2)

/-- `POWER_CMD_P3` (R879). A power command to P3 takes a KEEP snapshot and powers down all but AON. -/
def execPowerCmdP3 (ini : Initiator) (s : State) : Host.Outcome State Fault Refusal :=
  .next (s.writeAt none ini POWER.pg POWER.CMD_TARGET 0 3)

/-- `POWER_CMD_P4` (R879). A power command to P4 powers down every domain. -/
def execPowerCmdP4 (ini : Initiator) (s : State) : Host.Outcome State Fault Refusal :=
  .next (s.writeAt none ini POWER.pg POWER.CMD_TARGET 0 4)

/-- `POWER_TRANSITION_DONE` (R879). A power transition ends, setting STATE and PREV and clearing BUSY. -/
def execPowerTransitionDone (s : State) : Host.Outcome State Fault Refusal :=
  .next (s.powerEnd)

/-- `WAKE` (R881). A wake event in P3 releases the device with reset cause 0x06. Operands: 0 Porch A, 1 Porch B, 2 TRIG0. -/
def execWake (src : Fin 3) (s : State) : Host.Outcome State Fault Refusal :=
  .next (s.wake src)

end Sys2Proof.Machine
end

