-- ==== Sys2Proof/Machine/ExecForm.lean ====
section
/-!
DEFINITION. Machine/ExecForm.lean: the meanings of the commands of the Form Units (03, 04), one definition per row.
-/
namespace Sys2Proof.Machine

/-- `FORM_UPDATE` (R148). Every PERIOD ticks the Form Unit samples inputs, applies a commit, integrates the source model and publishes its state and words 3 to 7. -/
def execFormUpdate (n : Fin 2) (s : State) : Host.Outcome State Fault Refusal :=
  .next (s.ifLive fun s => s.formUpdate n)

/-- `FORM_INPUT_LOST` (R127). An input whose result has not advanced for STALE_LIM updates is lost. -/
def execFormInputLost (n : Fin 2) (k : Fin 18) (s : State) : Host.Outcome State Fault Refusal :=
  .next (s.ifLive fun s => s.formInputLost n k)

/-- `ANGLE_LIMIT_TIMEOUT` (R164). ANGLE_LIMIT held for ALIM_TIME puts the unit in FAULT with cause 0x03. -/
def execAngleLimitTimeout (n : Fin 2) (s : State) : Host.Outcome State Fault Refusal :=
  .next (s.ifLive fun s => s.angleTimeout n)

/-- `SLOT_DECAY_END` (R171). The 10 ms linear decay of an inactivated slot's correction ends at zero. -/
def execSlotDecayEnd (n : Fin 2) (k : Fin 24) (s : State) : Host.Outcome State Fault Refusal :=
  .next (s.ifLive fun s => s.slotDecayEnd n k)

/-- `GRID_PRESENT` (R191). The grid becomes present after 40 ms of updates within the magnitude and frequency windows. -/
def execGridPresent (n : Fin 2) (s : State) : Host.Outcome State Fault Refusal :=
  .next (s.ifLive fun s => s.gridPresent n)

/-- `CLOSE_PERMIT_GRANT` (R201). After 40 ms inside every synchronisation window the unit grants close permission. -/
def execClosePermitGrant (n : Fin 2) (s : State) : Host.Outcome State Fault Refusal :=
  .next (s.ifLive fun s => s.permitGrant n)

end Sys2Proof.Machine
end

