-- ==== Sys2Proof/Machine/ExecGdrv.lean ====
section
/-!
DEFINITION. Machine/ExecGdrv.lean: the meanings of the commands of integrated gate drivers (12), one definition per row.
-/
namespace Sys2Proof.Machine

/-- `SWITCHING_PERIOD_START` (R684). At each switching period start an axis computes leg duties and the legs adapt their drive codes. Operands: what each leg index of the axis measured. -/
def execSwitchingPeriodStart (a : Fin 4) (m0 : LegMeasure) (m1 : LegMeasure) (m2 : LegMeasure) (s : State) : Host.Outcome State Fault Refusal :=
  .next (s.ifLive fun s => s.switchingPeriod a m0 m1 m2)

/-- `REFRESH_PULSE` (R653). After PERIOD_US without a low-side interval the leg inserts a refresh pulse. Operands: `dv`: the bootstrap voltage behind the pulse in 0.1 V (R655). -/
def execRefreshPulse (n : Fin 12) (dv : Byte) (s : State) : Host.Outcome State Fault Refusal :=
  .next (s.ifLive fun s => s.refreshDue n dv.toNat)

/-- `BOOT_UV_LOCKOUT` (R654). A bootstrap supply below threshold for 200 ns turns the high side off and sets GD_BOOT_UV. Operands: the leg and its bootstrap voltage. -/
def execBootUvLockout (v : LegSupply) (s : State) : Host.Outcome State Fault Refusal :=
  .next (s.ifLive fun s => s.bootUv v.leg v.dv.toNat)

/-- `VGD_LOCKOUT` (R657). VGD below threshold for 2 µs locks out VGD and puts every leg in OFF. Operands: VGD in 0.1 V. -/
def execVgdLockout (vgd : BitVec 12) (s : State) : Host.Outcome State Fault Refusal :=
  .next (s.ifDie fun s => s.vgdLockout vgd.toNat)

/-- `VGD_LOCKOUT_END` (R657). VGD above threshold plus hysteresis for 10 µs ends the lock-out. Operands: VGD in 0.1 V. -/
def execVgdLockoutEnd (vgd : BitVec 12) (s : State) : Host.Outcome State Fault Refusal :=
  .next (s.ifDie fun s => s.vgdBack vgd.toNat)

/-- `CHOP_ON` (R659). VM_SENSE at or above CHOP_ON for 1 µs turns BRK_O on. Operands: VM_SENSE in 0.1 V. -/
def execChopOn (vm : BitVec 12) (s : State) : Host.Outcome State Fault Refusal :=
  .next (s.ifDie fun s => s.chopOn vm.toNat)

/-- `CHOP_OFF` (R659). VM_SENSE at or below CHOP_OFF for 1 µs turns BRK_O off. Operands: VM_SENSE in 0.1 V. -/
def execChopOff (vm : BitVec 12) (s : State) : Host.Outcome State Fault Refusal :=
  .next (s.ifDie fun s => s.chopOff vm.toNat)

/-- `CHOP_LIMIT` (R660). BRK_O on for MAX_ON_MS is turned off for REST_MS and sets CHOP_LIMIT. -/
def execChopLimit (s : State) : Host.Outcome State Fault Refusal :=
  .next (s.ifDie fun s => s.chopLimit)

/-- `CHOP_REST_END` (R660). The REST_MS rest of the chopper ends. Operands: VM_SENSE in 0.1 V. -/
def execChopRestEnd (vm : BitVec 12) (s : State) : Host.Outcome State Fault Refusal :=
  .next (s.ifDie fun s => s.chopRestEnd vm.toNat)

/-- `MBOV_TRIP` (R661). VM_SENSE at or above OV_TRIP for 1 µs latches MBOV and puts legs in OFF or BRAKE. Operands: VM_SENSE in 0.1 V. -/
def execMbovTrip (vm : BitVec 12) (s : State) : Host.Outcome State Fault Refusal :=
  .next (s.ifDie fun s => s.mbovTrip vm.toNat)

/-- `CLEAR_OV` (R662). A write of CLEAR_OV clears MBOV when the bus is below CHOP_OFF. Operands: VM_SENSE in 0.1 V. -/
def execClearOv (ini : Initiator) (vm : BitVec 12) (s : State) : Host.Outcome State Fault Refusal :=
  .next (s.writeAt (some { vm := vm.toNat }) ini CHIMNEY.pg CHIMNEY.CTRL_CLEAR_OV 0 1)

/-- `CLEAR_FIRST` (R671). A write of CLEAR_FIRST re-arms the first-fault record. -/
def execClearFirst (ini : Initiator) (s : State) : Host.Outcome State Fault Refusal :=
  .next (s.writeAt none ini CHIMNEY.pg CHIMNEY.CTRL_CLEAR_FIRST 0 2)

/-- `DIAG` (R664). A write of CTRL.DIAG starts the off-state diagnostics of a leg. Operands: VM_SENSE in 0.1 V. -/
def execDiag (ini : Initiator) (n : Fin 12) (vm : BitVec 12) (s : State) : Host.Outcome State Fault Refusal :=
  .next (s.writeAt (some { vm := vm.toNat }) ini (GDRV.pg n) GDRV.CTRL_EN 0 (s.ctrlWith (GDRV.pg n) GDRV.CTRL_EN 4))

/-- `DIAG_PHASE_END` (R664). A diagnostic phase ends after PHASE_US and is evaluated. Operands: GD_VSn and VM_SENSE in 0.1 V. -/
def execDiagPhaseEnd (n : Fin 12) (vs : Int) (vm : BitVec 12) (s : State) : Host.Outcome State Fault Refusal :=
  .next (s.ifLive fun s => s.diagPhase n vs vm.toNat)

/-- `VDS_FAULT` (R667). A drain-source voltage above threshold after blanking faults the leg and puts its axis legs in OFF. Operands: the side and its voltage, which has stood for 40 ns. -/
def execVdsFault (n : Fin 12) (d : DrainDrop) (s : State) : Host.Outcome State Fault Refusal :=
  .next (s.ifLive fun s => s.vdsFault n d)

/-- `HARD_SHORT` (R668). A drain-source voltage above 4 V for 50 ns faults the leg. Operands: the side and its voltage, which has stood for 50 ns. -/
def execHardShort (n : Fin 12) (d : DrainDrop) (s : State) : Host.Outcome State Fault Refusal :=
  .next (s.ifLive fun s => s.hardShort n d)

/-- `GDRV_CLEAR` (R673). A write of CTRL.CLEAR moves a leg from FAULT to OFF. -/
def execGdrvClear (ini : Initiator) (n : Fin 12) (s : State) : Host.Outcome State Fault Refusal :=
  .next (s.writeAt none ini (GDRV.pg n) GDRV.CTRL_EN 0 (s.ctrlWith (GDRV.pg n) GDRV.CTRL_EN 2))

end Sys2Proof.Machine
end

