-- ==== Sys2Proof/WellFormed.lean ====
section
/-!
DEFINITION. WellFormed.lean: the commands that a sender can form: the limits the spec gives the operands which their types do
not give.
-/
namespace Sys2Proof

/-- A PCI Express request (R67 to R69): it has at least one DWORD and at most 1,024, lies within its BAR (R67: 16 MiB and 8 MiB),
starts at a DWORD, and brings one word per DWORD if it is a write and none if it is a read. -/
def PcieReq.wf (r : PcieReq) : Bool :=
  decide (1 ≤ r.be.length) && decide (r.be.length ≤ 1024) && decide (r.offset.toNat % 4 = 0) &&
    decide (r.offset.toNat + 4 * r.be.length ≤ if r.bar2 then 8388608 else 16777216) &&
    decide (r.data.length = if r.write then r.be.length else 0)

/-- An address of the register window (R115, R116): on a register, below 0x4100_0000. -/
def regAddrOk (addr : Word) : Bool := decide (0x40000000 ≤ addr.toNat) && decide (addr.toNat < 0x41000000) && decide (addr.toNat % 4 = 0)

/-- A command byte that R73 does not list. -/
def qspiUnknownOk (code : Byte) : Bool := !([0x0B#8, 0x02#8, 0x05#8, 0x9F#8, 0x99#8].contains code)

/-- One list of bits for each of the 24 metrology channels (R535). -/
def metroBitsOk (bits : List (List Bool)) : Bool := decide (bits.length = 24)

/-- No pair and no core is named twice. -/
def haltListsOk (pairs : List Pair) (cores : List Core) : Bool := decide pairs.Nodup && decide cores.Nodup

/-- A command that a sender can form. -/
def Instr.wf : Instr → Bool
  | .registerWrite _ addr _ _ => regAddrOk addr
  | .readClear _ addr => regAddrOk addr
  | .pcieRequest _ r => r.wf
  | .qspiUnknownCommand _ code => qspiUnknownOk code
  | .metroSample bits => metroBitsOk bits
  | .haltRelease pairs cores => haltListsOk pairs cores
  | _ => true

end Sys2Proof
end

