-- ==== Sys2Proof/Machine/ExecHost.lean ====
section
/-!
DEFINITION. Machine/ExecHost.lean: the meanings of the commands of accesses and the host ports (02), one definition per row.
-/
namespace Sys2Proof.Machine

/-- `REGISTER_WRITE` (R103). A write to a register field without a row of its own is checked (clock, lock, key, mode) and then takes effect or is staged as its access code says. Operands: a write of a register of the register window. -/
def execRegisterWrite (ini : Initiator) (addr : Word) (v : Word) (x : Crossing) (s : State) : Host.Outcome State Fault Refusal :=
  if regAddrOk addr then .next ((s.ifLive (·.crossing x)).writeReg none ini addr.toNat v.toNat) else .fault .illFormed

/-- `READ_CLEAR` (R1). A read of an RC field returns its state and clears it to its reset value. -/
def execReadClear (ini : Initiator) (addr : Word) (s : State) : Host.Outcome State Fault Refusal :=
  if regAddrOk addr then .next (s.readReg ini addr.toNat) else .fault .illFormed

/-- `SHADOW_COMMIT` (R105). A write of 1 to SHADOW_COMMIT checks the staged fields for range and consistency, and either refuses the commit or accepts it and sets COMMIT_PENDING. Operands: on page number `pg`. -/
def execShadowCommit (ini : Initiator) (pg : BitVec 12) (s : State) : Host.Outcome State Fault Refusal :=
  .next (s.writeAt none ini (pg.toNat) HDR.SHADOW_COMMIT_COMMIT 0 1)

/-- `PAGE_LOCK` (R100). A write of 1 to PAGE_LOCK.LOCKED locks the page's RWL fields until reset. -/
def execPageLock (ini : Initiator) (pg : BitVec 12) (s : State) : Host.Outcome State Fault Refusal :=
  .next (s.writeAt none ini (pg.toNat) HDR.PAGE_LOCK_LOCKED 0 1)

/-- `KEY_TAKE` (R88). A read of KEYRACK.KEYn grants the key to the reader if it is free or already held by the reader, and returns GRANTED, HELD and HOLDER. -/
def execKeyTake (ini : Initiator) (n : Fin 64) (s : State) : Host.Outcome State Fault Refusal :=
  .next (s.readAt ini KEYRACK.pg KEYRACK.KEY_BITS n)

/-- `KEY_RELEASE` (R90). A write to KEYRACK.KEYn by the holder releases the key; a write by another initiator is refused with 0x01. -/
def execKeyRelease (ini : Initiator) (n : Fin 64) (s : State) : Host.Outcome State Fault Refusal :=
  .next (s.writeAt none ini KEYRACK.pg KEYRACK.KEY_BITS n 0)

/-- `RELEASE_MINE` (R99). A write of RELEASE_MINE.GO releases every key that the writer holds. -/
def execReleaseMine (ini : Initiator) (s : State) : Host.Outcome State Fault Refusal :=
  .next (s.writeAt none ini KEYRACK.pg KEYRACK.RELEASE_MINE_GO 0 1)

/-- `FORCE_RELEASE` (R94). A write of FORCE_RELEASE with GO from a host port or the security core releases the named key and counts it. -/
def execForceRelease (ini : Initiator) (n : Fin 64) (s : State) : Host.Outcome State Fault Refusal :=
  .next (s.writeAt none ini KEYRACK.pg KEYRACK.FORCE_RELEASE_KEY 0 (2 ^ 31 + n.val))

/-- `STAMP_READ` (R790). A read of REDUN.STAMPs returns the RSEQ of the stream and advances its index in the set cycle. -/
def execStampRead (ini : Initiator) (k : Fin 8) (s : State) : Host.Outcome State Fault Refusal :=
  .next (s.readAt ini REDUN.pg REDUN.STAMP_RSEQ k)

/-- `CYC_LO_READ` (R39). A read of SYS.CYC_LO returns CYC[31:0] and snapshots CYC[63:32] into CYC_HI. -/
def execCycLoRead (ini : Initiator) (s : State) : Host.Outcome State Fault Refusal :=
  .next (s.readAt ini SYS.pg SYS.CYC_LO_CYC_LO 0)

/-- `NEXT_SEQ_LO_READ` (R589). A read of METRO.NEXT_SEQ_LO snapshots NEXT_SEQ_HI. -/
def execNextSeqLoRead (ini : Initiator) (s : State) : Host.Outcome State Fault Refusal :=
  .next (s.readAt ini METRO.pg METRO.NEXT_SEQ_LO_SEQ 0)

/-- `IMP_LO_READ` (R589). A read of METRO.IMPm_LO snapshots IMPm_HI, EXPm_LO and EXPm_HI from the same sample. -/
def execImpLoRead (ini : Initiator) (m : Fin 9) (s : State) : Host.Outcome State Fault Refusal :=
  .next (s.readAt ini METRO.pg METRO.IMP_LO_VALUE m)

/-- `TIME_NS_READ` (R844). A read of PTP.TIME_NS snapshots TIME_S_LO and TIME_S_HI. -/
def execTimeNsRead (ini : Initiator) (s : State) : Host.Outcome State Fault Refusal :=
  .next (s.readAt ini PTP.pg PTP.TIME_NS_NS 0)

/-- `OFFSET_LO_READ` (R844). A read of PTP.OFFSET_LO snapshots OFFSET_HI. -/
def execOffsetLoRead (ini : Initiator) (s : State) : Host.Outcome State Fault Refusal :=
  .next (s.readAt ini PTP.pg PTP.OFFSET_LO_PS 0)

/-- `JUMP_PEND_LO_READ` (R844). A read of PTP.JUMP_PEND_LO snapshots JUMP_PEND_HI. -/
def execJumpPendLoRead (ini : Initiator) (s : State) : Host.Outcome State Fault Refusal :=
  .next (s.readAt ini PTP.pg PTP.JUMP_PEND_LO_NS 0)

/-- `PCIE_REQUEST` (R69). A PCI Express request on BAR0 or BAR2 is checked for size, alignment and region and served DWORD by DWORD, with errors logged once per request. -/
def execPcieRequest (p : HostPort) (r : PcieReq) (s : State) : Host.Outcome State Fault Refusal :=
  if r.wf then .next (s.pcie p r) else .fault .illFormed

/-- `PCIE_LINK_UP` (R86). The PCI Express link trains and its data link layer becomes active, setting LINK.UP and SPEED. -/
def execPcieLinkUp (p : HostPort) (gen2 : Bool) (s : State) : Host.Outcome State Fault Refusal :=
  .next (s.pcieUp p gen2)

/-- `PCIE_LINK_DOWN` (R70). A hot reset or link-down aborts the port's outstanding requests, releases its keys and sets LINK_CHANGE. -/
def execPcieLinkDown (p : HostPort) (s : State) : Host.Outcome State Fault Refusal :=
  .next (s.pcieDown p)

/-- `QSPI_READ` (R75). A quad-SPI READ frame reads words from successive addresses, each preceded by wait and sync bytes, for as long as the host clocks. Operands: `words` words are clocked; `abandoned`: CS_N rises while a further word is pending (R78). -/
def execQspiRead (p : HostPort) (addr : Word) (words : Nat) (abandoned : Bool) (upsets : List Upset) (s : State) : Host.Outcome State Fault Refusal :=
  .next (s.qspiRead p addr words abandoned upsets)

/-- `QSPI_WRITE` (R77). A quad-SPI WRITE frame writes up to 16 words, each after its fourth data byte, discarding misaligned, partial or excess data with errors. -/
def execQspiWrite (p : HostPort) (addr : Word) (bytes : List Byte) (upsets : List Upset) (s : State) : Host.Outcome State Fault Refusal :=
  .next (s.qspiWrite p addr bytes upsets)

/-- `QSPI_STATUS` (R73). A quad-SPI STATUS frame returns PORCHn.ERR_CODE without a bus access and without clearing it. -/
def execQspiStatus (p : HostPort) (s : State) : Host.Outcome State Fault Refusal :=
  .next (s.qspiStatus p)

/-- `QSPI_ID` (R73). A quad-SPI ID frame returns SYS.DEVICE_ID from inside the port. -/
def execQspiId (p : HostPort) (s : State) : Host.Outcome State Fault Refusal :=
  .next (s.qspiId p)

/-- `RELEASE_ALL` (R73). A quad-SPI RELEASE_ALL frame releases every key held by the port and clears ERR_CODE. -/
def execReleaseAll (p : HostPort) (s : State) : Host.Outcome State Fault Refusal :=
  .next (s.releaseAll p)

/-- `QSPI_UNKNOWN_COMMAND` (R73). A quad-SPI frame with an unlisted command byte sets error code 0x5 and is ignored until CS_N rises. -/
def execQspiUnknownCommand (p : HostPort) (code : Byte) (s : State) : Host.Outcome State Fault Refusal :=
  if qspiUnknownOk code then .next (s.qspiUnknown p code) else .fault .illFormed

/-- `HOST_ACCESS_TIMEOUT` (R80). A host access not completed within 100 µs ends with an error response and logs error code 0x1. -/
def execHostAccessTimeout (p : HostPort) (s : State) : Host.Outcome State Fault Refusal :=
  .next (s.ifLive fun s => s.accessTimeout p)

/-- `EOI` (R113). A write of IRQ.EOIt ends service and re-arms the MSI of the target. -/
def execEoi (ini : Initiator) (t : Fin 4) (s : State) : Host.Outcome State Fault Refusal :=
  .next (s.writeAt none ini IRQ.pg IRQ.EOI_EOI t 0)

/-- `DOORBELL` (R114). A write of IRQ.DOORBELL sets doorbell source SRC, or is refused with 0x03 below 192. -/
def execDoorbell (ini : Initiator) (src : Byte) (s : State) : Host.Outcome State Fault Refusal :=
  .next (s.writeAt none ini IRQ.pg IRQ.DOORBELL_SRC 0 src.toNat)

end Sys2Proof.Machine
end

