-- ==== Sys2Proof/Machine/ExecLoop.lean ====
section
/-!
DEFINITION. Machine/ExecLoop.lean: the meanings of the commands of the loop engines and the Loop Program Store (05, 06), one definition per row.
-/
namespace Sys2Proof.Machine

/-- `LE_TRIGGER` (R246). A source event is counted by the engine's divider and, when selected, starts a run or is held pending. -/
def execLeTrigger (n : Fin 16) (s : State) : Host.Outcome State Fault Refusal :=
  .next (s.inDomain 1 fun s => s.leTrigger n)

/-- `LE_RUN_START` (R256). At a run start the engine copies slots and set points, updates AGE and ramps, evaluates staleness and issues the first instruction. -/
def execLeRunStart (n : Fin 16) (s : State) : Host.Outcome State Fault Refusal :=
  .next (s.inDomain 1 fun s => s.leRunStart n)

/-- `SP_TARGET_WRITE` (R266). A write of SPs.TARGET reaches the back buffer and takes effect at the next snapshot. Operands: `portToo`: an output port wrote the same slot in the same cycle. -/
def execSpTargetWrite (ini : Initiator) (n : Fin 16) (k : Fin 8) (v : Word) (portToo : Bool) (s : State) : Host.Outcome State Fault Refusal :=
  .next (s.writeAt (some { portToo := portToo }) ini (LE.pg n) LE.SP_TARGET_VALUE k v.toNat)

/-- `COEF_SWAP` (R291). A write of CTRL.COEF_SWAP in CLOSED requests a coefficient copy from COEF_STAGE and enters OPEN at the end of the run. -/
def execCoefSwap (ini : Initiator) (n : Fin 16) (s : State) : Host.Outcome State Fault Refusal :=
  .next (s.writeAt none ini (LE.pg n) LE.CTRL_EN 0 (s.ctrlWith (LE.pg n) LE.CTRL_EN 2))

/-- `COEF_COPY_DONE` (R293). The coefficient copy completes, COEF_MASTER takes COEF_STAGE and the next run is a tracking run. -/
def execCoefCopyDone (n : Fin 16) (s : State) : Host.Outcome State Fault Refusal :=
  .next (s.inDomain 1 fun s => s.coefCopyDone n)

/-- `RESUME` (R264). A write of CTRL.RESUME leaves FALLBACK when no watched slot is stale. -/
def execResume (ini : Initiator) (n : Fin 16) (s : State) : Host.Outcome State Fault Refusal :=
  .next (s.writeAt none ini (LE.pg n) LE.CTRL_EN 0 (s.ctrlWith (LE.pg n) LE.CTRL_EN 4))

/-- `NOP` (R328). Occupies 1 + IMM[7:0] cycles with no result. Operands: engine `n` issues it; the upsets it meets. -/
def execNop (n : Fin 16) (up : LeUpset) (s : State) : Host.Outcome State Fault Refusal :=
  .next (s.inDomain 1 fun s => s.leIssue n 0x00 bodyNop up)

/-- `MOV` (R328). Copies operand A into Gd. Operands: engine `n` issues it; the upsets it meets. -/
def execMov (n : Fin 16) (up : LeUpset) (s : State) : Host.Outcome State Fault Refusal :=
  .next (s.inDomain 1 fun s => s.leIssue n 0x01 bodyMov up)

/-- `SEL` (R328). Writes A or B into Gd by a predicate. Operands: engine `n` issues it; the upsets it meets. -/
def execSel (n : Fin 16) (up : LeUpset) (s : State) : Host.Outcome State Fault Refusal :=
  .next (s.inDomain 1 fun s => s.leIssue n 0x02 bodySel up)

/-- `FCMP` (R328). Compares two floats and writes the result into a predicate. Operands: engine `n` issues it; the upsets it meets. -/
def execFcmp (n : Fin 16) (up : LeUpset) (s : State) : Host.Outcome State Fault Refusal :=
  .next (s.inDomain 1 fun s => s.leIssue n 0x03 bodyFcmp up)

/-- `QCMP` (R328). Compares two Q31 values and writes the result into a predicate. Operands: engine `n` issues it; the upsets it meets. -/
def execQcmp (n : Fin 16) (up : LeUpset) (s : State) : Host.Outcome State Fault Refusal :=
  .next (s.inDomain 1 fun s => s.leIssue n 0x04 bodyQcmp up)

/-- `PLOG` (R328). Combines two predicates into a third. Operands: engine `n` issues it; the upsets it meets. -/
def execPlog (n : Fin 16) (up : LeUpset) (s : State) : Host.Outcome State Fault Refusal :=
  .next (s.inDomain 1 fun s => s.leIssue n 0x05 bodyPlog up)

/-- `LD` (R328). Loads a data-memory word into Gd. Operands: engine `n` issues it; the upsets it meets. -/
def execLd (n : Fin 16) (up : LeUpset) (s : State) : Host.Outcome State Fault Refusal :=
  .next (s.inDomain 1 fun s => s.leIssue n 0x06 bodyLd up)

/-- `ST` (R328). Stores A into a data-memory word. Operands: engine `n` issues it; the upsets it meets. -/
def execSt (n : Fin 16) (up : LeUpset) (s : State) : Host.Outcome State Fault Refusal :=
  .next (s.inDomain 1 fun s => s.leIssue n 0x07 bodySt up)

/-- `FADD` (R328). Float addition into Gd. Operands: engine `n` issues it; the upsets it meets. -/
def execFadd (n : Fin 16) (up : LeUpset) (s : State) : Host.Outcome State Fault Refusal :=
  .next (s.inDomain 1 fun s => s.leIssue n 0x08 bodyFadd up)

/-- `FSUB` (R328). Float subtraction into Gd. Operands: engine `n` issues it; the upsets it meets. -/
def execFsub (n : Fin 16) (up : LeUpset) (s : State) : Host.Outcome State Fault Refusal :=
  .next (s.inDomain 1 fun s => s.leIssue n 0x09 bodyFsub up)

/-- `FMUL` (R328). Float multiplication into Gd. Operands: engine `n` issues it; the upsets it meets. -/
def execFmul (n : Fin 16) (up : LeUpset) (s : State) : Host.Outcome State Fault Refusal :=
  .next (s.inDomain 1 fun s => s.leIssue n 0x0A bodyFmul up)

/-- `FMAC` (R328). Fused float multiply-add into Gd. Operands: engine `n` issues it; the upsets it meets. -/
def execFmac (n : Fin 16) (up : LeUpset) (s : State) : Host.Outcome State Fault Refusal :=
  .next (s.inDomain 1 fun s => s.leIssue n 0x0B bodyFmac up)

/-- `FMIN` (R328). Float minimum into Gd. Operands: engine `n` issues it; the upsets it meets. -/
def execFmin (n : Fin 16) (up : LeUpset) (s : State) : Host.Outcome State Fault Refusal :=
  .next (s.inDomain 1 fun s => s.leIssue n 0x0C bodyFmin up)

/-- `FMAX` (R328). Float maximum into Gd. Operands: engine `n` issues it; the upsets it meets. -/
def execFmax (n : Fin 16) (up : LeUpset) (s : State) : Host.Outcome State Fault Refusal :=
  .next (s.inDomain 1 fun s => s.leIssue n 0x0D bodyFmax up)

/-- `FCLAMP` (R328). Clamps A between B and C into Gd. Operands: engine `n` issues it; the upsets it meets. -/
def execFclamp (n : Fin 16) (up : LeUpset) (s : State) : Host.Outcome State Fault Refusal :=
  .next (s.inDomain 1 fun s => s.leIssue n 0x0E bodyFclamp up)

/-- `FABS` (R328). Float absolute value into Gd. Operands: engine `n` issues it; the upsets it meets. -/
def execFabs (n : Fin 16) (up : LeUpset) (s : State) : Host.Outcome State Fault Refusal :=
  .next (s.inDomain 1 fun s => s.leIssue n 0x0F bodyFabs up)

/-- `FNEG` (R328). Float negation into Gd. Operands: engine `n` issues it; the upsets it meets. -/
def execFneg (n : Fin 16) (up : LeUpset) (s : State) : Host.Outcome State Fault Refusal :=
  .next (s.inDomain 1 fun s => s.leIssue n 0x10 bodyFneg up)

/-- `FDIV` (R328). Float division into Gd in 8 cycles. Operands: engine `n` issues it; the upsets it meets. -/
def execFdiv (n : Fin 16) (up : LeUpset) (s : State) : Host.Outcome State Fault Refusal :=
  .next (s.inDomain 1 fun s => s.leIssue n 0x11 bodyFdiv up)

/-- `FSQRT` (R328). Float square root into Gd in 8 cycles. Operands: engine `n` issues it; the upsets it meets. -/
def execFsqrt (n : Fin 16) (up : LeUpset) (s : State) : Host.Outcome State Fault Refusal :=
  .next (s.inDomain 1 fun s => s.leIssue n 0x12 bodyFsqrt up)

/-- `QADD` (R328). Saturating Q31 addition into Gd. Operands: engine `n` issues it; the upsets it meets. -/
def execQadd (n : Fin 16) (up : LeUpset) (s : State) : Host.Outcome State Fault Refusal :=
  .next (s.inDomain 1 fun s => s.leIssue n 0x13 bodyQadd up)

/-- `QSUB` (R328). Saturating Q31 subtraction into Gd. Operands: engine `n` issues it; the upsets it meets. -/
def execQsub (n : Fin 16) (up : LeUpset) (s : State) : Host.Outcome State Fault Refusal :=
  .next (s.inDomain 1 fun s => s.leIssue n 0x14 bodyQsub up)

/-- `QMUL` (R326). Rounded saturating Q31 multiplication into Gd. Operands: engine `n` issues it; the upsets it meets. -/
def execQmul (n : Fin 16) (up : LeUpset) (s : State) : Host.Outcome State Fault Refusal :=
  .next (s.inDomain 1 fun s => s.leIssue n 0x15 bodyQmul up)

/-- `QMAC` (R326). Saturating Q31 multiply-add into Gd. Operands: engine `n` issues it; the upsets it meets. -/
def execQmac (n : Fin 16) (up : LeUpset) (s : State) : Host.Outcome State Fault Refusal :=
  .next (s.inDomain 1 fun s => s.leIssue n 0x16 bodyQmac up)

/-- `QSHL` (R328). Saturating Q31 left shift into Gd. Operands: engine `n` issues it; the upsets it meets. -/
def execQshl (n : Fin 16) (up : LeUpset) (s : State) : Host.Outcome State Fault Refusal :=
  .next (s.inDomain 1 fun s => s.leIssue n 0x17 bodyQshl up)

/-- `QSHR` (R328). Arithmetic Q31 right shift into Gd. Operands: engine `n` issues it; the upsets it meets. -/
def execQshr (n : Fin 16) (up : LeUpset) (s : State) : Host.Outcome State Fault Refusal :=
  .next (s.inDomain 1 fun s => s.leIssue n 0x18 bodyQshr up)

/-- `QABS` (R328). Saturating Q31 absolute value into Gd. Operands: engine `n` issues it; the upsets it meets. -/
def execQabs (n : Fin 16) (up : LeUpset) (s : State) : Host.Outcome State Fault Refusal :=
  .next (s.inDomain 1 fun s => s.leIssue n 0x19 bodyQabs up)

/-- `I2F` (R327). Converts a signed integer to binary32 scaled by 2^−IMM. Operands: engine `n` issues it; the upsets it meets. -/
def execI2f (n : Fin 16) (up : LeUpset) (s : State) : Host.Outcome State Fault Refusal :=
  .next (s.inDomain 1 fun s => s.leIssue n 0x1A bodyI2f up)

/-- `Q2F` (R327). Converts Q31 to binary32. Operands: engine `n` issues it; the upsets it meets. -/
def execQ2f (n : Fin 16) (up : LeUpset) (s : State) : Host.Outcome State Fault Refusal :=
  .next (s.inDomain 1 fun s => s.leIssue n 0x1B bodyQ2f up)

/-- `F2Q` (R327). Converts binary32 to saturated Q31. Operands: engine `n` issues it; the upsets it meets. -/
def execF2q (n : Fin 16) (up : LeUpset) (s : State) : Host.Outcome State Fault Refusal :=
  .next (s.inDomain 1 fun s => s.leIssue n 0x1C bodyF2q up)

/-- `SINCOS` (R329). Writes sin A and cos A into Gd and Gd+1 in 12 cycles. Operands: engine `n` issues it; the upsets it meets. -/
def execSincos (n : Fin 16) (up : LeUpset) (s : State) : Host.Outcome State Fault Refusal :=
  .next (s.inDomain 1 fun s => s.leIssue n 0x20 bodySincos up)

/-- `CLARKE` (R330). Forms α and β from three phase values. Operands: engine `n` issues it; the upsets it meets. -/
def execClarke (n : Fin 16) (up : LeUpset) (s : State) : Host.Outcome State Fault Refusal :=
  .next (s.inDomain 1 fun s => s.leIssue n 0x21 bodyClarke up)

/-- `ICLARKE` (R330). Forms three phase values from α and β. Operands: engine `n` issues it; the upsets it meets. -/
def execIclarke (n : Fin 16) (up : LeUpset) (s : State) : Host.Outcome State Fault Refusal :=
  .next (s.inDomain 1 fun s => s.leIssue n 0x22 bodyIclarke up)

/-- `PARK` (R331). Forms d and q from α, β and sin/cos θ. Operands: engine `n` issues it; the upsets it meets. -/
def execPark (n : Fin 16) (up : LeUpset) (s : State) : Host.Outcome State Fault Refusal :=
  .next (s.inDomain 1 fun s => s.leIssue n 0x23 bodyPark up)

/-- `IPARK` (R331). Forms α and β from d, q and sin/cos θ. Operands: engine `n` issues it; the upsets it meets. -/
def execIpark (n : Fin 16) (up : LeUpset) (s : State) : Host.Outcome State Fault Refusal :=
  .next (s.inDomain 1 fun s => s.leIssue n 0x24 bodyIpark up)

/-- `INTEG` (R333). Saturating integrator with start and tracking presets. Operands: engine `n` issues it; the upsets it meets. -/
def execInteg (n : Fin 16) (up : LeUpset) (s : State) : Host.Outcome State Fault Refusal :=
  .next (s.inDomain 1 fun s => s.leIssue n 0x25 bodyInteg up)

/-- `RESON` (R335). Resonant term updating two state words. Operands: engine `n` issues it; the upsets it meets. -/
def execReson (n : Fin 16) (up : LeUpset) (s : State) : Host.Outcome State Fault Refusal :=
  .next (s.inDomain 1 fun s => s.leIssue n 0x26 bodyReson up)

/-- `RLIM` (R336). Rate limiter on a state word. Operands: engine `n` issues it; the upsets it meets. -/
def execRlim (n : Fin 16) (up : LeUpset) (s : State) : Host.Outcome State Fault Refusal :=
  .next (s.inDomain 1 fun s => s.leIssue n 0x27 bodyRlim up)

/-- `OUT` (R271). Writes A to an output port, which clamps, blends and delivers it to a PWM compare or a set-point slot. Operands: engine `n` issues it; the upsets it meets. -/
def execOut (n : Fin 16) (up : LeUpset) (s : State) : Host.Outcome State Fault Refusal :=
  .next (s.inDomain 1 fun s => s.leIssue n 0x30 bodyOut up)

/-- `END` (R313). Ends the run. Operands: engine `n` issues it; the upsets it meets. -/
def execEndRun (n : Fin 16) (up : LeUpset) (s : State) : Host.Outcome State Fault Refusal :=
  .next (s.inDomain 1 fun s => s.leIssue n 0x3E bodyEnd up)

/-- `LPS_REFETCH` (R348). A fetch parity error stalls 40 cycles while the word is reread from its master image, rewritten and issued. Operands: `again`: the word read from the master image fails too. -/
def execLpsRefetch (n : Fin 16) (again : Bool) (s : State) : Host.Outcome State Fault Refusal :=
  .next (s.inDomain 1 fun s => s.fetchError n again)

/-- `LOAD` (R340). A write of LPS.LOAD_CMD with GO starts a LOAD of banks from a master image, or is refused. -/
def execLoad (ini : Initiator) (first : BitVec 4) (count : BitVec 5) (s : State) : Host.Outcome State Fault Refusal :=
  .next (s.writeAt none ini LPS.pg LPS.LOAD_CMD_GO 0 (first.toNat + 16 * count.toNat + 2 ^ 31))

/-- `LOAD_DONE` (R341). A LOAD completes its copy and check, sets RESULT, WORD, VALID and BANKMASTER, and raises LOAD_DONE or LOAD_FAIL. -/
def execLoadDone (s : State) : Host.Outcome State Fault Refusal :=
  .next (s.ifLive fun s => s.loadDone)

/-- `LIB_COPY` (R346). A write of LPS.LIB_CMD with GO copies a library program into Main SRAM. -/
def execLibCopy (ini : Initiator) (id : Byte) (s : State) : Host.Outcome State Fault Refusal :=
  .next (s.writeAt none ini LPS.pg LPS.LIB_CMD_GO 0 (id.toNat + 2 ^ 31))

/-- `LIB_DONE` (R346). The library copy completes and sets RESULT, WORDS and LIB_DONE. -/
def execLibDone (s : State) : Host.Outcome State Fault Refusal :=
  .next (s.ifLive fun s => s.libDone)

/-- `INJECT` (R356). A write of LPS.INJECT arms a parity error on the next access of a kind by an engine. -/
def execInject (ini : Initiator) (v : Word) (s : State) : Host.Outcome State Fault Refusal :=
  .next (s.writeAt none ini LPS.pg LPS.INJECT_ARM 0 v.toNat)

end Sys2Proof.Machine
end

