-- ==== Sys2Proof/Machine/ExecMeasure.lean ====
section
/-!
DEFINITION. Machine/ExecMeasure.lean: the meanings of the commands of SAR converters and delta-sigma filters (08), one definition per row.
-/
namespace Sys2Proof.Machine

/-- `SAR_REGULAR_TRIGGER` (R427). A regular trigger starts the regular sequence or is held pending or discarded. -/
def execSarRegularTrigger (u : Fin 6) (s : State) : Host.Outcome State Fault Refusal :=
  .next (s.inDomain 6 fun s => s.sarRegEvent u)

/-- `SAR_INJECTED_TRIGGER` (R432). An injected trigger starts the injected sequence, aborting or waiting for a regular conversion. -/
def execSarInjectedTrigger (u : Fin 6) (s : State) : Host.Outcome State Fault Refusal :=
  .next (s.inDomain 6 fun s => s.sarInjEvent u)

/-- `SWTRIG_REG` (R440). A write of CTRL.SWTRIG_REG triggers the regular sequence. -/
def execSwtrigReg (ini : Initiator) (u : Fin 6) (s : State) : Host.Outcome State Fault Refusal :=
  .next (s.writeAt none ini (SAR.pg u) SAR.CTRL_EN 0 (s.ctrlWith (SAR.pg u) SAR.CTRL_EN 2))

/-- `SWTRIG_INJ` (R440). A write of CTRL.SWTRIG_INJ triggers the injected sequence. -/
def execSwtrigInj (ini : Initiator) (u : Fin 6) (s : State) : Host.Outcome State Fault Refusal :=
  .next (s.writeAt none ini (SAR.pg u) SAR.CTRL_EN 0 (s.ctrlWith (SAR.pg u) SAR.CTRL_EN 4))

/-- `SAR_CONVERSION_COMPLETE` (R420). A SAR conversion reaches its conversion complete instant and the next conversion starts. Operands: the raw code; of the pilot lines that this member does not drive, those of which it is a high sample and those of which it is a low one. -/
def execSarConversionComplete (u : Fin 6) (code : BitVec 12) (hi lo : BitVec 8) (s : State) : Host.Outcome State Fault Refusal :=
  .next (s.inDomain 6 fun s => (s.pilotSample u code hi lo).sarComplete u code)

/-- `DSF_WINDOW_END` (R451). A DSF channel ends its decimation window and writes its result to every destination as a completion event. Operands: the bits captured since the last command of the channel; the period of a received modulator clock, in steps of 31.25 ps. -/
def execDsfWindowEnd (b : Fin 6) (c : Fin 8) (bits : List Bool) (ck : Nat) (s : State) : Host.Outcome State Fault Refusal :=
  .next (s.inDomain 8 fun s => (s.dsfBits b c bits).dsfWindow b c ck)

/-- `DSF_STUCK` (R458). The 64th consecutive identical bit makes a channel STUCK and invalid. Operands: the bits captured since the last command of the channel. -/
def execDsfStuck (b : Fin 6) (c : Fin 8) (bits : List Bool) (s : State) : Host.Outcome State Fault Refusal :=
  .next (s.inDomain 8 fun s => s.dsfBits b c bits)

/-- `DSF_STUCK_END` (R458). The first differing bit ends the STUCK condition and starts settling. Operands: the bits captured since the last command of the channel. -/
def execDsfStuckEnd (b : Fin 6) (c : Fin 8) (bits : List Bool) (s : State) : Host.Outcome State Fault Refusal :=
  .next (s.inDomain 8 fun s => s.dsfBits b c bits)

/-- `DSF_NO_CLK` (R459). No clock edge for four nominal periods makes a bank's channels NO_CLK and invalid. -/
def execDsfNoClk (b : Fin 6) (s : State) : Host.Outcome State Fault Refusal :=
  .next (s.ifLive fun s => s.dsfLost b)

/-- `DSF_CLOCK_RETURN` (R459). Clock edges return, ending NO_CLK and restarting the window count and settling. -/
def execDsfClockReturn (b : Fin 6) (s : State) : Host.Outcome State Fault Refusal :=
  .next (s.inDomain 8 fun s => s.dsfClockReturn b)

/-- `CMP_DECISION` (R464). A fast comparator's CMP_OUT changes after COUNT consecutive evaluations. Operands: the bits captured since the last command of the channel. -/
def execCmpDecision (b : Fin 6) (c : Fin 8) (bits : List Bool) (s : State) : Host.Outcome State Fault Refusal :=
  .next (s.inDomain 8 fun s => s.dsfBits b c bits)

end Sys2Proof.Machine
end

