-- ==== Sys2Proof/Machine/ExecMetro.lean ====
section
/-!
DEFINITION. Machine/ExecMetro.lean: the meanings of the commands of metrology and the Pantry (10), one definition per row.
-/
namespace Sys2Proof.Machine

/-- `METRO_SAMPLE` (R542). At each 25 µs sample instant the datapath forms each meter's power and accumulates energy. Operands: the bits of each metrology channel since the last sample instant; none where the clock is absent. -/
def execMetroSample (bits : List (List Bool)) (s : State) : Host.Outcome State Fault Refusal :=
  if metroBitsOk bits then .next (s.ifLive fun s => s.metroSample bits) else .fault .illFormed

/-- `BEGIN` (R564). The command opens a metering session and writes SESSION_BEGIN. -/
def execBegin (ini : Initiator) (m : BitVec 4) (s : State) : Host.Outcome State Fault Refusal :=
  .next (s.writeAt none ini PANTRY.pg PANTRY.CMD_OP 0 (1 + 16 * m.toNat))

/-- `PANTRY_END` (R564). The END command closes a session and writes SESSION_END. -/
def execPantryEnd (ini : Initiator) (m : BitVec 4) (s : State) : Host.Outcome State Fault Refusal :=
  .next (s.writeAt none ini PANTRY.pg PANTRY.CMD_OP 0 (2 + 16 * m.toNat))

/-- `READING` (R564). The command writes a READING record of a meter. -/
def execReading (ini : Initiator) (m : BitVec 4) (s : State) : Host.Outcome State Fault Refusal :=
  .next (s.writeAt none ini PANTRY.pg PANTRY.CMD_OP 0 (3 + 16 * m.toNat))

/-- `CAL_LOAD` (R548). The command loads a calibration block from Main SRAM in PROVISIONED. -/
def execCalLoad (ini : Initiator) (s : State) : Host.Outcome State Fault Refusal :=
  .next (s.writeAt none ini PANTRY.pg PANTRY.CMD_OP 0 4)

/-- `RECORD_WRITTEN` (R566). A record is written to the Pantry and verified, completing its command. -/
def execRecordWritten (ok : Bool) (s : State) : Host.Outcome State Fault Refusal :=
  .next (s.ifLive fun s => s.recordWritten ok)

/-- `PANTRY_REWRITE_RETRY` (R573). Every 100 ms a rewrite is attempted and FAULT clears on success. -/
def execPantryRewriteRetry (ok : Bool) (s : State) : Host.Outcome State Fault Refusal :=
  .next (s.ifLive fun s => s.rewriteRetry ok)

/-- `RDID_RETRY` (R571). Every 100 ms a failed RDID is retried. -/
def execRdidRetry (density : Option (Fin 3)) (s : State) : Host.Outcome State Fault Refusal :=
  .next (s.ifLive fun s => s.rdidRetry (density.map (·.val)))

/-- `PANTRY_READY` (R571). The partition completes RDID and header checks and sets READY. -/
def execPantryReady (density : Option (Fin 3)) (s : State) : Host.Outcome State Fault Refusal :=
  .next (s.ifLive fun s => s.pantryReady (density.map (·.val)))

/-- `ACK_SEQ_WRITE` (R574). A write of ACK_SEQ_LO takes the pair with ACK_SEQ_HI as the acknowledged SEQ, or is refused. -/
def execAckSeqWrite (ini : Initiator) (v : Word) (s : State) : Host.Outcome State Fault Refusal :=
  .next (s.writeAt none ini PANTRY.pg PANTRY.ACK_SEQ_LO_SEQ 0 v.toNat)

/-- `READ_SEQ_WRITE` (R578). A write of READ_SEQ_LO starts a record read into RECBUF. -/
def execReadSeqWrite (ini : Initiator) (v : Word) (s : State) : Host.Outcome State Fault Refusal :=
  .next (s.writeAt none ini PANTRY.pg PANTRY.READ_SEQ_LO_SEQ 0 v.toNat)

/-- `READ_DONE` (R578). The record read ends with its RESULT and READ_DONE. -/
def execReadDone (memErr : Bool) (s : State) : Host.Outcome State Fault Refusal :=
  .next (s.ifLive fun s => s.readDone memErr)

/-- `PERIODIC_SNAPSHOT` (R579). Every 10 s the partition writes a snapshot. -/
def execPeriodicSnapshot (s : State) : Host.Outcome State Fault Refusal :=
  .next (s.ifLive fun s => s.snapWant 1)

/-- `PFW_ASSERT` (R580). PFW_N held low 1 µs latches the registers and writes a snapshot. -/
def execPfwAssert (s : State) : Host.Outcome State Fault Refusal :=
  .next (s.ifLive fun s => s.snapWant 2)

/-- `SNAPSHOT_VERIFIED` (R580). A snapshot is written and verified. -/
def execSnapshotVerified (s : State) : Host.Outcome State Fault Refusal :=
  .next (s.ifLive fun s => s.snapVerified)

/-- `METRO_RESTORE` (R582). After boot the partition reads the Pantry, restores registers, increments START_COUNT and writes INTERRUPTION records. -/
def execMetroRestore (blank : Bool) (foreign : Bool) (newOk : Bool) (oldOk : Bool) (s : State) : Host.Outcome State Fault Refusal :=
  .next (s.ifLive fun s => s.metroRestore blank foreign newOk oldOk)

end Sys2Proof.Machine
end

