-- ==== Sys2Proof/Machine/ExecMode.lean ====
section
/-!
DEFINITION. Machine/ExecMode.lean: the meanings of the commands of modes, boot (01, 18), one definition per row.
-/
namespace Sys2Proof.Machine

/-- `MODE_REQUEST` (R44). A write of SYS.MODE_REQ under KEY0 starts a mode request, refused where the transition is not listed, its condition is false or a transition is busy. -/
def execModeRequest (ini : Initiator) (target : BitVec 4) (s : State) : Host.Outcome State Fault Refusal :=
  .next (s.writeAt none ini SYS.pg SYS.MODE_REQ_TARGET 0 target.toNat)

/-- `MODE_TICK` (R44). Every 1 µs the mode machine evaluates pending requests and hardware events and makes at most one transition. Operands: the mode, PREV_MODE and ENTRY_CAUSE that the lead of the set has at this tick; looked at in a follower only (R774). -/
def execModeTick (lead : Option LeadMode) (s : State) : Host.Outcome State Fault Refusal :=
  .next (s.ifLive fun s => s.modeTick lead)

/-- `SYNC_TIMEOUT` (R207). The SYNC_TIMEOUT of a unit in use expires and the mode goes from SYNC to READY with cause 0x22. -/
def execSyncTimeout (n : Fin 2) (s : State) : Host.Outcome State Fault Refusal :=
  .next (s.ifLive fun s => s.syncExpiry n)

/-- `READY_AFTER_PORTS_OFF` (R52). When the last port reaches OFF during a transition to READY, the mode changes to READY. -/
def execReadyAfterPortsOff (s : State) : Host.Outcome State Fault Refusal :=
  .next (s.ifLive fun s => s.readyAfterPorts)

/-- `DIE_LINK_LOSS` (R18). Four consecutive missing or failed inter-die frames declare the link lost; gates go low, inputs read de-energised and DIE_LINK fires. -/
def execDieLinkLoss (s : State) : Host.Outcome State Fault Refusal :=
  .next (s.ifLive fun s => s.dieLinkLoss)

/-- `DIE_LINK_RESTORE` (R22). The inter-die link returns, with gate outputs and test pulses kept off until the GDRV and SAFEIO pages are recommitted. -/
def execDieLinkRestore (s : State) : Host.Outcome State Fault Refusal :=
  .next (s.ifLive fun s => s.dieLinkRestore)

/-- `LOCKSTEP_MISMATCH` (R25). A supervisor pair lock-step mismatch halts the pair, fires SUP_LOCKSTEP and, from CONFIG on, enters SAFE_STOP with cause 0x12. -/
def execLockstepMismatch (p : Pair) (s : State) : Host.Outcome State Fault Refusal :=
  .next (s.ifLive fun s => s.lockstep p)

/-- `BOOT_COMPLETE` (R900). All boot images pass, the cores start their images, R28 takes effect and the mode goes to CONFIG. Operands: the directory entries of slot A and of slot B whose image the flash fails to bring. -/
def execBootComplete (badA badB : List (Fin 16)) (s : State) : Host.Outcome State Fault Refusal :=
  .next (s.ifLive fun s => s.bootComplete badA badB)

/-- `BOOT_FAIL` (R902). A failed boot leaves the device in BOOT with RECOVERY set, the failure recorded and BOOT_FAIL routed to both host ports. Operands: `otpOk`: the lifecycle and the UID could be read; the directory entries of slot A and of slot B whose image the flash fails to bring. -/
def execBootFail (otpOk : Bool) (badA badB : List (Fin 16)) (s : State) : Host.Outcome State Fault Refusal :=
  .next (s.ifLive fun s => s.bootFail otpOk badA badB)

end Sys2Proof.Machine
end

