-- ==== Sys2Proof/Machine/ExecNet.lean ====
section
/-!
DEFINITION. Machine/ExecNet.lean: the meanings of the commands of network and time (16), one definition per row.
-/
namespace Sys2Proof.Machine

/-- `ETH_FRAME_RECEIVE` (R819). A received Ethernet frame is classified, deduplicated, forwarded and queued. Operands: `frac`: the instant of the start-of-frame delimiter within the tick, in 0.8 ns; `residence`: ticks from ingress to egress of a forwarded frame. -/
def execEthFrameReceive (p : Fin 2) (f : EthFrame) (frac : Fin 5) (residence : Nat) (s : State) : Host.Outcome State Fault Refusal :=
  .next (s.ifLive fun s => s.ethReceive p f frac.val residence)

/-- `TX_HEAD_WRITE` (R818). A write of TXQq_HEAD releases descriptors for transmission. -/
def execTxHeadWrite (ini : Initiator) (q : Fin 4) (v : Word) (s : State) : Host.Outcome State Fault Refusal :=
  .next (s.writeAt none ini ETHSW.pg ETHSW.TXQ_HEAD_INDEX q v.toNat)

/-- `TX_FRAME_SENT` (R820). A transmit descriptor completes with DONE, its egress time and TX_DONE. -/
def execTxFrameSent (q : Fin 4) (frac : Fin 5) (s : State) : Host.Outcome State Fault Refusal :=
  .next (s.ifLive fun s => s.txSent q frac.val)

/-- `ETH_LINK_CHANGE` (R807). An SGMII port gains or loses its link. -/
def execEthLinkChange (p : Fin 2) (sense : LinkSense) (s : State) : Host.Outcome State Fault Refusal :=
  .next (s.ifLive fun s => s.ethLink p sense)

/-- `SUPERVISION_SEND` (R814). Every LIFE_CHECK the device sends a supervision frame. -/
def execSupervisionSend (s : State) : Host.Outcome State Fault Refusal :=
  .next (s.ifLive fun s => s.supervisionSend)

/-- `SUPERVISION_TIMEOUT` (R814). No supervision frame for 3 × LIFE_CHECK clears LAN_A_OK, LAN_B_OK or RING_OK. -/
def execSupervisionTimeout (p : Fin 2) (s : State) : Host.Outcome State Fault Refusal :=
  .next (s.ifLive fun s => s.supervisionTimeout p)

/-- `NODE_AGEING` (R814). A node table entry ages out after 60 s. -/
def execNodeAgeing (mac : BitVec 48) (s : State) : Host.Outcome State Fault Refusal :=
  .next (s.ifLive fun s => s.nodeAge mac)

/-- `MDIO_ACCESS` (R842). A write of MDIO_CMD with GO starts a Clause 22 access. -/
def execMdioAccess (ini : Initiator) (v : Word) (s : State) : Host.Outcome State Fault Refusal :=
  .next (s.writeAt none ini ETHSW.pg ETHSW.MDIO_CMD_GO 0 v.toNat)

/-- `MDIO_DONE` (R842). The MDIO access completes and BUSY clears. -/
def execMdioDone (data : BitVec 16) (s : State) : Host.Outcome State Fault Refusal :=
  .next (s.ifLive fun s => s.mdioDone data.toNat)

/-- `PTP_SYNC` (R826). A Sync from the parent produces OFFSET and updates lock status. -/
def execPtpSync (p : Fin 2) (m : PtpMsg) (frac : Fin 5) (s : State) : Host.Outcome State Fault Refusal :=
  .next (s.ifLive fun s => s.ptpSync p m frac.val)

/-- `FOLLOW_UP` (R826). A Follow_Up completes a two-step Sync and produces OFFSET. -/
def execFollowUp (p : Fin 2) (m : PtpMsg) (_frac : Fin 5) (s : State) : Host.Outcome State Fault Refusal :=
  .next (s.ifLive fun s => s.followUp p m)

/-- `PDELAY_REQ_SEND` (R829). Every 2^LOG_PDELAY s a port sends Pdelay_Req. -/
def execPdelayReqSend (p : Fin 2) (frac : Fin 5) (s : State) : Host.Outcome State Fault Refusal :=
  .next (s.ifLive fun s => s.pdelaySend p frac.val)

/-- `PDELAY_REQ_RECEIVE` (R829). A received Pdelay_Req is answered with a one-step Pdelay_Resp. Operands: `turn`: from its ingress to the egress of the answer, in 0.8 ns. -/
def execPdelayReqReceive (p : Fin 2) (m : PtpMsg) (frac : Fin 5) (turn : Fin 62501) (s : State) : Host.Outcome State Fault Refusal :=
  .next (s.ifLive fun s => s.pdelayAnswer p m frac.val turn.val)

/-- `PDELAY_RESP_RECEIVE` (R829). A received Pdelay_Resp updates LINK_DELAY. Operands: `turn`: the responder's turnaround in ps, from its timestamps and correctionField. -/
def execPdelayRespReceive (p : Fin 2) (turn : Int) (frac : Fin 5) (s : State) : Host.Outcome State Fault Refusal :=
  .next (s.ifLive fun s => s.pdelayResp p turn frac.val)

/-- `PTP_SYNC_TIMEOUT` (R827). No Sync for SYNC_TO_MS clears LOCKED and OFFSET_OK. -/
def execPtpSyncTimeout (s : State) : Host.Outcome State Fault Refusal :=
  .next (s.ifLive fun s => s.syncTimeout)

/-- `RATE_WRITE` (R821). A write of PTP.RATE changes the clock rate from the next tick. -/
def execRateWrite (ini : Initiator) (v : Word) (s : State) : Host.Outcome State Fault Refusal :=
  .next (s.writeAt none ini PTP.pg PTP.RATE_ADJ 0 v.toNat)

/-- `SET_TIME` (R831). A write of SET_NS with GO sets the time or makes a jump request. -/
def execSetTime (ini : Initiator) (v : Word) (s : State) : Host.Outcome State Fault Refusal :=
  .next (s.writeAt none ini PTP.pg PTP.SET_NS_GO 0 v.toNat)

/-- `STEP_REQUEST` (R832). A write of STEP_HI requests a jump, applied within JUMP_LIMIT or refused and held pending. -/
def execStepRequest (ini : Initiator) (v : Word) (s : State) : Host.Outcome State Fault Refusal :=
  .next (s.writeAt none ini PTP.pg PTP.STEP_HI_NS 0 v.toNat)

/-- `ACCEPT` (R834). JUMP_CMD.ACCEPT applies the pending jump. -/
def execAccept (ini : Initiator) (s : State) : Host.Outcome State Fault Refusal :=
  .next (s.writeAt none ini PTP.pg PTP.JUMP_CMD_ACCEPT 0 1)

/-- `REJECT` (R834). JUMP_CMD.REJECT discards the pending jump. -/
def execReject (ini : Initiator) (s : State) : Host.Outcome State Fault Refusal :=
  .next (s.writeAt none ini PTP.pg PTP.JUMP_CMD_REJECT 0 2)

/-- `PARENT_WRITE` (R827). A write of PARENT clears LOCKED. -/
def execParentWrite (ini : Initiator) (v : Word) (s : State) : Host.Outcome State Fault Refusal :=
  .next (s.writeAt none ini PTP.pg PTP.PARENT_PORT_NUMBER 0 v.toNat)

/-- `TIME_EVENT` (R836). A schedule reaches its instant, raising TIME_O and counting. -/
def execTimeEvent (n : Fin 4) (s : State) : Host.Outcome State Fault Refusal :=
  .next (s.ifLive fun s => s.timeEvent n)

/-- `TIME_OUTPUT_END` (R837). TIME_O returns low after WIDTH ticks. -/
def execTimeOutputEnd (n : Fin 4) (s : State) : Host.Outcome State Fault Refusal :=
  .next (s.ifLive fun s => s.timeOutputEnd n)

end Sys2Proof.Machine
end

