-- ==== Sys2Proof/Machine/ExecPort.lean ====
section
/-!
DEFINITION. Machine/ExecPort.lean: the meanings of the commands of charging outputs and pilots (09), one definition per row.
-/
namespace Sys2Proof.Machine

/-- `PORT_TICK` (R481). Every 100 µs each port sequencer evaluates inputs, commands and timers, changes phase, writes targets and drives enables. Operands: the levels read back at the CDO outputs. -/
def execPortTick (rbA : BitVec 8) (rbB : BitVec 8) (s : State) : Host.Outcome State Fault Refusal :=
  .next (s.ifLive fun s => s.passPorts.portTick rbA rbB)

/-- `START_CHECK` (R496). The command starts the cable check from OFF when its conditions hold. -/
def execStartCheck (ini : Initiator) (p : Fin 8) (s : State) : Host.Outcome State Fault Refusal :=
  .next (s.writeAt none ini (PORT.pg p) PORT.CMD_CODE 0 1)

/-- `START_PRECHARGE` (R496). The command moves the port from CC_PASSED to PRE_RAMP. -/
def execStartPrecharge (ini : Initiator) (p : Fin 8) (s : State) : Host.Outcome State Fault Refusal :=
  .next (s.writeAt none ini (PORT.pg p) PORT.CMD_CODE 0 2)

/-- `START_ENERGY` (R496). The command moves the port from PRE_MATCHED to EN_RUN. -/
def execStartEnergy (ini : Initiator) (p : Fin 8) (s : State) : Host.Outcome State Fault Refusal :=
  .next (s.writeAt none ini (PORT.pg p) PORT.CMD_CODE 0 3)

/-- `PORT_STOP` (R496). The STOP command gives the port stop cause 1. -/
def execPortStop (ini : Initiator) (p : Fin 8) (s : State) : Host.Outcome State Fault Refusal :=
  .next (s.writeAt none ini (PORT.pg p) PORT.CMD_CODE 0 4)

/-- `ACK_FAULT` (R496). The command returns a port from F_OPEN to OFF. -/
def execAckFault (ini : Initiator) (p : Fin 8) (s : State) : Host.Outcome State Fault Refusal :=
  .next (s.writeAt none ini (PORT.pg p) PORT.CMD_CODE 0 5)

/-- `FORCE_FAULT` (R496). The command puts the port in FAULT with cause 0x0C. -/
def execForceFault (ini : Initiator) (p : Fin 8) (s : State) : Host.Outcome State Fault Refusal :=
  .next (s.writeAt none ini (PORT.pg p) PORT.CMD_CODE 0 6)

/-- `CLEAR_WELD` (R496). The command clears WELDED in CONFIG with the feedback open. -/
def execClearWeld (ini : Initiator) (p : Fin 8) (s : State) : Host.Outcome State Fault Refusal :=
  .next (s.writeAt none ini (PORT.pg p) PORT.CMD_CODE 0 7)

/-- `CHTEST_EXPIRY` (R503). CHTEST_MS of one channel test ends, switching from A to B or to CC_CLOSE. -/
def execChtestExpiry (p : Fin 8) (s : State) : Host.Outcome State Fault Refusal :=
  .next (s.ifLive fun s => s.chtestExpiry p)

/-- `CLOSE_DEADLINE` (R505). CLOSE_MS expires without closure and the port faults with cause 0x04. -/
def execCloseDeadline (p : Fin 8) (s : State) : Host.Outcome State Fault Refusal :=
  .next (s.ifLive fun s => s.closeDeadline p)

/-- `OPEN_DEADLINE` (R506). OPEN_MS expires without opening, faulting with cause 0x04 and setting WELDED. -/
def execOpenDeadline (p : Fin 8) (s : State) : Host.Outcome State Fault Refusal :=
  .next (s.ifLive fun s => s.openDeadline p)

/-- `VOLTAGE_MATCH_HOLD` (R492). V_OUT held within V_TOL for 10 ms moves CC_RAMP or PRE_RAMP on. -/
def execVoltageMatchHold (p : Fin 8) (s : State) : Host.Outcome State Fault Refusal :=
  .next (s.ifLive fun s => s.voltageMatchHold p)

/-- `CC_HOLD_EXPIRY` (R492). CC_HOLD_MS elapses and the port enters CC_PASSED. -/
def execCcHoldExpiry (p : Fin 8) (s : State) : Host.Outcome State Fault Refusal :=
  .next (s.ifLive fun s => s.ccHoldExpiry p)

/-- `CC_DEADLINE` (R511). CC_MS expires before phase 5 and the port faults with cause 0x02. -/
def execCcDeadline (p : Fin 8) (s : State) : Host.Outcome State Fault Refusal :=
  .next (s.ifLive fun s => s.ccDeadline p)

/-- `PRE_DEADLINE` (R511). PRE_MS expires before phase 7 and the port faults with cause 0x03. -/
def execPreDeadline (p : Fin 8) (s : State) : Host.Outcome State Fault Refusal :=
  .next (s.ifLive fun s => s.preDeadline p)

/-- `STOP_DEADLINE` (R511). STOP_MS expires before phase 10 and the port faults with cause 0x0F. -/
def execStopDeadline (p : Fin 8) (s : State) : Host.Outcome State Fault Refusal :=
  .next (s.ifLive fun s => s.stopDeadline p)

/-- `WELD_DEADLINE` (R509). WELD_MS expires with V_OUT above V_SAFE, faulting with cause 0x05 and setting WELDED. -/
def execWeldDeadline (p : Fin 8) (s : State) : Host.Outcome State Fault Refusal :=
  .next (s.ifLive fun s => s.weldDeadline p)

/-- `OPEN_DELAY_EXPIRY` (R513). OPEN_DELAY_MS expires in FAULT and both enables fall. -/
def execOpenDelayExpiry (p : Fin 8) (s : State) : Host.Outcome State Fault Refusal :=
  .next (s.ifLive fun s => s.openDelayExpiry p)

/-- `INSULATION_FAULT_HOLD` (R511). Insulation class FAULT held for 10 ms faults the port with cause 0x01. -/
def execInsulationFaultHold (p : Fin 8) (s : State) : Host.Outcome State Fault Refusal :=
  .next (s.ifLive fun s => s.isoHold p)

/-- `PLUG_LOSS_HOLD` (R511). PLUG_OK 0 held for 10 ms faults the port with cause 0x07. -/
def execPlugLossHold (p : Fin 8) (s : State) : Host.Outcome State Fault Refusal :=
  .next (s.ifLive fun s => s.plugHold p)

/-- `PORT_VALUE_WRITE` (R532). A write of CC_V, CC_END_V, PRE_V, I_SET or V_LIM is checked at once and used from the next port tick. Operands: `r`: CC_V, CC_END_V, PRE_V, I_SET, V_LIM. -/
def execPortValueWrite (ini : Initiator) (p : Fin 8) (r : Fin 5) (v : Word) (s : State) : Host.Outcome State Fault Refusal :=
  .next (s.writeAt none ini (PORT.pg p) (portValueFld r) 0 v.toNat)

/-- `PILOT_GEN_WRITE` (R519). A write of PILOT.CHp.GEN is held until the next pilot period start. -/
def execPilotGenWrite (ini : Initiator) (p : Fin 8) (v : Word) (s : State) : Host.Outcome State Fault Refusal :=
  .next (s.writeAt none ini PILOT.pg PILOT.CH_GEN_MODE p v.toNat)

/-- `PILOT_PERIOD_START` (R518). Every 1 ms the pilot generator starts a period, applying the last GEN write. -/
def execPilotPeriodStart (s : State) : Host.Outcome State Fault Refusal :=
  .next (s.ifLive fun s => s.passPilot.pilotStart)

/-- `PILOT_PERIOD_END` (R524). At a period end the pilot block averages its samples and classifies the period. -/
def execPilotPeriodEnd (s : State) : Host.Outcome State Fault Refusal :=
  .next (s.ifLive fun s => s.pilotEnd)

end Sys2Proof.Machine
end

