-- ==== Sys2Proof/Machine/ExecPwm.lean ====
section
/-!
DEFINITION. Machine/ExecPwm.lean: the meanings of the commands of PWM units and the Fusebox (07), one definition per row.
-/
namespace Sys2Proof.Machine

/-- `PWM_CARRIER_EVENT` (R369). A PWM unit reaches a period boundary or mid-period point, emitting its event. -/
def execPwmCarrierEvent (n : Fin 16) (pt : CarrierPoint) (s : State) : Host.Outcome State Fault Refusal :=
  .next (s.inDomain 2 fun s => s.carrierEvent n pt)

/-- `PWM_SYNC_EVENT` (R373). A trigger-bus edge or time event ends the period in progress and starts a new one. -/
def execPwmSyncEvent (n : Fin 16) (s : State) : Host.Outcome State Fault Refusal :=
  .next (s.inDomain 2 fun s => s.syncEvent n)

/-- `CMP_WRITE` (R364). A write of PWMn.CMPc stages a compare value for the next load point. Operands: `portToo`: a duty port delivered to the same compare in the same cycle. -/
def execCmpWrite (ini : Initiator) (n : Fin 16) (c : Fin 8) (v : Word) (portToo : Bool) (s : State) : Host.Outcome State Fault Refusal :=
  .next (s.writeAt (some { portToo := portToo }) ini (PWM.pg n) PWM.CMP_FRAC c v.toNat)

/-- `ROOT_CLOCK_LOSS` (R394). Loss of the 25 MHz root is declared and drives every unit safe through the asynchronous path and sets CLK_SAFE. -/
def execRootClockLoss (s : State) : Host.Outcome State Fault Refusal :=
  .next s.rootClockLoss

/-- `ROOT_LOSS_SAFE_LEVEL` (R394). After the fixed 500 to 550 ns delay, outputs whose safe level is active are driven to it. -/
def execRootLossSafeLevel (s : State) : Host.Outcome State Fault Refusal :=
  .next (s.ifLive fun s => s.rootSafeLevel)

/-- `ROOT_LOSS_RESET` (R869). A root absent for 1 ms resets the device with cause 0x05. -/
def execRootLossReset (s : State) : Host.Outcome State Fault Refusal :=
  .next (s.ifLive fun s => s.rootLossReset)

/-- `TRIP_INPUT_EDGE` (R401). A TRIP_I pin holds its level for the filter time and its source changes state. Operands: the level the pin held for the filter time. -/
def execTripInputEdge (p : Fin 16) (level : Bool) (s : State) : Host.Outcome State Fault Refusal :=
  .next (s.ifLive fun s => (s.tripInput p level).aliveEdge p)

/-- `FUSE_SOURCE_ACTIVE` (R404). An enabled source becoming active while armed sets its latch and unit trips, forcing mapped units safe. Operands: `overtemp`: the temperature sensor reads above 130 °C (looked at for source 62 only). -/
def execFuseSourceActive (src : Fin 64) (overtemp : Bool) (s : State) : Host.Outcome State Fault Refusal :=
  .next (s.ifLive fun s => s.fuseSource src overtemp)

/-- `CLEAR_SOURCE` (R410). A 1 written to CLEAR_LO or CLEAR_HI clears an inactive source's latch, or is refused and counted. -/
def execClearSource (ini : Initiator) (hi : Bool) (mask : Word) (s : State) : Host.Outcome State Fault Refusal :=
  .next (s.writeAt none ini FUSE.pg (if hi then FUSE.CLEAR_HI_SRC else FUSE.CLEAR_LO_SRC) 0 mask.toNat)

/-- `CLEAR_UNIT` (R411). A 1 written to CLEAR_UNIT clears a unit latch when no set source latch maps to it, or is refused and counted. -/
def execClearUnit (ini : Initiator) (mask : BitVec 16) (s : State) : Host.Outcome State Fault Refusal :=
  .next (s.writeAt none ini FUSE.pg FUSE.CLEAR_UNIT_UNIT 0 mask.toNat)

end Sys2Proof.Machine
end

