-- ==== Sys2Proof/Machine/ExecRedun.lean ====
section
/-!
DEFINITION. Machine/ExecRedun.lean: the meanings of the commands of redundancy (15), one definition per row.
-/
namespace Sys2Proof.Machine

/-- `TRIG_EDGE` (R768). A falling edge on a TRIG line is recognised 12 ns after its ball instant and acts at its edge instant. -/
def execTrigEdge (l : Fin 4) (s : State) : Host.Outcome State Fault Refusal :=
  .next (s.ifLive fun s => s.trigEdge l)

/-- `LANE_UP` (R757). A Twitos lane receives 1,024 valid symbols and one valid frame and is up. Operands: the member ID at the far end. -/
def execLaneUp (l : Fin 4) (partner : Fin 3) (s : State) : Host.Outcome State Fault Refusal :=
  .next (s.ifLive fun s => s.laneUpEvent l partner)

/-- `LANE_LOST` (R757). No valid frame for 2 µs or four failed frames declare a lane lost. Operands: the frames that failed their check. -/
def execLaneLost (l : Fin 4) (failed : Fin 5) (s : State) : Host.Outcome State Fault Refusal :=
  .next (s.ifLive fun s => s.laneLost l failed.val)

/-- `IDLE_FRAME` (R758). An IDLE frame is received carrying CYC. Operands: none: a frame, of whatever type, that fails its check (R757). -/
def execIdleFrame (l : Fin 4) (cyc : Option Word) (s : State) : Host.Outcome State Fault Refusal :=
  .next (s.ifLive fun s => s.idleFrame l cyc)

/-- `STATE_FRAME` (R770). A STATE frame is received with a member's digests, readback, stamp counts and view. -/
def execStateFrame (l : Fin 4) (seq : BitVec 16) (f : StateFrame) (s : State) : Host.Outcome State Fault Refusal :=
  .next (s.ifLive fun s => s.stateFrame l seq f)

/-- `FAULT_FRAME` (R778). A FAULT frame is received, declaring the sender FAILED or carrying a set-wide SAFE_STOP. Operands: `self`: a self-report, else a set-wide SAFE_STOP whose cause lies `ago` ticks back. -/
def execFaultFrame (l : Fin 4) (seq : BitVec 16) (m : Fin 3) (self : Bool) (cause : Byte) (src : Fin 64) (ago : Nat) (s : State) : Host.Outcome State Fault Refusal :=
  .next (s.ifLive fun s => s.faultFrame l seq m self cause src ago)

/-- `SWAP_FRAME` (R787). A SWAP frame is received naming the target and takeover boundary. -/
def execSwapFrame (l : Fin 4) (seq : BitVec 16) (target : Fin 3) (k : Word) (s : State) : Host.Outcome State Fault Refusal :=
  .next (s.ifLive fun s => s.swapFrame l seq target k)

/-- `PORTS_FRAME` (R774). A PORTS frame from the lead gives phases, timers and enables taken at the next port tick. -/
def execPortsFrame (l : Fin 4) (seq : BitVec 16) (ports : Vector PortCopy 8) (s : State) : Host.Outcome State Fault Refusal :=
  .next (s.ifLive fun s => s.portsFrame l seq ports)

/-- `COPY_FRAME` (R796). A COPY frame delivers state words to a joining member. Operands: `last`: every item of R796 has been copied with it. -/
def execCopyFrame (l : Fin 4) (seq : BitVec 16) (words : List CopyWord) (last : Bool) (s : State) : Host.Outcome State Fault Refusal :=
  .next (s.ifLive fun s => s.copyFrame l seq words last)

/-- `XFER_FRAME` (R796). An XFER frame delivers Main SRAM data to the target member. -/
def execXferFrame (l : Fin 4) (seq : BitVec 16) (addr : Word) (data : List Byte) (s : State) : Host.Outcome State Fault Refusal :=
  .next (s.ifLive fun s => s.xferFrame l seq addr data)

/-- `PING` (R761). A PING frame is received and answered with ECHO. -/
def execPing (l : Fin 4) (at_ : Word64) (s : State) : Host.Outcome State Fault Refusal :=
  .next (s.ifLive fun s => s.ping l at_)

/-- `ECHO` (R761). An ECHO frame is received and the lane RTT is measured. Operands: the round-trip flight time measured. -/
def execEcho (l : Fin 4) (ps : BitVec 20) (s : State) : Host.Outcome State Fault Refusal :=
  .next (s.ifLive fun s => s.echo l ps.toNat)

/-- `CYCMARK` (R764). A CYCMARK frame makes a follower load CYC at the named HCLK edge. -/
def execCycmark (l : Fin 4) (seq : BitVec 16) (cyc : Word64) (s : State) : Host.Outcome State Fault Refusal :=
  .next (s.ifLive fun s => s.cycMark l seq cyc)

/-- `SET_CYCLE_BOUNDARY` (R769). At each set-cycle boundary every member snapshots and forms its three digests. Operands: `rb`: the lines that read back otherwise than computed in the set cycle just ended (R776). -/
def execSetCycleBoundary (rb : List RbLine) (s : State) : Host.Outcome State Fault Refusal :=
  .next (s.ifLive fun s => s.setCycleBoundary rb)

/-- `STATE_FRAME_RELEASE` (R770). 2.0 to 2.5 µs after the boundary each member releases its STATE frame. -/
def execStateFrameRelease (s : State) : Host.Outcome State Fault Refusal :=
  .next (s.ifLive fun s => s.stateRelease)

/-- `VOTE_INSTANT` (R770). At B_K + 8 µs each member evaluates the STATE frames it holds. -/
def execVoteInstant (s : State) : Host.Outcome State Fault Refusal :=
  .next (s.ifLive fun s => s.vote)

/-- `ALIVE_TOGGLE` (R777). Every 12,500 ticks the member toggles ALIVE_O. -/
def execAliveToggle (s : State) : Host.Outcome State Fault Refusal :=
  .next (s.ifLive fun s => s.aliveToggle)

/-- `ALIVE_LOST` (R777). No ALIVE edge from a partner for 60 µs declares its ALIVE lost. -/
def execAliveLost (m : Fin 3) (s : State) : Host.Outcome State Fault Refusal :=
  .next (s.ifLive fun s => s.aliveLost m)

/-- `ISOLATION` (R782). Every lane to a live member lost for two set cycles isolates it. -/
def execIsolation (m : Fin 3) (s : State) : Host.Outcome State Fault Refusal :=
  .next (s.ifLive fun s => s.isolation m)

/-- `HCLK_ABSENT` (R765). No HCLK edge for 200 ns switches a follower to holdover on its crystal. -/
def execHclkAbsent (s : State) : Host.Outcome State Fault Refusal :=
  .next (s.ifLive fun s => s.hclkAbsent)

/-- `HCLK_RETURN` (R766). HCLK returns and the follower measures its phase error and slews or leaves. Operands: the phase error in ps. -/
def execHclkReturn (e : Int) (s : State) : Host.Outcome State Fault Refusal :=
  .next (s.ifLive fun s => s.hclkReturn e)

/-- `SLEW_END` (R766). The root phase slew ends and LOCKED returns to 1. Operands: the phase error left, in ps. -/
def execSlewEnd (e : BitVec 16) (s : State) : Host.Outcome State Fault Refusal :=
  .next (s.ifLive fun s => s.slewEnd e.toNat)

/-- `HOLDOVER_LIMIT` (R766). 1 ms in holdover makes the member leave with cause 7. -/
def execHoldoverLimit (s : State) : Host.Outcome State Fault Refusal :=
  .next (s.ifLive fun s => s.holdoverLimit)

/-- `CK_RESCUE` (R784). An absent expected DS_CK edge makes the successor drive the net from its copy. -/
def execCkRescue (k : Fin 4) (s : State) : Host.Outcome State Fault Refusal :=
  .next (s.ifLive fun s => s.ckRescue k)

/-- `JOIN` (R793). The command starts the join phases towards STANDBY or VOTER. -/
def execJoin (ini : Initiator) (s : State) : Host.Outcome State Fault Refusal :=
  .next (s.writeAt none ini REDUN.pg REDUN.CMD_CODE 0 1)

/-- `SWAP` (R787). The command schedules a hand-over of the lead to a ready follower at B_(K+2). -/
def execSwap (ini : Initiator) (target : BitVec 2) (s : State) : Host.Outcome State Fault Refusal :=
  .next (s.writeAt none ini REDUN.pg REDUN.CMD_CODE 0 (2 + 8 * target.toNat))

/-- `LEAVE` (R780). The command makes the member leave the set. -/
def execLeave (ini : Initiator) (s : State) : Host.Outcome State Fault Refusal :=
  .next (s.writeAt none ini REDUN.pg REDUN.CMD_CODE 0 3)

/-- `PROMOTE` (R793). The command makes the member lead when no lead is reachable. -/
def execPromote (ini : Initiator) (s : State) : Host.Outcome State Fault Refusal :=
  .next (s.writeAt none ini REDUN.pg REDUN.CMD_CODE 0 4)

/-- `JOIN_PHASE_TIMEOUT` (R794). A failure in join phases 1 to 3 lasting 100 ms makes the member leave with cause 4. -/
def execJoinPhaseTimeout (s : State) : Host.Outcome State Fault Refusal :=
  .next (s.ifLive fun s => s.joinTimeout)

/-- `XFER_CMD` (R796). A write of XFER_CMD with GO copies Main SRAM to another member. -/
def execXferCmd (ini : Initiator) (len : BitVec 16) (target : BitVec 2) (s : State) : Host.Outcome State Fault Refusal :=
  .next (s.writeAt none ini REDUN.pg REDUN.XFER_CMD_GO 0 (len.toNat + 2 ^ 16 * target.toNat + 2 ^ 31))

/-- `XFER_DONE` (R796). The transfer completes with its RESULT and XFER_DONE. -/
def execXferDone (s : State) : Host.Outcome State Fault Refusal :=
  .next (s.ifLive fun s => s.xferDone)

end Sys2Proof.Machine
end

