-- ==== Sys2Proof/Machine/ExecSafety.lean ====
section
/-!
DEFINITION. Machine/ExecSafety.lean: the meanings of the commands of safety inputs, safety frames, watchdogs (11), one definition per row.
-/
namespace Sys2Proof.Machine

/-- `SAFEIO_SAMPLE` (R593). Every 100 µs every safety channel is sampled, checked and debounced. Operands: the raw levels of the channels and the readback of the test outputs. -/
def execSafeioSample (raw : BitVec 24) (tp : BitVec 4) (s : State) : Host.Outcome State Fault Refusal :=
  .next (s.ifLive fun s => s.safeSample raw tp)

/-- `SAFETY_TICK` (R593). Every 1 ms pairs, discrepancy timers and watchdogs are evaluated. -/
def execSafetyTick (s : State) : Host.Outcome State Fault Refusal :=
  .next (s.ifLive fun s => s.safetyTick)

/-- `TEST_PULSE_START` (R597). A test-pulse output starts its pulse at its offset in the period. -/
def execTestPulseStart (k : Fin 4) (s : State) : Host.Outcome State Fault Refusal :=
  .next (s.ifLive fun s => s.pulseStart k)

/-- `TEST_PULSE_END` (R597). A test pulse ends after W and the output is energised again. -/
def execTestPulseEnd (k : Fin 4) (s : State) : Host.Outcome State Fault Refusal :=
  .next (s.ifLive fun s => s.pulseEnd k)

/-- `PAIR_DISCREPANCY_FAULT` (R607). The discrepancy counter reaches DISC_MS and the pair enters FAULT with cause 0x1. -/
def execPairDiscrepancyFault (q : Fin 8) (s : State) : Host.Outcome State Fault Refusal :=
  .next (s.ifLive fun s => s.pairDiscrepancy q)

/-- `SAFEIO_ACK` (R610). A write of SAFEIO.ACK moves a pair from WAIT_ACK to ACTIVE. -/
def execSafeioAck (ini : Initiator) (mask : Byte) (s : State) : Host.Outcome State Fault Refusal :=
  .next (s.writeAt none ini SAFEIO.pg SAFEIO.ACK_PAIR 0 mask.toNat)

/-- `SAFENET_COPY` (R616). A safety frame copy is validated and accepted, compared or discarded by its sequence difference. -/
def execSafenetCopy (p : Fin 2) (payload : List Byte) (s : State) : Host.Outcome State Fault Refusal :=
  .next (s.ifLive fun s => s.netCopy p payload)

/-- `SAFENET_COMPARE_TIMEOUT` (R617). A compare window closes without the other copy, counting MISS and setting DEGRADED. -/
def execSafenetCompareTimeout (q : Fin 8) (s : State) : Host.Outcome State Fault Refusal :=
  .next (s.ifLive fun s => s.netMiss q)

/-- `SAFENET_WATCHDOG_FAULT` (R618). The channel watchdog reaches WD_MS and the channel enters FAULT with cause 0x1. -/
def execSafenetWatchdogFault (q : Fin 8) (s : State) : Host.Outcome State Fault Refusal :=
  .next (s.ifLive fun s => s.netWatchdog q)

/-- `SAFENET_ACK` (R619). A write of SAFENET.ACK moves a channel from WAIT_ACK to RUN. -/
def execSafenetAck (ini : Initiator) (mask : Byte) (s : State) : Host.Outcome State Fault Refusal :=
  .next (s.writeAt none ini SAFENET.pg SAFENET.ACK_CH 0 mask.toNat)

/-- `WDSVC` (R624). A supervisor pair writes its watchdog token, restarting the window or expiring it if early or wrong. -/
def execWdsvc (ini : Initiator) (x : Fin 2) (token : Byte) (s : State) : Host.Outcome State Fault Refusal :=
  .next (s.writeAt none ini SAFEIO.pg SAFEIO.WDSVC_TOKEN x token.toNat)

/-- `WATCHDOG_EXPIRY` (R625). The watchdog counter reaches WIN_MAX, activating SUP_WDOG and entering SAFE_STOP. -/
def execWatchdogExpiry (x : Fin 2) (s : State) : Host.Outcome State Fault Refusal :=
  .next (s.ifLive fun s => s.wdExpiry x)

/-- `WDCLEAR` (R627). A host write of WDCLEAR in CONFIG clears EXPIRED and restarts the window. -/
def execWdclear (ini : Initiator) (mask : BitVec 2) (s : State) : Host.Outcome State Fault Refusal :=
  .next (s.writeAt none ini SAFEIO.pg SAFEIO.WDCLEAR_CLEAR 0 mask.toNat)

end Sys2Proof.Machine
end

