-- ==== Sys2Proof/Machine/ExecSec.lean ====
section
/-!
DEFINITION. Machine/ExecSec.lean: the meanings of the commands of security, debug and flash (18); and the rows that the table lists last, one definition per row.
-/
namespace Sys2Proof.Machine

/-- `PROVISION` (R893). The command burns hashes and seeds and moves BLANK to PROVISIONED. -/
def execProvision (ini : Initiator) (s : State) : Host.Outcome State Fault Refusal :=
  .next (s.writeAt none ini CELLAR.pg CELLAR.CMD_OP 0 1)

/-- `SEAL` (R893). The command burns the seal block and moves PROVISIONED to SEALED. -/
def execSeal (ini : Initiator) (s : State) : Host.Outcome State Fault Refusal :=
  .next (s.writeAt none ini CELLAR.pg CELLAR.CMD_OP 0 2)

/-- `RETURN` (R893). The command destroys the metrology seed and moves to RETURNED. -/
def execReturnCmd (ini : Initiator) (s : State) : Host.Outcome State Fault Refusal :=
  .next (s.writeAt none ini CELLAR.pg CELLAR.CMD_OP 0 3)

/-- `ADVANCE` (R905). The command raises a rollback counter to the lowest SVN in force. -/
def execAdvance (ini : Initiator) (type : Fin 4) (s : State) : Host.Outcome State Fault Refusal :=
  .next (s.writeAt none ini CELLAR.pg CELLAR.CMD_OP 0 (4 + 16 * type.val))

/-- `CHECK` (R906). The command checks a flash slot's images without loading them. Operands: the directory entries whose image the flash fails to bring. -/
def execCheck (ini : Initiator) (slotB : Bool) (bad : List (Fin 16)) (s : State) : Host.Outcome State Fault Refusal :=
  .next (s.writeAt (some { bad := bad }) ini CELLAR.pg CELLAR.CMD_OP 0 (5 + 16 * bit01 slotB))

/-- `RAM_BOOT` (R903). The command boots from an image set in Main SRAM during recovery. -/
def execRamBoot (ini : Initiator) (s : State) : Host.Outcome State Fault Refusal :=
  .next (s.writeAt none ini CELLAR.pg CELLAR.CMD_OP 0 6)

/-- `CELLAR_CMD_DONE` (R894). A CELLAR command completes with its RESULT and CMD_DONE. Operands: `burnOk`: every OTP bit read back as burnt. -/
def execCellarCmdDone (burnOk : Bool) (s : State) : Host.Outcome State Fault Refusal :=
  .next (s.ifLive fun s => s.cellarDone burnOk)

/-- `ATTEST_GO` (R908). A write of ATTEST.CMD.GO starts building a signed report. -/
def execAttestGo (ini : Initiator) (s : State) : Host.Outcome State Fault Refusal :=
  .next (s.writeAt none ini ATTEST.pg ATTEST.CMD_GO 0 1)

/-- `ATTEST_DONE` (R908). The attestation report appears and DONE is set. -/
def execAttestDone (s : State) : Host.Outcome State Fault Refusal :=
  .next (s.ifLive fun s => s.attestDone)

/-- `CHAL_NEW` (R912). A write of CHAL_CMD.NEW places a fresh challenge. -/
def execChalNew (ini : Initiator) (s : State) : Host.Outcome State Fault Refusal :=
  .next (s.writeAt none ini DEBUG.pg DEBUG.CHAL_CMD_NEW 0 1)

/-- `AUTH_GO` (R912). A write of AUTH_CMD.GO verifies the authorisation and opens a session or fails. -/
def execAuthGo (ini : Initiator) (s : State) : Host.Outcome State Fault Refusal :=
  .next (s.writeAt none ini DEBUG.pg DEBUG.AUTH_CMD_GO 0 1)

/-- `AUTH_LOCKOUT_END` (R913). The 60 s lockout after three failures ends. -/
def execAuthLockoutEnd (s : State) : Host.Outcome State Fault Refusal :=
  .next (s.ifLive fun s => s.lockoutEnd)

/-- `DEBUG_SESSION_END` (R915). A write of END ends the debug session and releases its halts. -/
def execDebugSessionEnd (ini : Initiator) (s : State) : Host.Outcome State Fault Refusal :=
  .next (s.writeAt none ini DEBUG.pg DEBUG.END_END 0 1)

/-- `SESSION_EXPIRY` (R915). DURATION_S expires and the debug session ends. -/
def execSessionExpiry (s : State) : Host.Outcome State Fault Refusal :=
  .next (s.ifLive fun s => s.endSession 2)

/-- `LE_HALT` (R916). A write of LE_HALT halts an engine and stops its PWM units. -/
def execLeHalt (ini : Initiator) (mask : BitVec 16) (s : State) : Host.Outcome State Fault Refusal :=
  .next (s.writeAt none ini DEBUG.pg DEBUG.LE_HALT_ENGINE 0 mask.toNat)

/-- `LE_RESUME` (R920). A write of LE_RESUME releases a halted engine. -/
def execLeResume (ini : Initiator) (mask : BitVec 16) (s : State) : Host.Outcome State Fault Refusal :=
  .next (s.writeAt none ini DEBUG.pg DEBUG.LE_RESUME_ENGINE 0 mask.toNat)

/-- `LE_STEP` (R916). A write of LE_STEP issues one instruction of a halted engine. -/
def execLeStep (ini : Initiator) (n : Fin 16) (s : State) : Host.Outcome State Fault Refusal :=
  .next (s.writeAt none ini DEBUG.pg DEBUG.LE_STEP_ENGINE 0 n.val)

/-- `SUP_HALT` (R917). A debug halt of a supervisor pair stops both cores and puts every PWM unit safe. -/
def execSupHalt (p : Pair) (s : State) : Host.Outcome State Fault Refusal :=
  .next (s.ifLive fun s => s.supHalt p)

/-- `CORE_HALT` (R920). A debug halt of the security or metrology core affects no output or mode. -/
def execCoreHalt (c : Core) (s : State) : Host.Outcome State Fault Refusal :=
  .next (s.ifLive fun s => s.coreHalt c)

/-- `HALT_RELEASE` (R920). A supervisor or core halt is released and execution resumes. -/
def execHaltRelease (pairs : List Pair) (cores : List Core) (s : State) : Host.Outcome State Fault Refusal :=
  if haltListsOk pairs cores then .next (s.ifLive fun s => s.haltRelease pairs cores) else .fault .illFormed

/-- `READ_ID` (R925). The XFLASH operation reads the flash ID. Operands: the bytes the flash returns. -/
def execReadId (ini : Initiator) (id : BitVec 24) (s : State) : Host.Outcome State Fault Refusal :=
  .next (s.writeAt (some { flashId := id.toNat }) ini XFLASH.pg XFLASH.OP_GO 0 (2 ^ 31 + 1))

/-- `ERASE_4K` (R925). The XFLASH operation erases 4 KiB. -/
def execErase4k (ini : Initiator) (s : State) : Host.Outcome State Fault Refusal :=
  .next (s.writeAt none ini XFLASH.pg XFLASH.OP_GO 0 (2 ^ 31 + 2))

/-- `ERASE_64K` (R925). The XFLASH operation erases 64 KiB. -/
def execErase64k (ini : Initiator) (s : State) : Host.Outcome State Fault Refusal :=
  .next (s.writeAt none ini XFLASH.pg XFLASH.OP_GO 0 (2 ^ 31 + 3))

/-- `PROGRAM` (R925). The XFLASH operation programs flash from Main SRAM. -/
def execProgram (ini : Initiator) (s : State) : Host.Outcome State Fault Refusal :=
  .next (s.writeAt none ini XFLASH.pg XFLASH.OP_GO 0 (2 ^ 31 + 4))

/-- `XFLASH_READ` (R925). The XFLASH READ operation copies flash into Main SRAM. -/
def execXflashRead (ini : Initiator) (s : State) : Host.Outcome State Fault Refusal :=
  .next (s.writeAt none ini XFLASH.pg XFLASH.OP_GO 0 (2 ^ 31 + 5))

/-- `XFLASH_OP_DONE` (R925). An XFLASH operation completes with its RESULT and OP_DONE or OP_FAIL. -/
def execXflashOpDone (flashOk : Bool) (s : State) : Host.Outcome State Fault Refusal :=
  .next (s.ifLive fun s => s.flashDone flashOk)

/-- `DLL_LOCKED` (R762). The follower's house-clock DLL completes its alignment to the lead's root edges and HOUSE.STATUS.LOCKED rises. Operands: the tap in force and the phase error in ps. -/
def execDllLocked (tap : BitVec 7) (e : BitVec 16) (s : State) : Host.Outcome State Fault Refusal :=
  .next (s.ifLive fun s => s.dllLocked tap.toNat e.toNat)

/-- `ROOT_CLOCK_RETURN` (R869). A root clock that returns within 1 ms of its loss makes both PLLs relock by band search, while CLK_SAFE stays set. -/
def execRootClockReturn (s : State) : Host.Outcome State Fault Refusal :=
  .next s.rootClockReturn

/-- `ADDRESS_AGEING` (R809). A learned source address of the BRIDGE-mode switch ages out after 300 s, so frames to it are flooded again. -/
def execAddressAgeing (mac : BitVec 48) (s : State) : Host.Outcome State Fault Refusal :=
  .next (s.ifLive fun s => s.addressAge mac)

/-- `PCIE_CONFIG_WRITE` (R86). A PCI Express configuration write from the host sets or clears MSI enable, which LINK.MSI_EN reports and R113 obeys. -/
def execPcieConfigWrite (p : HostPort) (msi : Bool) (s : State) : Host.Outcome State Fault Refusal :=
  .next (s.pcieConfig p msi)

end Sys2Proof.Machine
end

