-- ==== Sys2Proof/Machine/Dispatch.lean ====
section
/-!
DEFINITION. Machine/Dispatch.lean: the effect of a command on everything but the queue, one arm per row of the table.
-/
namespace Sys2Proof.Machine

/-- The meaning of a command. -/
def exec (i : Instr) (s : State) : Host.Outcome State Fault Refusal :=
  match i with
  | .registerWrite ini addr v x => Sys2Proof.Machine.execRegisterWrite ini addr v x s
  | .readClear ini addr => Sys2Proof.Machine.execReadClear ini addr s
  | .shadowCommit ini pg => Sys2Proof.Machine.execShadowCommit ini pg s
  | .pageLock ini pg => Sys2Proof.Machine.execPageLock ini pg s
  | .keyTake ini n => Sys2Proof.Machine.execKeyTake ini n s
  | .keyRelease ini n => Sys2Proof.Machine.execKeyRelease ini n s
  | .releaseMine ini => Sys2Proof.Machine.execReleaseMine ini s
  | .forceRelease ini n => Sys2Proof.Machine.execForceRelease ini n s
  | .stampRead ini k => Sys2Proof.Machine.execStampRead ini k s
  | .cycLoRead ini => Sys2Proof.Machine.execCycLoRead ini s
  | .nextSeqLoRead ini => Sys2Proof.Machine.execNextSeqLoRead ini s
  | .impLoRead ini m => Sys2Proof.Machine.execImpLoRead ini m s
  | .timeNsRead ini => Sys2Proof.Machine.execTimeNsRead ini s
  | .offsetLoRead ini => Sys2Proof.Machine.execOffsetLoRead ini s
  | .jumpPendLoRead ini => Sys2Proof.Machine.execJumpPendLoRead ini s
  | .pcieRequest p r => Sys2Proof.Machine.execPcieRequest p r s
  | .pcieLinkUp p gen2 => Sys2Proof.Machine.execPcieLinkUp p gen2 s
  | .pcieLinkDown p => Sys2Proof.Machine.execPcieLinkDown p s
  | .qspiRead p addr words abandoned upsets => Sys2Proof.Machine.execQspiRead p addr words abandoned upsets s
  | .qspiWrite p addr bytes upsets => Sys2Proof.Machine.execQspiWrite p addr bytes upsets s
  | .qspiStatus p => Sys2Proof.Machine.execQspiStatus p s
  | .qspiId p => Sys2Proof.Machine.execQspiId p s
  | .releaseAll p => Sys2Proof.Machine.execReleaseAll p s
  | .qspiUnknownCommand p code => Sys2Proof.Machine.execQspiUnknownCommand p code s
  | .hostAccessTimeout p => Sys2Proof.Machine.execHostAccessTimeout p s
  | .eoi ini t => Sys2Proof.Machine.execEoi ini t s
  | .doorbell ini src => Sys2Proof.Machine.execDoorbell ini src s
  | .modeRequest ini target => Sys2Proof.Machine.execModeRequest ini target s
  | .modeTick lead => Sys2Proof.Machine.execModeTick lead s
  | .syncTimeout n => Sys2Proof.Machine.execSyncTimeout n s
  | .readyAfterPortsOff => Sys2Proof.Machine.execReadyAfterPortsOff s
  | .dieLinkLoss => Sys2Proof.Machine.execDieLinkLoss s
  | .dieLinkRestore => Sys2Proof.Machine.execDieLinkRestore s
  | .lockstepMismatch p => Sys2Proof.Machine.execLockstepMismatch p s
  | .bootComplete badA badB => Sys2Proof.Machine.execBootComplete badA badB s
  | .bootFail otpOk badA badB => Sys2Proof.Machine.execBootFail otpOk badA badB s
  | .formUpdate n => Sys2Proof.Machine.execFormUpdate n s
  | .formInputLost n k => Sys2Proof.Machine.execFormInputLost n k s
  | .angleLimitTimeout n => Sys2Proof.Machine.execAngleLimitTimeout n s
  | .slotDecayEnd n k => Sys2Proof.Machine.execSlotDecayEnd n k s
  | .gridPresent n => Sys2Proof.Machine.execGridPresent n s
  | .closePermitGrant n => Sys2Proof.Machine.execClosePermitGrant n s
  | .leTrigger n => Sys2Proof.Machine.execLeTrigger n s
  | .leRunStart n => Sys2Proof.Machine.execLeRunStart n s
  | .spTargetWrite ini n k v portToo => Sys2Proof.Machine.execSpTargetWrite ini n k v portToo s
  | .coefSwap ini n => Sys2Proof.Machine.execCoefSwap ini n s
  | .coefCopyDone n => Sys2Proof.Machine.execCoefCopyDone n s
  | .resume ini n => Sys2Proof.Machine.execResume ini n s
  | .nop n up => Sys2Proof.Machine.execNop n up s
  | .mov n up => Sys2Proof.Machine.execMov n up s
  | .sel n up => Sys2Proof.Machine.execSel n up s
  | .fcmp n up => Sys2Proof.Machine.execFcmp n up s
  | .qcmp n up => Sys2Proof.Machine.execQcmp n up s
  | .plog n up => Sys2Proof.Machine.execPlog n up s
  | .ld n up => Sys2Proof.Machine.execLd n up s
  | .st n up => Sys2Proof.Machine.execSt n up s
  | .fadd n up => Sys2Proof.Machine.execFadd n up s
  | .fsub n up => Sys2Proof.Machine.execFsub n up s
  | .fmul n up => Sys2Proof.Machine.execFmul n up s
  | .fmac n up => Sys2Proof.Machine.execFmac n up s
  | .fmin n up => Sys2Proof.Machine.execFmin n up s
  | .fmax n up => Sys2Proof.Machine.execFmax n up s
  | .fclamp n up => Sys2Proof.Machine.execFclamp n up s
  | .fabs n up => Sys2Proof.Machine.execFabs n up s
  | .fneg n up => Sys2Proof.Machine.execFneg n up s
  | .fdiv n up => Sys2Proof.Machine.execFdiv n up s
  | .fsqrt n up => Sys2Proof.Machine.execFsqrt n up s
  | .qadd n up => Sys2Proof.Machine.execQadd n up s
  | .qsub n up => Sys2Proof.Machine.execQsub n up s
  | .qmul n up => Sys2Proof.Machine.execQmul n up s
  | .qmac n up => Sys2Proof.Machine.execQmac n up s
  | .qshl n up => Sys2Proof.Machine.execQshl n up s
  | .qshr n up => Sys2Proof.Machine.execQshr n up s
  | .qabs n up => Sys2Proof.Machine.execQabs n up s
  | .i2f n up => Sys2Proof.Machine.execI2f n up s
  | .q2f n up => Sys2Proof.Machine.execQ2f n up s
  | .f2q n up => Sys2Proof.Machine.execF2q n up s
  | .sincos n up => Sys2Proof.Machine.execSincos n up s
  | .clarke n up => Sys2Proof.Machine.execClarke n up s
  | .iclarke n up => Sys2Proof.Machine.execIclarke n up s
  | .park n up => Sys2Proof.Machine.execPark n up s
  | .ipark n up => Sys2Proof.Machine.execIpark n up s
  | .integ n up => Sys2Proof.Machine.execInteg n up s
  | .reson n up => Sys2Proof.Machine.execReson n up s
  | .rlim n up => Sys2Proof.Machine.execRlim n up s
  | .out n up => Sys2Proof.Machine.execOut n up s
  | .endRun n up => Sys2Proof.Machine.execEndRun n up s
  | .lpsRefetch n again => Sys2Proof.Machine.execLpsRefetch n again s
  | .load ini first count => Sys2Proof.Machine.execLoad ini first count s
  | .loadDone => Sys2Proof.Machine.execLoadDone s
  | .libCopy ini id => Sys2Proof.Machine.execLibCopy ini id s
  | .libDone => Sys2Proof.Machine.execLibDone s
  | .inject ini v => Sys2Proof.Machine.execInject ini v s
  | .pwmCarrierEvent n pt => Sys2Proof.Machine.execPwmCarrierEvent n pt s
  | .pwmSyncEvent n => Sys2Proof.Machine.execPwmSyncEvent n s
  | .cmpWrite ini n c v portToo => Sys2Proof.Machine.execCmpWrite ini n c v portToo s
  | .rootClockLoss => Sys2Proof.Machine.execRootClockLoss s
  | .rootLossSafeLevel => Sys2Proof.Machine.execRootLossSafeLevel s
  | .rootLossReset => Sys2Proof.Machine.execRootLossReset s
  | .tripInputEdge p level => Sys2Proof.Machine.execTripInputEdge p level s
  | .fuseSourceActive src overtemp => Sys2Proof.Machine.execFuseSourceActive src overtemp s
  | .clearSource ini hi mask => Sys2Proof.Machine.execClearSource ini hi mask s
  | .clearUnit ini mask => Sys2Proof.Machine.execClearUnit ini mask s
  | .sarRegularTrigger u => Sys2Proof.Machine.execSarRegularTrigger u s
  | .sarInjectedTrigger u => Sys2Proof.Machine.execSarInjectedTrigger u s
  | .swtrigReg ini u => Sys2Proof.Machine.execSwtrigReg ini u s
  | .swtrigInj ini u => Sys2Proof.Machine.execSwtrigInj ini u s
  | .sarConversionComplete u code hi lo => Sys2Proof.Machine.execSarConversionComplete u code hi lo s
  | .dsfWindowEnd b c bits ck => Sys2Proof.Machine.execDsfWindowEnd b c bits ck s
  | .dsfStuck b c bits => Sys2Proof.Machine.execDsfStuck b c bits s
  | .dsfStuckEnd b c bits => Sys2Proof.Machine.execDsfStuckEnd b c bits s
  | .dsfNoClk b => Sys2Proof.Machine.execDsfNoClk b s
  | .dsfClockReturn b => Sys2Proof.Machine.execDsfClockReturn b s
  | .cmpDecision b c bits => Sys2Proof.Machine.execCmpDecision b c bits s
  | .portTick rbA rbB => Sys2Proof.Machine.execPortTick rbA rbB s
  | .startCheck ini p => Sys2Proof.Machine.execStartCheck ini p s
  | .startPrecharge ini p => Sys2Proof.Machine.execStartPrecharge ini p s
  | .startEnergy ini p => Sys2Proof.Machine.execStartEnergy ini p s
  | .portStop ini p => Sys2Proof.Machine.execPortStop ini p s
  | .ackFault ini p => Sys2Proof.Machine.execAckFault ini p s
  | .forceFault ini p => Sys2Proof.Machine.execForceFault ini p s
  | .clearWeld ini p => Sys2Proof.Machine.execClearWeld ini p s
  | .chtestExpiry p => Sys2Proof.Machine.execChtestExpiry p s
  | .closeDeadline p => Sys2Proof.Machine.execCloseDeadline p s
  | .openDeadline p => Sys2Proof.Machine.execOpenDeadline p s
  | .voltageMatchHold p => Sys2Proof.Machine.execVoltageMatchHold p s
  | .ccHoldExpiry p => Sys2Proof.Machine.execCcHoldExpiry p s
  | .ccDeadline p => Sys2Proof.Machine.execCcDeadline p s
  | .preDeadline p => Sys2Proof.Machine.execPreDeadline p s
  | .stopDeadline p => Sys2Proof.Machine.execStopDeadline p s
  | .weldDeadline p => Sys2Proof.Machine.execWeldDeadline p s
  | .openDelayExpiry p => Sys2Proof.Machine.execOpenDelayExpiry p s
  | .insulationFaultHold p => Sys2Proof.Machine.execInsulationFaultHold p s
  | .plugLossHold p => Sys2Proof.Machine.execPlugLossHold p s
  | .portValueWrite ini p r v => Sys2Proof.Machine.execPortValueWrite ini p r v s
  | .pilotGenWrite ini p v => Sys2Proof.Machine.execPilotGenWrite ini p v s
  | .pilotPeriodStart => Sys2Proof.Machine.execPilotPeriodStart s
  | .pilotPeriodEnd => Sys2Proof.Machine.execPilotPeriodEnd s
  | .metroSample bits => Sys2Proof.Machine.execMetroSample bits s
  | .begin ini m => Sys2Proof.Machine.execBegin ini m s
  | .pantryEnd ini m => Sys2Proof.Machine.execPantryEnd ini m s
  | .reading ini m => Sys2Proof.Machine.execReading ini m s
  | .calLoad ini => Sys2Proof.Machine.execCalLoad ini s
  | .recordWritten ok => Sys2Proof.Machine.execRecordWritten ok s
  | .pantryRewriteRetry ok => Sys2Proof.Machine.execPantryRewriteRetry ok s
  | .rdidRetry density => Sys2Proof.Machine.execRdidRetry density s
  | .pantryReady density => Sys2Proof.Machine.execPantryReady density s
  | .ackSeqWrite ini v => Sys2Proof.Machine.execAckSeqWrite ini v s
  | .readSeqWrite ini v => Sys2Proof.Machine.execReadSeqWrite ini v s
  | .readDone memErr => Sys2Proof.Machine.execReadDone memErr s
  | .periodicSnapshot => Sys2Proof.Machine.execPeriodicSnapshot s
  | .pfwAssert => Sys2Proof.Machine.execPfwAssert s
  | .snapshotVerified => Sys2Proof.Machine.execSnapshotVerified s
  | .metroRestore blank foreign newOk oldOk => Sys2Proof.Machine.execMetroRestore blank foreign newOk oldOk s
  | .safeioSample raw tp => Sys2Proof.Machine.execSafeioSample raw tp s
  | .safetyTick => Sys2Proof.Machine.execSafetyTick s
  | .testPulseStart k => Sys2Proof.Machine.execTestPulseStart k s
  | .testPulseEnd k => Sys2Proof.Machine.execTestPulseEnd k s
  | .pairDiscrepancyFault q => Sys2Proof.Machine.execPairDiscrepancyFault q s
  | .safeioAck ini mask => Sys2Proof.Machine.execSafeioAck ini mask s
  | .safenetCopy p payload => Sys2Proof.Machine.execSafenetCopy p payload s
  | .safenetCompareTimeout q => Sys2Proof.Machine.execSafenetCompareTimeout q s
  | .safenetWatchdogFault q => Sys2Proof.Machine.execSafenetWatchdogFault q s
  | .safenetAck ini mask => Sys2Proof.Machine.execSafenetAck ini mask s
  | .wdsvc ini x token => Sys2Proof.Machine.execWdsvc ini x token s
  | .watchdogExpiry x => Sys2Proof.Machine.execWatchdogExpiry x s
  | .wdclear ini mask => Sys2Proof.Machine.execWdclear ini mask s
  | .switchingPeriodStart a m0 m1 m2 => Sys2Proof.Machine.execSwitchingPeriodStart a m0 m1 m2 s
  | .refreshPulse n dv => Sys2Proof.Machine.execRefreshPulse n dv s
  | .bootUvLockout v => Sys2Proof.Machine.execBootUvLockout v s
  | .vgdLockout vgd => Sys2Proof.Machine.execVgdLockout vgd s
  | .vgdLockoutEnd vgd => Sys2Proof.Machine.execVgdLockoutEnd vgd s
  | .chopOn vm => Sys2Proof.Machine.execChopOn vm s
  | .chopOff vm => Sys2Proof.Machine.execChopOff vm s
  | .chopLimit => Sys2Proof.Machine.execChopLimit s
  | .chopRestEnd vm => Sys2Proof.Machine.execChopRestEnd vm s
  | .mbovTrip vm => Sys2Proof.Machine.execMbovTrip vm s
  | .clearOv ini vm => Sys2Proof.Machine.execClearOv ini vm s
  | .clearFirst ini => Sys2Proof.Machine.execClearFirst ini s
  | .diag ini n vm => Sys2Proof.Machine.execDiag ini n vm s
  | .diagPhaseEnd n vs vm => Sys2Proof.Machine.execDiagPhaseEnd n vs vm s
  | .vdsFault n d => Sys2Proof.Machine.execVdsFault n d s
  | .hardShort n d => Sys2Proof.Machine.execHardShort n d s
  | .gdrvClear ini n => Sys2Proof.Machine.execGdrvClear ini n s
  | .profileTick => Sys2Proof.Machine.execProfileTick s
  | .enable ini a => Sys2Proof.Machine.execEnable ini a s
  | .move ini a => Sys2Proof.Machine.execMove ini a s
  | .jog ini a => Sys2Proof.Machine.execJog ini a s
  | .axisStop ini a => Sys2Proof.Machine.execAxisStop ini a s
  | .home ini a => Sys2Proof.Machine.execHome ini a s
  | .stepIn ini a => Sys2Proof.Machine.execStepIn ini a s
  | .gear ini a => Sys2Proof.Machine.execGear ini a s
  | .disable ini a => Sys2Proof.Machine.execDisable ini a s
  | .axisClear ini a => Sys2Proof.Machine.execAxisClear ini a s
  | .setPos ini a => Sys2Proof.Machine.execSetPos ini a s
  | .homeMaxReached a => Sys2Proof.Machine.execHomeMaxReached a s
  | .coarseStep a up => Sys2Proof.Machine.execCoarseStep a up s
  | .gearPush ini a => Sys2Proof.Machine.execGearPush ini a s
  | .gearFlush ini a => Sys2Proof.Machine.execGearFlush ini a s
  | .encoderEdge e ab => Sys2Proof.Machine.execEncoderEdge e ab s
  | .indexCapture e => Sys2Proof.Machine.execIndexCapture e s
  | .atticSampleLatch n => Sys2Proof.Machine.execAtticSampleLatch n s
  | .segmentComplete n => Sys2Proof.Machine.execSegmentComplete n s
  | .capStart ini n => Sys2Proof.Machine.execCapStart ini n s
  | .capStop ini n => Sys2Proof.Machine.execCapStop ini n s
  | .capForce ini n => Sys2Proof.Machine.execCapForce ini n s
  | .capClear ini n => Sys2Proof.Machine.execCapClear ini n s
  | .trigoutRelease l => Sys2Proof.Machine.execTrigoutRelease l s
  | .trigEdge l => Sys2Proof.Machine.execTrigEdge l s
  | .laneUp l partner => Sys2Proof.Machine.execLaneUp l partner s
  | .laneLost l failed => Sys2Proof.Machine.execLaneLost l failed s
  | .idleFrame l cyc => Sys2Proof.Machine.execIdleFrame l cyc s
  | .stateFrame l seq f => Sys2Proof.Machine.execStateFrame l seq f s
  | .faultFrame l seq m self cause src ago => Sys2Proof.Machine.execFaultFrame l seq m self cause src ago s
  | .swapFrame l seq target k => Sys2Proof.Machine.execSwapFrame l seq target k s
  | .portsFrame l seq ports => Sys2Proof.Machine.execPortsFrame l seq ports s
  | .copyFrame l seq words last => Sys2Proof.Machine.execCopyFrame l seq words last s
  | .xferFrame l seq addr data => Sys2Proof.Machine.execXferFrame l seq addr data s
  | .ping l at_ => Sys2Proof.Machine.execPing l at_ s
  | .echo l ps => Sys2Proof.Machine.execEcho l ps s
  | .cycmark l seq cyc => Sys2Proof.Machine.execCycmark l seq cyc s
  | .setCycleBoundary rb => Sys2Proof.Machine.execSetCycleBoundary rb s
  | .stateFrameRelease => Sys2Proof.Machine.execStateFrameRelease s
  | .voteInstant => Sys2Proof.Machine.execVoteInstant s
  | .aliveToggle => Sys2Proof.Machine.execAliveToggle s
  | .aliveLost m => Sys2Proof.Machine.execAliveLost m s
  | .isolation m => Sys2Proof.Machine.execIsolation m s
  | .hclkAbsent => Sys2Proof.Machine.execHclkAbsent s
  | .hclkReturn e => Sys2Proof.Machine.execHclkReturn e s
  | .slewEnd e => Sys2Proof.Machine.execSlewEnd e s
  | .holdoverLimit => Sys2Proof.Machine.execHoldoverLimit s
  | .ckRescue k => Sys2Proof.Machine.execCkRescue k s
  | .join ini => Sys2Proof.Machine.execJoin ini s
  | .swap ini target => Sys2Proof.Machine.execSwap ini target s
  | .leave ini => Sys2Proof.Machine.execLeave ini s
  | .promote ini => Sys2Proof.Machine.execPromote ini s
  | .joinPhaseTimeout => Sys2Proof.Machine.execJoinPhaseTimeout s
  | .xferCmd ini len target => Sys2Proof.Machine.execXferCmd ini len target s
  | .xferDone => Sys2Proof.Machine.execXferDone s
  | .ethFrameReceive p f frac residence => Sys2Proof.Machine.execEthFrameReceive p f frac residence s
  | .txHeadWrite ini q v => Sys2Proof.Machine.execTxHeadWrite ini q v s
  | .txFrameSent q frac => Sys2Proof.Machine.execTxFrameSent q frac s
  | .ethLinkChange p sense => Sys2Proof.Machine.execEthLinkChange p sense s
  | .supervisionSend => Sys2Proof.Machine.execSupervisionSend s
  | .supervisionTimeout p => Sys2Proof.Machine.execSupervisionTimeout p s
  | .nodeAgeing mac => Sys2Proof.Machine.execNodeAgeing mac s
  | .mdioAccess ini v => Sys2Proof.Machine.execMdioAccess ini v s
  | .mdioDone data => Sys2Proof.Machine.execMdioDone data s
  | .ptpSync p m frac => Sys2Proof.Machine.execPtpSync p m frac s
  | .followUp p m frac => Sys2Proof.Machine.execFollowUp p m frac s
  | .pdelayReqSend p frac => Sys2Proof.Machine.execPdelayReqSend p frac s
  | .pdelayReqReceive p m frac turn => Sys2Proof.Machine.execPdelayReqReceive p m frac turn s
  | .pdelayRespReceive p turn frac => Sys2Proof.Machine.execPdelayRespReceive p turn frac s
  | .ptpSyncTimeout => Sys2Proof.Machine.execPtpSyncTimeout s
  | .rateWrite ini v => Sys2Proof.Machine.execRateWrite ini v s
  | .setTime ini v => Sys2Proof.Machine.execSetTime ini v s
  | .stepRequest ini v => Sys2Proof.Machine.execStepRequest ini v s
  | .accept ini => Sys2Proof.Machine.execAccept ini s
  | .reject ini => Sys2Proof.Machine.execReject ini s
  | .parentWrite ini v => Sys2Proof.Machine.execParentWrite ini v s
  | .timeEvent n => Sys2Proof.Machine.execTimeEvent n s
  | .timeOutputEnd n => Sys2Proof.Machine.execTimeOutputEnd n s
  | .pllLockDeclared sys band counts => Sys2Proof.Machine.execPllLockDeclared sys band counts s
  | .pllLockLost sys counts => Sys2Proof.Machine.execPllLockLost sys counts s
  | .bandMiss => Sys2Proof.Machine.execBandMiss s
  | .spreadTriangleStart => Sys2Proof.Machine.execSpreadTriangleStart s
  | .powerOnReset => Sys2Proof.Machine.execPowerOnReset s
  | .resetNAssert => Sys2Proof.Machine.execResetNAssert s
  | .rstreqReset => Sys2Proof.Machine.execRstreqReset s
  | .rstreqRelease => Sys2Proof.Machine.execRstreqRelease s
  | .rstreqStuck => Sys2Proof.Machine.execRstreqStuck s
  | .rstreqUnignore => Sys2Proof.Machine.execRstreqUnignore s
  | .swrst ini => Sys2Proof.Machine.execSwrst ini s
  | .resetRelease st => Sys2Proof.Machine.execResetRelease st s
  | .powerCmdP0 ini => Sys2Proof.Machine.execPowerCmdP0 ini s
  | .powerCmdP1 ini => Sys2Proof.Machine.execPowerCmdP1 ini s
  | .powerCmdP2 ini => Sys2Proof.Machine.execPowerCmdP2 ini s
  | .powerCmdP3 ini => Sys2Proof.Machine.execPowerCmdP3 ini s
  | .powerCmdP4 ini => Sys2Proof.Machine.execPowerCmdP4 ini s
  | .powerTransitionDone => Sys2Proof.Machine.execPowerTransitionDone s
  | .wake src => Sys2Proof.Machine.execWake src s
  | .provision ini => Sys2Proof.Machine.execProvision ini s
  | .seal ini => Sys2Proof.Machine.execSeal ini s
  | .returnCmd ini => Sys2Proof.Machine.execReturnCmd ini s
  | .advance ini type => Sys2Proof.Machine.execAdvance ini type s
  | .check ini slotB bad => Sys2Proof.Machine.execCheck ini slotB bad s
  | .ramBoot ini => Sys2Proof.Machine.execRamBoot ini s
  | .cellarCmdDone burnOk => Sys2Proof.Machine.execCellarCmdDone burnOk s
  | .attestGo ini => Sys2Proof.Machine.execAttestGo ini s
  | .attestDone => Sys2Proof.Machine.execAttestDone s
  | .chalNew ini => Sys2Proof.Machine.execChalNew ini s
  | .authGo ini => Sys2Proof.Machine.execAuthGo ini s
  | .authLockoutEnd => Sys2Proof.Machine.execAuthLockoutEnd s
  | .debugSessionEnd ini => Sys2Proof.Machine.execDebugSessionEnd ini s
  | .sessionExpiry => Sys2Proof.Machine.execSessionExpiry s
  | .leHalt ini mask => Sys2Proof.Machine.execLeHalt ini mask s
  | .leResume ini mask => Sys2Proof.Machine.execLeResume ini mask s
  | .leStep ini n => Sys2Proof.Machine.execLeStep ini n s
  | .supHalt p => Sys2Proof.Machine.execSupHalt p s
  | .coreHalt c => Sys2Proof.Machine.execCoreHalt c s
  | .haltRelease pairs cores => Sys2Proof.Machine.execHaltRelease pairs cores s
  | .readId ini id => Sys2Proof.Machine.execReadId ini id s
  | .erase4k ini => Sys2Proof.Machine.execErase4k ini s
  | .erase64k ini => Sys2Proof.Machine.execErase64k ini s
  | .program ini => Sys2Proof.Machine.execProgram ini s
  | .xflashRead ini => Sys2Proof.Machine.execXflashRead ini s
  | .xflashOpDone flashOk => Sys2Proof.Machine.execXflashOpDone flashOk s
  | .dllLocked tap e => Sys2Proof.Machine.execDllLocked tap e s
  | .rootClockReturn => Sys2Proof.Machine.execRootClockReturn s
  | .addressAgeing mac => Sys2Proof.Machine.execAddressAgeing mac s
  | .pcieConfigWrite p msi => Sys2Proof.Machine.execPcieConfigWrite p msi s

end Sys2Proof.Machine
end

