-- ==== Sys2Proof/Machine/Pins.lean ====
section
/-!
DEFINITION. Machine/Pins.lean: what the balls show (19 R943, R944, with R72 to R74, R111, R447, R643, R747, R762 and R777). The state holds
what drives them; the chapters' own outputs stand beside their blocks (`pwmPin`, `pilotPin`, `tpPin`, `cdoA`, `timeO`, `intN`).
-/
namespace Sys2Proof.Machine

/-- A level of a push-pull ball. -/
def levelOf (b : Bool) : PinLevel := if b then .high else .low

/-- The reset column of R943 holds: a reset condition, or P3 or P4, in which the ring holds the same levels (R944). -/
def State.ballsHeld (s : State) : Bool := s.pwr.held || 3 ≤ s.pwr.state

/-- PWM_O(8n + i). -/
def State.pwmBall (s : State) (n : Fin 16) (i : Nat) : PinLevel := if s.ballsHeld then .hiz else s.pwmPin n i

/-- CDO_Ap and CDO_Bp. -/
def State.cdoBall (s : State) (p : Nat) (b : Bool) : PinLevel :=
  if s.ballsHeld then .low else levelOf (if b then s.cdoB p else s.cdoA p)

/-- CP_Op. -/
def State.pilotBall (s : State) (p : Fin 8) : PinLevel := if s.ballsHeld then .low else s.pilotPin p

/-- TP_k: off where it is low. -/
def State.tpBall (s : State) (k : Fin 4) : PinLevel := if s.ballsHeld || s.mode = mBOOT then .low else s.tpPin k

/-- TIME_On. -/
def State.timeBall (s : State) (n : Fin 4) : PinLevel := if s.ballsHeld || s.mode = mBOOT then .low else levelOf (s.timeO n)

/-- ALIVE_O (R777). -/
def State.aliveBall (s : State) : PinLevel := if s.ballsHeld || s.mode = mBOOT then .low else levelOf s.redun.alive

/-- GD_HOn and GD_LOn at CYC (R641, R643): they follow the commands in RUN alone; in BRAKE the low side is on. -/
def State.gdHigh (s : State) (n : Fin 12) : PinLevel :=
  if s.pwr.held || s.pwr.state ≠ 0 then .low else levelOf (s.legHigh n)

def State.gdLow (s : State) (n : Fin 12) : PinLevel :=
  if s.pwr.held || s.pwr.state ≠ 0 then .low else levelOf (s.legLow n)

/-- BRK_O (R658, R663): the Chimney acts in every power state. -/
def State.brakeBall (s : State) : PinLevel :=
  if s.pwr.held then .low else levelOf (s.flag CHIMNEY.pg CHIMNEY.STATUS_CHOP_ON)

/-- TRIG0 to TRIG3: pulled low, or released (R747). -/
def State.trigBall (s : State) (l : Fin 4) : PinLevel := if !s.ballsHeld && s.attic.pull[l].isSome then .low else .hiz

/-- INT_A_N and INT_B_N: driven low, or released (R111). -/
def State.intBall (s : State) (p : HostPort) : PinLevel := if !s.ballsHeld && !s.intN p then .low else .hiz

/-- DS_CKk (R447, R780, R784): DSF0 says whether and at what rate; in a set the role decides. A clock that nothing has the device
drive is not driven. -/
def State.dsckBall (s : State) (k : Fin 4) : PinLevel :=
  if s.ballsHeld || s.mode = mBOOT || s.outOfSet then .hiz
  else if s.pwr.state = 2 then .low
  else if !s.dsckDriven k then .hiz
  else if !s.flag CLOCK.pg CLOCK.STATUS_CLN_LOCK then .low
  else .edges

/-- MDS_CK0 and MDS_CK1: 10 MHz while the metrology partition runs (R538), which it does from the end of BOOT (R43, R943). -/
def State.mdsckBall (s : State) : PinLevel :=
  if s.pwr.held then .hiz
  else if 3 ≤ s.pwr.state then .low
  else if s.mode ≠ mBOOT && s.flag METRO.pg METRO.STATUS_RUNNING then .edges
  else .hiz

/-- Byte `k` of a quad-SPI frame with command byte `cmd`, the command byte being byte 0, is one in which the device drives IO0 to IO3: from
the first wait or sync byte on until CS_N rises, which in a READ stands behind the address and the turnaround byte, in STATUS and ID
behind the turnaround byte (R72 to R74). -/
def qspiDrives (cmd : BitVec 8) (k : Nat) : Bool :=
  if cmd = 0x0B then 6 ≤ k else if cmd = 0x05 || cmd = 0x9F then 2 ≤ k else false

/-- PA_IO0 to PA_IO3 or PB_IO0 to PB_IO3 of a port in quad-SPI mode; `frame` is the command byte of the frame in progress and the byte of it
on the wire, none while CS_N is high (R74, R943). -/
def State.qspiBall (s : State) (p : HostPort) (frame : Option (BitVec 8 × Nat)) : PinLevel :=
  match frame with
  | some (cmd, k) => if !s.ballsHeld && s.isQspi p && qspiDrives cmd k then .edges else .hiz
  | none => .hiz

/-- The PCI Express transmitters of a port are active; else they are electrically idle (R943). -/
def State.pcieTx (s : State) (p : HostPort) : Bool := !s.ballsHeld && !s.isQspi p

/-- The SGMII transmitters of a port and the transmitter of a Twitos lane are active; else they are electrically idle (R808, R943). -/
def State.sgmiiTx (s : State) (p : Fin 2) : Bool := !s.ballsHeld && s.ethRuns && s.flag ETHSW.pg ETHSW.PORT_EN p
def State.twitosTx (s : State) (l : Fin 4) : Bool := !s.ballsHeld && s.laneOn l

/-- DBG_TDO: driven while it shifts (R943). -/
def State.tdoBall (s : State) (shifting : Bool) : PinLevel := if !s.ballsHeld && shifting then .edges else .hiz

/-- The outputs of the image flash, and PAN_CS_N and the other outputs of the Pantry flash; `sel`: an access is in progress (R943). -/
def State.xfBall (s : State) : PinLevel := if s.ballsHeld then .hiz else .edges
def State.panCsBall (s : State) (sel : Bool) : PinLevel :=
  if s.ballsHeld then .hiz else if s.mode ≠ mBOOT && sel then .low else .high
def State.panBall (s : State) : PinLevel := if s.ballsHeld || s.mode = mBOOT then .hiz else .edges

/-- HCLK_P/N (R762). -/
def State.hclkBall (s : State) : PinLevel :=
  if s.ballsHeld || s.mode = mBOOT then .hiz else if s.flag HOUSE.pg HOUSE.STATUS_DRIVING then .edges else .hiz

end Sys2Proof.Machine
end

