-- ==== Sys2Proof/Safety.lean ====
section
/-!
DEFINITION. Safety.lean: what statements about whole runs are made of: the canonical form of every memory of the state, and
what no command may do to the state it starts from.
-/
namespace Sys2Proof.Machine

/-- Every store of the state is in canonical form: addresses strictly rise and no entry equals what an unlisted address
reads as. -/
structure Canonical (s : State) : Prop where
  regs : s.regs.wf = true
  staged : s.staged.wf = true
  committed : s.committed.wf = true
  sram : s.sram.wf = true
  otp : s.sec.otp.wf = true
  flash : s.sec.flash.wf = true
  words : s.lps.words.wf = true
  dmem : s.lps.dmem.wf = true
  attic : s.attic.mem.wf = true
  pantry : s.pantry.bytes.wf = true
  metro : s.metro.sram.wf = true
  parity : s.lps.parity.wf = true

/-- `t` may follow from `s` by the effect of a command: the commands that wait behind it still wait, a blown OTP bit stays blown
(R891), and the stores keep their canonical form. -/
structure Keeps (s t : State) : Prop where
  pending : t.pending = s.pending
  otp : ∀ i, s.otpBit i = true → t.otpBit i = true
  canonical : Canonical s → Canonical t

/-- A command that its sender can form completes: the machine stops for no other reason. -/
def Completes (c : Instr) (s : State) : Prop := ∃ t, exec c s = .next t

/-! ### What a command leaves alone -/

/-- Every register field beside those of the keys `ks` reads as before. -/
def sameRegsBut (ks : List Nat) (s t : State) : Prop := ∀ k, k ∉ ks → t.regs.get k = s.regs.get k

/-- Every register field of every page beside the pages `ps` reads as before. -/
def samePagesBut (ps : List Nat) (s t : State) : Prop := ∀ k, k / 131072 ∉ ps → t.regs.get k = s.regs.get k

/-- The keys of `CFG_ERROR` of a page. -/
def cfgErrKeys (pg : Nat) : List Nat :=
  [HDR.CFG_ERROR_CODE.key pg 0, HDR.CFG_ERROR_OFFSET.key pg 0, HDR.CFG_ERROR_INITIATOR.key pg 0]

/-- `CFG_ERROR` of page `pg` records a write of the register at `off` by `ini` as refused with `code` (R100, R101). -/
def State.refusedWith (t : State) (pg code off : Nat) (ini : Initiator) : Prop :=
  t.rd pg HDR.CFG_ERROR_CODE = code ∧ t.rd pg HDR.CFG_ERROR_OFFSET = off ∧ t.rd pg HDR.CFG_ERROR_INITIATOR = ownerId ini

/-- A refused write: `CFG_ERROR` records it and nothing else changes (R103). -/
def refusal (s t : State) (pg code off : Nat) (ini : Initiator) : Prop :=
  t.refusedWith pg code off ini ∧ sameRegsBut (cfgErrKeys pg) s t ∧ t = { s with regs := t.regs, resp := ⟨.ok, []⟩ }

/-! ### When a register access of a row completes -/

/-- A read of the register at offset `off` of page `pg` reaches it at once: the device answers the initiator (R80, R86), nothing of
its own waits in front (R66), it may read there (R81, R115), and the page's clock runs (R83, R84). -/
def State.readable (s : State) (ini : Initiator) (pg off : Nat) : Bool :=
  s.canSend ini && (s.waitingOf ini).isEmpty && s.mayReach ini (regAddr pg off) false &&
    match pageOf pg with
    | some (p, _) => s.domainRuns p.domain
    | none => false

/-- A write of `v` to the register at offset `off` of page `pg` reaches it at once and passes the checks of R103, R951 and
R117. -/
def State.admits (s : State) (ini : Initiator) (pg off v : Nat) : Bool :=
  s.canSend ini && (s.waitingOf ini).isEmpty && s.mayReach ini (regAddr pg off) true &&
    match pageOf pg with
    | some (p, inst) =>
      s.domainRuns p.domain && (pg ≠ METRO.pg || ini = .met) && (regFields p inst off).any (fun x => x.1.writable) &&
        (s.writeRefused ini p pg off (regFields p inst off) v).isNone
    | none => false

/-- A write of the block register at `off` of a page of type `block` does no more than its fields' access codes say: it is no command, triggers
nothing, and its value is held to no rule of its own. -/
def plainReg (block off : Nat) : Bool :=
  match block with
  | 0x0003 | 0x0006 | 0x0012 | 0x0031 | 0x0081 | 0x00A1 | 0x00A2 => true
  | 0x0002 => off ≠ 0x044
  | 0x0004 => off ≠ 0x048
  | 0x0007 => decide (off < 0x440)
  | 0x0010 => 0x040 ≤ off && (LE.SP_TARGET_VALUE.indexAt off).isNone
  | 0x0011 => off ≠ 0x044 && off ≠ 0x04C && off ≠ 0x05C
  | 0x0020 => off ≠ 0x008 && (PWM.CMP_FRAC.indexAt off).isNone
  | 0x0021 => off ≠ 0x054 && off ≠ 0x058 && off ≠ 0x05C && off ≠ 0x074 && (FUSE.PINCFG_POL.indexAt off).isNone
  | 0x0030 | 0x0070 | 0x0071 => off ≠ 0x008
  | 0x0040 => decide (off < 0x0A0)
  | 0x0041 => (PILOT.CH_GEN_MODE.indexAt off).isNone
  | 0x0051 => off ≠ 0x044 && off ≠ 0x060 && off ≠ 0x064 && off ≠ 0x070
  | 0x0060 => (SAFEIO.WDCFG_EN.indexAt off).isNone && (SAFEIO.WDSVC_TOKEN.indexAt off).isNone && off ≠ 0x04C && off ≠ 0x050 && off ≠ 0x154
  | 0x0061 => off ≠ 0x044
  | 0x0080 => off ≠ 0x0A8 && off ≠ 0x0D8
  | 0x0090 => (ATTIC.CAP_CMD_CODE.indexAt off).isNone
  | 0x00A0 => off ≠ 0x054 && off ≠ 0x08C
  | 0x00B0 => off ≠ 0x054 && (ETHSW.TXQ_HEAD_INDEX.indexAt off).isNone
  | 0x00B1 => off ≠ 0x058 && off ≠ 0x060 && off ≠ 0x064 && off ≠ 0x070 && off ≠ 0x090
  | 0x00C0 => off ≠ 0x04C
  | 0x00C1 => off ≠ 0x060
  | 0x00C2 => off ≠ 0x060 && off ≠ 0x0C8 && off ≠ 0x0D0 && off ≠ 0x0D8 && off ≠ 0x0DC && off ≠ 0x0E0
  | 0x00D0 => off ≠ 0x040 && off ≠ 0x044
  | _ => false

/-- What a write of `v` does to instance `i` of field `f` of page `pg`, as its access code says (R1, R104): a shadowed field stages it, a set
in force keeps; a field that is only read keeps; a field of CONFIG is written in CONFIG (R951). -/
def written (s t : State) (pg : Nat) (f : Fld) (i v : Nat) : Prop :=
  match f.acc with
  | .rw | .rwl => t.rd pg f i = f.part v
  | .rws => t.rd pg f i = s.rd pg f i ∧ ((f.cfgOnly = true → s.mode = mCONFIG) → t.merged pg f i = f.part v)
  | .w1c => ∀ b < f.width, bitOf (t.rd pg f i) b = (bitOf (s.rd pg f i) b && !bitOf v (f.lo + b))
  | .w1s => ∀ b < f.width, bitOf (t.rd pg f i) b = (bitOf (s.rd pg f i) b || bitOf v (f.lo + b))
  | _ => t.rd pg f i = s.rd pg f i

/-- What a write that `admits` lets pass does to the device (R1, R2, R100). -/
def State.taken (s : State) (e : Option Env) (ini : Initiator) (pg off v : Nat) : State :=
  match pageOf pg with
  | some (p, inst) =>
    if headerOff off then s.headerWrite ini p pg inst off v else s.blockWrite e ini p pg inst off (regFields p inst off) v
  | none => s

/-- The completion of a write, without data. -/
def State.done (s : State) : State := s.answer .ok []

/-! ### A charging output to which nothing happens -/

/-- The port is enabled and nothing outside its own progress but a plug that is not in place asks for a change of phase: no cause of R511 but
those of times and of the contactor feedback, no entry to READY or SAFE_STOP, no lead to follow. -/
def State.portCalm (s : State) (p : Fin 8) : Bool :=
  let pg := PORT.pg p
  let u := s.portUnit p
  let cp := s.rd PILOT.pg PILOT.CH_STATE_STATE p
  let le := s.leState (s.portLe p)
  s.mode ≠ mBOOT && !s.safeNow && s.flag pg PORT.CTRL_EN && u.copy.isNone && !u.ready && s.modes.ramp.isNone && !u.susp &&
    (cp = 1 || cp = 2 || cp = 3) && !s.flag PILOT.pg PILOT.CH_STATE_DIODE_ERR p && !s.flag PILOT.pg PILOT.CH_STATE_SENSE_ERR p &&
    !s.isoFault p && !bitOf (s.rd FUSE.pg FUSE.UNIT_TRIP_UNIT) (s.rd pg PORT.MAP_PWM) &&
    (le = leCLOSED || le = leBLEND || le = leFALLBACK) && s.portV p ≤ s.pR p PORT.V_MAX_VALUE && s.portVeh p ≤ s.pR p PORT.V_MAX_VALUE &&
    !s.measInvalid p && !s.cfbGone p && u.check.getD 0 + 1 < 10 * s.rd pg PORT.TIMEOUT_A_CC_MS &&
    u.pre.getD 0 + 1 < 10 * s.rd pg PORT.TIMEOUT_A_PRE_MS

/-- Nothing outside the port's own progress asks for a change of phase, the plug included. -/
def State.portQuiet (s : State) (p : Fin 8) : Bool := s.portCalm p && s.plugOk p

/-- The port entered FAULT with cause `c` (R511, R512), and no other port changed. -/
def State.portFaulted (s t : State) (p : Fin 8) (c : Nat) : Prop :=
  t.portPhase p = 12 ∧ t.rd (PORT.pg p) PORT.STATUS_STATE = 5 ∧ t.rd (PORT.pg p) PORT.STATUS_FAULT_CAUSE = c ∧ t.flag (PORT.pg p) PORT.STATUS_GATE = false ∧
  t.rd (PORT.pg p) PORT.FAULT_COUNT_COUNT = satInc 16 (s.rd (PORT.pg p) PORT.FAULT_COUNT_COUNT) ∧
  bitOf (t.rd (PORT.pg p) HDR.IRQ_STATUS_BITS) 2 = true ∧ t.mode = s.mode

/-- A command of the port was refused at the port tick (R496). -/
def State.cmdTurnedAway (t : State) (pg : Nat) (ini : Initiator) : Prop :=
  t.rd pg HDR.CFG_ERROR_CODE = 0x05 ∧ t.rd pg HDR.CFG_ERROR_OFFSET = 0x0B4 ∧ t.rd pg HDR.CFG_ERROR_INITIATOR = ownerId ini

/-- No set of a port or of the pilots waits for a port tick. -/
def State.noPortSet (s : State) : Bool :=
  !s.commitPending PILOT.pg && (List.range 8).all fun p => !s.commitPending (PORT.pg p)

/-- Both enables are high and the feedback reads closed. -/
def State.portClosed (s : State) (p : Fin 8) : Bool :=
  s.flag (PORT.pg p) PORT.STATUS_CDO_A && s.flag (PORT.pg p) PORT.STATUS_CDO_B && s.cfbClosed p

/-! ### Motion axes -/

/-- Axis `a` turns a stepper motor without soft limits and stall detection, no set waits for it, and the other axes rest. -/
def State.axisAlone (s : State) (a : Fin 4) : Bool :=
  s.live && s.mode ≠ mBOOT && s.pwr.state ≤ 1 && !s.commitPending (AXIS.pg a) && !s.motor1 a && !s.flag (AXIS.pg a) AXIS.CFG_STALL_EN &&
    !s.flag (AXIS.pg a) AXIS.CFG_SOFT_EN && (s.axisUnit a).limit.isNone && !(s.axisUnit a).stop &&
    (List.finRange 4).all fun b => b = a ||
      (s.axisState b = aIDLE && (s.axisUnit b).cmd.isNone && (s.axisUnit b).limit.isNone && !s.commitPending (AXIS.pg b))

/-- The states in which command `c` is accepted by an axis without soft limits (R689). -/
def axisAccepts (s : State) (a : Fin 4) (c : Nat) : Bool :=
  let st := s.axisState a
  match c with
  | 1 => st = aIDLE && s.flag (AXIS.pg a) AXIS.CTRL_EN && s.axisArmed a
  | 2 | 3 => st = aHOLD || st = aMOVE
  | 4 => true
  | 5 | 6 | 7 | 10 => st = aHOLD
  | 8 => st ≠ aFAULT
  | 9 => st = aFAULT
  | _ => false

/-- No accepted set waits on the page of a leg. -/
def State.legsSettled (s : State) : Bool := (List.range 12).all fun n => !s.commitPending (GDRV.pg n)

/-! ### Form Units -/

/-- The set points in effect after an update in `t`, each one step of SPRATE from `p`, `q`, `v` and `f` towards its register (R152). -/
def State.setPointsMove (s t : State) (n : Fin 2) (p q v f : Rat) : Prop :=
  let d := s.fR n FORM.SPRATE_VALUE * s.formT n
  (t.formUnit n).pNow = rampR p (s.fR n FORM.PREF_VALUE) d ∧ (t.formUnit n).qNow = rampR q (s.fR n FORM.QREF_VALUE) d ∧
    (t.formUnit n).vNow = rampR v (s.fR n FORM.VSET_VALUE) d ∧ (t.formUnit n).fNow = rampR f (s.fR n FORM.FSET_VALUE) d

/-! ### Capture channels -/

/-- The directory entry of the channel's current segment, and the word at which its next frame starts (R728, R729). -/
def State.dirEntry (s : State) (n : Fin 8) : Nat :=
  dirWord (s.rd ATTIC.pg ATTIC.CAP_SEGS_DIR_BASE n + s.rd ATTIC.pg ATTIC.CAP_STAT_NEXT n)
def State.frameAt (s : State) (n : Fin 8) : Nat :=
  s.segBase n (s.rd ATTIC.pg ATTIC.CAP_STAT_NEXT n) + s.frameWords n * (s.cap n).ring

/-! ### Twitos frames -/

/-- The member at the far end of lane `l`. -/
def State.laneMember (s : State) (l : Fin 4) : Fin 3 := Fin.ofNat 3 (s.rd (TWITOS.pg l) TWITOS.STATUS_PARTNER)

/-- A frame with link sequence number `seq` on lane `l` is the first copy from its sender (R759). -/
def State.firstCopy (s : State) (l : Fin 4) (seq : BitVec 16) : Bool :=
  s.live && s.laneUp l && !s.redun.seen.contains (s.laneMember l, seq)

/-- The frame is counted on its lane, and nothing else happens to the registers. -/
def framesRx (s t : State) (l : Fin 4) : Prop :=
  t.rd (TWITOS.pg l) TWITOS.FRAMES_RX_COUNT = (s.rd (TWITOS.pg l) TWITOS.FRAMES_RX_COUNT + 1) % 2 ^ 32 ∧
    sameRegsBut [TWITOS.FRAMES_RX_COUNT.key (TWITOS.pg l) 0] s t

/-- A valid frame is counted on its lane and ends a run of failed ones; nothing else happens. -/
def State.heard (s t : State) (l : Fin 4) : Prop := framesRx s t l ∧ t = { s.setFailed l 0 with regs := t.regs }

/-- The frame is counted on its lane, and its link sequence number is remembered as its sender's. -/
def State.frameTaken (s t : State) (l : Fin 4) (seq : BitVec 16) : Prop :=
  t.rd (TWITOS.pg l) TWITOS.FRAMES_RX_COUNT = (s.rd (TWITOS.pg l) TWITOS.FRAMES_RX_COUNT + 1) % 2 ^ 32 ∧
    t.redun.seen.head? = some (s.laneMember l, seq)

/-- The PWM units whose boundary for an edge on TRIG line `l` has passed when the edge is recognised (R768). -/
def State.lateUnits (s : State) (l : Fin 4) : Nat :=
  (List.range 16).countP fun n => s.carrierRuns n && s.rd (PWM.pg n) PWM.SYNC_SRC = 2 &&
    s.rd (PWM.pg n) PWM.SYNC_INDEX % 4 = l.val &&
    s.rd (PWM.pg n) PWM.PHASE_COARSE * 64 + s.rd (PWM.pg n) PWM.PHASE_FINE < (12 + 2 * s.rd HOUSE.pg HOUSE.TRIG_DELAY l) * 32

/-- A role that leads. -/
def leadRoleBits (r : BitVec 3) : Bool := r = 1 || r = 3

/-- This member left the set with `cause` (R780). -/
def State.leftWith (t : State) (cause : Nat) : Prop :=
  t.memState = rOUT ∧ t.rd REDUN.pg REDUN.STATUS_LEAVE_CAUSE = cause ∧ t.isLead = false ∧ t.rd REDUN.pg REDUN.ROLE_ROLE = 0 ∧
    t.redun.aliveStop = true ∧ t.redun.swap = none

/-- How many reads of stream `k` the set cycle in progress has seen (R798). -/
def State.stampIndex (s : State) (k : Fin 8) : Nat := if s.redun.readsAt = s.setCycle then s.redun.reads[k] else 0

/-! ### The switch and precision time -/

/-- Bus address of the descriptor at TAIL of a ring, and word `k` of it (R818, R820). -/
def State.txDesc (s : State) (q : Fin 4) : Nat := s.rd ETHSW.pg ETHSW.TXQ_BASE_ADDR q + 16 * s.rd ETHSW.pg ETHSW.TXQ_TAIL_INDEX q
def State.rxDesc (s : State) (q : Fin 4) : Nat := s.rd ETHSW.pg ETHSW.RXQ_BASE_ADDR q + 16 * s.rd ETHSW.pg ETHSW.RXQ_TAIL_INDEX q
def State.sramWord (s : State) (a : Nat) : Nat := ofLeBytes (s.bytesAt a 4)

/-- The bytes of a frame as they leave, into which an egress time may go (R828). -/
def sentAs (stamp : Bool) (bytes : List Byte) : List Byte :=
  if stamp = true ∧ ptpMessage bytes = some true then udpSumZero bytes else bytes

/-- Every word of Main SRAM is free of errors. -/
def State.sramSound (s : State) : Bool := s.sramUe.isEmpty && s.sramCe.isEmpty

/-- OFFSET of a Sync with ingress time `t2` and correction `c`, exactly, in ps (R826). -/
def State.offsetOf (s : State) (m : PtpMsg) (t2 : Rat) (c : Int) : Rat :=
  t2 - (((s.extendS m.s.toNat * 1000000000 + (m.ns.toNat : Int)) * 1000 : Int) : Rat) - mkRat (c * 1000) 65536 -
    ((if s.flag PTP.pg PTP.PARENT_E2E then s.rd PTP.pg PTP.PATH_DELAY_PS
      else s.rd PTP.pg PTP.PORT_LINK_DELAY_PS (s.rd PTP.pg PTP.PARENT_SLAVE_PORT) : Nat) : Rat)

/-- A whole number of ps next to the exact value; how it is rounded is open. -/
def nearPs (o : Int) (q : Rat) : Prop := (o : Rat) - q < 1 ∧ q - (o : Rat) < 1

/-- `bytes` carry the peer delay message `msg` of port `p` (R825, R829, R844): behind the group address, the device's MAC address and the
EtherType of PTP, or in a UDP datagram without a checksum; its sourcePortIdentity is the EUI-64 of the MAC address with port number `p` + 1. -/
def State.pdelayFrame (s : State) (p : Fin 2) (msg bytes : List Byte) : Prop :=
  (bytes.drop 6).take 6 = s.macBytes ∧
  (s.flag PTP.pg PTP.PORT_CFG_IPV4 p = false → bytes.length = 68 ∧ bytes.take 6 = [0x01, 0x80, 0xC2, 0x00, 0x00, 0x0E] ∧
    (bytes.drop 12).take 2 = [0x88, 0xF7] ∧ bytes.drop 14 = msg) ∧
  (s.flag PTP.pg PTP.PORT_CFG_IPV4 p = true → (bytes.drop 12).take 2 = [0x08, 0x00] ∧ (bytes.drop 40).take 2 = [0, 0] ∧ bytes.drop 42 = msg) ∧
  (msg.drop 20).take 10 = s.macBytes.take 3 ++ [0xFF, 0xFE] ++ s.macBytes.drop 3 ++ [0, BitVec.ofNat 8 (p.val + 1)]

/-- The outcome of a jump request of Δ in 2^−42 ns (R832): applied at the next tick, in place of an ACCEPT of this one (R840), or refused and
pending. -/
def jumped (s t : State) (d : Int) : Prop :=
  if d.natAbs ≤ s.rd PTP.pg PTP.JUMP_LIMIT_NS * nsU then
    t.ptp = { s.ptp with todo := s.ptp.todo.filter (· ≠ TimeChange.pending) ++ [.by_ d] } ∧ t.flag PTP.pg PTP.STATUS_JUMP_PENDING = false
  else t.ptp = { s.ptp with pend := d } ∧ t.flag PTP.pg PTP.STATUS_JUMP_PENDING = true ∧
    t.flag PTP.pg PTP.STATUS_NO_JUMP = false ∧ t.flag PTP.pg PTP.STATUS_TRUSTED = false ∧
    t.rd PTP.pg PTP.REFUSED_COUNT_COUNT = satInc 16 (s.rd PTP.pg PTP.REFUSED_COUNT_COUNT) ∧
    bitOf (t.rd PTP.pg HDR.IRQ_STATUS_BITS) 1 = true

/-! ### Resets and power states -/

/-- A reset other than power-on: the device is held, with CYC 0 in mode BOOT and state P0; CAUSE, PREV and RESET_COUNT follow, the wake
configuration stays, an absent root stays absent (R870, R871, R876). -/
def resetBy (s t : State) (cause : Nat) : Prop :=
  t.pwr.held = true ∧ t.clk.rootAbsent = (s.clk.rootAbsent && !s.clk.clnBandSearch) ∧ t.pwr.state = 0 ∧ t.cyc = 0 ∧
    t.mode = mBOOT ∧ t.rd RESET.pg RESET.CAUSE_CAUSE = cause ∧
    t.rd RESET.pg RESET.CAUSE_PREV = s.rd RESET.pg RESET.CAUSE_CAUSE % 16 ∧
    t.rd RESET.pg RESET.RESET_COUNT_COUNT = (s.rd RESET.pg RESET.RESET_COUNT_COUNT + 1) % 2 ^ 16 ∧
    t.rd POWER.pg POWER.WAKECFG_PORCHA = s.rd POWER.pg POWER.WAKECFG_PORCHA % 2 ∧
    t.rd POWER.pg POWER.WAKECFG_PORCHB = s.rd POWER.pg POWER.WAKECFG_PORCHB % 2 ∧
    t.rd POWER.pg POWER.WAKECFG_TRIG0 = s.rd POWER.pg POWER.WAKECFG_TRIG0 % 2

/-- No access waits for its turn or for a stopped clock, and no late completion is noted. -/
def State.noneWaits (s : State) : Bool :=
  s.porchA.waiting.isEmpty && s.porchB.waiting.isEmpty && s.stalled.isEmpty && s.late.isEmpty

/-- What a write of `POWER.CMD` with TARGET `k` does (R877 to R879): one that is accepted ends the debug session and an open GO (R915, R921). -/
def powerTaken (s t : State) (ini : Initiator) (k : Nat) : Prop :=
  t.resp = ⟨.ok, []⟩ ∧ t.pwr.state = s.pwr.state ∧
    (isHost ini = false → refusal s t POWER.pg 0x05 0x044 ini) ∧
    (isHost ini = true → ∀ r, s.powerRefuse k = some r → t.refusedWith POWER.pg 0x05 0x044 ini ∧
      t.rd POWER.pg POWER.STATE_REFUSE = r ∧ bitOf (t.rd POWER.pg HDR.IRQ_STATUS_BITS) 1 = true ∧ t.pwr = s.pwr) ∧
    (isHost ini = true → s.powerRefuse k = none → t.sec.auth = none ∧ t.flag DEBUG.pg DEBUG.STATUS_AUTH_BUSY = false ∧
      t.flag DEBUG.pg DEBUG.STATUS_SESSION_OPEN = false ∧
      (s.pwr.state = k → t.pwr = s.pwr) ∧
      (s.pwr.state ≠ k → t.flag POWER.pg POWER.STATUS_BUSY = true ∧ t.pwr.target = some k ∧
        t.pwr.stopDue = decide (s.pwr.state = 0 ∧ k ≠ 0)))

/-! ### The Cellar, debug, the flash -/

/-- Who may command the Cellar now: a host that holds KEY0, no command in progress (R894). -/
def State.cellarFree (s : State) (ini : Initiator) : Bool :=
  s.holds ini 0 && isHost ini && !s.flag CELLAR.pg CELLAR.CMD_STATUS_BUSY

/-- A write of `CELLAR.CMD` with OP `op` that R894 lets pass begins the command, and is else refused. -/
def cellarTaken (s t : State) (ini : Initiator) (op : Nat) : Prop :=
  t.resp = ⟨.ok, []⟩ ∧ (s.holds ini 0 = false → refusal s t CELLAR.pg 0x01 0x04C ini) ∧
    (s.holds ini 0 = true → s.cellarFree ini = false → refusal s t CELLAR.pg 0x05 0x04C ini) ∧
    (s.cellarFree ini = true → t.flag CELLAR.pg CELLAR.CMD_STATUS_BUSY = true ∧ t.rd CELLAR.pg CELLAR.CMD_STATUS_OP = op ∧
      t.sec.cmd.isSome = true)

/-- An open GO opens a session now: its authorisation verified, its time is not 0 and its scopes can be granted (R910, R912, R913). -/
def State.authGood (s : State) (o : AuthOpen) : Bool := o.ok && o.duration ≠ 0 && s.scopesAllowed o.scope o.keanex

/-- What a write of `DEBUG.AUTH_CMD.GO` does (R912, R913): refused under lock-out and while a GO is open, else the GO is open with what is
staged, and the challenge is used. -/
def goTaken (s t : State) (ini : Initiator) : Prop :=
  t.resp = ⟨.ok, []⟩ ∧
    (s.flag DEBUG.pg DEBUG.STATUS_LOCKOUT = true ∨ s.flag DEBUG.pg DEBUG.STATUS_AUTH_BUSY = true → refusal s t DEBUG.pg 0x05 0x0C8 ini) ∧
    (s.flag DEBUG.pg DEBUG.STATUS_LOCKOUT = false → s.flag DEBUG.pg DEBUG.STATUS_AUTH_BUSY = false →
      t.flag DEBUG.pg DEBUG.STATUS_AUTH_BUSY = true ∧ t.sec.challenge = none ∧ t.sec.session = s.sec.session ∧
      t.sec.auth = some { scope := s.rd DEBUG.pg DEBUG.AUTH_SCOPE, duration := s.rd DEBUG.pg DEBUG.AUTH_DURATION_S
                          keanex := s.flag DEBUG.pg DEBUG.AUTH_KEYSEL, ok := s.lifecycle = lcBLANK || s.authVerifies } ∧
      sameRegsBut [DEBUG.STATUS_AUTH_BUSY.key DEBUG.pg 0] s t)

/-- What the tick that completes the open GO `o` leaves (R912, R913): the session with what was granted, or a failure, the third in a row
with lock-out. -/
def goEnded (s t : State) (o : AuthOpen) : Prop :=
  t.sec.auth = none ∧ t.flag DEBUG.pg DEBUG.STATUS_AUTH_BUSY = false ∧
    (s.authGood o = true → t.flag DEBUG.pg DEBUG.STATUS_SESSION_OPEN = true ∧ t.rd DEBUG.pg DEBUG.SESSION_GRANTED = o.scope % 16 ∧
      t.sec.session = some (t.cyc, o.duration) ∧ t.sec.failures = 0 ∧ t.flag CELLAR.pg CELLAR.STATUS_DEBUG_SEEN = true) ∧
    (s.authGood o = false → t.rd DEBUG.pg DEBUG.SESSION_GRANTED = s.rd DEBUG.pg DEBUG.SESSION_GRANTED ∧ t.sec.session = s.sec.session ∧
      t.rd DEBUG.pg DEBUG.AUTH_FAIL_COUNT = satInc 16 (s.rd DEBUG.pg DEBUG.AUTH_FAIL_COUNT) ∧
      bitOf (t.rd DEBUG.pg HDR.IRQ_STATUS_BITS) 1 = true ∧ t.flag DEBUG.pg DEBUG.STATUS_LOCKOUT = decide (3 ≤ s.sec.failures + 1))

/-- The debug session ended with `cause`, every halt released (R915, R920). -/
def State.sessionEnded (t : State) (cause : Nat) : Prop :=
  t.flag DEBUG.pg DEBUG.STATUS_SESSION_OPEN = false ∧ t.rd DEBUG.pg DEBUG.SESSION_GRANTED = 0 ∧
    t.rd DEBUG.pg DEBUG.LAST_END_CAUSE = cause ∧ bitOf (t.rd DEBUG.pg HDR.IRQ_STATUS_BITS) 0 = true ∧
    ∀ n : Fin 16, (t.leUnit n).halted = false

/-- A write of `XFLASH.OP` with GO: refused while an operation is in progress, else started (R925). -/
def flashTaken (s t : State) (ini : Initiator) (code : Nat) : Prop :=
  t.resp = ⟨.ok, []⟩ ∧
    (s.flag XFLASH.pg XFLASH.OP_STATUS_BUSY = true → refusal s t XFLASH.pg 0x05 0x044 ini) ∧
    (s.flag XFLASH.pg XFLASH.OP_STATUS_BUSY = false → t.flag XFLASH.pg XFLASH.OP_STATUS_BUSY = true ∧
      t.sec.flashOp = some { code := code
                             result := s.flashResult code (s.rd XFLASH.pg XFLASH.ADDR_OFFSET) (s.rd XFLASH.pg XFLASH.SRAM_ADDR)
                               (s.rd XFLASH.pg XFLASH.LEN_BYTES)
                             off := s.rd XFLASH.pg XFLASH.ADDR_OFFSET
                             sram := s.rd XFLASH.pg XFLASH.SRAM_ADDR
                             len := s.rd XFLASH.pg XFLASH.LEN_BYTES } ∧
      samePagesBut [XFLASH.pg] s t)

/-! ### What a loop engine issues -/

/-- No upset meets the instruction that issues. -/
abbrev noUpset : LeUpset := { operands := 0, words := [] }

/-- Engine `n` is to issue `i` in its run `run`, and nothing stands against it: the domain runs, the engine is not halted, the word
passes its parity and no parity error is armed. -/
def State.issues (s : State) (n : Fin 16) (run : LeRun) (i : LeInstr) : Bool :=
  s.live && s.domainRuns 1 && decide ((s.leUnit n).run = some run) && decide (leFields (s.lpsWord run.pc) = i) &&
    s.parityOk run.pc && !(s.leUnit n).halted && !s.flag LPS.pg LPS.INJECT_ARM

/-- The run after an instruction of `cost` cycles (R313, R314): the next word that is no header. -/
def State.runAfter (s : State) (run : LeRun) (cost : Nat) : LeRun :=
  { run with pc := s.lePass 4096 ((run.pc + 1) % 4096), cycle := run.cycle + cost }

/-- The state after an instruction of `cost` cycles that leaves the engine's unit as `u`, and nothing else; `k` free words were
at hand. -/
def State.issued (s : State) (n : Fin 16) (run : LeRun) (cost : Nat) (u : LeUnit) (k : Nat := 1) : State :=
  { s with le := s.le.set n { u with run := some (s.runAfter run cost) }, free := s.free + k }

/-- The free word of an instruction: what a NaN carries, which zero a minimum is, what a reserved operand reads. -/
def State.freeAt (s : State) : Word := Config.freeWord s.free

/-- The operands A, B and C of an instruction. -/
def State.opA (s : State) (n : Fin 16) (i : LeInstr) : Word := s.leVal n i s.freeAt i.a
def State.opB (s : State) (n : Fin 16) (i : LeInstr) : Word := s.leVal n i s.freeAt i.b
def State.opC (s : State) (n : Fin 16) (i : LeInstr) : Word := s.leVal n i s.freeAt i.c

/-- The engine's unit with `w` in register `k`. -/
def LeUnit.withG (u : LeUnit) (k : Nat) (w : Word) : LeUnit := { u with g := u.g.set (Fin.ofNat 64 k) w }

/-- The unit with predicate `k` as `b`; P1 to P5 can be written (R319). -/
def LeUnit.withP (u : LeUnit) (k : Nat) (b : Bool) : LeUnit :=
  if 1 ≤ k ∧ k ≤ 5 then { u with p := if b then u.p ||| BitVec.twoPow 8 k else u.p &&& ~~~BitVec.twoPow 8 k } else u

/-- A data-memory word of engine `n` as `v`. -/
def State.withDmem (s : State) (n : Fin 16) (w : Nat) (v : Word) : State :=
  { s with lps := { s.lps with dmem := s.lps.dmem.put (n * 512 + w) v } }

/-- The integrator of R333 and R334, each operation rounded as R332 orders it: output and next state. `st` is the state word, `e`,
`u` and `tr` are A, B and C. -/
def integOf (r st kp ki kb lo hi e u tr : Word) (start preset : Bool) : Word × Word :=
  let p := fmul r kp e
  let st := if start then 0 else if preset then fsub r (fsub r tr p) u else st
  let yu := fadd r (fadd r st p) u
  let y := if fcond 5 lo hi then fpOut r (fpIn lo) else fmin r (fmax r yu lo) hi
  (y, fadd r (fadd r st (fmul r ki e)) (fmul r kb (fsub r y yu)))

/-- The resonant term of R335: the next x1 and x2. -/
def resonOf (r x1 x2 kr lam e sn cs : Word) : Word × Word :=
  (fadd r (fmul r lam (fsub r (fmul r cs x1) (fmul r sn x2))) (fmul r kr e),
    fmul r lam (fadd r (fmul r sn x1) (fmul r cs x2)))

/-- The rate limiter of R336: its next state. -/
def rlimOf (r st rise fall a : Word) : Word :=
  fadd r st (fmin r (fmax r (fsub r a st) (fneg (posRate fall))) (posRate rise))

/-- Data-memory word `k` past the block that the instruction names (R332). -/
def State.blockWord (s : State) (n : Fin 16) (i : LeInstr) (k : Nat) : Word := s.dmem n ((bitsOf i.imm 9 9 + k) % 512)

/-- INTEG, RESON and RLIM on the words and operands that the instruction names. -/
def State.integAt (s : State) (n : Fin 16) (run : LeRun) (i : LeInstr) : Word × Word :=
  integOf s.freeAt (s.dmem n (i.imm % 512)) (s.blockWord n i 0) (s.blockWord n i 1) (s.blockWord n i 2) (s.blockWord n i 3)
    (s.blockWord n i 4) (s.opA n i) (s.opB n i) (s.opC n i) run.start (run.track && bitOf i.imm 18)

def State.resonAt (s : State) (n : Fin 16) (run : LeRun) (i : LeInstr) : Word × Word :=
  resonOf s.freeAt (if run.start = true then 0 else s.dmem n (i.imm % 512))
    (if run.start = true then 0 else s.dmem n ((i.imm % 512 + 1) % 512)) (s.blockWord n i 0) (s.blockWord n i 1) (s.opA n i)
    (s.leG n (i.b % 64)) (s.leG n ((i.b + 1) % 64))

def State.rlimAt (s : State) (n : Fin 16) (run : LeRun) (i : LeInstr) : Word :=
  if run.track = true ∧ bitOf i.imm 18 = true then fpOut s.freeAt (fpIn (s.opC n i))
  else rlimOf s.freeAt (if run.start = true then s.opA n i else s.dmem n (i.imm % 512)) (s.blockWord n i 0) (s.blockWord n i 1) (s.opA n i)

/-- `k` writes of coefficient words were discarded and counted, the last recorded as kind 5 (R337); no other register changed. -/
def discards (s t : State) (n : Fin 16) (k : Nat) : Prop :=
  t.rd LPS.pg LPS.COEF_WR_DISCARD n = (satInc 16)^[k] (s.rd LPS.pg LPS.COEF_WR_DISCARD n) ∧ t.rd LPS.pg LPS.LAST_ERR_KIND n = 5 ∧
    sameRegsBut [LPS.COEF_WR_DISCARD.key LPS.pg n, LPS.LAST_ERR_KIND.key LPS.pg n, LPS.LAST_ERR_LPS_WORD.key LPS.pg n,
      LPS.LAST_ERR_DATA_WORD.key LPS.pg n] s t

/-- A parity error of coefficient word `w` is counted and recorded as kind 3 (R354). -/
def reread (s t : State) (n : Fin 16) (w : Nat) : Prop :=
  t.rd LPS.pg LPS.COEF_REPLAY n = satInc 16 (s.rd LPS.pg LPS.COEF_REPLAY n) ∧ t.rd LPS.pg LPS.LAST_ERR_KIND n = 3 ∧
    t.rd LPS.pg LPS.LAST_ERR_DATA_WORD n = w ∧ bitOf (t.rd LPS.pg HDR.IRQ_STATUS_BITS) 5 = true

/-- `v` held within the limits of port `j` in the set of the run's program (R271). -/
def State.withinLimits (s : State) (n : Fin 16) (run : LeRun) (j : Nat) (v : Word) : Word :=
  clampW v (BitVec.ofNat 32 (s.rd (LE.pg n) (if run.limset = 0 then LE.OPORT_LO0_VALUE else LE.OPORT_LO1_VALUE) j))
    (BitVec.ofNat 32 (s.rd (LE.pg n) (if run.limset = 0 then LE.OPORT_HI0_VALUE else LE.OPORT_HI1_VALUE) j))

/-! ### Coefficient images -/

/-- Every word of the image of `len` coefficients at `a` can be read (R32). -/
def State.imageSound (s : State) (a len : Nat) : Bool := (List.range len).all fun i => !s.sramUe.contains (eccWord (a + 4 * i))

/-- The coefficient words of engine `n` in `t` are those of the image at `a` in `s` (R293). -/
def State.copiedTo (s t : State) (n : Fin 16) (a : Nat) : Prop :=
  ∀ i < s.rd (LE.pg n) LE.DMAP_COEF_LEN, s.rd (LE.pg n) LE.DMAP_COEF_BASE + i < 512 →
    t.dmem n (s.rd (LE.pg n) LE.DMAP_COEF_BASE + i) = BitVec.ofNat 32 (ofLeBytes (s.bytesAt (a + 4 * i) 4))

/-! ### What a run start finds -/

/-- AGE of slot `k` at a run start (R259), 0 in a Form group that no Form Unit feeds (R260). -/
def State.ageAt (s : State) (n : Fin 16) (k : Nat) : Nat :=
  if (s.leUnit n).adv.getLsbD k = true ∨
    (s.formFeeds n = false ∧ s.flag (LE.pg n) LE.FORMSLOT_EN = true ∧ k / 8 = s.rd (LE.pg n) LE.FORMSLOT_GROUP) then 0
  else satInc 8 (s.rd (LE.pg n) LE.SLOTSTAT_AGE k)

/-- The engine is stale at a run start (R260): a watched slot is as old as the limit. -/
def State.staleAt (s : State) (n : Fin 16) : Bool :=
  (List.range 32).any fun k => s.slotWatched n k && s.rd (LE.pg n) LE.STALE_LIMIT ≤ s.ageAt n k

/-- The run of program (code, START, LIMSET) that starts now. -/
def State.runOf (s : State) (prog : Nat × Nat × Nat) (start track : Bool) : LeRun :=
  { prog := prog.1, origin := prog.2.1, pc := (prog.2.1 + 1) % 4096, start := start, track := track, limset := prog.2.2, at_ := s.cyc }

/-- Engine `n` runs program `prog`: its run, and what shows it (R307, R316). -/
def State.runsProgram (t : State) (n : Fin 16) (s : State) (prog : Nat × Nat × Nat) (start track : Bool) : Prop :=
  (t.leUnit n).run = some (s.runOf prog start track) ∧ t.flag (LE.pg n) LE.STATUS_BUSY = true ∧
    t.rd (LE.pg n) LE.STATUS_PROG = prog.1 % 2 ^ LE.STATUS_PROG.width ∧ t.rd (LE.pg n) LE.RUN_CYCLES_CYCLES = s.hdrCycles prog.2.1

/-- Engine `n` is in FAULT with `cause`, its run aborted (R299, R300). -/
def State.leFaulted (t : State) (n : Fin 16) (cause : Nat) : Prop :=
  t.leState n = leFAULT ∧ t.rd (LE.pg n) LE.STATUS_FAULT_CAUSE = cause ∧ t.flag (LE.pg n) LE.STATUS_BUSY = false ∧
    bitOf (t.rd (LE.pg n) HDR.IRQ_STATUS_BITS) 5 = true

/-- A restore has run: RESTORED is 1 where no record of it waits to be written, else it waits for them (R582). -/
def State.restores (t : State) : Prop :=
  t.flag METRO.pg METRO.STATUS_RESTORED = decide (t.metro.pend = []) ∧ t.metro.restoring = decide (t.metro.pend ≠ [])

/-- The commands that issue an instruction, by operation code (R328). -/
def issueRows (n : Fin 16) (up : LeUpset) : List (Nat × Instr) :=
  [(0x00, .nop n up), (0x01, .mov n up), (0x02, .sel n up), (0x03, .fcmp n up), (0x04, .qcmp n up), (0x05, .plog n up),
    (0x06, .ld n up), (0x07, .st n up), (0x08, .fadd n up), (0x09, .fsub n up), (0x0A, .fmul n up), (0x0B, .fmac n up),
    (0x0C, .fmin n up), (0x0D, .fmax n up), (0x0E, .fclamp n up), (0x0F, .fabs n up), (0x10, .fneg n up), (0x11, .fdiv n up),
    (0x12, .fsqrt n up), (0x13, .qadd n up), (0x14, .qsub n up), (0x15, .qmul n up), (0x16, .qmac n up)] ++
  [(0x17, .qshl n up), (0x18, .qshr n up), (0x19, .qabs n up), (0x1A, .i2f n up), (0x1B, .q2f n up), (0x1C, .f2q n up),
    (0x20, .sincos n up), (0x21, .clarke n up), (0x22, .iclarke n up), (0x23, .park n up), (0x24, .ipark n up),
    (0x25, .integ n up), (0x26, .reson n up), (0x27, .rlim n up), (0x30, .out n up), (0x3E, .endRun n up)]

end Sys2Proof.Machine

namespace Sys2Proof

/-! ### What the commands that are no register access may change: each list names the events of a kind of state -/

/-- The commands that write or read a register, or reset the device or change its power state: what they change hangs on the register. -/
def Instr.viaRegister : Instr → Bool
  | .registerWrite .. | .readClear .. | .shadowCommit .. | .pageLock .. | .keyTake .. | .keyRelease .. | .releaseMine ..
    | .forceRelease .. | .stampRead .. | .cycLoRead .. | .nextSeqLoRead .. | .impLoRead .. | .timeNsRead ..
    | .offsetLoRead .. | .jumpPendLoRead .. | .pcieRequest .. | .qspiRead .. | .qspiWrite .. | .hostAccessTimeout ..
    | .eoi .. | .doorbell .. | .modeRequest .. | .spTargetWrite .. | .coefSwap .. | .resume .. | .load .. | .libCopy ..
    | .inject .. | .cmpWrite .. | .rootLossReset .. | .clearSource .. | .clearUnit .. | .swtrigReg .. | .swtrigInj ..
    | .startCheck .. | .startPrecharge .. | .startEnergy .. | .portStop .. | .ackFault .. | .forceFault .. | .clearWeld ..
    | .portValueWrite .. | .pilotGenWrite .. | .begin .. | .pantryEnd .. | .reading .. | .calLoad .. | .ackSeqWrite ..
    | .readSeqWrite .. | .safeioAck .. | .safenetAck .. | .wdsvc .. | .wdclear .. | .clearOv .. | .clearFirst .. | .diag ..
    | .gdrvClear .. | .enable .. | .move .. | .jog .. | .axisStop .. | .home .. | .stepIn .. | .gear .. | .disable ..
    | .axisClear .. | .setPos .. | .gearPush .. | .gearFlush .. | .capStart .. | .capStop .. | .capForce .. | .capClear ..
    | .join .. | .swap .. | .leave .. | .promote .. | .xferCmd .. | .txHeadWrite .. | .mdioAccess .. | .rateWrite ..
    | .setTime .. | .stepRequest .. | .accept .. | .reject .. | .parentWrite .. | .powerOnReset .. | .resetNAssert ..
    | .rstreqReset .. | .swrst .. | .powerCmdP0 .. | .powerCmdP1 .. | .powerCmdP2 .. | .powerCmdP3 .. | .powerCmdP4 ..
    | .powerTransitionDone .. | .wake .. | .provision .. | .seal .. | .returnCmd .. | .advance .. | .check .. | .ramBoot ..
    | .attestGo .. | .chalNew .. | .authGo .. | .debugSessionEnd .. | .leHalt .. | .leResume .. | .leStep .. | .readId ..
    | .erase4k .. | .erase64k .. | .program .. | .xflashRead .. => true
  | _ => false

/-- The events that may write Main SRAM, or correct or spoil words of it. -/
def Instr.mayMainSram : Instr → Bool
  | .bootComplete .. | .bootFail .. | .libDone .. | .xferFrame .. | .ethFrameReceive .. | .txFrameSent .. | .xflashOpDone .. => true
  | _ => false

/-- The events that may write the memory of the Pantry. -/
def Instr.mayPantry : Instr → Bool
  | .recordWritten .. | .pantryRewriteRetry .. | .snapshotVerified .. | .metroRestore .. | .cellarCmdDone .. => true
  | _ => false

/-- The events that may change the metering accounts and what waits for the Pantry. -/
def Instr.mayMetro : Instr → Bool
  | .modeTick .. | .syncTimeout .. | .readyAfterPortsOff .. | .bootComplete .. | .bootFail .. | .metroSample ..
    | .recordWritten .. | .pantryRewriteRetry .. | .readDone .. | .periodicSnapshot .. | .pfwAssert .. | .snapshotVerified ..
    | .metroRestore .. | .cellarCmdDone .. | .cycmark .. => true
  | _ => false

/-- The events that may change the clock tree. -/
def Instr.mayClock : Instr → Bool
  | .rootClockLoss .. | .pllLockDeclared .. | .pllLockLost .. | .bandMiss .. | .spreadTriangleStart .. | .rootClockReturn ..
    | .cycmark .. => true
  | _ => false

/-- The events that may change the power and reset state. -/
def Instr.mayPower : Instr → Bool
  | .modeTick .. | .bootComplete .. | .snapshotVerified .. | .rstreqRelease .. | .rstreqStuck .. | .rstreqUnignore ..
    | .resetRelease .. | .cellarCmdDone .. => true
  | _ => false

/-- The events that may change the switch and the Ethernet queues. -/
def Instr.mayEth : Instr → Bool
  | .ethFrameReceive .. | .txFrameSent .. | .supervisionSend .. | .supervisionTimeout .. | .nodeAgeing .. | .mdioDone ..
    | .addressAgeing .. | .ethLinkChange .. | .pdelayReqSend .. | .pdelayReqReceive .. | .cycmark .. => true
  | _ => false

/-- The events that may change the time of PTP and its exchanges. -/
def Instr.mayPtp : Instr → Bool
  | .ethLinkChange .. | .ptpSync .. | .followUp .. | .pdelayReqSend .. | .pdelayRespReceive .. | .ptpSyncTimeout ..
    | .timeEvent .. | .timeOutputEnd .. | .cycmark .. => true
  | _ => false

/-- The events that may change the legs, the axes or the chimney. -/
def Instr.mayLegs : Instr → Bool
  | .modeTick .. | .syncTimeout .. | .readyAfterPortsOff .. | .dieLinkLoss .. | .dieLinkRestore .. | .bootComplete ..
    | .fuseSourceActive .. | .switchingPeriodStart .. | .refreshPulse .. | .bootUvLockout .. | .vgdLockout .. | .vgdLockoutEnd ..
    | .chopLimit .. | .chopRestEnd .. | .mbovTrip .. | .diagPhaseEnd .. | .vdsFault .. | .hardShort .. | .profileTick ..
    | .homeMaxReached .. | .coarseStep .. | .encoderEdge .. | .stateFrame .. | .faultFrame .. | .setCycleBoundary ..
    | .voteInstant .. | .isolation .. | .hclkReturn .. | .holdoverLimit .. | .joinPhaseTimeout .. | .cellarCmdDone ..
    | .supHalt .. | .cycmark .. | .idleFrame .. | .laneLost .. => true
  | _ => false

/-- The events that may change the safety pairs, the safety channels and the watchdogs. -/
def Instr.maySafety : Instr → Bool
  | .dieLinkLoss .. | .safeioSample .. | .safetyTick .. | .testPulseStart .. | .testPulseEnd .. | .pairDiscrepancyFault ..
    | .safenetCopy .. | .safenetCompareTimeout .. | .safenetWatchdogFault .. | .watchdogExpiry .. | .faultFrame ..
    | .voteInstant .. | .cycmark .. | .ethFrameReceive .. | .fuseSourceActive .. | .hclkReturn .. | .holdoverLimit ..
    | .idleFrame .. | .isolation .. | .joinPhaseTimeout .. | .laneLost .. | .stateFrame .. | .supHalt .. => true
  | _ => false

/-- The events that may change the SAR units and the delta-sigma channels. -/
def Instr.mayMeasure : Instr → Bool
  | .modeTick .. | .syncTimeout .. | .readyAfterPortsOff .. | .bootComplete .. | .sarRegularTrigger ..
    | .sarInjectedTrigger .. | .sarConversionComplete .. | .dsfWindowEnd .. | .dsfStuck .. | .dsfStuckEnd ..
    | .dsfClockReturn .. | .cmpDecision .. | .pwmCarrierEvent .. | .pwmSyncEvent .. | .endRun .. | .timeEvent .. | .trigEdge ..
    | .cellarCmdDone .. | .cycmark .. => true
  | _ => false

/-- The events that may change the ports and the pilots. -/
def Instr.mayPort : Instr → Bool
  | .modeTick .. | .syncTimeout .. | .readyAfterPortsOff .. | .bootComplete .. | .sarConversionComplete .. | .portTick ..
    | .chtestExpiry .. | .closeDeadline .. | .openDeadline .. | .voltageMatchHold .. | .ccHoldExpiry .. | .ccDeadline ..
    | .preDeadline .. | .stopDeadline .. | .weldDeadline .. | .openDelayExpiry .. | .insulationFaultHold ..
    | .plugLossHold .. | .pilotPeriodStart .. | .pilotPeriodEnd .. | .portsFrame .. | .cellarCmdDone .. | .cycmark .. => true
  | _ => false

/-- The events that may change the PWM units. -/
def Instr.mayPwm : Instr → Bool
  | .modeTick .. | .syncTimeout .. | .readyAfterPortsOff .. | .bootComplete .. | .out .. | .pwmCarrierEvent ..
    | .pwmSyncEvent .. | .rootClockLoss .. | .rootLossSafeLevel .. | .pllLockLost .. | .cellarCmdDone .. | .fuseSourceActive ..
    | .portTick .. | .chtestExpiry .. | .closeDeadline .. | .openDeadline .. | .voltageMatchHold .. | .ccHoldExpiry ..
    | .ccDeadline .. | .preDeadline .. | .stopDeadline .. | .weldDeadline .. | .openDelayExpiry .. | .insulationFaultHold ..
    | .plugLossHold .. | .trigEdge .. | .timeEvent .. | .cycmark .. | .stateFrame .. | .faultFrame .. | .setCycleBoundary ..
    | .voteInstant .. | .isolation .. | .hclkReturn .. | .holdoverLimit .. | .joinPhaseTimeout .. | .supHalt ..
    | .idleFrame .. | .laneLost .. => true
  | _ => false

/-- The events that may change the recorder and its captures. -/
def Instr.mayAttic : Instr → Bool
  | .modeTick .. | .syncTimeout .. | .readyAfterPortsOff .. | .bootComplete .. | .formUpdate .. | .out .. | .endRun ..
    | .pwmCarrierEvent .. | .pwmSyncEvent .. | .sarConversionComplete .. | .dsfWindowEnd .. | .dsfStuck .. | .dsfStuckEnd ..
    | .dsfNoClk .. | .cmpDecision .. | .atticSampleLatch .. | .segmentComplete .. | .trigoutRelease .. | .trigEdge ..
    | .timeEvent .. | .cellarCmdDone .. | .cycmark .. => true
  | _ => false

/-- The events that may change the Form Units. -/
def Instr.mayForm : Instr → Bool
  | .modeTick .. | .syncTimeout .. | .readyAfterPortsOff .. | .bootComplete .. | .formUpdate .. | .formInputLost ..
    | .slotDecayEnd .. | .gridPresent .. | .pwmCarrierEvent .. | .pwmSyncEvent .. | .dsfWindowEnd .. | .dsfStuck .. | .dsfStuckEnd .. | .dsfNoClk .. | .cmpDecision ..
    | .copyFrame .. | .cellarCmdDone .. | .cycmark .. => true
  | _ => false

/-- The events that may change the loop engines. -/
def Instr.mayEngine : Instr → Bool
  | .modeTick .. | .syncTimeout .. | .readyAfterPortsOff .. | .bootComplete .. | .formUpdate .. | .leTrigger ..
    | .leRunStart .. | .coefCopyDone .. | .nop .. | .mov .. | .sel .. | .fcmp .. | .qcmp .. | .plog .. | .ld .. | .st ..
    | .fadd .. | .fsub .. | .fmul .. | .fmac .. | .fmin .. | .fmax .. | .fclamp .. | .fabs .. | .fneg .. | .fdiv ..
    | .fsqrt .. | .qadd .. | .qsub .. | .qmul .. | .qmac .. | .qshl .. | .qshr .. | .qabs .. | .i2f .. | .q2f .. | .f2q ..
    | .sincos .. | .clarke .. | .iclarke .. | .park .. | .ipark .. | .integ .. | .reson .. | .rlim .. | .out .. | .endRun ..
    | .lpsRefetch .. | .pwmCarrierEvent .. | .pwmSyncEvent .. | .sarConversionComplete .. | .dsfWindowEnd .. | .dsfStuck ..
    | .dsfStuckEnd .. | .dsfNoClk .. | .cmpDecision .. | .portTick .. | .chtestExpiry .. | .closeDeadline ..
    | .openDeadline .. | .voltageMatchHold .. | .ccHoldExpiry .. | .ccDeadline .. | .preDeadline .. | .stopDeadline ..
    | .weldDeadline .. | .openDelayExpiry .. | .insulationFaultHold .. | .plugLossHold .. | .copyFrame .. | .cellarCmdDone ..
    | .sessionExpiry .. | .cycmark .. => true
  | _ => false

/-- The events that may change the program store and the data memories of the loop engines. -/
def Instr.mayStore : Instr → Bool
  | .modeTick .. | .syncTimeout .. | .readyAfterPortsOff .. | .bootComplete .. | .coefCopyDone .. | .nop .. | .mov ..
    | .sel .. | .fcmp .. | .qcmp .. | .plog .. | .ld .. | .st .. | .fadd .. | .fsub .. | .fmul .. | .fmac .. | .fmin ..
    | .fmax .. | .fclamp .. | .fabs .. | .fneg .. | .fdiv .. | .fsqrt .. | .qadd .. | .qsub .. | .qmul .. | .qmac ..
    | .qshl .. | .qshr .. | .qabs .. | .i2f .. | .q2f .. | .f2q .. | .sincos .. | .clarke .. | .iclarke .. | .park ..
    | .ipark .. | .integ .. | .reson .. | .rlim .. | .out .. | .endRun .. | .lpsRefetch .. | .loadDone .. | .libDone ..
    | .copyFrame .. | .cellarCmdDone .. => true
  | _ => false

/-- The events that may change the OTP array, the flash, the session and what else the security core holds. -/
def Instr.maySec : Instr → Bool
  | .lockstepMismatch .. | .bootComplete .. | .metroRestore .. | .cellarCmdDone .. | .attestDone .. | .sessionExpiry ..
    | .supHalt .. | .xflashOpDone .. | .cycmark .. => true
  | _ => false

/-- The events that may change the causes of a stop and what the mode tick has in hand. -/
def Instr.mayModes : Instr → Bool
  | .modeTick .. | .syncTimeout .. | .readyAfterPortsOff .. | .dieLinkLoss .. | .lockstepMismatch .. | .bootComplete ..
    | .formUpdate .. | .fuseSourceActive .. | .safetyTick .. | .watchdogExpiry .. | .stateFrame .. | .faultFrame ..
    | .voteInstant .. | .isolation .. | .hclkReturn .. | .holdoverLimit .. | .joinPhaseTimeout .. | .cellarCmdDone ..
    | .supHalt .. | .cycmark .. | .idleFrame .. | .laneLost .. => true
  | _ => false

/-- The events that may change the mode (R39, R43). -/
def Instr.mayMode : Instr → Bool
  | .modeTick .. | .syncTimeout .. | .readyAfterPortsOff .. | .bootComplete .. | .cellarCmdDone .. => true
  | _ => false

/-- The events that may free a key (R91). -/
def Instr.mayKeys : Instr → Bool
  | .pcieLinkDown .. | .releaseAll .. | .lockstepMismatch .. => true
  | _ => false

end Sys2Proof
end

