-- ==== Sys2Proof/Certificates/Slice0/Obligations.lean ====
section
/-!
DEFINITION. Certificates/Slice0/Obligations.lean: the statements about the model, for the provers: each is a proposition about `exec`
or `step`, with the rules it comes from in its docstring.
-/

set_option linter.style.longLine false

open Sys2Proof Sys2Proof.Machine

/-! ### The queue, the tick, reset, what every command keeps -/

/-- A step takes the command at the front of the queue and runs it on the state with the queue's rest. -/
def Obligations.StepRunsTheFrontCommand : Prop :=
  ∀ (c : Instr) (cs : List Instr) (s : State), step { s with pending := c :: cs } = exec c { s with pending := cs }

/-- On an empty queue a tick passes: CYC counts by one while the device runs, and nothing changes while it is held in reset or
in P3 or P4 (the model's choice, log entry 7). -/
def Obligations.StepOnEmptyQueueIsATick : Prop :=
  ∀ s : State, s.pending = [] → ∃ t, step s = .next t ∧ t.pending = [] ∧
    (s.live = true → t.cyc = s.cyc + 1) ∧ (s.live = false → t = s)

/-- Right after reset every register field of every page reads as its table prints (R8); no key is held, the mode is BOOT, the queue is
empty, no page holds staged fields, and every store is in canonical form. -/
def Obligations.ResetState : Prop :=
  (∀ p ∈ pageTable, ∀ n < p.count, ∀ f ∈ HDR.fields ++ p.fields, ∀ i < f.cnt,
    State.reset.rd (p.base + n) f i = resetValue (p.base + n) f i) ∧
  (∀ n < 64, State.reset.holder n = 0) ∧ State.reset.mode = mBOOT ∧ State.reset.pending = [] ∧
  (∀ pg, State.reset.uncommitted pg = false) ∧ Canonical State.reset

/-- Every command that its sender can form answers a next state in every state and leaves the queue of the waiting commands as it is; every
other stops with `illFormed` (log entry 29). -/
def Obligations.EveryFormedCommandCompletes : Prop :=
  ∀ (c : Instr) (s : State), (c.wf = true → ∃ t, exec c s = .next t ∧ t.pending = s.pending) ∧ (c.wf = false → exec c s = .fault .illFormed)

/-- Every step keeps the canonical form of every store, and lets every blown bit of the OTP array stay blown. -/
def Obligations.EveryStepKeepsStoresCanonicalAndOtpBlown : Prop :=
  ∀ s t : State, step s = .next t →
    (Canonical s → Canonical t) ∧ ∀ i, s.otpBit i = true → t.otpBit i = true

/-- What an event leaves unchanged. A command that is no register access, no reset and no power command changes each kind of state only where
it is one of the events listed for that kind: every byte of Main SRAM, of the Pantry, of the program store and of the data memories, the OTP
array, the sessions, and the state of each unit beyond its registers are as before; no command but the completion of a flash operation
changes a byte of the flash. The mode changes only where one of five events enters a mode, and a key changes hands by an event only where one frees
it. -/
def Obligations.EventsChangeOnlyTheirOwnState : Prop :=
  ∀ (c : Instr) (s t : State), exec c s = .next t →
    ((∀ ok, c ≠ .xflashOpDone ok) → ∀ a, t.flashByte a = s.flashByte a) ∧
    (c.viaRegister = false →
      (c.mayMainSram = false → t.sramUe = s.sramUe ∧ ∀ a, t.byteAt a = s.byteAt a) ∧
      (c.mayPantry = false → t.pantry = s.pantry) ∧ (c.mayMetro = false → t.metro = s.metro) ∧
      (c.maySec = false → t.sec = s.sec ∧ t.lifecycle = s.lifecycle) ∧
      (c.mayStore = false → (∀ a, t.lpsWord a = s.lpsWord a) ∧ ∀ n a, t.dmem n a = s.dmem n a) ∧
      (c.mayEngine = false → t.le = s.le) ∧ (c.mayPwm = false → t.pwm = s.pwm) ∧ (c.mayForm = false → t.form = s.form) ∧
      (c.mayMeasure = false → t.sar = s.sar ∧ t.dsf = s.dsf) ∧ (c.mayPort = false → t.port = s.port ∧ t.pilot = s.pilot) ∧
      (c.mayLegs = false → t.leg = s.leg ∧ t.axis = s.axis ∧ t.chimney = s.chimney) ∧ (c.maySafety = false → t.safety = s.safety) ∧
      (c.mayAttic = false → t.attic = s.attic) ∧ (c.mayEth = false → t.eth = s.eth) ∧ (c.mayPtp = false → t.ptp = s.ptp) ∧
      (c.mayClock = false → t.clk = s.clk) ∧ (c.mayPower = false → t.pwr = s.pwr) ∧ (c.mayModes = false → t.modes = s.modes) ∧
      ((∀ e ab, c ≠ .encoderEdge e ab) → t.encAB = s.encAB) ∧ t.staged = s.staged ∧ t.stalled = s.stalled ∧
      (Canonical s → c.mayMode = false → t.mode = s.mode) ∧ (Canonical s → c.mayKeys = false → ∀ n < 64, t.holder n = s.holder n))

/-! ### Register accesses and the page header (00, 02) -/

/-- The commands that write or read any register of the window. A write of a plain register of any page takes each field as its access code
says, so does the write of IRQ_STATUS, of IRQ_ENABLE and of IRQ_FORCE, which sets bits of IRQ_STATUS; a read of a register with RC fields
returns the register and brings those fields to their reset values. -/
def Obligations.RegisterAccessesFollowTheirCodes : Prop :=
  ∀ (s : State) (ini : Initiator), Canonical s → ∀ p ∈ pageTable, ∀ n < p.count,
    (∀ off < 4096, ∀ v : Word, off % 4 = 0 → plainReg p.block off = true → headerOff off = false →
      s.admits ini (p.base + n) off v.toNat = true →
      ((regFields p n off).map fun x => x.1.key (p.base + n) x.2).Nodup →
      ∃ t, exec (.registerWrite ini (BitVec.ofNat 32 (regAddr (p.base + n) off)) v .taken) s = .next t ∧ t.resp = ⟨.ok, []⟩ ∧
        (∀ x ∈ regFields p n off, written s t (p.base + n) x.1 x.2 v.toNat) ∧
        sameRegsBut ((regFields p n off).map fun x => x.1.key (p.base + n) x.2) s t ∧
        t = { s with regs := t.regs, staged := t.staged, resp := t.resp, porchA := t.porchA, porchB := t.porchB }) ∧
    (∀ v : Word, s.admits ini (p.base + n) 0x018 v.toNat = true →
      ∃ t, exec (.registerWrite ini (BitVec.ofNat 32 (regAddr (p.base + n) 0x018)) v .taken) s = .next t ∧
        (∀ b < 32, bitOf (t.rd (p.base + n) HDR.IRQ_STATUS_BITS) b =
          (bitOf (s.rd (p.base + n) HDR.IRQ_STATUS_BITS) b && !bitOf v.toNat b)) ∧
        sameRegsBut [HDR.IRQ_STATUS_BITS.key (p.base + n) 0] s t ∧
        t = { s with regs := t.regs, resp := ⟨.ok, []⟩, porchA := t.porchA, porchB := t.porchB }) ∧
    (∀ v : Word, s.admits ini (p.base + n) 0x014 v.toNat = true →
      ∃ t, exec (.registerWrite ini (BitVec.ofNat 32 (regAddr (p.base + n) 0x014)) v .taken) s = .next t ∧
        t.rd (p.base + n) HDR.IRQ_ENABLE_BITS = v.toNat % 2 ^ p.irqBits ∧ sameRegsBut [HDR.IRQ_ENABLE_BITS.key (p.base + n) 0] s t ∧
        t = { s with regs := t.regs, resp := ⟨.ok, []⟩, porchA := t.porchA, porchB := t.porchB }) ∧
    (∀ v : Word, s.admits ini (p.base + n) 0x01C v.toNat = true →
      ∃ t, exec (.registerWrite ini (BitVec.ofNat 32 (regAddr (p.base + n) 0x01C)) v .taken) s = .next t ∧
        (∀ b < 32, bitOf (t.rd (p.base + n) HDR.IRQ_STATUS_BITS) b =
          (bitOf (s.rd (p.base + n) HDR.IRQ_STATUS_BITS) b || (decide (b < p.irqBits) && bitOf v.toNat b))) ∧
        sameRegsBut [HDR.IRQ_STATUS_BITS.key (p.base + n) 0] s t ∧
        t = { s with regs := t.regs, resp := ⟨.ok, []⟩, porchA := t.porchA, porchB := t.porchB }) ∧
    (∀ off < 4096, (regFields p n off).any (fun x => x.1.acc = .rc) = true →
      ((regFields p n off).map fun x => x.1.key (p.base + n) x.2).Nodup → s.readable ini (p.base + n) off = true →
      ∃ t, exec (.readClear ini (BitVec.ofNat 32 (regAddr (p.base + n) off))) s = .next t ∧
        t.resp = ⟨.ok, [BitVec.ofNat 32 (((regFields p n off).map fun x =>
          2 ^ x.1.lo * (if x.1.acc = .wo then 0 else s.rd (p.base + n) x.1 x.2)).sum)]⟩ ∧
        (∀ x ∈ regFields p n off, x.1.acc = .rc → t.rd (p.base + n) x.1 x.2 = resetValue (p.base + n) x.1 x.2) ∧
        sameRegsBut (((regFields p n off).filter fun x => x.1.acc = .rc).map fun x => x.1.key (p.base + n) x.2) s t ∧
        t = { s with regs := t.regs, resp := t.resp })

/-- A write of 1 to SHADOW_COMMIT on a page with staged fields: a refused commit leaves all but CFG_ERROR; an accepted one moves the
staged set into the set that waits for the boundary and sets COMMIT_PENDING; of SAFEIO, in CONFIG with the inter-die link up, it is the
commit after which the test pulses may run again (R22, R596). PAGE_LOCK locks its page and does nothing else. -/
def Obligations.CommitsAndLocks : Prop :=
  ∀ (s : State) (ini : Initiator), Canonical s →
    (∀ p ∈ pageTable, ∀ n < p.count, s.admits ini (p.base + n) 0x020 1 = true →
      p.staged = true →
      (∀ code, s.commitRefused p (p.base + n) n = some code →
        ∃ t, exec (.shadowCommit ini (BitVec.ofNat 12 (p.base + n))) s = .next t ∧ t.refusedWith (p.base + n) code 0x020 ini ∧
          t = { s with regs := t.regs, resp := ⟨.ok, []⟩ } ∧ sameRegsBut (cfgErrKeys (p.base + n)) s t) ∧
      (s.commitRefused p (p.base + n) n = none → p.block ∈ [0x0040, 0x0041, 0x0051, 0x0060, 0x0061, 0x0080, 0x00A0] →
        ∃ t, exec (.shadowCommit ini (BitVec.ofNat 12 (p.base + n))) s = .next t ∧ t.commitPending (p.base + n) = true ∧
          (∀ k, keyOnPage (p.base + n) k = true → t.staged.get k = 0 ∧
            t.committed.get k = if s.staged.get k ≠ 0 then s.staged.get k else s.committed.get k) ∧
          t = { s with regs := t.regs, staged := t.staged, committed := t.committed, safety := t.safety, resp := ⟨.ok, []⟩ } ∧
          (p.block ≠ 0x0060 → t.safety = s.safety) ∧
          (p.block = 0x0060 → t.safety = { s.safety with
            again := s.safety.again || (s.mode = mCONFIG && s.flag SYS.pg SYS.STATUS_DIE_LINK_OK) }) ∧
          sameRegsBut [commitPendingFld.key (p.base + n) 0] s t)) ∧
    (∀ p ∈ pageTable, ∀ n < p.count, s.admits ini (p.base + n) 0x02C 1 = true →
      ∃ t, exec (.pageLock ini (BitVec.ofNat 12 (p.base + n))) s = .next t ∧ t.flag (p.base + n) HDR.PAGE_LOCK_LOCKED = true ∧
        t = { s with regs := t.regs, resp := ⟨.ok, []⟩, porchA := t.porchA, porchB := t.porchB } ∧
        sameRegsBut [HDR.PAGE_LOCK_LOCKED.key (p.base + n) 0] s t)

/-- A write that a check of R103 stops records the code of the first failing check, the register's offset and the writer, and
changes nothing else; a write of MODE_REQ that is stopped shows in REQ_REFUSED too (R38, DEDUCED: log entry 6). -/
def Obligations.RefusedWriteChangesNothingElse : Prop :=
  ∀ (s : State) (ini : Initiator), Canonical s → ∀ p ∈ pageTable, ∀ n < p.count, ∀ off < 4096,
    off % 4 = 0 → p.base ≠ METRO.pg → s.canSend ini = true → s.waitingOf ini = [] → s.mayReach ini (regAddr (p.base + n) off) true = true →
    s.domainRuns p.domain = true → (regFields p n off).any (fun x => x.1.writable) = true → ∀ (v : Word) (code : Nat),
    s.writeRefused ini p (p.base + n) off (regFields p n off) v.toNat = some code →
    ∃ t, exec (.registerWrite ini (BitVec.ofNat 32 (regAddr (p.base + n) off)) v .taken) s = .next t ∧
      t.refusedWith (p.base + n) code off ini ∧
      t = { s with regs := t.regs, resp := ⟨.ok, []⟩ } ∧
      (p.base + n = SYS.pg ∧ off = 0x044 → t.flag SYS.pg SYS.STATUS_REQ_REFUSED = true ∧
        sameRegsBut (SYS.STATUS_REQ_REFUSED.key SYS.pg 0 :: cfgErrKeys SYS.pg) s t) ∧
      (¬(p.base + n = SYS.pg ∧ off = 0x044) → sameRegsBut (cfgErrKeys (p.base + n)) s t)

/-- The Keyrack. A read of KEYn takes a free key for a reader that may hold it and answers GRANTED, HELD and HOLDER; a write by the
holder releases it, by another leaves it held with 0x01, and of a free key does nothing; RELEASE_MINE releases what its writer
holds; FORCE_RELEASE with GO releases for a host port or the security core, counts, and flags a port's key; from others it is
refused. -/
def Obligations.Keyrack : Prop :=
  ∀ (s : State) (ini : Initiator) (n : Fin 64), Canonical s →
    (s.readable ini KEYRACK.pg (0x040 + 4 * n) = true →
      ∃ t, exec (.keyTake ini n) s = .next t ∧
        t.holder n = (if s.holder n = 0 ∧ hasId ini = true ∧ (n.val = 0 → ini ≠ .sec) then ownerId ini else s.holder n) ∧
        t.resp = ⟨.ok, [BitVec.ofNat 32 (2 ^ 31 * bit01 (hasId ini && t.holder n = ownerId ini) +
          2 ^ 30 * bit01 (t.holder n ≠ 0) + t.holder n)]⟩ ∧
        sameRegsBut [KEYRACK.KEY_BITS.key KEYRACK.pg n] s t ∧ t = { s with regs := t.regs, resp := t.resp }) ∧
    (s.admits ini KEYRACK.pg (0x040 + 4 * n) 0 = true →
      ∃ t, exec (.keyRelease ini n) s = .next t ∧
        (s.holder n = 0 → t = s.done) ∧
        (s.holds ini n = true → t.holder n = 0 ∧ sameRegsBut [KEYRACK.KEY_BITS.key KEYRACK.pg n] s t) ∧
        (s.holder n ≠ 0 → s.holds ini n = false →
          t.refusedWith KEYRACK.pg 0x01 (0x040 + 4 * n) ini ∧ sameRegsBut (cfgErrKeys KEYRACK.pg) s t) ∧
        t = { s with regs := t.regs, resp := ⟨.ok, []⟩ }) ∧
    (s.admits ini KEYRACK.pg 0x148 1 = true →
      ∃ t, exec (.releaseMine ini) s = .next t ∧
        (∀ m < 64, t.holder m = if hasId ini = true ∧ s.holder m = ownerId ini then 0 else s.holder m) ∧
        (∀ k, (∀ m < 64, k ≠ KEYRACK.KEY_BITS.key KEYRACK.pg m) → t.regs.get k = s.regs.get k) ∧
        t = { s with regs := t.regs, resp := ⟨.ok, []⟩ }) ∧
    (s.admits ini KEYRACK.pg 0x14C (2 ^ 31 + n) = true →
      ∃ t, exec (.forceRelease ini n) s = .next t ∧ t.resp = ⟨.ok, []⟩ ∧
        (isHost ini = true ∨ ini = .sec → t.holder n = 0 ∧
          t.rd KEYRACK.pg KEYRACK.FORCE_COUNT_COUNT = satInc 16 (s.rd KEYRACK.pg KEYRACK.FORCE_COUNT_COUNT) ∧
          (s.holder n = 1 → bitOf (t.rd (portPg .A) HDR.IRQ_STATUS_BITS) 1 = true) ∧
          (s.holder n = 2 → bitOf (t.rd (portPg .B) HDR.IRQ_STATUS_BITS) 1 = true) ∧
          ∀ m < 64, m ≠ n.val → t.holder m = s.holder m) ∧
        (isHost ini = false → ini ≠ .sec → t.refusedWith KEYRACK.pg 0x01 0x14C ini ∧ sameRegsBut (cfgErrKeys KEYRACK.pg) s t))

/-- The router. A doorbell from 192 on sets its bit, one below is refused with 0x03; an EOI of a target whose line is active sends one further
MSI over a port with MSI enabled, and changes nothing else. The reads that take a snapshot of their partner registers (R2), and the stamps:
each returns the low word now and places the rest for a later read; a stamp counts its stream's reads of the set cycle, but not through the
debug access port. -/
def Obligations.DoorbellsEoiAndSnapshotReads : Prop :=
  (∀ (s : State) (ini : Initiator), Canonical s →
    (∀ src : Byte, s.admits ini IRQ.pg 0x4E0 src.toNat = true →
      ∃ t, exec (.doorbell ini src) s = .next t ∧ t.resp = ⟨.ok, []⟩ ∧
        (192 ≤ src.toNat → src.toNat < 224 →
          t.rd IRQ.pg IRQ.DB_STATUS_LO_DB = setBitOf (s.rd IRQ.pg IRQ.DB_STATUS_LO_DB) (src.toNat - 192) % 2 ^ 32) ∧
        (224 ≤ src.toNat →
          t.rd IRQ.pg IRQ.DB_STATUS_HI_DB = setBitOf (s.rd IRQ.pg IRQ.DB_STATUS_HI_DB) (src.toNat - 224) % 2 ^ 32) ∧
        (192 ≤ src.toNat → sameRegsBut [IRQ.DB_STATUS_LO_DB.key IRQ.pg 0, IRQ.DB_STATUS_HI_DB.key IRQ.pg 0] s t) ∧
        (src.toNat < 192 → t.refusedWith IRQ.pg 0x03 0x4E0 ini ∧ sameRegsBut (cfgErrKeys IRQ.pg) s t)) ∧
    (∀ e : Fin 4, s.admits ini IRQ.pg (0x4D0 + 4 * e) 0 = true →
      ∃ t, exec (.eoi ini e) s = .next t ∧
        t = { s with porchA := t.porchA, porchB := t.porchB, resp := ⟨.ok, []⟩ } ∧
        t.porchA.line = s.porchA.line ∧ t.porchA.waiting = s.porchA.waiting ∧
        t.porchB.line = s.porchB.line ∧ t.porchB.waiting = s.porchB.waiting ∧
        t.porchA.msiSent = s.porchA.msiSent + (if e = 0 ∧ s.msiOn .A = true ∧ s.lineActive 0 = true then 1 else 0) ∧
        t.porchB.msiSent = s.porchB.msiSent + (if e = 1 ∧ s.msiOn .B = true ∧ s.lineActive 1 = true then 1 else 0))) ∧
  (∀ (s : State) (ini : Initiator), Canonical s →
    (s.readable ini SYS.pg 0x050 = true →
      ∃ t, exec (.cycLoRead ini) s = .next t ∧ t.resp = ⟨.ok, [BitVec.ofNat 32 s.cyc.toNat]⟩ ∧
        t.rd SYS.pg SYS.CYC_HI_CYC_HI = s.cyc.toNat / 2 ^ 32 ∧ t = { s with regs := t.regs, resp := t.resp }) ∧
    (s.readable ini METRO.pg 0x080 = true →
      ∃ t, exec (.nextSeqLoRead ini) s = .next t ∧ t.resp = ⟨.ok, [BitVec.ofNat 32 s.metro.next]⟩ ∧
        t.rd METRO.pg METRO.NEXT_SEQ_HI_SEQ = s.metro.next / 2 ^ 32 % 2 ^ 32 ∧ t = { s with regs := t.regs, resp := t.resp }) ∧
    (∀ m : Fin 9, s.readable ini METRO.pg (0x100 + 0x40 * m) = true →
      ∃ t, exec (.impLoRead ini m) s = .next t ∧ t.resp = ⟨.ok, [BitVec.ofNat 32 (s.meter m).imp]⟩ ∧
        t.rd METRO.pg METRO.IMP_HI_VALUE m = (s.meter m).imp / 2 ^ 32 % 2 ^ 32 ∧
        t.rd METRO.pg METRO.EXP_LO_VALUE m = (s.meter m).exp % 2 ^ 32 ∧
        t.rd METRO.pg METRO.EXP_HI_VALUE m = (s.meter m).exp / 2 ^ 32 % 2 ^ 32 ∧ t = { s with regs := t.regs, resp := t.resp }) ∧
    (s.readable ini PTP.pg 0x040 = true →
      ∃ t, exec (.timeNsRead ini) s = .next t ∧ t.resp = ⟨.ok, [BitVec.ofNat 32 (s.timeNow % 1000000000)]⟩ ∧
        t.rd PTP.pg PTP.TIME_S_LO_S = s.timeNow / 1000000000 % 2 ^ 32 ∧
        t.rd PTP.pg PTP.TIME_S_HI_S = s.timeNow / 1000000000 / 2 ^ 32 % 2 ^ 32 ∧ t = { s with regs := t.regs, resp := t.resp }) ∧
    (s.readable ini PTP.pg 0x078 = true →
      ∃ t, exec (.offsetLoRead ini) s = .next t ∧ t.resp = ⟨.ok, [BitVec.ofInt 32 s.ptp.offset]⟩ ∧
        t.rd PTP.pg PTP.OFFSET_HI_PS = wrapOf 32 (s.ptp.offset.fdiv (2 ^ 32)) ∧ t = { s with regs := t.regs, resp := t.resp }) ∧
    (s.readable ini PTP.pg 0x068 = true →
      ∃ t, exec (.jumpPendLoRead ini) s = .next t ∧ t.resp = ⟨.ok, [BitVec.ofInt 32 (s.ptp.pend.fdiv nsU)]⟩ ∧
        t.rd PTP.pg PTP.JUMP_PEND_HI_NS = wrapOf 32 ((s.ptp.pend.fdiv nsU).fdiv (2 ^ 32)) ∧
        t = { s with regs := t.regs, resp := t.resp }) ∧
    (∀ k : Fin 8, s.readable ini REDUN.pg (REDUN.STAMP_RSEQ.off + REDUN.STAMP_RSEQ.stride * k) = true →
      ∃ t, exec (.stampRead ini k) s = .next t ∧
        (s.stampIndex k < 256 →
          t.resp = ⟨.ok, [BitVec.ofNat 32 (s.setCycle % 2 ^ 24 * 256 + s.stampIndex k)]⟩ ∧ t.regs = s.regs) ∧
        (256 ≤ s.stampIndex k → t.resp = ⟨.ok, [0xFFFFFFFF#32]⟩ ∧
          (ini ≠ .dap → t.rd REDUN.pg REDUN.STAMP_ERR_COUNT = satInc 16 (s.rd REDUN.pg REDUN.STAMP_ERR_COUNT))) ∧
        t = { s with regs := t.regs, resp := t.resp, redun := t.redun } ∧
        (ini = .dap → t.redun = s.redun) ∧
        (ini ≠ .dap → t.stampIndex k = s.stampIndex k + 1 ∧ (∀ j : Fin 8, j ≠ k → t.stampIndex j = s.stampIndex j) ∧
          t.redun = { s.redun with reads := t.redun.reads, readsPrev := t.redun.readsPrev, readsAt := s.setCycle } ∧
          t.redun.readsPrev = if s.redun.readsAt = s.setCycle then s.redun.readsPrev else s.redun.reads)))

/-- PCI Express requests. A BAR0 request that is not one aligned DWORD with all byte enables is an Unsupported Request and error 0x3
(R68); one DWORD of BAR2 in Main SRAM below the region of R28 is written byte by byte or read; a reserved BAR2 offset is an
Unsupported Request and error 0x7. Behind an access that waits, a request waits (R66). The link's events set LINK, and link-down drops what
waits and releases the port's keys. -/
def Obligations.PcieRequestsAndLink : Prop :=
  ∀ (s : State) (p : HostPort), Canonical s → s.live = true → s.isQspi p = false →
    (∀ r : PcieReq, r.wf = true → s.portUp p = true → r.bar2 = false → s.waitingOf (portIni p) ≠ [] →
      ∃ t, exec (.pcieRequest p r) s = .next t ∧ t.resp = ⟨.stalled, []⟩ ∧ t.regs = s.regs ∧
        (t.waitingOf (portIni p)).length = (s.waitingOf (portIni p)).length + 1) ∧
    (∀ r : PcieReq, r.wf = true → s.portUp p = true → r.bar2 = false → r.be ≠ [0xF#4] → s.waitingOf (portIni p) = [] →
      ∃ t, exec (.pcieRequest p r) s = .next t ∧ t.resp = ⟨.unsupported, []⟩ ∧
        t.rd (portPg p) PORCH.ERR_CODE_CODE = 0x3 ∧
        t.rd (portPg p) PORCH.ERR_ADDR_ADDR = 0x40000000 + r.offset.toNat + firstByte (r.be.headD 0) ∧
        t.rd (portPg p) PORCH.ERR_COUNT_COUNT = satInc 16 (s.rd (portPg p) PORCH.ERR_COUNT_COUNT) ∧
        samePagesBut [portPg p] s t) ∧
    (∀ r : PcieReq, r.wf = true → s.portUp p = true → r.bar2 = true → r.offset.toNat < 0x3C0000 → r.be.length = 1 → r.upsets = [] →
      s.waitingOf (portIni p) = [] → s.mode ≠ mBOOT →
      s.sramUe.contains (r.offset.toNat / 8) = false → s.sramCe.contains (r.offset.toNat / 8) = false →
      ∃ t, exec (.pcieRequest p r) s = .next t ∧
        (r.write = true → t.resp = ⟨.ok, []⟩ ∧ t = { s with sram := t.sram, resp := t.resp } ∧
          (∀ i < 4, t.byteAt (sramBase + r.offset.toNat + i) =
            if (r.be.headD 0).getLsbD i then BitVec.ofNat 8 ((r.data.headD 0).toNat >>> (8 * i))
            else s.byteAt (sramBase + r.offset.toNat + i)) ∧
          ∀ a, (a < sramBase + r.offset.toNat ∨ sramBase + r.offset.toNat + 4 ≤ a) → t.byteAt a = s.byteAt a) ∧
        (r.write = false → t.resp = ⟨.ok, [BitVec.ofNat 32 (ofLeBytes (s.bytesAt (sramBase + r.offset.toNat) 4))]⟩ ∧
          t = { s with resp := t.resp })) ∧
    (∀ r : PcieReq, r.wf = true → s.portUp p = true → r.bar2 = true → 0x618000 ≤ r.offset.toNat → r.be.length ≤ 64 →
      s.waitingOf (portIni p) = [] →
      ∃ t, exec (.pcieRequest p r) s = .next t ∧ t.resp = ⟨.unsupported, []⟩ ∧
        t.rd (portPg p) PORCH.ERR_CODE_CODE = 0x7 ∧
        t.rd (portPg p) PORCH.ERR_ADDR_ADDR = r.offset.toNat + firstByte (r.be.headD 0) ∧ samePagesBut [portPg p] s t) ∧
    (∀ gen2 : Bool, s.flag (portPg p) PORCH.LINK_UP = false →
      ∃ t, exec (.pcieLinkUp p gen2) s = .next t ∧ t.flag (portPg p) PORCH.LINK_UP = true ∧
        t.rd (portPg p) PORCH.LINK_SPEED = (if gen2 then 2 else 1) ∧
        bitOf (t.rd (portPg p) HDR.IRQ_STATUS_BITS) 2 = true ∧ samePagesBut [portPg p] s t) ∧
    (∃ t, exec (.pcieLinkDown p) s = .next t ∧ t.flag (portPg p) PORCH.LINK_UP = false ∧
      t.waitingOf (portIni p) = [] ∧ (∀ n < 64, s.holder n = ownerId (portIni p) → t.holder n = 0) ∧
      bitOf (t.rd (portPg p) HDR.IRQ_STATUS_BITS) 2 = true ∧ samePagesBut [portPg p, KEYRACK.pg] s t) ∧
    (∀ msi : Bool, s.portUp p = true →
      ∃ t, exec (.pcieConfigWrite p msi) s = .next t ∧ t.flag (portPg p) PORCH.LINK_MSI_EN = msi ∧
        sameRegsBut [PORCH.LINK_MSI_EN.key (portPg p) 0] s t)

/-- Quad-SPI frames. A misaligned READ answers 0xBAD0_0BAD for every word and logs error 0x3 for each, with its address (R954); a misaligned
WRITE writes nothing and logs error 0x3 once; an
aligned READ or WRITE of one word of Main SRAM reads or writes it; STATUS and ID are served inside the port; RELEASE_ALL releases the
port's keys and clears ERR_CODE; an unknown command is error 0x5. An access that waits alone past its time ends with error 0x1, and a
register write of it marks its page (R85). That RELEASE_ALL and an unknown command act at once while an access waits, and that such a write of
an unlisted offset leaves CFG_ERROR as it is (R7), is the model's reading (log entry 28). -/
def Obligations.QspiFramesAndTimeout : Prop :=
  ∀ (s : State) (p : HostPort), Canonical s → s.qspiOn p = true →
    (∀ (a : Word) (n : Nat) (us : List Upset), a.toNat % 4 ≠ 0 → s.waitingOf (portIni p) = [] →
      ∃ t, exec (.qspiRead p a n false us) s = .next t ∧ t.resp = ⟨.busError, List.replicate n badWord⟩ ∧
        t.rd (portPg p) PORCH.ERR_COUNT_COUNT = (satInc 16)^[n] (s.rd (portPg p) PORCH.ERR_COUNT_COUNT) ∧
        (n ≠ 0 → t.rd (portPg p) PORCH.ERR_CODE_CODE = 0x3 ∧
          t.rd (portPg p) PORCH.ERR_ADDR_ADDR = (a.toNat + 4 * (n - 1)) % 2 ^ 32) ∧ samePagesBut [portPg p] s t ∧ t.sram = s.sram) ∧
    (∀ a : Word, a.toNat % 4 = 0 → sramBase ≤ a.toNat → a.toNat < secureBase → s.waitingOf (portIni p) = [] →
      s.sramUe.contains (eccWord a.toNat) = false → s.sramCe.contains (eccWord a.toNat) = false →
      (∃ t, exec (.qspiRead p a 1 false []) s = .next t ∧
        t.resp = ⟨.ok, [BitVec.ofNat 32 (ofLeBytes (s.bytesAt a.toNat 4))]⟩ ∧ t = { s with resp := t.resp }) ∧
      ∀ b0 b1 b2 b3 : Byte, ∃ t, exec (.qspiWrite p a [b0, b1, b2, b3] []) s = .next t ∧
        t.bytesAt a.toNat 4 = [b0, b1, b2, b3] ∧ t.resp = ⟨.ok, []⟩ ∧ t = { s with sram := t.sram, resp := t.resp } ∧
        ∀ x, (x < a.toNat ∨ a.toNat + 4 ≤ x) → t.byteAt x = s.byteAt x) ∧
    (∀ (a : Word) (bs : List Byte) (us : List Upset), a.toNat % 4 ≠ 0 → s.waitingOf (portIni p) = [] →
      ∃ t, exec (.qspiWrite p a bs us) s = .next t ∧ t.rd (portPg p) PORCH.ERR_CODE_CODE = 0x3 ∧
        t.rd (portPg p) PORCH.ERR_COUNT_COUNT = satInc 16 (s.rd (portPg p) PORCH.ERR_COUNT_COUNT) ∧ t.sram = s.sram ∧
        samePagesBut [portPg p] s t) ∧
    (s.waitingOf (portIni p) = [] → ∃ t, exec (.qspiStatus p) s = .next t ∧ t = { s with resp := ⟨.ok, [BitVec.ofNat 32 (s.rd (portPg p) PORCH.ERR_CODE_CODE)]⟩ }) ∧
    (s.waitingOf (portIni p) = [] → ∃ t, exec (.qspiId p) s = .next t ∧
      t = { s with resp := ⟨.ok, [BitVec.ofNat 32 (s.rd SYS.pg SYS.DEVICE_ID_PART + 2 ^ 16 * s.rd SYS.pg SYS.DEVICE_ID_SILICON)]⟩ }) ∧
    (∃ t, exec (.releaseAll p) s = .next t ∧ t.rd (portPg p) PORCH.ERR_CODE_CODE = 0 ∧
      (∀ n < 64, t.holder n = if s.holder n = ownerId (portIni p) then 0 else s.holder n) ∧
      samePagesBut [portPg p, KEYRACK.pg] s t ∧ t = { s with regs := t.regs, resp := ⟨.ok, []⟩ }) ∧
    (∀ code : Byte, qspiUnknownOk code = true →
      ∃ t, exec (.qspiUnknownCommand p code) s = .next t ∧ t.rd (portPg p) PORCH.ERR_CODE_CODE = 0x5 ∧
        t.rd (portPg p) PORCH.ERR_COUNT_COUNT = satInc 16 (s.rd (portPg p) PORCH.ERR_COUNT_COUNT) ∧ samePagesBut [portPg p] s t) ∧
    (∀ a : Access, (s.porch p).waiting = [a] → a.ini = portIni p → s.live = true →
      ∃ t, exec (.hostAccessTimeout p) s = .next t ∧ (t.porch p).waiting = [] ∧
        t.rd (portPg p) PORCH.ERR_CODE_CODE = 0x1 ∧
        t.rd (portPg p) PORCH.ERR_COUNT_COUNT = satInc 16 (s.rd (portPg p) PORCH.ERR_COUNT_COUNT) ∧
        (a.dropped = true → t.resp = s.resp ∧ t.late = []) ∧
        (a.dropped = false → t.resp = ⟨.busError, if a.write then [] else a.words.map fun _ => badWord⟩ ∧
          t.late = [(a.ini, t.resp)]) ∧
        (∀ w pg off q inst, a.words = [w] → a.write = true → s.stalls a = true → pageNo w.addr = pg → pageOff w.addr = off →
          pageOf pg = some (q, inst) → pg ≠ portPg p →
          (regListed q inst off = true → t.refusedWith pg 0x06 off a.ini ∧ samePagesBut [pg, portPg p] s t) ∧
          (regListed q inst off = false → samePagesBut [portPg p] s t)))

/-! ### Modes, the inter-die link, lock-step, the end of BOOT (01, 18) -/

/-- A write of MODE_REQ while a transition is in progress is refused (R47), and on a member that takes the lead's modes (R57; of a joiner log
entry 24); any other waits for the mode tick with TRANS_BUSY 1 (the model's reading, log entry 6). -/
def Obligations.ModeRequestWaitsForTheTick : Prop :=
  ∀ (s : State) (ini : Initiator) (target : BitVec 4), Canonical s → s.admits ini SYS.pg 0x044 target.toNat = true →
    (s.flag SYS.pg SYS.STATUS_TRANS_BUSY = true ∨ s.takesMode = true →
      ∃ t, exec (.modeRequest ini target) s = .next t ∧ t.refusedWith SYS.pg 0x05 0x044 ini ∧
        t.flag SYS.pg SYS.STATUS_REQ_REFUSED = true ∧ t = { s with regs := t.regs, resp := ⟨.ok, []⟩ } ∧
        sameRegsBut (SYS.STATUS_REQ_REFUSED.key SYS.pg 0 :: cfgErrKeys SYS.pg) s t) ∧
    (s.flag SYS.pg SYS.STATUS_TRANS_BUSY = false → s.takesMode = false →
      ∃ t, exec (.modeRequest ini target) s = .next t ∧ t.flag SYS.pg SYS.STATUS_TRANS_BUSY = true ∧
        t = { s with regs := t.regs, resp := ⟨.ok, []⟩, modes := { s.modes with request := some (target.toNat, ownerId ini) } } ∧
        sameRegsBut [SYS.STATUS_TRANS_BUSY.key SYS.pg 0] s t)

/-- The mode tick judges the request that waits: one that R44 does not allow is refused and leaves the mode; one for the current mode is
accepted without action; one for READY from a forming mode with a port that is not OFF waits for the ports with TRANS_BUSY 1 (R52); any
other changes the mode, PREV_MODE and ENTRY_CAUSE. The breaker that closes under permission enters FORM_GRID with cause 0x20, islanding
FORM_ISLAND with 0x21; both come before a request, which is refused (R44, R50). A SAFE_STOP cause that acts at the tick comes before all:
SAFE_STOP is entered with the lowest cause code, the others are counted, and a request that waits is refused. What a tick judges first, and
that a request for the current mode is accepted in every power state, is the model's reading (log entry 6). -/
def Obligations.ModeTickMakesOneTransition : Prop :=
  ∀ s : State, Canonical s → s.live = true → s.mode ≠ mBOOT → s.takesMode = false →
    (∀ target id, s.modes.request = some (target, id) → s.dueCauses = [] → s.latchBreaker.closedUnderPermit = false →
      s.latchBreaker.islanded = false →
      (s.latchBreaker.requestOk target id = false →
        ∃ t, exec (.modeTick none) s = .next t ∧ t.mode = s.mode ∧ t.modes.request = none ∧
          t.flag SYS.pg SYS.STATUS_REQ_REFUSED = true ∧ t.flag SYS.pg SYS.STATUS_TRANS_BUSY = false ∧
          t.rd SYS.pg HDR.CFG_ERROR_CODE = 0x05 ∧ t.rd SYS.pg HDR.CFG_ERROR_OFFSET = 0x044 ∧
          t.rd SYS.pg HDR.CFG_ERROR_INITIATOR = id % 256) ∧
      (s.latchBreaker.requestOk target id = true → target = s.mode →
        ∃ t, exec (.modeTick none) s = .next t ∧ t.mode = s.mode ∧ t.modes.request = none ∧
          t.flag SYS.pg SYS.STATUS_REQ_REFUSED = false ∧ t.rd SYS.pg SYS.MODE_REQ_TARGET = target % 16) ∧
      (s.latchBreaker.requestOk target id = true → target = mREADY → s.forming = true → s.portsOff = false →
        ∃ t, exec (.modeTick none) s = .next t ∧ t.mode = s.mode ∧ t.modes.request = none ∧
          t.modes.ramp = some (causeOf id, some id) ∧ t.flag SYS.pg SYS.STATUS_TRANS_BUSY = true ∧
          t.flag SYS.pg SYS.STATUS_REQ_REFUSED = false ∧ t.rd SYS.pg SYS.MODE_REQ_TARGET = mREADY ∧
          t.rd SYS.pg SYS.MODE_PREV_MODE = s.rd SYS.pg SYS.MODE_PREV_MODE ∧
          ∀ p : Fin 8, (t.portUnit p).ready = ((s.portUnit p).ready || s.portPhase p ≠ 0)) ∧
      (s.latchBreaker.requestOk target id = true → target ≠ s.mode → (s.forming = true → target = mREADY → s.portsOff = true) →
        ∃ t, exec (.modeTick none) s = .next t ∧ t.mode = target ∧ t.rd SYS.pg SYS.MODE_PREV_MODE = s.mode ∧
          t.rd SYS.pg SYS.MODE_ENTRY_CAUSE = causeOf id ∧ t.modes.request = none ∧
          t.flag SYS.pg SYS.STATUS_REQ_REFUSED = false ∧ t.rd SYS.pg SYS.MODE_REQ_TARGET = target)) ∧
    (s.dueCauses = [] → s.latchBreaker.closedUnderPermit = true ∨ s.latchBreaker.islanded = true →
      ∃ t, exec (.modeTick none) s = .next t ∧
        (s.mode = mSYNC → t.mode = mGRID ∧ t.rd SYS.pg SYS.MODE_PREV_MODE = mSYNC ∧ t.rd SYS.pg SYS.MODE_ENTRY_CAUSE = 0x20) ∧
        (s.mode = mGRID → t.mode = mISLAND ∧ t.rd SYS.pg SYS.MODE_PREV_MODE = mGRID ∧ t.rd SYS.pg SYS.MODE_ENTRY_CAUSE = 0x21) ∧
        (s.mode = mSYNC ∨ s.mode = mGRID) ∧ t.modes.request = none ∧ t.modes.ramp = none ∧
        (∀ target id, s.modes.request = some (target, id) → s.modes.ramp.all (fun r => r.2.isNone) = true →
          t.flag SYS.pg SYS.STATUS_REQ_REFUSED = true ∧ t.rd SYS.pg HDR.CFG_ERROR_CODE = 0x05 ∧
          t.rd SYS.pg HDR.CFG_ERROR_OFFSET = 0x044 ∧ t.rd SYS.pg HDR.CFG_ERROR_INITIATOR = id % 256) ∧
        (∀ c id, s.modes.ramp = some (c, some id) →
          t.flag SYS.pg SYS.STATUS_REQ_REFUSED = true ∧ t.rd SYS.pg HDR.CFG_ERROR_CODE = 0x05 ∧
          t.rd SYS.pg HDR.CFG_ERROR_OFFSET = 0x044 ∧ t.rd SYS.pg HDR.CFG_ERROR_INITIATOR = id % 256)) ∧
    (s.dueCauses ≠ [] → s.mode ≠ mSAFE →
      ∃ t, exec (.modeTick none) s = .next t ∧ t.mode = mSAFE ∧ t.rd SYS.pg SYS.MODE_PREV_MODE = s.mode % 16 ∧
        t.rd SYS.pg SYS.MODE_ENTRY_CAUSE = lowestCause s.dueCauses % 256 ∧
        t.rd SYS.pg SYS.SAFE_STOP_CAUSE_FIRST = lowestCause s.dueCauses % 65536 ∧
        t.rd SYS.pg SYS.SAFE_STOP_CAUSE_COUNT = min (s.dueCauses.length - 1) 65535 ∧ t.modes.request = none ∧
        (s.modes.request.isSome = true → t.flag SYS.pg SYS.STATUS_REQ_REFUSED = true ∧ t.rd SYS.pg HDR.CFG_ERROR_CODE = 0x05))

/-- The way from a forming mode to READY. SYNC_TIMEOUT of a unit in use enters READY with cause 0x22 once every port is OFF, and waits for the
ports with TRANS_BUSY 1 before, giving up a request that waits for them (R52); outside SYNC, of a unit not in use, where it waits already,
with a closure under permission, and on a member that takes the lead's modes, it changes nothing. READY_AFTER_PORTS_OFF makes the transition
that waited, and nothing while a port is not OFF, where none waited, and on a member that takes the lead's modes. Loss of the inter-die link,
also of one that never came up (R946), clears DIE_LINK_OK, fires the source DIE_LINK and is a SAFE_STOP cause 0x14; its return sets
DIE_LINK_OK and ends the source. A lock-step mismatch sets the pair's LS_ERR, releases its keys, fires SUP_LOCKSTEP and is a cause 0x12,
before a halt of the same CYC (R921). -/
def Obligations.PortsOffSyncTimeoutLinkLossAndLockstep : Prop :=
  (∀ s : State, Canonical s → s.live = true →
    (∀ n : Fin 2, s.mode = mSYNC → s.formInUse n = true → s.modes.ramp.all (fun r => r.1 ≠ 0x22) = true → s.closedUnderPermit = false →
        s.takesMode = false →
      (s.portsOff = true →
        ∃ t, exec (.syncTimeout n) s = .next t ∧ t.mode = mREADY ∧ t.rd SYS.pg SYS.MODE_PREV_MODE = mSYNC ∧
          t.rd SYS.pg SYS.MODE_ENTRY_CAUSE = 0x22) ∧
      (s.portsOff = false →
        ∃ t, exec (.syncTimeout n) s = .next t ∧ t.mode = mSYNC ∧ t.modes.ramp = some (0x22, none) ∧
          t.flag SYS.pg SYS.STATUS_TRANS_BUSY = true)) ∧
    (∀ n : Fin 2, s.mode ≠ mSYNC ∨ s.formInUse n = false ∨ s.modes.ramp.all (fun r => r.1 ≠ 0x22) = false ∨
        s.closedUnderPermit = true ∨ s.takesMode = true →
      exec (.syncTimeout n) s = .next s) ∧
    (∀ cause id, s.modes.ramp = some (cause, id) → s.portsOff = true → s.takesMode = false →
      ∃ t, exec .readyAfterPortsOff s = .next t ∧ t.mode = mREADY ∧ t.rd SYS.pg SYS.MODE_PREV_MODE = s.mode % 16 ∧
        t.rd SYS.pg SYS.MODE_ENTRY_CAUSE = cause % 256 ∧ t.modes.ramp = none) ∧
    (s.modes.ramp = none ∨ s.portsOff = false ∨ s.takesMode = true → exec .readyAfterPortsOff s = .next s)) ∧
  (∀ s : State, Canonical s → s.live = true →
    (s.srcActive 57 = false →
      ∃ t, exec .dieLinkLoss s = .next t ∧ t.flag SYS.pg SYS.STATUS_DIE_LINK_OK = false ∧ t.srcActive 57 = true ∧
        (s.stoppable = true → (0x14, s.cyc) ∈ t.modes.causes) ∧ t.mode = s.mode) ∧
    (s.srcActive 57 = true → exec .dieLinkLoss s = .next s) ∧
    (∃ t, exec .dieLinkRestore s = .next t ∧ t.flag SYS.pg SYS.STATUS_DIE_LINK_OK = true ∧ t.srcActive 57 = false ∧
      t.mode = s.mode) ∧
    (s.sec.lsHaltA = false →
      ∃ t, exec (.lockstepMismatch .A) s = .next t ∧ t.flag SYS.pg SYS.STATUS_SUPA_LS_ERR = true ∧ t.srcActive 58 = true ∧
        (∀ n < 64, t.holder n = if s.holder n = 0x10 then 0 else s.holder n) ∧
        (s.stoppable = true → (0x12, s.cyc) ∈ t.modes.causes) ∧ t.sec = { s.sec with lsHaltA := true } ∧
        (s.rd DEBUG.pg DEBUG.LE_HALT_ENGINE = 0 → ∀ c ∈ t.modes.causes, c.2 = s.cyc → c.1 % 256 ≠ 0x11)) ∧
    (s.sec.lsHaltB = false →
      ∃ t, exec (.lockstepMismatch .B) s = .next t ∧ t.flag SYS.pg SYS.STATUS_SUPB_LS_ERR = true ∧ t.srcActive 58 = true ∧
        (∀ n < 64, t.holder n = if s.holder n = 0x11 then 0 else s.holder n) ∧
        (s.stoppable = true → (0x12, s.cyc) ∈ t.modes.causes) ∧ t.sec = { s.sec with lsHaltB := true } ∧
        (s.rd DEBUG.pg DEBUG.LE_HALT_ENGINE = 0 → ∀ c ∈ t.modes.causes, c.2 = s.cyc → c.1 % 256 ≠ 0x11)) ∧
    (s.sec.lsHaltA = true → exec (.lockstepMismatch .A) s = .next s) ∧
    (s.sec.lsHaltB = true → exec (.lockstepMismatch .B) s = .next s))

/-- The end of BOOT. A slot that passes boots: CONFIG with cause 0x00, BOOT records the slot, OK and GENERATION, and XFLASH.CFG holds the XFCFG
of its directory (R898; log entry 26). A failed boot stays in BOOT with RECOVERY set and the failure of the last slot tried recorded; an OTP
array that cannot be read is failure 0x6. -/
def Obligations.BootEndsInConfigOrRecovery : Prop :=
  ∀ (s : State) (badA badB : List (Fin 16)), Canonical s → s.booting = true →
    (∀ k < 2, ∀ d : Directory, (s.bootRun badA badB).slot = some k → readDir s.flashByte (slotBase k) 0 = some d →
      ∃ t, exec (.bootComplete badA badB) s = .next t ∧ t.mode = mCONFIG ∧ t.rd SYS.pg SYS.MODE_PREV_MODE = mBOOT ∧
        t.rd SYS.pg SYS.MODE_ENTRY_CAUSE = 0 ∧ t.rd CELLAR.pg CELLAR.BOOT_SLOT = k ∧ t.flag CELLAR.pg CELLAR.BOOT_OK = true ∧
        t.rd CELLAR.pg CELLAR.BOOT_GENERATION = d.gen % 2 ^ CELLAR.BOOT_GENERATION.width ∧
        t.flag CELLAR.pg CELLAR.STATUS_RECOVERY = false ∧ t.sec.images = (s.bootRun badA badB).images.map Loaded.image ∧
        t.rd XFLASH.pg XFLASH.CFG_PROTO = d.xfcfg % 4 ∧ t.rd XFLASH.pg XFLASH.CFG_CLK = d.xfcfg / 4 % 4 ∧
        t.rd XFLASH.pg XFLASH.CFG_XIP_EN = d.xfcfg / 16 % 2 ∧ t.rd XFLASH.pg XFLASH.CFG_SIZE = d.xfcfg / 256 % 16) ∧
    (∃ t, exec (.bootFail false badA badB) s = .next t ∧ t.mode = mBOOT ∧ t.rd CELLAR.pg CELLAR.BOOT_CODE = 0x6 ∧
      t.flag CELLAR.pg CELLAR.STATUS_RECOVERY = true ∧ bitOf (t.rd CELLAR.pg HDR.IRQ_STATUS_BITS) 1 = true ∧
      samePagesBut [CELLAR.pg] s t) ∧
    (∀ c : Nat, ∀ e : Nat, (s.bootRun badA badB).slot = none → (s.bootRun badA badB).fail = some (c, some e) →
      ∃ t, exec (.bootFail true badA badB) s = .next t ∧ t.mode = mBOOT ∧ t.rd CELLAR.pg CELLAR.BOOT_CODE = c % 16 ∧
        t.rd CELLAR.pg CELLAR.BOOT_ENTRY = e % 16 ∧ t.flag CELLAR.pg CELLAR.STATUS_RECOVERY = true ∧
        samePagesBut [CELLAR.pg, XFLASH.pg, SYS.pg] s t)

/-! ### Form Units (03, 04) -/

/-- An update of a unit whose instant is reached plans the next one PERIOD ticks later, puts an accepted set in force, publishes the unit's ω
and E unless it is IDLE, counts in UPD_COUNT and leaves the mode; before its instant there is no update (R134, R136, R148, R173). Where no set
waits: a unit in FAULT stays there and its θ, ω and E hold; in SYNC, FORM and RAMP ω stays within FMIN to FMAX and E below EMAX, in SYNC and
FORM above EMIN (kept to 2^−64, log entry 21); SYNC from READY follows the estimator, or coasts while the grid is absent (R195, R196); the set
points move by SPRATE, VSET_NOW in RAMP by BS_RATE (R152, R229), and RAMP becomes FORM where VSET_NOW is VSET (R230). At an entry: SYNC from
IDLE takes the estimate and opens the gates (R192, R194); FORM from SYNC starts its set points from what the unit delivered, or takes Δf_s into
them (R199, R211); RAMP from IDLE starts from the bus where that is live, else from FSET (R226 to R228). The order of the steps is log entry 46,
the estimate itself log entry 23. -/
def Obligations.FormUpdateKeepsItsBounds : Prop :=
  ∀ (s : State) (n : Fin 2), Canonical s → s.live = true →
    (s.formDue n = false → exec (.formUpdate n) s = .next s) ∧
    (∀ at_, s.formDue n = true → (s.formUnit n).next = some at_ →
      ∃ t, exec (.formUpdate n) s = .next t ∧
        (t.formUnit n).next = some (at_ + BitVec.ofNat 64 (s.rd (FORM.pg n) FORM.RATE_PERIOD)) ∧
        t.commitPending (FORM.pg n) = false ∧ t.mode = s.mode ∧ (t.formUnit n).target = none ∧
        (s.commitPending (FORM.pg n) = false →
          t.rd (FORM.pg n) FORM.UPD_COUNT_COUNT = (s.rd (FORM.pg n) FORM.UPD_COUNT_COUNT + 1) % 2 ^ 32 ∧
          (s.formState n = fFAULT → t.formState n = fFAULT ∧ (t.formUnit n).theta = (s.formUnit n).theta ∧
            (t.formUnit n).omega = (s.formUnit n).omega ∧ (t.formUnit n).e = (s.formUnit n).e) ∧
          (t.formState n = fSYNC ∨ t.formState n = fFORM ∨ t.formState n = fRAMP →
            (s.fR n FORM.FMIN_VALUE ≤ s.fR n FORM.FMAX_VALUE →
              grid (s.fR n FORM.FMIN_VALUE) ≤ (t.formUnit n).omega ∧ (t.formUnit n).omega ≤ grid (s.fR n FORM.FMAX_VALUE)) ∧
            t.rd (FORM.pg n) FORM.OMEGA_VALUE = (f32 (t.formUnit n).omega).toNat ∧
            t.rd (FORM.pg n) FORM.EMAG_VALUE = (f32 (t.formUnit n).e).toNat ∧
            (s.fR n FORM.EMIN_VALUE ≤ s.fR n FORM.EMAX_VALUE → (t.formUnit n).e ≤ grid (s.fR n FORM.EMAX_VALUE) ∧
              (t.formState n = fSYNC ∨ (s.formState n = fSYNC ∨ s.formState n = fFORM) ∧ t.formState n = fFORM →
                grid (s.fR n FORM.EMIN_VALUE) ≤ (t.formUnit n).e))) ∧
          (t.formState n = fSYNC → (t.formUnit n).fromIsland = false →
            (t.formUnit n).pNow = (t.formUnit n).pe ∧ (t.formUnit n).qNow = (t.formUnit n).qe ∧ (t.formUnit n).vNow = (t.formUnit n).e) ∧
          (t.formState n = fSYNC → (t.formUnit n).fromIsland = false → (t.formUnit n).present = true →
            (t.formUnit n).theta = grid (wrap2Pi (t.formUnit n).gAng) ∧
            (t.formUnit n).omega = grid (clampR (t.formUnit n).gFreq (s.fR n FORM.FMIN_VALUE) (s.fR n FORM.FMAX_VALUE)) ∧
            (t.formUnit n).e = grid (clampR (t.formUnit n).gMag (s.fR n FORM.EMIN_VALUE) (s.fR n FORM.EMAX_VALUE))) ∧
          (s.formState n = fSYNC → t.formState n = fSYNC → (t.formUnit n).fromIsland = false → (t.formUnit n).present = false →
            (t.formUnit n).theta = grid (wrap2Pi ((s.formUnit n).theta + s.omegaBase n * (s.formUnit n).omega * s.formT n)) ∧
            (t.formUnit n).omega = grid (clampR (s.formUnit n).omega (s.fR n FORM.FMIN_VALUE) (s.fR n FORM.FMAX_VALUE)) ∧
            (t.formUnit n).e = grid (clampR (s.formUnit n).e (s.fR n FORM.EMIN_VALUE) (s.fR n FORM.EMAX_VALUE))) ∧
          (s.formState n = fIDLE → t.formState n = fSYNC →
            (t.formUnit n).fromIsland = false ∧ (t.formUnit n).gate = true ∧ (t.formUnit n).dfs = 0) ∧
          (s.formState n = fFORM ∧ t.formState n = fFORM ∨
              s.formState n = fSYNC ∧ (s.formUnit n).fromIsland = true ∧ t.formState n = fSYNC →
            s.setPointsMove t n (s.formUnit n).pNow (s.formUnit n).qNow (s.formUnit n).vNow (s.formUnit n).fNow) ∧
          (s.formState n = fSYNC → t.formState n = fFORM →
            ((s.formUnit n).fromIsland = true → (t.formUnit n).dfs = 0 ∧ s.setPointsMove t n (s.formUnit n).pNow (s.formUnit n).qNow
              (s.formUnit n).vNow ((s.formUnit n).fNow + (s.formUnit n).dfs)) ∧
            ((s.formUnit n).fromIsland = false →
              s.setPointsMove t n (s.formUnit n).pe (s.formUnit n).qe (s.formUnit n).e (s.formUnit n).omega)) ∧
          (s.formState n = fRAMP → (s.formUnit n).target = none → t.formState n = fRAMP ∨ t.formState n = fFORM →
            (t.formUnit n).ramping = ((s.formUnit n).ramping || s.flag (FORM.pg n) FORM.CTRL_DEADBUS_EN) ∧
            (t.formUnit n).vNow = rampR (s.formUnit n).vNow (s.fR n FORM.VSET_VALUE)
              (if (t.formUnit n).ramping = true then s.fR n FORM.BS_RATE_VALUE * s.formT n else 0) ∧
            (t.formState n = fFORM → (t.formUnit n).vNow = s.fR n FORM.VSET_VALUE)) ∧
          (s.formState n = fIDLE → t.formState n = fRAMP →
            (t.formUnit n).gate = true ∧
            (t.formUnit n).ramping = (decide (mkRat 1 10 ≤ magR (t.capVoltage n)) || s.flag (FORM.pg n) FORM.CTRL_DEADBUS_EN) ∧
            (t.formUnit n).vNow = rampR (magR (t.capVoltage n)) (s.fR n FORM.VSET_VALUE)
              (if (t.formUnit n).ramping = true then s.fR n FORM.BS_RATE_VALUE * s.formT n else 0) ∧
            (magR (t.capVoltage n) < mkRat 1 10 → (t.formUnit n).fNow = s.fR n FORM.FSET_VALUE)) ))

/-- The other events of a Form Unit: an input that aged to STALE_LIM or is invalid is lost, and a lost current or voltage input puts a unit in
FORM into FAULT; ANGLE_LIMIT that stayed 1 for its time is FAULT 0x03; a decayed slot correction is gone; the presence of the grid and
the permission to close are granted once their conditions have held. -/
def Obligations.FormEvents : Prop :=
  ∀ (s : State) (n : Fin 2), Canonical s → s.live = true →
    (∀ k : Fin 18, s.flag (FORM.pg n) FORM.INROUTE_EN k = true →
      (s.formUnit n).inputs[k].valid = false ∨ s.rd (FORM.pg n) FORM.STALE_LIM_LIMIT ≤ (s.formUnit n).inputs[k].stale →
      ∃ t, exec (.formInputLost n k) s = .next t ∧ (t.formUnit n).inputs[k].lost = true ∧
        (k.val < 12 → t.flag (FORM.pg n) FORM.STATUS_I_FB_OK = false) ∧
        (12 ≤ k.val → k.val < 15 → t.flag (FORM.pg n) FORM.STATUS_V_FB_OK = false) ∧
        (15 ≤ k.val → t.flag (FORM.pg n) FORM.STATUS_G_FB_OK = false) ∧
        (s.formState n = fFORM → k.val < 12 → t.formState n = fFAULT ∧ t.rd (FORM.pg n) FORM.STATUS_FAULT_CAUSE = 0x01) ∧
        samePagesBut [FORM.pg n, FUSE.pg] s t) ∧
    (∀ k : Fin 18, s.flag (FORM.pg n) FORM.INROUTE_EN k = false ∨
        ((s.formUnit n).inputs[k].valid = true ∧ (s.formUnit n).inputs[k].stale < s.rd (FORM.pg n) FORM.STALE_LIM_LIMIT) →
      exec (.formInputLost n k) s = .next s) ∧
    (s.flag (FORM.pg n) FORM.STATUS_ANGLE_LIMIT = true →
      s.formState n = fSYNC ∨ s.formState n = fFORM ∨ s.formState n = fRAMP →
      ∃ t, exec (.angleLimitTimeout n) s = .next t ∧ t.formState n = fFAULT ∧
        t.rd (FORM.pg n) FORM.STATUS_FAULT_CAUSE = 0x03 ∧ t.srcActive 55 = true ∧ t.form = s.form ∧
        samePagesBut [FORM.pg n, FUSE.pg] s t) ∧
    (∀ k : Fin 24, (s.formUnit n).slots[k].live = false →
      ∃ t, exec (.slotDecayEnd n k) s = .next t ∧ (t.formUnit n).slots[k].corr t.cyc = (0, 0) ∧
        (∀ j : Fin 24, j ≠ k → (t.formUnit n).slots[j] = (s.formUnit n).slots[j]) ∧ t = { s with form := t.form }) ∧
    (∀ k : Fin 24, (s.formUnit n).slots[k].live = true → exec (.slotDecayEnd n k) s = .next s) ∧
    ((s.formUnit n).presentFrom ≠ none →
      ∃ t, exec (.gridPresent n) s = .next t ∧ t.formUnit n = { s.formUnit n with present := true } ∧ t = { s with form := t.form }) ∧
    ((s.formUnit n).permitFrom ≠ none → s.formState n = fSYNC → (s.formUnit n).mbClosed = false →
      ∃ t, exec (.closePermitGrant n) s = .next t ∧ t.flag (FORM.pg n) FORM.STATUS_CLOSE_PERMIT = true ∧ t.form = s.form ∧
        sameRegsBut [FORM.STATUS_CLOSE_PERMIT.key (FORM.pg n) 0, HDR.IRQ_STATUS_BITS.key (FORM.pg n) 0] s t)

/-! ### Loop engines: the instructions (06) -/

/-- The operations that write one register, their guard true: Gd takes the result of R328 from the operands of R320, the run goes on
after the cost, and nothing else changes. -/
def Obligations.LoopInstructionsOfOneResult : Prop :=
  ∀ (s : State) (n : Fin 16) (run : LeRun) (i : LeInstr), s.issues n run i = true → s.leGuard n run i = true →
    (i.op = 0x01 → exec (.mov n noUpset) s = .next (s.issued n run 1 ((s.leUnit n).withG i.dst (s.opA n i)))) ∧
    (i.op = 0x02 → exec (.sel n noUpset) s = .next (s.issued n run 1 ((s.leUnit n).withG i.dst
      (if s.lePred n run (i.imm % 8) = true then s.opA n i else s.opB n i)))) ∧
    (i.op = 0x08 → exec (.fadd n noUpset) s = .next (s.issued n run 1 ((s.leUnit n).withG i.dst (fadd s.freeAt (s.opA n i) (s.opB n i))))) ∧
    (i.op = 0x09 → exec (.fsub n noUpset) s = .next (s.issued n run 1 ((s.leUnit n).withG i.dst (fsub s.freeAt (s.opA n i) (s.opB n i))))) ∧
    (i.op = 0x0A → exec (.fmul n noUpset) s = .next (s.issued n run 1 ((s.leUnit n).withG i.dst (fmul s.freeAt (s.opA n i) (s.opB n i))))) ∧
    (i.op = 0x0B → exec (.fmac n noUpset) s = .next (s.issued n run 1 ((s.leUnit n).withG i.dst
      (fmac s.freeAt (s.opA n i) (s.opB n i) (s.opC n i))))) ∧
    (i.op = 0x0C → exec (.fmin n noUpset) s = .next (s.issued n run 1 ((s.leUnit n).withG i.dst (fmin s.freeAt (s.opA n i) (s.opB n i))))) ∧
    (i.op = 0x0D → exec (.fmax n noUpset) s = .next (s.issued n run 1 ((s.leUnit n).withG i.dst (fmax s.freeAt (s.opA n i) (s.opB n i))))) ∧
    (i.op = 0x0E → exec (.fclamp n noUpset) s = .next (s.issued n run 1 ((s.leUnit n).withG i.dst
      (fmin s.freeAt (fmax s.freeAt (s.opA n i) (s.opB n i)) (s.opC n i))))) ∧
    (i.op = 0x0F → exec (.fabs n noUpset) s = .next (s.issued n run 1 ((s.leUnit n).withG i.dst (fabs (s.opA n i))))) ∧
    (i.op = 0x10 → exec (.fneg n noUpset) s = .next (s.issued n run 1 ((s.leUnit n).withG i.dst (fneg (s.opA n i))))) ∧
    (i.op = 0x11 → exec (.fdiv n noUpset) s = .next (s.issued n run 8 ((s.leUnit n).withG i.dst (fdiv s.freeAt (s.opA n i) (s.opB n i))))) ∧
    (i.op = 0x12 → exec (.fsqrt n noUpset) s = .next (s.issued n run 8 ((s.leUnit n).withG i.dst (fsqrt s.freeAt (s.opA n i))))) ∧
    (i.op = 0x13 → exec (.qadd n noUpset) s = .next (s.issued n run 1 ((s.leUnit n).withG i.dst
      (sat32 ((s.opA n i).toInt + (s.opB n i).toInt))))) ∧
    (i.op = 0x14 → exec (.qsub n noUpset) s = .next (s.issued n run 1 ((s.leUnit n).withG i.dst
      (sat32 ((s.opA n i).toInt - (s.opB n i).toInt))))) ∧
    (i.op = 0x15 → exec (.qmul n noUpset) s = .next (s.issued n run 1 ((s.leUnit n).withG i.dst
      (sat32 (((s.opA n i).toInt * (s.opB n i).toInt + 2 ^ 30).fdiv (2 ^ 31)))))) ∧
    (i.op = 0x16 → exec (.qmac n noUpset) s = .next (s.issued n run 1 ((s.leUnit n).withG i.dst
      (sat32 (((s.opA n i).toInt * (s.opB n i).toInt + 2 ^ 30).fdiv (2 ^ 31) + (s.opC n i).toInt))))) ∧
    (i.op = 0x17 → exec (.qshl n noUpset) s = .next (s.issued n run 1 ((s.leUnit n).withG i.dst
      (sat32 ((s.opA n i).toInt * 2 ^ (i.imm % 32)))))) ∧
    (i.op = 0x18 → exec (.qshr n noUpset) s = .next (s.issued n run 1 ((s.leUnit n).withG i.dst
      ((s.opA n i).sshiftRight (i.imm % 32))))) ∧
    (i.op = 0x19 → exec (.qabs n noUpset) s = .next (s.issued n run 1 ((s.leUnit n).withG i.dst (sat32 (s.opA n i).toInt.natAbs)))) ∧
    (i.op = 0x1A → exec (.i2f n noUpset) s = .next (s.issued n run 1 ((s.leUnit n).withG i.dst (i2f (s.opA n i) (i.imm % 32))))) ∧
    (i.op = 0x1B → exec (.q2f n noUpset) s = .next (s.issued n run 1 ((s.leUnit n).withG i.dst (i2f (s.opA n i) 31)))) ∧
    (i.op = 0x1C → exec (.f2q n noUpset) s = .next (s.issued n run 1 ((s.leUnit n).withG i.dst (f2q (s.opA n i)))))

/-- An instruction whose predicate is false occupies its cost and writes nothing (R317), whatever operation it is but END, which R328 runs
without its predicate. -/
def Obligations.FalseGuardOnlyTakesItsCost : Prop :=
  ∀ (s : State) (n : Fin 16) (run : LeRun) (i : LeInstr), s.issues n run i = true → s.leGuard n run i = false →
    i.op ≠ 0x3E → ∀ x ∈ issueRows n noUpset, x.1 = i.op →
      exec x.2 s = .next (s.issued n run ((leCost i.op i.imm).getD 1) (s.leUnit n))

/-- Compares, predicates, NOP and the data memory. A compare and PLOG write P1 to P5 only; LD and ST move a word; ST to a coefficient word
is discarded, counted and recorded as kind 5 (R337). -/
def Obligations.LoopPredicatesAndDataMemory : Prop :=
  ∀ (s : State) (n : Fin 16) (run : LeRun) (i : LeInstr), s.issues n run i = true → s.leGuard n run i = true →
    (i.op = 0x00 → exec (.nop n noUpset) s = .next (s.issued n run (1 + i.imm % 256) (s.leUnit n))) ∧
    (i.op = 0x03 → exec (.fcmp n noUpset) s = .next (s.issued n run 1
      ((s.leUnit n).withP (bitsOf i.imm 3 3) (fcond (i.imm % 8) (s.opA n i) (s.opB n i))))) ∧
    (i.op = 0x04 → exec (.qcmp n noUpset) s = .next (s.issued n run 1
      ((s.leUnit n).withP (bitsOf i.imm 3 3) (qcond (i.imm % 8) (s.opA n i) (s.opB n i))))) ∧
    (i.op = 0x05 → exec (.plog n noUpset) s = .next (s.issued n run 1 ((s.leUnit n).withP (i.imm % 8)
      (plogOp (bitsOf i.imm 9 2) (s.lePred n run (bitsOf i.imm 3 3)) (s.lePred n run (bitsOf i.imm 6 3)))))) ∧
    (i.op = 0x06 → exec (.ld n noUpset) s = .next (s.issued n run 1 ((s.leUnit n).withG i.dst (s.dmem n (i.imm % 512))))) ∧
    (i.op = 0x07 →
      (s.isCoef n (i.imm % 512) = false →
        exec (.st n noUpset) s = .next ((s.issued n run 1 (s.leUnit n)).withDmem n (i.imm % 512) (s.opA n i))) ∧
      (s.isCoef n (i.imm % 512) = true → Canonical s →
        ∃ t, exec (.st n noUpset) s = .next t ∧ t = { s.issued n run 1 (s.leUnit n) with regs := t.regs } ∧ discards s t n 1))

/-- SINCOS and the transforms write the registers from Gd on with the sums of R329 to R331; where the spec leaves the last bits open
the free words choose within the bounds (log entry 22). -/
def Obligations.LoopTransforms : Prop :=
  ∀ (s : State) (n : Fin 16) (run : LeRun) (i : LeInstr), s.issues n run i = true → s.leGuard n run i = true →
    (i.op = 0x20 → ∃ t, exec (.sincos n noUpset) s = .next t ∧
      t = s.issued n run 12 (((s.leUnit n).withG i.dst (t.leG n (i.dst % 64))).withG (i.dst + 1) (t.leG n ((i.dst + 1) % 64))) 2 ∧
      ((fpIn (s.opA n i)).isFin = false → fpIn (t.leG n (i.dst % 64)) = .nan ∧ fpIn (t.leG n ((i.dst + 1) % 64)) = .nan) ∧
      ((fpIn (s.opA n i)).isFin = true → ratAbs (fpIn (s.opA n i)).toRat ≤ 1024 →
        t.leG n (i.dst % 64) = nearOr s.freeAt (sinR (fpIn (s.opA n i)).toRat) (mkRat 2 10000000) ∧
        t.leG n ((i.dst + 1) % 64) = nearOr (Config.freeWord (s.free + 1)) (cosR (fpIn (s.opA n i)).toRat) (mkRat 2 10000000))) ∧
    (i.op = 0x21 → exec (.clarke n noUpset) s = .next (s.issued n run 2 (((s.leUnit n).withG i.dst
        (looseSum s.freeAt (linTerms [(mkRat 2 3, s.opA n i), (mkRat (-1) 3, s.opB n i), (mkRat (-1) 3, s.opC n i)]))).withG (i.dst + 1)
        (looseSum (Config.freeWord (s.free + 1)) (linTerms [(rsqrt3, s.opB n i), (-rsqrt3, s.opC n i)]))) 2)) ∧
    (i.op = 0x22 → exec (.iclarke n noUpset) s = .next (s.issued n run 2 ((((s.leUnit n).withG i.dst
        (fpOut s.freeAt (fpIn (s.opA n i)))).withG (i.dst + 1)
        (looseSum (Config.freeWord (s.free + 1)) (linTerms [(mkRat (-1) 2, s.opA n i), (sqrtR 3 / 2, s.opB n i)]))).withG (i.dst + 2)
        (looseSum (Config.freeWord (s.free + 2)) (linTerms [(mkRat (-1) 2, s.opA n i), (-(sqrtR 3 / 2), s.opB n i)]))) 3)) ∧
    (i.op = 0x23 → exec (.park n noUpset) s = .next (s.issued n run 3 (((s.leUnit n).withG i.dst
        (looseSum s.freeAt (dotTerms (s.opA n i) (s.leG n ((i.c + 1) % 64)) (s.opB n i) (s.leG n (i.c % 64))))).withG (i.dst + 1)
        (looseSum (Config.freeWord (s.free + 1))
          (dotTerms (fneg (s.opA n i)) (s.leG n (i.c % 64)) (s.opB n i) (s.leG n ((i.c + 1) % 64))))) 2)) ∧
    (i.op = 0x24 → exec (.ipark n noUpset) s = .next (s.issued n run 3 (((s.leUnit n).withG i.dst
        (looseSum s.freeAt (dotTerms (s.opA n i) (s.leG n ((i.c + 1) % 64)) (fneg (s.opB n i)) (s.leG n (i.c % 64))))).withG (i.dst + 1)
        (looseSum (Config.freeWord (s.free + 1))
          (dotTerms (s.opA n i) (s.leG n (i.c % 64)) (s.opB n i) (s.leG n ((i.c + 1) % 64))))) 2))

/-- INTEG, RESON and RLIM with block words that pass their parity: Gd and the state word take what R333 to R336 compute, with the presets of a
start run and of a tracking run, and nothing else changes; where a state word is a coefficient word its write is discarded, counted and
recorded as kind 5, and Gd still takes the result (R337). -/
def Obligations.LoopStatefulOperations : Prop :=
  ∀ (s : State) (n : Fin 16) (run : LeRun) (i : LeInstr), s.issues n run i = true → s.leGuard n run i = true →
    (i.op = 0x25 → s.isCoef n (i.imm % 512) = false →
      exec (.integ n noUpset) s = .next
        ((s.issued n run 4 ((s.leUnit n).withG i.dst (s.integAt n run i).1)).withDmem n (i.imm % 512) (s.integAt n run i).2)) ∧
    (i.op = 0x26 → s.isCoef n (i.imm % 512) = false → s.isCoef n ((i.imm % 512 + 1) % 512) = false →
      exec (.reson n noUpset) s = .next (((s.issued n run 6 ((s.leUnit n).withG i.dst (s.resonAt n run i).1)).withDmem n (i.imm % 512)
        (s.resonAt n run i).1).withDmem n ((i.imm % 512 + 1) % 512) (s.resonAt n run i).2)) ∧
    (i.op = 0x27 → s.isCoef n (i.imm % 512) = false →
      exec (.rlim n noUpset) s = .next
        ((s.issued n run 2 ((s.leUnit n).withG i.dst (s.rlimAt n run i))).withDmem n (i.imm % 512) (s.rlimAt n run i))) ∧
    (Canonical s → s.isCoef n (i.imm % 512) = true →
      (i.op = 0x25 → ∃ t, exec (.integ n noUpset) s = .next t ∧ discards s t n 1 ∧
        t = { s.issued n run 4 ((s.leUnit n).withG i.dst (s.integAt n run i).1) with regs := t.regs }) ∧
      (i.op = 0x27 → ∃ t, exec (.rlim n noUpset) s = .next t ∧ discards s t n 1 ∧
        t = { s.issued n run 2 ((s.leUnit n).withG i.dst (s.rlimAt n run i)) with regs := t.regs })) ∧
    (i.op = 0x26 → Canonical s → s.isCoef n (i.imm % 512) = true ∨ s.isCoef n ((i.imm % 512 + 1) % 512) = true →
      ∃ t, exec (.reson n noUpset) s = .next t ∧
        discards s t n (bit01 (s.isCoef n (i.imm % 512)) + bit01 (s.isCoef n ((i.imm % 512 + 1) % 512))) ∧
        t = { s.issued n run 6 ((s.leUnit n).withG i.dst (s.resonAt n run i).1) with regs := t.regs, lps := t.lps } ∧
        (∀ m k, m ≠ n ∨ s.isCoef n k = true ∨ k ≠ i.imm % 512 ∧ k ≠ (i.imm % 512 + 1) % 512 → k < 512 → t.dmem m k = s.dmem m k) ∧
        (s.isCoef n (i.imm % 512) = false → t.dmem n (i.imm % 512) = (s.resonAt n run i).1) ∧
        (s.isCoef n ((i.imm % 512 + 1) % 512) = false → t.dmem n ((i.imm % 512 + 1) % 512) = (s.resonAt n run i).2))

/-- OUT and END. An OUT of a value that is not finite is FAULT 0x06 (R277; how the engine aborts with a set waiting, where a value is rounded and
how a stop ends a run are log entry 52, a blend known at END log entry 33); one to a set-point port in an ordinary run delivers the value
held within the limits of its set; any OUT delivers what R271, R284 and R285 make of its value: to a compare, which a run in READY or a
single step does not stage, to a set point, or, with KIND 0, nowhere. END, whatever its predicate, counts the run and ends it, comes as an
event to the engines whose TRIG selects it (R244), and leaves the state that a hand-over ends in; a stop that waits takes the engine to
STOPPED, and a held trigger waits for its run start. -/
def Obligations.LoopOutAndEnd : Prop :=
  ∀ (s : State) (n : Fin 16) (run : LeRun) (i : LeInstr), Canonical s → s.issues n run i = true →
    (i.op = 0x30 → s.leGuard n run i = true → finBits (s.opA n i).toNat = false →
      ∃ t, exec (.out n noUpset) s = .next t ∧ (t.leUnit n).run = none ∧ t.mode = s.mode ∧
        (s.commitPending (LE.pg n) = false → t.leFaulted n 0x06 ∧
          ∀ j < 8, t.rd (LE.pg n) LE.OPORT_LAST_VALUE j = s.rd (LE.pg n) LE.OPORT_LAST_VALUE j) ∧
        (∀ m : Fin 16, (t.pwmUnit m).cmp = (s.pwmUnit m).cmp ∧ (t.leUnit m).inS = (s.leUnit m).inS) ∧
        ∀ m < 16, m ≠ n.val ∨ s.commitPending (LE.pg n) = false → ∀ k < 8, t.rd (LE.pg m) LE.SP_TARGET_VALUE k = s.rd (LE.pg m) LE.SP_TARGET_VALUE k) ∧
    (∀ j : Fin 8, i.op = 0x30 → s.leGuard n run i = true → j.val = i.imm % 8 → finBits (s.opA n i).toNat = true → run.track = false →
      (s.leUnit n).blend.getLsbD j = false → s.rd (LE.pg n) LE.OPORT_CFG_KIND j = 2 →
      ∃ t, exec (.out n noUpset) s = .next t ∧
        t.rd (LE.pg n) LE.OPORT_LAST_VALUE j = (s.withinLimits n run j (s.opA n i)).toNat ∧
        t.rd (LE.pg (s.rd (LE.pg n) LE.OPORT_CFG_UNIT j)) LE.SP_TARGET_VALUE (s.rd (LE.pg n) LE.OPORT_CFG_INDEX j) =
          (s.withinLimits n run j (s.opA n i)).toNat ∧
        (t.leUnit n).run = some (s.runAfter run 1) ∧ t.mode = s.mode) ∧
    (∀ j : Fin 8, i.op = 0x30 → s.leGuard n run i = true → j.val = i.imm % 8 → finBits (s.opA n i).toNat = true →
      ∀ kind unit ix, s.rd (LE.pg n) LE.OPORT_CFG_KIND j = kind → s.rd (LE.pg n) LE.OPORT_CFG_UNIT j = unit →
        s.rd (LE.pg n) LE.OPORT_CFG_INDEX j = ix → unit < 16 → ix < 8 → ∀ v, (s.portValue n j run (s.opA n i)).1 = v →
      ∃ t, exec (.out n noUpset) s = .next t ∧ (t.leUnit n).run = some (s.runAfter run 1) ∧ t.mode = s.mode ∧
        (kind = 1 → t.rd (LE.pg n) LE.OPORT_LAST_VALUE j = v.toNat ∧ t.rd (LE.pg n) LE.RUN_CYCLES_DUTY_CYC = min run.cycle 65535 ∧
          (s.mode ≠ mREADY → (s.leUnit n).step = false → s.flag (LE.pg n) LE.OPORT_CFG_SPLIT j = false →
            (t.pwmUnit (unitIx unit)).cmp.toList.getD ix 0 = u131 (ratOf v.toNat)) ∧
          (s.mode = mREADY ∨ (s.leUnit n).step = true → t.pwm = s.pwm)) ∧
        (kind = 2 → t.rd (LE.pg n) LE.OPORT_LAST_VALUE j = v.toNat ∧ t.rd (LE.pg unit) LE.SP_TARGET_VALUE ix = v.toNat ∧
          t.pwm = s.pwm) ∧
        (kind ≠ 1 → kind ≠ 2 → t.regs = s.regs ∧ t.pwm = s.pwm)) ∧
    (i.op = 0x3E →
      ∃ t, exec (.endRun n noUpset) s = .next t ∧ (t.leUnit n).run = none ∧ t.mode = s.mode ∧
        (∀ e : Fin 16, e ≠ n → (t.leUnit e).owed = (s.leUnit e).owed +
          (if s.rd (LE.pg e) LE.TRIG_KIND = 5 ∧ s.rd (LE.pg e) LE.TRIG_INDEX = n.val ∧ s.leState e ≠ leSTOPPED ∧
            s.leState e ≠ leFAULT then 1 else 0)) ∧
        ((s.leUnit n).stop = false ∨ s.commitPending (LE.pg n) = false → t.flag (LE.pg n) LE.STATUS_BUSY = false ∧
          t.rd (LE.pg n) LE.RUN_COUNT_COUNT = (s.rd (LE.pg n) LE.RUN_COUNT_COUNT + 1) % 2 ^ 32) ∧
        ((s.leUnit n).stop = true → (t.leUnit n).g = Vector.replicate 64 0 ∧
          (s.commitPending (LE.pg n) = false → t.leState n = leSTOPPED)) ∧
        ((s.leUnit n).stop = false → (s.leUnit n).swap = true → t.leState n = leOPEN ∧ (t.leUnit n).swap = false) ∧
        ((s.leUnit n).stop = false → (s.leUnit n).swap = false →
          (t.leUnit n).due = ((s.leUnit n).due || (s.leUnit n).held) ∧ (t.leUnit n).kept = ((s.leUnit n).kept || (s.leUnit n).held) ∧
          (t.leUnit n).held = false ∧ (t.leUnit n).g = (s.leUnit n).g ∧
          t.leState n = (if s.leState n = leFALLBACK then leFALLBACK
            else if run.track = true ∧ (s.leUnit n).blend ≠ 0 then leBLEND
            else if run.track = true ∨ run.start = true then leCLOSED else s.leState n)))

/-! ### Loop engines: triggers, run starts, swaps, the program store (05, 06) -/

/-- A source event. A stopped or faulted engine takes none, and without an event that its source has sent there is none to take (R244); every
other counts it in its divider, and an event that the divider selects is skipped in OPEN and while halted, starts a run, waits while one
runs, or is an overrun, as is one while another that waited still waits for its run start (R246 to R250, R916). That a second trigger between
a trigger and its run start waits, with no run in progress, is the model's choice (log entry 52). -/
def Obligations.LoopTriggers : Prop :=
  ∀ (s : State) (n : Fin 16), Canonical s → s.live = true → s.domainRuns 1 = true → ∀ u, s.leUnit n = u →
    (u.owed = 0 ∨ s.leState n = leSTOPPED ∨ s.leState n = leFAULT → exec (.leTrigger n) s = .next s) ∧
    (u.owed ≠ 0 → s.leState n ≠ leSTOPPED → s.leState n ≠ leFAULT →
      ∀ w : LeUnit, w = { u with owed := u.owed - 1, events := u.events + 1 } →
      (u.events % (s.rd (LE.pg n) LE.TRIG_DIV + 1) ≠ s.rd (LE.pg n) LE.TRIG_PHASE →
        exec (.leTrigger n) s = .next { s with le := s.le.set n w }) ∧
      (u.events % (s.rd (LE.pg n) LE.TRIG_DIV + 1) = s.rd (LE.pg n) LE.TRIG_PHASE →
        (s.leState n = leOPEN ∨ u.halted = true →
          ∃ t, exec (.leTrigger n) s = .next t ∧
            t.rd (LE.pg n) LE.SKIP_COUNT_COUNT = satInc 16 (s.rd (LE.pg n) LE.SKIP_COUNT_COUNT) ∧
            sameRegsBut [LE.SKIP_COUNT_COUNT.key (LE.pg n) 0] s t ∧
            t = { s with regs := t.regs, le := s.le.set n w }) ∧
        (s.leState n ≠ leOPEN → u.halted = false →
          (u.run = none → u.due = false → exec (.leTrigger n) s = .next { s with le := s.le.set n { w with due := true } }) ∧
          (u.run ≠ none ∨ u.due = true → u.held = false → u.kept = false →
            exec (.leTrigger n) s = .next { s with le := s.le.set n { w with held := true } }) ∧
          (u.run ≠ none ∨ u.due = true → u.held = true ∨ u.kept = true →
            ∃ t, exec (.leTrigger n) s = .next t ∧
              t.rd (LE.pg n) LE.OVERRUN_COUNT_COUNT = satInc 16 (s.rd (LE.pg n) LE.OVERRUN_COUNT_COUNT) ∧
              bitOf (t.rd (LE.pg n) HDR.IRQ_STATUS_BITS) 1 = true ∧ t.le = s.le.set n w ∧
              sameRegsBut [LE.OVERRUN_COUNT_COUNT.key (LE.pg n) 0, HDR.IRQ_STATUS_BITS.key (LE.pg n) 0] s t))))

/-- A run start. Without a trigger that waits, and in STOPPED, FAULT, OPEN or while halted, there is none. Else an accepted set takes effect
(`b` is the state after it; the read-only STATE is in no set), the input slots, the ports' last values and the set points' targets are
copied, every AGE follows R259 and R260, and STALE shows staleness. In FALLBACK the fallback program runs. A stale engine stays in HOLD, or by
STALE.ACTION runs its fallback program as a tracking run or holds (in OPEN where a swap waits); one that is not stale runs the mode's program
as start or tracking run where a hand-over is due (R256 to R268, R281 to R286, R302). -/
def Obligations.LoopRunStarts : Prop :=
  ∀ (s : State) (n : Fin 16), Canonical s → s.live = true → s.domainRuns 1 = true → ∀ u, s.leUnit n = u → ∀ st, s.leState n = st →
    (u.due = false ∨ u.halted = true ∨ st = leSTOPPED ∨ st = leFAULT ∨ st = leOPEN → exec (.leRunStart n) s = .next s) ∧
    (u.due = true → u.halted = false → st ≠ leSTOPPED → st ≠ leFAULT → st ≠ leOPEN →
      ∀ b, s.boundary (LE.pg n) = b → b.leState n = st → ∀ prog, b.leProgram n = prog →
      ∃ t, exec (.leRunStart n) s = .next t ∧ t.mode = s.mode ∧ t.lps = s.lps ∧
        (t.leUnit n).due = false ∧ (t.leUnit n).kept = false ∧ (t.leUnit n).adv = 0 ∧ (t.leUnit n).inL = b.lasts n ∧
        (t.leUnit n).inS = Vector.ofFn (fun k => BitVec.ofNat 32 (b.rd (LE.pg n) LE.SLOTVAL_VALUE k)) ∧
        (t.leUnit n).front = Vector.ofFn (fun i => BitVec.ofNat 32 (b.rd (LE.pg n) LE.SP_TARGET_VALUE i)) ∧
        (∀ i : Fin 8, b.flag (LE.pg n) LE.SP_CFG_RAMP_EN i = false →
          (t.leUnit n).inSP[i] = BitVec.ofNat 32 (b.rd (LE.pg n) LE.SP_TARGET_VALUE i)) ∧
        (∀ k < 32, t.rd (LE.pg n) LE.SLOTSTAT_AGE k = b.ageAt n k) ∧ t.flag (LE.pg n) LE.STATUS_STALE = b.staleAt n ∧
        (st = leFALLBACK → t.leState n = leFALLBACK ∧ t.runsProgram n b (b.progReg n 4) false u.rel) ∧
        (st ≠ leFALLBACK → b.staleAt n = true →
          (b.rd (LE.pg n) LE.STALE_ACTION = 2 → t.srcActive 54 = true) ∧
          (st = leHOLD → t.leState n = leHOLD ∧ (t.leUnit n).run = u.run) ∧
          (st ≠ leHOLD → t.rd (LE.pg n) LE.STALE_COUNT_COUNT = satInc 16 (b.rd (LE.pg n) LE.STALE_COUNT_COUNT) ∧
            bitOf (t.rd (LE.pg n) HDR.IRQ_STATUS_BITS) 2 = true ∧ (t.leUnit n).hand = (u.handFor prog.2.1).atLeastTrack ∧
            (b.rd (LE.pg n) LE.STALE_ACTION = 1 → t.leState n = leFALLBACK ∧ t.runsProgram n b (b.progReg n 4) false true) ∧
            (b.rd (LE.pg n) LE.STALE_ACTION ≠ 1 → (t.leUnit n).run = u.run ∧
              t.leState n = if u.swap = true then leOPEN else leHOLD))) ∧
        (st ≠ leFALLBACK → b.staleAt n = false →
          ∀ hand, hand = (if st = leHOLD then (u.handFor prog.2.1).atLeastTrack else u.handFor prog.2.1) →
          t.runsProgram n b prog (hand = .start) (hand = .track) ∧
          t.leState n = (if st = leHOLD then leCLOSED
            else if st = leBLEND ∧ hand = .none ∧ u.blend ≠ 0 ∧ b.blendTicks n ≤ b.since u.tb then leCLOSED else st)))

/-- A write of a set point that a port's sequencer drives is refused; one that an output port overtakes in its cycle is lost; any other takes
effect. COEF_SWAP outside CLOSED or with a stage that is no image is refused; accepted, it opens the engine at once or at the end of its run.
RESUME outside FALLBACK or while stale is refused; accepted, the next run is a tracking run in CLOSED, or the start run that waits. A copy ends
in CLOSED with the staged image as the new master, with the master restored where the staged image cannot be read, or, where the master
cannot be read either, in FAULT 0x05. -/
def Obligations.LoopSetPointsAndSwaps : Prop :=
  ∀ (s : State) (ini : Initiator) (n : Fin 16), Canonical s →
    (∀ (k : Fin 8) (v : Word) (both : Bool), s.admits ini (LE.pg n) (0x308 + 0x10 * k) v.toNat = true →
      ∃ t, exec (.spTargetWrite ini n k v both) s = .next t ∧
        (s.spHeldByPort n k = true → refusal s t (LE.pg n) 0x05 (0x308 + 0x10 * k) ini) ∧
        (s.spHeldByPort n k = false → both = true → t = s.done) ∧
        (s.spHeldByPort n k = false → both = false → t.rd (LE.pg n) LE.SP_TARGET_VALUE k = v.toNat ∧
          sameRegsBut [LE.SP_TARGET_VALUE.key (LE.pg n) k] s t ∧ t = { s with regs := t.regs, resp := ⟨.ok, []⟩ })) ∧
    (s.admits ini (LE.pg n) 0x008 (s.ctrlWith (LE.pg n) LE.CTRL_EN 2) = true →
      ∃ t, exec (.coefSwap ini n) s = .next t ∧ t.resp = ⟨.ok, []⟩ ∧
        (∀ code, s.coefSwapRefused n = some code → t.refusedWith (LE.pg n) code 0x008 ini ∧ t.le = s.le ∧ t.leState n = s.leState n) ∧
        (s.coefSwapRefused n = none → (s.leUnit n).run ≠ none ∨ (s.leUnit n).due = true → t.le = s.le.set n { s.leUnit n with swap := true } ∧ t.regs = s.regs) ∧
        (s.coefSwapRefused n = none → (s.leUnit n).run = none → (s.leUnit n).due = false → t.leState n = leOPEN ∧
          (t.leUnit n).swap = false)) ∧
    (s.admits ini (LE.pg n) 0x008 (s.ctrlWith (LE.pg n) LE.CTRL_EN 4) = true →
      ∃ t, exec (.resume ini n) s = .next t ∧ t.resp = ⟨.ok, []⟩ ∧
        (s.resumeRefused n = true → t.refusedWith (LE.pg n) 0x05 0x008 ini ∧ t.le = s.le ∧ t.leState n = s.leState n) ∧
        (s.resumeRefused n = false → t.leState n = leCLOSED ∧
          t.le = s.le.set n { s.leUnit n with hand := (s.leUnit n).hand.atLeastTrack, blend := 0 } ∧
          t.rd (LE.pg n) LE.STATUS_PROG = (s.leProgram n).1 % 2 ^ LE.STATUS_PROG.width ∧
          t.rd (LE.pg n) LE.RUN_CYCLES_CYCLES = s.hdrCycles (s.leProgram n).2.1 ∧ t.mode = s.mode)) ∧
    (s.live = true → s.domainRuns 1 = true →
      (s.leState n ≠ leOPEN → exec (.coefCopyDone n) s = .next s) ∧
      (s.leState n = leOPEN → ∀ len stage master, s.rd (LE.pg n) LE.DMAP_COEF_LEN = len →
        s.rd (LE.pg n) LE.COEF_STAGE_ADDR = stage → s.rd (LE.pg n) LE.COEF_MASTER_ADDR = master →
        ∃ t, exec (.coefCopyDone n) s = .next t ∧ (∀ k < 512, s.isCoef n k = false → t.dmem n k = s.dmem n k) ∧ t.sram = s.sram ∧
          t.mode = s.mode ∧
          (s.imageSound stage len = true → t.leState n = leCLOSED ∧ t.flag (LE.pg n) LE.STATUS_COEF_FAIL = false ∧
            t.rd (LE.pg n) LE.COEF_MASTER_ADDR = stage ∧ bitOf (t.rd (LE.pg n) HDR.IRQ_STATUS_BITS) 3 = true ∧
            (t.leUnit n).hand = (s.leUnit n).hand.atLeastTrack ∧ s.copiedTo t n stage) ∧
          (s.imageSound stage len = false → s.commitPending (LE.pg n) = false → t.rd (LE.pg n) LE.COEF_MASTER_ADDR = master) ∧
          (s.imageSound stage len = false → s.imageSound master len = true → t.leState n = leCLOSED ∧
            t.flag (LE.pg n) LE.STATUS_COEF_FAIL = true ∧ bitOf (t.rd (LE.pg n) HDR.IRQ_STATUS_BITS) 4 = true ∧
            (t.leUnit n).hand = (s.leUnit n).hand.atLeastTrack ∧ s.copiedTo t n master) ∧
          (s.imageSound stage len = false → s.imageSound master len = false → s.commitPending (LE.pg n) = false →
            t.leFaulted n 0x05 ∧ t.flag (LE.pg n) LE.STATUS_COEF_FAIL = true)))

/-- The Loop Program Store. A LOAD and a library copy are refused as R340 and R346 say, or start; they complete with their result, a library
copy with its words in Main SRAM; an injected error is armed in CONFIG and READY. The words of a library program, which the spec does not
print, and what they meet of their row of R303 are the model's choice (log entry 50). -/
def Obligations.LoopProgramStore : Prop :=
  ∀ (s : State) (ini : Initiator), Canonical s →
    (∀ (first : BitVec 4) (count : BitVec 5), s.admits ini LPS.pg 0x044 (first.toNat + 16 * count.toNat + 2 ^ 31) = true →
      ∃ t, exec (.load ini first count) s = .next t ∧
        (∀ code, s.loadRefused first.toNat count.toNat = some code → refusal s t LPS.pg code 0x044 ini) ∧
        (s.loadRefused first.toNat count.toNat = none → t.flag LPS.pg LPS.LOAD_STATUS_BUSY = true ∧
          t.rd LPS.pg LPS.LOAD_STATUS_RESULT = 0 ∧ t.lps = { s.lps with load := some (s.rd LPS.pg LPS.LOAD_SRC_ADDR, first.toNat, count.toNat) } ∧
          t = { s with regs := t.regs, lps := t.lps, resp := ⟨.ok, []⟩ } ∧ samePagesBut [LPS.pg] s t)) ∧
    (s.live = true → s.lps.load = none → exec .loadDone s = .next s) ∧
    (s.live = true → s.lps.lib = none → exec .libDone s = .next s) ∧
    (∀ id r, libRow id = some r → r.codeOk (libCode id r) = true ∧ (libCode id r).length + 2 = r.words) ∧
    (s.live = true → ∀ src first count, s.lps.load = some (src, first, count) → first + count ≤ 16 →
      ∃ t, exec .loadDone s = .next t ∧ t.lps.load = none ∧ t.flag LPS.pg LPS.LOAD_STATUS_BUSY = false ∧
        (∀ b < 16, first ≤ b → b < first + count →
          t.rd LPS.pg LPS.BANKMASTER_ADDR b = (src + 2048 * (b - first)) % 2 ^ 32 ∧
          bitOf (t.rd LPS.pg LPS.VALID_BANK) b = decide (t.rd LPS.pg LPS.LOAD_STATUS_RESULT = 0)) ∧
        (∀ b < 16, b < first ∨ first + count ≤ b → bitOf (t.rd LPS.pg LPS.VALID_BANK) b = bitOf (s.rd LPS.pg LPS.VALID_BANK) b) ∧
        t.sram = s.sram ∧ t.le = s.le ∧ t.mode = s.mode) ∧
    (∀ id : Byte, s.admits ini LPS.pg 0x04C (id.toNat + 2 ^ 31) = true →
      ∃ t, exec (.libCopy ini id) s = .next t ∧
        (s.flag LPS.pg LPS.STATUS_LIB_BUSY = true → refusal s t LPS.pg 0x05 0x04C ini) ∧
        (s.flag LPS.pg LPS.STATUS_LIB_BUSY = false → t.flag LPS.pg LPS.LIB_STATUS_BUSY = true ∧
          t.lps = { s.lps with lib := some (id.toNat, s.rd LPS.pg LPS.LIB_DEST_ADDR) } ∧
          t = { s with regs := t.regs, lps := t.lps, resp := ⟨.ok, []⟩ } ∧ samePagesBut [LPS.pg] s t)) ∧
    (s.live = true → ∀ id dest, s.lps.lib = some (id, dest) →
      ∃ t, exec .libDone s = .next t ∧ t.lps = { s.lps with lib := none } ∧ t.flag LPS.pg LPS.LIB_STATUS_BUSY = false ∧
        bitOf (t.rd LPS.pg HDR.IRQ_STATUS_BITS) 2 = true ∧
        (libRow id = none → t.rd LPS.pg LPS.LIB_STATUS_RESULT = 1 ∧ t.sram = s.sram) ∧
        (∀ r, libRow id = some r →
          (dest % 8 ≠ 0 ∨ inSram dest (8 * r.words) = false → t.rd LPS.pg LPS.LIB_STATUS_RESULT = 2 ∧ t.sram = s.sram) ∧
          (dest % 8 = 0 → inSram dest (8 * r.words) = true → t.rd LPS.pg LPS.LIB_STATUS_RESULT = 0 ∧
            t.rd LPS.pg LPS.LIB_STATUS_WORDS = r.words ∧
            (∀ i < r.words, t.bytesAt (dest + 8 * i) 8 = leBytes 8 (libWord id r i).toNat) ∧
            ∀ a, (a < dest ∨ dest + 8 * r.words ≤ a) → t.byteAt a = s.byteAt a))) ∧
    (∀ v : Word, s.admits ini LPS.pg 0x05C v.toNat = true →
      ∃ t, exec (.inject ini v) s = .next t ∧
        (∀ code, s.injectRefused v.toNat = some code → refusal s t LPS.pg code 0x05C ini) ∧
        (s.injectRefused v.toNat = none → t.rd LPS.pg LPS.INJECT_ADDR = bitsOf v.toNat 0 12 ∧
          t.rd LPS.pg LPS.INJECT_ENGINE = bitsOf v.toNat 12 4 ∧ t.rd LPS.pg LPS.INJECT_KIND = bitsOf v.toNat 16 2 ∧
          t.flag LPS.pg LPS.INJECT_ARM = (s.flag LPS.pg LPS.INJECT_ARM || bitOf v.toNat 31)))

/-- Upsets of a run. Operands that fail twice are FAULT 0x03 before the instruction writes anything; once, the replay costs the
instruction's cycles and two more. A fetch that fails twice on one word is FAULT 0x01; the first time the word is reread from its image and
written, and the run goes on 40 cycles later; where the image cannot be read that is FAULT 0x02, where the reread word fails again 0x01, and
where it is no instruction 0x07 (R348 to R351). Without a run there is no fetch. A data-memory word that fails: a coefficient word is reread
from its master in 24 cycles, written back and used, or is FAULT 0x05 where the master cannot be read; a state word is FAULT 0x04, and nothing
is written (R354). -/
def Obligations.LoopUpsets : Prop :=
  (∀ (s : State) (n : Fin 16) (again : Bool), s.live = true → s.domainRuns 1 = true → (s.leUnit n).run = none →
    exec (.lpsRefetch n again) s = .next s) ∧
  ∀ (s : State) (n : Fin 16) (run : LeRun) (i : LeInstr), Canonical s → s.issues n run i = true →
    (∀ x ∈ issueRows n { operands := 2, words := [] }, x.1 = i.op → hasOperands i.op = true →
      ∃ t, exec x.2 s = .next t ∧ (s.commitPending (LE.pg n) = false → t.leFaulted n 0x03) ∧
        t.rd LPS.pg LPS.OPND_REPLAY_COUNT n = satInc 16 (s.rd LPS.pg LPS.OPND_REPLAY_COUNT n) ∧ (t.leUnit n).run = none ∧
        (t.leUnit n).g = (s.leUnit n).g ∧ t.lps = s.lps) ∧
    (i.op = 0x08 → s.leGuard n run i = true →
      ∃ t, exec (.fadd n { operands := 1, words := [] }) s = .next t ∧
        t.le = s.le.set n { (s.leUnit n).withG i.dst (fadd s.freeAt (s.opA n i) (s.opB n i)) with run := some (s.runAfter run 4) } ∧
        t.rd LPS.pg LPS.OPND_REPLAY_COUNT n = satInc 16 (s.rd LPS.pg LPS.OPND_REPLAY_COUNT n)) ∧
    (∀ again : Bool, run.pc < 4096 → ∀ img, s.rd LPS.pg LPS.BANKMASTER_ADDR (run.pc / 256) + 8 * (run.pc % 256) = img →
      ∃ t, exec (.lpsRefetch n again) s = .next t ∧ t.mode = s.mode ∧ (t.leUnit n).g = (s.leUnit n).g ∧
        (s.flag LPS.pg LPS.LAST_REFETCH_SET (run.pc / 256) = true → s.rd LPS.pg LPS.LAST_REFETCH_WORD (run.pc / 256) = run.pc →
          (t.leUnit n).run = none ∧ (s.commitPending (LE.pg n) = false → t.leFaulted n 0x01)) ∧
        (s.flag LPS.pg LPS.LAST_REFETCH_SET (run.pc / 256) = false ∨ s.rd LPS.pg LPS.LAST_REFETCH_WORD (run.pc / 256) ≠ run.pc →
          t.rd LPS.pg LPS.FETCH_REPLAY_COUNT n = satInc 16 (s.rd LPS.pg LPS.FETCH_REPLAY_COUNT n) ∧
          t.rd LPS.pg LPS.LAST_ERR_KIND n = 1 ∧ t.flag LPS.pg LPS.LAST_REFETCH_SET (run.pc / 256) = true ∧
          t.rd LPS.pg LPS.LAST_REFETCH_WORD (run.pc / 256) = run.pc ∧
          (s.sramUe.contains (eccWord img) = true → (t.leUnit n).run = none ∧
            (s.commitPending (LE.pg n) = false → t.leFaulted n 0x02)) ∧
          (s.sramUe.contains (eccWord img) = false → ∀ v, BitVec.ofNat 64 (ofLeBytes (s.bytesAt img 8)) = v →
            t.lpsWord run.pc = v ∧ (∀ w, w ≠ run.pc → t.lpsWord w = s.lpsWord w) ∧
            (again = true → (t.leUnit n).run = none ∧ (s.commitPending (LE.pg n) = false → t.leFaulted n 0x01)) ∧
            (again = false → (leCost (v.toNat / 2 ^ 58) 0).isNone = true → (t.leUnit n).run = none ∧
              (s.commitPending (LE.pg n) = false → t.leFaulted n 0x07)) ∧
            (again = false → (leCost (v.toNat / 2 ^ 58) 0).isNone = false → t.parityOk run.pc = true ∧
              t.le = s.le.set n { s.leUnit n with run := some { run with cycle := run.cycle + 40, pc := t.lePass 4096 run.pc } })))) ∧
    (∀ w : Fin 512, s.leGuard n run i = true → i.op = 0x06 ∧ w.val = i.imm % 512 ∨
        i.op ∈ [0x25, 0x26, 0x27] ∧ (w.val = bitsOf i.imm 9 9 ∨ w.val = i.imm % 512) →
      ∀ x ∈ issueRows n { operands := 0, words := [w] }, x.1 = i.op →
      ∀ src, s.rd (LE.pg n) LE.COEF_MASTER_ADDR + 4 * (w.val - s.rd (LE.pg n) LE.DMAP_COEF_BASE) = src →
      (s.isCoef n w = false →
        ∃ t, exec x.2 s = .next t ∧ (t.leUnit n).run = none ∧ (s.commitPending (LE.pg n) = false → t.leFaulted n 0x04) ∧
          t.rd LPS.pg LPS.LAST_ERR_KIND n = 4 ∧ (t.leUnit n).g = (s.leUnit n).g ∧ t.lps = s.lps) ∧
      (s.isCoef n w = true → s.sramUe.contains (eccWord src) = true →
        ∃ t, exec x.2 s = .next t ∧ (t.leUnit n).run = none ∧ (s.commitPending (LE.pg n) = false → t.leFaulted n 0x05) ∧
          reread s t n w ∧ (t.leUnit n).g = (s.leUnit n).g ∧ t.lps = s.lps) ∧
      (s.isCoef n w = true → s.sramUe.contains (eccWord src) = false →
        (i.op ≠ 0x06 → s.isCoef n (i.imm % 512) = false ∧ (i.op = 0x26 → s.isCoef n ((i.imm % 512 + 1) % 512) = false)) →
        ∀ s', s' = s.withDmem n w (BitVec.ofNat 32 (ofLeBytes (s.bytesAt src 4))) →
        ∃ t, exec x.2 s = .next t ∧ reread s t n w ∧ t.dmem n w = s'.dmem n w ∧
          (t.leUnit n).run = some (s.runAfter run ((leCost i.op i.imm).getD 1 + 24)) ∧
          (i.op = 0x06 → t.leG n (i.dst % 64) = s'.dmem n w) ∧
          (i.op = 0x25 → t.leG n (i.dst % 64) = (s'.integAt n run i).1 ∧ t.dmem n (i.imm % 512) = (s'.integAt n run i).2) ∧
          (i.op = 0x26 → t.leG n (i.dst % 64) = (s'.resonAt n run i).1 ∧ t.dmem n (i.imm % 512) = (s'.resonAt n run i).1 ∧
            t.dmem n ((i.imm % 512 + 1) % 512) = (s'.resonAt n run i).2) ∧
          (i.op = 0x27 → t.leG n (i.dst % 64) = s'.rlimAt n run i ∧ t.dmem n (i.imm % 512) = s'.rlimAt n run i)))

/-! ### PWM units and the Fusebox (07) -/

/-- Compares and carriers. A write stages a compare (a duty port that wrote the same one in its cycle stays, R364); a stopped carrier has no
events, and a point of a carrier that has not come is not reached yet (DEDUCED, log entry 47). A boundary puts an accepted set in force and
counts its period; it starts a unit that may drive, ends the hold of cycle-by-cycle sources that are over, sets the next boundary one period
on and the mid-period point half a period on, and comes to the units that follow PHASE later. A pair boundary loads the staged compares where
UPDATE is 0, a pair mid-period point where it is 1; in up mode the main output is active from DT after the boundary up to d times T, the
complement from DT after that (R375, R377). A synchronisation event is a boundary and is counted. -/
def Obligations.PwmCarriersAndCompares : Prop :=
  ∀ (s : State) (n : Fin 16), Canonical s → ∀ u, s.pwmUnit n = u →
    (∀ (ini : Initiator) (c : Fin 8) (v : Word) (both : Bool), s.admits ini (PWM.pg n) (0x080 + 4 * c) v.toNat = true →
      exec (.cmpWrite ini n c v both) s = .next (if both = true then s.done else
        { s.done with pwm := s.pwm.set n { u with cmp := u.cmp.set c v } })) ∧
    (∀ pt : CarrierPoint, s.carrierRuns n = false → exec (.pwmCarrierEvent n pt) s = .next s) ∧
    (s.carrierRuns n = false → exec (.pwmSyncEvent n) s = .next s) ∧
    (s.live = true → s.carrierRuns n = true →
      ((∀ x ∈ u.due.head?, s.reached x.1 = false) → exec (.pwmCarrierEvent n .boundary) s = .next s) ∧
      ((∀ e ∈ u.mid, s.reached e = false) → exec (.pwmCarrierEvent n .mid) s = .next s) ∧
      (∀ k : Fin 4, (∀ x ∈ (s.pwmPair n k).due.head?, s.reached x.1 = false) → exec (.pwmCarrierEvent n (.pairBoundary k)) s = .next s) ∧
      (∀ k : Fin 4, (∀ e ∈ (s.pwmPair n k).mid, s.reached e = false) → exec (.pwmCarrierEvent n (.pairMid k)) s = .next s) ∧
      ((∀ e ∈ u.sync.head?, s.reached e = false) → exec (.pwmSyncEvent n) s = .next s) ∧
      (∀ e p rest per, u.due = (e, p) :: rest → s.reached e = true → p.getD (s.pwmP n) = per →
        ∃ t, exec (.pwmCarrierEvent n .boundary) s = .next t ∧ t.mode = s.mode ∧ t.commitPending (PWM.pg n) = false ∧
          (s.commitPending (PWM.pg n) = false →
            t.rd (PWM.pg n) PWM.PERIOD_COUNT_COUNT = (s.rd (PWM.pg n) PWM.PERIOD_COUNT_COUNT + 1) % 2 ^ 32 ∧
            (s.redun.passPwm.getLsbD n = false → s.mayDrive n = true → t.flag (PWM.pg n) PWM.STATUS_DRIVING = true) ∧
            (s.flag (PWM.pg n) PWM.STATUS_DRIVING = false → s.flag (PWM.pg n) PWM.STATUS_HALT_SAFE = true →
              t.flag (PWM.pg n) PWM.STATUS_DRIVING = false) ∧
            (t.flag (PWM.pg n) PWM.STATUS_CBC_HOLD = (s.flag (PWM.pg n) PWM.STATUS_CBC_HOLD && s.cbcActive n)) ∧
            (t.pwmUnit n).per = per ∧ (t.pwmUnit n).mid = some (e + 32 * (per : Int)) ∧
            (s.rd (PWM.pg n) PWM.SYNC_SRC ≠ 1 → s.rd (PWM.pg n) PWM.SYNC_SRC ≠ 3 →
              (t.pwmUnit n).due = rest ++ [(e + 64 * (per : Int), none)]) ∧
            (∀ v : Fin 16, v ≠ n → s.carrierRuns v = true → s.rd (PWM.pg v) PWM.SYNC_SRC = 1 →
              s.rd (PWM.pg v) PWM.SYNC_INDEX = n.val →
              (t.pwmUnit v).due = (s.pwmUnit v).due ++ [(e + (s.pwmPhase v : Int), some per)]))) ∧
      (∀ e, u.mid = some e → s.reached e = true →
        ∃ t, exec (.pwmCarrierEvent n .mid) s = .next t ∧ t.mode = s.mode ∧
          (s.commitPending (PWM.pg n) = false → t.pwm = s.pwm.set n { u with mid := none } ∧
            t.rd (PWM.pg n) PWM.PERIOD_COUNT_COUNT = s.rd (PWM.pg n) PWM.PERIOD_COUNT_COUNT)) ∧
      (∀ (k : Fin 4) e len rest, (s.pwmPair n k).due = (e, len) :: rest → s.reached e = true →
        ∃ t, exec (.pwmCarrierEvent n (.pairBoundary k)) s = .next t ∧ samePagesBut [PWM.pg n] s t ∧ (t.pwmUnit n).cmp = u.cmp ∧
          (t.pwmPair n k).at_ = e ∧ (t.pwmPair n k).per = len ∧ (t.pwmPair n k).mid = some (e + (len / 2 : Nat)) ∧
          (s.flag (PWM.pg n) PWM.CFG_UPDATE = false →
            t.rd (PWM.pg n) PWM.CMP_FRAC k = (u.cmp[k.val]'(by omega)).toNat ∧
            t.rd (PWM.pg n) PWM.CMP_FRAC (4 + k) = (u.cmp[4 + k.val]'(by omega)).toNat) ∧
          (s.flag (PWM.pg n) PWM.CFG_UPDATE = true → ∀ c < 8, t.rd (PWM.pg n) PWM.CMP_FRAC c = s.rd (PWM.pg n) PWM.CMP_FRAC c) ∧
          (∀ f dt, s.flag (PWM.pg n) PWM.CFG_UPDATE = true → s.rd (PWM.pg n) PWM.CFG_MODE = 0 → (s.pwmPair n k).ext = 0 →
            (∀ g ∈ (((s.pwmPair n k).release e).cut e).segs.head?, g.main = false ∧ g.on + (s.pwmMinp n : Int) ≤ e) →
            cmpPart (s.rd (PWM.pg n) PWM.CMP_FRAC k) len = f → s.pwmDT n = dt → 0 < f → f < len →
            dt + s.pwmMinp n ≤ f → f + dt + s.pwmMinp n ≤ len → ∀ x : Int,
            (e ≤ x → x < e + f → (t.pwmPair n k).active true x = decide (e + dt ≤ x) ∧ (t.pwmPair n k).active false x = false) ∧
            (e + f ≤ x → (t.pwmPair n k).active true x = false ∧ (t.pwmPair n k).active false x = decide (e + f + dt ≤ x)))) ∧
      (∀ (k : Fin 4) e, (s.pwmPair n k).mid = some e → s.reached e = true →
        ∃ t, exec (.pwmCarrierEvent n (.pairMid k)) s = .next t ∧ samePagesBut [PWM.pg n] s t ∧ (t.pwmUnit n).cmp = u.cmp ∧
          (t.pwmPair n k).mid = none ∧
          (s.flag (PWM.pg n) PWM.CFG_UPDATE = true →
            t.rd (PWM.pg n) PWM.CMP_FRAC k = (u.cmp[k.val]'(by omega)).toNat ∧
            t.rd (PWM.pg n) PWM.CMP_FRAC (4 + k) = (u.cmp[4 + k.val]'(by omega)).toNat) ∧
          (s.flag (PWM.pg n) PWM.CFG_UPDATE = false → ∀ c < 8, t.rd (PWM.pg n) PWM.CMP_FRAC c = s.rd (PWM.pg n) PWM.CMP_FRAC c)) ∧
      (∀ e rest, u.sync = e :: rest → s.reached e = true →
        ∃ t, exec (.pwmSyncEvent n) s = .next t ∧ t.mode = s.mode ∧ (t.pwmUnit n).sync = rest ∧
          (s.commitPending (PWM.pg n) = false →
            t.rd (PWM.pg n) PWM.PERIOD_COUNT_COUNT = (s.rd (PWM.pg n) PWM.PERIOD_COUNT_COUNT + 1) % 2 ^ 32 ∧
            t.rd (PWM.pg n) PWM.SYNC_COUNT_COUNT = satInc 16 (s.rd (PWM.pg n) PWM.SYNC_COUNT_COUNT) ∧
            bitOf (t.rd (PWM.pg n) HDR.IRQ_STATUS_BITS) 3 = true ∧
            (s.rd (PWM.pg n) PWM.SYNC_SRC ≠ 1 → s.rd (PWM.pg n) PWM.SYNC_SRC ≠ 3 →
              (t.pwmUnit n).due = [(e + 64 * (s.pwmP n : Int), none)]))))

/-- The loss of the root clock: every unit is safe with CLK_SAFE, source 52 is active, the loss is counted (R394); an absence that is
declared already is declared once (R869); without its clocks the device only has no root from then on (R876). The fixed delay ends the wait of active safe levels; a root absent for 1 ms resets the device with
cause 5, a root that is not absent does not (R869). -/
def Obligations.RootClockLoss : Prop :=
  (∀ s : State, s.live = false → exec .rootClockLoss s = .next { s with clk := { s.clk with rootAbsent := true } }) ∧
  ∀ s : State, Canonical s → s.live = true →
    (s.clk.rootAbsent = true → s.clk.clnBandSearch = false → exec .rootClockLoss s = .next s) ∧
    (s.clk.rootAbsent = false ∨ s.clk.clnBandSearch = true →
      ∃ t, exec .rootClockLoss s = .next t ∧
        t.clk = { s.clk with rootAbsent := true, relocking := false, lockLoss := false, clnBandSearch := false } ∧
        t.flag CLOCK.pg CLOCK.STATUS_ROOT_OK = false ∧ t.srcActive 52 = true ∧
        t.rd CLOCK.pg CLOCK.ROOT_LOSS_COUNT_COUNT = satInc 16 (s.rd CLOCK.pg CLOCK.ROOT_LOSS_COUNT_COUNT) ∧
        bitOf (t.rd CLOCK.pg HDR.IRQ_STATUS_BITS) 4 = true ∧
        (∀ n < 16, t.flag (PWM.pg n) PWM.STATUS_CLK_SAFE = true ∧ t.flag (PWM.pg n) PWM.STATUS_DRIVING = false) ∧
        (∀ n : Fin 16, (t.pwmUnit n).rootWait = true) ∧ t.mode = s.mode) ∧
    (∃ t, exec .rootLossSafeLevel s = .next t ∧ t = { s with pwm := t.pwm } ∧
      ∀ n : Fin 16, t.pwmUnit n = { s.pwmUnit n with rootWait := false }) ∧
    (s.clk.rootAbsent = false → exec .rootLossReset s = .next s) ∧
    (s.clk.rootAbsent = true →
      ∃ t, exec .rootLossReset s = .next t ∧ t.rd RESET.pg RESET.CAUSE_CAUSE = 5 ∧
        t.rd RESET.pg RESET.CAUSE_PREV = s.rd RESET.pg RESET.CAUSE_CAUSE % 16 ∧ t.mode = mBOOT ∧ t.cyc = 0 ∧ t.pwr.held = true ∧
        t.pending = s.pending ∧ t.sec.otp = s.sec.otp ∧ t.sec.flash = s.sec.flash)

/-- The Fusebox. A trip pin drives its source with its polarity, and the temperature sensor source 62 (R400, R401); a source that becomes active
while the Fusebox is armed has an activation to act on (R403), which one that is not mapped, or met after the Fusebox was disarmed, does
without effect. A source whose activation acts, mapped and not cycle by cycle, latches
itself and trips its units, which stop driving, and is recorded as the first. A latch clears when its bit is written and its source is
inactive; a unit clears when no set latch maps to it. That an activation is recorded and waits for FUSE_SOURCE_ACTIVE, and does without effect
where the Fusebox was disarmed meanwhile, is the model's choice (log entry 9), and that an edge is the level behind the filter log entry 29. -/
def Obligations.FuseboxTripsAndClears : Prop :=
  ∀ s : State, Canonical s →
    (∀ (p : Fin 16) (level : Bool), s.live = true →
      ∃ t, exec (.tripInputEdge p level) s = .next t ∧ t.srcActive p = (level != s.flag FUSE.pg FUSE.PINCFG_POL p) ∧
        (∀ q : Fin 16, t.fuse.pins.getLsbD q = if q = p then level else s.fuse.pins.getLsbD q) ∧
        (s.armed = true → s.srcActive p = false → t.srcActive p = true → bitOf t.fuse.edges p = true) ∧
        (∀ q < 64, q ≠ p.val → t.srcActive q = s.srcActive q) ∧ (∀ q < 64, t.srcLatched q = s.srcLatched q) ∧ t.mode = s.mode ∧
        samePagesBut [FUSE.pg, REDUN.pg] s t) ∧
    (∀ hot : Bool, s.live = true →
      ∃ t, exec (.fuseSourceActive 62 hot) s = .next t ∧ t.mode = s.mode ∧ t.srcActive 62 = hot ∧
        (hot = false → bitOf s.fuse.edges 62 = false → t = s.setSource 62 false) ∧
        (hot = true → s.armed = true → s.srcActive 62 = false → s.flag FUSE.pg FUSE.MAP_EN 62 = true →
          s.flag FUSE.pg FUSE.MAP_CYCLE 62 = false → t.srcLatched 62 = true)) ∧
    (∀ src : Fin 64, s.live = true → src ≠ 62 →
      (bitOf s.fuse.edges src = false → exec (.fuseSourceActive src false) s = .next s) ∧
      (bitOf s.fuse.edges src = true → s.armed = false ∨ s.flag FUSE.pg FUSE.MAP_EN src = false →
        exec (.fuseSourceActive src false) s = .next { s with fuse := { s.fuse with edges := clearBitOf s.fuse.edges src } }) ∧
      (bitOf s.fuse.edges src = true → s.armed = true → s.flag FUSE.pg FUSE.MAP_EN src = true →
        s.flag FUSE.pg FUSE.MAP_CYCLE src = false →
        ∃ t, exec (.fuseSourceActive src false) s = .next t ∧ t.srcLatched src = true ∧ t.mode = s.mode ∧
          (∀ q < 64, q ≠ src.val → t.srcLatched q = s.srcLatched q) ∧
          (∀ u < 16, bitOf (s.rd FUSE.pg FUSE.MAP_UNITS src) u = true →
            bitOf (t.rd FUSE.pg FUSE.UNIT_TRIP_UNIT) u = true ∧ t.flag (PWM.pg u) PWM.STATUS_TRIPPED = true ∧
            t.flag (PWM.pg u) PWM.STATUS_DRIVING = false) ∧
          (s.flag FUSE.pg FUSE.FIRST_VALID = false → t.rd FUSE.pg FUSE.FIRST_SRC = src.val) ∧
          bitOf (t.rd FUSE.pg HDR.IRQ_STATUS_BITS) 0 = true ∧
          (s.flag FUSE.pg FUSE.MAP_STOP src = true → s.stoppable = true → (0x10 + 256 * src.val, s.cyc) ∈ t.modes.causes)) ∧
      (bitOf s.fuse.edges src = true → s.armed = true → s.flag FUSE.pg FUSE.MAP_EN src = true →
        s.flag FUSE.pg FUSE.MAP_CYCLE src = true →
        ∃ t, exec (.fuseSourceActive src false) s = .next t ∧ (∀ q < 64, t.srcLatched q = s.srcLatched q) ∧
          (∀ u < 16, bitOf (s.rd FUSE.pg FUSE.MAP_UNITS src) u = true → t.flag (PWM.pg u) PWM.STATUS_CBC_HOLD = true ∧
            t.flag (PWM.pg u) PWM.STATUS_DRIVING = false) ∧
          t.rd FUSE.pg FUSE.CBC_COUNT_COUNT = satInc 16 (s.rd FUSE.pg FUSE.CBC_COUNT_COUNT))) ∧
    (∀ (ini : Initiator) (hi : Bool) (mask : Word), s.admits ini FUSE.pg (if hi = true then 0x058 else 0x054) mask.toNat = true →
      ∃ t, exec (.clearSource ini hi mask) s = .next t ∧ t.resp = ⟨.ok, []⟩ ∧
        (∀ i < 32, t.srcLatched (i + 32 * bit01 hi) =
          (s.srcLatched (i + 32 * bit01 hi) && !(bitOf mask.toNat i && !s.srcActive (i + 32 * bit01 hi)))) ∧
        (∀ i < 32, t.srcLatched (i + 32 * bit01 (!hi)) = s.srcLatched (i + 32 * bit01 (!hi))) ∧
        samePagesBut [FUSE.pg] s t ∧ t = { s with regs := t.regs, resp := ⟨.ok, []⟩, porchA := t.porchA, porchB := t.porchB }) ∧
    (∀ (ini : Initiator) (mask : BitVec 16), s.admits ini FUSE.pg 0x05C mask.toNat = true →
      ∃ t, exec (.clearUnit ini mask) s = .next t ∧ t.resp = ⟨.ok, []⟩ ∧
        (∀ u < 16, bitOf (t.rd FUSE.pg FUSE.UNIT_TRIP_UNIT) u =
          (bitOf (s.rd FUSE.pg FUSE.UNIT_TRIP_UNIT) u && !(bitOf mask.toNat u && !s.latchMapsTo u))) ∧
        (∀ q < 64, t.srcLatched q = s.srcLatched q))

/-! ### SAR units and delta-sigma filters (08) -/

/-- Triggers of a SAR unit. Without an event that its source has sent there is none (R424); one that the unit does not accept is ignored
(R423); a regular trigger of a busy unit is held, a second one missed (R427, R477); an injected trigger waits behind a regular conversion, or
aborts it if URGENT, goes before one that begins at this instant, and one more is missed (R432 to R434). The software triggers act as the
others. A conversion's end takes the code, counts the average, moves the sequence on, and lets an injected sequence that waits come first. The
delta-sigma channels. The 64th equal bit makes a channel STUCK and invalid, the first other bit ends that and starts settling (R458); a
comparator shows the value of R463 and decides after its count (R464); a window's end that is due writes the result of R452; a bank without
clock, which no member of the set rescues (R784), is NO_CLK in every channel until the clock that it selects returns (R459). How a trigger waits
for its event is log entry 31; that a command without bits is the missing edge log entry 32; that a loss of the clock takes a waiting set log
entry 48. -/
def Obligations.SarTriggersAndDeltaSigmaFilters : Prop :=
  (∀ (s : State) (u : Fin 6), Canonical s →
    (s.live = false ∨ s.domainRuns 6 = false ∨ (s.sarUnit u).owedReg = 0 → exec (.sarRegularTrigger u) s = .next s) ∧
    (s.live = false ∨ s.domainRuns 6 = false ∨ (s.sarUnit u).owedInj = 0 → exec (.sarInjectedTrigger u) s = .next s) ∧
    (s.live = true → s.domainRuns 6 = true → ∀ x y, s.sarUnit u = x → 0 < x.owedReg → { x with owedReg := x.owedReg - 1 } = y →
      (s.sarAccepts u = false → exec (.sarRegularTrigger u) s = .next { s with sar := s.sar.set u y }) ∧
      (s.sarAccepts u = true → x.reg ≠ none ∨ x.inj ≠ none → s.flag (SAR.pg u) SAR.STATUS_REG_PENDING = false →
        ∃ t, exec (.sarRegularTrigger u) s = .next t ∧ t.flag (SAR.pg u) SAR.STATUS_REG_PENDING = true ∧
          t = { s with regs := t.regs, sar := s.sar.set u y } ∧ sameRegsBut [SAR.STATUS_REG_PENDING.key (SAR.pg u) 0] s t) ∧
      (s.sarAccepts u = true → x.reg ≠ none ∨ x.inj ≠ none → s.flag (SAR.pg u) SAR.STATUS_REG_PENDING = true →
        ∃ t, exec (.sarRegularTrigger u) s = .next t ∧ t.rd (SAR.pg u) SAR.MISSED_REG = satInc 16 (s.rd (SAR.pg u) SAR.MISSED_REG) ∧
          bitOf (t.rd (SAR.pg u) HDR.IRQ_STATUS_BITS) 2 = true ∧ t.sar = s.sar.set u y ∧
          sameRegsBut [SAR.MISSED_REG.key (SAR.pg u) 0, HDR.IRQ_STATUS_BITS.key (SAR.pg u) 0] s t) ∧
      (s.sarAccepts u = true → x.reg = none → x.inj = none →
        ∃ t, exec (.sarRegularTrigger u) s = .next t ∧
          t.sar = s.sar.set u { y with reg := some (0, 0, 0), flight := .regular, begun := some s.cyc } ∧
          t.flag (SAR.pg u) SAR.STATUS_REG_BUSY = true ∧ t.commitPending (SAR.pg u) = false ∧
          (s.commitPending (SAR.pg u) = false → samePagesBut [SAR.pg u] s t ∧ t = { s with regs := t.regs, sar := t.sar }))) ∧
    (s.live = true → s.domainRuns 6 = true → ∀ x y, s.sarUnit u = x → 0 < x.owedInj → { x with owedInj := x.owedInj - 1 } = y →
      (s.sarAccepts u = false → exec (.sarInjectedTrigger u) s = .next { s with sar := s.sar.set u y }) ∧
      (s.sarAccepts u = true → x.inj ≠ none ∨ x.injWait = true →
        ∃ t, exec (.sarInjectedTrigger u) s = .next t ∧ t.rd (SAR.pg u) SAR.MISSED_INJ = satInc 16 (s.rd (SAR.pg u) SAR.MISSED_INJ) ∧
          t.sar = s.sar.set u y ∧ sameRegsBut [SAR.MISSED_INJ.key (SAR.pg u) 0, HDR.IRQ_STATUS_BITS.key (SAR.pg u) 0] s t) ∧
      (s.sarAccepts u = true → x.inj = none → x.injWait = false → x.flight = .regular →
        (x.begun ≠ some s.cyc → s.flag (SAR.pg u) SAR.INJTRIG_URGENT = false →
          exec (.sarInjectedTrigger u) s = .next { s with sar := s.sar.set u { y with injWait := true } }) ∧
        (x.begun ≠ some s.cyc → s.flag (SAR.pg u) SAR.INJTRIG_URGENT = true →
          ∃ t, exec (.sarInjectedTrigger u) s = .next t ∧
            t.sar = s.sar.set u { y with inj := some 0, flight := .injected, begun := some s.cyc } ∧
            (s.commitPending (SAR.pg u) = false →
              t.rd (SAR.pg u) SAR.ABORT_COUNT_COUNT = satInc 16 (s.rd (SAR.pg u) SAR.ABORT_COUNT_COUNT))) ∧
        (x.begun = some s.cyc → x.reg = some (0, 0, 0) → s.flag (SAR.pg u) SAR.STATUS_REG_PENDING = false →
          ∃ t, exec (.sarInjectedTrigger u) s = .next t ∧
            t.sar = s.sar.set u { y with inj := some 0, flight := .injected, reg := none } ∧
            (s.commitPending (SAR.pg u) = false → t.flag (SAR.pg u) SAR.STATUS_REG_PENDING = true ∧
              t.rd (SAR.pg u) SAR.ABORT_COUNT_COUNT = s.rd (SAR.pg u) SAR.ABORT_COUNT_COUNT))) ∧
      (s.sarAccepts u = true → x.inj = none → x.injWait = false → x.flight ≠ .regular →
        ∃ t, exec (.sarInjectedTrigger u) s = .next t ∧
          t.sar = s.sar.set u { y with inj := some 0, flight := .injected, begun := some s.cyc } ∧
          t.flag (SAR.pg u) SAR.STATUS_INJ_BUSY = true)) ∧
    (∀ ini : Initiator, s.admits ini (SAR.pg u) 0x008 (s.ctrlWith (SAR.pg u) SAR.CTRL_EN 2) = true →
      ∃ t, exec (.swtrigReg ini u) s = .next t ∧ t.resp = ⟨.ok, []⟩ ∧ (s.sarAccepts u = false → t.sar = s.sar) ∧
        (s.sarAccepts u = true → (s.sarUnit u).reg ≠ none ∨ (s.sarUnit u).inj ≠ none →
          t.sar = s.sar ∧ t.flag (SAR.pg u) SAR.STATUS_REG_PENDING = true) ∧
        (s.sarAccepts u = true → (s.sarUnit u).reg = none → (s.sarUnit u).inj = none →
          (t.sarUnit u).reg = some (0, 0, 0) ∧ t.flag (SAR.pg u) SAR.STATUS_REG_BUSY = true)) ∧
    (∀ ini : Initiator, s.admits ini (SAR.pg u) 0x008 (s.ctrlWith (SAR.pg u) SAR.CTRL_EN 4) = true →
      ∃ t, exec (.swtrigInj ini u) s = .next t ∧ t.resp = ⟨.ok, []⟩ ∧ (s.sarAccepts u = false → t.sar = s.sar) ∧
        (s.sarAccepts u = true → (s.sarUnit u).inj ≠ none ∨ (s.sarUnit u).injWait = true → t.sar = s.sar) ∧
        (s.sarAccepts u = true → (s.sarUnit u).inj = none → (s.sarUnit u).injWait = false → (s.sarUnit u).flight ≠ .regular →
          (t.sarUnit u).inj = some 0 ∧ t.flag (SAR.pg u) SAR.STATUS_INJ_BUSY = true)) ∧
    (∀ (code : BitVec 12) (hi lo : BitVec 8), (s.sarUnit u).flight = .none ∨ ((s.sarUnit u).flight = .regular ∧ (s.sarUnit u).reg = none) ∨
        ((s.sarUnit u).flight = .injected ∧ (s.sarUnit u).inj = none) →
      exec (.sarConversionComplete u code hi lo) s = .next s) ∧
    (∀ (code : BitVec 12) (hi lo : BitVec 8), s.live = true → s.domainRuns 6 = true → (s.sarUnit u).flight = .regular →
      ∀ slot done sum, (s.sarUnit u).reg = some (slot, done, sum) → slot < 16 → ∀ avg, s.rd (SAR.pg u) SAR.REGSLOT_AVG slot = avg →
      ∃ t, exec (.sarConversionComplete u code hi lo) s = .next t ∧ t.mode = s.mode ∧
        ((s.sarUnit u).injWait = true → (t.sarUnit u).flight = .injected ∧ (t.sarUnit u).inj = some 0) ∧
        (done + 1 < 2 ^ avg → (s.sarUnit u).injWait = false → (t.sarUnit u).reg = some (slot, done + 1, sum + code.toNat)) ∧
        (2 ^ avg ≤ done + 1 → slot < s.rd (SAR.pg u) SAR.REGSEQ_LAST → (s.sarUnit u).injWait = false →
          (t.sarUnit u).reg = some (slot + 1, 0, 0) ∧
          (t.sarUnit u).regRes.toList.getD slot 0 = BitVec.ofNat 16 (sarAverage avg (sum + code.toNat))) ∧
        (2 ^ avg ≤ done + 1 → s.rd (SAR.pg u) SAR.REGSEQ_LAST ≤ slot → s.commitPending (SAR.pg u) = false →
          s.rd (SAR.pg u) SAR.REGSEQ_LAST < 16 →
          t.rd (SAR.pg u) SAR.REG_COUNT_COUNT = (s.rd (SAR.pg u) SAR.REG_COUNT_COUNT + 1) % 2 ^ 32)) ∧
    (∀ (code : BitVec 12) (hi lo : BitVec 8), s.live = true → s.domainRuns 6 = true → (s.sarUnit u).flight = .injected → (s.sarUnit u).injWait = false →
      ∀ slot, (s.sarUnit u).inj = some slot → slot < 4 →
      ∃ t, exec (.sarConversionComplete u code hi lo) s = .next t ∧ t.mode = s.mode ∧
        (slot < s.rd (SAR.pg u) SAR.INJSEQ_LAST → (t.sarUnit u).inj = some (slot + 1) ∧
          (t.sarUnit u).injRes.toList.getD slot 0 = BitVec.ofNat 16 code.toNat) ∧
        (s.rd (SAR.pg u) SAR.INJSEQ_LAST ≤ slot → (t.sarUnit u).inj = none ∧
          ((s.sarUnit u).reg ≠ none → (t.sarUnit u).reg = (s.sarUnit u).reg ∧ (t.sarUnit u).flight = .regular)))) ∧
  (∀ (s : State) (b : Fin 6), Canonical s → s.live = true → s.domainRuns 8 = true →
    (∀ (c : Fin 8) (bits : List Bool), exec (.dsfStuckEnd b c bits) s = exec (.dsfStuck b c bits) s ∧
      exec (.cmpDecision b c bits) s = exec (.dsfStuck b c bits) s ∧
      (s.flag (DSF.pg b) DSF.CHSTAT_NO_CLK c = true → exec (.dsfStuck b c bits) s = .next s)) ∧
    (∀ c : Fin 8, s.dsfRuns b c = true → s.flag (DSF.pg b) DSF.CHSTAT_NO_CLK c = false → s.commitPending (DSF.pg b) = false →
      ∀ x, s.dsfChan b c = x → ∀ raw : Bool, ∀ y, (raw != s.flag (DSF.pg b) DSF.CHCFG_INVERT c) = y →
        (x.bits.head? = some y → x.same = 63 →
          ∃ t, exec (.dsfStuck b c [raw]) s = .next t ∧ t.flag (DSF.pg b) DSF.CHSTAT_STUCK c = true ∧ t.mode = s.mode ∧
            (s.dsfInvalid b c = false → t.flag (DSF.pg b) DSF.CHSTAT_VALID c = false ∧
              t.rd (DSF.pg b) DSF.INVALID_COUNT_COUNT c = satInc 16 (s.rd (DSF.pg b) DSF.INVALID_COUNT_COUNT c)) ∧
            (s.dsfInvalid b c = true →
              t.rd (DSF.pg b) DSF.INVALID_COUNT_COUNT c = s.rd (DSF.pg b) DSF.INVALID_COUNT_COUNT c)) ∧
        (x.bits.head? = some (!y) → s.flag (DSF.pg b) DSF.CHSTAT_STUCK c = true →
          1 < s.rd (DSF.pg b) DSF.CHCFG_ORDER c * s.rd (DSF.pg b) DSF.CHCFG_DEC c →
          ∃ t, exec (.dsfStuckEnd b c [raw]) s = .next t ∧ t.flag (DSF.pg b) DSF.CHSTAT_STUCK c = false ∧
            t.flag (DSF.pg b) DSF.CHSTAT_SETTLING c = true ∧ (t.dsfChan b c).same = 1 ∧ t.mode = s.mode) ∧
        (x.same < 63 → s.flag (DSF.pg b) DSF.CHSTAT_STUCK c = false → s.flag (DSF.pg b) DSF.CHSTAT_SETTLING c = false →
          3 * s.rd (DSF.pg b) DSF.CMPCFG_OSR c ≤ x.since + 1 → 3 * s.rd (DSF.pg b) DSF.CMPCFG_OSR c ≤ x.bits.length + 3 →
          ∀ v, dsfComp (s.rd (DSF.pg b) DSF.CMPCFG_OSR c) ((y :: x.bits).take 8192) = v →
            3 * s.rd (DSF.pg b) DSF.CMPCFG_OSR c ≤ 8194 →
          ∃ t, exec (.cmpDecision b c [raw]) s = .next t ∧ t.rd (DSF.pg b) DSF.CMPVAL_VALUE c = wrapOf 16 v ∧
            (s.flag (DSF.pg b) DSF.CMPCFG_EN c = false → t.flag (DSF.pg b) DSF.CHSTAT_CMP_OUT c = false) ∧
            (s.flag (DSF.pg b) DSF.CMPCFG_EN c = true →
              v < s.rdInt (DSF.pg b) DSF.CMPLIM_LO c ∨ s.rdInt (DSF.pg b) DSF.CMPLIM_HI c < v →
              s.rd (DSF.pg b) DSF.CMPCFG_COUNT c ≤ x.out → t.flag (DSF.pg b) DSF.CHSTAT_CMP_OUT c = true) ∧
            (s.flag (DSF.pg b) DSF.CMPCFG_EN c = true →
              s.rdInt (DSF.pg b) DSF.CMPLIM_LO c ≤ v → v ≤ s.rdInt (DSF.pg b) DSF.CMPLIM_HI c →
              s.rd (DSF.pg b) DSF.CMPCFG_COUNT c ≤ x.inn → t.flag (DSF.pg b) DSF.CHSTAT_CMP_OUT c = false))) ∧
    (∀ (c : Fin 8) (ck : Nat), s.dsfRuns b c = false ∨ s.windowDue b c = false ∨
        (s.rd (DSF.pg b) DSF.SYNC_SRC = 1 ∧ s.carrierRuns (s.rd (DSF.pg b) DSF.SYNC_INDEX) = false) →
      exec (.dsfWindowEnd b c [] ck) s = .next s) ∧
    (∀ (c : Fin 8) (ck : Nat), s.dsfRuns b c = true → s.windowDue b c = true → ∀ n m x, s.rd (DSF.pg b) DSF.CHCFG_ORDER c = n →
      s.rd (DSF.pg b) DSF.CHCFG_DEC c = m → s.dsfChan b c = x →
      s.rd (DSF.pg b) DSF.SYNC_SRC = 1 → s.carrierRuns (s.rd (DSF.pg b) DSF.SYNC_INDEX) = true →
      ∃ t, exec (.dsfWindowEnd b c [] ck) s = .next t ∧
        (n * (m - 1) + 1 ≤ x.bits.length → t.rd (DSF.pg b) DSF.RES_VALUE c = wrapOf 24 (dsfMain n m x.bits)) ∧
        t.flag (DSF.pg b) DSF.RES_VALID c = (!s.dsfInvalid b c && !s.flag (DSF.pg b) DSF.CHSTAT_SETTLING c) ∧
        (x.prev = none → t.flag (DSF.pg b) DSF.RES_NOTCH_OFF c = false) ∧
        (∀ p e per : Int, x.prev = some p → x.owed.head? = some e → (s.dsfPeriod b ck : Int) = per →
          t.flag (DSF.pg b) DSF.RES_NOTCH_OFF c = decide (per < e - p - m * per ∨ e - p - m * per < -per)) ∧
        (t.dsfChan b c).win = 0 ∧ (t.dsfChan b c).owed = x.owed.tail ∧
        t.rd (DSF.pg b) DSF.WINDOW_COUNT_COUNT = (s.rd (DSF.pg b) DSF.WINDOW_COUNT_COUNT + 1) % 2 ^ 32 ∧ t.mode = s.mode) ∧
    (∀ (c : Fin 8) (ck : Nat), s.dsfRuns b c = true → s.windowDue b c = true → ∀ n m x, s.rd (DSF.pg b) DSF.CHCFG_ORDER c = n →
      s.rd (DSF.pg b) DSF.CHCFG_DEC c = m → s.dsfChan b c = x → s.rd (DSF.pg b) DSF.SYNC_SRC ≠ 1 →
      ∃ t, exec (.dsfWindowEnd b c [] ck) s = .next t ∧
        (n * (m - 1) + 1 ≤ (x.bits.drop (x.win - m)).length →
          t.rd (DSF.pg b) DSF.RES_VALUE c = wrapOf 24 (dsfMain n m (x.bits.drop (x.win - m)))) ∧
        t.flag (DSF.pg b) DSF.RES_VALID c = (!s.dsfInvalid b c && !s.flag (DSF.pg b) DSF.CHSTAT_SETTLING c) ∧
        t.flag (DSF.pg b) DSF.RES_NOTCH_OFF c = false ∧ (t.dsfChan b c).win = x.win - m ∧
        t.rd (DSF.pg b) DSF.WINDOW_COUNT_COUNT = (s.rd (DSF.pg b) DSF.WINDOW_COUNT_COUNT + 1) % 2 ^ 32 ∧ t.mode = s.mode) ∧
    (s.dsfWatches = false ∨ s.dsfRescues b = true → exec (.dsfNoClk b) s = .next s) ∧
    (s.dsfWatches = true → s.dsfRescues b = false →
      ∃ t, exec (.dsfNoClk b) s = .next t ∧ t.mode = s.mode ∧ t.commitPending (DSF.pg b) = false ∧
      (s.commitPending (DSF.pg b) = false → t.flag (DSF.pg b) DSF.STATUS_CK_OK = false ∧
        ∀ c : Fin 8, t.flag (DSF.pg b) DSF.CHSTAT_NO_CLK c = true ∧
          (s.dsfRuns b c = true → s.dsfInvalid b c = false → t.flag (DSF.pg b) DSF.CHSTAT_VALID c = false ∧
            t.rd (DSF.pg b) DSF.INVALID_COUNT_COUNT c = satInc 16 (s.rd (DSF.pg b) DSF.INVALID_COUNT_COUNT c)))) ∧
    (s.dsfClkOff b = true → exec (.dsfClockReturn b) s = .next s) ∧
    (s.dsfClkOff b = false → ∃ t, exec (.dsfClockReturn b) s = .next t ∧ t.flag (DSF.pg b) DSF.STATUS_CK_OK = true ∧
      (∀ c : Fin 8, t.flag (DSF.pg b) DSF.CHSTAT_NO_CLK c = false ∧
        (s.dsfRuns b c = true → s.flag (DSF.pg b) DSF.CHSTAT_NO_CLK c = true → t.flag (DSF.pg b) DSF.CHSTAT_SETTLING c = true ∧
          t.flag (DSF.pg b) DSF.CHSTAT_STUCK c = false)) ∧
      samePagesBut [DSF.pg b, FUSE.pg] s t ∧
      t = { s with regs := t.regs, dsf := t.dsf, fuse := t.fuse, porchA := t.porchA, porchB := t.porchB }))

/-! ### Charging outputs and control pilots (09) -/

/-- A write of a port's CMD is refused where the port is not enabled or the role is STANDBY or VOTER; otherwise it waits for the port tick, in
place of a command that waited before, and nothing else changes (R496, R497). -/
def Obligations.PortCommandsWaitForTheTick : Prop :=
  ∀ (s : State) (ini : Initiator) (p : Fin 8), Canonical s →
    (s.flag (PORT.pg p) PORT.CTRL_EN = false ∨ s.roleFollows = true →
      (s.admits ini (PORT.pg p) 0x0B4 1 = true →
        ∃ t, exec (.startCheck ini p) s = .next t ∧ refusal s t (PORT.pg p) 0x05 0x0B4 ini) ∧
      (s.admits ini (PORT.pg p) 0x0B4 2 = true →
        ∃ t, exec (.startPrecharge ini p) s = .next t ∧ refusal s t (PORT.pg p) 0x05 0x0B4 ini) ∧
      (s.admits ini (PORT.pg p) 0x0B4 3 = true →
        ∃ t, exec (.startEnergy ini p) s = .next t ∧ refusal s t (PORT.pg p) 0x05 0x0B4 ini) ∧
      (s.admits ini (PORT.pg p) 0x0B4 4 = true →
        ∃ t, exec (.portStop ini p) s = .next t ∧ refusal s t (PORT.pg p) 0x05 0x0B4 ini) ∧
      (s.admits ini (PORT.pg p) 0x0B4 5 = true →
        ∃ t, exec (.ackFault ini p) s = .next t ∧ refusal s t (PORT.pg p) 0x05 0x0B4 ini) ∧
      (s.admits ini (PORT.pg p) 0x0B4 6 = true →
        ∃ t, exec (.forceFault ini p) s = .next t ∧ refusal s t (PORT.pg p) 0x05 0x0B4 ini) ∧
      (s.admits ini (PORT.pg p) 0x0B4 7 = true →
        ∃ t, exec (.clearWeld ini p) s = .next t ∧ refusal s t (PORT.pg p) 0x05 0x0B4 ini)) ∧
    (s.flag (PORT.pg p) PORT.CTRL_EN = true → s.roleFollows = false →
      (s.admits ini (PORT.pg p) 0x0B4 1 = true →
        exec (.startCheck ini p) s = .next { s.done with port := s.port.set p { s.portUnit p with cmd := some (1, ini) } }) ∧
      (s.admits ini (PORT.pg p) 0x0B4 2 = true →
        exec (.startPrecharge ini p) s = .next { s.done with port := s.port.set p { s.portUnit p with cmd := some (2, ini) } }) ∧
      (s.admits ini (PORT.pg p) 0x0B4 3 = true →
        exec (.startEnergy ini p) s = .next { s.done with port := s.port.set p { s.portUnit p with cmd := some (3, ini) } }) ∧
      (s.admits ini (PORT.pg p) 0x0B4 4 = true →
        exec (.portStop ini p) s = .next { s.done with port := s.port.set p { s.portUnit p with cmd := some (4, ini) } }) ∧
      (s.admits ini (PORT.pg p) 0x0B4 5 = true →
        exec (.ackFault ini p) s = .next { s.done with port := s.port.set p { s.portUnit p with cmd := some (5, ini) } }) ∧
      (s.admits ini (PORT.pg p) 0x0B4 6 = true →
        exec (.forceFault ini p) s = .next { s.done with port := s.port.set p { s.portUnit p with cmd := some (6, ini) } }) ∧
      (s.admits ini (PORT.pg p) 0x0B4 7 = true →
        exec (.clearWeld ini p) s = .next { s.done with port := s.port.set p { s.portUnit p with cmd := some (7, ini) } }))

/-- The port tick. Whatever the enables read back, it shows the levels and takes the command of every port; a port that is not enabled is OFF.
Where nothing else asks for a change of phase: START_CHECK, START_PRECHARGE, START_ENERGY, STOP and ACK_FAULT under their conditions move
the port to the phase of R492, FORCE_FAULT puts it in FAULT with cause 0x0C, CLEAR_WELD clears WELDED in CONFIG, and a command whose
conditions do not hold is refused (R496). -/
def Obligations.PortTickActsOnCommands : Prop :=
  (∀ (s : State) (rbA rbB : BitVec 8) (p : Fin 8), Canonical s → s.live = true → s.noPortSet = true →
    ∃ t, exec (.portTick rbA rbB) s = .next t ∧ t.mode = s.mode ∧
      t.flag (PORT.pg p) PORT.STATUS_CDO_A_RB = rbA.getLsbD p ∧ t.flag (PORT.pg p) PORT.STATUS_CDO_B_RB = rbB.getLsbD p ∧
      t.flag (PORT.pg p) PORT.STATUS_PLUG_OK = s.plugOk p ∧
      (s.mode ≠ mBOOT → (t.portUnit p).cmd = none) ∧
      (s.mode ≠ mBOOT → s.flag (PORT.pg p) PORT.CTRL_EN = false → t.portPhase p = 0)) ∧
  (∀ (s : State) (p : Fin 8), Canonical s → s.live = true → s.noPortSet = true →
    ∀ ph, s.portPhase p = ph →
    s.portQuiet p = true → s.pilotSenses p = true → s.redun.passCdo ≠ 1 → s.redun.holdCdo = false →
      (1 ≤ ph → ph ≤ 2 → s.cfbClosed p = false) → (3 ≤ ph → ph ≤ 9 → s.portClosed p = true) →
      ∀ code ini, (s.portUnit p).cmd = some (code, ini) →
      ∃ t, exec (.portTick (BitVec.ofNat 8 (wordOf fun q => s.cdoA q)) (BitVec.ofNat 8 (wordOf fun q => s.cdoB q))) s = .next t ∧
        (t.portUnit p).cmd = none ∧ t.mode = s.mode ∧
        (code = 1 → s.startCheckOk p = true →
          t.portPhase p = (if s.flag (PORT.pg p) PORT.CFG_CHTEST_EN = true then 1 else 2) ∧ t.rd (PORT.pg p) PORT.STATUS_STATE = 1) ∧
        (code = 1 → s.startCheckOk p = false → t.cmdTurnedAway (PORT.pg p) ini) ∧
        (code = 2 → ph = 5 → t.portPhase p = 6 ∧ t.rd (PORT.pg p) PORT.STATUS_STATE = 2) ∧
        (code = 2 → ph ≠ 5 → t.cmdTurnedAway (PORT.pg p) ini) ∧
        (code = 3 → ph = 7 → 2 ≤ s.rd PILOT.pg PILOT.CH_STATE_STATE p → t.portPhase p = 8 ∧ t.rd (PORT.pg p) PORT.STATUS_STATE = 3 ∧
          t.rd (PORT.pg p) PORT.SESSION_COUNT_COUNT = (s.rd (PORT.pg p) PORT.SESSION_COUNT_COUNT + 1) % 2 ^ 32) ∧
        (code = 3 → ph ≠ 7 ∨ s.rd PILOT.pg PILOT.CH_STATE_STATE p < 2 → t.cmdTurnedAway (PORT.pg p) ini) ∧
        (code = 4 → 3 ≤ ph → ph ≤ 8 → t.portPhase p = (if ph = 8 then 9 else 10) ∧ t.rd (PORT.pg p) PORT.STATUS_STATE = 4 ∧
          t.rd (PORT.pg p) PORT.STATUS_STOP_CAUSE = 1) ∧
        (code = 5 → ph = 13 → s.mode ≠ mSAFE → t.portPhase p = 0) ∧
        (code = 5 → ph ≠ 13 ∨ s.mode = mSAFE → t.cmdTurnedAway (PORT.pg p) ini) ∧
        (code = 6 → 3 ≤ ph → ph ≤ 8 → State.portFaulted s t p 0x0C) ∧
        (code = 6 → ph = 12 ∨ ph = 13 → t.cmdTurnedAway (PORT.pg p) ini) ∧
        (code = 7 → s.mode = mCONFIG → s.flag (PORT.pg p) PORT.STATUS_WELDED = true → s.cfbClosed p = false →
          t.flag (PORT.pg p) PORT.STATUS_WELDED = false) ∧
        (code = 7 → s.mode ≠ mCONFIG ∨ s.flag (PORT.pg p) PORT.STATUS_WELDED = false → 3 ≤ ph → ph ≤ 8 →
          t.cmdTurnedAway (PORT.pg p) ini))

/-- The deadlines that end in FAULT: the port tick at which a time runs out finds its cause, and FAULT_CAUSE records it, or the lower one that
holds at that tick (R505, R506, R509, R511, R512). The times that move a port on, where no cause holds: the channel test changes the
channel and then closes, a voltage held for 10 ms and the hold time enter the next phase (R492, R503); in FAULT the enables fall at the
deadline (R513). In a phase that does not count its time, none of these events changes anything. -/
def Obligations.PortDeadlinesAndTimes : Prop :=
  (∀ (s : State) (p : Fin 8), Canonical s → s.live = true → s.mode ≠ mBOOT → s.flag (PORT.pg p) PORT.CTRL_EN = true →
    (s.portUnit p).copy = none → ∀ ph, s.portPhase p = ph →
    (ph = 2 → (s.portUnit p).susp = false → s.cfbGone p = false → s.cfbClosed p = false →
      s.flag (PORT.pg p) PORT.STATUS_CDO_A = true → s.flag (PORT.pg p) PORT.STATUS_CDO_B = true →
      ∃ t, exec (.closeDeadline p) s = .next t ∧
        ((s.portUnit p).check.getD 0 + 1 < 10 * s.rd (PORT.pg p) PORT.TIMEOUT_A_CC_MS → State.portFaulted s t p 0x04) ∧
        (10 * s.rd (PORT.pg p) PORT.TIMEOUT_A_CC_MS ≤ (s.portUnit p).check.getD 0 + 1 → State.portFaulted s t p 0x02)) ∧
    ((s.portUnit p).opening ≠ none → (s.portUnit p).susp = false → s.cfbGone p = false → s.cfbClosed p = true →
      s.flag (PORT.pg p) PORT.STATUS_CDO_A = false → s.flag (PORT.pg p) PORT.STATUS_CDO_B = false →
      ∃ t, exec (.openDeadline p) s = .next t ∧ t.flag (PORT.pg p) PORT.STATUS_WELDED = true ∧
        (ph = 0 ∨ ph = 10 ∨ ph = 11 → State.portFaulted s t p 0x04) ∧ (ph = 12 → t.portPhase p = 12)) ∧
    (1 ≤ ph → ph ≤ 3 → ∃ t, exec (.ccDeadline p) s = .next t ∧ State.portFaulted s t p 0x02) ∧
    (ph = 4 → (s.portUnit p).ticks + 1 < 10 * s.rd (PORT.pg p) PORT.TIMEOUT_B_CC_HOLD_MS → s.isoFault p = false →
      ∃ t, exec (.ccDeadline p) s = .next t ∧ State.portFaulted s t p 0x02) ∧
    (ph = 6 → (s.portUnit p).pre ≠ none → s.isoFault p = false →
      (s.portUnit p).match_ < 99 ∨ within (s.portV p) (s.pR p PORT.PRE_V_VALUE) (s.pR p PORT.V_TOL_VALUE) = false →
      ∃ t, exec (.preDeadline p) s = .next t ∧ State.portFaulted s t p 0x03) ∧
    (ph = 9 → s.portQuiet p = true → s.portClosed p = true → s.pR p PORT.I_OPEN_VALUE < ratAbs (s.portI p) →
      ∃ t, exec (.stopDeadline p) s = .next t ∧ State.portFaulted s t p 0x0F) ∧
    (ph = 11 → s.cfbGone p = false → s.cfbClosed p = false → s.pR p PORT.V_SAFE_VALUE < s.portV p →
      ∃ t, exec (.weldDeadline p) s = .next t ∧ State.portFaulted s t p 0x05 ∧ t.flag (PORT.pg p) PORT.STATUS_WELDED = true) ∧
    (4 ≤ ph → ph ≤ 9 → s.isoFault p = true →
      ∃ t, exec (.insulationFaultHold p) s = .next t ∧ State.portFaulted s t p 0x01) ∧
    (3 ≤ ph → ph ≤ 9 → s.plugOk p = false → s.portCalm p = true → s.portClosed p = true →
      ∃ t, exec (.plugLossHold p) s = .next t ∧ State.portFaulted s t p 0x07) ∧
    (1 ≤ ph → ph ≤ 11 → s.plugOk p = false → ∃ t, exec (.plugLossHold p) s = .next t ∧ t.portPhase p = 12 ∧
      t.rd (PORT.pg p) PORT.STATUS_STATE = 5 ∧ t.rd (PORT.pg p) PORT.STATUS_FAULT_CAUSE ≤ 0x07)) ∧
  (∀ (s : State) (p : Fin 8), Canonical s → s.live = true → (s.portUnit p).cmd = none →
    ∀ ph, s.portPhase p = ph →
    (s.portQuiet p = true →
      (ph = 1 → s.cfbClosed p = false →
        ∃ t, exec (.chtestExpiry p) s = .next t ∧
          ((s.portUnit p).ticks < 10 * s.rd (PORT.pg p) PORT.CFB_TIME_CHTEST_MS → t.portPhase p = 1 ∧
            t.flag (PORT.pg p) PORT.STATUS_CDO_A = false ∧ t.flag (PORT.pg p) PORT.STATUS_CDO_B = true) ∧
          (10 * s.rd (PORT.pg p) PORT.CFB_TIME_CHTEST_MS ≤ (s.portUnit p).ticks → t.portPhase p = 2 ∧
            t.flag (PORT.pg p) PORT.STATUS_CDO_A = true ∧ t.flag (PORT.pg p) PORT.STATUS_CDO_B = true)) ∧
      (ph = 3 → s.portClosed p = true → within (s.portV p) (s.pR p PORT.CC_V_VALUE) (s.pR p PORT.V_TOL_VALUE) = true →
        ∃ t, exec (.voltageMatchHold p) s = .next t ∧ t.portPhase p = 4 ∧ t.rd (PORT.pg p) PORT.STATUS_STATE = 1) ∧
      (ph = 6 → s.portClosed p = true → within (s.portV p) (s.pR p PORT.PRE_V_VALUE) (s.pR p PORT.V_TOL_VALUE) = true →
        ∃ t, exec (.voltageMatchHold p) s = .next t ∧ t.portPhase p = 7 ∧ bitOf (t.rd (PORT.pg p) HDR.IRQ_STATUS_BITS) 1 = true) ∧
      (ph = 4 → s.portClosed p = true →
        ∃ t, exec (.ccHoldExpiry p) s = .next t ∧ t.portPhase p = 5 ∧ bitOf (t.rd (PORT.pg p) HDR.IRQ_STATUS_BITS) 1 = true)) ∧
    (ph = 12 → s.mode ≠ mBOOT → s.flag (PORT.pg p) PORT.CTRL_EN = true → (s.portUnit p).copy = none →
      s.flag (PORT.pg p) PORT.STATUS_CDO_A = true ∨ s.flag (PORT.pg p) PORT.STATUS_CDO_B = true →
      ∃ t, exec (.openDelayExpiry p) s = .next t ∧ t.portPhase p = 12 ∧ t.flag (PORT.pg p) PORT.STATUS_CDO_A = false ∧
        t.flag (PORT.pg p) PORT.STATUS_CDO_B = false)) ∧
  (∀ (s : State) (p : Fin 8) (ph : Nat), s.portPhase p = ph →
    (ph ≠ 1 → exec (.chtestExpiry p) s = .next s) ∧ (ph ≠ 2 → exec (.closeDeadline p) s = .next s) ∧
    ((s.portUnit p).opening = none → exec (.openDeadline p) s = .next s) ∧
    (ph ≠ 3 → ph ≠ 6 → exec (.voltageMatchHold p) s = .next s) ∧ (ph ≠ 4 → exec (.ccHoldExpiry p) s = .next s) ∧
    (ph = 0 ∨ 5 ≤ ph → exec (.ccDeadline p) s = .next s) ∧
    (ph ≠ 6 ∨ (s.portUnit p).pre = none → exec (.preDeadline p) s = .next s) ∧ (ph ≠ 9 → exec (.stopDeadline p) s = .next s) ∧
    (ph ≠ 11 → exec (.weldDeadline p) s = .next s) ∧ (ph ≠ 12 → exec (.openDelayExpiry p) s = .next s) ∧
    (ph < 4 ∨ 9 < ph → exec (.insulationFaultHold p) s = .next s) ∧
    (s.portState p = 0 ∨ s.portState p = 5 → exec (.plugLossHold p) s = .next s))

/-- Values and pilots. CC_V, CC_END_V, PRE_V and V_LIM outside 0 to V_MAX, and a negative I_SET of a port that is not bidirectional, are
refused; else the register takes them. A GEN write waits for the period start and is in force from there, one in the cycle of a start from
the start after it (R519); a channel that does not sense
reads UNKNOWN at a period's end, one in MODE 0 is F, and one with samples shows their averages. -/
def Obligations.PortValuesAndPilots : Prop :=
  ∀ (s : State) (p : Fin 8), Canonical s →
    (∀ (ini : Initiator) (r : Fin 5) (v : Word), s.admits ini (PORT.pg p) (portValueFld r).off v.toNat = true →
      ∃ t, exec (.portValueWrite ini p r v) s = .next t ∧
        (r.val = 3 → s.portIBad p v.toNat = true → refusal s t (PORT.pg p) 0x03 (portValueFld r).off ini) ∧
        (r.val ≠ 3 → s.portVBad p v.toNat = true → refusal s t (PORT.pg p) 0x03 (portValueFld r).off ini) ∧
        ((if r.val = 3 then s.portIBad p v.toNat else s.portVBad p v.toNat) = false →
          t.rd (PORT.pg p) (portValueFld r) = v.toNat ∧ sameRegsBut [(portValueFld r).key (PORT.pg p) 0] s t)) ∧
    (∀ (ini : Initiator) (v : Word), s.admits ini PILOT.pg (0x040 + 0x10 * p) v.toNat = true →
      ∃ t, exec (.pilotGenWrite ini p v) s = .next t ∧
        (bitsOf v.toNat 0 2 = 3 ∨ 1000 < bitsOf v.toNat 2 10 → refusal s t PILOT.pg 0x03 (0x040 + 0x10 * p) ini) ∧
        (bitsOf v.toNat 0 2 ≠ 3 → bitsOf v.toNat 2 10 ≤ 1000 →
          (t.pilotChan p).genLast = some (v.toNat, s.cyc) ∧
          (∀ w c, (s.pilotChan p).genLast = some (w, c) → (t.pilotChan p).gen = if c = s.cyc then (s.pilotChan p).gen else some w) ∧
          t = { s.done with pilot := s.pilot.set p (t.pilotChan p) })) ∧
    (s.live = true →
      ∃ t, exec .pilotPeriodStart s = .next t ∧ (t.pilotChan p).gen = none ∧
        (∀ v c, (s.pilotChan p).genLast = some (v, c) → c ≠ s.cyc → (t.pilotChan p).genLast = none ∧
          t.rd PILOT.pg PILOT.CH_GEN_MODE p = bitsOf v 0 2 ∧ t.rd PILOT.pg PILOT.CH_GEN_DUTY p = bitsOf v 2 10 ∧
          t.rd PILOT.pg PILOT.CH_GEN_F_ON_FAULT p = bitsOf v 12 1) ∧
        (∀ v, (s.pilotChan p).genLast = some (v, s.cyc) → (t.pilotChan p).genLast = some (v, s.cyc) ∧
          t.rd PILOT.pg PILOT.CH_GEN_MODE p =
            match (s.pilotChan p).gen with | some w => bitsOf w 0 2 | none => s.rd PILOT.pg PILOT.CH_GEN_MODE p) ∧
        ((s.pilotChan p).gen = none → (s.pilotChan p).genLast = none →
          t.rd PILOT.pg PILOT.CH_GEN_MODE p = s.rd PILOT.pg PILOT.CH_GEN_MODE p) ∧
        samePagesBut [PILOT.pg] s t ∧ t = { s with regs := t.regs, pilot := t.pilot, redun := t.redun }) ∧
    (s.live = true →
      ∃ t, exec .pilotPeriodEnd s = .next t ∧
        (s.pilotSenses p = false → t.rd PILOT.pg PILOT.CH_STATE_STATE p = 6 ∧ t.flag PILOT.pg PILOT.CH_STATE_SENSE_ERR p = false) ∧
        (s.pilotSenses p = true → s.rd PILOT.pg PILOT.CH_GEN_MODE p = 0 → t.rd PILOT.pg PILOT.CH_STATE_STATE p = 5) ∧
        (s.pilotSenses p = true → 2 ≤ (s.pilotChan p).hiCount →
          t.rd PILOT.pg PILOT.CH_LEVELS_HIGH p = (s.pilotChan p).hiSum / (s.pilotChan p).hiCount % 2 ^ PILOT.CH_LEVELS_HIGH.width) ∧
        samePagesBut [PILOT.pg] s t ∧ t = { s with regs := t.regs, pilot := t.pilot, porchA := t.porchA, porchB := t.porchB })

/-! ### Metering and the Pantry (10) -/

/-- PANTRY.CMD. A write while one is busy is refused with 0x05; a command whose conditions fail completes at once with its RESULT and leaves the
partition; BEGIN, END and READING wait for their record instant with the SESSION written; CAL_LOAD takes a block in range and gives RESULT
0x7 for any other (R548, R564). That CAL_LOAD completes within its own command, and the order in which the conditions of a command are
judged, are the model's reading (log entry 39). -/
def Obligations.PantryCommands : Prop :=
  ∀ (s : State) (ini : Initiator) (m : BitVec 4), Canonical s → ∀ sess, s.rd64 PANTRY.pg PANTRY.SESSION_LO_ID PANTRY.SESSION_HI_ID = sess →
    (s.flag PANTRY.pg PANTRY.CMD_STATUS_BUSY = true →
      (s.admits ini PANTRY.pg 0x044 (1 + 16 * m.toNat) = true → ∃ t, exec (.begin ini m) s = .next t ∧ refusal s t PANTRY.pg 0x05 0x044 ini) ∧
      (s.admits ini PANTRY.pg 0x044 (2 + 16 * m.toNat) = true → ∃ t, exec (.pantryEnd ini m) s = .next t ∧ refusal s t PANTRY.pg 0x05 0x044 ini) ∧
      (s.admits ini PANTRY.pg 0x044 (3 + 16 * m.toNat) = true → ∃ t, exec (.reading ini m) s = .next t ∧ refusal s t PANTRY.pg 0x05 0x044 ini) ∧
      (s.admits ini PANTRY.pg 0x044 4 = true → ∃ t, exec (.calLoad ini) s = .next t ∧ refusal s t PANTRY.pg 0x05 0x044 ini)) ∧
    (s.flag PANTRY.pg PANTRY.CMD_STATUS_BUSY = false →
      (s.admits ini PANTRY.pg 0x044 (1 + 16 * m.toNat) = true →
        ∃ t, exec (.begin ini m) s = .next t ∧ t.resp = ⟨.ok, []⟩ ∧ samePagesBut [PANTRY.pg] s t ∧
          (∀ r, s.pantryRefused 1 m.toNat sess = some r → t.metro = s.metro ∧ t.flag PANTRY.pg PANTRY.CMD_STATUS_BUSY = false ∧
            t.rd PANTRY.pg PANTRY.CMD_STATUS_RESULT = r) ∧
          (s.pantryRefused 1 m.toNat sess = none → t.metro = { s.metro with cmd := some ⟨1, m.toNat, sess, s.cyc⟩ } ∧
            t.flag PANTRY.pg PANTRY.CMD_STATUS_BUSY = true ∧ t.rd PANTRY.pg PANTRY.CMD_STATUS_OP = 1)) ∧
      (s.admits ini PANTRY.pg 0x044 (2 + 16 * m.toNat) = true →
        ∃ t, exec (.pantryEnd ini m) s = .next t ∧ t.resp = ⟨.ok, []⟩ ∧ samePagesBut [PANTRY.pg] s t ∧
          (∀ r, s.pantryRefused 2 m.toNat sess = some r → t.metro = s.metro ∧ t.flag PANTRY.pg PANTRY.CMD_STATUS_BUSY = false ∧
            t.rd PANTRY.pg PANTRY.CMD_STATUS_RESULT = r) ∧
          (s.pantryRefused 2 m.toNat sess = none → t.metro = { s.metro with cmd := some ⟨2, m.toNat, sess, s.cyc⟩ } ∧
            t.flag PANTRY.pg PANTRY.CMD_STATUS_BUSY = true ∧ t.rd PANTRY.pg PANTRY.CMD_STATUS_OP = 2)) ∧
      (s.admits ini PANTRY.pg 0x044 (3 + 16 * m.toNat) = true →
        ∃ t, exec (.reading ini m) s = .next t ∧ t.resp = ⟨.ok, []⟩ ∧ samePagesBut [PANTRY.pg] s t ∧
          (∀ r, s.pantryRefused 3 m.toNat sess = some r → t.metro = s.metro ∧ t.flag PANTRY.pg PANTRY.CMD_STATUS_BUSY = false ∧
            t.rd PANTRY.pg PANTRY.CMD_STATUS_RESULT = r) ∧
          (s.pantryRefused 3 m.toNat sess = none → t.metro = { s.metro with cmd := some ⟨3, m.toNat, sess, s.cyc⟩ } ∧
            t.flag PANTRY.pg PANTRY.CMD_STATUS_BUSY = true ∧ t.rd PANTRY.pg PANTRY.CMD_STATUS_OP = 3)) ∧
      (s.admits ini PANTRY.pg 0x044 4 = true →
        ∃ t, exec (.calLoad ini) s = .next t ∧ t.resp = ⟨.ok, []⟩ ∧ t.flag PANTRY.pg PANTRY.CMD_STATUS_BUSY = false ∧ t.sram = s.sram ∧
          (∀ r, s.pantryRefused 4 0 sess = some r → t.metro = s.metro ∧ t.rd PANTRY.pg PANTRY.CMD_STATUS_RESULT = r) ∧
          (s.pantryRefused 4 0 sess = none → s.sramUe = [] →
            (inSram (s.rd PANTRY.pg PANTRY.CAL_SRC_ADDR) 296 = true → calOk (s.bytesAt (s.rd PANTRY.pg PANTRY.CAL_SRC_ADDR) 296) = true →
              t.metro = { s.metro with cal := s.bytesAt (s.rd PANTRY.pg PANTRY.CAL_SRC_ADDR) 296 } ∧
              t.rd PANTRY.pg PANTRY.CMD_STATUS_RESULT = 0 ∧ t.flag METRO.pg METRO.STATUS_CAL_OK = true) ∧
            (inSram (s.rd PANTRY.pg PANTRY.CAL_SRC_ADDR) 296 = false ∨ calOk (s.bytesAt (s.rd PANTRY.pg PANTRY.CAL_SRC_ADDR) 296) = false →
              t.metro = s.metro ∧ t.rd PANTRY.pg PANTRY.CMD_STATUS_RESULT = 7))))

/-- A sample instant: a partition that does not run takes none; a running one counts it, and no energy register decreases (R545). A BEGIN
that waited 1 µs, still accepted with the log not full, opens the session and latches its record. A set of PANTRY that waits takes effect
there, and READY is 0 until the memory has answered (R550, R571). -/
def Obligations.MetroSamples : Prop :=
  ∀ (s : State) (bits : List (List Bool)), Canonical s → s.live = true → bits.length = 24 →
    (s.metroRuns = false → exec (.metroSample bits) s = .next s) ∧
    (s.metroRuns = true → s.commitPending PANTRY.pg = false →
      ∃ t, exec (.metroSample bits) s = .next t ∧
        t.rd METRO.pg METRO.SAMPLE_COUNT_COUNT = (s.rd METRO.pg METRO.SAMPLE_COUNT_COUNT + 1) % 2 ^ 32 ∧
        (∀ m : Fin 9, (s.meter m).imp < 2 ^ 63 → (s.meter m).exp < 2 ^ 63 →
          (s.meter m).imp ≤ (t.meter m).imp ∧ (t.meter m).imp < 2 ^ 63 ∧ (s.meter m).exp ≤ (t.meter m).exp ∧ (t.meter m).exp < 2 ^ 63) ∧
        (s.accumulates = false → ∀ m : Fin 9, (t.meter m).imp = (s.meter m).imp ∧ (t.meter m).exp = (s.meter m).exp) ∧
        (∀ c, s.metro.cmd = some c → 250 ≤ s.since c.at_ → c.op = 1 → c.meter < 9 → s.metro.ends = none →
          s.pantryRefused 1 c.meter c.session = none → s.logFull = false →
          t.metro.cmd = none ∧ ((t.meter (Fin.ofNat 9 c.meter)).sess.map (·.id)) = some c.session ∧
          t.metro.pend.length = s.metro.pend.length + 1 ∧
          (t.metro.pend.getLast?.map fun r => (r.type, r.meter, r.session, r.seq)) =
            some (2, c.meter, c.session, s.metro.next + s.metro.pend.length)) ∧
        t.mode = s.mode ∧ t.pantry = s.pantry) ∧
    (s.metroRuns = true → s.commitPending PANTRY.pg = true →
      ∃ t, exec (.metroSample bits) s = .next t ∧ t.commitPending PANTRY.pg = false ∧ t.flag PANTRY.pg PANTRY.STATUS_READY = false ∧
        t.metro.cfg = true ∧ t.pantry = s.pantry)

/-- Records in the Pantry. A record that read back as written takes its slot and the next SEQ, and completes its command with RESULT 0; one that
did not sets FAULT and is held (R573), and so does the write of an acknowledgement or a snapshot, with or without the key (the model's reading,
log entry 39); the retry clears FAULT on success; a record that has no room waits, and without the key or while the core is halted none is
written (R553, R920). READY follows the memory's density (R571). -/
def Obligations.PantryRecords : Prop :=
  ∀ s : State, Canonical s → s.live = true →
    (∀ r, s.metro.pend.head? = some r → s.flag PANTRY.pg PANTRY.STATUS_FAULT = false → s.flag PANTRY.pg PANTRY.STATUS_READY = true →
      s.writesRecords = true → s.unacked < s.slots →
      (∃ t, exec (.recordWritten true) s = .next t ∧ t.metro.next = s.metro.next + 1 ∧
        (s.unacked + 1 < s.slots → t.metro.pend = s.metro.pend.tail) ∧
        t.metro.fresh = false ∧ bitOf (t.rd PANTRY.pg HDR.IRQ_STATUS_BITS) 0 = true ∧
        (∀ i < 256, (t.slotBytes (seqCount s.metro.next)).getD i 0 = (s.recBytes (if r.type = 4 then
          { r with data := r.data ++ leBytes 4 (s.rd PANTRY.pg PANTRY.LOST_INTERRUPTIONS_COUNT) } else r) s.metro.next s.logFull).getD i 0) ∧
        (r.cmd = true → t.flag PANTRY.pg PANTRY.CMD_STATUS_BUSY = false ∧ t.rd PANTRY.pg PANTRY.CMD_STATUS_RESULT = 0 ∧
          t.rd PANTRY.pg PANTRY.CMD_SEQ_LO_SEQ = s.metro.next % 2 ^ 32)) ∧
      (∃ t, exec (.recordWritten false) s = .next t ∧ t.flag PANTRY.pg PANTRY.STATUS_FAULT = true ∧
        t.metro = { s.metro with pend := { r with begun := true } :: s.metro.pend.tail } ∧ t.pantry = s.pantry ∧
        t.rd PANTRY.pg PANTRY.WRITE_FAULTS_COUNT = satInc 16 (s.rd PANTRY.pg PANTRY.WRITE_FAULTS_COUNT) ∧
        bitOf (t.rd PANTRY.pg HDR.IRQ_STATUS_BITS) 2 = true ∧ samePagesBut [PANTRY.pg] s t)) ∧
    (∀ ok, s.flag PANTRY.pg PANTRY.STATUS_FAULT = true ∨ s.flag PANTRY.pg PANTRY.STATUS_READY = false →
      exec (.recordWritten ok) s = .next s) ∧
    (∀ ok, s.metro.pend = [] ∨ s.writesRecords = false → s.metro.ackDue = false → ok = true ∨ s.metro.latched = [] → exec (.recordWritten ok) s = .next s) ∧
    (s.metro.pend = [] ∨ s.writesRecords = false → s.flag PANTRY.pg PANTRY.STATUS_FAULT = false → s.flag PANTRY.pg PANTRY.STATUS_READY = true →
      (s.metro.ackDue = true → exec (.recordWritten true) s = .next { s with metro := { s.metro with ackDue := false } }) ∧
      (s.metro.ackDue = true ∨ s.metro.latched ≠ [] →
        ∃ t, exec (.recordWritten false) s = .next t ∧ t.flag PANTRY.pg PANTRY.STATUS_FAULT = true ∧
          t.metro = { s.metro with ackDue := false } ∧
          t.rd PANTRY.pg PANTRY.WRITE_FAULTS_COUNT = satInc 16 (s.rd PANTRY.pg PANTRY.WRITE_FAULTS_COUNT) ∧ samePagesBut [PANTRY.pg] s t)) ∧
    (∀ r, s.metro.pend.head? = some r → r.type ≠ 4 → s.writesRecords = true → s.slots ≤ s.unacked → s.metro.pend.length ≤ 16 →
      s.metro.restoring = false →
      exec (.recordWritten true) s = .next s) ∧
    (∀ ok, s.flag PANTRY.pg PANTRY.STATUS_FAULT = false ∨ s.flag DEBUG.pg DEBUG.HALTED_MET = true → exec (.pantryRewriteRetry ok) s = .next s) ∧
    (s.flag PANTRY.pg PANTRY.STATUS_FAULT = true → s.flag DEBUG.pg DEBUG.HALTED_MET = false →
      (∃ t, exec (.pantryRewriteRetry true) s = .next t ∧ t.flag PANTRY.pg PANTRY.STATUS_FAULT = false) ∧
      (∃ t, exec (.pantryRewriteRetry false) s = .next t ∧ t.flag PANTRY.pg PANTRY.STATUS_FAULT = true ∧ t.metro = s.metro ∧
        t.rd PANTRY.pg PANTRY.WRITE_FAULTS_COUNT = satInc 16 (s.rd PANTRY.pg PANTRY.WRITE_FAULTS_COUNT))) ∧
    (∀ d : Fin 3, s.metroRuns = true → s.metro.cfg = true → s.lifecycle ≠ lcBLANK →
      (∃ t, exec (.pantryReady (some d)) s = .next t ∧
        t.flag PANTRY.pg PANTRY.STATUS_READY = decide (s.rd PANTRY.pg PANTRY.CFG_SIZE ≤ d.val)) ∧
      (∃ t, exec (.pantryReady none) s = .next t ∧ t.flag PANTRY.pg PANTRY.STATUS_READY = false) ∧
      (s.flag PANTRY.pg PANTRY.STATUS_READY = false → ∃ t, exec (.rdidRetry (some d)) s = .next t ∧
        t.flag PANTRY.pg PANTRY.STATUS_READY = decide (s.rd PANTRY.pg PANTRY.CFG_SIZE ≤ d.val)) ∧
      (s.flag PANTRY.pg PANTRY.STATUS_READY = true → exec (.rdidRetry (some d)) s = .next s)) ∧
    (∀ d : Option (Fin 3), s.metroRuns = false ∨ s.metro.cfg = false ∨ s.lifecycle = lcBLANK →
      exec (.pantryReady d) s = .next s ∧ exec (.rdidRetry d) s = .next s)

/-- Acknowledgements and reads. ACK_SEQ outside the epoch, below the value in force or at or above the next SEQ is refused with 0x03; a read
fetches the record of its SEQ into RECBUF or says why not (R574, R578). Snapshots and the restore. A period and a power-fail warning ask for
a snapshot of a partition that runs; a verified one is the newest, and after a power fail no record not yet begun remains; the restore takes
START_COUNT on from the newest snapshot that verifies, with a test chain of its own in PROVISIONED, and in SEALED a Pantry that is blank or
foreign starts a new epoch, whose GENESIS carries START_COUNT 0 (R579, R580, R582, R583). What stays of the waiting records at a PFW
snapshot, the test chain, the restore of RETURNED and RESTORED after its last record are log entry 39. -/
def Obligations.PantryReadsSnapshotsAndRestore : Prop :=
  (∀ (s : State) (ini : Initiator) (v : Word), Canonical s →
    (s.admits ini PANTRY.pg 0x060 v.toNat = true →
      ∃ t, exec (.ackSeqWrite ini v) s = .next t ∧
        (s.ackBad v.toNat = true → refusal s t PANTRY.pg 0x03 0x060 ini) ∧
        (s.ackBad v.toNat = false → t.pantry = { s.pantry with ack := some (s.metro.ackHi * 2 ^ 32 + v.toNat) } ∧
          t.rd PANTRY.pg PANTRY.ACK_SEQ_LO_SEQ = v.toNat ∧ t.metro = { s.metro with ackDue := true })) ∧
    (s.admits ini PANTRY.pg 0x070 v.toNat = true →
      ∃ t, exec (.readSeqWrite ini v) s = .next t ∧ t.flag PANTRY.pg PANTRY.READ_STATUS_BUSY = true ∧
        t = { s with regs := t.regs, resp := ⟨.ok, []⟩, metro := { s.metro with
          read := some (s.rd PANTRY.pg PANTRY.READ_SEQ_HI_SEQ * 2 ^ 32 + v.toNat) } } ∧ samePagesBut [PANTRY.pg] s t) ∧
    (s.live = true → ∀ q, s.metro.read = some q →
      ∃ t, exec (.readDone false) s = .next t ∧ t.flag PANTRY.pg PANTRY.READ_STATUS_BUSY = false ∧
        bitOf (t.rd PANTRY.pg HDR.IRQ_STATUS_BITS) 4 = true ∧ t.metro = { s.metro with read := none } ∧ t.pantry = s.pantry ∧
        (s.slots ≠ 0 → recField (s.slotBytes (seqCount q)) 0 1 = 1 → recField (s.slotBytes (seqCount q)) 0x10 8 = q →
          q / 2 ^ 56 = s.metro.next / 2 ^ 56 → q < s.metro.next → t.rd PANTRY.pg PANTRY.READ_STATUS_RESULT = 0 ∧
          ∀ w < 64, t.rd PANTRY.pg PANTRY.RECBUF_BYTES w = recField (s.slotBytes (seqCount q)) (4 * w) 4) ∧
        (s.metro.next ≤ q ∨ q / 2 ^ 56 ≠ s.metro.next / 2 ^ 56 → t.rd PANTRY.pg PANTRY.READ_STATUS_RESULT = 1 ∧
          ∀ w < 64, t.rd PANTRY.pg PANTRY.RECBUF_BYTES w = s.rd PANTRY.pg PANTRY.RECBUF_BYTES w)) ∧
    (s.live = true → s.metro.read ≠ none →
      ∃ t, exec (.readDone true) s = .next t ∧ t.rd PANTRY.pg PANTRY.READ_STATUS_RESULT = 2) ∧
    (∀ memErr, s.metro.read = none → exec (.readDone memErr) s = .next s)) ∧
  (∀ s : State, Canonical s → s.live = true →
    (s.metroRuns = true →
      exec .periodicSnapshot s = .next { s with metro := { s.metro with snapDue := s.metro.snapDue ++ [1] } } ∧
      exec .pfwAssert s = .next { s with metro := { s.metro with snapDue := s.metro.snapDue ++ [2] } }) ∧
    (s.metroRuns = false → exec .periodicSnapshot s = .next s ∧ exec .pfwAssert s = .next s) ∧
    (s.metro.latched = [] → exec .snapshotVerified s = .next s) ∧
    (∀ x more, s.metro.latched = x :: more →
      ∃ t, exec .snapshotVerified s = .next t ∧ t.pantry = { s.pantry with snaps := (x :: s.pantry.snaps).take 2 } ∧
        t.metro.latched = more ∧ t.rd PANTRY.pg PANTRY.SNAP_COUNT_COUNT = (s.rd PANTRY.pg PANTRY.SNAP_COUNT_COUNT + 1) % 2 ^ 32 ∧
        (x.cause = 2 → t.metro.pend = s.metro.pend.take (s.metro.pend.countP fun r => r.begun)) ∧ (x.cause ≠ 2 → t.metro.pend = s.metro.pend) ∧ t.metro.next = s.metro.next ∧
        t.mode = s.mode) ∧
    (∀ blank foreign newOk oldOk : Bool, s.mode = mBOOT ∨ s.flag METRO.pg METRO.STATUS_RUNNING = false ∨
        s.flag METRO.pg METRO.STATUS_FW_OK = false ∨ s.flag METRO.pg METRO.STATUS_RESTORED = true ∨ s.metro.restoring = true ∨
        s.flag PANTRY.pg PANTRY.STATUS_READY = false ∨ s.lifecycle = lcBLANK →
      exec (.metroRestore blank foreign newOk oldOk) s = .next s) ∧
    (∀ newOk oldOk : Bool, s.mode ≠ mBOOT → s.flag METRO.pg METRO.STATUS_RUNNING = true → s.flag METRO.pg METRO.STATUS_FW_OK = true →
      s.flag METRO.pg METRO.STATUS_RESTORED = false → s.metro.restoring = false → s.flag PANTRY.pg PANTRY.STATUS_READY = true →
      (s.lifecycle = lcPROVISIONED →
        ∃ t, exec (.metroRestore false false newOk oldOk) s = .next t ∧ t.restores ∧
          (s.pantry.bound = false → t.metro.startCount = 1) ∧
          (∀ x, s.pantry.bound = true → s.pantry.snaps.head? = some x → s.snapshotOk x newOk = true → x.startCount + 1 ≤ t.metro.startCount) ∧
          t.pantry.ack = none ∧ t.sec.otp = s.sec.otp ∧ t.mode = s.mode) ∧
      (s.lifecycle = lcRETURNED →
        ∃ t, exec (.metroRestore false false newOk oldOk) s = .next t ∧ t.restores ∧
          (s.pantry.bound = false → t.metro.startCount = s.metro.startCount + 1) ∧
          (∀ x, s.pantry.bound = true → s.pantry.snaps.head? = some x → s.snapshotOk x newOk = true → x.startCount + 1 ≤ t.metro.startCount) ∧
          t.metro.pend.length ≤ s.metro.pend.length ∧ t.sec.otp = s.sec.otp ∧ t.mode = s.mode) ∧
      (s.lifecycle = lcSEALED → s.pantry.bound = true →
        ∃ t, exec (.metroRestore false false newOk oldOk) s = .next t ∧ t.restores ∧
          (∀ x, s.pantry.snaps.head? = some x → s.snapshotOk x newOk = true → x.startCount + 1 ≤ t.metro.startCount) ∧
          t.sec.otp = s.sec.otp ∧ t.mode = s.mode) ∧
      (∀ foreign : Bool, s.lifecycle = lcSEALED → s.epoch < 255 →
        ∃ t, exec (.metroRestore true foreign newOk oldOk) s = .next t ∧ t.restores ∧
          t.metro.startCount = 1 ∧ (∃ r ∈ t.metro.pend, r.type = 1 ∧ r.start = 0) ∧ (∀ i, s.otpBit i = true → t.otpBit i = true) ∧ t.otpBit (otpEpochs + s.epoch) = true ∧
          (∀ m : Fin 9, (t.meter m).imp = 0 ∧ (t.meter m).exp = 0))))

/-! ### Safety inputs, pairs, watchdogs, safety frames (11) -/

/-- Samples, test pulses and pairs. A sample shows the raw levels, all 0 without the inter-die link, and lets a channel that is not masked follow
a level that held for its filter time; a pulse starts at its place in the period on an output that runs, and ends after its width; at the safety tick a pair with a faulted channel is in FAULT, one that reads its safe pattern is
SAFE; a discrepancy that lasts DISC_MS is FAULT 0x1; an acknowledgement is kept for pairs in WAIT_ACK. -/
def Obligations.SafetyInputsAndPairs : Prop :=
  ∀ s : State, Canonical s →
    (∀ (raw : BitVec 24) (tp : BitVec 4), s.live = true → ∀ lv, (if s.flag SYS.pg SYS.STATUS_DIE_LINK_OK = true then raw else 0) = lv →
      (s.safetyRuns = false → exec (.safeioSample raw tp) s = .next s) ∧
      (s.safetyRuns = true → s.safeEn = false → exec (.safeioSample raw tp) s = .next (s.wr SAFEIO.pg SAFEIO.RAW_CH 0 lv.toNat)) ∧
      (s.safetyRuns = true → s.safeEn = true →
        ∃ t, exec (.safeioSample raw tp) s = .next t ∧ t.rd SAFEIO.pg SAFEIO.RAW_CH = lv.toNat ∧ t.mode = s.mode ∧
          ∀ c : Fin 24,
            (s.chMasked c = true → (t.sChan c).deb = (s.sChan c).deb ∧ (t.sChan c).run = (s.sChan c).run) ∧
            (s.chMasked c = false → lv.getLsbD c = (s.sChan c).deb → (t.sChan c).deb = (s.sChan c).deb ∧ (t.sChan c).run = 0) ∧
            (s.chMasked c = false → lv.getLsbD c ≠ (s.sChan c).deb → s.rd SAFEIO.pg SAFEIO.CHCFG_FILT_MS c * 10 ≤ (s.sChan c).run →
              (t.sChan c).deb = lv.getLsbD c ∧ (t.sChan c).run = 0) ∧
            (s.chMasked c = false → lv.getLsbD c ≠ (s.sChan c).deb → (s.sChan c).run < s.rd SAFEIO.pg SAFEIO.CHCFG_FILT_MS c * 10 →
              (t.sChan c).deb = (s.sChan c).deb ∧ (t.sChan c).run = (s.sChan c).run + 1))) ∧
    (∀ k : Fin 4, s.live = true →
      (s.tpRuns k = false ∨ s.pulseDue k = false → exec (.testPulseStart k) s = .next s) ∧
      (s.tpRuns k = true → s.pulseDue k = true → exec (.testPulseStart k) s = .next
        (s.setTp k { s.tpOut k with pulse := some (0, s.rd SAFEIO.pg SAFEIO.TPCFG_WIDTH), start := s.cyc, low := true })) ∧
      ((s.tpOut k).pulse = none → exec (.testPulseEnd k) s = .next (s.setTp k { s.tpOut k with low := false })) ∧
      (∀ n w, (s.tpOut k).pulse = some (n, w) →
        (25000 * w ≤ s.since (s.tpOut k).start → exec (.testPulseEnd k) s = .next (s.setTp k { s.tpOut k with low := false })) ∧
        (s.since (s.tpOut k).start < 25000 * w → exec (.testPulseEnd k) s = .next s))) ∧
    (∀ q : Fin 8, s.live = true → s.safetyRuns = true → s.safeEn = true → s.commitPending SAFEIO.pg = false →
      s.commitPending SAFENET.pg = false → s.pairMode q ≠ 0 →
      ∃ t, exec .safetyTick s = .next t ∧
        (s.pairBad q = true → t.rd SAFEIO.pg SAFEIO.PAIRSTAT_STATE q = pFAULT) ∧
        (s.pairBad q = false → s.pairSafe q = true → t.rd SAFEIO.pg SAFEIO.PAIRSTAT_STATE q = pSAFE ∧ t.pairValue q = false) ∧
        (s.pairBad q = false → s.pairActive q = true → s.pairSafe q = false → s.rd SAFEIO.pg SAFEIO.PAIRSTAT_STATE q = pSAFE →
          s.flag SAFEIO.pg SAFEIO.PAIRCFG_RESTART q = true → t.rd SAFEIO.pg SAFEIO.PAIRSTAT_STATE q = pWAIT ∧ t.pairValue q = false) ∧
        (s.pairBad q = false → s.pairActive q = true → s.rd SAFEIO.pg SAFEIO.PAIRSTAT_STATE q = pWAIT → (s.pairUnit q).ack = true →
          t.rd SAFEIO.pg SAFEIO.PAIRSTAT_STATE q = pACTIVE ∧ t.pairValue q = true) ∧ t.mode = s.mode) ∧
    (s.live = true → s.safetyRuns = false → s.commitPending SAFEIO.pg = false → s.commitPending SAFENET.pg = false →
      exec .safetyTick s = .next s) ∧
    (∀ q : Fin 8, s.safetyRuns = false ∨ s.safeEn = false ∨ s.pairMode q = 0 → exec (.pairDiscrepancyFault q) s = .next s) ∧
    (∀ q : Fin 8, s.live = true → s.safetyRuns = true → s.safeEn = true → s.pairMode q ≠ 0 → s.pairActive q = false →
      s.pairSafe q = false → s.pairBad q = false → s.rd SAFEIO.pg SAFEIO.PAIRSTAT_STATE q ≠ pFAULT →
      0 < s.rd SAFEIO.pg SAFEIO.PAIRCFG_DISC_MS q →
      ∃ t, exec (.pairDiscrepancyFault q) s = .next t ∧ t.rd SAFEIO.pg SAFEIO.PAIRSTAT_STATE q = pFAULT ∧
        t.rd SAFEIO.pg SAFEIO.PAIRSTAT_CAUSE q = 1 ∧ t.pairValue q = false ∧
        t.rd SAFEIO.pg SAFEIO.PAIRSTAT_FAULT_COUNT q = satInc 8 (s.rd SAFEIO.pg SAFEIO.PAIRSTAT_FAULT_COUNT q) ∧
        bitOf (t.rd SAFEIO.pg HDR.IRQ_STATUS_BITS) 1 = true ∧ samePagesBut [SAFEIO.pg, SAFENET.pg, FUSE.pg] s t) ∧
    (∀ (ini : Initiator) (mask : Byte), s.admits ini SAFEIO.pg 0x050 mask.toNat = true →
      ∃ t, exec (.safeioAck ini mask) s = .next t ∧ t = { s.done with safety := t.safety } ∧
        ∀ q : Fin 8, t.pairUnit q = if mask.getLsbD q = true ∧ s.rd SAFEIO.pg SAFEIO.PAIRSTAT_STATE q = pWAIT then
          { s.pairUnit q with ack := true } else s.pairUnit q)

/-- The watchdogs. A service by another than the watchdog's pair is refused with 0x01; one too early or with the wrong token expires it; a right
one restarts it with the other token expected; an expiry sets EXPIRED, source 59 and SAFE_STOP cause 0x13; WDCLEAR by a host in CONFIG
clears it, else it is refused with 0x05 (R624, R625, R627); that a service of a watchdog that is expired or not enabled changes nothing is log
entry 41, and that a write of WDCLEAR without a 1 is no refusal log entry 28. Safety frames. A copy for no enabled channel does nothing, one that fails its
check is counted; the first accepted copy takes a channel from WAIT to WAIT_ACK or STOP and opens the compare window; a window that closes
without the other copy counts MISS and sets DEGRADED; the channel watchdog is FAULT 0x1; ACK takes WAIT_ACK to RUN (R616 to R619). -/
def Obligations.WatchdogsAndSafetyFrames : Prop :=
  (∀ (s : State) (x : Fin 2), Canonical s →
    (∀ (ini : Initiator) (token : Byte), s.admits ini SAFEIO.pg (0x144 + 8 * x) token.toNat = true → ∀ w, s.wdog x = w →
      ∃ t, exec (.wdsvc ini x token) s = .next t ∧
        (ini ≠ wdPair x → refusal s t SAFEIO.pg 0x01 (0x144 + 8 * x) ini) ∧
        (ini = wdPair x → s.flag SAFEIO.pg SAFEIO.WDCFG_EN x = true → bitOf (s.rd SAFEIO.pg SAFEIO.WDSTAT_EXPIRED) x = false →
          (s.since w.last < 250000 * s.rd SAFEIO.pg SAFEIO.WDCFG_WIN_MIN x ∨ token ≠ (if w.next5A = true then 0x5A else 0xA5) →
            bitOf (t.rd SAFEIO.pg SAFEIO.WDSTAT_EXPIRED) x = true ∧ t.srcActive 59 = true ∧
            (s.stoppable = true → (0x13, s.cyc) ∈ t.modes.causes)) ∧
          (250000 * s.rd SAFEIO.pg SAFEIO.WDCFG_WIN_MIN x ≤ s.since w.last → token = (if w.next5A = true then 0x5A else 0xA5) →
            t = s.done.setWdog x { count := 0, next5A := !w.next5A, last := s.cyc })) ∧
        (ini = wdPair x → s.flag SAFEIO.pg SAFEIO.WDCFG_EN x = false ∨ bitOf (s.rd SAFEIO.pg SAFEIO.WDSTAT_EXPIRED) x = true →
          t = s.done)) ∧
    (s.live = true →
      (s.wdRuns x = false → exec (.watchdogExpiry x) s = .next s) ∧
      (s.wdRuns x = true →
        ∃ t, exec (.watchdogExpiry x) s = .next t ∧ bitOf (t.rd SAFEIO.pg SAFEIO.WDSTAT_EXPIRED) x = true ∧ t.srcActive 59 = true ∧
          t.flag SAFEIO.pg SAFEIO.STATUS_WDOG = true ∧ bitOf (t.rd SAFEIO.pg HDR.IRQ_STATUS_BITS) 4 = true ∧
          (s.stoppable = true → (0x13, s.cyc) ∈ t.modes.causes) ∧ t.mode = s.mode)) ∧
    (∀ (ini : Initiator) (mask : BitVec 2), s.admits ini SAFEIO.pg 0x154 mask.toNat = true →
      ∃ t, exec (.wdclear ini mask) s = .next t ∧
        (isHost ini = false ∨ s.mode ≠ mCONFIG → mask ≠ 0 → refusal s t SAFEIO.pg 0x05 0x154 ini) ∧
        (isHost ini = true → s.mode = mCONFIG → ∀ y : Fin 2,
          (mask.getLsbD y = true → bitOf (t.rd SAFEIO.pg SAFEIO.WDSTAT_EXPIRED) y = false ∧
            (bitOf (s.rd SAFEIO.pg SAFEIO.WDSTAT_EXPIRED) y = true → t.wdog y = { last := s.cyc })) ∧
          (mask.getLsbD y = false → bitOf (t.rd SAFEIO.pg SAFEIO.WDSTAT_EXPIRED) y = bitOf (s.rd SAFEIO.pg SAFEIO.WDSTAT_EXPIRED) y ∧
            t.wdog y = s.wdog y)))) ∧
  (∀ (s : State) (q : Fin 8), Canonical s →
    (∀ (p : Fin 2) (pay : List Byte), s.portLive p = false ∨ s.safetyRuns = false ∨ s.flag SAFENET.pg SAFENET.CTRL_EN = false ∨
        pay.length < 4 →
      exec (.safenetCopy p pay) s = .next s) ∧
    (∀ (p : Fin 2) (pay : List Byte), s.live = true → s.portLive p = true → s.safetyRuns = true →
        s.flag SAFENET.pg SAFENET.CTRL_EN = true → 4 ≤ pay.length →
      ((∀ r < 8, s.flag SAFENET.pg SAFENET.CH_CFG_EN r = true → s.rd SAFENET.pg SAFENET.CH_CFG_ID r ≠ payNat pay 2 2) →
        exec (.safenetCopy p pay) s = .next s) ∧
      (s.flag SAFENET.pg SAFENET.CH_CFG_EN q = true → s.rd SAFENET.pg SAFENET.CH_CFG_ID q = payNat pay 2 2 →
        (∀ r < 8, r ≠ q.val → s.rd SAFENET.pg SAFENET.CH_CFG_ID r ≠ payNat pay 2 2) →
        (s.netOk q pay = false →
          ∃ t, exec (.safenetCopy p pay) s = .next t ∧ t = { s with regs := t.regs } ∧
            t.rd SAFENET.pg SAFENET.CH_ERR_CRC_ERR q = satInc 16 (s.rd SAFENET.pg SAFENET.CH_ERR_CRC_ERR q) ∧
            sameRegsBut [SAFENET.CH_ERR_CRC_ERR.key SAFENET.pg q] s t) ∧
        (s.netOk q pay = true → s.netState q = nWAIT → (s.netChan q).win = none →
          ∃ t, exec (.safenetCopy p pay) s = .next t ∧ t.rd SAFENET.pg SAFENET.CH_SEQ_LAST_SEQ q = payNat pay 4 4 ∧
            t.netChan q = { win := some (p, pay.take 8), wd := 0, took := some s.cyc } ∧
            t.netState q = (if bitOf (payNat pay 1 1) 0 = true then nACK else nSTOP) ∧ t.mode = s.mode) ∧
        (s.netOk q pay = true → s.netState q ≠ nWAIT →
          ∀ d, (payNat pay 4 4 + 2 ^ 32 - s.rd SAFENET.pg SAFENET.CH_SEQ_LAST_SEQ q) % 2 ^ 32 = d →
          (d = 0 → (s.netChan q).win = none → exec (.safenetCopy p pay) s = .next s) ∧
          (∀ p0 b, d = 0 → (s.netChan q).win = some (p0, b) →
            (p = p0 → exec (.safenetCopy p pay) s = .next s) ∧
            (p ≠ p0 → b = pay.take 8 →
              ∃ t, exec (.safenetCopy p pay) s = .next t ∧ t.netChan q = { s.netChan q with win := none } ∧
                bitOf (t.rd SAFENET.pg SAFENET.STATUS_DEGRADED) q = false ∧ t.netState q = s.netState q) ∧
            (p ≠ p0 → b ≠ pay.take 8 → s.netState q ≠ nFAULT →
              ∃ t, exec (.safenetCopy p pay) s = .next t ∧ t.netState q = nFAULT ∧ t.rd SAFENET.pg SAFENET.CH_STAT_CAUSE q = 2)) ∧
          (0 < d → d ≤ s.rd SAFENET.pg SAFENET.CH_WD_MAX_GAP q → (s.netChan q).win = none →
            ∃ t, exec (.safenetCopy p pay) s = .next t ∧ t.rd SAFENET.pg SAFENET.CH_SEQ_LAST_SEQ q = payNat pay 4 4 ∧
              t.netChan q = { win := some (p, pay.take 8), wd := 0, took := some s.cyc } ∧ t.mode = s.mode) ∧
          (s.rd SAFENET.pg SAFENET.CH_WD_MAX_GAP q < d → 0 < d → d < 2 ^ 31 → s.netState q ≠ nFAULT →
            ∃ t, exec (.safenetCopy p pay) s = .next t ∧ t.netState q = nFAULT ∧ t.rd SAFENET.pg SAFENET.CH_STAT_CAUSE q = 3) ∧
          (s.rd SAFENET.pg SAFENET.CH_WD_MAX_GAP q < d → 2 ^ 31 ≤ d →
            ∃ t, exec (.safenetCopy p pay) s = .next t ∧ t = { s with regs := t.regs } ∧
              t.rd SAFENET.pg SAFENET.CH_ERR_OLD q = satInc 16 (s.rd SAFENET.pg SAFENET.CH_ERR_OLD q) ∧
              sameRegsBut [SAFENET.CH_ERR_OLD.key SAFENET.pg q] s t)))) ∧
    (s.live = true →
      ((s.netChan q).win = none → exec (.safenetCompareTimeout q) s = .next s) ∧
      (∀ p b, (s.netChan q).win = some (p, b) →
        ∃ t, exec (.safenetCompareTimeout q) s = .next t ∧ t.netChan q = { s.netChan q with win := none } ∧
          bitOf (t.rd SAFENET.pg SAFENET.STATUS_DEGRADED) q = true ∧ t.netState q = s.netState q ∧
          (p = 0 → t.rd SAFENET.pg SAFENET.CH_MISS_MISS_B q = satInc 16 (s.rd SAFENET.pg SAFENET.CH_MISS_MISS_B q)) ∧
          (p = 1 → t.rd SAFENET.pg SAFENET.CH_MISS_MISS_A q = satInc 16 (s.rd SAFENET.pg SAFENET.CH_MISS_MISS_A q)) ∧
          samePagesBut [SAFENET.pg] s t)) ∧
    (s.safetyRuns = false ∨ s.flag SAFENET.pg SAFENET.CTRL_EN = false ∨ s.flag SAFENET.pg SAFENET.CH_CFG_EN q = false ∨
        (s.netChan q).took = some s.cyc →
      exec (.safenetWatchdogFault q) s = .next s) ∧
    (s.live = true → s.safetyRuns = true → s.flag SAFENET.pg SAFENET.CTRL_EN = true → s.flag SAFENET.pg SAFENET.CH_CFG_EN q = true →
      s.netState q ≠ nFAULT → (s.netChan q).took ≠ some s.cyc →
      ∃ t, exec (.safenetWatchdogFault q) s = .next t ∧ t.netState q = nFAULT ∧ t.rd SAFENET.pg SAFENET.CH_STAT_CAUSE q = 1 ∧
        t.flag SAFENET.pg SAFENET.CH_STAT_VALUE q = false ∧ bitOf (t.rd SAFENET.pg HDR.IRQ_STATUS_BITS) 1 = true) ∧
    (∀ (ini : Initiator) (mask : Byte), s.admits ini SAFENET.pg 0x044 mask.toNat = true →
      ∃ t, exec (.safenetAck ini mask) s = .next t ∧ t.resp = ⟨.ok, []⟩ ∧
        t.netState q = (if mask.getLsbD q = true ∧ s.netState q = nACK then nRUN else s.netState q) ∧
        (mask.getLsbD q = true → s.netState q = nACK → t.flag SAFENET.pg SAFENET.CH_STAT_VALUE q = true)))

/-! ### Gate drivers (12) -/

/-- The supply of the gate drivers and the motor bus. A gate supply below its threshold turns the chopper off and, armed, locks every leg into
OFF; at threshold plus 0.4 V the lock-out ends (R657). The chopper follows CHOP_ON and CHOP_OFF and its time limit (R659, R660). An
overvoltage latches MBOV and puts every leg in ARMED or RUN in OFF or BRAKE (R661); CLEAR_OV ends that once the bus is at or below CHOP_OFF,
else it is refused (R662). All of it acts in every power state (R663); below or above its threshold a voltage is only measured. -/
def Obligations.GateSupplyAndMotorBus : Prop :=
  ∀ (s : State) (v : BitVec 12), Canonical s →
    (s.pwr.held = false → v.toNat < s.vgdThr →
      ∃ t, exec (.vgdLockout v) s = .next t ∧ t.flag CHIMNEY.pg CHIMNEY.STATUS_VGD_OK = false ∧
        t.flag CHIMNEY.pg CHIMNEY.STATUS_CHOP_ON = false ∧ t.rd CHIMNEY.pg CHIMNEY.MEAS_VGD_DV = v.toNat ∧ t.mode = s.mode ∧
        (s.flag CHIMNEY.pg CHIMNEY.CFG_UV_EN = true → s.flag CHIMNEY.pg CHIMNEY.STATUS_VGD_UV = false →
          t.flag CHIMNEY.pg CHIMNEY.STATUS_VGD_UV = true ∧
          t.rd CHIMNEY.pg CHIMNEY.VGD_UV_COUNT_COUNT = satInc 16 (s.rd CHIMNEY.pg CHIMNEY.VGD_UV_COUNT_COUNT) ∧
          ∀ n : Fin 12, t.legState n = gOFF)) ∧
    (s.pwr.held = false → s.vgdThr ≤ v.toNat → exec (.vgdLockout v) s = .next (s.wr CHIMNEY.pg CHIMNEY.MEAS_VGD_DV 0 v.toNat)) ∧
    (s.pwr.held = false → v.toNat < s.vgdThr + 4 → exec (.vgdLockoutEnd v) s = .next (s.wr CHIMNEY.pg CHIMNEY.MEAS_VGD_DV 0 v.toNat)) ∧
    (s.pwr.held = false → s.mbovRuns = false ∨ v.toNat < 5 * s.rd CHIMNEY.pg CHIMNEY.VM_THR_OV_TRIP →
      exec (.mbovTrip v) s = .next (s.wr CHIMNEY.pg CHIMNEY.MEAS_VM_DV 0 v.toNat)) ∧
    (s.pwr.held = false → s.vgdThr + 4 ≤ v.toNat →
      ∃ t, exec (.vgdLockoutEnd v) s = .next t ∧ t.flag CHIMNEY.pg CHIMNEY.STATUS_VGD_OK = true ∧
        t.flag CHIMNEY.pg CHIMNEY.STATUS_VGD_UV = false ∧ t.rd CHIMNEY.pg CHIMNEY.MEAS_VGD_DV = v.toNat ∧ t.mode = s.mode) ∧
    (s.pwr.held = false →
      ∃ t, exec (.chopOn v) s = .next t ∧ t.rd CHIMNEY.pg CHIMNEY.MEAS_VM_DV = v.toNat ∧ t = { s with regs := t.regs } ∧
        t.flag CHIMNEY.pg CHIMNEY.STATUS_CHOP_ON = (s.flag CHIMNEY.pg CHIMNEY.STATUS_CHOP_ON ||
          (s.mbovRuns && s.flag CHIMNEY.pg CHIMNEY.STATUS_VGD_OK && !s.chimney.rest &&
            decide (5 * s.rd CHIMNEY.pg CHIMNEY.VM_THR_CHOP_ON ≤ v.toNat))) ∧ samePagesBut [CHIMNEY.pg] s t) ∧
    (s.pwr.held = false →
      ∃ t, exec (.chopOff v) s = .next t ∧ t.rd CHIMNEY.pg CHIMNEY.MEAS_VM_DV = v.toNat ∧ t = { s with regs := t.regs } ∧
        t.flag CHIMNEY.pg CHIMNEY.STATUS_CHOP_ON = (s.flag CHIMNEY.pg CHIMNEY.STATUS_CHOP_ON &&
          !(s.mbovRuns && decide (v.toNat ≤ 5 * s.rd CHIMNEY.pg CHIMNEY.VM_THR_CHOP_OFF))) ∧ samePagesBut [CHIMNEY.pg] s t) ∧
    (s.pwr.held = false →
      (s.flag CHIMNEY.pg CHIMNEY.STATUS_CHOP_ON = false → exec .chopLimit s = .next s) ∧
      (s.flag CHIMNEY.pg CHIMNEY.STATUS_CHOP_ON = true →
        ∃ t, exec .chopLimit s = .next t ∧ t.flag CHIMNEY.pg CHIMNEY.STATUS_CHOP_ON = false ∧
          t.flag CHIMNEY.pg CHIMNEY.STATUS_CHOP_LIMIT = true ∧ t.chimney = { s.chimney with rest := true } ∧
          bitOf (t.rd CHIMNEY.pg HDR.IRQ_STATUS_BITS) 2 = true ∧ samePagesBut [CHIMNEY.pg] s t) ∧
      ∃ t, exec (.chopRestEnd v) s = .next t ∧ t.chimney = { s.chimney with rest := false } ∧ samePagesBut [CHIMNEY.pg] s t ∧
        (s.flag CHIMNEY.pg CHIMNEY.STATUS_CHOP_ON = false → s.mbovRuns = true → s.flag CHIMNEY.pg CHIMNEY.STATUS_VGD_OK = true →
          5 * s.rd CHIMNEY.pg CHIMNEY.VM_THR_CHOP_ON ≤ v.toNat → t.flag CHIMNEY.pg CHIMNEY.STATUS_CHOP_ON = true)) ∧
    (s.pwr.held = false → s.mbovRuns = true → 5 * s.rd CHIMNEY.pg CHIMNEY.VM_THR_OV_TRIP ≤ v.toNat →
      ∃ t, exec (.mbovTrip v) s = .next t ∧ t.flag CHIMNEY.pg CHIMNEY.STATUS_MBOV = true ∧
        t.rd CHIMNEY.pg CHIMNEY.OV_COUNT_COUNT = satInc 16 (s.rd CHIMNEY.pg CHIMNEY.OV_COUNT_COUNT) ∧
        bitOf (t.rd CHIMNEY.pg HDR.IRQ_STATUS_BITS) 1 = true ∧ t.mode = s.mode ∧
        ∀ n : Fin 12, s.legState n = gARMED ∨ s.legState n = gRUN →
          t.legState n = (if s.flag CHIMNEY.pg CHIMNEY.CFG_OV_ACTION = true then gBRAKE else gOFF)) ∧
    (∀ ini : Initiator, s.admits ini CHIMNEY.pg 0x008 1 = true →
      ∃ t, exec (.clearOv ini v) s = .next t ∧ t.rd CHIMNEY.pg CHIMNEY.MEAS_VM_DV = v.toNat ∧ t.resp = ⟨.ok, []⟩ ∧
        (5 * s.rd CHIMNEY.pg CHIMNEY.VM_THR_CHOP_OFF < v.toNat → t.refusedWith CHIMNEY.pg 0x05 0x008 ini ∧
          t.flag CHIMNEY.pg CHIMNEY.STATUS_MBOV = s.flag CHIMNEY.pg CHIMNEY.STATUS_MBOV ∧ ∀ n : Fin 12, t.legState n = s.legState n) ∧
        (v.toNat ≤ 5 * s.rd CHIMNEY.pg CHIMNEY.VM_THR_CHOP_OFF → t.flag CHIMNEY.pg CHIMNEY.STATUS_MBOV = false ∧
          ∀ n : Fin 12, t.legState n ≠ gBRAKE)) ∧
    (∀ ini : Initiator, s.admits ini CHIMNEY.pg 0x008 2 = true →
      ∃ t, exec (.clearFirst ini) s = .next t ∧ t.flag CHIMNEY.pg CHIMNEY.FIRST_FAULT_VALID = false ∧
        t.flag CHIMNEY.pg CHIMNEY.FIRST_FAULT_LEG2_VALID = false ∧ t = { s.done with regs := t.regs } ∧
        samePagesBut [CHIMNEY.pg] s t ∧ ∀ n : Fin 12, t.legState n = s.legState n)

/-- The legs. A drain-source voltage above its threshold for its time on a switch that is commanded on puts its leg in FAULT with its kind, the
other legs of the axis in OFF and the axis in FAULT, and is the first fault where none was recorded; CLEAR leaves FAULT; a bootstrap voltage
below the threshold is latched and counted; a refresh pulse comes once PERIOD_US have passed without a low-side interval; diagnostics are refused outside OFF, need 10 V, and end with the result of each phase (R653, R654, R664 to R671, R673). -/
def Obligations.LegFaultsAndDiagnostics : Prop :=
  ∀ (s : State) (n : Fin 12), Canonical s →
    (∀ d : DrainDrop, s.live = true → (s.vdsTrips n d = false → exec (.vdsFault n d) s = .next s) ∧
      (s.shortTrips n d = false → exec (.hardShort n d) s = .next s)) ∧
    (∀ d : DrainDrop, s.live = true → s.commitPending (GDRV.pg n) = false →
      (s.vdsTrips n d = true → ∃ t, exec (.vdsFault n d) s = .next t ∧ t.legState n = gFAULT ∧
        t.rd (GDRV.pg n) GDRV.STATUS_FAULT_KIND = (if d.high = true then 1 else 2) ∧
        t.rd (GDRV.pg n) GDRV.FAULT_COUNT_COUNT = satInc 16 (s.rd (GDRV.pg n) GDRV.FAULT_COUNT_COUNT) ∧
        t.flag (GDRV.pg n) GDRV.STATUS_DIAG_OK = false ∧ t.axisState (s.legAxis n) = aFAULT ∧ t.mode = s.mode ∧
        (s.flag CHIMNEY.pg CHIMNEY.FIRST_FAULT_VALID = false → t.rd CHIMNEY.pg CHIMNEY.FIRST_FAULT_LEG = n.val ∧
          t.rd CHIMNEY.pg CHIMNEY.FIRST_FAULT_KIND = (if d.high = true then 1 else 2)) ∧
        ∀ m : Fin 12, m ≠ n → s.legAxis m = s.legAxis n → s.legState m = gARMED ∨ s.legState m = gRUN →
          s.commitPending (GDRV.pg m) = false → t.legState m = gOFF) ∧
      (s.shortTrips n d = true → ∃ t, exec (.hardShort n d) s = .next t ∧ t.legState n = gFAULT ∧
        t.rd (GDRV.pg n) GDRV.STATUS_FAULT_KIND = (if d.high = true then 3 else 4) ∧
        t.rd (GDRV.pg n) GDRV.FAULT_COUNT_COUNT = satInc 16 (s.rd (GDRV.pg n) GDRV.FAULT_COUNT_COUNT) ∧
        t.flag (GDRV.pg n) GDRV.STATUS_DIAG_OK = false ∧ t.axisState (s.legAxis n) = aFAULT ∧ t.mode = s.mode)) ∧
    (∀ d : DrainDrop, s.live = true → s.commitPending (GDRV.pg n) = true →
      (s.vdsTrips n d = true → ∃ t, exec (.vdsFault n d) s = .next t ∧ t.legState n = gFAULT ∧
        t.rd (GDRV.pg n) GDRV.STATUS_FAULT_KIND = (if d.high = true then 1 else 2)) ∧
      (s.shortTrips n d = true → ∃ t, exec (.hardShort n d) s = .next t ∧ t.legState n = gFAULT ∧
        t.rd (GDRV.pg n) GDRV.STATUS_FAULT_KIND = (if d.high = true then 3 else 4))) ∧
    (∀ dv : Byte, s.live = true → s.flag (GDRV.pg n) GDRV.STATUS_GD_BOOT_UV = false → dv.toNat < s.vgdThr →
      ∃ t, exec (.bootUvLockout ⟨n, dv⟩) s = .next t ∧ t.flag (GDRV.pg n) GDRV.STATUS_GD_BOOT_UV = true ∧ t.legState n = s.legState n ∧
        t.rd (GDRV.pg n) GDRV.BOOT_UV_COUNT_COUNT = satInc 16 (s.rd (GDRV.pg n) GDRV.BOOT_UV_COUNT_COUNT) ∧
        (t.legUnit n).high = none ∧ samePagesBut [GDRV.pg n] s t) ∧
    (∀ dv : Byte, s.flag (GDRV.pg n) GDRV.STATUS_GD_BOOT_UV = true ∨ s.vgdThr ≤ dv.toNat → exec (.bootUvLockout ⟨n, dv⟩) s = .next s) ∧
    (∀ dv : Byte, s.live = true →
      (s.refreshWants n = false → exec (.refreshPulse n dv) s = .next s) ∧
      (s.refreshWants n = true →
        ∃ t, exec (.refreshPulse n dv) s = .next t ∧
          t = { s with regs := t.regs, leg := s.leg.set n { s.legUnit n with
            pulse := some s.cyc, lastLow := s.cyc.toNat + (5 * (s.legDt n + s.legWidth n) / 4).floor.toNat
            mend := (t.legUnit n).mend } } ∧
          (s.flag (GDRV.pg n) GDRV.STATUS_GD_BOOT_UV = true → (s.legUnit n).mend = none →
            (t.legUnit n).mend.isSome = decide (s.vgdThr + 4 ≤ dv.toNat)) ∧
          t.rd (GDRV.pg n) GDRV.REFRESH_COUNT_COUNT = (s.rd (GDRV.pg n) GDRV.REFRESH_COUNT_COUNT + 1) % 2 ^ 32 ∧
          sameRegsBut [GDRV.REFRESH_COUNT_COUNT.key (GDRV.pg n) 0] s t)) ∧
    (∀ ini : Initiator, s.admits ini (GDRV.pg n) 0x008 (s.ctrlWith (GDRV.pg n) GDRV.CTRL_EN 2) = true →
      ∃ t, exec (.gdrvClear ini n) s = .next t ∧ t.resp = ⟨.ok, []⟩ ∧ (s.legState n ≠ gFAULT → t.legState n = s.legState n) ∧
        (s.legState n = gFAULT → t.legState n = gOFF ∨ t.legState n = gARMED) ∧
        (s.legState n = gFAULT → s.flag (GDRV.pg n) GDRV.CTRL_EN = false → t.legState n = gOFF)) ∧
    (∀ (ini : Initiator) (vm : BitVec 12), s.admits ini (GDRV.pg n) 0x008 (s.ctrlWith (GDRV.pg n) GDRV.CTRL_EN 4) = true →
      ∃ t, exec (.diag ini n vm) s = .next t ∧ t.resp = ⟨.ok, []⟩ ∧ t.rd CHIMNEY.pg CHIMNEY.MEAS_VM_DV = vm.toNat ∧
        (s.diagRefused n = true → t.refusedWith (GDRV.pg n) 0x05 0x008 ini ∧ t.legState n = s.legState n) ∧
        (s.diagRefused n = false → 100 ≤ vm.toNat → t.legState n = gDIAG ∧ (t.legUnit n).diag = 1) ∧
        (s.diagRefused n = false → vm.toNat < 100 → t.rd (GDRV.pg n) GDRV.STATUS_DIAG_RES = 4)) ∧
    (∀ (vs : Int) (vm : BitVec 12), s.live = true → s.legState n = gDIAG →
      ∃ t, exec (.diagPhaseEnd n vs vm) s = .next t ∧
        ((s.legUnit n).diag = 1 → 5 * vs < vm.toNat → t.rd (GDRV.pg n) GDRV.STATUS_DIAG_RES = 1 ∧
          bitOf (t.rd (GDRV.pg n) HDR.IRQ_STATUS_BITS) 2 = true) ∧
        ((s.legUnit n).diag = 1 → (vm.toNat : Int) ≤ 5 * vs → t.legState n = gDIAG ∧ (t.legUnit n).diag = 2) ∧
        ((s.legUnit n).diag = 2 → 4 * (vm.toNat : Int) < 5 * vs → t.rd (GDRV.pg n) GDRV.STATUS_DIAG_RES = 2) ∧
        ((s.legUnit n).diag = 2 → 5 * vs ≤ 4 * (vm.toNat : Int) → s.flag (GDRV.pg n) GDRV.DIAG_PARTNER_EN = false →
          t.rd (GDRV.pg n) GDRV.STATUS_DIAG_RES = 0 ∧ t.flag (GDRV.pg n) GDRV.STATUS_DIAG_OK = true) ∧
        ((s.legUnit n).diag = 2 → 5 * vs ≤ 4 * (vm.toNat : Int) → s.flag (GDRV.pg n) GDRV.DIAG_PARTNER_EN = true →
          t.legState n = gDIAG ∧ (t.legUnit n).diag = 3) ∧
        ((s.legUnit n).diag = 3 → 4 * (vm.toNat : Int) < 5 * vs → t.rd (GDRV.pg n) GDRV.STATUS_DIAG_RES = 3) ∧
        ((s.legUnit n).diag = 3 → 5 * vs ≤ 4 * (vm.toNat : Int) →
          t.rd (GDRV.pg n) GDRV.STATUS_DIAG_RES = 0 ∧ t.flag (GDRV.pg n) GDRV.STATUS_DIAG_OK = true)) ∧
    (∀ (vs : Int) (vm : BitVec 12), s.live = true → s.legState n ≠ gDIAG →
      exec (.diagPhaseEnd n vs vm) s = .next (s.wr CHIMNEY.pg CHIMNEY.MEAS_VM_DV 0 vm.toNat))

/-! ### Motion axes and encoders (13) -/

/-- A command of an axis waits for the profile tick and replaces one that waits; at the tick it is carried out in the states of R689's table,
or is refused with 0x05 and changes nothing. The tick is stated for an axis without soft limits or stall detection, with a stepper motor,
while the other axes rest. -/
def Obligations.AxisCommandsWaitForTheTick : Prop :=
  ∀ (s : State) (a : Fin 4) (ini : Initiator), Canonical s →
    (s.admits ini (AXIS.pg a) 0x0A8 1 = true →
      exec (.enable ini a) s = .next (s.done.setAxis a { s.axisUnit a with cmd := some (1, ini) })) ∧
    (s.admits ini (AXIS.pg a) 0x0A8 2 = true →
      exec (.move ini a) s = .next (s.done.setAxis a { s.axisUnit a with cmd := some (2, ini) })) ∧
    (s.admits ini (AXIS.pg a) 0x0A8 3 = true →
      exec (.jog ini a) s = .next (s.done.setAxis a { s.axisUnit a with cmd := some (3, ini) })) ∧
    (s.admits ini (AXIS.pg a) 0x0A8 4 = true →
      exec (.axisStop ini a) s = .next (s.done.setAxis a { s.axisUnit a with cmd := some (4, ini) })) ∧
    (s.admits ini (AXIS.pg a) 0x0A8 5 = true →
      exec (.home ini a) s = .next (s.done.setAxis a { s.axisUnit a with cmd := some (5, ini) })) ∧
    (s.admits ini (AXIS.pg a) 0x0A8 6 = true →
      exec (.stepIn ini a) s = .next (s.done.setAxis a { s.axisUnit a with cmd := some (6, ini) })) ∧
    (s.admits ini (AXIS.pg a) 0x0A8 7 = true →
      exec (.gear ini a) s = .next (s.done.setAxis a { s.axisUnit a with cmd := some (7, ini) })) ∧
    (s.admits ini (AXIS.pg a) 0x0A8 8 = true →
      exec (.disable ini a) s = .next (s.done.setAxis a { s.axisUnit a with cmd := some (8, ini) })) ∧
    (s.admits ini (AXIS.pg a) 0x0A8 9 = true →
      exec (.axisClear ini a) s = .next (s.done.setAxis a { s.axisUnit a with cmd := some (9, ini) })) ∧
    (s.admits ini (AXIS.pg a) 0x0A8 10 = true →
      exec (.setPos ini a) s = .next (s.done.setAxis a { s.axisUnit a with cmd := some (10, ini) })) ∧
    (s.axisAlone a = true → ∀ (c : Nat) (i : Initiator), (s.axisUnit a).cmd = some (c, i) →
      ∃ t, exec .profileTick s = .next t ∧ (t.axisUnit a).cmd = none ∧
        (1 ≤ c → c ≤ 10 → axisAccepts s a c = false → t.refusedWith (AXIS.pg a) 0x05 0x0A8 i ∧
          (s.axisState a = aIDLE ∨ s.axisState a = aFAULT ∨ s.axisState a = aHOLD → t.axisState a = s.axisState a ∧
            (t.axisUnit a).pos = (s.axisUnit a).pos)) ∧
        (axisAccepts s a c = true →
          (c = 1 → t.axisState a = aHOLD ∧ (t.axisUnit a).vel = 0) ∧
          (c = 2 → (t.axisUnit a).target = s.rdInt (AXIS.pg a) AXIS.TARGET_POS ∧
            (t.axisState a = aMOVE ∨ t.axisState a = aHOLD ∧ t.flag (AXIS.pg a) AXIS.STATUS_AT_TARGET = true ∧
              (t.axisUnit a).pos = s.rdInt (AXIS.pg a) AXIS.TARGET_POS)) ∧
          (c = 3 → t.axisState a = aMOVE ∧ (t.axisUnit a).jog = some (s.aR a AXIS.VJOG_VALUE)) ∧
          (c = 4 → t.axisState a = s.axisState a ∨ t.axisState a = aHOLD ∧ (t.axisUnit a).vel = 0 ∨
            s.axisState a = aHOMING ∧ t.axisState a = aFAULT) ∧
          (c = 5 → t.axisState a = aHOMING ∨ t.axisState a = aFAULT) ∧
          (c = 6 → t.axisState a = aSTEP ∧ (t.axisUnit a).pos = (s.axisUnit a).pos) ∧
          (c = 7 → t.axisState a = aGEAR ∧ t.rd (AXIS.pg a) AXIS.RATIO_NOW_RATIO = s.rd (AXIS.pg a) AXIS.GEAR_RATIO_RATIO ∧
            t.flag (AXIS.pg a) AXIS.GEAR_STATUS_ENGAGED = true) ∧
          (c = 8 → (t.axisUnit a).disable = true ∨ s.axisState a = aHOMING ∧ t.axisState a = aFAULT) ∧
          (c = 9 → t.axisState a = aIDLE ∧ t.rd (AXIS.pg a) AXIS.STATUS_FAULT_CAUSE = 0) ∧
          (c = 10 → t.rd (AXIS.pg a) AXIS.POS_POS = s.rd (AXIS.pg a) AXIS.TARGET_POS ∧
            t.flag (AXIS.pg a) AXIS.STATUS_HOMED = true ∧ t.axisState a = aHOLD))) ∧
    (s.live = true → s.mode = mBOOT ∨ 2 ≤ s.pwr.state → exec .profileTick s = .next s)

/-- What happens to an axis and to an encoder. An axis that does not switch gives its legs no period, one that does (of a stepper, not geared)
gives each of its legs in ARMED its first, and DISABLE takes effect at a period start; a travel of HOME_MAX in HOMING is FAULT 4; a coarse step waits for the tick and goes in STEP_IN only; the gear queue holds four; a quadrature
edge counts by one in its direction, an illegal one is counted as an error (R689, R697, R705, R707, R710, R711). Which order of A and B counts
up is log entry 44, that an encoder error faults the axis of its motor at once log entry 43. -/
def Obligations.AxisAndEncoderEvents : Prop :=
  ∀ (s : State) (a : Fin 4), Canonical s →
    (∀ m0 m1 m2 : LegMeasure, s.live = true →
      ((s.axisUnit a).disable = false → (s.axisState a = aIDLE ∨ s.axisState a = aFAULT) →
        exec (.switchingPeriodStart a m0 m1 m2) s = .next s) ∧
      ((s.axisUnit a).disable = true → s.axisState a ≠ aFAULT →
        ∃ t, exec (.switchingPeriodStart a m0 m1 m2) s = .next t ∧ t.axisState a = aIDLE ∧ (t.axisUnit a).disable = false ∧
          t.rd (AXIS.pg a) AXIS.VEL_VALUE = 0 ∧
          (s.motor1 a = false → s.legsSettled = true → t.flag (AXIS.pg a) AXIS.STATUS_HOMED = false)) ∧
      ((s.axisUnit a).disable = false → aHOLD ≤ s.axisState a → s.axisState a < aGEAR → s.motor1 a = false → s.legsSettled = true →
        ∀ x y z, s.axisLegs a = some (x, y, z) →
          ∃ t, exec (.switchingPeriodStart a m0 m1 m2) s = .next t ∧ t.axisState a = s.axisState a ∧
            (s.legState x = gARMED → t.legState x = gRUN ∧
              t.rd (GDRV.pg x) GDRV.REFRESH_COUNT_COUNT = (s.rd (GDRV.pg x) GDRV.REFRESH_COUNT_COUNT + 1) % 2 ^ 32) ∧
            (s.legState y = gARMED → t.legState y = gRUN) ∧ (s.legState z = gARMED → t.legState z = gRUN) ∧
            ∀ n : Fin 12, n ≠ x → n ≠ y → n ≠ z → t.legState n = s.legState n)) ∧
    (s.live = true → s.axisState a = aHOMING → (s.rd (AXIS.pg a) AXIS.HOME_MAX_DIST : Rat) ≤ (s.axisUnit a).travel →
      ∃ t, exec (.homeMaxReached a) s = .next t ∧ t.axisState a = aFAULT ∧ t.rd (AXIS.pg a) AXIS.STATUS_FAULT_CAUSE = 4 ∧
        (t.axisUnit a).vel = 0 ∧ bitOf (t.rd (AXIS.pg a) HDR.IRQ_STATUS_BITS) 4 = true) ∧
    (s.axisState a ≠ aHOMING ∨ (s.axisUnit a).travel < (s.rd (AXIS.pg a) AXIS.HOME_MAX_DIST : Rat) →
      exec (.homeMaxReached a) s = .next s) ∧
    (∀ up : Bool, s.live = true →
      (s.axisState a ≠ aSTEP → exec (.coarseStep a up) s = .next s) ∧
      (s.axisState a = aSTEP → exec (.coarseStep a up) s =
        .next (s.setAxis a { s.axisUnit a with steps := (s.axisUnit a).steps ++ [(up, s.cyc)] }))) ∧
    (∀ ini : Initiator, s.admits ini (AXIS.pg a) 0x0D8 1 = true →
      (∃ t, exec (.gearPush ini a) s = .next t ∧ t.resp = ⟨.ok, []⟩ ∧
        (4 ≤ (s.axisUnit a).queue.length → t.refusedWith (AXIS.pg a) 0x05 0x0D8 ini ∧
          t.axis = s.axis) ∧
        ((s.axisUnit a).queue.length < 4 →
          (t.axisUnit a).queue = (s.axisUnit a).queue ++
            [(s.rd (AXIS.pg a) AXIS.GEAR_RATIO_RATIO, s.rd (AXIS.pg a) AXIS.GEAR_TRIG_COUNT)] ∧
          t.rd (AXIS.pg a) AXIS.GEAR_STATUS_DEPTH = (s.axisUnit a).queue.length + 1 ∧
          sameRegsBut [AXIS.GEAR_STATUS_DEPTH.key (AXIS.pg a) 0] s t))) ∧
    (∀ ini : Initiator, s.admits ini (AXIS.pg a) 0x0D8 2 = true →
      ∃ t, exec (.gearFlush ini a) s = .next t ∧ (t.axisUnit a).queue = [] ∧ t.rd (AXIS.pg a) AXIS.GEAR_STATUS_DEPTH = 0 ∧
        t.resp = ⟨.ok, []⟩ ∧ sameRegsBut [AXIS.GEAR_STATUS_DEPTH.key (AXIS.pg a) 0] s t) ∧
    (∀ (e : Fin 5) (ab : BitVec 2), s.live = true →
      (s.encOn e = false → exec (.encoderEdge e ab) s = .next { s with encAB := s.encAB.set e ab }) ∧
      (s.encOn e = true → s.encAB[e] ^^^ ab ≠ 3 → s.encAB[e] ≠ ab →
        ∃ t, exec (.encoderEdge e ab) s = .next t ∧ t.encAB = s.encAB.set e ab ∧
          t.rd ENC.pg ENC.COUNT_COUNT e = (s.rd ENC.pg ENC.COUNT_COUNT e +
            (if ((quadPlace ab + 4 - quadPlace s.encAB[e]) % 4 = 1) = (s.flag ENC.pg ENC.CFG_INVERT e = false) then 1 else 2 ^ 32 - 1)) % 2 ^ 32 ∧
          t.rd ENC.pg ENC.QERR_COUNT e = s.rd ENC.pg ENC.QERR_COUNT e) ∧
      (s.encAB[e] = ab → exec (.encoderEdge e ab) s = .next { s with encAB := s.encAB.set e ab }) ∧
      (s.encOn e = true → s.encAB[e] ^^^ ab = 3 →
        ∃ t, exec (.encoderEdge e ab) s = .next t ∧ t.rd ENC.pg ENC.COUNT_COUNT e = s.rd ENC.pg ENC.COUNT_COUNT e ∧
          t.rd ENC.pg ENC.QERR_COUNT e = satInc 16 (s.rd ENC.pg ENC.QERR_COUNT e) ∧
          bitOf (t.rd ENC.pg HDR.IRQ_STATUS_BITS) (5 + e.val) = true ∧
          (∀ b : Fin 4, b.val = e.val → s.motor1 b = true → t.axisState b = aFAULT)) ∧
      (s.encRuns = true → s.flag ENC.pg ENC.CFG_ZCAP_EN e = true →
        ∃ t, exec (.indexCapture e) s = .next t ∧ t.rd ENC.pg ENC.ZCAP_COUNT e = s.rd ENC.pg ENC.COUNT_COUNT e ∧
          bitOf (t.rd ENC.pg ENC.STATUS_Z_VALID) e = true ∧ bitOf (t.rd ENC.pg HDR.IRQ_STATUS_BITS) e = true ∧
          samePagesBut [ENC.pg] s t) ∧
      (s.encRuns = false ∨ s.flag ENC.pg ENC.CFG_ZCAP_EN e = false → exec (.indexCapture e) s = .next s))

/-! ### The disturbance recorder (14) -/

/-- The capture channels. START, STOP, FORCE and CLEAR do what R744 says in the states it allows and are else refused with 0x05; STOP truncates a
segment in POST and abandons one in FILL or ARMED (R745); a WATCH channel counts a trigger before PRE frames as EARLY (R740); a latch takes the
oldest counted sample, and the last of a bin writes one frame at its place in the ring (R723, R724, R727); the segment is closed in REARM and the
next one entered, or the channel is FULL (R741, R743); a trigger line is released once its width has passed (R747). -/
def Obligations.CaptureChannels : Prop :=
  ∀ (s : State) (n : Fin 8), Canonical s →
    (∀ ini : Initiator, s.admits ini ATTIC.pg (0x224 + 0x40 * n.val) 1 = true →
      ∃ t, exec (.capStart ini n) s = .next t ∧ t.resp = ⟨.ok, []⟩ ∧
        (s.capState n = capSTOPPED ∧ mREADY ≤ s.mode ∧ s.pwr.state ≤ 1 →
          t.capState n = (if s.rd ATTIC.pg ATTIC.CAP_PRE_FRAMES n = 0 then capARMED else capFILL) ∧
          bitOf (t.attic.mem.get (s.dirEntry n)).toNat 0 = false ∧ (∀ w, w ≠ s.dirEntry n → t.attic.mem.get w = s.attic.mem.get w) ∧
          (t.cap n).written = 0 ∧ (t.cap n).wait = false ∧ ∀ m : Fin 8, m ≠ n → t.cap m = s.cap m) ∧
        (¬ (s.capState n = capSTOPPED ∧ mREADY ≤ s.mode ∧ s.pwr.state ≤ 1) →
          refusal s t ATTIC.pg 0x05 (0x224 + 0x40 * n.val) ini)) ∧
    (∀ ini : Initiator, s.admits ini ATTIC.pg (0x224 + 0x40 * n.val) 2 = true →
      ∃ t, exec (.capStop ini n) s = .next t ∧ t.resp = ⟨.ok, []⟩ ∧ t.capState n = capSTOPPED ∧
        (s.capState n = capFILL ∨ s.capState n = capARMED → t.attic.mem = s.attic.mem ∧
          t.rd ATTIC.pg ATTIC.CAP_STAT_NEXT n = s.rd ATTIC.pg ATTIC.CAP_STAT_NEXT n) ∧
        (s.capState n = capPOST → bitOf (t.attic.mem.get (s.dirEntry n)).toNat 0 = true ∧ bitOf (t.attic.mem.get (s.dirEntry n)).toNat 3 = true ∧
          (t.attic.mem.get (s.dirEntry n + 2)).toNat = (s.cap n).post % 2 ^ 32 ∧
          ∀ w, w < s.dirEntry n ∨ s.dirEntry n + 13 ≤ w → t.attic.mem.get w = s.attic.mem.get w)) ∧
    (∀ ini : Initiator, s.admits ini ATTIC.pg (0x224 + 0x40 * n.val) 3 = true →
      ∃ t, exec (.capForce ini n) s = .next t ∧ t.resp = ⟨.ok, []⟩ ∧ t.attic.mem = s.attic.mem ∧
        (s.capState n ≠ capFILL → s.capState n ≠ capARMED → (s.cap n).wait = false ∨ (s.cap n).forced = true → refusal s t ATTIC.pg 0x05 (0x224 + 0x40 * n.val) ini) ∧
        (s.capState n = capFILL ∨ s.capState n = capARMED →
          (s.flag ATTIC.pg ATTIC.CAP_CFG_WATCH n = true → (s.cap n).written < (s.cap n).pre → t.capState n = s.capState n ∧
            t.rd ATTIC.pg ATTIC.CAP_MISSED_EARLY n = satInc 16 (s.rd ATTIC.pg ATTIC.CAP_MISSED_EARLY n)) ∧
          (s.flag ATTIC.pg ATTIC.CAP_CFG_WATCH n = false ∨ (s.cap n).pre ≤ (s.cap n).written →
            t.capState n = capPOST ∧ (t.cap n).forced = true ∧ (t.cap n).short = decide (s.capState n = capFILL) ∧
            (t.cap n).tcyc = some s.stamp))) ∧
    (∀ ini : Initiator, s.admits ini ATTIC.pg (0x224 + 0x40 * n.val) 4 = true →
      ∃ t, exec (.capClear ini n) s = .next t ∧ t.resp = ⟨.ok, []⟩ ∧
        (s.capState n ≠ capSTOPPED → s.capState n ≠ capFULL → refusal s t ATTIC.pg 0x05 (0x224 + 0x40 * n.val) ini) ∧
        (s.capState n = capSTOPPED ∨ s.capState n = capFULL → t.capState n = capSTOPPED ∧ t.rd ATTIC.pg ATTIC.CAP_STAT_NEXT n = 0 ∧
          ∀ g < s.rd ATTIC.pg ATTIC.CAP_SEGS_NSEG n,
            bitOf (t.attic.mem.get (dirWord (s.rd ATTIC.pg ATTIC.CAP_SEGS_DIR_BASE n + g))).toNat 0 = false)) ∧
    (s.live = true →
      ((s.cap n).due = [] → exec (.atticSampleLatch n) s = .next s) ∧
      ((s.cap n).due ≠ [] →
        ∃ t, exec (.atticSampleLatch n) s = .next t ∧ (t.cap n).due = (s.cap n).due.tail ∧
          (s.capState n = capSTOPPED ∨ s.capState n = capREARM ∨ s.capState n = capFULL → t = s.setCap n { s.cap n with due := (s.cap n).due.tail }) ∧
          (s.capState n = capFILL ∨ s.capState n = capARMED ∨ s.capState n = capPOST →
            ((s.cap n).samples + 1 ≠ s.rd ATTIC.pg ATTIC.CAP_BIN_BIN n → t.regs = s.regs ∧ t.attic.mem = s.attic.mem ∧
              (t.cap n).samples = (s.cap n).samples + 1) ∧
            ((s.cap n).samples + 1 = s.rd ATTIC.pg ATTIC.CAP_BIN_BIN n →
              (t.cap n).samples = 0 ∧ (t.cap n).written = (s.cap n).written + 1 ∧
              (t.attic.mem.get (s.frameAt n)).toNat / 2 ^ 16 = s.rd ATTIC.pg ATTIC.CAP_SEG_COUNT_COUNT n % 2 ^ 16 ∧
              bitOf (t.attic.mem.get (s.frameAt n)).toNat 1 = ((s.cap n).trigBin || (s.cap n).wait) ∧
              (∀ w, w < s.frameAt n ∨ s.frameAt n + s.frameWords n ≤ w → t.attic.mem.get w = s.attic.mem.get w) ∧
              (s.capState n = capFILL → (s.cap n).pre ≤ (s.cap n).written + 1 → t.capState n = capARMED))))) ∧
    (s.live = true →
      (s.capState n ≠ capREARM → exec (.segmentComplete n) s = .next s) ∧
      (s.capState n = capREARM →
        ∃ t, exec (.segmentComplete n) s = .next t ∧ bitOf (t.rd ATTIC.pg HDR.IRQ_STATUS_BITS) 0 = true ∧
          t.rd ATTIC.pg ATTIC.CAP_SEG_COUNT_COUNT n = (s.rd ATTIC.pg ATTIC.CAP_SEG_COUNT_COUNT n + 1) % 2 ^ 32 ∧
          (2 ≤ s.rd ATTIC.pg ATTIC.CAP_SEGS_NSEG n →
            bitOf (t.attic.mem.get (s.dirEntry n)).toNat 0 = true ∧ bitOf (t.attic.mem.get (s.dirEntry n)).toNat 3 = false ∧
            (0 < (s.cap n).post → (t.attic.mem.get (s.dirEntry n + 1)).toNat = (s.cap n).preCount % 2 ^ 32) ∧
            (t.attic.mem.get (s.dirEntry n + 10)).toNat = s.rd ATTIC.pg ATTIC.CAP_SEG_COUNT_COUNT n) ∧
          t.rd ATTIC.pg ATTIC.CAP_STAT_NEXT n = (s.rd ATTIC.pg ATTIC.CAP_STAT_NEXT n + 1) % s.rd ATTIC.pg ATTIC.CAP_SEGS_NSEG n % 2 ^ 11 ∧
          (s.rd ATTIC.pg ATTIC.CAP_STAT_NEXT n + 1 = s.rd ATTIC.pg ATTIC.CAP_SEGS_NSEG n →
            s.flag ATTIC.pg ATTIC.CAP_CFG_FULL_MODE n = false → t.capState n = capFULL ∧
            bitOf (t.rd ATTIC.pg HDR.IRQ_STATUS_BITS) 1 = true) ∧
          (s.rd ATTIC.pg ATTIC.CAP_STAT_NEXT n + 1 ≠ s.rd ATTIC.pg ATTIC.CAP_SEGS_NSEG n ∨ s.flag ATTIC.pg ATTIC.CAP_CFG_FULL_MODE n = true →
            t.capState n = (if s.rd ATTIC.pg ATTIC.CAP_PRE_FRAMES n = 0 then capARMED else capFILL)))) ∧
    (∀ l : Fin 4, s.live = true →
      (s.attic.pull[l] = none → exec (.trigoutRelease l) s = .next s) ∧
      ∀ e : Word64, s.attic.pull[l] = some e →
        (2 ^ 63 ≤ (s.cyc - e).toNat → exec (.trigoutRelease l) s = .next s) ∧
        ((s.cyc - e).toNat < 2 ^ 63 →
          exec (.trigoutRelease l) s = .next { s with attic := { s.attic with pull := s.attic.pull.set l none } }))

/-! ### Redundant sets (15) -/

/-- Lanes and frames. A lane comes up with its partner and goes down with its losses counted, or with the fourth frame in a row that fails
its check (R757); a frame is taken on an up lane, and only the
first copy of its link sequence number has an effect (R759); what each frame does: STATE (R764, R770, R794), FAULT (R775, R778, R783), SWAP
(R787), PORTS (R774), COPY and XFER (R796), CYCMARK (R764), PING and ECHO (R761); the release of a member's own STATE frame, of a lead
with its PORTS frame and what a joiner needs (R758, R770). A frame on the wire is its type, its length, its number, a payload of 0 to 32 bytes
and the CRC-32 over them (R758). IDLE_FRAME without CYC as a failed frame, the frames that go to a joiner with each STATE frame, the frames
that a lane keeps of its last release and the layouts of payloads are log entry 24. -/
def Obligations.TwitosLanesAndFrames : Prop :=
  ∀ (s : State) (l : Fin 4), Canonical s → s.live = true →
    (∀ m : Fin 3,
      (s.flag (TWITOS.pg l) TWITOS.CTRL_EN = false ∨ s.laneUp l = true → exec (.laneUp l m) s = .next s) ∧
      (s.flag (TWITOS.pg l) TWITOS.CTRL_EN = true → s.laneUp l = false →
        ∃ t, exec (.laneUp l m) s = .next t ∧ t.laneUp l = true ∧ t.laneMember l = m ∧
          t.flag (TWITOS.pg l) TWITOS.STATUS_PARTNER_VALID = true ∧ bitOf (t.rd (TWITOS.pg l) HDR.IRQ_STATUS_BITS) 0 = true)) ∧
    (∀ failed : Fin 5,
      ∃ t, exec (.laneLost l failed) s = .next t ∧ t.laneUp l = false ∧
        t.rd (TWITOS.pg l) TWITOS.ERR_CRC_ERR = (satInc 16)^[failed.val] (s.rd (TWITOS.pg l) TWITOS.ERR_CRC_ERR) ∧
        t.rd (TWITOS.pg l) TWITOS.ERR_DOWN_COUNT =
          (if s.laneUp l = true then satInc 16 (s.rd (TWITOS.pg l) TWITOS.ERR_DOWN_COUNT) else s.rd (TWITOS.pg l) TWITOS.ERR_DOWN_COUNT) ∧
        (s.memState ≠ rJOINING → samePagesBut [TWITOS.pg l] s t)) ∧
    (s.flag (TWITOS.pg l) TWITOS.CTRL_EN = false → exec (.idleFrame l none) s = .next s) ∧
    (s.flag (TWITOS.pg l) TWITOS.CTRL_EN = true →
      ∃ t, exec (.idleFrame l none) s = .next t ∧
        t.rd (TWITOS.pg l) TWITOS.ERR_CRC_ERR = satInc 16 (s.rd (TWITOS.pg l) TWITOS.ERR_CRC_ERR) ∧
        (s.redun.lane[l].failed < 3 → t = { s.setFailed l (s.redun.lane[l].failed + 1) with regs := t.regs } ∧
          sameRegsBut [TWITOS.ERR_CRC_ERR.key (TWITOS.pg l) 0] s t) ∧
        (3 ≤ s.redun.lane[l].failed → t.laneUp l = false ∧ t.redun.lane[l].failed = 0)) ∧
    (s.laneUp l = false → ∀ (q : BitVec 16) (w : Word) (c : Word64) (f : StateFrame) (ps : BitVec 20),
      exec (.idleFrame l (some w)) s = .next s ∧ exec (.ping l c) s = .next s ∧ exec (.echo l ps) s = .next s ∧
        exec (.stateFrame l q f) s = .next s ∧ exec (.cycmark l q c) s = .next s) ∧
    (∀ (f : TwFrame) (q : BitVec 16), 8 ≤ (twBytes f q).length ∧ (twBytes f q).length ≤ 40 ∧ (twBytes f q).head? = some (BitVec.ofNat 8 (twKind f)) ∧
      1 ≤ twKind f ∧ twKind f ≤ 0x0A ∧ ((twBytes f q).getD 1 0).toNat + 8 = (twBytes f q).length ∧
      (twBytes f q).drop ((twBytes f q).length - 4) = leBytes 4 (crc32 0xFFFFFFFF ((twBytes f q).take ((twBytes f q).length - 4))).toNat) ∧
    (s.laneUp l = true → ∀ (w : Word) (c : Word64) (ps : BitVec 20),
      (∃ t, exec (.idleFrame l (some w)) s = .next t ∧ s.heard t l) ∧
      (s.laneOn l = true → ∃ t, exec (.ping l c) s = .next t ∧ t = { s with regs := t.regs, redun := t.redun } ∧
        t.redun.lane[l].sent = [(s.redun.seq, .echo c)] ∧
        t.rd (TWITOS.pg l) TWITOS.FRAMES_RX_COUNT = (s.rd (TWITOS.pg l) TWITOS.FRAMES_RX_COUNT + 1) % 2 ^ 32 ∧
        t.rd (TWITOS.pg l) TWITOS.FRAMES_TX_COUNT = (s.rd (TWITOS.pg l) TWITOS.FRAMES_TX_COUNT + 1) % 2 ^ 32) ∧
      ∃ t, exec (.echo l ps) s = .next t ∧ t = { s.setFailed l 0 with regs := t.regs } ∧ t.rd (TWITOS.pg l) TWITOS.RTT_PS = ps.toNat) ∧
    (∀ (q : BitVec 16) (f : StateFrame) (k : Word) (d : Fin 3) (c : Word64), s.laneUp l = true → s.firstCopy l q = false →
      (∃ t, exec (.stateFrame l q f) s = .next t ∧ s.heard t l) ∧
      (∃ t, exec (.swapFrame l q d k) s = .next t ∧ s.heard t l) ∧
      ∃ t, exec (.cycmark l q c) s = .next t ∧ s.heard t l) ∧
    (∀ (q : BitVec 16) (f : StateFrame), s.firstCopy l q = true →
      ∃ t, exec (.stateFrame l q f) s = .next t ∧ (t.peer (s.laneMember l)).frame = some f ∧
        (t.peer (s.laneMember l)).ready = f.ready ∧
        (leadRoleBits f.role = true → s.follower = true ∨ s.memState = rJOINING ∧ s.isLead = false ∧ s.redun.marked = true →
          f.k.toNat ≠ s.setCycle % 2 ^ 32 → t.leftWith 7 ∧
            t.rd HOUSE.pg HOUSE.CYC_ERR_COUNT = satInc 16 (s.rd HOUSE.pg HOUSE.CYC_ERR_COUNT)) ∧
        (leadRoleBits f.role = true → s.follower = true → f.k.toNat = s.setCycle % 2 ^ 32 → 3 ≤ s.redun.agree →
          t.flag HOUSE.pg HOUSE.STATUS_CYC_OK = true) ∧
        (leadRoleBits f.role = true → s.memState = rJOINING → s.isLead = false → s.redun.marked = false → s.leadId = s.laneMember l →
          s.rd REDUN.pg REDUN.JOIN_PHASE = 3 →
          (f.config.toNat = s.configDigest → t.rd REDUN.pg REDUN.JOIN_PHASE = 4 ∧ t.memState = rJOINING) ∧
          (f.config.toNat ≠ s.configDigest → t.leftWith 6 ∧ bitOf (t.rd REDUN.pg HDR.IRQ_STATUS_BITS) 5 = true))) ∧
    (∀ (q : BitVec 16) (m : Fin 3) (cause : Byte) (src : Fin 64) (ago : Nat), s.firstCopy l q = true → s.memState = rMEMBER →
      ∃ t, exec (.faultFrame l q m true cause src ago) s = .next t ∧
        (m ≠ s.memberId → s.present m = true → s.leadId < 3 → t.present m = false ∧
          bitOf (t.rd REDUN.pg HDR.IRQ_STATUS_BITS) 2 = true ∧
          (s.setSize = 1 → s.leadId = m.val → s.isLead = false → s.memberId.val + m.val = 1 → s.present s.memberId = true →
            s.flag REDUN.pg REDUN.STATUS_TAKEOVER_READY = true →
            t.isLead = true ∧ t.leadId = s.memberId.val ∧ t.rd REDUN.pg REDUN.ROLE_ROLE = 1 ∧ t.rd REDUN.pg REDUN.TAKEOVER_CAUSE = 1 ∧
              t.rd REDUN.pg REDUN.TAKEOVER_FROM = m.val ∧ t.rd REDUN.pg REDUN.TAKEOVER_TO = s.memberId.val ∧
              t.rd64 REDUN.pg REDUN.TAKEOVER_CYC_LO_CYC REDUN.TAKEOVER_CYC_HI_CYC = s.cyc.toNat ∧
              bitOf (t.rd REDUN.pg HDR.IRQ_STATUS_BITS) 1 = true))) ∧
    (∀ (q : BitVec 16) (m : Fin 3) (cause : Byte) (src : Fin 64) (ago : Nat), s.firstCopy l q = true → s.memState = rMEMBER →
      s.stoppable = true → s.mode ≠ mSAFE →
      ∃ t, exec (.faultFrame l q m false cause src ago) s = .next t ∧
        (cause.toNat + 256 * src.val, s.cyc - BitVec.ofNat 64 ago) ∈ t.modes.causes) ∧
    (∀ (q : BitVec 16) (d : Fin 3) (k : Word), s.firstCopy l q = true →
      ∃ t, exec (.swapFrame l q d k) s = .next t ∧ framesRx s t l ∧ s.frameTaken t l q ∧ t.redun.swap =
        (if s.memState = rMEMBER ∧ (s.laneMember l).val = s.leadId then some (d, s.fullCycle k) else s.redun.swap)) ∧
    (∀ (q : BitVec 16) (ports : Vector PortCopy 8), s.firstCopy l q = true →
      ∃ t, exec (.portsFrame l q ports) s = .next t ∧ framesRx s t l ∧ ∀ p : Fin 8, (t.portUnit p).copy =
        (if (s.laneMember l).val = s.leadId ∧ s.takesMode = true then some ports[p] else (s.portUnit p).copy)) ∧
    (∀ (q : BitVec 16) (n : Fin 16) (r : Fin 64) (w : Fin 512) (v : Word) (last : Bool), s.firstCopy l q = true →
      s.memState = rJOINING → s.rd REDUN.pg REDUN.JOIN_PHASE = 5 → (s.laneMember l).val = s.leadId →
      (∃ t, exec (.copyFrame l q [.g n r v] last) s = .next t ∧ (t.leUnit n).g[r] = v ∧
        t.rd REDUN.pg REDUN.JOIN_PHASE = (if last = true then 6 else 5)) ∧
      (s.isCoef n w = false → ∃ t, exec (.copyFrame l q [.data n w v] last) s = .next t ∧ t.dmem n w = v) ∧
      (s.isCoef n w = true → ∃ t, exec (.copyFrame l q [.data n w v] last) s = .next t ∧ t.lps.dmem = s.lps.dmem)) ∧
    (∀ (q : BitVec 16) (ws : List CopyWord) (last : Bool), s.firstCopy l q = true →
      s.memState ≠ rJOINING ∨ s.rd REDUN.pg REDUN.JOIN_PHASE ≠ 5 ∨ (s.laneMember l).val ≠ s.leadId →
      ∃ t, exec (.copyFrame l q ws last) s = .next t ∧ framesRx s t l ∧ s.frameTaken t l q ∧ t = { s with regs := t.regs, redun := t.redun }) ∧
    (∀ (q : BitVec 16) (a : Word) (data : List Byte), s.firstCopy l q = true →
      ∃ t, exec (.xferFrame l q a data) s = .next t ∧ s.frameTaken t l q ∧
        (inSram a.toNat data.length = false → framesRx s t l ∧ t.sram = s.sram) ∧
        (inSram a.toNat data.length = true → (s.sramUe = [] → t.bytesAt a.toNat data.length = data) ∧
          (s.sramUe = [] → s.sramCe = [] → framesRx s t l) ∧
          ∀ x, x < a.toNat ∨ a.toNat + data.length ≤ x → t.byteAt x = s.byteAt x)) ∧
    (∀ (q : BitVec 16) (c : Word64), s.firstCopy l q = true →
      ∃ t, exec (.cycmark l q c) s = .next t ∧ s.frameTaken t l q ∧
        (s.memState = rJOINING → t.cyc = c ∧ t.redun.marked = true ∧
          t.redun.agree = (if s.redun.marked = true ∧ s.cyc = c then s.redun.agree else 0) ∧ t.rd REDUN.pg REDUN.SETCYC_K = t.setCycle % 2 ^ 32 ∧
          sameRegsBut [TWITOS.FRAMES_RX_COUNT.key (TWITOS.pg l) 0, REDUN.SETCYC_K.key REDUN.pg 0] s t) ∧
        (s.memState ≠ rJOINING → framesRx s t l ∧ t.cyc = s.cyc)) ∧
    (s.memState ≠ rMEMBER → s.memState ≠ rJOINING → exec .stateFrameRelease s = .next s) ∧
    (s.memState = rMEMBER ∨ s.memState = rJOINING →
      ∃ t, exec .stateFrameRelease s = .next t ∧ t = { s with regs := t.regs, redun := t.redun } ∧
        (s.laneUp l = true → t.redun.lane[l].sent.head? = some (s.redun.seq, .state s.stateOut) ∧
          t.rd (TWITOS.pg l) TWITOS.FRAMES_TX_COUNT = (s.rd (TWITOS.pg l) TWITOS.FRAMES_TX_COUNT +
            (if s.isLead = true then 2 + s.joinFrames.length else 1)) % 2 ^ 32) ∧
        (s.laneUp l = false → t.redun.lane[l] = s.redun.lane[l] ∧
          t.rd (TWITOS.pg l) TWITOS.FRAMES_TX_COUNT = s.rd (TWITOS.pg l) TWITOS.FRAMES_TX_COUNT))

/-- The house clock, ALIVE, the trigger bus, votes and the set-cycle boundary. Holdover, slew and lock of a follower (R765, R766); the rescue of a
DS_CK (R784); ALIVE_O and its loss (R777); isolation (R782); a late boundary of a PWM unit with SRC 2 counts TRIG_LATE (R768); at the boundary K
and the trip digest are taken, reads are set aside, a readback mismatch of a follower is counted and a due swap takes effect (R769, R776, R787);
at the vote instant a missing frame is counted and a member silent twice without ALIVE is lost (R770, R778). What a member's clock shows once
it follows none, that reads at the boundary itself count in the new cycle, and which edges are late are log entry 24. -/
def Obligations.HouseClockAndSetCycle : Prop :=
  ∀ s : State, Canonical s → s.live = true →
    (s.followsHclk = true → s.flag HOUSE.pg HOUSE.STATUS_HOLDOVER = false →
      (∃ t, exec .hclkAbsent s = .next t ∧ t.flag HOUSE.pg HOUSE.STATUS_HOLDOVER = true ∧ t.flag HOUSE.pg HOUSE.STATUS_LOCKED = false ∧
        t.rd HOUSE.pg HOUSE.HOLD_COUNT_COUNT = satInc 16 (s.rd HOUSE.pg HOUSE.HOLD_COUNT_COUNT) ∧
        bitOf (t.rd HOUSE.pg HDR.IRQ_STATUS_BITS) 1 = true ∧ t = { s with regs := t.regs, redun := { s.redun with holdFrom := s.cyc } } ∧
        samePagesBut [HOUSE.pg] s t) ∧
      ∀ (tap : BitVec 7) (e : BitVec 16), ∃ t, exec (.dllLocked tap e) s = .next t ∧ t.flag HOUSE.pg HOUSE.STATUS_LOCKED = true ∧
        t.rd HOUSE.pg HOUSE.DLL_TAP = tap.toNat ∧ t.rd HOUSE.pg HOUSE.DLL_PHASE_PS = e.toNat) ∧
    (s.followsHclk = false ∨ s.flag HOUSE.pg HOUSE.STATUS_HOLDOVER = true → exec .hclkAbsent s = .next s ∧
      ∀ (tap : BitVec 7) (e : BitVec 16), exec (.dllLocked tap e) s = .next s) ∧
    (s.inHoldover = false → exec .holdoverLimit s = .next s ∧ ∀ e : Int, exec (.hclkReturn e) s = .next s) ∧
    (s.inHoldover = true →
      (∃ t, exec .holdoverLimit s = .next t ∧ t.leftWith 7) ∧
      ∀ e : Int, ∃ t, exec (.hclkReturn e) s = .next t ∧
        (e.natAbs ≤ 16000 → s.since s.redun.holdFrom < 250000 → t.flag HOUSE.pg HOUSE.STATUS_HOLDOVER = false ∧ t.flag HOUSE.pg HOUSE.STATUS_SLEWING = true ∧
          t.memState = s.memState) ∧
        (16000 < e.natAbs ∨ 250000 ≤ s.since s.redun.holdFrom → t.leftWith 7)) ∧
    (s.flag HOUSE.pg HOUSE.STATUS_SLEWING = true → ∀ e : BitVec 16, ∃ t, exec (.slewEnd e) s = .next t ∧
      t.flag HOUSE.pg HOUSE.STATUS_SLEWING = false ∧ t.flag HOUSE.pg HOUSE.STATUS_LOCKED = true ∧ samePagesBut [HOUSE.pg] s t) ∧
    (s.flag HOUSE.pg HOUSE.STATUS_SLEWING = false → ∀ e : BitVec 16, exec (.slewEnd e) s = .next s) ∧
    (∀ k : Fin 4, s.follower = false ∨ s.flag REDUN.pg REDUN.CFG_CK_RESCUE = false → exec (.ckRescue k) s = .next s) ∧
    (∀ k : Fin 4, s.setSize ≠ 0 → s.follower = true → s.flag REDUN.pg REDUN.CFG_CK_RESCUE = true → s.successor s.leadId = some s.memberId.val →
      s.flag (DSF.pg 0) DSF.DSCK_EN k = true → s.flag (DSF.pg 0) DSF.DSCK_RECEIVE k = true →
      ∃ t, exec (.ckRescue k) s = .next t ∧ t.flag REDUN.pg REDUN.STATUS_CK_RESCUED = true ∧ t.dsckDriven k = true ∧
        sameRegsBut [REDUN.STATUS_CK_RESCUED.key REDUN.pg 0] s t) ∧
    (exec .aliveToggle s = .next (if s.mode = mBOOT ∨ s.redun.aliveStop = true then s
      else { s with redun := { s.redun with alive := !s.redun.alive } })) ∧
    (∀ m : Fin 3, ∃ t, exec (.aliveLost m) s = .next t ∧ bitOf (t.rd REDUN.pg REDUN.STATUS_ALIVE_SEEN) m = false ∧
      (∀ k < 3, k ≠ m.val → bitOf (t.rd REDUN.pg REDUN.STATUS_ALIVE_SEEN) k = bitOf (s.rd REDUN.pg REDUN.STATUS_ALIVE_SEEN) k) ∧
      ∀ k, k / 131072 ≠ FUSE.pg → k ≠ REDUN.STATUS_ALIVE_SEEN.key REDUN.pg 0 → t.regs.get k = s.regs.get k) ∧
    (∀ m : Fin 3, s.memState ≠ rMEMBER ∨ m = s.memberId ∨ s.present m = false ∨ s.reaches m = true ∨
      bitOf (s.rd REDUN.pg REDUN.STATUS_ALIVE_SEEN) m = false → exec (.isolation m) s = .next s) ∧
    (∀ m : Fin 3, s.memState = rMEMBER → m ≠ s.memberId → s.present m = true → s.reaches m = false →
      bitOf (s.rd REDUN.pg REDUN.STATUS_ALIVE_SEEN) m = true →
      ∃ t, exec (.isolation m) s = .next t ∧ (s.isLead = true → t.memState = rMEMBER ∧
          (s.rd REDUN.pg REDUN.ROLE_ROLE = 1 ∨ s.rd REDUN.pg REDUN.ROLE_ROLE = 3 → t.srcActive 56 = true)) ∧
        (s.isLead = false → s.leadId = m.val → t.leftWith 3) ∧
        (s.isLead = false → s.leadId ≠ m.val → t.memState = rMEMBER)) ∧
    (∀ l : Fin 4, ∃ t, exec (.trigEdge l) s = .next t ∧
      t.rd HOUSE.pg HOUSE.TRIG_LATE_COUNT = (satInc 16)^[s.lateUnits l] (s.rd HOUSE.pg HOUSE.TRIG_LATE_COUNT) ∧
      samePagesBut [HOUSE.pg, ATTIC.pg] s t) ∧
    (∀ (lines : List RbLine) (rb : Bool), s.commitPending REDUN.pg = false → lines.any s.rbMismatch = rb →
      ∃ t, exec (.setCycleBoundary lines) s = .next t ∧ t.rd REDUN.pg REDUN.SETCYC_K = s.setCycle % 2 ^ 32 ∧
        t.rd REDUN.pg REDUN.DIGEST_TRIP_CRC =
          digestOf [s.rd FUSE.pg FUSE.LATCH_LO_SRC, s.rd FUSE.pg FUSE.LATCH_HI_SRC, s.rd FUSE.pg FUSE.UNIT_TRIP_UNIT] ∧
        (s.redun.readsAt ≠ s.setCycle → t.redun.readsPrev = s.redun.reads ∧ t.redun.reads = Vector.replicate 8 0) ∧
        (s.redun.readsAt = s.setCycle → t.redun.readsPrev = s.redun.readsPrev ∧ t.redun.reads = s.redun.reads) ∧
        t.redun.readsAt = s.setCycle ∧
        t.rd REDUN.pg REDUN.MISMATCH_RB = (if rb = true ∧ s.readsBack = true ∧ s.flag HOUSE.pg HOUSE.STATUS_HOLDOVER = false ∧
          s.flag HOUSE.pg HOUSE.STATUS_SLEWING = false then satInc 8 (s.rd REDUN.pg REDUN.MISMATCH_RB) else s.rd REDUN.pg REDUN.MISMATCH_RB) ∧
        ∀ (d : Fin 3) (k : Nat), s.redun.swap = some (d, k) →
          (s.setCycle < k → t.redun.swap = some (d, k) ∧ t.isLead = s.isLead) ∧
          (k ≤ s.setCycle → t.redun.swap = none ∧
            (d = s.memberId → t.isLead = true ∧ t.leadId = d.val ∧
              t.rd REDUN.pg REDUN.TAKEOVER_COUNT_COUNT = satInc 16 (s.rd REDUN.pg REDUN.TAKEOVER_COUNT_COUNT)) ∧
            (d ≠ s.memberId → t.leadId = d.val ∧ t.isLead = false))) ∧
    (∃ t, exec .voteInstant s = .next t ∧ (∀ m : Fin 3, (t.peer m).frame = none) ∧
      (s.memState = rALONE ∨ s.memState = rOUT → t.regs = s.regs) ∧
      (∀ m : Fin 3, s.memState = rMEMBER → s.setSize = 1 → s.memberCount = 2 → m ≠ s.memberId → s.present m = true → s.present s.memberId = true →
        s.held m = none → 1 ≤ s.rd REDUN.pg REDUN.CFG_DIV_CYCLES → s.redun.rb = false → (s.isLead = true → s.leadId = s.memberId.val) →
        t.rd REDUN.pg REDUN.HB_MISS_COUNT = satInc 16 (s.rd REDUN.pg REDUN.HB_MISS_COUNT) ∧
        ((s.peer m).miss = 0 → t.present m = true ∧ (t.peer m).miss = 1) ∧
        (1 ≤ (s.peer m).miss → s.flag REDUN.pg REDUN.CFG_ALIVE_EN = false → t.present m = false ∧
          bitOf (t.rd REDUN.pg HDR.IRQ_STATUS_BITS) 2 = true)))

/-- Joining, leaving, swapping and copying. JOIN, SWAP, LEAVE and PROMOTE are carried out where R787 and R793 allow them and are else refused with
0x05 (what PROMOTE does to the members that were present is log entry 24); a join that fails in phases 1 to 3 leaves with cause 4 (R794); XFER_CMD starts a copy, or is refused for its length or while one runs, and
XFER_DONE ends it with its RESULT (R796). -/
def Obligations.SetCommandsAndTransfers : Prop :=
  ∀ (s : State) (ini : Initiator), Canonical s →
    (s.admits ini REDUN.pg 0x054 1 = true →
      ∃ t, exec (.join ini) s = .next t ∧ t.resp = ⟨.ok, []⟩ ∧
        (s.redunCmdRefused 1 0 = true → refusal s t REDUN.pg 0x05 0x054 ini) ∧
        (s.redunCmdRefused 1 0 = false → t.memState = rJOINING ∧ 1 ≤ t.rd REDUN.pg REDUN.JOIN_PHASE ∧
          t.rd REDUN.pg REDUN.JOIN_PHASE ≤ 2 ∧ t.rd REDUN.pg REDUN.STATUS_LEAVE_CAUSE = 0 ∧ t.redun.aliveStop = false)) ∧
    (∀ d : BitVec 2, s.admits ini REDUN.pg 0x054 (2 + 8 * d.toNat) = true →
      ∃ t, exec (.swap ini d) s = .next t ∧ t.resp = ⟨.ok, []⟩ ∧
        (s.redunCmdRefused 2 d.toNat = true → refusal s t REDUN.pg 0x05 0x054 ini) ∧
        (s.redunCmdRefused 2 d.toNat = false → t.redun.swap = some (Fin.ofNat 3 d.toNat, s.setCycle + 2) ∧ t.isLead = true ∧
          t.memState = rMEMBER)) ∧
    (s.admits ini REDUN.pg 0x054 3 = true →
      ∃ t, exec (.leave ini) s = .next t ∧ t.resp = ⟨.ok, []⟩ ∧
        (s.memState = rALONE ∨ s.memState = rOUT → refusal s t REDUN.pg 0x05 0x054 ini) ∧
        (s.memState = rMEMBER ∨ s.memState = rJOINING → t.leftWith 5 ∧ t.mode = s.mode ∧
          (s.stoppable = true → s.mode ≠ mSAFE → s.modes.causes = [] → t.modes.causes = [(0x15, s.cyc)]))) ∧
    (s.admits ini REDUN.pg 0x054 4 = true →
      ∃ t, exec (.promote ini) s = .next t ∧ t.resp = ⟨.ok, []⟩ ∧
        (s.redunCmdRefused 4 0 = true → refusal s t REDUN.pg 0x05 0x054 ini) ∧
        (s.redunCmdRefused 4 0 = false → t.isLead = true ∧ t.memState = rMEMBER ∧ t.leadId = s.memberId.val ∧
          (s.follower = false → t.rd REDUN.pg REDUN.STATUS_PRESENT = 2 ^ s.memberId.val) ∧
          (s.follower = true → t.present s.memberId = true ∧ (s.leadId < 3 → s.leadId ≠ s.memberId.val → t.present s.leadId = false) ∧
            ∀ m < 3, m ≠ s.memberId.val → m ≠ s.leadId → t.present m = s.present m) ∧ t.rd REDUN.pg REDUN.ROLE_ROLE = (if s.setSize = 2 then 3 else 1))) ∧
    (s.live = true → s.memState = rJOINING → s.rd REDUN.pg REDUN.JOIN_PHASE ≤ 3 →
      ∃ t, exec .joinPhaseTimeout s = .next t ∧ t.leftWith 4 ∧ bitOf (t.rd REDUN.pg HDR.IRQ_STATUS_BITS) 5 = true) ∧
    (s.live = true → s.memState ≠ rJOINING ∨ 4 ≤ s.rd REDUN.pg REDUN.JOIN_PHASE → exec .joinPhaseTimeout s = .next s) ∧
    (∀ (len : BitVec 16) (d : BitVec 2), s.admits ini REDUN.pg 0x08C (len.toNat + 2 ^ 16 * d.toNat + 2 ^ 31) = true →
      ∃ t, exec (.xferCmd ini len d) s = .next t ∧ t.resp = ⟨.ok, []⟩ ∧
        (len.toNat % 8 ≠ 0 → refusal s t REDUN.pg 0x03 0x08C ini) ∧
        (len.toNat % 8 = 0 → s.flag REDUN.pg REDUN.XFER_STATUS_BUSY = true → refusal s t REDUN.pg 0x05 0x08C ini) ∧
        (len.toNat % 8 = 0 → s.flag REDUN.pg REDUN.XFER_STATUS_BUSY = false → t.flag REDUN.pg REDUN.XFER_STATUS_BUSY = true ∧
          t.sram = s.sram ∧ (s.sramUe = [] →
          t.redun.xfer = some (if d.toNat = 3 ∨ d.toNat = s.memberId.val ∨ s.reaches d.toNat = false then 1
            else if inSram (s.rd REDUN.pg REDUN.XFER_SRC_ADDR) len.toNat = false ∨ inSram (s.rd REDUN.pg REDUN.XFER_DST_ADDR) len.toNat = false
              then 2 else 0)))) ∧
    (s.live = true → s.redun.xfer = none → exec .xferDone s = .next s) ∧
    (s.live = true → ∀ r : Nat, s.redun.xfer = some r →
      ∃ t, exec .xferDone s = .next t ∧ t.redun.xfer = none ∧ t.flag REDUN.pg REDUN.XFER_STATUS_BUSY = false ∧
        t.rd REDUN.pg REDUN.XFER_STATUS_RESULT = r % 8 ∧ bitOf (t.rd REDUN.pg HDR.IRQ_STATUS_BITS) 7 = true ∧ samePagesBut [REDUN.pg] s t)

/-! ### The Ethernet switch and precision time (16) -/

/-- The switch. A link that changes is shown (R807); a received frame is counted, too long or with a failed FCS as an error (R806, R816), queued
for the host or dropped where the queue is full (R818), discarded as a duplicate in PRP (R813), and forwarded to the other port where it is
unknown in BRIDGE (R809); a transmit descriptor completes with DONE and its frame on the port it names, or with ERR (R820); supervision, tables
and MDIO (R814, R817, R842). A frame that the transparent clock or the insertion of an egress time changes leaves with a UDP checksum of 0 (R828,
R830). The instants of frames within a tick and what the switch does with a frame in transmission when its link goes down are log entry 25. -/
def Obligations.EthernetSwitchAndQueues : Prop :=
  ∀ s : State, Canonical s → s.live = true →
    (∀ (p : Fin 2) (x : LinkSense) (up : Bool), (s.portOn p && x.sync && (!s.flag ETHSW.pg ETHSW.PORT_AN_EN p || x.done)) = up →
      ∃ t, exec (.ethLinkChange p x) s = .next t ∧ t.flag ETHSW.pg (linkFld p) = up ∧
        t.eth.sense = s.eth.sense.set p (if s.portOn p = true then x else {}) ∧
        (s.flag ETHSW.pg (linkFld p) = up → t = { s with eth := t.eth } ∧ t.eth.tx = s.eth.tx) ∧
        (s.flag ETHSW.pg (linkFld p) ≠ up → bitOf (t.rd ETHSW.pg HDR.IRQ_STATUS_BITS) 0 = true ∧ samePagesBut [ETHSW.pg, PTP.pg] s t ∧
          (up = false → ∀ q lost, s.eth.tx = some (q, lost) → t.eth.tx = some (q, lost ||| BitVec.ofNat 2 (2 ^ p.val))))) ∧
    (∀ (p : Fin 2) (f : EthFrame) (frac : Fin 5) (ticks : Nat),
      (s.portLive p = false → exec (.ethFrameReceive p f frac ticks) s = .next s) ∧
      (s.portLive p = true → 1536 < wireLen f → ∃ t, exec (.ethFrameReceive p f frac ticks) s = .next t ∧
        t.rd ETHSW.pg ETHSW.RX_ERR_COUNT p = satInc 16 (s.rd ETHSW.pg ETHSW.RX_ERR_COUNT p) ∧
        sameRegsBut [ETHSW.RX_ERR_COUNT.key ETHSW.pg p] s t ∧ t.eth = s.eth ∧ t.sram = s.sram) ∧
      (s.portLive p = true → wireLen f ≤ 1536 → f.fcsOk = false → s.ethMode ≠ 2 → ∃ t, exec (.ethFrameReceive p f frac ticks) s = .next t ∧
        t.rd ETHSW.pg ETHSW.RX_ERR_COUNT p = satInc 16 (s.rd ETHSW.pg ETHSW.RX_ERR_COUNT p) ∧ t.eth = s.eth ∧ t.sram = s.sram) ∧
      (s.portLive p = true → wireLen f ≤ 1536 → f.fcsOk = true → ∃ t, exec (.ethFrameReceive p f frac ticks) s = .next t ∧
        t.rd ETHSW.pg ETHSW.RX_FRAMES_COUNT p = (s.rd ETHSW.pg ETHSW.RX_FRAMES_COUNT p + 1) % 2 ^ 32 ∧
        (∀ (n : BitVec 16), s.ethMode = 1 → f.red = .prp (decide (p = 1)) n → f.supervision = false →
          f.etype.toNat ≠ s.rd SAFENET.pg SAFENET.CFG_ETYPE → s.wasDelivered f.src n = true →
          t.rd ETHSW.pg ETHSW.DUP_DISCARD_COUNT p = satInc 16 (s.rd ETHSW.pg ETHSW.DUP_DISCARD_COUNT p) ∧ t.sram = s.sram) ∧
        (s.ethMode = 0 → f.dst = s.mac → groupMac f.dst = false → ∀ q : Fin 4, s.rxQueue p f = some q →
          (ringNext (s.rd ETHSW.pg ETHSW.RXQ_SIZE_ENTRIES q) (s.rd ETHSW.pg ETHSW.RXQ_TAIL_INDEX q) = s.rd ETHSW.pg ETHSW.RXQ_HEAD_INDEX q →
            t.rd ETHSW.pg ETHSW.RX_DROP_COUNT = satInc 16 (s.rd ETHSW.pg ETHSW.RX_DROP_COUNT) ∧ t.sram = s.sram ∧
            bitOf (t.rd ETHSW.pg HDR.IRQ_STATUS_BITS) 3 = true) ∧
          (ringNext (s.rd ETHSW.pg ETHSW.RXQ_SIZE_ENTRIES q) (s.rd ETHSW.pg ETHSW.RXQ_TAIL_INDEX q) ≠ s.rd ETHSW.pg ETHSW.RXQ_HEAD_INDEX q →
            s.sramSound = true → inSram (s.rxDesc q) 16 = true → inSram (s.sramWord (s.rxDesc q)) f.bytes.length = true →
            s.rd ETHSW.pg ETHSW.RXQ_SIZE_ENTRIES q ≤ 1024 →
            (s.sramWord (s.rxDesc q) + f.bytes.length ≤ s.rxDesc q ∨ s.rxDesc q + 16 ≤ s.sramWord (s.rxDesc q)) →
            t.rd ETHSW.pg ETHSW.RXQ_TAIL_INDEX q =
              ringNext (s.rd ETHSW.pg ETHSW.RXQ_SIZE_ENTRIES q) (s.rd ETHSW.pg ETHSW.RXQ_TAIL_INDEX q) % 2 ^ 10 ∧
            bitOf (t.rd ETHSW.pg HDR.IRQ_STATUS_BITS) 1 = true ∧ t.bytesAt (s.sramWord (s.rxDesc q)) f.bytes.length = f.bytes ∧
            bitOf (t.sramWord (s.rxDesc q + 4)) 30 = true ∧ bitOf (t.sramWord (s.rxDesc q + 4)) 29 = false)) ∧
        (s.ethMode = 0 → mayForward f = true → groupMac f.dst = false → f.dst ≠ s.mac → f.dst ≠ f.src → s.learned f.dst = none →
          ∀ o : Fin 2, o ≠ p → s.portLive o = true → ((t.eth.line[o]).map fun x => x.bytes) = some (if s.tcActs f = true then udpSumZero f.bytes else f.bytes) ∧
            t.rd ETHSW.pg ETHSW.TX_FRAMES_COUNT o = (s.rd ETHSW.pg ETHSW.TX_FRAMES_COUNT o + 1) % 2 ^ 32))) ∧
    (∀ (ini : Initiator) (q : Fin 4) (v : Word), s.admits ini ETHSW.pg (0x068 + 0x10 * q.val) v.toNat = true →
      ∃ t, exec (.txHeadWrite ini q v) s = .next t ∧ t.rd ETHSW.pg ETHSW.TXQ_HEAD_INDEX q = v.toNat % 2 ^ 10 ∧ t.resp = ⟨.ok, []⟩ ∧
        sameRegsBut [ETHSW.TXQ_HEAD_INDEX.key ETHSW.pg q] s t) ∧
    (∀ (q : Fin 4) (frac : Fin 5),
      (s.ethRuns = false ∨ s.rd ETHSW.pg ETHSW.TXQ_TAIL_INDEX q = s.rd ETHSW.pg ETHSW.TXQ_HEAD_INDEX q ∨ (∀ x, s.eth.tx ≠ some (q, x)) →
        exec (.txFrameSent q frac) s = .next s) ∧
      (∀ lost : BitVec 2, s.eth.tx = some (q, lost) → s.ethRuns = true → s.rd ETHSW.pg ETHSW.TXQ_TAIL_INDEX q ≠ s.rd ETHSW.pg ETHSW.TXQ_HEAD_INDEX q → s.sramSound = true →
        inSram (s.txDesc q) 16 = true →
        ∃ t, exec (.txFrameSent q frac) s = .next t ∧ bitOf (t.rd ETHSW.pg HDR.IRQ_STATUS_BITS) 2 = true ∧
          t.rd ETHSW.pg ETHSW.TXQ_TAIL_INDEX q =
            ringNext (s.rd ETHSW.pg ETHSW.TXQ_SIZE_ENTRIES q) (s.rd ETHSW.pg ETHSW.TXQ_TAIL_INDEX q) % 2 ^ 10 ∧
          bitOf (t.sramWord (s.txDesc q + 4)) 30 = true ∧
          (bitsOf (s.sramWord (s.txDesc q + 4)) 0 11 < 60 ∨ bitsOf (s.sramWord (s.txDesc q + 4)) 12 2 = 3 →
            bitOf (t.sramWord (s.txDesc q + 4)) 29 = true ∧ t.eth.line = s.eth.line ∧ t.eth.seq = s.eth.seq) ∧
          (s.ethMode = 1 → bitsOf (s.sramWord (s.txDesc q + 4)) 12 2 = 0 → lost ≠ 0 → bitOf (t.sramWord (s.txDesc q + 4)) 29 = true) ∧
          (bitsOf (s.sramWord (s.txDesc q + 4)) 12 2 = 1 → s.portLive 0 = true → lost.getLsbD 0 = false → 60 ≤ bitsOf (s.sramWord (s.txDesc q + 4)) 0 11 →
            bitsOf (s.sramWord (s.txDesc q + 4)) 0 11 ≤ 1532 →
            inSram (s.sramWord (s.txDesc q)) (bitsOf (s.sramWord (s.txDesc q + 4)) 0 11) = true →
            bitOf (t.sramWord (s.txDesc q + 4)) 29 = false ∧
            ((t.eth.line[(0 : Fin 2)]).map fun x => (x.bytes, x.red)) =
              some (sentAs (bitOf (s.sramWord (s.txDesc q + 4)) 17)
                (s.bytesAt (s.sramWord (s.txDesc q)) (bitsOf (s.sramWord (s.txDesc q + 4)) 0 11)), .none) ∧
            t.rd ETHSW.pg ETHSW.TX_FRAMES_COUNT = (s.rd ETHSW.pg ETHSW.TX_FRAMES_COUNT + 1) % 2 ^ 32))) ∧
    (s.ethRuns = false ∨ s.ethMode = 0 → exec .supervisionSend s = .next s) ∧
    (s.ethRuns = true → s.ethMode ≠ 0 → ∀ p : Fin 2, ∃ t, exec .supervisionSend s = .next t ∧
      t.rd ETHSW.pg ETHSW.TX_FRAMES_COUNT p = (s.rd ETHSW.pg ETHSW.TX_FRAMES_COUNT p + if s.portLive p = true then 1 else 0) % 2 ^ 32) ∧
    (∀ p : Fin 2, ∃ t, exec (.supervisionTimeout p) s = .next t ∧
      (s.ethMode = 0 → t = s) ∧
      (s.ethMode = 1 → s.eth.nodes ≠ [] → s.flag ETHSW.pg (lanOkFld p) = true → t.flag ETHSW.pg (lanOkFld p) = false ∧
        bitOf (t.rd ETHSW.pg HDR.IRQ_STATUS_BITS) 4 = true) ∧
      (s.ethMode = 2 → s.flag ETHSW.pg ETHSW.STATUS_RING_OK = true → t.flag ETHSW.pg ETHSW.STATUS_RING_OK = false ∧
        bitOf (t.rd ETHSW.pg HDR.IRQ_STATUS_BITS) 4 = true)) ∧
    (∀ mac : BitVec 48, (∃ t, exec (.nodeAgeing mac) s = .next t ∧ t.eth.nodes = s.eth.nodes.filter (· ≠ mac) ∧
        t.rd ETHSW.pg ETHSW.NODES_COUNT = (s.eth.nodes.filter (· ≠ mac)).length % 2 ^ 9) ∧
      exec (.addressAgeing mac) s = .next { s with eth := { s.eth with table := s.eth.table.filter fun e => e.1 ≠ mac } }) ∧
    (∀ (ini : Initiator) (v : Word), s.admits ini ETHSW.pg 0x054 v.toNat = true → bitOf v.toNat 31 = true →
      ∃ t, exec (.mdioAccess ini v) s = .next t ∧
        (s.flag ETHSW.pg ETHSW.MDIO_DATA_BUSY = true → refusal s t ETHSW.pg 0x05 0x054 ini) ∧
        (s.flag ETHSW.pg ETHSW.MDIO_DATA_BUSY = false → t.flag ETHSW.pg ETHSW.MDIO_DATA_BUSY = true ∧
          t.eth.mdio = some ⟨bitOf v.toNat 10, BitVec.ofNat 5 (bitsOf v.toNat 5 5), BitVec.ofNat 5 v.toNat,
            BitVec.ofNat 16 (s.rd ETHSW.pg ETHSW.MDIO_DATA_DATA)⟩ ∧ t.resp = ⟨.ok, []⟩)) ∧
    (∀ d : BitVec 16, (s.eth.mdio = none → exec (.mdioDone d) s = .next s) ∧
      (∀ x, s.eth.mdio = some x → ∃ t, exec (.mdioDone d) s = .next t ∧ t.flag ETHSW.pg ETHSW.MDIO_DATA_BUSY = false ∧ t.eth.mdio = none ∧
        t.rd ETHSW.pg ETHSW.MDIO_DATA_DATA = (if x.write = true then s.rd ETHSW.pg ETHSW.MDIO_DATA_DATA else d.toNat)))

/-- Precision time. TIME advances at a tick by 4 ns × (1 + RATE × 2^−44) (R821); a Sync of the parent, with its Follow_Up where it is two-step,
gives OFFSET and the lock status (R826, R827); the peer delay exchange (R829); setting, stepping, accepting and rejecting (R831, R832, R834); a
write of PARENT or a missing Sync unlocks (R827); a schedule fires and its output falls (R836, R837). How OFFSET and LINK_DELAY are rounded to
whole ps is open, and the layout of the block's own messages is that of IEEE 1588 (log entry 25). -/
def Obligations.PrecisionTime : Prop :=
  ∀ s : State, Canonical s → s.live = true →
    (s.pending = [] → s.ptpRuns = true → ∀ τ : Nat,
      τ = ((s.ptp.time : Int) + 2 ^ 44 + s.rdInt PTP.pg PTP.RATE_ADJ).toNat % (2 ^ 64 * secU) →
      ∃ t, step s = .next t ∧ t.ptp.todo = [] ∧ (s.ptp.todo = [] → t.ptp.time = τ) ∧
        (∀ v : Nat, s.ptp.todo = [.set v] → t.ptp.time = v % (2 ^ 64 * secU)) ∧
        (∀ d : Int, s.ptp.todo = [.by_ d] → t.ptp.time = (((τ : Int) + d) % ((2 ^ 64 * secU : Nat) : Int)).toNat) ∧
        (s.ptp.todo = [.pending] → t.ptp.time = (((τ : Int) + s.ptp.pend) % ((2 ^ 64 * secU : Nat) : Int)).toNat ∧
          t.flag PTP.pg PTP.STATUS_JUMP_PENDING = false)) ∧
    (∀ (p : Fin 2) (m : PtpMsg) (frac : Fin 5),
      (s.fromParent p m = false → exec (.ptpSync p m frac) s = .next s ∧ exec (.followUp p m frac) s = .next s) ∧
      (s.fromParent p m = true → m.twoStep = true → exec (.ptpSync p m frac) s =
        .next { s with ptp := { s.ptp with sync := some (p, m, s.ingress p frac.val) } }) ∧
      (s.fromParent p m = true → m.twoStep = false → ∃ t, exec (.ptpSync p m frac) s = .next t ∧
        t.ptp.sync = none ∧ nearPs t.ptp.offset (s.offsetOf m (s.ingress p frac.val) m.corr.toInt) ∧ bitOf (t.rd PTP.pg HDR.IRQ_STATUS_BITS) 2 = true ∧
        t.flag PTP.pg PTP.STATUS_OFFSET_OK = decide (t.ptp.offset.natAbs < 1000000000) ∧
        (t.ptp.offset.natAbs ≤ s.rd PTP.pg PTP.LOCK_LOCK_NS * 1000 → 3 ≤ s.ptp.good → t.flag PTP.pg PTP.STATUS_LOCKED = true) ∧
        (s.rd PTP.pg PTP.LOCK_LOCK_NS * 1000 < t.ptp.offset.natAbs → 1 ≤ s.ptp.bad → t.flag PTP.pg PTP.STATUS_LOCKED = false) ∧
        t.flag PTP.pg PTP.STATUS_TRUSTED = (t.flag PTP.pg PTP.STATUS_LOCKED && t.flag PTP.pg PTP.STATUS_OFFSET_OK &&
          t.flag PTP.pg PTP.STATUS_NO_JUMP && t.flag PTP.pg PTP.STATUS_TIME_SET)) ∧
      (s.fromParent p m = true → ∀ (q : Fin 2) (y : PtpMsg) (t2 : Rat), s.ptp.sync = some (q, y, t2) →
        (p = q ∧ m.clock = y.clock ∧ m.port = y.port ∧ m.seq = y.seq →
          ∃ t, exec (.followUp p m frac) s = .next t ∧ t.ptp.sync = none ∧
            nearPs t.ptp.offset (s.offsetOf m t2 (y.corr.toInt + m.corr.toInt)) ∧ bitOf (t.rd PTP.pg HDR.IRQ_STATUS_BITS) 2 = true) ∧
        (¬(p = q ∧ m.clock = y.clock ∧ m.port = y.port ∧ m.seq = y.seq) → exec (.followUp p m frac) s = .next s))) ∧
    (∀ (p : Fin 2) (frac : Fin 5) (turn : Int) (m : PtpMsg) (late : Fin 62501),
      (s.pdelayOn p = false → exec (.pdelayReqSend p frac) s = .next s ∧ exec (.pdelayReqReceive p m frac late) s = .next s ∧
        exec (.pdelayRespReceive p turn frac) s = .next s) ∧
      (s.pdelayOn p = true →
        (∃ t, exec (.pdelayReqReceive p m frac late) s = .next t ∧ t = { s with regs := t.regs, eth := t.eth } ∧
          (∃ x, t.eth.line[p] = some x ∧ x.corr = s.turnaround p frac late * 65536 / 1000 ∧ x.vlan = s.vlanOf p ∧
            s.pdelayFrame p (s.ptpHeader p 0x03 m.domain m.seq m.corr ++ List.replicate 10 0 ++ (leBytes 8 m.clock.toNat).reverse ++
              (leBytes 2 m.port.toNat).reverse) x.bytes) ∧
          sameRegsBut [ETHSW.TX_FRAMES_COUNT.key ETHSW.pg p] s t ∧ t.rd ETHSW.pg ETHSW.TX_FRAMES_COUNT p = (s.rd ETHSW.pg ETHSW.TX_FRAMES_COUNT p + 1) % 2 ^ 32) ∧
        (∃ t, exec (.pdelayReqSend p frac) s = .next t ∧ t.ptp.req[p] = some (s.egress p frac.val) ∧
          t.ptp.reqSeq[p] = s.ptp.reqSeq[p] + 1 ∧
          (∃ x, t.eth.line[p] = some x ∧ s.pdelayFrame p (s.ptpHeader p 0x02 (BitVec.ofNat 8 (s.rd PTP.pg PTP.DOMAIN_NUMBER)) s.ptp.reqSeq[p] 0 ++
            List.replicate 20 0) x.bytes) ∧
          t.rd ETHSW.pg ETHSW.TX_FRAMES_COUNT p = (s.rd ETHSW.pg ETHSW.TX_FRAMES_COUNT p + 1) % 2 ^ 32 ∧
          t.rd PTP.pg PTP.PORT_LINK_DELAY_PS p = s.rd PTP.pg PTP.PORT_LINK_DELAY_PS p ∧
          (s.ptp.req[p] ≠ none → s.ptp.missed[p] = 2 → bitOf (t.rd PTP.pg HDR.IRQ_STATUS_BITS) 4 = true ∧
            t.rd PTP.pg PTP.PORT_PDELAY_FAIL_COUNT p = satInc 16 (s.rd PTP.pg PTP.PORT_PDELAY_FAIL_COUNT p))) ∧
        (s.ptp.req[p] = none → exec (.pdelayRespReceive p turn frac) s = .next s) ∧
        (∀ t1 : Rat, s.ptp.req[p] = some t1 → ∃ t, exec (.pdelayRespReceive p turn frac) s = .next t ∧ t.ptp.req[p] = none ∧
          t.ptp.missed[p] = 0 ∧ (0 ≤ (s.ingress p frac.val - t1 - turn) / 2 → (s.ingress p frac.val - t1 - turn) / 2 < 2 ^ 32 - 1 →
            nearPs (t.rd PTP.pg PTP.PORT_LINK_DELAY_PS p) ((s.ingress p frac.val - t1 - turn) / 2))))) ∧
    (s.ptpRuns = false → exec .ptpSyncTimeout s = .next s) ∧
    (s.ptpRuns = true → ∃ t, exec .ptpSyncTimeout s = .next t ∧ t.flag PTP.pg PTP.STATUS_LOCKED = false ∧
      t.flag PTP.pg PTP.STATUS_OFFSET_OK = false ∧ t.flag PTP.pg PTP.STATUS_TRUSTED = false ∧ t.ptp.time = s.ptp.time) ∧
    (∀ (ini : Initiator) (v : Word),
      (s.admits ini PTP.pg 0x04C v.toNat = true → ∃ t, exec (.rateWrite ini v) s = .next t ∧ t.rd PTP.pg PTP.RATE_ADJ = v.toNat ∧
        t.ptp = s.ptp ∧ t.resp = ⟨.ok, []⟩ ∧ sameRegsBut [PTP.RATE_ADJ.key PTP.pg 0] s t) ∧
      (s.admits ini PTP.pg 0x058 v.toNat = true → bitOf v.toNat 31 = true → ∃ t, exec (.setTime ini v) s = .next t ∧
        t.resp = ⟨.ok, []⟩ ∧ t.flag PTP.pg PTP.STATUS_TIME_SET = true ∧
        (s.flag PTP.pg PTP.STATUS_TIME_SET = false → t.ptp = { s.ptp with todo := s.ptp.todo ++
          [.set (s.rd64 PTP.pg PTP.SET_S_LO_S PTP.SET_S_HI_S * secU + v.toNat % 2 ^ 30 * nsU)] }) ∧
        (s.flag PTP.pg PTP.STATUS_TIME_SET = true →
          jumped s t (((s.rd64 PTP.pg PTP.SET_S_LO_S PTP.SET_S_HI_S * secU + v.toNat % 2 ^ 30 * nsU : Nat) : Int) - s.ptp.time))) ∧
      (s.admits ini PTP.pg 0x060 v.toNat = true → ∃ t, exec (.stepRequest ini v) s = .next t ∧ t.resp = ⟨.ok, []⟩ ∧
        (s.flag PTP.pg PTP.STATUS_TIME_SET = false → refusal s t PTP.pg 0x05 0x060 ini) ∧
        (s.flag PTP.pg PTP.STATUS_TIME_SET = true →
          jumped s t (signedOf 64 (s.rd PTP.pg PTP.STEP_LO_NS + 2 ^ 32 * v.toNat) * nsU))) ∧
      (s.admits ini PTP.pg 0x090 v.toNat = true → ∃ t, exec (.parentWrite ini v) s = .next t ∧ t.resp = ⟨.ok, []⟩ ∧
        t.flag PTP.pg PTP.STATUS_LOCKED = false ∧ t.rd PTP.pg PTP.PARENT_PORT_NUMBER = v.toNat % 2 ^ 16 ∧
        t.flag PTP.pg PTP.PARENT_EN = bitOf v.toNat 31)) ∧
    (∀ ini : Initiator,
      (s.admits ini PTP.pg 0x070 1 = true → ∃ t, exec (.accept ini) s = .next t ∧ t.resp = ⟨.ok, []⟩ ∧
        (isHost ini = false → refusal s t PTP.pg 0x01 0x070 ini) ∧
        (isHost ini = true → s.flag PTP.pg PTP.STATUS_JUMP_PENDING = false → t = s.done) ∧
        (isHost ini = true → s.flag PTP.pg PTP.STATUS_JUMP_PENDING = true → t.flag PTP.pg PTP.STATUS_JUMP_PENDING = false ∧
          t.ptp = { s.ptp with todo := s.ptp.todo ++ [.pending] })) ∧
      (s.admits ini PTP.pg 0x070 2 = true → ∃ t, exec (.reject ini) s = .next t ∧ t.resp = ⟨.ok, []⟩ ∧
        (isHost ini = false → refusal s t PTP.pg 0x01 0x070 ini) ∧
        (isHost ini = true → t.flag PTP.pg PTP.STATUS_JUMP_PENDING = false ∧ t.ptp = s.ptp))) ∧
    (∀ n : Fin 4,
      (s.schedOn n = false ∨ s.ptp.time < (s.sched n).next → exec (.timeEvent n) s = .next s) ∧
      (s.schedOn n = true → (s.sched n).next ≤ s.ptp.time → ∃ t, exec (.timeEvent n) s = .next t ∧
        t.rd PTP.pg PTP.TIMEO_COUNT_COUNT n = (s.rd PTP.pg PTP.TIMEO_COUNT_COUNT n + 1) % 2 ^ 32 ∧
        (t.sched n).out = s.flag PTP.pg PTP.TIMEO_CFG_OUT_EN n ∧ (t.sched n).fired = true ∧
        bitOf (t.rd PTP.pg HDR.IRQ_STATUS_BITS) 3 = true) ∧
      ((s.cyc - (s.sched n).until_).toNat < 2 ^ 63 → ∃ t, exec (.timeOutputEnd n) s = .next t ∧ t.timeO n = false ∧
        t = s.setSched n { s.sched n with out := false }) ∧
      (2 ^ 63 ≤ (s.cyc - (s.sched n).until_).toNat → exec (.timeOutputEnd n) s = .next s))

/-! ### Clocks, resets and power (17) -/

/-- The PLLs and the root. The lock detector holds a window's count to what its PLL's profile gives, within TOL (R852). Good windows declare a lock,
which ends a relock or a hop and stores the band of a search (R853, R858, R861, R862); bad ones lose it: SYSPLL puts its domains on substitutes
(R854), CLNPLL counts as loss of the root (R855) and, when it locks again, lets SYSPLL hop to a profile that was committed meanwhile (R860); a
stored band that misses is searched (R861); a root that returns relocks both (R869); the spread of the committed set starts with a triangle
(R848). That the counts of the windows and the band of a search come with the command is the model's choice (log
entry 14). -/
def Obligations.PllsAndTheRoot : Prop :=
  ∀ s : State, Canonical s → s.live = true →
    (∀ c : Nat, (s.windowGood false c = true ↔ 1024 ≤ c + s.rd CLOCK.pg CLOCK.LOCKCFG_TOL ∧ c ≤ 1024 + s.rd CLOCK.pg CLOCK.LOCKCFG_TOL) ∧
      (s.flag CLOCK.pg CLOCK.STATUS_SS_ACTIVE = false ∨ s.clk.spreadMode ≠ 1 →
        ∀ x ∈ [(0, 983), (1, 1024), (2, 1065)], s.rd CLOCK.pg CLOCK.SYSCFG_PROFILE = x.1 →
          (s.windowGood true c = true ↔ x.2 ≤ c + s.rd CLOCK.pg CLOCK.LOCKCFG_TOL ∧ c ≤ x.2 + s.rd CLOCK.pg CLOCK.LOCKCFG_TOL))) ∧
    (∀ (sys : Bool) (band : Byte) (cs : Vector (BitVec 12) 4), (∃ c ∈ cs.toList, s.windowGood sys c.toNat = false) →
      exec (.pllLockDeclared sys band cs) s = .next s) ∧
    (∀ (sys : Bool) (cs : Vector (BitVec 12) 2), (∃ c ∈ cs.toList, s.windowGood sys c.toNat = true) → exec (.pllLockLost sys cs) s = .next s) ∧
    (∀ (band : Byte) (cs : Vector (BitVec 12) 4),
      (s.clk.relocking = false → exec (.pllLockDeclared true band cs) s = .next s) ∧
      ((∀ c ∈ cs.toList, s.windowGood true c.toNat = true) → s.clk.relocking = true → ∃ t, exec (.pllLockDeclared true band cs) s = .next t ∧
        t.flag CLOCK.pg CLOCK.STATUS_SYS_LOCK = true ∧
        t.flag CLOCK.pg CLOCK.STATUS_SUBST = false ∧ t.rd CLOCK.pg CLOCK.STATUS_PROFILE_NOW = s.rd CLOCK.pg CLOCK.SYSCFG_PROFILE % 4 ∧
        t.clk.relocking = false ∧ t.clk.lockLoss = false ∧ bitOf (t.rd CLOCK.pg HDR.IRQ_STATUS_BITS) 1 = true ∧ t.flag CLOCK.pg CLOCK.STATUS_HOPPING = false ∧
        (s.flag CLOCK.pg CLOCK.STATUS_HOPPING = true → bitOf (t.rd CLOCK.pg HDR.IRQ_STATUS_BITS) 2 = true ∧
          t.rd CLOCK.pg CLOCK.HOP_COUNT_HOPS = (s.rd CLOCK.pg CLOCK.HOP_COUNT_HOPS + 1) % 2 ^ 16) ∧
        (s.clk.bandSearch = true → s.rd CLOCK.pg CLOCK.SYSCFG_PROFILE < 3 →
          t.rd CLOCK.pg (bandFld (s.rd CLOCK.pg CLOCK.SYSCFG_PROFILE)) = band.toNat ∧
          t.bandStored (s.rd CLOCK.pg CLOCK.SYSCFG_PROFILE) = true) ∧
        samePagesBut [CLOCK.pg] s t) ∧
      (s.clk.clnBandSearch = false → exec (.pllLockDeclared false band cs) s = .next s) ∧
      ((∀ c ∈ cs.toList, s.windowGood false c.toNat = true) → s.clk.clnBandSearch = true → ∃ t, exec (.pllLockDeclared false band cs) s = .next t ∧
        t.flag CLOCK.pg CLOCK.STATUS_CLN_LOCK = true ∧ t.clk.clnBandSearch = false ∧
        (s.clk.rootAbsent = true → t.clk.rootAbsent = false ∧ t.flag CLOCK.pg CLOCK.STATUS_ROOT_OK = true ∧ t.srcActive 52 = false ∧
          (s.clk.sysOff = false → s.flag CLOCK.pg CLOCK.STATUS_SYS_LOCK = true →
            (s.rd CLOCK.pg CLOCK.STATUS_PROFILE_NOW ≠ s.rd CLOCK.pg CLOCK.SYSCFG_PROFILE →
              t.clk.relocking = true ∧ t.flag CLOCK.pg CLOCK.STATUS_HOPPING = true ∧ t.flag CLOCK.pg CLOCK.STATUS_SUBST = true) ∧
            (s.rd CLOCK.pg CLOCK.STATUS_PROFILE_NOW = s.rd CLOCK.pg CLOCK.SYSCFG_PROFILE →
              t.clk.relocking = s.clk.relocking ∧ t.flag CLOCK.pg CLOCK.STATUS_SYS_LOCK = true))))) ∧
    (∀ cs : Vector (BitVec 12) 2, (∀ c ∈ cs.toList, s.windowGood true c.toNat = false) →
      s.flag CLOCK.pg CLOCK.STATUS_SYS_LOCK = true ∨ s.flag CLOCK.pg CLOCK.STATUS_HOPPING = true →
      ∃ t, exec (.pllLockLost true cs) s = .next t ∧ t.flag CLOCK.pg CLOCK.STATUS_SYS_LOCK = false ∧
        t.flag CLOCK.pg CLOCK.STATUS_SUBST = true ∧ t.flag CLOCK.pg CLOCK.STATUS_SS_ACTIVE = false ∧ t.clk.relocking = true ∧
        t.clk.lockLoss = true ∧
        t.clk.bandSearch = (s.flag CLOCK.pg CLOCK.STATUS_HOPPING || !s.bandStored (s.rd CLOCK.pg CLOCK.SYSCFG_PROFILE)) ∧
        t.rd CLOCK.pg CLOCK.LOCK_LOST_COUNT_SYS = satInc 16 (s.rd CLOCK.pg CLOCK.LOCK_LOST_COUNT_SYS) ∧
        bitOf (t.rd CLOCK.pg HDR.IRQ_STATUS_BITS) 0 = true ∧ samePagesBut [CLOCK.pg] s t ∧ t.cyc = s.cyc) ∧
    (∀ cs : Vector (BitVec 12) 2, s.flag CLOCK.pg CLOCK.STATUS_SYS_LOCK = false → s.flag CLOCK.pg CLOCK.STATUS_HOPPING = false →
      exec (.pllLockLost true cs) s = .next s) ∧
    (∀ cs : Vector (BitVec 12) 2, (∀ c ∈ cs.toList, s.windowGood false c.toNat = false) → s.flag CLOCK.pg CLOCK.STATUS_CLN_LOCK = true →
      ∃ t, exec (.pllLockLost false cs) s = .next t ∧ t.flag CLOCK.pg CLOCK.STATUS_CLN_LOCK = false ∧
        t.flag CLOCK.pg CLOCK.STATUS_ROOT_OK = false ∧ t.srcActive 52 = true ∧ t.clk.clnBandSearch = true ∧
        t.rd CLOCK.pg CLOCK.LOCK_LOST_COUNT_CLN = satInc 16 (s.rd CLOCK.pg CLOCK.LOCK_LOST_COUNT_CLN) ∧
        t.rd CLOCK.pg CLOCK.ROOT_LOSS_COUNT_COUNT = satInc 16 (s.rd CLOCK.pg CLOCK.ROOT_LOSS_COUNT_COUNT) ∧
        bitOf (t.rd CLOCK.pg HDR.IRQ_STATUS_BITS) 4 = true ∧
        ∀ n : Fin 16, t.flag (PWM.pg n) PWM.STATUS_CLK_SAFE = true ∧ t.flag (PWM.pg n) PWM.STATUS_DRIVING = false) ∧
    (∀ cs : Vector (BitVec 12) 2, s.flag CLOCK.pg CLOCK.STATUS_CLN_LOCK = false → exec (.pllLockLost false cs) s = .next s) ∧
    (s.clk.relocking = false ∨ s.clk.bandSearch = true → exec .bandMiss s = .next s) ∧
    (s.clk.relocking = true → s.clk.bandSearch = false → ∃ t, exec .bandMiss s = .next t ∧
      t.clk = { s.clk with bandSearch := true } ∧
      t.rd CLOCK.pg CLOCK.HOP_COUNT_BAND_MISS = satInc 16 (s.rd CLOCK.pg CLOCK.HOP_COUNT_BAND_MISS) ∧
      sameRegsBut [CLOCK.HOP_COUNT_BAND_MISS.key CLOCK.pg 0] s t) ∧
    (s.clk.rootAbsent = false ∨ s.clk.clnBandSearch = true → exec .rootClockReturn s = .next s) ∧
    (s.clk.rootAbsent = true → s.clk.clnBandSearch = false → ∃ t, exec .rootClockReturn s = .next t ∧
      t.flag CLOCK.pg CLOCK.STATUS_ROOT_OK = true ∧ t.flag CLOCK.pg CLOCK.STATUS_CLN_LOCK = false ∧ t.clk.clnBandSearch = true ∧
      t.srcActive 52 = false ∧ (s.clk.sysOff = false → t.clk.relocking = true ∧ t.clk.bandSearch = true ∧
        t.flag CLOCK.pg CLOCK.STATUS_HOPPING = decide (s.rd CLOCK.pg CLOCK.STATUS_PROFILE_NOW ≠ s.rd CLOCK.pg CLOCK.SYSCFG_PROFILE)) ∧
      ∀ n : Fin 16, t.flag (PWM.pg n) PWM.STATUS_CLK_SAFE = s.flag (PWM.pg n) PWM.STATUS_CLK_SAFE) ∧
    (s.flag CLOCK.pg CLOCK.STATUS_SUBST = true ∨ s.flag CLOCK.pg CLOCK.STATUS_SYS_LOCK = false →
      exec .spreadTriangleStart s = .next s) ∧
    (s.flag CLOCK.pg CLOCK.STATUS_SUBST = false → s.flag CLOCK.pg CLOCK.STATUS_SYS_LOCK = true →
      ∃ t, exec .spreadTriangleStart s = .next t ∧ t.clk.spreadMode = s.rd CLOCK.pg CLOCK.SYSCFG_SS_MODE ∧
        t.clk.spreadDepth = s.rd CLOCK.pg CLOCK.SYSCFG_SS_DEPTH ∧
        t.flag CLOCK.pg CLOCK.STATUS_SS_ACTIVE = decide (s.rd CLOCK.pg CLOCK.SYSCFG_SS_MODE ≠ 0) ∧
        sameRegsBut [CLOCK.STATUS_SS_ACTIVE.key CLOCK.pg 0] s t)

/-- Resets. Each holds the device with CYC 0, mode BOOT, power state P0 and its cause, the cause before it and the count of resets, and keeps what
the array and the flash hold; the AON fields lose their value at power-on only (R870, R871); RSTREQ_N (R873); SWRST (R874); the release with
straps and locks (R875), with the root present only (R876); nothing is read of RSTREQ_N in P4 (R882). A root that is lost or returns without its
clocks running is known from then on (R876). That every reset leaves the bytes of the flash and the array as they stand is log entry 27;
the free band of a PLL at the release is log entry 3. -/
def Obligations.ResetsAndTheirRelease : Prop :=
  ∀ s : State, Canonical s →
    (∃ t, exec .powerOnReset s = .next t ∧ t.rd RESET.pg RESET.CAUSE_CAUSE = 1 ∧ t.rd RESET.pg RESET.RESET_COUNT_COUNT = 0 ∧
      t.regs = [] ∧ t.cyc = 0 ∧ t.pwr.held = true ∧ t.pwr.state = 0 ∧ t.sec.otp = s.sec.otp ∧ t.sec.flash = s.sec.flash ∧
      t.pantry = s.pantry) ∧
    (s.pwr.held = true → s.rd RESET.pg RESET.CAUSE_CAUSE ≤ 2 → exec .resetNAssert s = .next s) ∧
    (s.pwr.held = false → ∃ t, exec .resetNAssert s = .next t ∧ resetBy s t 2 ∧ t.sec.otp = s.sec.otp ∧ t.sec.flash = s.sec.flash) ∧
    (s.pwr.ignoring = true ∨ s.pwr.rstreq = true ∨ s.pwr.state = 4 → exec .rstreqReset s = .next s) ∧
    (s.pwr.ignoring = false → s.pwr.rstreq = false → s.pwr.state ≠ 4 → ∃ t, exec .rstreqReset s = .next t ∧ t.pwr.rstreq = true ∧
      t.pwr.held = true ∧ t.flag RESET.pg RESET.STATUS_RSTREQ_LOW = true ∧ (s.pwr.held = false → resetBy s t 3) ∧
      (s.pwr.held = true → sameRegsBut [RESET.STATUS_RSTREQ_LOW.key RESET.pg 0] s t)) ∧
    (s.pwr.rstreq = false → exec .rstreqRelease s = .next s ∧ exec .rstreqStuck s = .next s) ∧
    (s.pwr.rstreq = true →
      (∃ t, exec .rstreqRelease s = .next t ∧ t.pwr = { s.pwr with rstreq := false } ∧ t.flag RESET.pg RESET.STATUS_RSTREQ_LOW = false ∧
        sameRegsBut [RESET.STATUS_RSTREQ_LOW.key RESET.pg 0] s t) ∧
      ∃ t, exec .rstreqStuck s = .next t ∧ t.pwr.rstreq = false ∧ t.pwr.ignoring = true ∧
        t.flag RESET.pg RESET.RSTREQ_STUCK_STUCK = true ∧ t.flag RESET.pg RESET.STATUS_RSTREQ_IGNORED = true ∧
        t.rd RESET.pg RESET.RSTREQ_STUCK_COUNT = satInc 8 (s.rd RESET.pg RESET.RSTREQ_STUCK_COUNT)) ∧
    (s.live = false → exec .rootClockLoss s = .next { s with clk := { s.clk with rootAbsent := true } } ∧
      exec .rootClockReturn s = .next { s with clk := { s.clk with rootAbsent := false } }) ∧
    (s.pwr.ignoring = false ∨ s.pwr.state = 4 → exec .rstreqUnignore s = .next s) ∧
    (s.pwr.ignoring = true → s.pwr.state ≠ 4 → ∃ t, exec .rstreqUnignore s = .next t ∧ t.pwr = { s.pwr with ignoring := false } ∧
      t.flag RESET.pg RESET.STATUS_RSTREQ_IGNORED = false ∧ t.flag RESET.pg RESET.RSTREQ_STUCK_STUCK = s.flag RESET.pg RESET.RSTREQ_STUCK_STUCK) ∧
    (∀ ini : Initiator, s.admits ini RESET.pg 0x048 0xD1 = true →
      ∃ t, exec (.swrst ini) s = .next t ∧
        (s.holds ini 0 = false → refusal s t RESET.pg 0x01 0x048 ini) ∧
        (s.holds ini 0 = true → isHost ini = false ∨ s.mode = mSYNC ∨ s.mode = mGRID ∨ s.mode = mISLAND → refusal s t RESET.pg 0x05 0x048 ini) ∧
        (s.holds ini 0 = true → isHost ini = true → s.mode = mBOOT ∨ s.mode = mCONFIG ∨ s.mode = mREADY ∨ s.mode = mSAFE → resetBy s t 4)) ∧
    (∀ st : Straps,
      (s.pwr.held = false ∨ s.pwr.rstreq = true ∨ s.clk.rootAbsent = true → exec (.resetRelease st) s = .next s) ∧
      (s.pwr.held = true → s.pwr.rstreq = false → s.clk.rootAbsent = false → ∃ t, exec (.resetRelease st) s = .next t ∧ t.pwr = { s.pwr with held := false } ∧
        t.flag CLOCK.pg CLOCK.STATUS_SYS_LOCK = true ∧ t.flag CLOCK.pg CLOCK.STATUS_CLN_LOCK = true ∧
        t.flag CLOCK.pg CLOCK.STATUS_ROOT_OK = true ∧ t.flag SYS.pg SYS.STRAPS_PORCH_A = st.porchA ∧
        t.flag SYS.pg SYS.STRAPS_PORCH_B = st.porchB ∧ t.rd SYS.pg SYS.STRAPS_DEVID = st.devid.toNat ∧ t.rd REDUN.pg REDUN.ROLE_MEMBER = st.devid.toNat ∧
        t.flag (portPg .A) PORCH.LINK_UP = st.porchA ∧ t.flag (portPg .B) PORCH.LINK_UP = st.porchB ∧ t.mode = s.mode ∧ t.cyc = s.cyc))

/-- Power states. A command is refused by R877 and R878, where a cause of SAFE_STOP that acts at its tick stands for that mode (R883), changes
nothing for the state in force, and else starts the transition; the transition ends with STATE and PREV (R879), which is one command however many
ticks it takes (log entry 7), and waits for the KEEP snapshot (log entry 39); a wake event ends P3 with cause 6 and its source, the metrology partition kept (R871, R881). -/
def Obligations.PowerStatesAndWake : Prop :=
  ∀ (s : State) (ini : Initiator), Canonical s →
    (∀ k : Nat, s.flag POWER.pg POWER.STATUS_BUSY = false → s.rd REDUN.pg REDUN.STATUS_STATE = 0 → k < 4 →
      s.powerRefuse k = if k ≠ 0 ∧ s.forming = true ∧ s.dueCauses = [] then some 1 else none) ∧
    (s.admits ini POWER.pg 0x044 0 = true → ∃ t, exec (.powerCmdP0 ini) s = .next t ∧ powerTaken s t ini 0) ∧
    (s.admits ini POWER.pg 0x044 1 = true → ∃ t, exec (.powerCmdP1 ini) s = .next t ∧ powerTaken s t ini 1) ∧
    (s.admits ini POWER.pg 0x044 2 = true → ∃ t, exec (.powerCmdP2 ini) s = .next t ∧ powerTaken s t ini 2) ∧
    (s.admits ini POWER.pg 0x044 3 = true → ∃ t, exec (.powerCmdP3 ini) s = .next t ∧ powerTaken s t ini 3) ∧
    (s.admits ini POWER.pg 0x044 4 = true → ∃ t, exec (.powerCmdP4 ini) s = .next t ∧ powerTaken s t ini 4) ∧
    (∃ t, exec .powerTransitionDone s = .next t ∧ t.pending = s.pending) ∧
    (s.noneWaits = true → s.pwr.target = none ∨ s.pwr.keepDue = true → exec .powerTransitionDone s = .next s) ∧
    (s.noneWaits = true → s.live = true → s.pwr.stopDue = false → s.pwr.keepDue = false → s.someRun = false → s.pwr.wakeDue = none →
      ∀ k : Nat, s.pwr.target = some k → k ≤ 4 → ∃ t, exec .powerTransitionDone s = .next t ∧ t.pwr.state = k ∧ t.pwr.target = none ∧
        t.rd POWER.pg POWER.STATE_STATE = k ∧ t.rd POWER.pg POWER.STATE_PREV = s.pwr.state % 8 ∧
        t.flag POWER.pg POWER.STATUS_BUSY = false ∧ bitOf (t.rd POWER.pg HDR.IRQ_STATUS_BITS) 0 = true ∧
        (k = 2 → t.flag CLOCK.pg CLOCK.STATUS_SYS_LOCK = false ∧ t.flag CLOCK.pg CLOCK.STATUS_SUBST = true ∧ t.clk.sysOff = true) ∧
        (s.pwr.state = 2 → k < 2 → t.clk.sysOff = false) ∧ (2 ≤ k → ∀ n : Fin 8, t.capState n = capSTOPPED)) ∧
    (∀ src : Fin 3,
      (s.pwr.held = true ∨ s.wakeEnabled src = false → exec (.wake src) s = .next s) ∧
      (s.pwr.held = false → s.wakeEnabled src = true → s.pwr.state = 3 → ∃ t, exec (.wake src) s = .next t ∧
        resetBy s t 6 ∧ t.rd POWER.pg POWER.WAKE_SRC = src.val + 1 ∧ t.metro = { s.metro with chan := t.metro.chan } ∧
        ∀ f ∈ METRO.fields, ∀ i < f.cnt, t.rd METRO.pg f i = s.rd METRO.pg f i))

/-! ### Security, debug and the flash (18) -/

/-- The Cellar's commands and attestation. Each is refused or begun by R894 and completes with the RESULT of R893, R903, R905 and R906; PROVISION
burns the hashes, RETURN takes the authorisation that is staged and its challenge (R893), ADVANCE never lowers a counter (R905), a payload that
disagrees with the array closes PROVISION and SEAL for good (R892); at the completion a transition that was done and read back is in force, one
that was not leaves the old state (R889, R890, R892). A report carries the nonce, the lifecycle and the signature of its body under the
identity key (R907, R908). The RESULT of a command that a memory error keeps from its bytes is free (log entry 3); when the bits of a payload
are burnt is log entry 12, the order of the checks and the layout of a directory log entry 26, the algorithms log entry 53. -/
def Obligations.CellarCommandsAndAttestation : Prop :=
  ∀ (s : State) (ini : Initiator), Canonical s →
    (s.admits ini CELLAR.pg 0x04C 1 = true → ∃ t, exec (.provision ini) s = .next t ∧ cellarTaken s t ini 1 ∧
      (s.cellarFree ini = true →
        (s.lifecycle ≠ lcBLANK → t.sec.cmd = some (1, 1, 0) ∧ t.sec.otp = s.sec.otp) ∧
        (s.lifecycle = lcBLANK → s.mode ≠ mCONFIG → t.sec.cmd = some (1, 2, 0) ∧ t.sec.otp = s.sec.otp) ∧
        (s.lifecycle = lcBLANK → s.mode = mCONFIG → inSram (s.rd CELLAR.pg CELLAR.SRC_ADDR) 96 = false → t.sec.cmd = some (1, 8, 0) ∧
          t.sec.otp = s.sec.otp) ∧
        (s.lifecycle = lcBLANK → s.mode = mCONFIG → inSram (s.rd CELLAR.pg CELLAR.SRC_ADDR) 96 = true → s.sramSound = true →
          (s.sec.conflict = true → t.sec.cmd = some (1, 6, 0) ∧ t.sec.otp = s.sec.otp) ∧
          (s.sec.conflict = false → s.otpCount otpOwner0 1280 = 0 → t.sec.cmd = some (1, 0, 0) ∧ t.sec.conflict = false ∧
            t.otpBytes otpOwner0 96 = s.bytesAt (s.rd CELLAR.pg CELLAR.SRC_ADDR) 96 ∧ t.lifecycle = lcBLANK)))) ∧
    (s.admits ini CELLAR.pg 0x04C 2 = true → ∃ t, exec (.seal ini) s = .next t ∧ cellarTaken s t ini 2 ∧
      (s.cellarFree ini = true →
        (s.lifecycle ≠ lcPROVISIONED → t.sec.cmd = some (2, 1, 0) ∧ t.sec.otp = s.sec.otp) ∧
        (s.lifecycle = lcPROVISIONED → s.mode ≠ mCONFIG → t.sec.cmd = some (2, 2, 0) ∧ t.sec.otp = s.sec.otp) ∧
        (s.lifecycle = lcPROVISIONED → s.mode = mCONFIG → s.flag METRO.pg METRO.STATUS_CAL_OK = false ∨
          s.flag METRO.pg METRO.STATUS_FW_OK = false ∨ s.flag PANTRY.pg PANTRY.STATUS_READY = false →
          t.sec.cmd = some (2, 7, 0) ∧ t.sec.otp = s.sec.otp) ∧
        (s.lifecycle = lcPROVISIONED → s.mode = mCONFIG → s.flag METRO.pg METRO.STATUS_CAL_OK = true →
          s.flag METRO.pg METRO.STATUS_FW_OK = true → s.flag PANTRY.pg PANTRY.STATUS_READY = true →
          (∀ p : Fin 9, (s.metro.meter.get p).sess.isNone = true) →
          ∀ payload : List Byte, payload = s.metro.cal ++ leBytes 2 s.pantryCfgNat ++ s.metHash →
            (s.sec.conflict = true ∨ s.otpAgrees otpSeal payload = false → t.sec.cmd = some (2, 6, 0) ∧ t.sec.conflict = true ∧
              t.sec.otp = s.sec.otp) ∧
            (s.sec.conflict = false → s.otpAgrees otpSeal payload = true → t.sec.cmd = some (2, 0, 0) ∧ t.sec.conflict = false)))) ∧
    (s.admits ini CELLAR.pg 0x04C 3 = true → ∃ t, exec (.returnCmd ini) s = .next t ∧ cellarTaken s t ini 3 ∧ t.sec.otp = s.sec.otp ∧
      (s.cellarFree ini = true →
        (s.lifecycle = lcBLANK ∨ s.lifecycle = lcRETURNED → t.sec.cmd = some (3, 1, 0) ∧ t.sec.challenge = s.sec.challenge) ∧
        (s.lifecycle = lcPROVISIONED ∨ s.lifecycle = lcSEALED → s.forming = true → t.sec.cmd = some (3, 2, 0) ∧
          t.sec.challenge = s.sec.challenge) ∧
        (s.lifecycle = lcPROVISIONED ∨ s.lifecycle = lcSEALED → s.forming = false →
          (s.flag DEBUG.pg DEBUG.AUTH_RETURN = false ∨ s.flag DEBUG.pg DEBUG.AUTH_KEYSEL = false ∨ s.authVerifies = false →
            t.sec.cmd = some (3, 3, 0) ∧ t.sec.challenge = s.sec.challenge) ∧
          (s.flag DEBUG.pg DEBUG.AUTH_RETURN = true → s.flag DEBUG.pg DEBUG.AUTH_KEYSEL = true → s.authVerifies = true →
            t.sec.cmd = some (3, 0, 0) ∧ t.sec.challenge = none)))) ∧
    (s.challengeFresh = false → s.authVerifies = false) ∧
    (∀ c : Fin 4, s.admits ini CELLAR.pg 0x04C (4 + 16 * c.val) = true → ∃ t, exec (.advance ini c) s = .next t ∧ cellarTaken s t ini 4 ∧
      (∀ k < 4, s.rollback k ≤ t.rollback k) ∧
      (s.cellarFree ini = true →
        (s.mode ≠ mCONFIG → t.sec.cmd = some (4, 2, 0) ∧ t.sec.otp = s.sec.otp) ∧
        (s.mode = mCONFIG → s.lifecycle = lcSEALED → c = 2 → t.sec.cmd = some (4, 1, 0) ∧ t.sec.otp = s.sec.otp) ∧
        (s.mode = mCONFIG → s.lifecycle ≠ lcSEALED ∨ c ≠ 2 → t.sec.cmd = some (4, 0, 0) ∧
          ∀ n : Nat, s.lowestSvn c = some n → min 64 n ≤ t.rollback c))) ∧
    (∀ (slotB : Bool) (v : List (Fin 16)), s.admits ini CELLAR.pg 0x04C (5 + 16 * bit01 slotB) = true →
      ∃ t, exec (.check ini slotB v) s = .next t ∧ cellarTaken s t ini 5 ∧ t.sec.otp = s.sec.otp ∧ t.mode = s.mode ∧
        (s.cellarFree ini = true →
          (s.mode ≠ mCONFIG → s.mode ≠ mREADY → t.sec.cmd = some (5, 2, 0)) ∧
          (s.mode = mCONFIG ∨ s.mode = mREADY → readDir s.flashByte (slotBase (bit01 slotB)) 0 = none →
            (t.sec.cmd.map fun x => x.2.1) = some 5))) ∧
    (s.admits ini CELLAR.pg 0x04C 6 = true →
      ∃ t, exec (.ramBoot ini) s = .next t ∧ cellarTaken s t ini 6 ∧ t.mode = s.mode ∧
        (s.cellarFree ini = true → s.mode ≠ mBOOT ∨ s.flag CELLAR.pg CELLAR.STATUS_RECOVERY = false → t.sec.cmd = some (6, 2, 0)) ∧
        (s.cellarFree ini = true → s.mode = mBOOT → s.flag CELLAR.pg CELLAR.STATUS_RECOVERY = true → s.sramSound = true →
          readDir s.byteAt (s.rd CELLAR.pg CELLAR.SRC_ADDR) (s.rd CELLAR.pg CELLAR.SRC_ADDR) = none →
          (t.sec.cmd.map fun x => x.2.1) = some 5)) ∧
    (s.live = true → ∀ burnOk : Bool,
      (s.sec.cmd = none → exec (.cellarCmdDone burnOk) s = .next s) ∧
      (∀ (op r e : Nat), s.sec.cmd = some (op, r, e) → ∃ t, exec (.cellarCmdDone burnOk) s = .next t ∧ t.sec.cmd = none ∧
        t.flag CELLAR.pg CELLAR.CMD_STATUS_BUSY = false ∧ bitOf (t.rd CELLAR.pg HDR.IRQ_STATUS_BITS) 0 = true ∧
        (r ≠ 0 → t.rd CELLAR.pg CELLAR.CMD_STATUS_RESULT = r % 16 ∧ t.rd CELLAR.pg CELLAR.CMD_STATUS_ENTRY = e % 16 ∧
          t.sec.otp = s.sec.otp ∧ t.lifecycle = s.lifecycle) ∧
        (r = 0 → op ≤ 4 → burnOk = false → t.rd CELLAR.pg CELLAR.CMD_STATUS_RESULT = 6 ∧ t.lifecycle = s.lifecycle) ∧
        (r = 0 → burnOk = true → t.rd CELLAR.pg CELLAR.CMD_STATUS_RESULT = 0 ∧
          (op = 1 → s.lifecycle = lcBLANK → t.lifecycle = lcPROVISIONED) ∧
          (op = 2 → s.lifecycle = lcPROVISIONED → t.lifecycle = lcSEALED) ∧
          (op = 3 → t.lifecycle = lcRETURNED ∧ t.metroSeed = List.replicate 32 0xFF ∧
            t.flag METRO.pg METRO.STATUS_KEY_OK = false) ∧
          (op = 4 ∨ op = 5 → t.sec.otp = s.sec.otp) ∧
          t.rd CELLAR.pg CELLAR.LIFECYCLE_STATE = t.lifecycle))) ∧
    (s.admits ini ATTEST.pg 0x060 1 = true → ∃ t, exec (.attestGo ini) s = .next t ∧ t.resp = ⟨.ok, []⟩ ∧
      (s.flag ATTEST.pg ATTEST.RESULT_BUSY = true → refusal s t ATTEST.pg 0x05 0x060 ini) ∧
      (s.flag ATTEST.pg ATTEST.RESULT_BUSY = false → t.flag ATTEST.pg ATTEST.RESULT_BUSY = true ∧
        t.sec.attest = some (bit01 (s.flag DEBUG.pg DEBUG.HALTED_SEC)))) ∧
    (s.live = true → (s.sec.attest = none → exec .attestDone s = .next s) ∧
      (∀ c : Nat, s.sec.attest = some c → ∃ t, exec .attestDone s = .next t ∧ t.sec.attest = none ∧
        t.flag ATTEST.pg ATTEST.RESULT_BUSY = false ∧ t.rd ATTEST.pg ATTEST.RESULT_CODE = c % 8 ∧
        bitOf (t.rd ATTEST.pg HDR.IRQ_STATUS_BITS) 0 = true ∧ samePagesBut [ATTEST.pg] s t ∧
        (c = 0 → (∀ i < 8, t.rd ATTEST.pg ATTEST.REPORT_BYTES (4 + i) = s.rd ATTEST.pg ATTEST.NONCE_BYTES i) ∧
          t.rd ATTEST.pg ATTEST.REPORT_BYTES % 2 ^ 16 = 1 + 256 * s.lifecycle ∧
          ∀ i < 16, t.rd ATTEST.pg ATTEST.REPORT_BYTES (48 + i) =
            ofLeBytes (((edSign s.identitySeed s.reportBody).drop (4 * i)).take 4))))

/-- Debug and the flash. A challenge, a GO, which is open until the next tick (log entry 26) and then opens a session or fails, the lock-out and the ends of a session (R912, R913, R915); halts of loop
engines, supervisor pairs and cores and their release (R914, R916 to R920); an operation on the flash starts and completes with its RESULT, and
what it erased, programmed or read (R925), all at its completion (log entry 26). -/
def Obligations.DebugSessionsAndFlash : Prop :=
  ∀ (s : State) (ini : Initiator), Canonical s →
    (s.admits ini DEBUG.pg 0x060 1 = true → ∃ t, exec (.chalNew ini) s = .next t ∧ t.sec = { s.sec with challenge := some s.cyc } ∧
      t.resp = ⟨.ok, []⟩ ∧ sameRegsBut ((List.range 8).map fun i => DEBUG.CHALLENGE_BYTES.key DEBUG.pg i) s t) ∧
    (s.admits ini DEBUG.pg 0x0C8 1 = true → ∃ t, exec (.authGo ini) s = .next t ∧ goTaken s t ini) ∧
    (s.live = true → s.pending = [] → ∀ o : AuthOpen, s.sec.auth = some o → ∃ t, step s = .next t ∧ t.cyc = s.cyc + 1 ∧ goEnded s t o) ∧
    (s.live = true → ∃ t, exec .authLockoutEnd s = .next t ∧ t.flag DEBUG.pg DEBUG.STATUS_LOCKOUT = false ∧
      t = { s with regs := t.regs } ∧ sameRegsBut [DEBUG.STATUS_LOCKOUT.key DEBUG.pg 0] s t) ∧
    (s.admits ini DEBUG.pg 0x0D0 1 = true →
      (s.flag DEBUG.pg DEBUG.STATUS_SESSION_OPEN = false → exec (.debugSessionEnd ini) s = .next s.done) ∧
      (s.flag DEBUG.pg DEBUG.STATUS_SESSION_OPEN = true → ∃ t, exec (.debugSessionEnd ini) s = .next t ∧ t.sessionEnded 1)) ∧
    (s.live = true →
      (s.flag DEBUG.pg DEBUG.STATUS_SESSION_OPEN = false → exec .sessionExpiry s = .next s) ∧
      (s.flag DEBUG.pg DEBUG.STATUS_SESSION_OPEN = true → ∃ t, exec .sessionExpiry s = .next t ∧ t.sessionEnded 2)) ∧
    (∀ (mask : BitVec 16) (n : Fin 16),
      (s.admits ini DEBUG.pg 0x0D8 mask.toNat = true → ∃ t, exec (.leHalt ini mask) s = .next t ∧ t.resp = ⟨.ok, []⟩ ∧
        (ini ≠ .dap ∨ s.granted 1 = false → refusal s t DEBUG.pg 0x05 0x0D8 ini) ∧
        (ini = .dap → s.granted 1 = true → (mask.getLsbD n = true → (t.leUnit n).halted = true ∧
            bitOf (t.rd DEBUG.pg DEBUG.LE_HALT_ENGINE) n = (bitOf (s.rd DEBUG.pg DEBUG.LE_HALT_ENGINE) n || !(s.leUnit n).halted) ∧
            ((s.leUnit n).halted = false → bitOf (t.rd DEBUG.pg HDR.IRQ_STATUS_BITS) 2 = true ∧
              (s.forming = true → s.inSet = false → (0x11, s.cyc) ∈ t.modes.causes))) ∧
          (mask.getLsbD n = false → (t.leUnit n).halted = (s.leUnit n).halted))) ∧
      (s.admits ini DEBUG.pg 0x0DC mask.toNat = true → ∃ t, exec (.leResume ini mask) s = .next t ∧ t.resp = ⟨.ok, []⟩ ∧
        (ini ≠ .dap ∨ s.granted 1 = false → refusal s t DEBUG.pg 0x05 0x0DC ini) ∧
        (ini = .dap → s.granted 1 = true → (t.leUnit n).halted = ((s.leUnit n).halted && !mask.getLsbD n))) ∧
      (s.admits ini DEBUG.pg 0x0E0 n.val = true → ∃ t, exec (.leStep ini n) s = .next t ∧ t.resp = ⟨.ok, []⟩ ∧
        (ini ≠ .dap ∨ s.granted 1 = false → refusal s t DEBUG.pg 0x05 0x0E0 ini) ∧
        (ini = .dap → s.granted 1 = true → (s.leUnit n).halted = false ∨ (s.leUnit n).run = none → t = s.done) ∧
        (∀ run : LeRun, (s.leUnit n).run = some run → ini = .dap → s.granted 1 = true → (s.leUnit n).halted = true →
          s.flag LPS.pg LPS.INJECT_ARM = false → s.parityOk run.pc = true → leFields (s.lpsWord run.pc) = ⟨0x00, 0, false, 0, 0, 0, 0, 0⟩ →
          (t.leUnit n).run = some (s.runAfter run 1) ∧ (t.leUnit n).halted = true))) ∧
    (∀ p : Pair, s.live = true →
      (s.granted 0 = false ∨ s.flag DEBUG.pg (haltedFld p) = true → exec (.supHalt p) s = .next s) ∧
      (s.granted 0 = true → s.flag DEBUG.pg (haltedFld p) = false → ∃ t, exec (.supHalt p) s = .next t ∧
        t.flag DEBUG.pg (haltedFld p) = true ∧ bitOf (t.rd DEBUG.pg HDR.IRQ_STATUS_BITS) 2 = true ∧ t.mode = s.mode ∧
        (s.forming = true → s.inSet = false → (0x11, s.cyc) ∈ t.modes.causes) ∧
        ∀ n : Fin 16, t.flag (PWM.pg n) PWM.STATUS_HALT_SAFE = true ∧ t.flag (PWM.pg n) PWM.STATUS_DRIVING = false)) ∧
    (s.live = true →
      (s.granted 2 = true → s.flag DEBUG.pg DEBUG.HALTED_SEC = false → ∃ t, exec (.coreHalt .security) s = .next t ∧
        t.flag DEBUG.pg DEBUG.HALTED_SEC = true ∧ bitOf (t.rd DEBUG.pg HDR.IRQ_STATUS_BITS) 2 = true ∧
        t = { s with regs := t.regs, porchA := t.porchA, porchB := t.porchB } ∧ samePagesBut [DEBUG.pg, IRQ.pg] s t) ∧
      (s.granted 3 = true → s.flag DEBUG.pg DEBUG.HALTED_MET = false → ∃ t, exec (.coreHalt .metrology) s = .next t ∧
        t.flag DEBUG.pg DEBUG.HALTED_MET = true ∧ t.mode = s.mode) ∧
      (s.granted 2 = false → exec (.coreHalt .security) s = .next s) ∧ (s.granted 3 = false → exec (.coreHalt .metrology) s = .next s) ∧
      ∀ (ps : List Pair) (cs : List Core), haltListsOk ps cs = true → ∃ t, exec (.haltRelease ps cs) s = .next t ∧
        (∀ p ∈ ps, s.lsHalted p = false → t.flag DEBUG.pg (haltedFld p) = false) ∧
        (∀ p : Pair, p ∉ ps ∨ s.lsHalted p = true → t.flag DEBUG.pg (haltedFld p) = s.flag DEBUG.pg (haltedFld p)) ∧
        (Core.security ∈ cs → t.flag DEBUG.pg DEBUG.HALTED_SEC = false) ∧ (Core.metrology ∈ cs → t.flag DEBUG.pg DEBUG.HALTED_MET = false)) ∧
    (∀ id : BitVec 24, s.admits ini XFLASH.pg 0x044 (2 ^ 31 + 1) = true →
      ∃ t, exec (.readId ini id) s = .next t ∧ flashTaken s t ini 1 ∧
        (s.flag XFLASH.pg XFLASH.OP_STATUS_BUSY = false → t.sec.flashId = id.toNat)) ∧
    (s.admits ini XFLASH.pg 0x044 (2 ^ 31 + 2) = true → ∃ t, exec (.erase4k ini) s = .next t ∧ flashTaken s t ini 2) ∧
    (s.admits ini XFLASH.pg 0x044 (2 ^ 31 + 3) = true → ∃ t, exec (.erase64k ini) s = .next t ∧ flashTaken s t ini 3) ∧
    (s.admits ini XFLASH.pg 0x044 (2 ^ 31 + 4) = true → ∃ t, exec (.program ini) s = .next t ∧ flashTaken s t ini 4) ∧
    (s.admits ini XFLASH.pg 0x044 (2 ^ 31 + 5) = true → ∃ t, exec (.xflashRead ini) s = .next t ∧ flashTaken s t ini 5) ∧
    (∀ ok : Bool, s.live = true →
      (s.sec.flashOp = none → exec (.xflashOpDone ok) s = .next s) ∧
      (∀ op : FlashOp, s.sec.flashOp = some op → 1 ≤ op.code → op.code ≤ 5 → ∃ t, exec (.xflashOpDone ok) s = .next t ∧
        t.sec.flashOp = none ∧ t.flag XFLASH.pg XFLASH.OP_STATUS_BUSY = false ∧ t.flag XFLASH.pg XFLASH.STATUS_READY = true ∧
        (op.result ≠ 0 → t.rd XFLASH.pg XFLASH.OP_STATUS_RESULT = op.result % 8 ∧ t.sec.flash = s.sec.flash ∧ t.sram = s.sram ∧
          bitOf (t.rd XFLASH.pg HDR.IRQ_STATUS_BITS) 1 = true) ∧
        (op.result = 0 → ok = false → t.rd XFLASH.pg XFLASH.OP_STATUS_RESULT = 2 ∧
          bitOf (t.rd XFLASH.pg HDR.IRQ_STATUS_BITS) 1 = true) ∧
        (op.result = 0 → ok = true → s.sramSound = true →
          (op.code = 1 → t.rd XFLASH.pg XFLASH.FLASH_ID_ID = s.sec.flashId % 2 ^ 24) ∧
          (op.code = 2 → ∀ a, t.flashByte a = if op.off / 4096 = a / 4096 then 0xFF else s.flashByte a) ∧
          (op.code = 3 → ∀ a, t.flashByte a = if op.off / 65536 = a / 65536 then 0xFF else s.flashByte a) ∧
          (op.code = 4 → ∀ a, t.flashByte a =
            if op.off ≤ a ∧ a < op.off + op.len then s.flashByte a &&& s.byteAt (op.sram + (a - op.off)) else s.flashByte a) ∧
          (op.code = 5 → inSram op.sram op.len = true → t.rd XFLASH.pg XFLASH.OP_STATUS_RESULT = 0 ∧ t.sec.flash = s.sec.flash ∧
            (∀ i < op.len, t.byteAt (op.sram + i) = s.flashByte (op.off + i)) ∧
            ∀ a, a < op.sram ∨ op.sram + op.len ≤ a → t.byteAt a = s.byteAt a))))

/-! ### The balls (19) -/

/-- What the balls show. While a reset condition holds, and in P3 and P4, no power output is on: PWM_O and HCLK are high-impedance, the contactor
enables, pilots, test pulses, time outputs, ALIVE_O and gate outputs are low, TRIG and the interrupt lines are released; BOOT is the same
where the device drives (R943, R944). A follower's PWM_O and CP_O are high-impedance and its enables low (R774); CONFIG and SAFE_STOP hold
the enables and the pilots low (R501, R521). In P0, a driving unit's enabled output follows its compares, a leg in RUN its commands with
the dead time between its sides and its refresh pulses (R641, R653), and an interrupt line is low while
its target has an active source (R111, R643). A leg in BRAKE turns its low side on once the wait behind its high side is over (R641). A quad-SPI
port drives its IO lines from the wait bytes of a READ on, from the wait bytes of a STATUS frame on, and in no byte of a WRITE (R72 to R74). -/
def Obligations.BallsShowTheirStates : Prop :=
  ∀ s : State,
    (s.ballsHeld = true →
      (∀ (n : Fin 16) (i : Nat), s.pwmBall n i = .hiz) ∧ (∀ (p : Fin 8) (b : Bool), s.cdoBall p b = .low ∧ s.pilotBall p = .low) ∧
      (∀ k : Fin 4, s.tpBall k = .low ∧ s.timeBall k = .low ∧ s.trigBall k = .hiz ∧ s.dsckBall k = .hiz) ∧ s.aliveBall = .low ∧
      s.hclkBall = .hiz ∧ (∀ p : HostPort, s.intBall p = .hiz ∧ s.pcieTx p = false ∧ ∀ f, s.qspiBall p f = .hiz) ∧
      ∀ n : Fin 12, s.gdHigh n = .low ∧ s.gdLow n = .low) ∧
    (s.ballsHeld = false → ∀ p : HostPort, s.isQspi p = true → s.qspiBall p none = .hiz ∧ ∀ k : Nat,
      s.qspiBall p (some (0x0B, k)) = (if k < 6 then .hiz else .edges) ∧
      s.qspiBall p (some (0x05, k)) = (if k < 2 then .hiz else .edges) ∧ s.qspiBall p (some (0x02, k)) = .hiz) ∧
    (s.ballsHeld = false → s.mode = mBOOT →
      (∀ (n : Fin 16) (i : Nat), s.pwmBall n i = .hiz) ∧ (∀ (p : Fin 8) (b : Bool), s.cdoBall p b = .low) ∧
      (s.roleDrives = true → s.redun.holdCp = false → ∀ p : Fin 8, s.pilotBall p = .low) ∧
      (∀ k : Fin 4, s.tpBall k = .low ∧ s.timeBall k = .low ∧ s.dsckBall k = .hiz) ∧ s.aliveBall = .low ∧ s.hclkBall = .hiz) ∧
    (s.ballsHeld = false → s.mode = mCONFIG ∨ s.mode = mSAFE →
      (∀ (p : Fin 8) (b : Bool), s.cdoBall p b = .low) ∧
      (s.roleDrives = true → s.redun.holdCp = false → ∀ p : Fin 8, s.pilotBall p = .low)) ∧
    (s.ballsHeld = false → s.rd REDUN.pg REDUN.ROLE_ROLE = 2 ∨ s.rd REDUN.pg REDUN.ROLE_ROLE = 4 →
      (∀ (n : Fin 16) (i : Nat), s.pwmBall n i = .hiz) ∧ (s.redun.passCp = false → ∀ p : Fin 8, s.pilotBall p = .hiz) ∧
      (s.redun.passCdo = 0 → ∀ (p : Fin 8) (b : Bool), s.cdoBall p b = .low)) ∧
    (s.pwr.held = false → s.pwr.state = 0 → s.mode ≠ mBOOT →
      (∀ (n : Fin 16) (i : Nat), (s.rd REDUN.pg REDUN.ROLE_ROLE = 0 ∨ s.rd REDUN.pg REDUN.ROLE_ROLE = 1 ∨ s.rd REDUN.pg REDUN.ROLE_ROLE = 3) →
        (s.pwmUnit n).rootWait = false → s.flag (PWM.pg n) PWM.STATUS_DRIVING = true →
        bitOf (s.rd (PWM.pg n) PWM.OUTCFG_OUTEN) i = true → s.pwmBall n i = .edges) ∧
      (∀ n : Fin 12, (s.legState n ≠ gRUN → s.gdHigh n = .low) ∧ (s.legState n ≠ gRUN → s.legState n ≠ gBRAKE → s.gdLow n = .low) ∧
        (s.legState n = gBRAKE → ∀ (t : Word64) (w : Rat), (s.legUnit n).brake = some (t, w) →
          (s.gdLow n = .high ↔ w ≤ stepsOf (s.since t))) ∧
        (s.legState n = gRUN → s.flag (GDRV.pg n) GDRV.STATUS_GD_BOOT_UV = false → s.legPulse n = none →
          ∀ (c : LegCmd) (at_ : Rat), s.legNow n = some (c, at_) →
            (s.gdHigh n = .high ↔ ∃ a b, c.high = some (a, b) ∧ a ≤ at_ ∧ at_ < b) ∧
            (s.gdLow n = .high ↔ (c.low ≤ at_ ∧ at_ < c.on) ∨ (c.tail ≤ at_ ∧ c.tail < (2 * c.per : Nat)))) ∧
        (s.legState n = gRUN → ∀ at_ : Rat, s.legPulse n = some at_ → s.gdHigh n = .low ∧
          (s.gdLow n = .high ↔ s.legDt n ≤ at_ ∧ at_ < s.legDt n + s.legWidth n))) ∧
      (∀ (n : Fin 12) (per len : Nat) (c : LegCmd), (s.legCommand n per len).1 = c → ∀ a b, c.high = some (a, b) →
        a < b ∧ c.on ≤ a ∧ b = c.off ∧ c.tail = b + s.legDt n ∧ (c.low < c.on → a = c.on + s.legDt n)) ∧
      (∀ p : HostPort, s.intBall p = (if s.lineActive (portTarget p) = true then .low else .hiz)) ∧
      s.brakeBall = (if s.flag CHIMNEY.pg CHIMNEY.STATUS_CHOP_ON = true then .high else .low))
end

