-- ==== Sys2Proof/Laws/PageMap.lean ====
section
/-!
SUPPORT. Laws/PageMap.lean: which page stands at each page number of the register window, and that fields at different places
have different keys.
-/
namespace Sys2Proof.Machine

@[simp] theorem pageOf_SYS : pageOf SYS.pg = some (SYS.info, 0) := rfl
@[simp] theorem pageOf_POWER : pageOf POWER.pg = some (POWER.info, 0) := rfl
@[simp] theorem pageOf_CLOCK : pageOf CLOCK.pg = some (CLOCK.info, 0) := rfl
@[simp] theorem pageOf_RESET : pageOf RESET.pg = some (RESET.info, 0) := rfl
@[simp] theorem pageOf_KEYRACK : pageOf KEYRACK.pg = some (KEYRACK.info, 0) := rfl
@[simp] theorem pageOf_PORCH (n : Fin 2) : pageOf (PORCH.pg n) = some (PORCH.info, n.val) := by
  fin_cases n <;> rfl
@[simp] theorem pageOf_IRQ : pageOf IRQ.pg = some (IRQ.info, 0) := rfl
@[simp] theorem pageOf_LE (n : Fin 16) : pageOf (LE.pg n) = some (LE.info, n.val) := by
  fin_cases n <;> rfl
@[simp] theorem pageOf_LPS : pageOf LPS.pg = some (LPS.info, 0) := rfl
@[simp] theorem pageOf_FORM (n : Fin 2) : pageOf (FORM.pg n) = some (FORM.info, n.val) := by
  fin_cases n <;> rfl
@[simp] theorem pageOf_PWM (n : Fin 16) : pageOf (PWM.pg n) = some (PWM.info, n.val) := by
  fin_cases n <;> rfl
@[simp] theorem pageOf_FUSE : pageOf FUSE.pg = some (FUSE.info, 0) := rfl
@[simp] theorem pageOf_SAR (n : Fin 6) : pageOf (SAR.pg n) = some (SAR.info, n.val) := by
  fin_cases n <;> rfl
@[simp] theorem pageOf_DSF (n : Fin 6) : pageOf (DSF.pg n) = some (DSF.info, n.val) := by
  fin_cases n <;> rfl
@[simp] theorem pageOf_PORT (n : Fin 8) : pageOf (PORT.pg n) = some (PORT.info, n.val) := by
  fin_cases n <;> rfl
@[simp] theorem pageOf_PILOT : pageOf PILOT.pg = some (PILOT.info, 0) := rfl
@[simp] theorem pageOf_METRO : pageOf METRO.pg = some (METRO.info, 0) := rfl
@[simp] theorem pageOf_PANTRY : pageOf PANTRY.pg = some (PANTRY.info, 0) := rfl
@[simp] theorem pageOf_SAFEIO : pageOf SAFEIO.pg = some (SAFEIO.info, 0) := rfl
@[simp] theorem pageOf_SAFENET : pageOf SAFENET.pg = some (SAFENET.info, 0) := rfl
@[simp] theorem pageOf_GDRV (n : Fin 12) : pageOf (GDRV.pg n) = some (GDRV.info, n.val) := by
  fin_cases n <;> rfl
@[simp] theorem pageOf_CHIMNEY : pageOf CHIMNEY.pg = some (CHIMNEY.info, 0) := rfl
@[simp] theorem pageOf_AXIS (n : Fin 4) : pageOf (AXIS.pg n) = some (AXIS.info, n.val) := by
  fin_cases n <;> rfl
@[simp] theorem pageOf_ENC : pageOf ENC.pg = some (ENC.info, 0) := rfl
@[simp] theorem pageOf_ATTIC : pageOf ATTIC.pg = some (ATTIC.info, 0) := rfl
@[simp] theorem pageOf_REDUN : pageOf REDUN.pg = some (REDUN.info, 0) := rfl
@[simp] theorem pageOf_TWITOS (n : Fin 4) : pageOf (TWITOS.pg n) = some (TWITOS.info, n.val) := by
  fin_cases n <;> rfl
@[simp] theorem pageOf_HOUSE : pageOf HOUSE.pg = some (HOUSE.info, 0) := rfl
@[simp] theorem pageOf_ETHSW : pageOf ETHSW.pg = some (ETHSW.info, 0) := rfl
@[simp] theorem pageOf_PTP : pageOf PTP.pg = some (PTP.info, 0) := rfl
@[simp] theorem pageOf_CELLAR : pageOf CELLAR.pg = some (CELLAR.info, 0) := rfl
@[simp] theorem pageOf_ATTEST : pageOf ATTEST.pg = some (ATTEST.info, 0) := rfl
@[simp] theorem pageOf_DEBUG : pageOf DEBUG.pg = some (DEBUG.info, 0) := rfl
@[simp] theorem pageOf_XFLASH : pageOf XFLASH.pg = some (XFLASH.info, 0) := rfl

/-- Fields of different pages have different keys. -/
theorem Fld.key_page_ne {f g : Fld} {pg qg : Nat} (h : pg ≠ qg) (i j : Nat) : f.key pg i ≠ g.key qg j := by
  unfold Fld.key
  omega

/-- Fields at different places of one page have different keys. -/
theorem Fld.key_ne {f g : Fld} {i j : Nat}
    (h : (f.off + f.stride * i) % 4096 * 32 + f.lo % 32 ≠ (g.off + g.stride * j) % 4096 * 32 + g.lo % 32) (pg : Nat) :
    f.key pg i ≠ g.key pg j := by
  unfold Fld.key
  omega

/-- The place of a field on its page, in bits. -/
theorem Fld.key_page (f : Fld) (pg i : Nat) : f.key pg i / 131072 = pg := by
  unfold Fld.key
  omega

end Sys2Proof.Machine
end

