-- ==== Sys2Proof/Laws/Store.lean ====
section
/-!
SUPPORT. Laws/Store.lean: the laws of the sparse stores: what a read answers after a write, and that every operation keeps the
canonical form.
-/
namespace Sys2Proof.Machine

variable {w : Nat}

theorem Store.get_ins (m : Store w) (a b : Nat) (x : BitVec w) :
    (m.ins a x).get b = if b = a then x else m.get b := by
  induction m with
  | nil =>
    by_cases h : b = a
    · simp [Store.ins, Store.get, h]
    · simp [Store.ins, Store.get, h]
  | cons e m ih =>
    obtain ⟨k, v⟩ := e
    simp only [Store.ins]
    split
    · subst_vars
      by_cases h : b = k <;> simp [Store.get, h]
    · split
      · rename_i h1 h2
        by_cases h : b = a
        · simp [Store.get, h]
        · by_cases h3 : b < a
          · have : b ≠ k ∧ b < k := by omega
            simp [Store.get, h, h3, this]
          · simp [Store.get, h, h3]
      · rename_i h1 h2
        by_cases h : b = k
        · have : b ≠ a := by omega
          subst h
          simp [Store.get, this]
        · by_cases h3 : b < k
          · have : b ≠ a := by omega
            simp [Store.get, h, h3, this]
          · simp [Store.get, h, h3, ih]

theorem Store.get_above {lo a : Nat} {m : Store w} (h : Store.wfAbove lo m = true) (ha : a < lo) : m.get a = 0 := by
  cases m with
  | nil => rfl
  | cons e m =>
    obtain ⟨k, v⟩ := e
    simp only [Store.wfAbove, Bool.and_eq_true, decide_eq_true_eq] at h
    have : a ≠ k ∧ a < k := by omega
    simp [Store.get, this]

theorem Store.wfAbove_mono {lo lo' : Nat} {m : Store w} (h : Store.wfAbove lo m = true) (hl : lo' ≤ lo) :
    Store.wfAbove lo' m = true := by
  cases m with
  | nil => rfl
  | cons e m =>
    obtain ⟨k, v⟩ := e
    simp only [Store.wfAbove, Bool.and_eq_true, decide_eq_true_eq] at h ⊢
    exact ⟨⟨by omega, h.1.2⟩, h.2⟩

theorem Store.get_del {lo : Nat} {m : Store w} (h : Store.wfAbove lo m = true) (a b : Nat) :
    (m.del a).get b = if b = a then 0 else m.get b := by
  induction m generalizing lo with
  | nil => simp [Store.del, Store.get]
  | cons e m ih =>
    obtain ⟨k, v⟩ := e
    simp only [Store.wfAbove, Bool.and_eq_true, decide_eq_true_eq] at h
    simp only [Store.del]
    split
    · subst_vars
      by_cases hb : b = k
      · subst hb
        simp [Store.get_above h.2 (Nat.lt_succ_self b)]
      · by_cases h3 : b < k
        · simp [Store.get, hb, h3, Store.get_above h.2 (show b < k + 1 by omega)]
        · simp [Store.get, hb, h3]
    · split
      · rename_i h1 h2
        by_cases hb : b = a
        · have : b ≠ k ∧ b < k := by omega
          simp [Store.get, this]
        · simp [hb]
      · rename_i h1 h2
        by_cases hk : b = k
        · have : b ≠ a := by omega
          subst hk
          simp [Store.get, this]
        · by_cases h3 : b < k
          · have : b ≠ a := by omega
            simp [Store.get, hk, h3, this]
          · simp [Store.get, hk, h3, ih h.2]

theorem Store.wfAbove_ins {lo a : Nat} {x : BitVec w} {m : Store w} (h : Store.wfAbove lo m = true) (ha : lo ≤ a)
    (hx : x ≠ 0) : Store.wfAbove lo (m.ins a x) = true := by
  induction m generalizing lo with
  | nil => simpa [Store.ins, Store.wfAbove] using ⟨ha, hx⟩
  | cons e m ih =>
    obtain ⟨k, v⟩ := e
    simp only [Store.wfAbove, Bool.and_eq_true, decide_eq_true_eq] at h
    simp only [Store.ins]
    split
    · subst_vars
      simp only [Store.wfAbove, Bool.and_eq_true, decide_eq_true_eq]
      exact ⟨⟨ha, hx⟩, h.2⟩
    · split
      · simp only [Store.wfAbove, Bool.and_eq_true, decide_eq_true_eq]
        exact ⟨⟨ha, hx⟩, ⟨by omega, h.1.2⟩, h.2⟩
      · simp only [Store.wfAbove, Bool.and_eq_true, decide_eq_true_eq]
        exact ⟨h.1, ih h.2 (by omega)⟩

theorem Store.wfAbove_del {lo a : Nat} {m : Store w} (h : Store.wfAbove lo m = true) : Store.wfAbove lo (m.del a) = true := by
  induction m generalizing lo with
  | nil => rfl
  | cons e m ih =>
    obtain ⟨k, v⟩ := e
    have h' := h
    simp only [Store.wfAbove, Bool.and_eq_true, decide_eq_true_eq] at h
    simp only [Store.del]
    split
    · exact Store.wfAbove_mono h.2 (by omega)
    · split
      · exact h'
      · simp only [Store.wfAbove, Bool.and_eq_true, decide_eq_true_eq]
        exact ⟨h.1, ih h.2⟩

theorem Store.wfAbove_filter {lo : Nat} {m : Store w} (p : Nat × BitVec w → Bool) (h : Store.wfAbove lo m = true) :
    Store.wfAbove lo (m.filter p) = true := by
  induction m generalizing lo with
  | nil => rfl
  | cons e m ih =>
    obtain ⟨k, v⟩ := e
    simp only [Store.wfAbove, Bool.and_eq_true, decide_eq_true_eq] at h
    simp only [List.filter_cons]
    split
    · simp only [Store.wfAbove, Bool.and_eq_true, decide_eq_true_eq]
      exact ⟨h.1, ih h.2⟩
    · exact Store.wfAbove_mono (ih h.2) (by omega)

/-- The empty store is canonical. -/
@[simp] theorem Store.wf_nil : Store.wf ([] : Store w) = true := rfl

/-- A write keeps the canonical form. -/
@[simp] theorem Store.wf_put {m : Store w} {a : Nat} {x : BitVec w} (h : m.wf = true) : (m.put a x).wf = true := by
  unfold Store.put
  split
  · exact Store.wfAbove_del h
  · exact Store.wfAbove_ins h (Nat.zero_le a) ‹_›

/-- So does the removal of entries. -/
@[simp] theorem Store.wf_filter {m : Store w} (p : Nat × BitVec w → Bool) (h : m.wf = true) : Store.wf (m.filter p) = true :=
  Store.wfAbove_filter p h

/-- So does clearing a range. -/
@[simp] theorem Store.wf_clearRange {m : Store w} {lo hi : Nat} (h : m.wf = true) : (m.clearRange lo hi).wf = true :=
  Store.wfAbove_filter _ h

/-- What a read answers after a write. -/
theorem Store.get_put {m : Store w} (h : m.wf = true) (a b : Nat) (x : BitVec w) :
    (m.put a x).get b = if b = a then x else m.get b := by
  unfold Store.put
  split
  · subst_vars
    exact Store.get_del h a b
  · exact Store.get_ins m a b x

/-- A write of a nonzero value, whatever the form of the store. -/
theorem Store.get_put_ne {m : Store w} (a b : Nat) {x : BitVec w} (hx : x ≠ 0) :
    (m.put a x).get b = if b = a then x else m.get b := by
  rw [Store.put, if_neg hx]
  exact Store.get_ins m a b x

/-- A canonical store in which no address reads other than 0 is empty: equal memories are equal data. -/
theorem Store.ext_wf {m n : Store w} (hm : m.wf = true) (hn : n.wf = true) (h : ∀ a, m.get a = n.get a) : m = n := by
  suffices H : ∀ (lo : Nat) (m n : Store w), Store.wfAbove lo m = true → Store.wfAbove lo n = true →
      (∀ a, m.get a = n.get a) → m = n from H 0 m n hm hn h
  intro lo m
  induction m generalizing lo with
  | nil =>
    intro n _ hn h
    cases n with
    | nil => rfl
    | cons e n =>
      obtain ⟨k, v⟩ := e
      simp only [Store.wfAbove, Bool.and_eq_true, decide_eq_true_eq] at hn
      have := h k
      simp [Store.get] at this
      exact absurd this.symm hn.1.2
  | cons e m ih =>
    intro n hm hn h
    obtain ⟨k, v⟩ := e
    cases n with
    | nil =>
      simp only [Store.wfAbove, Bool.and_eq_true, decide_eq_true_eq] at hm
      have := h k
      simp [Store.get] at this
      exact absurd this hm.1.2
    | cons e' n =>
      obtain ⟨k', v'⟩ := e'
      simp only [Store.wfAbove, Bool.and_eq_true, decide_eq_true_eq] at hm hn
      have hk : k = k' := by
        by_contra hne
        rcases Nat.lt_or_gt_of_ne hne with hlt | hlt
        · have := h k
          have hne' : k ≠ k' := hne
          simp [Store.get, hne', hlt] at this
          exact hm.1.2 this
        · have := h k'
          have hne' : k' ≠ k := fun h => hne h.symm
          have hlt' : k' < k := hlt
          simp [Store.get, hne', hlt'] at this
          exact hn.1.2 this.symm
      subst hk
      have hv : v = v' := by simpa [Store.get] using h k
      subst hv
      congr 1
      refine ih (k + 1) n hm.2 hn.2 fun a => ?_
      by_cases ha : a ≤ k
      · rw [Store.get_above hm.2 (by omega), Store.get_above hn.2 (by omega)]
      · have := h a
        have h1 : a ≠ k := by omega
        have h2 : ¬ a < k := by omega
        simpa [Store.get, h1, h2] using this

end Sys2Proof.Machine
end

