-- ==== Sys2Proof/Laws/Regs.lean ====
section
/-!
SUPPORT. Laws/Regs.lean: what a read of a register field answers after a write of it or of another, and what a write leaves
alone.
-/
namespace Sys2Proof.Machine

/-! ### A write changes the register file alone -/

variable (s : State) (pg : Nat) (f : Fld) (i v : Nat)

@[simp] theorem State.wr_pending : (s.wr pg f i v).pending = s.pending := rfl
@[simp] theorem State.wr_cyc : (s.wr pg f i v).cyc = s.cyc := rfl
@[simp] theorem State.wr_free : (s.wr pg f i v).free = s.free := rfl
@[simp] theorem State.wr_staged : (s.wr pg f i v).staged = s.staged := rfl
@[simp] theorem State.wr_committed : (s.wr pg f i v).committed = s.committed := rfl
@[simp] theorem State.wr_resp : (s.wr pg f i v).resp = s.resp := rfl
@[simp] theorem State.wr_stalled : (s.wr pg f i v).stalled = s.stalled := rfl
@[simp] theorem State.wr_sram : (s.wr pg f i v).sram = s.sram := rfl
@[simp] theorem State.wr_sramCe : (s.wr pg f i v).sramCe = s.sramCe := rfl
@[simp] theorem State.wr_sramUe : (s.wr pg f i v).sramUe = s.sramUe := rfl
@[simp] theorem State.wr_porchA : (s.wr pg f i v).porchA = s.porchA := rfl
@[simp] theorem State.wr_porchB : (s.wr pg f i v).porchB = s.porchB := rfl
@[simp] theorem State.wr_modes : (s.wr pg f i v).modes = s.modes := rfl
@[simp] theorem State.wr_clk : (s.wr pg f i v).clk = s.clk := rfl
@[simp] theorem State.wr_pwr : (s.wr pg f i v).pwr = s.pwr := rfl
@[simp] theorem State.wr_sec : (s.wr pg f i v).sec = s.sec := rfl
@[simp] theorem State.wr_form : (s.wr pg f i v).form = s.form := rfl
@[simp] theorem State.wr_le : (s.wr pg f i v).le = s.le := rfl
@[simp] theorem State.wr_lps : (s.wr pg f i v).lps = s.lps := rfl
@[simp] theorem State.wr_pwm : (s.wr pg f i v).pwm = s.pwm := rfl
@[simp] theorem State.wr_fuse : (s.wr pg f i v).fuse = s.fuse := rfl
@[simp] theorem State.wr_sar : (s.wr pg f i v).sar = s.sar := rfl
@[simp] theorem State.wr_dsf : (s.wr pg f i v).dsf = s.dsf := rfl
@[simp] theorem State.wr_measuring : (s.wr pg f i v).measuring = s.measuring := rfl
@[simp] theorem State.wr_pilot : (s.wr pg f i v).pilot = s.pilot := rfl
@[simp] theorem State.wr_port : (s.wr pg f i v).port = s.port := rfl
@[simp] theorem State.wr_metro : (s.wr pg f i v).metro = s.metro := rfl
@[simp] theorem State.wr_pantry : (s.wr pg f i v).pantry = s.pantry := rfl
@[simp] theorem State.wr_safety : (s.wr pg f i v).safety = s.safety := rfl
@[simp] theorem State.wr_leg : (s.wr pg f i v).leg = s.leg := rfl
@[simp] theorem State.wr_chimney : (s.wr pg f i v).chimney = s.chimney := rfl
@[simp] theorem State.wr_axis : (s.wr pg f i v).axis = s.axis := rfl
@[simp] theorem State.wr_encAB : (s.wr pg f i v).encAB = s.encAB := rfl
@[simp] theorem State.wr_attic : (s.wr pg f i v).attic = s.attic := rfl
@[simp] theorem State.wr_redun : (s.wr pg f i v).redun = s.redun := rfl
@[simp] theorem State.wr_ptp : (s.wr pg f i v).ptp = s.ptp := rfl
@[simp] theorem State.wr_eth : (s.wr pg f i v).eth = s.eth := rfl

variable {s pg f i v}

/-- A write keeps the register file canonical. -/
theorem State.wr_wf (h : s.regs.wf = true) : (s.wr pg f i v).regs.wf = true := Store.wf_put h

/-- The field just written reads as what was written, cut to its width. -/
theorem State.rd_wr (h : s.regs.wf = true) (hw : f.width ≤ 32) :
    (s.wr pg f i v).rd pg f i = v % 2 ^ f.width := by
  simp only [State.rd, State.wr, Store.get_put h, if_true]
  rw [BitVec.xor_assoc, BitVec.xor_self, BitVec.xor_zero, BitVec.toNat_ofNat]
  apply Nat.mod_eq_of_lt
  exact Nat.lt_of_lt_of_le (Nat.mod_lt _ (Nat.two_pow_pos _)) (Nat.pow_le_pow_right (by decide) hw)

/-- A field at another place reads as before. -/
theorem State.rd_wr_ne (h : s.regs.wf = true) {qg j : Nat} {g : Fld} (hk : g.key qg j ≠ f.key pg i) :
    (s.wr pg f i v).rd qg g j = s.rd qg g j := by
  simp only [State.rd, State.wr, Store.get_put h, if_neg hk]

/-- A read depends on the register file alone. -/
theorem State.rd_congr {s t : State} (h : t.regs = s.regs) (pg : Nat) (f : Fld) (i : Nat) : t.rd pg f i = s.rd pg f i := by
  simp only [State.rd, h]

end Sys2Proof.Machine
end

