-- ==== Sys2Proof/Laws/State.lean ====
section
/-!
SUPPORT. Laws/State.lean: what the operations used everywhere leave alone, field by field: an MSI, an answer, a staged value, a free
value drawn; and how the register file reads after a write.
-/
namespace Sys2Proof.Machine

/-! ### MSIs change the host ports alone -/

theorem State.msiPort_eq (s : State) (p : HostPort) : ∃ a b, s.msiPort p = { s with porchA := a, porchB := b } := by
  unfold State.msiPort
  cases p
  · split
    · exact ⟨_, s.porchB, rfl⟩
    · exact ⟨s.porchA, s.porchB, rfl⟩
  · split
    · exact ⟨s.porchA, _, rfl⟩
    · exact ⟨s.porchA, s.porchB, rfl⟩

theorem State.msi_eq (s : State) : ∃ a b, s.msi = { s with porchA := a, porchB := b } := by
  unfold State.msi
  obtain ⟨a, b, h⟩ := s.msiPort_eq .A
  obtain ⟨c, d, k⟩ := State.msiPort_eq { s with porchA := a, porchB := b } .B
  exact ⟨c, d, by rw [h, k]⟩

@[simp] theorem State.msi_pending (s : State) : s.msi.pending = s.pending := by
  obtain ⟨a, b, h⟩ := s.msi_eq
  rw [h]
@[simp] theorem State.msi_cyc (s : State) : s.msi.cyc = s.cyc := by
  obtain ⟨a, b, h⟩ := s.msi_eq
  rw [h]
@[simp] theorem State.msi_free (s : State) : s.msi.free = s.free := by
  obtain ⟨a, b, h⟩ := s.msi_eq
  rw [h]
@[simp] theorem State.msi_regs (s : State) : s.msi.regs = s.regs := by
  obtain ⟨a, b, h⟩ := s.msi_eq
  rw [h]
@[simp] theorem State.msi_staged (s : State) : s.msi.staged = s.staged := by
  obtain ⟨a, b, h⟩ := s.msi_eq
  rw [h]
@[simp] theorem State.msi_committed (s : State) : s.msi.committed = s.committed := by
  obtain ⟨a, b, h⟩ := s.msi_eq
  rw [h]
@[simp] theorem State.msi_resp (s : State) : s.msi.resp = s.resp := by
  obtain ⟨a, b, h⟩ := s.msi_eq
  rw [h]
@[simp] theorem State.msi_stalled (s : State) : s.msi.stalled = s.stalled := by
  obtain ⟨a, b, h⟩ := s.msi_eq
  rw [h]
@[simp] theorem State.msi_late (s : State) : s.msi.late = s.late := by
  obtain ⟨a, b, h⟩ := s.msi_eq
  rw [h]
@[simp] theorem State.msi_sram (s : State) : s.msi.sram = s.sram := by
  obtain ⟨a, b, h⟩ := s.msi_eq
  rw [h]
@[simp] theorem State.msi_sramCe (s : State) : s.msi.sramCe = s.sramCe := by
  obtain ⟨a, b, h⟩ := s.msi_eq
  rw [h]
@[simp] theorem State.msi_sramUe (s : State) : s.msi.sramUe = s.sramUe := by
  obtain ⟨a, b, h⟩ := s.msi_eq
  rw [h]
@[simp] theorem State.msi_modes (s : State) : s.msi.modes = s.modes := by
  obtain ⟨a, b, h⟩ := s.msi_eq
  rw [h]
@[simp] theorem State.msi_clk (s : State) : s.msi.clk = s.clk := by
  obtain ⟨a, b, h⟩ := s.msi_eq
  rw [h]
@[simp] theorem State.msi_pwr (s : State) : s.msi.pwr = s.pwr := by
  obtain ⟨a, b, h⟩ := s.msi_eq
  rw [h]
@[simp] theorem State.msi_sec (s : State) : s.msi.sec = s.sec := by
  obtain ⟨a, b, h⟩ := s.msi_eq
  rw [h]
@[simp] theorem State.msi_form (s : State) : s.msi.form = s.form := by
  obtain ⟨a, b, h⟩ := s.msi_eq
  rw [h]
@[simp] theorem State.msi_le (s : State) : s.msi.le = s.le := by
  obtain ⟨a, b, h⟩ := s.msi_eq
  rw [h]
@[simp] theorem State.msi_lps (s : State) : s.msi.lps = s.lps := by
  obtain ⟨a, b, h⟩ := s.msi_eq
  rw [h]
@[simp] theorem State.msi_pwm (s : State) : s.msi.pwm = s.pwm := by
  obtain ⟨a, b, h⟩ := s.msi_eq
  rw [h]
@[simp] theorem State.msi_fuse (s : State) : s.msi.fuse = s.fuse := by
  obtain ⟨a, b, h⟩ := s.msi_eq
  rw [h]
@[simp] theorem State.msi_sar (s : State) : s.msi.sar = s.sar := by
  obtain ⟨a, b, h⟩ := s.msi_eq
  rw [h]
@[simp] theorem State.msi_dsf (s : State) : s.msi.dsf = s.dsf := by
  obtain ⟨a, b, h⟩ := s.msi_eq
  rw [h]
@[simp] theorem State.msi_measuring (s : State) : s.msi.measuring = s.measuring := by
  obtain ⟨a, b, h⟩ := s.msi_eq
  rw [h]
@[simp] theorem State.msi_pilot (s : State) : s.msi.pilot = s.pilot := by
  obtain ⟨a, b, h⟩ := s.msi_eq
  rw [h]
@[simp] theorem State.msi_port (s : State) : s.msi.port = s.port := by
  obtain ⟨a, b, h⟩ := s.msi_eq
  rw [h]
@[simp] theorem State.msi_metro (s : State) : s.msi.metro = s.metro := by
  obtain ⟨a, b, h⟩ := s.msi_eq
  rw [h]
@[simp] theorem State.msi_pantry (s : State) : s.msi.pantry = s.pantry := by
  obtain ⟨a, b, h⟩ := s.msi_eq
  rw [h]
@[simp] theorem State.msi_safety (s : State) : s.msi.safety = s.safety := by
  obtain ⟨a, b, h⟩ := s.msi_eq
  rw [h]
@[simp] theorem State.msi_leg (s : State) : s.msi.leg = s.leg := by
  obtain ⟨a, b, h⟩ := s.msi_eq
  rw [h]
@[simp] theorem State.msi_chimney (s : State) : s.msi.chimney = s.chimney := by
  obtain ⟨a, b, h⟩ := s.msi_eq
  rw [h]
@[simp] theorem State.msi_axis (s : State) : s.msi.axis = s.axis := by
  obtain ⟨a, b, h⟩ := s.msi_eq
  rw [h]
@[simp] theorem State.msi_encAB (s : State) : s.msi.encAB = s.encAB := by
  obtain ⟨a, b, h⟩ := s.msi_eq
  rw [h]
@[simp] theorem State.msi_attic (s : State) : s.msi.attic = s.attic := by
  obtain ⟨a, b, h⟩ := s.msi_eq
  rw [h]
@[simp] theorem State.msi_redun (s : State) : s.msi.redun = s.redun := by
  obtain ⟨a, b, h⟩ := s.msi_eq
  rw [h]
@[simp] theorem State.msi_ptp (s : State) : s.msi.ptp = s.ptp := by
  obtain ⟨a, b, h⟩ := s.msi_eq
  rw [h]
@[simp] theorem State.msi_eth (s : State) : s.msi.eth = s.eth := by
  obtain ⟨a, b, h⟩ := s.msi_eq
  rw [h]

/-! ### An answer changes the response alone -/

@[simp] theorem State.answer_pending (s : State) (st : Status) (d : List Word) : (s.answer st d).pending = s.pending := rfl
@[simp] theorem State.done_pending (s : State) : s.done.pending = s.pending := rfl
@[simp] theorem State.answer_cyc (s : State) (st : Status) (d : List Word) : (s.answer st d).cyc = s.cyc := rfl
@[simp] theorem State.done_cyc (s : State) : s.done.cyc = s.cyc := rfl
@[simp] theorem State.answer_free (s : State) (st : Status) (d : List Word) : (s.answer st d).free = s.free := rfl
@[simp] theorem State.done_free (s : State) : s.done.free = s.free := rfl
@[simp] theorem State.answer_regs (s : State) (st : Status) (d : List Word) : (s.answer st d).regs = s.regs := rfl
@[simp] theorem State.done_regs (s : State) : s.done.regs = s.regs := rfl
@[simp] theorem State.answer_staged (s : State) (st : Status) (d : List Word) : (s.answer st d).staged = s.staged := rfl
@[simp] theorem State.done_staged (s : State) : s.done.staged = s.staged := rfl
@[simp] theorem State.answer_committed (s : State) (st : Status) (d : List Word) : (s.answer st d).committed = s.committed := rfl
@[simp] theorem State.done_committed (s : State) : s.done.committed = s.committed := rfl
@[simp] theorem State.answer_stalled (s : State) (st : Status) (d : List Word) : (s.answer st d).stalled = s.stalled := rfl
@[simp] theorem State.done_stalled (s : State) : s.done.stalled = s.stalled := rfl
@[simp] theorem State.answer_late (s : State) (st : Status) (d : List Word) : (s.answer st d).late = s.late := rfl
@[simp] theorem State.done_late (s : State) : s.done.late = s.late := rfl
@[simp] theorem State.answer_sram (s : State) (st : Status) (d : List Word) : (s.answer st d).sram = s.sram := rfl
@[simp] theorem State.done_sram (s : State) : s.done.sram = s.sram := rfl
@[simp] theorem State.answer_sramCe (s : State) (st : Status) (d : List Word) : (s.answer st d).sramCe = s.sramCe := rfl
@[simp] theorem State.done_sramCe (s : State) : s.done.sramCe = s.sramCe := rfl
@[simp] theorem State.answer_sramUe (s : State) (st : Status) (d : List Word) : (s.answer st d).sramUe = s.sramUe := rfl
@[simp] theorem State.done_sramUe (s : State) : s.done.sramUe = s.sramUe := rfl
@[simp] theorem State.answer_porchA (s : State) (st : Status) (d : List Word) : (s.answer st d).porchA = s.porchA := rfl
@[simp] theorem State.done_porchA (s : State) : s.done.porchA = s.porchA := rfl
@[simp] theorem State.answer_porchB (s : State) (st : Status) (d : List Word) : (s.answer st d).porchB = s.porchB := rfl
@[simp] theorem State.done_porchB (s : State) : s.done.porchB = s.porchB := rfl
@[simp] theorem State.answer_modes (s : State) (st : Status) (d : List Word) : (s.answer st d).modes = s.modes := rfl
@[simp] theorem State.done_modes (s : State) : s.done.modes = s.modes := rfl
@[simp] theorem State.answer_clk (s : State) (st : Status) (d : List Word) : (s.answer st d).clk = s.clk := rfl
@[simp] theorem State.done_clk (s : State) : s.done.clk = s.clk := rfl
@[simp] theorem State.answer_pwr (s : State) (st : Status) (d : List Word) : (s.answer st d).pwr = s.pwr := rfl
@[simp] theorem State.done_pwr (s : State) : s.done.pwr = s.pwr := rfl
@[simp] theorem State.answer_sec (s : State) (st : Status) (d : List Word) : (s.answer st d).sec = s.sec := rfl
@[simp] theorem State.done_sec (s : State) : s.done.sec = s.sec := rfl
@[simp] theorem State.answer_form (s : State) (st : Status) (d : List Word) : (s.answer st d).form = s.form := rfl
@[simp] theorem State.done_form (s : State) : s.done.form = s.form := rfl
@[simp] theorem State.answer_le (s : State) (st : Status) (d : List Word) : (s.answer st d).le = s.le := rfl
@[simp] theorem State.done_le (s : State) : s.done.le = s.le := rfl
@[simp] theorem State.answer_lps (s : State) (st : Status) (d : List Word) : (s.answer st d).lps = s.lps := rfl
@[simp] theorem State.done_lps (s : State) : s.done.lps = s.lps := rfl
@[simp] theorem State.answer_pwm (s : State) (st : Status) (d : List Word) : (s.answer st d).pwm = s.pwm := rfl
@[simp] theorem State.done_pwm (s : State) : s.done.pwm = s.pwm := rfl
@[simp] theorem State.answer_fuse (s : State) (st : Status) (d : List Word) : (s.answer st d).fuse = s.fuse := rfl
@[simp] theorem State.done_fuse (s : State) : s.done.fuse = s.fuse := rfl
@[simp] theorem State.answer_sar (s : State) (st : Status) (d : List Word) : (s.answer st d).sar = s.sar := rfl
@[simp] theorem State.done_sar (s : State) : s.done.sar = s.sar := rfl
@[simp] theorem State.answer_dsf (s : State) (st : Status) (d : List Word) : (s.answer st d).dsf = s.dsf := rfl
@[simp] theorem State.done_dsf (s : State) : s.done.dsf = s.dsf := rfl
@[simp] theorem State.answer_measuring (s : State) (st : Status) (d : List Word) : (s.answer st d).measuring = s.measuring := rfl
@[simp] theorem State.done_measuring (s : State) : s.done.measuring = s.measuring := rfl
@[simp] theorem State.answer_pilot (s : State) (st : Status) (d : List Word) : (s.answer st d).pilot = s.pilot := rfl
@[simp] theorem State.done_pilot (s : State) : s.done.pilot = s.pilot := rfl
@[simp] theorem State.answer_port (s : State) (st : Status) (d : List Word) : (s.answer st d).port = s.port := rfl
@[simp] theorem State.done_port (s : State) : s.done.port = s.port := rfl
@[simp] theorem State.answer_metro (s : State) (st : Status) (d : List Word) : (s.answer st d).metro = s.metro := rfl
@[simp] theorem State.done_metro (s : State) : s.done.metro = s.metro := rfl
@[simp] theorem State.answer_pantry (s : State) (st : Status) (d : List Word) : (s.answer st d).pantry = s.pantry := rfl
@[simp] theorem State.done_pantry (s : State) : s.done.pantry = s.pantry := rfl
@[simp] theorem State.answer_safety (s : State) (st : Status) (d : List Word) : (s.answer st d).safety = s.safety := rfl
@[simp] theorem State.done_safety (s : State) : s.done.safety = s.safety := rfl
@[simp] theorem State.answer_leg (s : State) (st : Status) (d : List Word) : (s.answer st d).leg = s.leg := rfl
@[simp] theorem State.done_leg (s : State) : s.done.leg = s.leg := rfl
@[simp] theorem State.answer_chimney (s : State) (st : Status) (d : List Word) : (s.answer st d).chimney = s.chimney := rfl
@[simp] theorem State.done_chimney (s : State) : s.done.chimney = s.chimney := rfl
@[simp] theorem State.answer_axis (s : State) (st : Status) (d : List Word) : (s.answer st d).axis = s.axis := rfl
@[simp] theorem State.done_axis (s : State) : s.done.axis = s.axis := rfl
@[simp] theorem State.answer_encAB (s : State) (st : Status) (d : List Word) : (s.answer st d).encAB = s.encAB := rfl
@[simp] theorem State.done_encAB (s : State) : s.done.encAB = s.encAB := rfl
@[simp] theorem State.answer_attic (s : State) (st : Status) (d : List Word) : (s.answer st d).attic = s.attic := rfl
@[simp] theorem State.done_attic (s : State) : s.done.attic = s.attic := rfl
@[simp] theorem State.answer_redun (s : State) (st : Status) (d : List Word) : (s.answer st d).redun = s.redun := rfl
@[simp] theorem State.done_redun (s : State) : s.done.redun = s.redun := rfl
@[simp] theorem State.answer_ptp (s : State) (st : Status) (d : List Word) : (s.answer st d).ptp = s.ptp := rfl
@[simp] theorem State.done_ptp (s : State) : s.done.ptp = s.ptp := rfl
@[simp] theorem State.answer_eth (s : State) (st : Status) (d : List Word) : (s.answer st d).eth = s.eth := rfl
@[simp] theorem State.done_eth (s : State) : s.done.eth = s.eth := rfl
@[simp] theorem State.answer_resp (s : State) (st : Status) (d : List Word) : (s.answer st d).resp = ⟨st, d⟩ := rfl
@[simp] theorem State.done_resp (s : State) : s.done.resp = ⟨.ok, []⟩ := rfl

/-! ### The register file after a write -/

/-- The register file is what a write makes of it. -/
theorem State.wr_regs (s : State) (pg : Nat) (f : Fld) (i v : Nat) :
    (s.wr pg f i v).regs =
      s.regs.put (f.key pg i) (BitVec.ofNat 32 (v % 2 ^ f.width) ^^^ BitVec.ofNat 32 (resetValue pg f i)) := rfl

@[simp] theorem State.rd_msi (s : State) (pg : Nat) (f : Fld) (i : Nat) : s.msi.rd pg f i = s.rd pg f i :=
  State.rd_congr (by simp) pg f i
@[simp] theorem State.rd_answer (s : State) (st : Status) (d : List Word) (pg : Nat) (f : Fld) (i : Nat) :
    (s.answer st d).rd pg f i = s.rd pg f i := rfl
@[simp] theorem State.rd_done (s : State) (pg : Nat) (f : Fld) (i : Nat) : s.done.rd pg f i = s.rd pg f i := rfl

end Sys2Proof.Machine
end

