-- ==== Sys2Proof/Laws/Access.lean ====
section
/-!
SUPPORT. Laws/Access.lean: the register address of a field is taken apart again as its page and offset; a register write that
`State.admits` lets pass does what `State.taken` says and completes; a read that `State.readable` lets pass returns the
register's word.
-/
namespace Sys2Proof.Machine

theorem regAddr_page {pg off : Nat} (hp : pg < 4096) (ho : off < 4096) : pageNo (regAddr pg off) = pg := by
  unfold pageNo regAddr regBase
  omega

theorem regAddr_off {pg off : Nat} (ho : off < 4096) : pageOff (regAddr pg off) = off := by
  unfold pageOff regAddr regBase
  omega

theorem regAddr_window {pg off : Nat} (hp : pg < 4096) (ho : off < 4096) : regionOf (regAddr pg off) = some .window := by
  have h1 : 0x40000000 ≤ regAddr pg off := by unfold regAddr regBase; omega
  have h2 : regAddr pg off < 0x41000000 := by unfold regAddr regBase; omega
  unfold regionOf sramBase sramSize regBase
  simp only [Bool.and_eq_true, decide_eq_true_eq]
  rw [if_neg (by omega), if_neg (by omega), if_neg (by omega), if_neg (by omega), if_neg (by omega), if_neg (by omega),
    if_pos (by omega)]

theorem regAddr_align {pg off : Nat} (h : off % 4 = 0) : regAddr pg off / 4 * 4 = regAddr pg off := by
  unfold regAddr regBase
  omega

/-- An access that does not wait is served. -/
theorem State.access_served {s : State} (e : Option Env) (bad : List Nat) {a : Access} (h1 : s.canSend a.ini = true)
    (h2 : (s.waitingOf a.ini).isEmpty = true) (h3 : s.stalls a = false) : s.access e bad a = s.serve e bad a := by
  simp [State.access, h1, h2, h3]

/-- A write of a register that passes its checks. -/
theorem State.writeReg_admitted {s : State} (e : Option Env) {ini : Initiator} {pg off v : Nat} (hp : pg < 4096) (ho : off < 4096)
    (h4 : off % 4 = 0) (hv : v < 2 ^ 32) (h : s.admits ini pg off v = true) :
    s.writeReg e ini (regAddr pg off) v = (s.taken e ini pg off v).done := by
  unfold State.admits at h
  simp only [Bool.and_eq_true] at h
  obtain ⟨⟨⟨hc, hw⟩, hm⟩, h⟩ := h
  cases hq : pageOf pg with
  | none => simp [hq] at h
  | some q =>
    obtain ⟨p, inst⟩ := q
    simp only [hq, Bool.and_eq_true] at h
    obtain ⟨⟨⟨hd, hmet⟩, hf⟩, hr⟩ := h
    have hr : s.writeRefused ini p pg off (regFields p inst off) v = none := by simpa using hr
    have hmet : ¬(pg = METRO.pg ∧ ini ≠ .met) := by simpa [imp_iff_not_or] using hmet
    unfold State.writeReg
    rw [regAddr_align h4, State.access_served _ _ hc hw]
    · have hw : s.busWrite e ini (regAddr pg off) 0xF#4 (BitVec.ofNat 32 v) = (.done, s.taken e ini pg off v) := by
        simp only [State.busWrite, hm, regAddr_window hp ho, State.windowWrite, regAddr_page hp ho, regAddr_off ho, hq, hd,
          State.regWrite, BitVec.toNat_ofNat, Nat.mod_eq_of_lt hv, hr, hf, State.taken, Bool.not_true, Bool.false_and,
          Bool.false_eq_true, if_false]
        rw [if_neg (by simpa using hmet)]
      simp [State.serve, State.serveWords, State.doWords, State.doWord, hw, State.done]
    · simp [State.stalls, State.stallsAt, regAddr_page hp ho, hq, hd]

/-- The same of the write of a row. -/
theorem State.writeAt_admitted {s : State} (e : Option Env) {ini : Initiator} {pg : Nat} {f : Fld} {i off v : Nat}
    (hoff : f.off + f.stride * i = off) (hp : pg < 4096) (ho : off < 4096) (h4 : off % 4 = 0) (hv : v < 2 ^ 32)
    (h : s.admits ini pg off v = true) : s.writeAt e ini pg f i v = (s.taken e ini pg off v).done := by
  unfold State.writeAt fieldAddr
  rw [hoff]
  exact State.writeReg_admitted e hp ho h4 hv h

/-- What a read of a register answers and leaves. -/
theorem State.readAt_readable {s : State} {ini : Initiator} {pg : Nat} {f : Fld} {i off : Nat} {p : PageInfo} {inst : Nat}
    (hoff : f.off + f.stride * i = off) (hp : pg < 4096) (ho : off < 4096) (h4 : off % 4 = 0) (hq : pageOf pg = some (p, inst))
    (h : s.readable ini pg off = true) :
    s.readAt ini pg f i =
      (s.regRead ini p pg inst off).2.answer .ok [BitVec.ofNat 32 (s.regRead ini p pg inst off).1] := by
  unfold State.readable at h
  simp only [hq, Bool.and_eq_true] at h
  obtain ⟨⟨⟨hc, hw⟩, hm⟩, hd⟩ := h
  unfold State.readAt fieldAddr State.readReg
  rw [hoff, regAddr_align h4, State.access_served _ _ hc hw]
  · simp [State.serve, State.serveWords, State.doWords, State.doWord, State.busRead, hm, regAddr_window hp ho, State.windowRead,
      regAddr_page hp ho, regAddr_off ho, hq, hd]
  · simp [State.stalls, State.stallsAt, regAddr_page hp ho, hq, hd]

end Sys2Proof.Machine
end

