-- ==== Sys2Proof/Laws/KeepsBase.lean ====
section
/-!
SUPPORT. Laws/KeepsBase.lean: the relation `Keeps` is reflexive and transitive, a record update beside the stores keeps it, and so
do the named operations of Machine/Ops.lean and Machine/Otp.lean.
-/
namespace Sys2Proof.Machine

theorem Keeps.refl (s : State) : Keeps s s := ⟨rfl, fun _ h => h, fun h => h⟩

theorem Keeps.trans {s t u : State} (h : Keeps s t) (k : Keeps t u) : Keeps s u :=
  ⟨k.pending.trans h.pending, fun i hi => k.otp i (h.otp i hi), fun c => k.canonical (h.canonical c)⟩

/-- An update of other parts of the state. -/
theorem Keeps.same {s0 s t : State} (h : Keeps s0 s) (h1 : t.pending = s.pending) (h2 : t.regs = s.regs)
    (h3 : t.staged = s.staged) (h4 : t.committed = s.committed) (h5 : t.sram = s.sram) (h6 : t.sec.otp = s.sec.otp)
    (h7 : t.sec.flash = s.sec.flash) (h8 : t.lps.words = s.lps.words) (h9 : t.lps.dmem = s.lps.dmem)
    (h10 : t.attic.mem = s.attic.mem) (h11 : t.pantry.bytes = s.pantry.bytes) (h12 : t.metro.sram = s.metro.sram)
    (h13 : t.lps.parity = s.lps.parity) :
    Keeps s0 t := by
  refine ⟨h1.trans h.pending, fun i hi => ?_, fun c => ?_⟩
  · have := h.otp i hi
    simpa [State.otpBit, h6] using this
  · have k := h.canonical c
    exact ⟨h2 ▸ k.regs, h3 ▸ k.staged, h4 ▸ k.committed, h5 ▸ k.sram, h6 ▸ k.otp, h7 ▸ k.flash, h8 ▸ k.words, h9 ▸ k.dmem,
      h10 ▸ k.attic, h11 ▸ k.pantry, h12 ▸ k.metro, h13 ▸ k.parity⟩

/-- An update of what lies beside the stores. -/
theorem Keeps.update {s0 s : State} {cyc1 : Word64} {free1 : Nat} {resp1 : Response} {stalled1 : List Access} {late1 :
      List (Initiator × Response)} {sramCe1 : List Nat} {sramUe1 : List Nat} {porchA1 : Porch} {porchB1 : Porch}
      {modes1 : ModeState} {clk1 : ClockState} {pwr1 : PowerState} {sec1 : SecState} {form1 : Vector FormUnit 2} {le1
      : Vector LeUnit 16} {lps1 : LpsState} {pwm1 : Vector PwmUnit 16} {fuse1 : FuseState} {sar1 : Vector SarUnit 6}
      {dsf1 : Vector DsfChan 48} {measuring1 : Bool} {pilot1 : Vector PilotChan 8} {port1 : Vector PortUnit 8} {metro1
      : MetroState} {pantry1 : PantryMem} {safety1 : SafetyState} {leg1 : Vector LegUnit 12} {chimney1 : ChimneyState}
      {axis1 : Vector AxisUnit 4} {encAB1 : Vector (BitVec 2) 5} {attic1 : AtticState} {redun1 : RedunState} {ptp1 :
      PtpState} {eth1 : EthState} (h : Keeps s0 s) (e0 : sec1.otp = s.sec.otp) (e1 : sec1.flash = s.sec.flash) (e2 :
      lps1.words = s.lps.words) (e3 : lps1.dmem = s.lps.dmem) (e4 : attic1.mem = s.attic.mem) (e5 : pantry1.bytes =
      s.pantry.bytes) (e6 : metro1.sram = s.metro.sram) (e7 : lps1.parity = s.lps.parity) :
        Keeps s0 { s with
      cyc := cyc1, free := free1, resp := resp1, stalled := stalled1, late := late1, sramCe := sramCe1,
      sramUe := sramUe1, porchA := porchA1, porchB := porchB1, modes := modes1, clk := clk1, pwr := pwr1,
      sec := sec1, form := form1, le := le1, lps := lps1, pwm := pwm1, fuse := fuse1, sar := sar1, dsf := dsf1,
      measuring := measuring1, pilot := pilot1, port := port1, metro := metro1, pantry := pantry1,
      safety := safety1, leg := leg1, chimney := chimney1, axis := axis1, encAB := encAB1, attic := attic1,
      redun := redun1, ptp := ptp1, eth := eth1 } :=
  h.same rfl rfl rfl rfl rfl e0 e1 e2 e3 e4 e5 e6 e7

/-- An update of stores that keeps each of them canonical. -/
theorem Keeps.stores {s0 s t : State} (h : Keeps s0 s) (h1 : t.pending = s.pending) (h6 : t.sec.otp = s.sec.otp)
    (hc : Canonical s → Canonical t) : Keeps s0 t := by
  refine ⟨h1.trans h.pending, fun i hi => ?_, fun c => hc (h.canonical c)⟩
  have := h.otp i hi
  simpa [State.otpBit, h6] using this

/-- The state that an operation answers beside a value. -/
theorem Keeps.ofEq {s0 t : State} {β : Type} {x : β × State} {b : β} (h : Keeps s0 x.2) (e : x = (b, t)) : Keeps s0 t := by
  rw [e] at h
  exact h

theorem Keeps.ite {s0 a b : State} {c : Prop} [Decidable c] (ha : c → Keeps s0 a) (hb : ¬c → Keeps s0 b) :
    Keeps s0 (if c then a else b) := by
  split
  · exact ha ‹_›
  · exact hb ‹_›

/-- An intermediate state, for a proof that goes step by step. -/
theorem Keeps.cut {s0 v t : State} (h : Keeps s0 v) (k : Keeps s0 v → Keeps s0 t) : Keeps s0 t := k h

theorem Keeps.iteSnd {s0 : State} {β : Type} {a b : β × State} {c : Prop} [Decidable c] (ha : c → Keeps s0 a.2)
    (hb : ¬c → Keeps s0 b.2) : Keeps s0 (if c then a else b).2 := by
  split
  · exact ha ‹_›
  · exact hb ‹_›

theorem Keeps.foldl {s0 s : State} {α : Type} (f : State → α → State) (l : List α) (h : Keeps s0 s)
    (hf : ∀ s a, Keeps s0 s → Keeps s0 (f s a)) : Keeps s0 (l.foldl f s) := by
  induction l generalizing s with
  | nil => exact h
  | cons a l ih => exact ih (hf s a h)

theorem Keeps.foldlSnd {s0 : State} {α β : Type} (f : β × State → α → β × State) (l : List α) (x : β × State)
    (h : Keeps s0 x.2) (hf : ∀ x a, Keeps s0 x.2 → Keeps s0 (f x a).2) : Keeps s0 (l.foldl f x).2 := by
  induction l generalizing x with
  | nil => exact h
  | cons a l ih => exact ih _ (hf x a h)

theorem Store.wf_foldl_put {w : Nat} {α : Type} (l : List α) (f : α → Nat) (g : α → BitVec w) {m : Store w} (h : m.wf = true) :
    Store.wf (l.foldl (fun m e => m.put (f e) (g e)) m) = true := by
  induction l generalizing m with
  | nil => exact h
  | cons a l ih => exact ih (Store.wf_put h)

/-! ### One entry of a store is written -/

theorem Keeps.putSram {s0 s : State} {a : Nat} {x : Byte} (h : Keeps s0 s) : Keeps s0 { s with sram := s.sram.put a x } :=
  h.stores rfl rfl fun k => { k with sram := Store.wf_put k.sram }

theorem Keeps.putFlash {s0 s : State} {a : Nat} {x : Byte} (h : Keeps s0 s) :
    Keeps s0 { s with sec := { s.sec with flash := s.sec.flash.put a x } } :=
  h.stores rfl rfl fun k => { k with flash := Store.wf_put k.flash }

theorem Keeps.clearFlash {s0 s : State} {a b : Nat} (h : Keeps s0 s) :
    Keeps s0 { s with sec := { s.sec with flash := s.sec.flash.clearRange a b } } :=
  h.stores rfl rfl fun k => { k with flash := Store.wf_clearRange k.flash }

theorem Keeps.putWords {s0 s : State} {a : Nat} {x : Word64} (h : Keeps s0 s) :
    Keeps s0 { s with lps := { s.lps with words := s.lps.words.put a x } } :=
  h.stores rfl rfl fun k => { k with words := Store.wf_put k.words }

theorem Keeps.putParity {s0 s : State} {a : Nat} {x : BitVec 2} (h : Keeps s0 s) :
    Keeps s0 { s with lps := { s.lps with parity := s.lps.parity.put a x } } :=
  h.stores rfl rfl fun k => { k with parity := Store.wf_put k.parity }

theorem Keeps.putDmem {s0 s : State} {a : Nat} {x : Word} (h : Keeps s0 s) :
    Keeps s0 { s with lps := { s.lps with dmem := s.lps.dmem.put a x } } :=
  h.stores rfl rfl fun k => { k with dmem := Store.wf_put k.dmem }

theorem Keeps.putAttic {s0 s : State} {a : Nat} {x : Word} (h : Keeps s0 s) :
    Keeps s0 { s with attic := { s.attic with mem := s.attic.mem.put a x } } :=
  h.stores rfl rfl fun k => { k with attic := Store.wf_put k.attic }

theorem Keeps.putPantry {s0 s : State} {a : Nat} {x : Byte} (h : Keeps s0 s) :
    Keeps s0 { s with pantry := { s.pantry with bytes := s.pantry.bytes.put a x } } :=
  h.stores rfl rfl fun k => { k with pantry := Store.wf_put k.pantry }

theorem Keeps.putMetro {s0 s : State} {a : Nat} {x : Byte} (h : Keeps s0 s) :
    Keeps s0 { s with metro := { s.metro with sram := s.metro.sram.put a x } } :=
  h.stores rfl rfl fun k => { k with metro := Store.wf_put k.metro }

/-! ### The operations of Machine/Ops.lean -/

theorem State.wr_keeps {s0 s : State} (pg : Nat) (f : Fld) (i v : Nat) (h : Keeps s0 s) : Keeps s0 (s.wr pg f i v) :=
  h.stores rfl rfl fun k => { k with regs := Store.wf_put k.regs }

theorem State.stage_keeps {s0 s : State} (pg : Nat) (f : Fld) (i v : Nat) (h : Keeps s0 s) : Keeps s0 (s.stage pg f i v) :=
  h.stores rfl rfl fun k => { k with staged := Store.wf_put k.staged }

theorem State.applySet_keeps {s0 s : State} (pg : Nat) (h : Keeps s0 s) : Keeps s0 (s.applySet pg) :=
  h.stores rfl rfl fun k => { k with regs := Store.wf_foldl_put _ _ _ k.regs, committed := Store.wf_filter _ k.committed }

theorem State.acceptSet_keeps {s0 s : State} (pg : Nat) (h : Keeps s0 s) : Keeps s0 (s.acceptSet pg) :=
  h.stores rfl rfl fun k => { k with committed := Store.wf_foldl_put _ _ _ k.committed, staged := Store.wf_filter _ k.staged }

theorem State.dropSets_keeps {s0 s : State} (pg : Nat) (h : Keeps s0 s) : Keeps s0 (s.dropSets pg) :=
  h.stores rfl rfl fun k => { k with committed := Store.wf_filter _ k.committed, staged := Store.wf_filter _ k.staged }

theorem State.resetPage_keeps {s0 s : State} (pg : Nat) (h : Keeps s0 s) : Keeps s0 (s.resetPage pg) :=
  (State.dropSets_keeps pg h).stores rfl rfl fun k => { k with regs := Store.wf_clearRange k.regs }

theorem State.pokeBytes_keeps {s0 s : State} (a : Nat) (bs : List Byte) (h : Keeps s0 s) : Keeps s0 (s.pokeBytes a bs) := by
  induction bs generalizing s a with
  | nil => exact h
  | cons b bs ih => exact ih _ (h.stores rfl rfl fun k => { k with sram := Store.wf_put k.sram })

/-- The OTP array after a burn. -/
theorem State.otpBurn_otp (s : State) (i : Nat) : (s.otpBurn i).sec.otp = s.sec.otp.put i 1#1 := rfl

/-- Burning bit `i` sets it and leaves every other bit; the device UID stays (R891). -/
theorem State.otpBit_burn (s : State) (i j : Nat) :
    (s.otpBurn i).otpBit j = ((decide (j = i) && !decide (16 ≤ j ∧ j < 80)) || s.otpBit j) := by
  have h : (s.otpBurn i).sec.otp.get j = if j = i then 1#1 else s.sec.otp.get j := by
    rw [State.otpBurn_otp]
    exact Store.get_put_ne i j (by decide)
  unfold State.otpBit
  simp only [h]
  by_cases u : 16 ≤ j ∧ j < 80
  · simp [u]
  · rw [if_neg u, if_neg u, decide_eq_false u]
    by_cases e : j = i <;> simp [e]

theorem State.otpBurn_keeps {s0 s : State} (i : Nat) (h : Keeps s0 s) : Keeps s0 (s.otpBurn i) := by
  refine ⟨h.pending, fun j hj => ?_, fun c => ?_⟩
  · rw [State.otpBit_burn, h.otp j hj, Bool.or_true]
  · have k := h.canonical c
    have e : (s.otpBurn i).sec.otp.wf = true := by
      rw [State.otpBurn_otp]
      exact Store.wf_put k.otp
    exact ⟨k.regs, k.staged, k.committed, k.sram, e, k.flash, k.words, k.dmem, k.attic, k.pantry, k.metro, k.parity⟩

end Sys2Proof.Machine
end

