-- ==== Sys2Proof/Laws/KeepsOps.lean ====
section
/-!
SUPPORT. Laws/KeepsOps.lean: every operation of Machine/Ops.lean keeps what `Keeps` says.
-/
namespace Sys2Proof.Machine

set_option linter.unusedTactic false
set_option linter.unreachableTactic false
set_option linter.unusedVariables false
set_option linter.tactic.unusedName false

theorem State.setFlag_keeps {s0 : State} {s : State} (pg : Nat) (f : Fld) (i : Nat) (b : Bool) (h : Keeps s0 s) : Keeps s0 (State.setFlag s pg f i b) := by
  unfold State.setFlag
  repeat' (first
    | with_reducible assumption | with_reducible apply State.wr_keeps)

theorem State.bump_keeps {s0 : State} {s : State} (pg : Nat) (f : Fld) (i : Nat) (h : Keeps s0 s) : Keeps s0 (State.bump s pg f i) := by
  unfold State.bump
  repeat' (first
    | with_reducible assumption | with_reducible apply State.wr_keeps)

theorem State.wrapBump_keeps {s0 : State} {s : State} (pg : Nat) (f : Fld) (i : Nat) (h : Keeps s0 s) : Keeps s0 (State.wrapBump s pg f i) := by
  unfold State.wrapBump
  repeat' (first
    | with_reducible assumption | with_reducible apply State.wr_keeps)

theorem State.putBit_keeps {s0 : State} {s : State} (pg : Nat) (f : Fld) (i : Nat) (b : Nat) (v : Bool) (h : Keeps s0 s) : Keeps s0 (State.putBit s pg f i b v) := by
  unfold State.putBit
  repeat' (first
    | with_reducible assumption | with_reducible apply State.wr_keeps)

theorem State.wr64_keeps {s0 : State} {s : State} (pg : Nat) (lo : Fld) (hi : Fld) (i : Nat) (v : Nat) (h : Keeps s0 s) : Keeps s0 (State.wr64 s pg lo hi i v) := by
  unfold State.wr64
  repeat' (first
    | with_reducible assumption | with_reducible apply State.wr_keeps)

theorem State.freshWord_keeps {s0 : State} {s : State} (h : Keeps s0 s) : Keeps s0 (State.freshWord s).2 := by
  unfold State.freshWord
  repeat' (first
    | with_reducible assumption | with_reducible refine Keeps.update ?_ rfl rfl rfl rfl rfl rfl rfl rfl)

theorem State.putPresent_keeps {s0 : State} {s : State} (m : Nat) (b : Bool) (h : Keeps s0 s) : Keeps s0 (State.putPresent s m b) := by
  unfold State.putPresent
  repeat' (first
    | with_reducible assumption | with_reducible apply State.putBit_keeps)

theorem State.sendOn_keeps {s0 : State} {s : State} (l : Fin 4) (seq : BitVec 16) (fs : List TwFrame) (h : Keeps s0 s) : Keeps s0 (State.sendOn s l seq fs) := by
  unfold State.sendOn
  repeat' (first
    | with_reducible assumption
    | (extract_lets +onlyGivenNames z; refine Keeps.cut (v := z) ?_ ?_ <;> [subst z; (intro _; clear_value z)])
    | extract_lets +onlyGivenNames z | with_reducible apply State.wr_keeps | with_reducible apply Keeps.ite
    | with_reducible apply Keeps.iteSnd | with_reducible refine Keeps.ofEq ?_ (by assumption) | split
    | with_reducible refine Keeps.update ?_ rfl rfl rfl rfl rfl rfl rfl rfl | intro _ | dsimp only)

theorem State.sendTo_keeps {s0 : State} {s : State} (on : Fin 4 → Bool) (fs : List TwFrame) (h : Keeps s0 s) : Keeps s0 (State.sendTo s on fs) := by
  unfold State.sendTo
  repeat' (first
    | with_reducible assumption
    | (extract_lets +onlyGivenNames z; refine Keeps.cut (v := z) ?_ ?_ <;> [subst z; (intro _; clear_value z)])
    | extract_lets +onlyGivenNames z | with_reducible apply State.sendOn_keeps | with_reducible apply Keeps.foldlSnd
    | with_reducible apply Keeps.foldl | with_reducible apply Keeps.ite | with_reducible apply Keeps.iteSnd
    | with_reducible refine Keeps.ofEq ?_ (by assumption) | split
    | with_reducible refine Keeps.update ?_ rfl rfl rfl rfl rfl rfl rfl rfl | intro _ | dsimp only)

theorem State.sendAll_keeps {s0 : State} {s : State} (fs : List TwFrame) (h : Keeps s0 s) : Keeps s0 (State.sendAll s fs) := by
  unfold State.sendAll
  repeat' (first
    | with_reducible assumption
    | (extract_lets +onlyGivenNames z; refine Keeps.cut (v := z) ?_ ?_ <;> [subst z; (intro _; clear_value z)])
    | extract_lets +onlyGivenNames z | with_reducible apply State.sendTo_keeps | with_reducible apply Keeps.ite
    | with_reducible apply Keeps.iteSnd | with_reducible refine Keeps.ofEq ?_ (by assumption) | split
    | with_reducible refine Keeps.update ?_ rfl rfl rfl rfl rfl rfl rfl rfl | intro _ | dsimp only)

theorem State.safeStopAt_keeps {s0 : State} {s : State} (cause : Nat) (src : Nat) (ago : Nat) (h : Keeps s0 s) : Keeps s0 (State.safeStopAt s cause src ago) := by
  unfold State.safeStopAt
  repeat' (first
    | with_reducible assumption | with_reducible apply State.bump_keeps | with_reducible apply Keeps.ite | split
    | with_reducible refine Keeps.update ?_ rfl rfl rfl rfl rfl rfl rfl rfl | intro _)

theorem State.safeStop_keeps {s0 : State} {s : State} (cause : Nat) (src : Nat) (self : Bool) (h : Keeps s0 s) : Keeps s0 (State.safeStop s cause src self) := by
  unfold State.safeStop
  repeat' (first
    | with_reducible assumption
    | (extract_lets +onlyGivenNames z; refine Keeps.cut (v := z) ?_ ?_ <;> [subst z; (intro _; clear_value z)])
    | extract_lets +onlyGivenNames z | with_reducible apply State.sendAll_keeps
    | with_reducible apply State.safeStopAt_keeps | with_reducible apply Keeps.ite | with_reducible apply Keeps.iteSnd
    | with_reducible refine Keeps.ofEq ?_ (by assumption) | split
    | with_reducible refine Keeps.update ?_ rfl rfl rfl rfl rfl rfl rfl rfl | intro _ | dsimp only)

theorem State.setPorch_keeps {s0 : State} {s : State} (p : HostPort) (x : Porch) (h : Keeps s0 s) : Keeps s0 (State.setPorch s p x) := by
  unfold State.setPorch
  repeat' (first
    | with_reducible assumption | split | with_reducible refine Keeps.update ?_ rfl rfl rfl rfl rfl rfl rfl rfl)

theorem State.msiPort_keeps {s0 : State} {s : State} (p : HostPort) (h : Keeps s0 s) : Keeps s0 (State.msiPort s p) := by
  unfold State.msiPort
  repeat' (first
    | with_reducible assumption
    | (extract_lets +onlyGivenNames z; refine Keeps.cut (v := z) ?_ ?_ <;> [subst z; (intro _; clear_value z)])
    | extract_lets +onlyGivenNames z | with_reducible apply State.setPorch_keeps | with_reducible apply Keeps.ite | split
    | with_reducible refine Keeps.update ?_ rfl rfl rfl rfl rfl rfl rfl rfl | intro _ | dsimp only)

theorem State.msi_keeps {s0 : State} {s : State} (h : Keeps s0 s) : Keeps s0 (State.msi s) := by
  unfold State.msi
  repeat' (first
    | with_reducible assumption | with_reducible apply State.msiPort_keeps)

theorem State.irq_keeps {s0 : State} {s : State} (pg : Nat) (b : Nat) (h : Keeps s0 s) : Keeps s0 (State.irq s pg b) := by
  unfold State.irq
  repeat' (first
    | with_reducible assumption | with_reducible apply State.putBit_keeps | with_reducible apply State.msi_keeps)

theorem State.irqIf_keeps {s0 : State} {s : State} (c : Bool) (pg : Nat) (b : Nat) (h : Keeps s0 s) : Keeps s0 (State.irqIf s c pg b) := by
  unfold State.irqIf
  repeat' (first
    | with_reducible assumption | with_reducible apply State.irq_keeps | with_reducible apply Keeps.ite | split | intro _)

theorem State.cfgErr_keeps {s0 : State} {s : State} (pg : Nat) (code : Nat) (off : Nat) (ini : Initiator) (h : Keeps s0 s) : Keeps s0 (State.cfgErr s pg code off ini) := by
  unfold State.cfgErr
  repeat' (first
    | with_reducible assumption | with_reducible apply State.wr_keeps)

theorem State.commitDone_keeps {s0 : State} {s : State} (pg : Nat) (h : Keeps s0 s) : Keeps s0 (State.commitDone s pg) := by
  unfold State.commitDone
  repeat' (first
    | with_reducible assumption
    | (extract_lets +onlyGivenNames z; refine Keeps.cut (v := z) ?_ ?_ <;> [subst z; (intro _; clear_value z)])
    | extract_lets +onlyGivenNames z | with_reducible apply State.wr_keeps | with_reducible apply State.irq_keeps | split
    | with_reducible refine Keeps.update ?_ rfl rfl rfl rfl rfl rfl rfl rfl | dsimp only)

theorem State.boundary_keeps {s0 : State} {s : State} (pg : Nat) (h : Keeps s0 s) : Keeps s0 (State.boundary s pg) := by
  unfold State.boundary
  repeat' (first
    | with_reducible assumption | with_reducible apply State.applySet_keeps | with_reducible apply State.commitDone_keeps
    | with_reducible apply Keeps.ite | split | intro _)

theorem State.eccUe_keeps {s0 : State} {s : State} (a : Nat) (h : Keeps s0 s) : Keeps s0 (State.eccUe s a) := by
  unfold State.eccUe
  repeat' (first
    | with_reducible assumption | with_reducible apply State.bump_keeps | with_reducible apply State.wr_keeps)

theorem State.eccCheck_keeps {s0 : State} {s : State} (a : Nat) (h : Keeps s0 s) : Keeps s0 (State.eccCheck s a).2 := by
  unfold State.eccCheck
  repeat' (first
    | with_reducible assumption | with_reducible apply State.eccUe_keeps | with_reducible apply State.bump_keeps
    | with_reducible apply Keeps.ite | split | with_reducible refine Keeps.update ?_ rfl rfl rfl rfl rfl rfl rfl rfl | intro _)

theorem State.sramRead_keeps {s0 : State} {s : State} (a : Nat) (h : Keeps s0 s) : Keeps s0 (State.sramRead s a).2 := by
  unfold State.sramRead
  repeat' (first
    | with_reducible assumption
    | (extract_lets +onlyGivenNames z; refine Keeps.cut (v := z) ?_ ?_ <;> [subst z; (intro _; clear_value z)])
    | extract_lets +onlyGivenNames z | with_reducible apply State.eccCheck_keeps | with_reducible apply Keeps.ite
    | with_reducible refine Keeps.ofEq ?_ (by assumption) | split | intro _ | dsimp only)

theorem State.sramWrite_keeps {s0 : State} {s : State} (a : Nat) (be : BitVec 4) (v : Word) (h : Keeps s0 s) : Keeps s0 (State.sramWrite s a be v).2 := by
  unfold State.sramWrite
  repeat' (first
    | with_reducible assumption
    | (extract_lets +onlyGivenNames z; refine Keeps.cut (v := z) ?_ ?_ <;> [subst z; (intro _; clear_value z)])
    | extract_lets +onlyGivenNames z | with_reducible apply State.eccCheck_keeps | with_reducible apply Keeps.foldl
    | with_reducible apply Keeps.foldlSnd | with_reducible apply Keeps.ite
    | with_reducible refine Keeps.ofEq ?_ (by assumption) | split | with_reducible apply Keeps.putSram
    | with_reducible apply Keeps.putMetro | with_reducible refine Keeps.update ?_ rfl rfl rfl rfl rfl rfl rfl rfl | intro _
    | dsimp only)

theorem State.sramWrite64_keeps {s0 : State} {s : State} (a : Nat) (bs : List Byte) (h : Keeps s0 s) : Keeps s0 (State.sramWrite64 s a bs) := by
  unfold State.sramWrite64
  repeat' (first
    | with_reducible assumption
    | (extract_lets +onlyGivenNames z; refine Keeps.cut (v := z) ?_ ?_ <;> [subst z; (intro _; clear_value z)])
    | extract_lets +onlyGivenNames z | with_reducible apply State.pokeBytes_keeps
    | with_reducible refine Keeps.update ?_ rfl rfl rfl rfl rfl rfl rfl rfl | intro _ | dsimp only)

theorem State.sramRead64_keeps {s0 : State} {s : State} (a : Nat) (h : Keeps s0 s) : Keeps s0 (State.sramRead64 s a).2 := by
  unfold State.sramRead64
  repeat' (first
    | with_reducible assumption
    | (extract_lets +onlyGivenNames z; refine Keeps.cut (v := z) ?_ ?_ <;> [subst z; (intro _; clear_value z)])
    | extract_lets +onlyGivenNames z | with_reducible apply State.eccCheck_keeps | with_reducible apply Keeps.ite
    | with_reducible refine Keeps.ofEq ?_ (by assumption) | split | intro _ | dsimp only)

theorem State.dmaRead_keeps {s0 : State} {s : State} (a : Nat) (n : Nat) (h : Keeps s0 s) : Keeps s0 (State.dmaRead s a n).2 := by
  unfold State.dmaRead
  repeat' (first
    | with_reducible assumption
    | (extract_lets +onlyGivenNames z; refine Keeps.cut (v := z) ?_ ?_ <;> [subst z; (intro _; clear_value z)])
    | extract_lets +onlyGivenNames z | with_reducible apply State.eccCheck_keeps | with_reducible apply Keeps.foldl
    | with_reducible apply Keeps.foldlSnd | with_reducible apply Keeps.ite
    | with_reducible refine Keeps.ofEq ?_ (by assumption) | split | intro _ | dsimp only)

theorem State.dmaPiece_keeps {s0 : State} {s : State} (a : Nat) (bs : List Byte) (h : Keeps s0 s) : Keeps s0 (State.dmaPiece s a bs).2 := by
  unfold State.dmaPiece
  repeat' (first
    | with_reducible assumption
    | (extract_lets +onlyGivenNames z; refine Keeps.cut (v := z) ?_ ?_ <;> [subst z; (intro _; clear_value z)])
    | extract_lets +onlyGivenNames z | with_reducible apply State.sramWrite64_keeps
    | with_reducible apply State.eccCheck_keeps | with_reducible apply State.pokeBytes_keeps
    | with_reducible apply Keeps.ite | with_reducible apply Keeps.iteSnd
    | with_reducible refine Keeps.ofEq ?_ (by assumption) | split
    | with_reducible refine Keeps.update ?_ rfl rfl rfl rfl rfl rfl rfl rfl | intro _ | dsimp only)

theorem State.dmaStore_keeps {s0 : State} {s : State} (a : Nat) (bs : List Byte) (h : Keeps s0 s) : Keeps s0 (State.dmaStore s a bs).2 := by
  unfold State.dmaStore
  repeat' (first
    | with_reducible assumption
    | (extract_lets +onlyGivenNames z; refine Keeps.cut (v := z) ?_ ?_ <;> [subst z; (intro _; clear_value z)])
    | extract_lets +onlyGivenNames z | with_reducible apply State.dmaPiece_keeps | with_reducible apply Keeps.foldlSnd
    | with_reducible apply Keeps.foldl | with_reducible apply Keeps.ite | with_reducible apply Keeps.iteSnd
    | with_reducible refine Keeps.ofEq ?_ (by assumption) | split
    | with_reducible refine Keeps.update ?_ rfl rfl rfl rfl rfl rfl rfl rfl | intro _ | dsimp only)

theorem State.dmaWrite_keeps {s0 : State} {s : State} (a : Nat) (bs : List Byte) (h : Keeps s0 s) : Keeps s0 (State.dmaWrite s a bs).2 := by
  unfold State.dmaWrite
  repeat' (first
    | with_reducible assumption
    | (extract_lets +onlyGivenNames z; refine Keeps.cut (v := z) ?_ ?_ <;> [subst z; (intro _; clear_value z)])
    | extract_lets +onlyGivenNames z | with_reducible apply State.dmaStore_keeps | with_reducible apply Keeps.ite
    | with_reducible apply Keeps.iteSnd | with_reducible refine Keeps.ofEq ?_ (by assumption) | split
    | with_reducible refine Keeps.update ?_ rfl rfl rfl rfl rfl rfl rfl rfl | intro _ | dsimp only)

theorem State.freeKey_keeps {s0 : State} {s : State} (n : Nat) (h : Keeps s0 s) : Keeps s0 (State.freeKey s n) := by
  unfold State.freeKey
  repeat' (first
    | with_reducible assumption | with_reducible apply State.wr_keeps)

theorem State.freeKeysOf_keeps {s0 : State} {s : State} (id : Nat) (h : Keeps s0 s) : Keeps s0 (State.freeKeysOf s id) := by
  unfold State.freeKeysOf
  repeat' (first
    | with_reducible assumption | with_reducible apply State.freeKey_keeps | with_reducible apply Keeps.foldl
    | with_reducible apply Keeps.foldlSnd | with_reducible apply Keeps.ite | split | intro _ | dsimp only)

end Sys2Proof.Machine
end

