-- ==== Sys2Proof/Laws/KeepsAttic.lean ====
section
/-!
SUPPORT. Laws/KeepsAttic.lean: every operation of Machine/Attic.lean keeps what `Keeps` says.
-/
namespace Sys2Proof.Machine

set_option linter.unusedTactic false
set_option linter.unreachableTactic false
set_option linter.unusedVariables false
set_option linter.tactic.unusedName false

theorem State.setCap_keeps {s0 : State} {s : State} (n : Fin 8) (c : CapUnit) (h : Keeps s0 s) : Keeps s0 (State.setCap s n c) := by
  unfold State.setCap
  repeat' (first
    | with_reducible assumption | with_reducible refine Keeps.update ?_ rfl rfl rfl rfl rfl rfl rfl rfl)

theorem State.atticPoke_keeps {s0 : State} {s : State} (w : Nat) (v : Nat) (h : Keeps s0 s) : Keeps s0 (State.atticPoke s w v) := by
  unfold State.atticPoke
  repeat' (first
    | with_reducible assumption | with_reducible apply Keeps.putAttic
    | with_reducible refine Keeps.update ?_ rfl rfl rfl rfl rfl rfl rfl rfl)

theorem State.setCapState_keeps {s0 : State} {s : State} (n : Nat) (st : Nat) (h : Keeps s0 s) : Keeps s0 (State.setCapState s n st) := by
  unfold State.setCapState
  repeat' (first
    | with_reducible assumption
    | (extract_lets +onlyGivenNames z; refine Keeps.cut (v := z) ?_ ?_ <;> [subst z; (intro _; clear_value z)])
    | extract_lets +onlyGivenNames z | with_reducible apply State.wr_keeps | with_reducible apply State.putBit_keeps
    | dsimp only)

theorem State.capFigures_keeps {s0 : State} {s : State} (n : Nat) (h : Keeps s0 s) : Keeps s0 (State.capFigures s n) := by
  unfold State.capFigures
  repeat' (first
    | with_reducible assumption
    | (extract_lets +onlyGivenNames z; refine Keeps.cut (v := z) ?_ ?_ <;> [subst z; (intro _; clear_value z)])
    | extract_lets +onlyGivenNames z | with_reducible apply State.wr_keeps | with_reducible apply State.setFlag_keeps
    | dsimp only)

theorem State.openSegment_keeps {s0 : State} {s : State} (n : Fin 8) (h : Keeps s0 s) : Keeps s0 (State.openSegment s n) := by
  unfold State.openSegment
  repeat' (first
    | with_reducible assumption
    | (extract_lets +onlyGivenNames z; refine Keeps.cut (v := z) ?_ ?_ <;> [subst z; (intro _; clear_value z)])
    | extract_lets +onlyGivenNames z | with_reducible apply State.atticPoke_keeps | with_reducible apply State.setCap_keeps
    | with_reducible apply State.setCapState_keeps | with_reducible apply Keeps.ite | split | intro _ | dsimp only)

theorem State.closeSegment_keeps {s0 : State} {s : State} (n : Fin 8) (trunc : Bool) (h : Keeps s0 s) : Keeps s0 (State.closeSegment s n trunc) := by
  unfold State.closeSegment
  repeat' (first
    | with_reducible assumption
    | (extract_lets +onlyGivenNames z; refine Keeps.cut (v := z) ?_ ?_ <;> [subst z; (intro _; clear_value z)])
    | extract_lets +onlyGivenNames z | with_reducible apply State.atticPoke_keeps
    | with_reducible apply State.wrapBump_keeps | with_reducible apply State.wr_keeps
    | with_reducible apply State.irq_keeps | with_reducible apply Keeps.foldlSnd | with_reducible apply Keeps.foldl
    | with_reducible apply Keeps.ite | with_reducible apply Keeps.iteSnd
    | with_reducible refine Keeps.ofEq ?_ (by assumption) | split
    | with_reducible refine Keeps.update ?_ rfl rfl rfl rfl rfl rfl rfl rfl | intro _ | dsimp only)

theorem State.segmentComplete_keeps {s0 : State} {s : State} (n : Fin 8) (h : Keeps s0 s) : Keeps s0 (State.segmentComplete s n) := by
  unfold State.segmentComplete
  repeat' (first
    | with_reducible assumption
    | (extract_lets +onlyGivenNames z; refine Keeps.cut (v := z) ?_ ?_ <;> [subst z; (intro _; clear_value z)])
    | extract_lets +onlyGivenNames z | with_reducible apply State.closeSegment_keeps
    | with_reducible apply State.setCapState_keeps | with_reducible apply State.irq_keeps
    | with_reducible apply State.openSegment_keeps | with_reducible apply Keeps.ite | split | intro _ | dsimp only)

theorem State.capStop_keeps {s0 : State} {s : State} (n : Fin 8) (h : Keeps s0 s) : Keeps s0 (State.capStop s n) := by
  unfold State.capStop
  repeat' (first
    | with_reducible assumption
    | (extract_lets +onlyGivenNames z; refine Keeps.cut (v := z) ?_ ?_ <;> [subst z; (intro _; clear_value z)])
    | extract_lets +onlyGivenNames z | with_reducible apply State.closeSegment_keeps | with_reducible apply State.setCap_keeps
    | with_reducible apply State.setCapState_keeps | with_reducible apply Keeps.ite | split | intro _ | dsimp only)

theorem State.atticStop_keeps {s0 : State} {s : State} (h : Keeps s0 s) : Keeps s0 (State.atticStop s) := by
  unfold State.atticStop
  repeat' (first
    | with_reducible assumption | with_reducible apply State.capStop_keeps | with_reducible apply Keeps.foldl
    | with_reducible apply Keeps.foldlSnd | intro _ | dsimp only)

theorem State.capStart_keeps {s0 : State} {s : State} (n : Fin 8) (h : Keeps s0 s) : Keeps s0 (State.capStart s n) := by
  unfold State.capStart
  repeat' (first
    | with_reducible assumption | with_reducible apply State.setCap_keeps | with_reducible apply State.openSegment_keeps)

theorem State.capClear_keeps {s0 : State} {s : State} (n : Fin 8) (h : Keeps s0 s) : Keeps s0 (State.capClear s n) := by
  unfold State.capClear
  repeat' (first
    | with_reducible assumption
    | (extract_lets +onlyGivenNames z; refine Keeps.cut (v := z) ?_ ?_ <;> [subst z; (intro _; clear_value z)])
    | extract_lets +onlyGivenNames z | with_reducible apply State.atticPoke_keeps | with_reducible apply State.wr_keeps
    | with_reducible apply State.setCapState_keeps | with_reducible apply Keeps.foldl | with_reducible apply Keeps.foldlSnd
    | intro _ | dsimp only)

theorem State.pullTrig_keeps {s0 : State} {s : State} (l : Fin 4) (w10ns : Nat) (h : Keeps s0 s) : Keeps s0 (State.pullTrig s l w10ns) := by
  unfold State.pullTrig
  repeat' (first
    | with_reducible assumption
    | (extract_lets +onlyGivenNames z; refine Keeps.cut (v := z) ?_ ?_ <;> [subst z; (intro _; clear_value z)])
    | extract_lets +onlyGivenNames z | with_reducible apply Keeps.ite | split
    | with_reducible refine Keeps.update ?_ rfl rfl rfl rfl rfl rfl rfl rfl | intro _ | dsimp only)

theorem State.capCount_keeps {s0 s : State} {n : Fin 8} {f : State → State} (h : Keeps s0 s) (hf : ∀ s, Keeps s0 s → Keeps s0 (f s)) :
    Keeps s0 (s.capCount n f) :=
  Keeps.ite (fun _ => h) fun _ => hf _ (State.setCap_keeps _ _ h)

theorem State.capTrigger_keeps {s0 : State} {s : State} (n : Fin 8) (units : BitVec 8) (force : Bool) (at_ : Option (Word64 × Nat × Nat)) (h : Keeps s0 s) : Keeps s0 (State.capTrigger s n units force at_) := by
  unfold State.capTrigger
  repeat' (first
    | with_reducible assumption
    | (extract_lets +onlyGivenNames z; refine Keeps.cut (v := z) ?_ ?_ <;> [subst z; (intro _; clear_value z)])
    | extract_lets +onlyGivenNames z | with_reducible apply State.capCount_keeps | with_reducible apply State.bump_keeps
    | with_reducible apply State.setCap_keeps | with_reducible apply State.setCapState_keeps
    | with_reducible apply State.pullTrig_keeps | with_reducible apply State.irq_keeps | with_reducible apply Keeps.ite
    | with_reducible apply Keeps.iteSnd | with_reducible refine Keeps.ofEq ?_ (by assumption) | split
    | with_reducible refine Keeps.update ?_ rfl rfl rfl rfl rfl rfl rfl rfl | intro _ | dsimp only)

theorem State.trgDecide_keeps {s0 : State} {s : State} (t : Fin 8) (at_ : Option (Word64 × Nat × Nat)) (h : Keeps s0 s) : Keeps s0 (State.trgDecide s t at_) := by
  unfold State.trgDecide
  repeat' (first
    | with_reducible assumption
    | (extract_lets +onlyGivenNames z; refine Keeps.cut (v := z) ?_ ?_ <;> [subst z; (intro _; clear_value z)])
    | extract_lets +onlyGivenNames z | with_reducible apply State.capTrigger_keeps | with_reducible apply Keeps.foldlSnd
    | with_reducible apply Keeps.foldl | with_reducible apply Keeps.ite | with_reducible apply Keeps.iteSnd
    | with_reducible refine Keeps.ofEq ?_ (by assumption) | split
    | with_reducible refine Keeps.update ?_ rfl rfl rfl rfl rfl rfl rfl rfl | intro _ | dsimp only)

theorem State.trgUpdate_keeps {s0 : State} {s : State} (t : Fin 8) (w : Word) (h : Keeps s0 s) : Keeps s0 (State.trgUpdate s t w) := by
  unfold State.trgUpdate
  repeat' (first
    | with_reducible assumption
    | (extract_lets +onlyGivenNames z; refine Keeps.cut (v := z) ?_ ?_ <;> [subst z; (intro _; clear_value z)])
    | extract_lets +onlyGivenNames z | with_reducible apply State.trgDecide_keeps | with_reducible apply Keeps.ite
    | with_reducible refine Keeps.ofEq ?_ (by assumption) | split
    | with_reducible refine Keeps.update ?_ rfl rfl rfl rfl rfl rfl rfl rfl | intro _ | dsimp only)

theorem State.sigTake_keeps {s0 : State} {s : State} (k : Fin 32) (w : Word) (valid : Bool) (quiet : Bool) (h : Keeps s0 s) : Keeps s0 (State.sigTake s k w valid quiet) := by
  unfold State.sigTake
  repeat' (first
    | with_reducible assumption
    | (extract_lets +onlyGivenNames z; refine Keeps.cut (v := z) ?_ ?_ <;> [subst z; (intro _; clear_value z)])
    | extract_lets +onlyGivenNames z | with_reducible apply State.trgUpdate_keeps | with_reducible apply Keeps.foldlSnd
    | with_reducible apply Keeps.foldl | with_reducible apply Keeps.ite | with_reducible apply Keeps.iteSnd
    | with_reducible refine Keeps.ofEq ?_ (by assumption) | split
    | with_reducible refine Keeps.update ?_ rfl rfl rfl rfl rfl rfl rfl rfl | intro _ | dsimp only)

theorem State.sigUpdate_keeps {s0 : State} {s : State} (kind : Nat) (index : Nat) (w : Word) (valid : Bool) (quiet : Bool) (h : Keeps s0 s) : Keeps s0 (State.sigUpdate s kind index w valid quiet) := by
  unfold State.sigUpdate
  repeat' (first
    | with_reducible assumption
    | (extract_lets +onlyGivenNames z; refine Keeps.cut (v := z) ?_ ?_ <;> [subst z; (intro _; clear_value z)])
    | extract_lets +onlyGivenNames z | with_reducible apply State.sigTake_keeps | with_reducible apply Keeps.foldlSnd
    | with_reducible apply Keeps.foldl | with_reducible apply Keeps.ite | with_reducible apply Keeps.iteSnd
    | with_reducible refine Keeps.ofEq ?_ (by assumption) | split
    | with_reducible refine Keeps.update ?_ rfl rfl rfl rfl rfl rfl rfl rfl | intro _ | dsimp only)

theorem State.trgLine_keeps {s0 : State} {s : State} (kind : Nat) (l : Nat) (at_ : Word64 × Nat × Nat) (h : Keeps s0 s) : Keeps s0 (State.trgLine s kind l at_) := by
  unfold State.trgLine
  repeat' (first
    | with_reducible assumption
    | (extract_lets +onlyGivenNames z; refine Keeps.cut (v := z) ?_ ?_ <;> [subst z; (intro _; clear_value z)])
    | extract_lets +onlyGivenNames z | with_reducible apply State.trgDecide_keeps | with_reducible apply Keeps.foldlSnd
    | with_reducible apply Keeps.foldl | with_reducible apply Keeps.ite | with_reducible apply Keeps.iteSnd
    | with_reducible refine Keeps.ofEq ?_ (by assumption) | split
    | with_reducible refine Keeps.update ?_ rfl rfl rfl rfl rfl rfl rfl rfl | intro _ | dsimp only)

theorem State.sampleEvent_keeps {s0 : State} {s : State} (kind : Nat) (index : Nat) (evt : Nat) (h : Keeps s0 s) : Keeps s0 (State.sampleEvent s kind index evt) := by
  unfold State.sampleEvent
  repeat' (first
    | with_reducible assumption
    | (extract_lets +onlyGivenNames z; refine Keeps.cut (v := z) ?_ ?_ <;> [subst z; (intro _; clear_value z)])
    | extract_lets +onlyGivenNames z | with_reducible apply State.setCap_keeps | with_reducible apply Keeps.foldlSnd
    | with_reducible apply Keeps.foldl | with_reducible apply Keeps.ite | with_reducible apply Keeps.iteSnd
    | with_reducible refine Keeps.ofEq ?_ (by assumption) | split
    | with_reducible refine Keeps.update ?_ rfl rfl rfl rfl rfl rfl rfl rfl | intro _ | dsimp only)

theorem State.writeFrame_keeps {s0 : State} {s : State} (n : Fin 8) (h : Keeps s0 s) : Keeps s0 (State.writeFrame s n) := by
  unfold State.writeFrame
  repeat' (first
    | with_reducible assumption
    | (extract_lets +onlyGivenNames z; refine Keeps.cut (v := z) ?_ ?_ <;> [subst z; (intro _; clear_value z)])
    | extract_lets +onlyGivenNames z | with_reducible apply State.freshWord_keeps
    | with_reducible apply State.atticPoke_keeps | with_reducible apply State.setCap_keeps
    | with_reducible apply State.setCapState_keeps | with_reducible apply Keeps.foldlSnd
    | with_reducible apply Keeps.foldl | with_reducible apply Keeps.ite | with_reducible apply Keeps.iteSnd
    | with_reducible refine Keeps.ofEq ?_ (by assumption) | split
    | with_reducible refine Keeps.update ?_ rfl rfl rfl rfl rfl rfl rfl rfl | intro _ | dsimp only)

theorem State.sampleLatch_keeps {s0 : State} {s : State} (n : Fin 8) (h : Keeps s0 s) : Keeps s0 (State.sampleLatch s n) := by
  unfold State.sampleLatch
  repeat' (first
    | with_reducible assumption
    | (extract_lets +onlyGivenNames z; refine Keeps.cut (v := z) ?_ ?_ <;> [subst z; (intro _; clear_value z)])
    | extract_lets +onlyGivenNames z | with_reducible apply State.setCap_keeps
    | with_reducible apply State.writeFrame_keeps | with_reducible apply Keeps.ite | with_reducible apply Keeps.iteSnd
    | with_reducible refine Keeps.ofEq ?_ (by assumption) | split
    | with_reducible refine Keeps.update ?_ rfl rfl rfl rfl rfl rfl rfl rfl | intro _ | dsimp only)

theorem State.atticCommit_keeps {s0 : State} {s : State} (changed : Fin 8 → Bool) (h : Keeps s0 s) : Keeps s0 (State.atticCommit s changed) := by
  unfold State.atticCommit
  repeat' (first
    | with_reducible assumption
    | (extract_lets +onlyGivenNames z; refine Keeps.cut (v := z) ?_ ?_ <;> [subst z; (intro _; clear_value z)])
    | extract_lets +onlyGivenNames z | with_reducible apply State.capFigures_keeps | with_reducible apply Keeps.foldl
    | with_reducible apply Keeps.foldlSnd | with_reducible apply Keeps.ite | split
    | with_reducible refine Keeps.update ?_ rfl rfl rfl rfl rfl rfl rfl rfl | intro _ | dsimp only)

end Sys2Proof.Machine
end

