-- ==== Sys2Proof/Laws/KeepsOtp.lean ====
section
/-!
SUPPORT. Laws/KeepsOtp.lean: every operation of Machine/Otp.lean keeps what `Keeps` says.
-/
namespace Sys2Proof.Machine

set_option linter.unusedTactic false
set_option linter.unreachableTactic false
set_option linter.unusedVariables false
set_option linter.tactic.unusedName false

theorem State.otpBurnBits_keeps {s0 : State} {s : State} (at_ : Nat) (n : Nat) (v : Nat) (h : Keeps s0 s) : Keeps s0 (State.otpBurnBits s at_ n v) := by
  unfold State.otpBurnBits
  repeat' (first
    | with_reducible assumption | with_reducible apply State.otpBurn_keeps | with_reducible apply Keeps.foldl
    | with_reducible apply Keeps.foldlSnd | with_reducible apply Keeps.ite | split | intro _ | dsimp only)

theorem State.otpBurnBytes_keeps {s0 : State} {s : State} (at_ : Nat) (bs : List Byte) (h : Keeps s0 s) : Keeps s0 (State.otpBurnBytes s at_ bs) := by
  induction bs generalizing s at_ with
  | nil => exact h
  | cons b bs ih => exact ih _ (State.otpBurnBits_keeps _ _ _ h)

end Sys2Proof.Machine
end

