-- ==== Sys2Proof/Laws/KeepsFuse.lean ====
section
/-!
SUPPORT. Laws/KeepsFuse.lean: every operation of Machine/Fuse.lean keeps what `Keeps` says.
-/
namespace Sys2Proof.Machine

set_option linter.unusedTactic false
set_option linter.unreachableTactic false
set_option linter.unusedVariables false
set_option linter.tactic.unusedName false

theorem State.putActive_keeps {s0 : State} {s : State} (src : Nat) (b : Bool) (h : Keeps s0 s) : Keeps s0 (State.putActive s src b) := by
  unfold State.putActive
  repeat' (first
    | with_reducible assumption | with_reducible apply State.putBit_keeps | with_reducible apply Keeps.ite | split | intro _)

theorem State.putLatch_keeps {s0 : State} {s : State} (src : Nat) (b : Bool) (h : Keeps s0 s) : Keeps s0 (State.putLatch s src b) := by
  unfold State.putLatch
  repeat' (first
    | with_reducible assumption | with_reducible apply State.putBit_keeps | with_reducible apply Keeps.ite | split | intro _)

theorem State.setSource_keeps {s0 : State} {s : State} (src : Nat) (b : Bool) (h : Keeps s0 s) : Keeps s0 (State.setSource s src b) := by
  unfold State.setSource
  repeat' (first
    | with_reducible assumption
    | (extract_lets +onlyGivenNames z; refine Keeps.cut (v := z) ?_ ?_ <;> [subst z; (intro _; clear_value z)])
    | extract_lets +onlyGivenNames z | with_reducible apply State.putActive_keeps | with_reducible apply Keeps.ite
    | with_reducible apply Keeps.iteSnd | with_reducible refine Keeps.ofEq ?_ (by assumption) | split
    | with_reducible refine Keeps.update ?_ rfl rfl rfl rfl rfl rfl rfl rfl | intro _ | dsimp only)

theorem State.fuseStatus_keeps {s0 : State} {s : State} (h : Keeps s0 s) : Keeps s0 (State.fuseStatus s) := by
  unfold State.fuseStatus
  repeat' (first
    | with_reducible assumption
    | (extract_lets +onlyGivenNames z; refine Keeps.cut (v := z) ?_ ?_ <;> [subst z; (intro _; clear_value z)])
    | extract_lets +onlyGivenNames z | with_reducible apply State.setFlag_keeps | split | dsimp only)

theorem State.recordFirst_keeps {s0 : State} {s : State} (src : Nat) (h : Keeps s0 s) : Keeps s0 (State.recordFirst s src) := by
  unfold State.recordFirst
  repeat' (first
    | with_reducible assumption
    | (extract_lets +onlyGivenNames z; refine Keeps.cut (v := z) ?_ ?_ <;> [subst z; (intro _; clear_value z)])
    | extract_lets +onlyGivenNames z | with_reducible apply State.wr_keeps | with_reducible apply State.wr64_keeps
    | with_reducible apply Keeps.ite | with_reducible refine Keeps.ofEq ?_ (by assumption) | split | intro _ | dsimp only)

theorem State.clearRefused_keeps {s0 : State} {s : State} (h : Keeps s0 s) : Keeps s0 (State.clearRefused s) := by
  unfold State.clearRefused
  repeat' (first
    | with_reducible assumption | with_reducible apply State.bump_keeps | with_reducible apply State.irq_keeps)

theorem State.clearSourceBit_keeps {s0 : State} {s : State} (src : Nat) (h : Keeps s0 s) : Keeps s0 (State.clearSourceBit s src) := by
  unfold State.clearSourceBit
  repeat' (first
    | with_reducible assumption
    | (extract_lets +onlyGivenNames z; refine Keeps.cut (v := z) ?_ ?_ <;> [subst z; (intro _; clear_value z)])
    | extract_lets +onlyGivenNames z | with_reducible apply State.clearRefused_keeps
    | with_reducible apply State.putLatch_keeps | with_reducible apply State.wr_keeps | with_reducible apply Keeps.ite | split
    | intro _ | dsimp only)

theorem State.clearSources_keeps {s0 : State} {s : State} (hi : Bool) (mask : Nat) (h : Keeps s0 s) : Keeps s0 (State.clearSources s hi mask) := by
  unfold State.clearSources
  repeat' (first
    | with_reducible assumption | with_reducible apply State.clearSourceBit_keeps
    | with_reducible apply State.fuseStatus_keeps | with_reducible apply Keeps.foldl | with_reducible apply Keeps.foldlSnd
    | with_reducible apply Keeps.ite | split | intro _ | dsimp only)

theorem State.clearUnitBit_keeps {s0 : State} {s : State} (u : Nat) (h : Keeps s0 s) : Keeps s0 (State.clearUnitBit s u) := by
  unfold State.clearUnitBit
  repeat' (first
    | with_reducible assumption
    | (extract_lets +onlyGivenNames z; refine Keeps.cut (v := z) ?_ ?_ <;> [subst z; (intro _; clear_value z)])
    | extract_lets +onlyGivenNames z | with_reducible apply State.clearRefused_keeps | with_reducible apply State.putBit_keeps
    | with_reducible apply State.wr_keeps | with_reducible apply Keeps.ite | split | intro _ | dsimp only)

theorem State.clearUnits_keeps {s0 : State} {s : State} (mask : Nat) (h : Keeps s0 s) : Keeps s0 (State.clearUnits s mask) := by
  unfold State.clearUnits
  repeat' (first
    | with_reducible assumption | with_reducible apply State.clearUnitBit_keeps | with_reducible apply State.fuseStatus_keeps
    | with_reducible apply Keeps.foldl | with_reducible apply Keeps.foldlSnd | with_reducible apply Keeps.ite | split
    | intro _ | dsimp only)

theorem State.tripSource_keeps {s0 : State} {s : State} (p : Nat) (h : Keeps s0 s) : Keeps s0 (State.tripSource s p) := by
  unfold State.tripSource
  repeat' (first
    | with_reducible assumption
    | (extract_lets +onlyGivenNames z; refine Keeps.cut (v := z) ?_ ?_ <;> [subst z; (intro _; clear_value z)])
    | extract_lets +onlyGivenNames z | with_reducible apply State.setSource_keeps | with_reducible apply Keeps.ite
    | with_reducible apply Keeps.iteSnd | with_reducible refine Keeps.ofEq ?_ (by assumption) | split
    | with_reducible refine Keeps.update ?_ rfl rfl rfl rfl rfl rfl rfl rfl | intro _ | dsimp only)

theorem State.tripInput_keeps {s0 : State} {s : State} (p : Nat) (level : Bool) (h : Keeps s0 s) : Keeps s0 (State.tripInput s p level) := by
  unfold State.tripInput
  repeat' (first
    | with_reducible assumption
    | (extract_lets +onlyGivenNames z; refine Keeps.cut (v := z) ?_ ?_ <;> [subst z; (intro _; clear_value z)])
    | extract_lets +onlyGivenNames z | with_reducible apply State.tripSource_keeps | with_reducible apply Keeps.ite
    | with_reducible apply Keeps.iteSnd | with_reducible refine Keeps.ofEq ?_ (by assumption) | split
    | with_reducible refine Keeps.update ?_ rfl rfl rfl rfl rfl rfl rfl rfl | intro _ | dsimp only)

end Sys2Proof.Machine
end

