-- ==== Sys2Proof/Laws/KeepsPwm.lean ====
section
/-!
SUPPORT. Laws/KeepsPwm.lean: every operation of Machine/Pwm.lean keeps what `Keeps` says.
-/
namespace Sys2Proof.Machine

set_option linter.unusedTactic false
set_option linter.unreachableTactic false
set_option linter.unusedVariables false
set_option linter.tactic.unusedName false

theorem State.setPwmUnit_keeps {s0 : State} {s : State} (n : Fin 16) (u : PwmUnit) (h : Keeps s0 s) : Keeps s0 (State.setPwmUnit s n u) := by
  unfold State.setPwmUnit
  repeat' (first
    | with_reducible assumption | with_reducible refine Keeps.update ?_ rfl rfl rfl rfl rfl rfl rfl rfl)

theorem State.setPwmPair_keeps {s0 : State} {s : State} (n : Fin 16) (k : Fin 4) (p : PwmPair) (h : Keeps s0 s) : Keeps s0 (State.setPwmPair s n k p) := by
  unfold State.setPwmPair
  repeat' (first
    | with_reducible assumption
    | (extract_lets +onlyGivenNames z; refine Keeps.cut (v := z) ?_ ?_ <;> [subst z; (intro _; clear_value z)])
    | extract_lets +onlyGivenNames z | with_reducible apply State.setPwmUnit_keeps | with_reducible apply Keeps.ite
    | with_reducible apply Keeps.iteSnd | with_reducible refine Keeps.ofEq ?_ (by assumption) | split
    | with_reducible refine Keeps.update ?_ rfl rfl rfl rfl rfl rfl rfl rfl | intro _ | dsimp only)

theorem State.minpCount_keeps {s0 : State} {s : State} (n : Fin 16) (adj : Bool) (h : Keeps s0 s) : Keeps s0 (State.minpCount s n adj) := by
  unfold State.minpCount
  repeat' (first
    | with_reducible assumption
    | (extract_lets +onlyGivenNames z; refine Keeps.cut (v := z) ?_ ?_ <;> [subst z; (intro _; clear_value z)])
    | extract_lets +onlyGivenNames z | with_reducible apply State.bump_keeps | with_reducible apply State.irq_keeps
    | with_reducible apply Keeps.ite | with_reducible apply Keeps.iteSnd
    | with_reducible refine Keeps.ofEq ?_ (by assumption) | split
    | with_reducible refine Keeps.update ?_ rfl rfl rfl rfl rfl rfl rfl rfl | intro _ | dsimp only)

theorem State.placePlan_keeps {s0 : State} {s : State} (n : Fin 16) (k : Fin 4) (fresh : Bool) (r : PwmPlan) (h : Keeps s0 s) : Keeps s0 (State.placePlan s n k fresh r) := by
  unfold State.placePlan
  repeat' (first
    | with_reducible assumption
    | (extract_lets +onlyGivenNames z; refine Keeps.cut (v := z) ?_ ?_ <;> [subst z; (intro _; clear_value z)])
    | extract_lets +onlyGivenNames z | with_reducible apply State.minpCount_keeps
    | with_reducible apply State.setPwmPair_keeps | with_reducible apply Keeps.ite | with_reducible apply Keeps.iteSnd
    | with_reducible refine Keeps.ofEq ?_ (by assumption) | split
    | with_reducible refine Keeps.update ?_ rfl rfl rfl rfl rfl rfl rfl rfl | intro _ | dsimp only)

theorem State.planBoundary_keeps {s0 : State} {s : State} (n : Fin 16) (k : Fin 4) (e : Int) (h : Keeps s0 s) : Keeps s0 (State.planBoundary s n k e) := by
  unfold State.planBoundary
  repeat' (first
    | with_reducible assumption
    | (extract_lets +onlyGivenNames z; refine Keeps.cut (v := z) ?_ ?_ <;> [subst z; (intro _; clear_value z)])
    | extract_lets +onlyGivenNames z | with_reducible apply State.placePlan_keeps | with_reducible apply Keeps.ite
    | with_reducible apply Keeps.iteSnd | with_reducible refine Keeps.ofEq ?_ (by assumption) | split
    | with_reducible refine Keeps.update ?_ rfl rfl rfl rfl rfl rfl rfl rfl | intro _ | dsimp only)

theorem State.planMid_keeps {s0 : State} {s : State} (n : Fin 16) (k : Fin 4) (e : Int) (h : Keeps s0 s) : Keeps s0 (State.planMid s n k e) := by
  unfold State.planMid
  repeat' (first
    | with_reducible assumption
    | (extract_lets +onlyGivenNames z; refine Keeps.cut (v := z) ?_ ?_ <;> [subst z; (intro _; clear_value z)])
    | extract_lets +onlyGivenNames z | with_reducible apply State.placePlan_keeps | with_reducible apply Keeps.ite
    | with_reducible apply Keeps.iteSnd | with_reducible refine Keeps.ofEq ?_ (by assumption) | split
    | with_reducible refine Keeps.update ?_ rfl rfl rfl rfl rfl rfl rfl rfl | intro _ | dsimp only)

theorem State.changeDelay_keeps {s0 : State} {s : State} (n : Fin 16) (now : Int) (k : Fin 4) (h : Keeps s0 s) : Keeps s0 (State.changeDelay s n now k) := by
  unfold State.changeDelay
  repeat' (first
    | with_reducible assumption
    | (extract_lets +onlyGivenNames z; refine Keeps.cut (v := z) ?_ ?_ <;> [subst z; (intro _; clear_value z)])
    | extract_lets +onlyGivenNames z | with_reducible apply State.setPwmPair_keeps | with_reducible apply Keeps.ite
    | with_reducible apply Keeps.iteSnd | with_reducible refine Keeps.ofEq ?_ (by assumption) | split
    | with_reducible refine Keeps.update ?_ rfl rfl rfl rfl rfl rfl rfl rfl | intro _ | dsimp only)

theorem State.changeDelays_keeps {s0 : State} {s : State} (n : Fin 16) (now : Int) (h : Keeps s0 s) : Keeps s0 (State.changeDelays s n now) := by
  unfold State.changeDelays
  repeat' (first
    | with_reducible assumption
    | (extract_lets +onlyGivenNames z; refine Keeps.cut (v := z) ?_ ?_ <;> [subst z; (intro _; clear_value z)])
    | extract_lets +onlyGivenNames z | with_reducible apply State.changeDelay_keeps
    | with_reducible apply Keeps.foldlSnd | with_reducible apply Keeps.foldl | with_reducible apply Keeps.ite
    | with_reducible apply Keeps.iteSnd | with_reducible refine Keeps.ofEq ?_ (by assumption) | split
    | with_reducible refine Keeps.update ?_ rfl rfl rfl rfl rfl rfl rfl rfl | intro _ | dsimp only)

theorem State.loadPair_keeps {s0 : State} {s : State} (n : Fin 16) (k : Fin 4) (now : Int) (h : Keeps s0 s) : Keeps s0 (State.loadPair s n k now) := by
  unfold State.loadPair
  repeat' (first
    | with_reducible assumption
    | (extract_lets +onlyGivenNames z; refine Keeps.cut (v := z) ?_ ?_ <;> [subst z; (intro _; clear_value z)])
    | extract_lets +onlyGivenNames z | with_reducible apply State.wr_keeps
    | with_reducible apply State.changeDelay_keeps | with_reducible apply Keeps.ite | with_reducible apply Keeps.iteSnd
    | with_reducible refine Keeps.ofEq ?_ (by assumption) | split
    | with_reducible refine Keeps.update ?_ rfl rfl rfl rfl rfl rfl rfl rfl | intro _ | dsimp only)

theorem State.pairBoundary_keeps {s0 : State} {s : State} (n : Fin 16) (k : Fin 4) (e : Int) (t : Nat) (h : Keeps s0 s) : Keeps s0 (State.pairBoundary s n k e t) := by
  unfold State.pairBoundary
  repeat' (first
    | with_reducible assumption
    | (extract_lets +onlyGivenNames z; refine Keeps.cut (v := z) ?_ ?_ <;> [subst z; (intro _; clear_value z)])
    | extract_lets +onlyGivenNames z | with_reducible apply State.setPwmPair_keeps
    | with_reducible apply State.loadPair_keeps | with_reducible apply State.planBoundary_keeps
    | with_reducible apply Keeps.ite | with_reducible apply Keeps.iteSnd
    | with_reducible refine Keeps.ofEq ?_ (by assumption) | split
    | with_reducible refine Keeps.update ?_ rfl rfl rfl rfl rfl rfl rfl rfl | intro _ | dsimp only)

theorem State.pairMid_keeps {s0 : State} {s : State} (n : Fin 16) (k : Fin 4) (e : Int) (h : Keeps s0 s) : Keeps s0 (State.pairMid s n k e) := by
  unfold State.pairMid
  repeat' (first
    | with_reducible assumption
    | (extract_lets +onlyGivenNames z; refine Keeps.cut (v := z) ?_ ?_ <;> [subst z; (intro _; clear_value z)])
    | extract_lets +onlyGivenNames z | with_reducible apply State.setPwmPair_keeps
    | with_reducible apply State.loadPair_keeps | with_reducible apply State.planMid_keeps
    | with_reducible apply Keeps.ite | with_reducible apply Keeps.iteSnd
    | with_reducible refine Keeps.ofEq ?_ (by assumption) | split
    | with_reducible refine Keeps.update ?_ rfl rfl rfl rfl rfl rfl rfl rfl | intro _ | dsimp only)

theorem State.stopDrive_keeps {s0 : State} {s : State} (n : Nat) (h : Keeps s0 s) : Keeps s0 (State.stopDrive s n) := by
  unfold State.stopDrive
  repeat' (first
    | with_reducible assumption
    | (extract_lets +onlyGivenNames z; refine Keeps.cut (v := z) ?_ ?_ <;> [subst z; (intro _; clear_value z)])
    | extract_lets +onlyGivenNames z | with_reducible apply State.setPwmUnit_keeps | with_reducible apply State.wr_keeps
    | with_reducible apply State.irq_keeps | with_reducible apply Keeps.ite | with_reducible apply Keeps.iteSnd
    | with_reducible refine Keeps.ofEq ?_ (by assumption) | split
    | with_reducible refine Keeps.update ?_ rfl rfl rfl rfl rfl rfl rfl rfl | intro _ | dsimp only)

theorem State.recheckDrive_keeps {s0 : State} {s : State} (h : Keeps s0 s) : Keeps s0 (State.recheckDrive s) := by
  unfold State.recheckDrive
  repeat' (first
    | with_reducible assumption | with_reducible apply State.stopDrive_keeps | with_reducible apply Keeps.foldl
    | with_reducible apply Keeps.foldlSnd | with_reducible apply Keeps.ite | split | intro _ | dsimp only)

theorem State.startCarrier_keeps {s0 : State} {s : State} (n : Fin 16) (h : Keeps s0 s) : Keeps s0 (State.startCarrier s n) := by
  unfold State.startCarrier
  repeat' (first
    | with_reducible assumption
    | (extract_lets +onlyGivenNames z; refine Keeps.cut (v := z) ?_ ?_ <;> [subst z; (intro _; clear_value z)])
    | extract_lets +onlyGivenNames z | with_reducible apply State.setPwmUnit_keeps | with_reducible apply State.wr_keeps
    | with_reducible apply Keeps.ite | with_reducible apply Keeps.iteSnd
    | with_reducible refine Keeps.ofEq ?_ (by assumption) | split
    | with_reducible refine Keeps.update ?_ rfl rfl rfl rfl rfl rfl rfl rfl | intro _ | dsimp only)

theorem State.stopCarrier_keeps {s0 : State} {s : State} (n : Fin 16) (h : Keeps s0 s) : Keeps s0 (State.stopCarrier s n) := by
  unfold State.stopCarrier
  repeat' (first
    | with_reducible assumption
    | (extract_lets +onlyGivenNames z; refine Keeps.cut (v := z) ?_ ?_ <;> [subst z; (intro _; clear_value z)])
    | extract_lets +onlyGivenNames z | with_reducible apply State.setPwmUnit_keeps | with_reducible apply State.wr_keeps
    | with_reducible apply Keeps.ite | with_reducible apply Keeps.iteSnd
    | with_reducible refine Keeps.ofEq ?_ (by assumption) | split
    | with_reducible refine Keeps.update ?_ rfl rfl rfl rfl rfl rfl rfl rfl | intro _ | dsimp only)

theorem State.dsfSync_keeps {s0 : State} {s : State} (h : Keeps s0 s) : Keeps s0 (State.dsfSync s) := by
  unfold State.dsfSync
  repeat' (first
    | with_reducible assumption | with_reducible apply State.setFlag_keeps | with_reducible apply Keeps.foldl
    | with_reducible apply Keeps.foldlSnd | intro _ | dsimp only)

theorem State.syncCarrier_keeps {s0 : State} {s : State} (n : Fin 16) (h : Keeps s0 s) : Keeps s0 (State.syncCarrier s n) := by
  unfold State.syncCarrier
  repeat' (first
    | with_reducible assumption
    | (extract_lets +onlyGivenNames z; refine Keeps.cut (v := z) ?_ ?_ <;> [subst z; (intro _; clear_value z)])
    | extract_lets +onlyGivenNames z | with_reducible apply State.startCarrier_keeps
    | with_reducible apply State.stopCarrier_keeps | with_reducible apply State.dsfSync_keeps
    | with_reducible apply Keeps.ite | with_reducible apply Keeps.iteSnd
    | with_reducible refine Keeps.ofEq ?_ (by assumption) | split
    | with_reducible refine Keeps.update ?_ rfl rfl rfl rfl rfl rfl rfl rfl | intro _ | dsimp only)

theorem State.carriers_keeps {s0 : State} {s : State} (h : Keeps s0 s) : Keeps s0 (State.carriers s) := by
  unfold State.carriers
  repeat' (first
    | with_reducible assumption
    | (extract_lets +onlyGivenNames z; refine Keeps.cut (v := z) ?_ ?_ <;> [subst z; (intro _; clear_value z)])
    | extract_lets +onlyGivenNames z | with_reducible apply State.syncCarrier_keeps
    | with_reducible apply Keeps.foldlSnd | with_reducible apply Keeps.foldl | with_reducible apply Keeps.ite
    | with_reducible apply Keeps.iteSnd | with_reducible refine Keeps.ofEq ?_ (by assumption) | split
    | with_reducible refine Keeps.update ?_ rfl rfl rfl rfl rfl rfl rfl rfl | intro _ | dsimp only)

theorem State.feedFalls_keeps {s0 : State} {s : State} (n : Fin 16) (h : Keeps s0 s) : Keeps s0 (State.feedFalls s n) := by
  unfold State.feedFalls
  repeat' (first
    | with_reducible assumption
    | (extract_lets +onlyGivenNames z; refine Keeps.cut (v := z) ?_ ?_ <;> [subst z; (intro _; clear_value z)])
    | extract_lets +onlyGivenNames z | with_reducible apply State.setPwmUnit_keeps | with_reducible apply Keeps.ite
    | with_reducible apply Keeps.iteSnd | with_reducible refine Keeps.ofEq ?_ (by assumption) | split
    | with_reducible refine Keeps.update ?_ rfl rfl rfl rfl rfl rfl rfl rfl | intro _ | dsimp only)

theorem State.setPer_keeps {s0 : State} {s : State} (n : Fin 16) (now : Int) (p : Nat) (half : Bool) (h : Keeps s0 s) : Keeps s0 (State.setPer s n now p half) := by
  unfold State.setPer
  repeat' (first
    | with_reducible assumption
    | (extract_lets +onlyGivenNames z; refine Keeps.cut (v := z) ?_ ?_ <;> [subst z; (intro _; clear_value z)])
    | extract_lets +onlyGivenNames z | with_reducible apply State.setPwmUnit_keeps
    | with_reducible apply State.feedFalls_keeps | with_reducible apply State.changeDelays_keeps
    | with_reducible apply Keeps.ite | with_reducible apply Keeps.iteSnd
    | with_reducible refine Keeps.ofEq ?_ (by assumption) | split
    | with_reducible refine Keeps.update ?_ rfl rfl rfl rfl rfl rfl rfl rfl | intro _ | dsimp only)

theorem State.retimePairs_keeps {s0 : State} {s : State} (n : Fin 16) (now : Int) (h : Keeps s0 s) : Keeps s0 (State.retimePairs s n now) := by
  unfold State.retimePairs
  repeat' (first
    | with_reducible assumption
    | (extract_lets +onlyGivenNames z; refine Keeps.cut (v := z) ?_ ?_ <;> [subst z; (intro _; clear_value z)])
    | extract_lets +onlyGivenNames z | with_reducible apply State.placePlan_keeps | with_reducible apply Keeps.foldlSnd
    | with_reducible apply Keeps.foldl | with_reducible apply Keeps.ite | with_reducible apply Keeps.iteSnd
    | with_reducible refine Keeps.ofEq ?_ (by assumption) | split
    | with_reducible refine Keeps.update ?_ rfl rfl rfl rfl rfl rfl rfl rfl | intro _ | dsimp only)

theorem State.pwmCommit_keeps {s0 : State} {s : State} (n : Fin 16) (now : Int) (half : Bool) (h : Keeps s0 s) : Keeps s0 (State.pwmCommit s n now half) := by
  unfold State.pwmCommit
  repeat' (first
    | with_reducible assumption
    | (extract_lets +onlyGivenNames z; refine Keeps.cut (v := z) ?_ ?_ <;> [subst z; (intro _; clear_value z)])
    | extract_lets +onlyGivenNames z | with_reducible apply State.boundary_keeps
    | with_reducible apply State.setPer_keeps | with_reducible apply State.retimePairs_keeps
    | with_reducible apply State.syncCarrier_keeps | with_reducible apply State.recheckDrive_keeps
    | with_reducible apply Keeps.ite | with_reducible apply Keeps.iteSnd
    | with_reducible refine Keeps.ofEq ?_ (by assumption) | split
    | with_reducible refine Keeps.update ?_ rfl rfl rfl rfl rfl rfl rfl rfl | intro _ | dsimp only)

theorem State.pwmIdleCommit_keeps {s0 : State} {s : State} (n : Fin 16) (h : Keeps s0 s) : Keeps s0 (State.pwmIdleCommit s n) := by
  unfold State.pwmIdleCommit
  repeat' (first
    | with_reducible assumption
    | (extract_lets +onlyGivenNames z; refine Keeps.cut (v := z) ?_ ?_ <;> [subst z; (intro _; clear_value z)])
    | extract_lets +onlyGivenNames z | with_reducible apply State.pwmCommit_keeps | with_reducible apply Keeps.ite
    | with_reducible apply Keeps.iteSnd | with_reducible refine Keeps.ofEq ?_ (by assumption) | split
    | with_reducible refine Keeps.update ?_ rfl rfl rfl rfl rfl rfl rfl rfl | intro _ | dsimp only)

theorem State.driveStart_keeps {s0 : State} {s : State} (n : Fin 16) (t : Int) (h : Keeps s0 s) : Keeps s0 (State.driveStart s n t) := by
  unfold State.driveStart
  repeat' (first
    | with_reducible assumption
    | (extract_lets +onlyGivenNames z; refine Keeps.cut (v := z) ?_ ?_ <;> [subst z; (intro _; clear_value z)])
    | extract_lets +onlyGivenNames z | with_reducible apply State.setPwmUnit_keeps | with_reducible apply State.wr_keeps
    | with_reducible apply State.irq_keeps | with_reducible apply Keeps.ite | with_reducible apply Keeps.iteSnd
    | with_reducible refine Keeps.ofEq ?_ (by assumption) | split
    | with_reducible refine Keeps.update ?_ rfl rfl rfl rfl rfl rfl rfl rfl | intro _ | dsimp only)

theorem State.cbcRelease_keeps {s0 : State} {s : State} (n : Nat) (h : Keeps s0 s) : Keeps s0 (State.cbcRelease s n) := by
  unfold State.cbcRelease
  repeat' (first
    | with_reducible assumption | with_reducible apply State.wr_keeps | with_reducible apply Keeps.ite | split | intro _)

theorem State.feedFollowers_keeps {s0 : State} {s : State} (n : Fin 16) (t : Int) (h : Keeps s0 s) : Keeps s0 (State.feedFollowers s n t) := by
  unfold State.feedFollowers
  repeat' (first
    | with_reducible assumption
    | (extract_lets +onlyGivenNames z; refine Keeps.cut (v := z) ?_ ?_ <;> [subst z; (intro _; clear_value z)])
    | extract_lets +onlyGivenNames z | with_reducible apply State.setPwmUnit_keeps | with_reducible apply Keeps.foldlSnd
    | with_reducible apply Keeps.foldl | with_reducible apply Keeps.ite | with_reducible apply Keeps.iteSnd
    | with_reducible refine Keeps.ofEq ?_ (by assumption) | split
    | with_reducible refine Keeps.update ?_ rfl rfl rfl rfl rfl rfl rfl rfl | intro _ | dsimp only)

theorem State.feedPairs_keeps {s0 : State} {s : State} (n : Fin 16) (t : Int) (h : Keeps s0 s) : Keeps s0 (State.feedPairs s n t) := by
  unfold State.feedPairs
  repeat' (first
    | with_reducible assumption
    | (extract_lets +onlyGivenNames z; refine Keeps.cut (v := z) ?_ ?_ <;> [subst z; (intro _; clear_value z)])
    | extract_lets +onlyGivenNames z | with_reducible apply State.setPwmUnit_keeps | with_reducible apply Keeps.ite
    | with_reducible apply Keeps.iteSnd | with_reducible refine Keeps.ofEq ?_ (by assumption) | split
    | with_reducible refine Keeps.update ?_ rfl rfl rfl rfl rfl rfl rfl rfl | intro _ | dsimp only)

theorem State.feedLengths_keeps {s0 : State} {s : State} (n : Fin 16) (h : Keeps s0 s) : Keeps s0 (State.feedLengths s n) := by
  unfold State.feedLengths
  repeat' (first
    | with_reducible assumption
    | (extract_lets +onlyGivenNames z; refine Keeps.cut (v := z) ?_ ?_ <;> [subst z; (intro _; clear_value z)])
    | extract_lets +onlyGivenNames z | with_reducible apply State.setPwmUnit_keeps | with_reducible apply Keeps.ite
    | with_reducible apply Keeps.iteSnd | with_reducible refine Keeps.ofEq ?_ (by assumption) | split
    | with_reducible refine Keeps.update ?_ rfl rfl rfl rfl rfl rfl rfl rfl | intro _ | dsimp only)

theorem State.unitBoundary_keeps {s0 : State} {s : State} (n : Fin 16) (t : Int) (p : Option Nat) (h : Keeps s0 s) : Keeps s0 (State.unitBoundary s n t p) := by
  unfold State.unitBoundary
  repeat' (first
    | with_reducible assumption
    | (extract_lets +onlyGivenNames z; refine Keeps.cut (v := z) ?_ ?_ <;> [subst z; (intro _; clear_value z)])
    | extract_lets +onlyGivenNames z | with_reducible apply State.feedPairs_keeps
    | with_reducible apply State.pwmCommit_keeps | with_reducible apply State.setPer_keeps
    | with_reducible apply State.feedLengths_keeps | with_reducible apply State.setPwmUnit_keeps
    | with_reducible apply State.feedFollowers_keeps | with_reducible apply State.wrapBump_keeps
    | with_reducible apply State.cbcRelease_keeps | with_reducible apply State.driveStart_keeps
    | with_reducible apply Keeps.ite | with_reducible apply Keeps.iteSnd
    | with_reducible refine Keeps.ofEq ?_ (by assumption) | split
    | with_reducible refine Keeps.update ?_ rfl rfl rfl rfl rfl rfl rfl rfl | intro _ | dsimp only)

theorem State.feedFall_keeps {s0 : State} {s : State} (n : Fin 16) (t : Int) (p : Nat) (h : Keeps s0 s) : Keeps s0 (State.feedFall s n t p) := by
  unfold State.feedFall
  repeat' (first
    | with_reducible assumption
    | (extract_lets +onlyGivenNames z; refine Keeps.cut (v := z) ?_ ?_ <;> [subst z; (intro _; clear_value z)])
    | extract_lets +onlyGivenNames z | with_reducible apply State.setPwmUnit_keeps
    | with_reducible apply State.setPer_keeps | with_reducible apply Keeps.foldlSnd | with_reducible apply Keeps.foldl
    | with_reducible apply Keeps.ite | with_reducible apply Keeps.iteSnd
    | with_reducible refine Keeps.ofEq ?_ (by assumption) | split
    | with_reducible refine Keeps.update ?_ rfl rfl rfl rfl rfl rfl rfl rfl | intro _ | dsimp only)

theorem State.startFall_keeps {s0 : State} {s : State} (n : Fin 16) (t : Int) (p : Nat) (h : Keeps s0 s) : Keeps s0 (State.startFall s n t p) := by
  unfold State.startFall
  repeat' (first
    | with_reducible assumption
    | (extract_lets +onlyGivenNames z; refine Keeps.cut (v := z) ?_ ?_ <;> [subst z; (intro _; clear_value z)])
    | extract_lets +onlyGivenNames z | with_reducible apply State.setPer_keeps
    | with_reducible apply State.feedFall_keeps | with_reducible apply Keeps.ite | with_reducible apply Keeps.iteSnd
    | with_reducible refine Keeps.ofEq ?_ (by assumption) | split
    | with_reducible refine Keeps.update ?_ rfl rfl rfl rfl rfl rfl rfl rfl | intro _ | dsimp only)

theorem State.midCommit_keeps {s0 : State} {s : State} (n : Fin 16) (t : Int) (h : Keeps s0 s) : Keeps s0 (State.midCommit s n t) := by
  unfold State.midCommit
  repeat' (first
    | with_reducible assumption
    | (extract_lets +onlyGivenNames z; refine Keeps.cut (v := z) ?_ ?_ <;> [subst z; (intro _; clear_value z)])
    | extract_lets +onlyGivenNames z | with_reducible apply State.pwmCommit_keeps
    | with_reducible apply State.setPwmUnit_keeps | with_reducible apply State.feedFall_keeps
    | with_reducible apply Keeps.ite | with_reducible apply Keeps.iteSnd
    | with_reducible refine Keeps.ofEq ?_ (by assumption) | split
    | with_reducible refine Keeps.update ?_ rfl rfl rfl rfl rfl rfl rfl rfl | intro _ | dsimp only)

theorem State.unitMid_keeps {s0 : State} {s : State} (n : Fin 16) (t : Int) (h : Keeps s0 s) : Keeps s0 (State.unitMid s n t) := by
  unfold State.unitMid
  extract_lets p u s1 c
  have h1 : Keeps s0 s1 := State.setPwmUnit_keeps _ _ h
  have h2 (c : State) (hc : Keeps s0 c) :
      Keeps s0 (if c.flag (PWM.pg n) PWM.CFG_UPDATE && c.commitPending (PWM.pg n) then c.midCommit n t else c) :=
    Keeps.ite (fun _ => State.midCommit_keeps n t hc) fun _ => hc
  refine Keeps.ite (fun _ => ?_) fun _ => h1
  refine h2 c ?_
  subst c
  clear_value s1 p
  split
  · exact State.startFall_keeps n t _ h1
  · exact h1

theorem State.pwmSyncFrom_keeps {s0 : State} {s : State} (src : Nat) (index : Nat) (at_ : Int) (h : Keeps s0 s) : Keeps s0 (State.pwmSyncFrom s src index at_) := by
  unfold State.pwmSyncFrom
  repeat' (first
    | with_reducible assumption
    | (extract_lets +onlyGivenNames z; refine Keeps.cut (v := z) ?_ ?_ <;> [subst z; (intro _; clear_value z)])
    | extract_lets +onlyGivenNames z | with_reducible apply State.setPwmUnit_keeps | with_reducible apply Keeps.foldlSnd
    | with_reducible apply Keeps.foldl | with_reducible apply Keeps.ite | with_reducible apply Keeps.iteSnd
    | with_reducible refine Keeps.ofEq ?_ (by assumption) | split
    | with_reducible refine Keeps.update ?_ rfl rfl rfl rfl rfl rfl rfl rfl | intro _ | dsimp only)

theorem State.moveCyc_keeps {s0 : State} {s : State} (c : Word64) (h : Keeps s0 s) : Keeps s0 (State.moveCyc s c) := by
  unfold State.moveCyc
  repeat' (first
    | with_reducible assumption
    | (extract_lets +onlyGivenNames z; refine Keeps.cut (v := z) ?_ ?_ <;> [subst z; (intro _; clear_value z)])
    | extract_lets +onlyGivenNames z | with_reducible apply State.setPwmUnit_keeps | with_reducible apply Keeps.foldlSnd
    | with_reducible apply Keeps.foldl | with_reducible apply Keeps.ite | with_reducible apply Keeps.iteSnd
    | with_reducible refine Keeps.ofEq ?_ (by assumption) | split
    | with_reducible refine Keeps.update ?_ rfl rfl rfl rfl rfl rfl rfl rfl | intro _ | dsimp only)

theorem State.stageCmp_keeps {s0 : State} {s : State} (n : Fin 16) (c : Fin 8) (v : Word) (h : Keeps s0 s) : Keeps s0 (State.stageCmp s n c v) := by
  unfold State.stageCmp
  repeat' (first
    | with_reducible assumption
    | (extract_lets +onlyGivenNames z; refine Keeps.cut (v := z) ?_ ?_ <;> [subst z; (intro _; clear_value z)])
    | extract_lets +onlyGivenNames z | with_reducible apply State.setPwmUnit_keeps
    | with_reducible refine Keeps.update ?_ rfl rfl rfl rfl rfl rfl rfl rfl | dsimp only)

theorem State.tripUnit_keeps {s0 : State} {s : State} (src : Nat) (u : Nat) (h : Keeps s0 s) : Keeps s0 (State.tripUnit s src u) := by
  unfold State.tripUnit
  repeat' (first
    | with_reducible assumption
    | (extract_lets +onlyGivenNames z; refine Keeps.cut (v := z) ?_ ?_ <;> [subst z; (intro _; clear_value z)])
    | extract_lets +onlyGivenNames z | with_reducible apply State.setPwmUnit_keeps
    | with_reducible apply State.putBit_keeps | with_reducible apply State.wr_keeps
    | with_reducible apply State.stopDrive_keeps | with_reducible apply Keeps.ite | with_reducible apply Keeps.iteSnd
    | with_reducible refine Keeps.ofEq ?_ (by assumption) | split
    | with_reducible refine Keeps.update ?_ rfl rfl rfl rfl rfl rfl rfl rfl | intro _ | dsimp only)

theorem State.cbcHolds_keeps {s0 : State} {s : State} (h : Keeps s0 s) : Keeps s0 (State.cbcHolds s) := by
  unfold State.cbcHolds
  repeat' (first
    | with_reducible assumption
    | (extract_lets +onlyGivenNames z; refine Keeps.cut (v := z) ?_ ?_ <;> [subst z; (intro _; clear_value z)])
    | extract_lets +onlyGivenNames z | with_reducible apply State.wr_keeps | with_reducible apply Keeps.foldlSnd
    | with_reducible apply Keeps.foldl | with_reducible apply Keeps.ite | with_reducible apply Keeps.iteSnd
    | with_reducible refine Keeps.ofEq ?_ (by assumption) | split
    | with_reducible refine Keeps.update ?_ rfl rfl rfl rfl rfl rfl rfl rfl | intro _ | dsimp only)

theorem State.fuseAct_keeps {s0 : State} {s : State} (src : Nat) (h : Keeps s0 s) : Keeps s0 (State.fuseAct s src) := by
  unfold State.fuseAct
  repeat' (first
    | with_reducible assumption
    | (extract_lets +onlyGivenNames z; refine Keeps.cut (v := z) ?_ ?_ <;> [subst z; (intro _; clear_value z)])
    | extract_lets +onlyGivenNames z | with_reducible apply State.wr_keeps | with_reducible apply State.stopDrive_keeps
    | with_reducible apply State.bump_keeps | with_reducible apply State.irq_keeps
    | with_reducible apply State.recordFirst_keeps | with_reducible apply State.putLatch_keeps
    | with_reducible apply State.tripUnit_keeps | with_reducible apply State.safeStop_keeps
    | with_reducible apply State.fuseStatus_keeps | with_reducible apply Keeps.foldlSnd
    | with_reducible apply Keeps.foldl | with_reducible apply Keeps.ite | with_reducible apply Keeps.iteSnd
    | with_reducible refine Keeps.ofEq ?_ (by assumption) | split
    | with_reducible refine Keeps.update ?_ rfl rfl rfl rfl rfl rfl rfl rfl | intro _ | dsimp only)

end Sys2Proof.Machine
end

