-- ==== Sys2Proof/Laws/KeepsLoopEngine.lean ====
section
/-!
SUPPORT. Laws/KeepsLoopEngine.lean: every operation of Machine/LoopEngine.lean keeps what `Keeps` says.
-/
namespace Sys2Proof.Machine

set_option linter.unusedTactic false
set_option linter.unreachableTactic false
set_option linter.unusedVariables false
set_option linter.tactic.unusedName false

theorem State.setLe_keeps {s0 : State} {s : State} (n : Fin 16) (u : LeUnit) (h : Keeps s0 s) : Keeps s0 (State.setLe s n u) := by
  unfold State.setLe
  repeat' (first
    | with_reducible assumption | with_reducible refine Keeps.update ?_ rfl rfl rfl rfl rfl rfl rfl rfl)

theorem State.setDmem_keeps {s0 : State} {s : State} (n : Nat) (w : Nat) (v : Word) (h : Keeps s0 s) : Keeps s0 (State.setDmem s n w v) := by
  unfold State.setDmem
  repeat' (first
    | with_reducible assumption | with_reducible apply Keeps.putDmem | with_reducible apply Keeps.putAttic
    | with_reducible refine Keeps.update ?_ rfl rfl rfl rfl rfl rfl rfl rfl)

theorem State.setLpsWord_keeps {s0 : State} {s : State} (w : Nat) (v : BitVec 64) (h : Keeps s0 s) : Keeps s0 (State.setLpsWord s w v) :=
  h.stores rfl rfl fun k => { k with words := Store.wf_put k.words, parity := Store.wf_put k.parity }

theorem State.lpsUpset_keeps {s0 : State} {s : State} (w : Nat) (h : Keeps s0 s) : Keeps s0 (State.lpsUpset s w) := by
  unfold State.lpsUpset
  repeat' (first
    | with_reducible assumption
    | (extract_lets +onlyGivenNames z; refine Keeps.cut (v := z) ?_ ?_ <;> [subst z; (intro _; clear_value z)])
    | extract_lets +onlyGivenNames z | with_reducible apply Keeps.ite | with_reducible apply Keeps.iteSnd
    | with_reducible refine Keeps.ofEq ?_ (by assumption) | split | with_reducible apply Keeps.putParity
    | with_reducible refine Keeps.update ?_ rfl rfl rfl rfl rfl rfl rfl rfl | intro _ | dsimp only)

theorem State.leSources_keeps {s0 : State} {s : State} (h : Keeps s0 s) : Keeps s0 (State.leSources s) := by
  unfold State.leSources
  repeat' (first
    | with_reducible assumption
    | (extract_lets +onlyGivenNames z; refine Keeps.cut (v := z) ?_ ?_ <;> [subst z; (intro _; clear_value z)])
    | extract_lets +onlyGivenNames z | with_reducible apply State.setSource_keeps | intro _ | dsimp only)

theorem State.leDuty_keeps {s0 : State} {s : State} (n : Nat) (h : Keeps s0 s) : Keeps s0 (State.leDuty s n) := by
  unfold State.leDuty
  repeat' (first
    | with_reducible assumption
    | (extract_lets +onlyGivenNames z; refine Keeps.cut (v := z) ?_ ?_ <;> [subst z; (intro _; clear_value z)])
    | extract_lets +onlyGivenNames z | with_reducible apply State.setFlag_keeps | with_reducible apply Keeps.ite
    | with_reducible apply Keeps.iteSnd | with_reducible refine Keeps.ofEq ?_ (by assumption) | split
    | with_reducible refine Keeps.update ?_ rfl rfl rfl rfl rfl rfl rfl rfl | intro _ | dsimp only)

theorem State.setLeState_keeps {s0 : State} {s : State} (n : Nat) (st : Nat) (h : Keeps s0 s) : Keeps s0 (State.setLeState s n st) := by
  unfold State.setLeState
  repeat' (first
    | with_reducible assumption
    | (extract_lets +onlyGivenNames z; refine Keeps.cut (v := z) ?_ ?_ <;> [subst z; (intro _; clear_value z)])
    | extract_lets +onlyGivenNames z | with_reducible apply State.wr_keeps | with_reducible apply State.leDuty_keeps
    | with_reducible apply State.irqIf_keeps | dsimp only)

theorem State.slotWrite_keeps {s0 : State} {s : State} (n : Fin 16) (k : Nat) (v : Word) (valid : Bool) (h : Keeps s0 s) : Keeps s0 (State.slotWrite s n k v valid) := by
  unfold State.slotWrite
  repeat' (first
    | with_reducible assumption
    | (extract_lets +onlyGivenNames z; refine Keeps.cut (v := z) ?_ ?_ <;> [subst z; (intro _; clear_value z)])
    | extract_lets +onlyGivenNames z | with_reducible apply State.wr_keeps | with_reducible apply State.wrapBump_keeps
    | with_reducible apply State.setLe_keeps | with_reducible apply Keeps.ite | split
    | with_reducible refine Keeps.update ?_ rfl rfl rfl rfl rfl rfl rfl rfl | intro _ | dsimp only)

theorem State.routeResult_keeps {s0 : State} {s : State} (kind : Nat) (index : Nat) (v : Word) (valid : Bool) (h : Keeps s0 s) : Keeps s0 (State.routeResult s kind index v valid) := by
  unfold State.routeResult
  repeat' (first
    | with_reducible assumption | with_reducible apply State.slotWrite_keeps | with_reducible apply Keeps.foldl
    | with_reducible apply Keeps.foldlSnd | with_reducible apply Keeps.ite | split | intro _ | dsimp only)

theorem State.formWord_keeps {s0 : State} {s : State} (n : Fin 16) (w : Nat) (v : Word) (h : Keeps s0 s) : Keeps s0 (State.formWord s n w v) := by
  unfold State.formWord
  repeat' (first
    | with_reducible assumption | with_reducible apply State.slotWrite_keeps | with_reducible apply Keeps.ite | split
    | intro _)

theorem State.leEmit_keeps {s0 : State} {s : State} (kind : Nat) (index : Nat) (mid : Bool) (h : Keeps s0 s) : Keeps s0 (State.leEmit s kind index mid) := by
  unfold State.leEmit
  repeat' (first
    | with_reducible assumption
    | (extract_lets +onlyGivenNames z; refine Keeps.cut (v := z) ?_ ?_ <;> [subst z; (intro _; clear_value z)])
    | extract_lets +onlyGivenNames z | with_reducible apply State.setLe_keeps | with_reducible apply Keeps.foldlSnd
    | with_reducible apply Keeps.foldl | with_reducible apply Keeps.ite | with_reducible apply Keeps.iteSnd
    | with_reducible refine Keeps.ofEq ?_ (by assumption) | split
    | with_reducible refine Keeps.update ?_ rfl rfl rfl rfl rfl rfl rfl rfl | intro _ | dsimp only)

theorem State.setSar_keeps {s0 : State} {s : State} (u : Fin 6) (x : SarUnit) (h : Keeps s0 s) : Keeps s0 (State.setSar s u x) := by
  unfold State.setSar
  repeat' (first
    | with_reducible assumption | with_reducible refine Keeps.update ?_ rfl rfl rfl rfl rfl rfl rfl rfl)

theorem State.sarEmit_keeps {s0 : State} {s : State} (kind : Nat) (index : Nat) (mid : Bool) (h : Keeps s0 s) : Keeps s0 (State.sarEmit s kind index mid) := by
  unfold State.sarEmit
  repeat' (first
    | with_reducible assumption
    | (extract_lets +onlyGivenNames z; refine Keeps.cut (v := z) ?_ ?_ <;> [subst z; (intro _; clear_value z)])
    | extract_lets +onlyGivenNames z | with_reducible apply State.setSar_keeps | with_reducible apply Keeps.foldlSnd
    | with_reducible apply Keeps.foldl | with_reducible apply Keeps.ite | with_reducible apply Keeps.iteSnd
    | with_reducible refine Keeps.ofEq ?_ (by assumption) | split
    | with_reducible refine Keeps.update ?_ rfl rfl rfl rfl rfl rfl rfl rfl | intro _ | dsimp only)

theorem State.formFed_keeps {s0 : State} {s : State} (old : State) (h : Keeps s0 s) : Keeps s0 (State.formFed s old) := by
  unfold State.formFed
  repeat' (first
    | with_reducible assumption
    | (extract_lets +onlyGivenNames z; refine Keeps.cut (v := z) ?_ ?_ <;> [subst z; (intro _; clear_value z)])
    | extract_lets +onlyGivenNames z | with_reducible apply State.wr_keeps | with_reducible apply Keeps.foldlSnd
    | with_reducible apply Keeps.foldl | with_reducible apply Keeps.ite | with_reducible apply Keeps.iteSnd
    | with_reducible refine Keeps.ofEq ?_ (by assumption) | split
    | with_reducible refine Keeps.update ?_ rfl rfl rfl rfl rfl rfl rfl rfl | intro _ | dsimp only)

theorem State.leAges_keeps {s0 : State} {s : State} (n : Fin 16) (h : Keeps s0 s) : Keeps s0 (State.leAges s n) := by
  unfold State.leAges
  repeat' (first
    | with_reducible assumption
    | (extract_lets +onlyGivenNames z; refine Keeps.cut (v := z) ?_ ?_ <;> [subst z; (intro _; clear_value z)])
    | extract_lets +onlyGivenNames z | with_reducible apply State.wr_keeps | with_reducible apply State.setLe_keeps
    | with_reducible apply Keeps.foldlSnd | with_reducible apply Keeps.foldl | with_reducible apply Keeps.ite
    | with_reducible apply Keeps.iteSnd | with_reducible refine Keeps.ofEq ?_ (by assumption) | split
    | with_reducible refine Keeps.update ?_ rfl rfl rfl rfl rfl rfl rfl rfl | intro _ | dsimp only)

theorem State.leShow_keeps {s0 : State} {s : State} (n : Fin 16) (h : Keeps s0 s) : Keeps s0 (State.leShow s n) := by
  unfold State.leShow
  repeat' (first
    | with_reducible assumption
    | (extract_lets +onlyGivenNames z; refine Keeps.cut (v := z) ?_ ?_ <;> [subst z; (intro _; clear_value z)])
    | extract_lets +onlyGivenNames z | with_reducible apply State.wr_keeps | with_reducible apply Keeps.ite
    | with_reducible apply Keeps.iteSnd | with_reducible refine Keeps.ofEq ?_ (by assumption) | split
    | with_reducible refine Keeps.update ?_ rfl rfl rfl rfl rfl rfl rfl rfl | intro _ | dsimp only)

theorem State.leStop_keeps {s0 : State} {s : State} (n : Fin 16) (h : Keeps s0 s) : Keeps s0 (State.leStop s n) := by
  unfold State.leStop
  repeat' (first
    | with_reducible assumption
    | (extract_lets +onlyGivenNames z; refine Keeps.cut (v := z) ?_ ?_ <;> [subst z; (intro _; clear_value z)])
    | extract_lets +onlyGivenNames z | with_reducible apply State.setLe_keeps | with_reducible apply State.wr_keeps
    | with_reducible apply State.setLeState_keeps | with_reducible apply State.leSources_keeps
    | with_reducible apply State.boundary_keeps | with_reducible apply Keeps.foldlSnd | with_reducible apply Keeps.foldl
    | with_reducible apply Keeps.ite | with_reducible apply Keeps.iteSnd
    | with_reducible refine Keeps.ofEq ?_ (by assumption) | split
    | with_reducible refine Keeps.update ?_ rfl rfl rfl rfl rfl rfl rfl rfl | intro _ | dsimp only)

theorem State.leFault_keeps {s0 : State} {s : State} (n : Fin 16) (cause : Nat) (h : Keeps s0 s) : Keeps s0 (State.leFault s n cause) := by
  unfold State.leFault
  repeat' (first
    | with_reducible assumption
    | (extract_lets +onlyGivenNames z; refine Keeps.cut (v := z) ?_ ?_ <;> [subst z; (intro _; clear_value z)])
    | extract_lets +onlyGivenNames z | with_reducible apply State.setLe_keeps | with_reducible apply State.held_keeps
    | with_reducible apply State.wr_keeps | with_reducible apply State.setLeState_keeps
    | with_reducible apply State.irq_keeps | with_reducible apply State.leSources_keeps
    | with_reducible apply State.boundary_keeps | with_reducible apply Keeps.ite | with_reducible apply Keeps.iteSnd
    | with_reducible refine Keeps.ofEq ?_ (by assumption) | split
    | with_reducible refine Keeps.update ?_ rfl rfl rfl rfl rfl rfl rfl rfl | intro _ | dsimp only)

theorem State.leSkip_keeps {s0 : State} {s : State} (n : Nat) (h : Keeps s0 s) : Keeps s0 (State.leSkip s n) := by
  unfold State.leSkip
  repeat' (first
    | with_reducible assumption | with_reducible apply State.bump_keeps)

theorem State.leOpen_keeps {s0 : State} {s : State} (n : Fin 16) (h : Keeps s0 s) : Keeps s0 (State.leOpen s n) := by
  unfold State.leOpen
  repeat' (first
    | with_reducible assumption
    | (extract_lets +onlyGivenNames z; refine Keeps.cut (v := z) ?_ ?_ <;> [subst z; (intro _; clear_value z)])
    | extract_lets +onlyGivenNames z | with_reducible apply State.held_keeps | with_reducible apply State.leSkip_keeps
    | with_reducible apply State.setLe_keeps | with_reducible apply State.setLeState_keeps
    | with_reducible apply Keeps.ite | with_reducible apply Keeps.iteSnd
    | with_reducible refine Keeps.ofEq ?_ (by assumption) | split
    | with_reducible refine Keeps.update ?_ rfl rfl rfl rfl rfl rfl rfl rfl | intro _ | dsimp only)

theorem State.coefCopy_keeps {s0 : State} {s : State} (n : Fin 16) (src : Nat) (h : Keeps s0 s) : Keeps s0 (State.coefCopy s n src).2 := by
  unfold State.coefCopy
  repeat' (first
    | with_reducible assumption
    | (extract_lets +onlyGivenNames z; refine Keeps.cut (v := z) ?_ ?_ <;> [subst z; (intro _; clear_value z)])
    | extract_lets +onlyGivenNames z | with_reducible apply State.sramRead_keeps | with_reducible apply State.setDmem_keeps
    | with_reducible apply Keeps.foldl | with_reducible apply Keeps.foldlSnd | with_reducible apply Keeps.ite
    | with_reducible refine Keeps.ofEq ?_ (by assumption) | split
    | with_reducible refine Keeps.update ?_ rfl rfl rfl rfl rfl rfl rfl rfl | intro _ | dsimp only)

theorem State.coefCopyDone_keeps {s0 : State} {s : State} (n : Fin 16) (h : Keeps s0 s) : Keeps s0 (State.coefCopyDone s n) := by
  unfold State.coefCopyDone
  repeat' (first
    | with_reducible assumption
    | (extract_lets +onlyGivenNames z; refine Keeps.cut (v := z) ?_ ?_ <;> [subst z; (intro _; clear_value z)])
    | (extract_lets +onlyGivenNames z; subst z) | with_reducible apply State.coefCopy_keeps
    | with_reducible apply State.setLe_keeps | with_reducible apply State.setLeState_keeps
    | with_reducible apply State.wr_keeps | with_reducible apply State.irq_keeps | with_reducible apply State.leFault_keeps
    | with_reducible apply Keeps.ite | with_reducible refine Keeps.ofEq ?_ (by assumption) | split
    | with_reducible refine Keeps.update ?_ rfl rfl rfl rfl rfl rfl rfl rfl | intro _ | dsimp only)

theorem State.coefSwap_keeps {s0 : State} {s : State} (n : Fin 16) (h : Keeps s0 s) : Keeps s0 (State.coefSwap s n) := by
  unfold State.coefSwap
  repeat' (first
    | with_reducible assumption
    | (extract_lets +onlyGivenNames z; refine Keeps.cut (v := z) ?_ ?_ <;> [subst z; (intro _; clear_value z)])
    | extract_lets +onlyGivenNames z | with_reducible apply State.setLe_keeps | with_reducible apply State.leOpen_keeps
    | with_reducible apply Keeps.ite | split | with_reducible refine Keeps.update ?_ rfl rfl rfl rfl rfl rfl rfl rfl | intro _
    | dsimp only)

theorem State.leResume_keeps {s0 : State} {s : State} (n : Fin 16) (h : Keeps s0 s) : Keeps s0 (State.leResume s n) := by
  unfold State.leResume
  repeat' (first
    | with_reducible assumption
    | (extract_lets +onlyGivenNames z; refine Keeps.cut (v := z) ?_ ?_ <;> [subst z; (intro _; clear_value z)])
    | extract_lets +onlyGivenNames z | with_reducible apply State.setLe_keeps
    | with_reducible apply State.setLeState_keeps | with_reducible apply State.leShow_keeps
    | with_reducible apply Keeps.ite | with_reducible apply Keeps.iteSnd
    | with_reducible refine Keeps.ofEq ?_ (by assumption) | split
    | with_reducible refine Keeps.update ?_ rfl rfl rfl rfl rfl rfl rfl rfl | intro _ | dsimp only)

theorem State.leTrigger_keeps {s0 : State} {s : State} (n : Fin 16) (h : Keeps s0 s) : Keeps s0 (State.leTrigger s n) := by
  unfold State.leTrigger
  repeat' (first
    | with_reducible assumption
    | (extract_lets +onlyGivenNames z; refine Keeps.cut (v := z) ?_ ?_ <;> [subst z; (intro _; clear_value z)])
    | extract_lets +onlyGivenNames z | with_reducible apply State.setLe_keeps | with_reducible apply State.leSkip_keeps
    | with_reducible apply State.held_keeps | with_reducible apply State.bump_keeps
    | with_reducible apply State.irq_keeps | with_reducible apply Keeps.ite | with_reducible apply Keeps.iteSnd
    | with_reducible refine Keeps.ofEq ?_ (by assumption) | split
    | with_reducible refine Keeps.update ?_ rfl rfl rfl rfl rfl rfl rfl rfl | intro _ | dsimp only)

theorem State.spStart_keeps {s0 : State} {s : State} (n : Fin 16) (i : Fin 8) (reset : Bool) (h : Keeps s0 s) : Keeps s0 (State.spStart s n i reset) := by
  unfold State.spStart
  repeat' (first
    | with_reducible assumption
    | (extract_lets +onlyGivenNames z; refine Keeps.cut (v := z) ?_ ?_ <;> [subst z; (intro _; clear_value z)])
    | extract_lets +onlyGivenNames z | with_reducible apply State.freshWord_keeps | with_reducible apply State.wr_keeps
    | with_reducible apply State.setLe_keeps | with_reducible apply Keeps.ite
    | with_reducible refine Keeps.ofEq ?_ (by assumption) | split
    | with_reducible refine Keeps.update ?_ rfl rfl rfl rfl rfl rfl rfl rfl | intro _ | dsimp only)

theorem State.spStarts_keeps {s0 : State} {s : State} (n : Fin 16) (reset : Bool) (h : Keeps s0 s) : Keeps s0 (State.spStarts s n reset) := by
  unfold State.spStarts
  repeat' (first
    | with_reducible assumption | with_reducible apply State.spStart_keeps | with_reducible apply Keeps.foldl
    | with_reducible apply Keeps.foldlSnd | intro _ | dsimp only)

theorem State.blendEnd_keeps {s0 : State} {s : State} (n : Fin 16) (h : Keeps s0 s) : Keeps s0 (State.blendEnd s n) := by
  unfold State.blendEnd
  repeat' (first
    | with_reducible assumption
    | (extract_lets +onlyGivenNames z; refine Keeps.cut (v := z) ?_ ?_ <;> [subst z; (intro _; clear_value z)])
    | extract_lets +onlyGivenNames z | with_reducible apply State.setLe_keeps | with_reducible apply State.bump_keeps
    | with_reducible apply State.irq_keeps | with_reducible apply State.setLeState_keeps | with_reducible apply Keeps.ite
    | split | with_reducible refine Keeps.update ?_ rfl rfl rfl rfl rfl rfl rfl rfl | intro _ | dsimp only)

theorem State.leExecute_keeps {s0 : State} {s : State} (n : Fin 16) (prog : Nat × Nat × Nat) (hand : HandOver) (h : Keeps s0 s) : Keeps s0 (State.leExecute s n prog hand) := by
  unfold State.leExecute
  repeat' (first
    | with_reducible assumption
    | (extract_lets +onlyGivenNames z; refine Keeps.cut (v := z) ?_ ?_ <;> [subst z; (intro _; clear_value z)])
    | extract_lets +onlyGivenNames z | with_reducible apply State.setLe_keeps | with_reducible apply State.wr_keeps
    | with_reducible apply Keeps.ite | with_reducible apply Keeps.iteSnd
    | with_reducible refine Keeps.ofEq ?_ (by assumption) | split
    | with_reducible refine Keeps.update ?_ rfl rfl rfl rfl rfl rfl rfl rfl | intro _ | dsimp only)

theorem State.leRunStart_keeps {s0 : State} {s : State} (n : Fin 16) (h : Keeps s0 s) : Keeps s0 (State.leRunStart s n) := by
  unfold State.leRunStart
  repeat' (first
    | with_reducible assumption
    | (extract_lets +onlyGivenNames z; refine Keeps.cut (v := z) ?_ ?_ <;> [subst z; (intro _; clear_value z)])
    | extract_lets +onlyGivenNames z | with_reducible apply State.boundary_keeps
    | with_reducible apply State.setLe_keeps | with_reducible apply State.leAges_keeps
    | with_reducible apply State.setFlag_keeps | with_reducible apply State.leSources_keeps
    | with_reducible apply State.spStarts_keeps | with_reducible apply State.blendEnd_keeps
    | with_reducible apply State.leExecute_keeps | with_reducible apply State.bump_keeps
    | with_reducible apply State.irq_keeps | with_reducible apply State.setLeState_keeps
    | with_reducible apply State.leOpen_keeps | with_reducible apply Keeps.ite | with_reducible apply Keeps.iteSnd
    | with_reducible refine Keeps.ofEq ?_ (by assumption) | split
    | with_reducible refine Keeps.update ?_ rfl rfl rfl rfl rfl rfl rfl rfl | intro _ | dsimp only)

theorem State.leRecover_keeps {s0 : State} {s : State} (n : Fin 16) (h : Keeps s0 s) : Keeps s0 (State.leRecover s n) := by
  unfold State.leRecover
  repeat' (first
    | with_reducible assumption
    | (extract_lets +onlyGivenNames z; refine Keeps.cut (v := z) ?_ ?_ <;> [subst z; (intro _; clear_value z)])
    | extract_lets +onlyGivenNames z | with_reducible apply State.wr_keeps | with_reducible apply State.leStop_keeps
    | with_reducible apply Keeps.ite | with_reducible apply Keeps.iteSnd
    | with_reducible refine Keeps.ofEq ?_ (by assumption) | split
    | with_reducible refine Keeps.update ?_ rfl rfl rfl rfl rfl rfl rfl rfl | intro _ | dsimp only)

theorem State.leMode_keeps {s0 : State} {s : State} (old : Nat) (n : Fin 16) (h : Keeps s0 s) : Keeps s0 (State.leMode s old n) := by
  unfold State.leMode
  repeat' (first
    | with_reducible assumption
    | (extract_lets +onlyGivenNames z; refine Keeps.cut (v := z) ?_ ?_ <;> [subst z; (intro _; clear_value z)])
    | extract_lets +onlyGivenNames z | with_reducible apply State.leRecover_keeps
    | with_reducible apply State.setLe_keeps | with_reducible apply State.held_keeps
    | with_reducible apply State.leDuty_keeps | with_reducible apply State.coefCopyDone_keeps
    | with_reducible apply State.leStop_keeps | with_reducible apply State.setLeState_keeps
    | with_reducible apply State.leShow_keeps | with_reducible apply Keeps.ite | with_reducible apply Keeps.iteSnd
    | with_reducible refine Keeps.ofEq ?_ (by assumption) | split
    | with_reducible refine Keeps.update ?_ rfl rfl rfl rfl rfl rfl rfl rfl | intro _ | dsimp only)

theorem State.leModes_keeps {s0 : State} {s : State} (old : Nat) (h : Keeps s0 s) : Keeps s0 (State.leModes s old) := by
  unfold State.leModes
  repeat' (first
    | with_reducible assumption | with_reducible apply State.leMode_keeps | with_reducible apply State.leSources_keeps
    | with_reducible apply Keeps.foldl | with_reducible apply Keeps.foldlSnd | intro _ | dsimp only)

theorem State.portStage_keeps {s0 : State} {s : State} (n : Fin 16) (j : Nat) (v : Word) (h : Keeps s0 s) : Keeps s0 (State.portStage s n j v) := by
  unfold State.portStage
  repeat' (first
    | with_reducible assumption
    | (extract_lets +onlyGivenNames z; refine Keeps.cut (v := z) ?_ ?_ <;> [subst z; (intro _; clear_value z)])
    | extract_lets +onlyGivenNames z | with_reducible apply State.stageCmp_keeps | with_reducible apply Keeps.ite | split
    | intro _ | dsimp only)

theorem State.portDeliver_keeps {s0 : State} {s : State} (n : Fin 16) (j : Nat) (v : Word) (h : Keeps s0 s) : Keeps s0 (State.portDeliver s n j v) := by
  unfold State.portDeliver
  repeat' (first
    | with_reducible assumption
    | (extract_lets +onlyGivenNames z; refine Keeps.cut (v := z) ?_ ?_ <;> [subst z; (intro _; clear_value z)])
    | extract_lets +onlyGivenNames z | with_reducible apply State.wr_keeps | with_reducible apply State.sigUpdate_keeps
    | with_reducible apply State.portStage_keeps | with_reducible apply Keeps.ite | with_reducible apply Keeps.iteSnd
    | with_reducible refine Keeps.ofEq ?_ (by assumption) | split
    | with_reducible refine Keeps.update ?_ rfl rfl rfl rfl rfl rfl rfl rfl | intro _ | dsimp only)

theorem State.portWrite_keeps {s0 : State} {s : State} (n : Fin 16) (j : Fin 8) (run : LeRun) (v : Word) (h : Keeps s0 s) : Keeps s0 (State.portWrite s n j run v).2 := by
  unfold State.portWrite
  repeat' (first
    | with_reducible assumption
    | (extract_lets +onlyGivenNames z; refine Keeps.cut (v := z) ?_ ?_ <;> [subst z; (intro _; clear_value z)])
    | extract_lets +onlyGivenNames z | with_reducible apply State.setLe_keeps
    | with_reducible apply State.portDeliver_keeps | with_reducible apply State.wr_keeps
    | with_reducible apply Keeps.ite | with_reducible apply Keeps.iteSnd
    | with_reducible refine Keeps.ofEq ?_ (by assumption) | split
    | with_reducible refine Keeps.update ?_ rfl rfl rfl rfl rfl rfl rfl rfl | intro _ | dsimp only)

theorem State.leEnd_keeps {s0 : State} {s : State} (n : Fin 16) (run : LeRun) (h : Keeps s0 s) : Keeps s0 (State.leEnd s n run) := by
  unfold State.leEnd
  repeat' (first
    | with_reducible assumption
    | (extract_lets +onlyGivenNames z; refine Keeps.cut (v := z) ?_ ?_ <;> [subst z; (intro _; clear_value z)])
    | extract_lets +onlyGivenNames z | with_reducible apply State.wrapBump_keeps | with_reducible apply State.wr_keeps
    | with_reducible apply State.setLe_keeps | with_reducible apply State.sigTake_keeps
    | with_reducible apply State.sampleEvent_keeps | with_reducible apply State.leEmit_keeps
    | with_reducible apply State.sarEmit_keeps | with_reducible apply State.setLeState_keeps
    | with_reducible apply State.leStop_keeps | with_reducible apply State.leOpen_keeps
    | with_reducible apply State.held_keeps | with_reducible apply Keeps.foldlSnd | with_reducible apply Keeps.foldl
    | with_reducible apply Keeps.ite | with_reducible apply Keeps.iteSnd
    | with_reducible refine Keeps.ofEq ?_ (by assumption) | split
    | with_reducible refine Keeps.update ?_ rfl rfl rfl rfl rfl rfl rfl rfl | intro _ | dsimp only)

theorem State.leCommit_keeps {s0 : State} {s : State} (n : Fin 16) (h : Keeps s0 s) : Keeps s0 (State.leCommit s n) := by
  unfold State.leCommit
  repeat' (first
    | with_reducible assumption
    | (extract_lets +onlyGivenNames z; refine Keeps.cut (v := z) ?_ ?_ <;> [subst z; (intro _; clear_value z)])
    | extract_lets +onlyGivenNames z | with_reducible apply State.boundary_keeps | with_reducible apply State.leDuty_keeps
    | with_reducible apply Keeps.ite | split | with_reducible refine Keeps.update ?_ rfl rfl rfl rfl rfl rfl rfl rfl | intro _
    | dsimp only)

end Sys2Proof.Machine
end

