-- ==== Sys2Proof/Laws/KeepsLoopIsa.lean ====
section
/-!
SUPPORT. Laws/KeepsLoopIsa.lean: every operation of Machine/LoopIsa.lean keeps what `Keeps` says.
-/
namespace Sys2Proof.Machine

set_option linter.unusedTactic false
set_option linter.unreachableTactic false
set_option linter.unusedVariables false
set_option linter.tactic.unusedName false

theorem State.leErr_keeps {s0 : State} {s : State} (n : Fin 16) (kind : Nat) (pc : Nat) (data : Nat) (h : Keeps s0 s) : Keeps s0 (State.leErr s n kind pc data) := by
  unfold State.leErr
  repeat' (first
    | with_reducible assumption | with_reducible apply State.wr_keeps)

/-- An instruction body keeps what `Keeps` says. -/
def BodyKeeps (b : LeBody) : Prop := ∀ s0 s n run i r bad, Keeps s0 s → Keeps s0 (b s n run i r bad).s

theorem State.leRead_keeps {s0 s : State} (n : Fin 16) (pc : Nat) (bad : List Nat) (w : Nat) (h : Keeps s0 s) :
    Keeps s0 (s.leRead n pc bad w).2.s := by
  unfold State.leRead
  repeat' (first
    | with_reducible assumption | with_reducible apply State.wr_keeps | with_reducible apply State.irq_keeps
    | with_reducible apply State.leErr_keeps | with_reducible apply State.bump_keeps | with_reducible apply State.setDmem_keeps
    | with_reducible apply State.sramRead_keeps | with_reducible refine Keeps.ofEq ?_ (by assumption) | with_reducible apply Keeps.ite | split | dsimp only | intro _)

theorem State.leReads_keeps {s0 s : State} (n : Fin 16) (pc : Nat) (bad ws : List Nat) (h : Keeps s0 s) :
    Keeps s0 (s.leReads n pc bad ws).2.s := by
  induction ws generalizing s with
  | nil => exact h
  | cons w ws ih =>
    have k := State.leRead_keeps n pc bad w h
    simp only [State.leReads]
    split
    · exact k
    · exact ih k

theorem State.leWrite_keeps {s0 : State} {s : State} (n : Fin 16) (pc : Nat) (w : Nat) (v : Word) (h : Keeps s0 s) : Keeps s0 (State.leWrite s n pc w v) := by
  unfold State.leWrite
  repeat' (first
    | with_reducible assumption | with_reducible apply State.bump_keeps | with_reducible apply State.leErr_keeps
    | with_reducible apply State.setDmem_keeps | with_reducible apply Keeps.ite | split | intro _)

theorem leResult_keeps (f : (Nat → Word) → LeInstr → Word → Word) : BodyKeeps (leResult f) :=
  fun _ _ _ _ _ _ _ h => State.setG_keeps _ _ _ h

theorem bodyLd_keeps : BodyKeeps bodyLd := by
  intro s0 s n run i r bad h
  have k := State.leRead_keeps n run.pc bad (i.imm % 512) h
  unfold bodyLd
  dsimp only
  split
  · exact k
  · exact State.setG_keeps _ _ _ k

theorem freshWord_keeps' {s0 s : State} (h : Keeps s0 s) : Keeps s0 s.freshWord.2 := State.freshWord_keeps h

theorem bodySincos_keeps : BodyKeeps bodySincos := fun _ _ _ _ _ _ _ h =>
  State.setG_keeps _ _ _ (State.setG_keeps _ _ _ (State.freshWord_keeps h))

theorem bodyClarke_keeps : BodyKeeps bodyClarke := fun _ _ _ _ _ _ _ h =>
  State.setG_keeps _ _ _ (State.setG_keeps _ _ _ (State.freshWord_keeps h))

theorem bodyIclarke_keeps : BodyKeeps bodyIclarke := fun _ _ _ _ _ _ _ h =>
  State.setG_keeps _ _ _ (State.setG_keeps _ _ _ (State.setG_keeps _ _ _ (State.freshWord_keeps (State.freshWord_keeps h))))

theorem bodyPark_keeps : BodyKeeps bodyPark := fun _ _ _ _ _ _ _ h =>
  State.setG_keeps _ _ _ (State.setG_keeps _ _ _ (State.freshWord_keeps h))

theorem bodyIpark_keeps : BodyKeeps bodyIpark := fun _ _ _ _ _ _ _ h =>
  State.setG_keeps _ _ _ (State.setG_keeps _ _ _ (State.freshWord_keeps h))

theorem bodyInteg_keeps : BodyKeeps bodyInteg := by
  intro s0 s n run i r bad h
  unfold bodyInteg
  dsimp only
  split
  · exact State.setG_keeps _ _ _ (State.leWrite_keeps _ _ _ _ (State.leReads_keeps _ _ _ _ h))
  · exact State.leReads_keeps _ _ _ _ h

theorem bodyReson_keeps : BodyKeeps bodyReson := by
  intro s0 s n run i r bad h
  unfold bodyReson
  dsimp only
  split
  · exact State.setG_keeps _ _ _ (State.leWrite_keeps _ _ _ _ (State.leWrite_keeps _ _ _ _ (State.leReads_keeps _ _ _ _ h)))
  · exact State.leReads_keeps _ _ _ _ h

theorem bodyRlim_keeps : BodyKeeps bodyRlim := by
  intro s0 s n run i r bad h
  unfold bodyRlim
  dsimp only
  split
  · exact State.setG_keeps _ _ _ (State.leWrite_keeps _ _ _ _ (State.leReads_keeps _ _ _ _ h))
  · exact State.leReads_keeps _ _ _ _ h

theorem leBodyOf_keeps (op : Nat) : BodyKeeps (leBodyOf op) := by
  unfold leBodyOf
  split
  all_goals first
    | exact leResult_keeps _ | exact bodySincos_keeps | exact bodyClarke_keeps | exact bodyIclarke_keeps
    | exact bodyPark_keeps | exact bodyIpark_keeps | exact bodyLd_keeps | exact bodyInteg_keeps | exact bodyReson_keeps
    | exact bodyRlim_keeps | exact fun _ _ _ _ _ _ _ h => h | exact fun _ _ _ _ _ _ _ h => State.setG_keeps _ _ _ h
    | exact fun _ _ _ _ _ _ _ h => State.setPred_keeps _ _ _ h | exact fun _ _ _ _ _ _ _ h => State.leWrite_keeps _ _ _ _ h
    | exact fun _ _ _ _ _ _ _ h => State.portWrite_keeps _ _ _ _ h | exact fun _ _ _ _ _ _ _ h => State.leEnd_keeps _ _ h

theorem State.setRun_keeps {s0 : State} {s : State} (n : Fin 16) (run : LeRun) (h : Keeps s0 s) : Keeps s0 (State.setRun s n run) := by
  unfold State.setRun
  repeat' (first
    | with_reducible assumption | with_reducible apply State.setLe_keeps
    | with_reducible refine Keeps.update ?_ rfl rfl rfl rfl rfl rfl rfl rfl)

theorem State.leRefetch_keeps {s0 : State} {s : State} (n : Fin 16) (run : LeRun) (again : Bool) (h : Keeps s0 s) : Keeps s0 (State.leRefetch s n run again) := by
  unfold State.leRefetch
  repeat' (first
    | with_reducible assumption
    | (extract_lets +onlyGivenNames z; refine Keeps.cut (v := z) ?_ ?_ <;> [subst z; (intro _; clear_value z)])
    | extract_lets +onlyGivenNames z | with_reducible apply State.leFault_keeps | with_reducible apply State.wr_keeps
    | with_reducible apply State.bump_keeps | with_reducible apply State.leErr_keeps
    | with_reducible apply State.irq_keeps | with_reducible apply State.sramRead64_keeps
    | with_reducible apply State.setLpsWord_keeps | with_reducible apply State.lpsUpset_keeps
    | with_reducible apply State.setRun_keeps | with_reducible apply Keeps.ite | with_reducible apply Keeps.iteSnd
    | with_reducible refine Keeps.ofEq ?_ (by assumption) | split
    | with_reducible refine Keeps.update ?_ rfl rfl rfl rfl rfl rfl rfl rfl | intro _ | dsimp only)

theorem State.leFetch_keeps {s0 : State} {s : State} (n : Fin 16) (run : LeRun) (again : Bool) (h : Keeps s0 s) : Keeps s0 (State.leFetch s n run again) := by
  unfold State.leFetch
  repeat' (first
    | with_reducible assumption
    | (extract_lets +onlyGivenNames z; refine Keeps.cut (v := z) ?_ ?_ <;> [subst z; (intro _; clear_value z)])
    | extract_lets +onlyGivenNames z | with_reducible apply State.wr_keeps | with_reducible apply State.leRefetch_keeps
    | with_reducible apply Keeps.ite | with_reducible apply Keeps.iteSnd
    | with_reducible refine Keeps.ofEq ?_ (by assumption) | split
    | with_reducible refine Keeps.update ?_ rfl rfl rfl rfl rfl rfl rfl rfl | intro _ | dsimp only)

theorem State.opndError_keeps {s0 : State} {s : State} (n : Fin 16) (pc : Nat) (h : Keeps s0 s) : Keeps s0 (State.opndError s n pc) := by
  unfold State.opndError
  repeat' (first
    | with_reducible assumption | with_reducible apply State.bump_keeps | with_reducible apply State.leErr_keeps
    | with_reducible apply State.irq_keeps)

theorem State.leIssueWord_keeps {s0 s : State} (n : Fin 16) (run : LeRun) (i : LeInstr) {body : LeBody} (up : LeUpset)
    (hb : BodyKeeps body) (h : Keeps s0 s) : Keeps s0 (s.leIssueWord n run i body up) := by
  have h1 : Keeps s0 (if s.armed_ n 1 run.pc then s.wr LPS.pg LPS.INJECT_ARM 0 0 else s) :=
    Keeps.ite (fun _ => State.wr_keeps _ _ _ _ h) fun _ => h
  unfold State.leIssueWord
  extract_lets inj t errs cost u
  have h2 : Keeps s0 u := Keeps.ite (fun _ => h1) fun _ => State.opndError_keeps _ _ h1
  split
  · exact State.leFault_keeps _ _ h2
  · split
    rename_i r v e
    extract_lets o
    have h3 : Keeps s0 v := Keeps.ofEq (State.freshWord_keeps h2) e
    have h4 : Keeps s0 o.s := by
      show Keeps s0 (LeOut.s (if _ then _ else _))
      split
      · exact hb _ _ _ _ _ _ _ h3
      · exact h3
    split
    · exact State.leFault_keeps _ _ h4
    · exact Keeps.ite (fun _ => h4) fun _ => State.setRun_keeps _ _ h4

theorem State.leIssue_keeps {s0 s : State} (n : Fin 16) (op : Nat) {body : LeBody} (up : LeUpset) (hb : BodyKeeps body) (h : Keeps s0 s) :
    Keeps s0 (s.leIssue n op body up) := by
  unfold State.leIssue
  split
  · exact h
  · rename_i run _
    split
    · exact h
    · have h1 : Keeps s0 (s.leFetch n run) := State.leFetch_keeps _ _ _ h
      dsimp only
      split
      · exact h1
      · exact Keeps.ite (fun _ => State.leFault_keeps _ _ h1)
          fun _ => Keeps.ite (fun _ => State.leIssueWord_keeps _ _ _ _ hb h1) fun _ => h1

theorem State.leStepOne_keeps {s0 s : State} (n : Fin 16) (h : Keeps s0 s) : Keeps s0 (s.leStepOne n) := by
  unfold State.leStepOne
  split
  · exact h
  · exact Keeps.ite (fun _ => h) fun _ => State.setLe_keeps _ _
      (State.leIssue_keeps _ _ _ (leBodyOf_keeps _) (State.leFetch_keeps _ _ _ (State.setLe_keeps _ _ h)))

theorem State.fetchError_keeps {s0 : State} {s : State} (n : Fin 16) (again : Bool) (h : Keeps s0 s) : Keeps s0 (State.fetchError s n again) := by
  unfold State.fetchError
  repeat' (first
    | with_reducible assumption
    | (extract_lets +onlyGivenNames z; refine Keeps.cut (v := z) ?_ ?_ <;> [subst z; (intro _; clear_value z)])
    | extract_lets +onlyGivenNames z | with_reducible apply State.lpsUpset_keeps
    | with_reducible apply State.leFetch_keeps | with_reducible apply Keeps.ite | with_reducible apply Keeps.iteSnd
    | with_reducible refine Keeps.ofEq ?_ (by assumption) | split
    | with_reducible refine Keeps.update ?_ rfl rfl rfl rfl rfl rfl rfl rfl | intro _ | dsimp only)

end Sys2Proof.Machine
end

