-- ==== Sys2Proof/Laws/KeepsLps.lean ====
section
/-!
SUPPORT. Laws/KeepsLps.lean: every operation of Machine/Lps.lean keeps what `Keeps` says.
-/
namespace Sys2Proof.Machine

set_option linter.unusedTactic false
set_option linter.unreachableTactic false
set_option linter.unusedVariables false
set_option linter.tactic.unusedName false

theorem State.setLoadBusy_keeps {s0 : State} {s : State} (b : Bool) (h : Keeps s0 s) : Keeps s0 (State.setLoadBusy s b) := by
  unfold State.setLoadBusy
  repeat' (first
    | with_reducible assumption | with_reducible apply State.setFlag_keeps)

theorem State.loadStart_keeps {s0 : State} {s : State} (first : Nat) (count : Nat) (h : Keeps s0 s) : Keeps s0 (State.loadStart s first count) := by
  unfold State.loadStart
  repeat' (first
    | with_reducible assumption
    | (extract_lets +onlyGivenNames z; refine Keeps.cut (v := z) ?_ ?_ <;> [subst z; (intro _; clear_value z)])
    | extract_lets +onlyGivenNames z | with_reducible apply State.wr_keeps | with_reducible apply State.setLoadBusy_keeps
    | with_reducible refine Keeps.update ?_ rfl rfl rfl rfl rfl rfl rfl rfl | dsimp only)

theorem State.imageWord_keeps {s0 : State} {s : State} (a : Nat) (h : Keeps s0 s) : Keeps s0 (State.imageWord s a).2 := by
  unfold State.imageWord
  repeat' (first
    | with_reducible assumption | with_reducible apply State.sramRead64_keeps
    | with_reducible refine Keeps.ofEq ?_ (by assumption) | split
    | with_reducible refine Keeps.update ?_ rfl rfl rfl rfl rfl rfl rfl rfl)

theorem State.loadCopy_keeps {s0 s : State} (k a w : Nat) (h : Keeps s0 s) : Keeps s0 (s.loadCopy k a w).2 := by
  induction k generalizing s a w with
  | zero => exact h
  | succ k ih => exact ih _ _ (State.setLpsWord_keeps _ _ (State.imageWord_keeps _ h))

theorem State.loadDone_keeps {s0 : State} {s : State} (h : Keeps s0 s) : Keeps s0 (State.loadDone s) := by
  unfold State.loadDone
  repeat' (first
    | with_reducible assumption
    | (extract_lets +onlyGivenNames z; refine Keeps.cut (v := z) ?_ ?_ <;> [subst z; (intro _; clear_value z)])
    | extract_lets +onlyGivenNames z | with_reducible apply State.loadCopy_keeps | with_reducible apply State.wr_keeps
    | with_reducible apply State.putBit_keeps | with_reducible apply State.setLoadBusy_keeps
    | with_reducible apply State.irq_keeps | with_reducible apply Keeps.foldl | with_reducible apply Keeps.foldlSnd
    | with_reducible apply Keeps.ite | with_reducible refine Keeps.ofEq ?_ (by assumption) | split
    | with_reducible refine Keeps.update ?_ rfl rfl rfl rfl rfl rfl rfl rfl | intro _ | dsimp only)

theorem State.setLibBusy_keeps {s0 : State} {s : State} (b : Bool) (h : Keeps s0 s) : Keeps s0 (State.setLibBusy s b) := by
  unfold State.setLibBusy
  repeat' (first
    | with_reducible assumption | with_reducible apply State.setFlag_keeps)

theorem State.libStart_keeps {s0 : State} {s : State} (id : Nat) (h : Keeps s0 s) : Keeps s0 (State.libStart s id) := by
  unfold State.libStart
  repeat' (first
    | with_reducible assumption
    | (extract_lets +onlyGivenNames z; refine Keeps.cut (v := z) ?_ ?_ <;> [subst z; (intro _; clear_value z)])
    | extract_lets +onlyGivenNames z | with_reducible apply State.setLibBusy_keeps
    | with_reducible refine Keeps.update ?_ rfl rfl rfl rfl rfl rfl rfl rfl | dsimp only)

theorem State.libDone_keeps {s0 : State} {s : State} (h : Keeps s0 s) : Keeps s0 (State.libDone s) := by
  unfold State.libDone
  repeat' (first
    | with_reducible assumption
    | (extract_lets +onlyGivenNames z; refine Keeps.cut (v := z) ?_ ?_ <;> [subst z; (intro _; clear_value z)])
    | extract_lets +onlyGivenNames z | with_reducible apply State.setLibBusy_keeps | with_reducible apply State.wr_keeps
    | with_reducible apply State.irq_keeps | with_reducible apply State.sramWrite64_keeps
    | with_reducible apply Keeps.ite | with_reducible apply Keeps.iteSnd
    | with_reducible refine Keeps.ofEq ?_ (by assumption) | split
    | with_reducible refine Keeps.update ?_ rfl rfl rfl rfl rfl rfl rfl rfl | intro _ | dsimp only)

end Sys2Proof.Machine
end

