-- ==== Sys2Proof/Laws/KeepsForm.lean ====
section
/-!
SUPPORT. Laws/KeepsForm.lean: every operation of Machine/Form.lean keeps what `Keeps` says.
-/
namespace Sys2Proof.Machine

set_option linter.unusedTactic false
set_option linter.unreachableTactic false
set_option linter.unusedVariables false
set_option linter.tactic.unusedName false

theorem State.setForm_keeps {s0 : State} {s : State} (n : Fin 2) (u : FormUnit) (h : Keeps s0 s) : Keeps s0 (State.setForm s n u) := by
  unfold State.setForm
  repeat' (first
    | with_reducible assumption | with_reducible refine Keeps.update ?_ rfl rfl rfl rfl rfl rfl rfl rfl)

theorem State.fW_keeps {s0 : State} {s : State} (n : Nat) (f : Fld) (q : Rat) (i : Nat) (h : Keeps s0 s) : Keeps s0 (State.fW s n f q i) := by
  unfold State.fW
  repeat' (first
    | with_reducible assumption | with_reducible apply State.wr_keeps)

theorem State.formSources_keeps {s0 : State} {s : State} (h : Keeps s0 s) : Keeps s0 (State.formSources s) := by
  unfold State.formSources
  repeat' (first
    | with_reducible assumption | with_reducible apply State.setSource_keeps | intro _ | dsimp only)

theorem State.setPermit_keeps {s0 : State} {s : State} (n : Nat) (b : Bool) (h : Keeps s0 s) : Keeps s0 (State.setPermit s n b) := by
  unfold State.setPermit
  repeat' (first
    | with_reducible assumption
    | (extract_lets +onlyGivenNames z; refine Keeps.cut (v := z) ?_ ?_ <;> [subst z; (intro _; clear_value z)])
    | extract_lets +onlyGivenNames z | with_reducible apply State.setFlag_keeps | with_reducible apply State.irqIf_keeps
    | dsimp only)

theorem State.setFormState_keeps {s0 : State} {s : State} (n : Nat) (st : Nat) (h : Keeps s0 s) : Keeps s0 (State.setFormState s n st) := by
  unfold State.setFormState
  repeat' (first
    | with_reducible assumption
    | (extract_lets +onlyGivenNames z; refine Keeps.cut (v := z) ?_ ?_ <;> [subst z; (intro _; clear_value z)])
    | extract_lets +onlyGivenNames z | with_reducible apply State.wr_keeps | with_reducible apply State.formFed_keeps
    | with_reducible apply State.irqIf_keeps | with_reducible apply State.setPermit_keeps
    | with_reducible apply Keeps.ite | with_reducible apply Keeps.iteSnd
    | with_reducible refine Keeps.ofEq ?_ (by assumption) | split
    | with_reducible refine Keeps.update ?_ rfl rfl rfl rfl rfl rfl rfl rfl | intro _ | dsimp only)

theorem State.formFault_keeps {s0 : State} {s : State} (n : Fin 2) (cause : Nat) (h : Keeps s0 s) : Keeps s0 (State.formFault s n cause) := by
  unfold State.formFault
  repeat' (first
    | with_reducible assumption
    | (extract_lets +onlyGivenNames z; refine Keeps.cut (v := z) ?_ ?_ <;> [subst z; (intro _; clear_value z)])
    | extract_lets +onlyGivenNames z | with_reducible apply State.setFormState_keeps | with_reducible apply State.wr_keeps
    | with_reducible apply State.bump_keeps | with_reducible apply State.irq_keeps
    | with_reducible apply State.formSources_keeps | with_reducible apply Keeps.ite | split | intro _ | dsimp only)

theorem State.formResult_keeps {s0 : State} {s : State} (ch : Nat) (v : BitVec 24) (valid : Bool) (h : Keeps s0 s) : Keeps s0 (State.formResult s ch v valid) := by
  unfold State.formResult
  repeat' (first
    | with_reducible assumption
    | (extract_lets +onlyGivenNames z; refine Keeps.cut (v := z) ?_ ?_ <;> [subst z; (intro _; clear_value z)])
    | extract_lets +onlyGivenNames z | with_reducible apply State.setForm_keeps | with_reducible apply Keeps.foldl
    | with_reducible apply Keeps.foldlSnd | with_reducible apply Keeps.ite | split
    | with_reducible refine Keeps.update ?_ rfl rfl rfl rfl rfl rfl rfl rfl | intro _ | dsimp only)

theorem State.gridZero_keeps {s0 : State} {s : State} (n : Fin 2) (h : Keeps s0 s) : Keeps s0 (State.gridZero s n) := by
  unfold State.gridZero
  repeat' (first
    | with_reducible assumption
    | (extract_lets +onlyGivenNames z; refine Keeps.cut (v := z) ?_ ?_ <;> [subst z; (intro _; clear_value z)])
    | extract_lets +onlyGivenNames z | with_reducible apply State.wr_keeps | with_reducible apply Keeps.ite
    | with_reducible apply Keeps.iteSnd | with_reducible refine Keeps.ofEq ?_ (by assumption) | split
    | with_reducible refine Keeps.update ?_ rfl rfl rfl rfl rfl rfl rfl rfl | intro _ | dsimp only)

theorem State.formCheckInputs_keeps {s0 : State} {s : State} (n : Fin 2) (h : Keeps s0 s) : Keeps s0 (State.formCheckInputs s n) := by
  unfold State.formCheckInputs
  repeat' (first
    | with_reducible assumption
    | (extract_lets +onlyGivenNames z; refine Keeps.cut (v := z) ?_ ?_ <;> [subst z; (intro _; clear_value z)])
    | extract_lets +onlyGivenNames z | with_reducible apply State.setFlag_keeps
    | with_reducible apply State.gridZero_keeps | with_reducible apply State.formFault_keeps
    | with_reducible apply Keeps.ite | with_reducible apply Keeps.iteSnd
    | with_reducible refine Keeps.ofEq ?_ (by assumption) | split
    | with_reducible refine Keeps.update ?_ rfl rfl rfl rfl rfl rfl rfl rfl | intro _ | dsimp only)

theorem State.formSample_keeps {s0 : State} {s : State} (n : Fin 2) (h : Keeps s0 s) : Keeps s0 (State.formSample s n) := by
  unfold State.formSample
  repeat' (first
    | with_reducible assumption
    | (extract_lets +onlyGivenNames z; refine Keeps.cut (v := z) ?_ ?_ <;> [subst z; (intro _; clear_value z)])
    | extract_lets +onlyGivenNames z | with_reducible apply State.setForm_keeps | with_reducible apply Keeps.ite | split
    | with_reducible refine Keeps.update ?_ rfl rfl rfl rfl rfl rfl rfl rfl | intro _ | dsimp only)

theorem State.formFigures_keeps {s0 : State} {s : State} (n : Nat) (h : Keeps s0 s) : Keeps s0 (State.formFigures s n) := by
  unfold State.formFigures
  repeat' (first
    | with_reducible assumption
    | (extract_lets +onlyGivenNames z; refine Keeps.cut (v := z) ?_ ?_ <;> [subst z; (intro _; clear_value z)])
    | extract_lets +onlyGivenNames z | with_reducible apply State.fW_keeps | dsimp only)

theorem State.formApply_keeps {s0 : State} {s : State} (n : Fin 2) (h : Keeps s0 s) : Keeps s0 (State.formApply s n) := by
  unfold State.formApply
  repeat' (first
    | with_reducible assumption
    | (extract_lets +onlyGivenNames z; refine Keeps.cut (v := z) ?_ ?_ <;> [subst z; (intro _; clear_value z)])
    | extract_lets +onlyGivenNames z | with_reducible apply State.boundary_keeps
    | with_reducible apply State.formFed_keeps | with_reducible apply Keeps.ite | with_reducible apply Keeps.iteSnd
    | with_reducible refine Keeps.ofEq ?_ (by assumption) | split
    | with_reducible refine Keeps.update ?_ rfl rfl rfl rfl rfl rfl rfl rfl | intro _ | dsimp only)

theorem State.formCommit_keeps {s0 : State} {s : State} (n : Fin 2) (h : Keeps s0 s) : Keeps s0 (State.formCommit s n) := by
  unfold State.formCommit
  repeat' (first
    | with_reducible assumption
    | (extract_lets +onlyGivenNames z; refine Keeps.cut (v := z) ?_ ?_ <;> [subst z; (intro _; clear_value z)])
    | extract_lets +onlyGivenNames z | with_reducible apply State.formFigures_keeps
    | with_reducible apply State.formApply_keeps | with_reducible apply Keeps.ite | with_reducible apply Keeps.iteSnd
    | with_reducible refine Keeps.ofEq ?_ (by assumption) | split
    | with_reducible refine Keeps.update ?_ rfl rfl rfl rfl rfl rfl rfl rfl | intro _ | dsimp only)

theorem State.estimate_keeps {s0 : State} {s : State} (n : Fin 2) (h : Keeps s0 s) : Keeps s0 (State.estimate s n) := by
  unfold State.estimate
  repeat' (first
    | with_reducible assumption
    | (extract_lets +onlyGivenNames z; refine Keeps.cut (v := z) ?_ ?_ <;> [subst z; (intro _; clear_value z)])
    | extract_lets +onlyGivenNames z | with_reducible apply State.setForm_keeps
    | with_reducible apply State.freshWord_keeps | with_reducible apply Keeps.ite | with_reducible apply Keeps.iteSnd
    | with_reducible refine Keeps.ofEq ?_ (by assumption) | split
    | with_reducible refine Keeps.update ?_ rfl rfl rfl rfl rfl rfl rfl rfl | intro _ | dsimp only)

theorem State.gridPublish_keeps {s0 : State} {s : State} (n : Fin 2) (h : Keeps s0 s) : Keeps s0 (State.gridPublish s n) := by
  unfold State.gridPublish
  repeat' (first
    | with_reducible assumption
    | (extract_lets +onlyGivenNames z; refine Keeps.cut (v := z) ?_ ?_ <;> [subst z; (intro _; clear_value z)])
    | extract_lets +onlyGivenNames z | with_reducible apply State.fW_keeps | with_reducible apply State.gridZero_keeps
    | with_reducible apply Keeps.ite | with_reducible apply Keeps.iteSnd
    | with_reducible refine Keeps.ofEq ?_ (by assumption) | split
    | with_reducible refine Keeps.update ?_ rfl rfl rfl rfl rfl rfl rfl rfl | intro _ | dsimp only)

theorem State.gridTrack_keeps {s0 : State} {s : State} (n : Fin 2) (h : Keeps s0 s) : Keeps s0 (State.gridTrack s n) := by
  unfold State.gridTrack
  repeat' (first
    | with_reducible assumption
    | (extract_lets +onlyGivenNames z; refine Keeps.cut (v := z) ?_ ?_ <;> [subst z; (intro _; clear_value z)])
    | extract_lets +onlyGivenNames z | with_reducible apply State.setForm_keeps | with_reducible apply Keeps.ite | split
    | with_reducible refine Keeps.update ?_ rfl rfl rfl rfl rfl rfl rfl rfl | intro _ | dsimp only)

theorem State.gridPresent_keeps {s0 : State} {s : State} (n : Fin 2) (h : Keeps s0 s) : Keeps s0 (State.gridPresent s n) := by
  unfold State.gridPresent
  repeat' (first
    | with_reducible assumption
    | (extract_lets +onlyGivenNames z; refine Keeps.cut (v := z) ?_ ?_ <;> [subst z; (intro _; clear_value z)])
    | extract_lets +onlyGivenNames z | with_reducible apply State.setForm_keeps | with_reducible apply Keeps.ite | split
    | with_reducible refine Keeps.update ?_ rfl rfl rfl rfl rfl rfl rfl rfl | intro _ | dsimp only)

theorem State.permitTrack_keeps {s0 : State} {s : State} (n : Fin 2) (h : Keeps s0 s) : Keeps s0 (State.permitTrack s n) := by
  unfold State.permitTrack
  repeat' (first
    | with_reducible assumption
    | (extract_lets +onlyGivenNames z; refine Keeps.cut (v := z) ?_ ?_ <;> [subst z; (intro _; clear_value z)])
    | extract_lets +onlyGivenNames z | with_reducible apply State.setForm_keeps | with_reducible apply State.setPermit_keeps
    | with_reducible apply Keeps.ite | split | with_reducible refine Keeps.update ?_ rfl rfl rfl rfl rfl rfl rfl rfl | intro _
    | dsimp only)

theorem State.permitGrant_keeps {s0 : State} {s : State} (n : Fin 2) (h : Keeps s0 s) : Keeps s0 (State.permitGrant s n) := by
  unfold State.permitGrant
  repeat' (first
    | with_reducible assumption | with_reducible apply State.setPermit_keeps | with_reducible apply Keeps.ite | split
    | intro _)

theorem State.formEnter_keeps {s0 : State} {s : State} (n : Fin 2) (st : Nat) (h : Keeps s0 s) : Keeps s0 (State.formEnter s n st) := by
  unfold State.formEnter
  repeat' (first
    | with_reducible assumption
    | (extract_lets +onlyGivenNames z; refine Keeps.cut (v := z) ?_ ?_ <;> [subst z; (intro _; clear_value z)])
    | extract_lets +onlyGivenNames z | with_reducible apply State.setForm_keeps
    | with_reducible apply State.freshWord_keeps | with_reducible apply Keeps.foldlSnd
    | with_reducible apply Keeps.foldl | with_reducible apply Keeps.ite | with_reducible apply Keeps.iteSnd
    | with_reducible refine Keeps.ofEq ?_ (by assumption) | split
    | with_reducible refine Keeps.update ?_ rfl rfl rfl rfl rfl rfl rfl rfl | intro _ | dsimp only)

theorem State.harmSlot_keeps {s0 : State} {s : State} (n : Fin 2) (k : Fin 24) (st : Nat) (h : Keeps s0 s) : Keeps s0 (State.harmSlot s n k st) := by
  unfold State.harmSlot
  repeat' (first
    | with_reducible assumption
    | (extract_lets +onlyGivenNames z; refine Keeps.cut (v := z) ?_ ?_ <;> [subst z; (intro _; clear_value z)])
    | extract_lets +onlyGivenNames z | with_reducible apply State.fW_keeps | with_reducible apply State.wr_keeps
    | with_reducible apply State.irq_keeps | with_reducible apply State.setForm_keeps | with_reducible apply Keeps.ite
    | with_reducible apply Keeps.iteSnd | with_reducible refine Keeps.ofEq ?_ (by assumption) | split
    | with_reducible refine Keeps.update ?_ rfl rfl rfl rfl rfl rfl rfl rfl | intro _ | dsimp only)

theorem State.harmSlots_keeps {s0 : State} {s : State} (n : Fin 2) (st : Nat) (h : Keeps s0 s) : Keeps s0 (State.harmSlots s n st) := by
  unfold State.harmSlots
  repeat' (first
    | with_reducible assumption
    | (extract_lets +onlyGivenNames z; refine Keeps.cut (v := z) ?_ ?_ <;> [subst z; (intro _; clear_value z)])
    | extract_lets +onlyGivenNames z | with_reducible apply State.wr_keeps | with_reducible apply State.harmSlot_keeps
    | with_reducible apply State.setForm_keeps | with_reducible apply State.irq_keeps
    | with_reducible apply Keeps.foldlSnd | with_reducible apply Keeps.foldl | with_reducible apply Keeps.ite
    | with_reducible apply Keeps.iteSnd | with_reducible refine Keeps.ofEq ?_ (by assumption) | split
    | with_reducible refine Keeps.update ?_ rfl rfl rfl rfl rfl rfl rfl rfl | intro _ | dsimp only)

theorem State.slotDecayEnd_keeps {s0 : State} {s : State} (n : Fin 2) (k : Fin 24) (h : Keeps s0 s) : Keeps s0 (State.slotDecayEnd s n k) := by
  unfold State.slotDecayEnd
  repeat' (first
    | with_reducible assumption
    | (extract_lets +onlyGivenNames z; refine Keeps.cut (v := z) ?_ ?_ <;> [subst z; (intro _; clear_value z)])
    | extract_lets +onlyGivenNames z | with_reducible apply State.setForm_keeps | with_reducible apply Keeps.ite | split
    | with_reducible refine Keeps.update ?_ rfl rfl rfl rfl rfl rfl rfl rfl | intro _ | dsimp only)

theorem State.formWords_keeps {s0 : State} {s : State} (n : Fin 2) (h : Keeps s0 s) : Keeps s0 (State.formWords s n) := by
  unfold State.formWords
  repeat' (first
    | with_reducible assumption
    | (extract_lets +onlyGivenNames z; refine Keeps.cut (v := z) ?_ ?_ <;> [subst z; (intro _; clear_value z)])
    | extract_lets +onlyGivenNames z | with_reducible apply State.formWord_keeps | with_reducible apply Keeps.foldl
    | with_reducible apply Keeps.foldlSnd | with_reducible apply Keeps.ite | split | intro _ | dsimp only)

theorem State.formDeliver_keeps {s0 : State} {s : State} (w : Nat) (t : Int) (mid : Bool) (h : Keeps s0 s) : Keeps s0 (State.formDeliver s w t mid) := by
  unfold State.formDeliver
  repeat' (first
    | with_reducible assumption
    | (extract_lets +onlyGivenNames z; refine Keeps.cut (v := z) ?_ ?_ <;> [subst z; (intro _; clear_value z)])
    | extract_lets +onlyGivenNames z | with_reducible apply State.formWord_keeps | with_reducible apply Keeps.foldlSnd
    | with_reducible apply Keeps.foldl | with_reducible apply Keeps.ite | with_reducible apply Keeps.iteSnd
    | with_reducible refine Keeps.ofEq ?_ (by assumption) | split
    | with_reducible refine Keeps.update ?_ rfl rfl rfl rfl rfl rfl rfl rfl | intro _ | dsimp only)

theorem State.formPublish_keeps {s0 : State} {s : State} (n : Fin 2) (delta : Rat) (h : Keeps s0 s) : Keeps s0 (State.formPublish s n delta) := by
  unfold State.formPublish
  repeat' (first
    | with_reducible assumption
    | (extract_lets +onlyGivenNames z; refine Keeps.cut (v := z) ?_ ?_ <;> [subst z; (intro _; clear_value z)])
    | (extract_lets +onlyGivenNames z; subst z) | with_reducible apply State.fW_keeps | with_reducible apply Keeps.ite | split
    | intro _ | dsimp only)

theorem State.formStrobe_keeps {s0 : State} {s : State} (n : Fin 2) (h : Keeps s0 s) : Keeps s0 (State.formStrobe s n) := by
  unfold State.formStrobe
  repeat' (first
    | with_reducible assumption
    | (extract_lets +onlyGivenNames z; refine Keeps.cut (v := z) ?_ ?_ <;> [subst z; (intro _; clear_value z)])
    | extract_lets +onlyGivenNames z | with_reducible apply State.sigUpdate_keeps
    | with_reducible apply State.sampleEvent_keeps | with_reducible apply State.leEmit_keeps
    | with_reducible apply Keeps.foldlSnd | with_reducible apply Keeps.foldl | with_reducible apply Keeps.ite
    | with_reducible apply Keeps.iteSnd | with_reducible refine Keeps.ofEq ?_ (by assumption) | split
    | with_reducible refine Keeps.update ?_ rfl rfl rfl rfl rfl rfl rfl rfl | intro _ | dsimp only)

theorem State.formStatus_keeps {s0 : State} {s : State} (n : Fin 2) (o : ModelOut) (h : Keeps s0 s) : Keeps s0 (State.formStatus s n o) := by
  unfold State.formStatus
  repeat' (first
    | with_reducible assumption
    | (extract_lets +onlyGivenNames z; refine Keeps.cut (v := z) ?_ ?_ <;> [subst z; (intro _; clear_value z)])
    | extract_lets +onlyGivenNames z | with_reducible apply State.setFlag_keeps | with_reducible apply State.bump_keeps
    | with_reducible apply State.irq_keeps | with_reducible apply State.irqIf_keeps | with_reducible apply Keeps.ite
    | with_reducible refine Keeps.ofEq ?_ (by assumption) | split | intro _ | dsimp only)

theorem State.formSlip_keeps {s0 : State} {s : State} (n : Fin 2) (h : Keeps s0 s) : Keeps s0 (State.formSlip s n) := by
  unfold State.formSlip
  repeat' (first
    | with_reducible assumption
    | (extract_lets +onlyGivenNames z; refine Keeps.cut (v := z) ?_ ?_ <;> [subst z; (intro _; clear_value z)])
    | extract_lets +onlyGivenNames z | with_reducible apply State.setForm_keeps | with_reducible apply Keeps.ite | split
    | with_reducible refine Keeps.update ?_ rfl rfl rfl rfl rfl rfl rfl rfl | intro _ | dsimp only)

theorem State.rampEnd_keeps {s0 : State} {s : State} (n : Fin 2) (h : Keeps s0 s) : Keeps s0 (State.rampEnd s n) := by
  unfold State.rampEnd
  repeat' (first
    | with_reducible assumption | with_reducible apply State.setFormState_keeps | with_reducible apply Keeps.ite | split
    | intro _)

theorem State.openGate_keeps {s0 : State} {s : State} (n : Fin 2) (st : Nat) (h : Keeps s0 s) : Keeps s0 (State.openGate s n st) := by
  unfold State.openGate
  repeat' (first
    | with_reducible assumption | with_reducible apply State.setForm_keeps | with_reducible apply Keeps.ite | split
    | with_reducible refine Keeps.update ?_ rfl rfl rfl rfl rfl rfl rfl rfl | intro _)

theorem State.settle_keeps {s0 : State} {s : State} (h : Keeps s0 s) : Keeps s0 (State.settle s) := by
  unfold State.settle
  repeat' (first
    | with_reducible assumption | with_reducible apply State.wr_keeps | with_reducible apply Keeps.ite | split
    | with_reducible refine Keeps.update ?_ rfl rfl rfl rfl rfl rfl rfl rfl | intro _ | dsimp only)

theorem State.formArrive_keeps {s0 : State} {s : State} (n : Fin 2) (h : Keeps s0 s) : Keeps s0 (State.formArrive s n) := by
  unfold State.formArrive
  repeat' (first
    | with_reducible assumption
    | (extract_lets +onlyGivenNames z; refine Keeps.cut (v := z) ?_ ?_ <;> [subst z; (intro _; clear_value z)])
    | extract_lets +onlyGivenNames z | with_reducible apply State.setForm_keeps
    | with_reducible apply State.setFormState_keeps | with_reducible apply State.formEnter_keeps
    | with_reducible apply State.openGate_keeps | with_reducible apply Keeps.ite | split
    | with_reducible refine Keeps.update ?_ rfl rfl rfl rfl rfl rfl rfl rfl | intro _ | dsimp only)

theorem State.formUpdate_keeps {s0 : State} {s : State} (n : Fin 2) (h : Keeps s0 s) : Keeps s0 (State.formUpdate s n) := by
  unfold State.formUpdate
  repeat' (first
    | with_reducible assumption
    | (extract_lets +onlyGivenNames z; refine Keeps.cut (v := z) ?_ ?_ <;> [subst z; (intro _; clear_value z)])
    | extract_lets +onlyGivenNames z | with_reducible apply State.setForm_keeps
    | with_reducible apply State.formSample_keeps | with_reducible apply State.formApply_keeps
    | with_reducible apply State.formCheckInputs_keeps | with_reducible apply State.estimate_keeps
    | with_reducible apply State.gridTrack_keeps | with_reducible apply State.formArrive_keeps
    | with_reducible apply State.formFault_keeps | with_reducible apply State.formStatus_keeps
    | with_reducible apply State.harmSlots_keeps | with_reducible apply State.rampEnd_keeps
    | with_reducible apply State.formPublish_keeps | with_reducible apply State.wr_keeps
    | with_reducible apply State.fW_keeps | with_reducible apply State.gridPublish_keeps
    | with_reducible apply State.permitTrack_keeps | with_reducible apply State.formSlip_keeps
    | with_reducible apply State.wrapBump_keeps | with_reducible apply State.formWords_keeps
    | with_reducible apply State.formStrobe_keeps | with_reducible apply State.settle_keeps
    | with_reducible apply Keeps.ite | with_reducible apply Keeps.iteSnd
    | with_reducible refine Keeps.ofEq ?_ (by assumption) | split
    | with_reducible refine Keeps.update ?_ rfl rfl rfl rfl rfl rfl rfl rfl | intro _ | dsimp only)

theorem State.formInputLost_keeps {s0 : State} {s : State} (n : Fin 2) (k : Fin 18) (h : Keeps s0 s) : Keeps s0 (State.formInputLost s n k) := by
  unfold State.formInputLost
  repeat' (first
    | with_reducible assumption
    | (extract_lets +onlyGivenNames z; refine Keeps.cut (v := z) ?_ ?_ <;> [subst z; (intro _; clear_value z)])
    | extract_lets +onlyGivenNames z | with_reducible apply State.setForm_keeps
    | with_reducible apply State.formCheckInputs_keeps | with_reducible apply Keeps.ite | split
    | with_reducible refine Keeps.update ?_ rfl rfl rfl rfl rfl rfl rfl rfl | intro _ | dsimp only)

theorem State.angleTimeout_keeps {s0 : State} {s : State} (n : Fin 2) (h : Keeps s0 s) : Keeps s0 (State.angleTimeout s n) := by
  unfold State.angleTimeout
  repeat' (first
    | with_reducible assumption
    | (extract_lets +onlyGivenNames z; refine Keeps.cut (v := z) ?_ ?_ <;> [subst z; (intro _; clear_value z)])
    | extract_lets +onlyGivenNames z | with_reducible apply State.formFault_keeps | with_reducible apply Keeps.ite | split
    | intro _ | dsimp only)

theorem State.formIdle_keeps {s0 : State} {s : State} (n : Fin 2) (h : Keeps s0 s) : Keeps s0 (State.formIdle s n) := by
  unfold State.formIdle
  repeat' (first
    | with_reducible assumption
    | (extract_lets +onlyGivenNames z; refine Keeps.cut (v := z) ?_ ?_ <;> [subst z; (intro _; clear_value z)])
    | extract_lets +onlyGivenNames z | with_reducible apply State.setForm_keeps
    | with_reducible apply State.setFormState_keeps | with_reducible apply State.wr_keeps
    | with_reducible apply State.formPublish_keeps | with_reducible apply State.formSources_keeps
    | with_reducible apply Keeps.ite | with_reducible apply Keeps.iteSnd
    | with_reducible refine Keeps.ofEq ?_ (by assumption) | split
    | with_reducible refine Keeps.update ?_ rfl rfl rfl rfl rfl rfl rfl rfl | intro _ | dsimp only)

theorem State.formSyncPwm_keeps {s0 : State} {s : State} (w : Nat) (h : Keeps s0 s) : Keeps s0 (State.formSyncPwm s w) := by
  unfold State.formSyncPwm
  repeat' (first
    | with_reducible assumption
    | (extract_lets +onlyGivenNames z; refine Keeps.cut (v := z) ?_ ?_ <;> [subst z; (intro _; clear_value z)])
    | extract_lets +onlyGivenNames z | with_reducible apply State.setForm_keeps | with_reducible apply Keeps.foldlSnd
    | with_reducible apply Keeps.foldl | with_reducible apply Keeps.ite | with_reducible apply Keeps.iteSnd
    | with_reducible refine Keeps.ofEq ?_ (by assumption) | split
    | with_reducible refine Keeps.update ?_ rfl rfl rfl rfl rfl rfl rfl rfl | intro _ | dsimp only)

theorem State.formModeUnit_keeps {s0 : State} {s : State} (old : Nat) (n : Fin 2) (h : Keeps s0 s) : Keeps s0 (State.formModeUnit s old n) := by
  unfold State.formModeUnit
  repeat' (first
    | with_reducible assumption
    | (extract_lets +onlyGivenNames z; refine Keeps.cut (v := z) ?_ ?_ <;> [subst z; (intro _; clear_value z)])
    | extract_lets +onlyGivenNames z | with_reducible apply State.gridZero_keeps
    | with_reducible apply State.setForm_keeps | with_reducible apply State.formIdle_keeps
    | with_reducible apply State.formApply_keeps | with_reducible apply Keeps.ite | with_reducible apply Keeps.iteSnd
    | with_reducible refine Keeps.ofEq ?_ (by assumption) | split
    | with_reducible refine Keeps.update ?_ rfl rfl rfl rfl rfl rfl rfl rfl | intro _ | dsimp only)

theorem State.formModes_keeps {s0 : State} {s : State} (old : Nat) (h : Keeps s0 s) : Keeps s0 (State.formModes s old) := by
  unfold State.formModes
  repeat' (first
    | with_reducible assumption | with_reducible apply State.formModeUnit_keeps | with_reducible apply Keeps.foldl
    | with_reducible apply Keeps.foldlSnd | intro _ | dsimp only)

end Sys2Proof.Machine
end

