-- ==== Sys2Proof/Laws/KeepsSar.lean ====
section
/-!
SUPPORT. Laws/KeepsSar.lean: every operation of Machine/Sar.lean keeps what `Keeps` says.
-/
namespace Sys2Proof.Machine

set_option linter.unusedTactic false
set_option linter.unreachableTactic false
set_option linter.unusedVariables false
set_option linter.tactic.unusedName false

theorem State.sarStatus_keeps {s0 : State} {s : State} (u : Fin 6) (h : Keeps s0 s) : Keeps s0 (State.sarStatus s u) := by
  unfold State.sarStatus
  repeat' (first
    | with_reducible assumption
    | (extract_lets +onlyGivenNames z; refine Keeps.cut (v := z) ?_ ?_ <;> [subst z; (intro _; clear_value z)])
    | extract_lets +onlyGivenNames z | with_reducible apply State.setFlag_keeps | dsimp only)

theorem State.setWin_keeps {s0 : State} {s : State} (u : Nat) (w : Fin 2) (b : Bool) (h : Keeps s0 s) : Keeps s0 (State.setWin s u w b) := by
  unfold State.setWin
  repeat' (first
    | with_reducible assumption
    | (extract_lets +onlyGivenNames z; refine Keeps.cut (v := z) ?_ ?_ <;> [subst z; (intro _; clear_value z)])
    | extract_lets +onlyGivenNames z | with_reducible apply State.setFlag_keeps | with_reducible apply State.setSource_keeps
    | with_reducible apply State.irqIf_keeps | with_reducible apply Keeps.ite | split | intro _ | dsimp only)

theorem State.sarBoundary_keeps {s0 : State} {s : State} (u : Fin 6) (h : Keeps s0 s) : Keeps s0 (State.sarBoundary s u) := by
  unfold State.sarBoundary
  repeat' (first
    | with_reducible assumption
    | (extract_lets +onlyGivenNames z; refine Keeps.cut (v := z) ?_ ?_ <;> [subst z; (intro _; clear_value z)])
    | extract_lets +onlyGivenNames z | with_reducible apply State.boundary_keeps
    | with_reducible apply State.setWin_keeps | with_reducible apply State.wr_keeps
    | with_reducible apply Keeps.foldlSnd | with_reducible apply Keeps.foldl | with_reducible apply Keeps.ite
    | with_reducible apply Keeps.iteSnd | with_reducible refine Keeps.ofEq ?_ (by assumption) | split
    | with_reducible refine Keeps.update ?_ rfl rfl rfl rfl rfl rfl rfl rfl | intro _ | dsimp only)

theorem State.sarFly_keeps {s0 : State} {s : State} (u : Fin 6) (f : SarFlight) (h : Keeps s0 s) : Keeps s0 (State.sarFly s u f) := by
  unfold State.sarFly
  repeat' (first
    | with_reducible assumption
    | (extract_lets +onlyGivenNames z; refine Keeps.cut (v := z) ?_ ?_ <;> [subst z; (intro _; clear_value z)])
    | extract_lets +onlyGivenNames z | with_reducible apply State.sarBoundary_keeps
    | with_reducible apply State.setSar_keeps | with_reducible apply State.sarStatus_keeps
    | with_reducible apply Keeps.ite | with_reducible apply Keeps.iteSnd
    | with_reducible refine Keeps.ofEq ?_ (by assumption) | split
    | with_reducible refine Keeps.update ?_ rfl rfl rfl rfl rfl rfl rfl rfl | intro _ | dsimp only)

theorem State.sarStartReg_keeps {s0 : State} {s : State} (u : Fin 6) (h : Keeps s0 s) : Keeps s0 (State.sarStartReg s u) := by
  unfold State.sarStartReg
  repeat' (first
    | with_reducible assumption | with_reducible apply State.setSar_keeps | with_reducible apply State.sarFly_keeps
    | with_reducible refine Keeps.update ?_ rfl rfl rfl rfl rfl rfl rfl rfl)

theorem State.sarStartInj_keeps {s0 : State} {s : State} (u : Fin 6) (h : Keeps s0 s) : Keeps s0 (State.sarStartInj s u) := by
  unfold State.sarStartInj
  repeat' (first
    | with_reducible assumption | with_reducible apply State.setSar_keeps | with_reducible apply State.sarFly_keeps
    | with_reducible refine Keeps.update ?_ rfl rfl rfl rfl rfl rfl rfl rfl)

theorem State.sarRegTrigger_keeps {s0 : State} {s : State} (u : Fin 6) (h : Keeps s0 s) : Keeps s0 (State.sarRegTrigger s u) := by
  unfold State.sarRegTrigger
  repeat' (first
    | with_reducible assumption
    | (extract_lets +onlyGivenNames z; refine Keeps.cut (v := z) ?_ ?_ <;> [subst z; (intro _; clear_value z)])
    | extract_lets +onlyGivenNames z | with_reducible apply State.bump_keeps | with_reducible apply State.irq_keeps
    | with_reducible apply State.wr_keeps | with_reducible apply State.sarStartReg_keeps | with_reducible apply Keeps.ite
    | split | intro _ | dsimp only)

theorem State.sarYield_keeps {s0 : State} {s : State} (u : Fin 6) (h : Keeps s0 s) : Keeps s0 (State.sarYield s u) := by
  unfold State.sarYield
  repeat' (first
    | with_reducible assumption
    | (extract_lets +onlyGivenNames z; refine Keeps.cut (v := z) ?_ ?_ <;> [subst z; (intro _; clear_value z)])
    | extract_lets +onlyGivenNames z | with_reducible apply State.setSar_keeps | with_reducible apply State.wr_keeps
    | with_reducible apply Keeps.ite | with_reducible apply Keeps.iteSnd
    | with_reducible refine Keeps.ofEq ?_ (by assumption) | split
    | with_reducible refine Keeps.update ?_ rfl rfl rfl rfl rfl rfl rfl rfl | intro _ | dsimp only)

theorem State.sarInjTrigger_keeps {s0 : State} {s : State} (u : Fin 6) (h : Keeps s0 s) : Keeps s0 (State.sarInjTrigger s u) := by
  unfold State.sarInjTrigger
  repeat' (first
    | with_reducible assumption
    | (extract_lets +onlyGivenNames z; refine Keeps.cut (v := z) ?_ ?_ <;> [subst z; (intro _; clear_value z)])
    | extract_lets +onlyGivenNames z | with_reducible apply State.bump_keeps | with_reducible apply State.irq_keeps
    | with_reducible apply State.sarYield_keeps | with_reducible apply State.sarStartInj_keeps
    | with_reducible apply State.setSar_keeps | with_reducible apply Keeps.ite | with_reducible apply Keeps.iteSnd
    | with_reducible refine Keeps.ofEq ?_ (by assumption) | split
    | with_reducible refine Keeps.update ?_ rfl rfl rfl rfl rfl rfl rfl rfl | intro _ | dsimp only)

theorem State.sarRegEvent_keeps {s0 : State} {s : State} (u : Fin 6) (h : Keeps s0 s) : Keeps s0 (State.sarRegEvent s u) := by
  unfold State.sarRegEvent
  repeat' (first
    | with_reducible assumption
    | (extract_lets +onlyGivenNames z; refine Keeps.cut (v := z) ?_ ?_ <;> [subst z; (intro _; clear_value z)])
    | extract_lets +onlyGivenNames z | with_reducible apply State.setSar_keeps
    | with_reducible apply State.sarRegTrigger_keeps | with_reducible apply Keeps.ite
    | with_reducible apply Keeps.iteSnd | with_reducible refine Keeps.ofEq ?_ (by assumption) | split
    | with_reducible refine Keeps.update ?_ rfl rfl rfl rfl rfl rfl rfl rfl | intro _ | dsimp only)

theorem State.sarInjEvent_keeps {s0 : State} {s : State} (u : Fin 6) (h : Keeps s0 s) : Keeps s0 (State.sarInjEvent s u) := by
  unfold State.sarInjEvent
  repeat' (first
    | with_reducible assumption
    | (extract_lets +onlyGivenNames z; refine Keeps.cut (v := z) ?_ ?_ <;> [subst z; (intro _; clear_value z)])
    | extract_lets +onlyGivenNames z | with_reducible apply State.setSar_keeps
    | with_reducible apply State.sarInjTrigger_keeps | with_reducible apply Keeps.ite
    | with_reducible apply Keeps.iteSnd | with_reducible refine Keeps.ofEq ?_ (by assumption) | split
    | with_reducible refine Keeps.update ?_ rfl rfl rfl rfl rfl rfl rfl rfl | intro _ | dsimp only)

theorem State.winEval_keeps {s0 : State} {s : State} (u : Fin 6) (w : Fin 2) (code : Nat) (h : Keeps s0 s) : Keeps s0 (State.winEval s u w code) := by
  unfold State.winEval
  repeat' (first
    | with_reducible assumption
    | (extract_lets +onlyGivenNames z; refine Keeps.cut (v := z) ?_ ?_ <;> [subst z; (intro _; clear_value z)])
    | extract_lets +onlyGivenNames z | with_reducible apply State.setSar_keeps | with_reducible apply State.setWin_keeps
    | with_reducible apply Keeps.ite | split | with_reducible refine Keeps.update ?_ rfl rfl rfl rfl rfl rfl rfl rfl | intro _
    | dsimp only)

theorem State.winEvals_keeps {s0 : State} {s : State} (u : Fin 6) (injected : Bool) (slot : Nat) (code : Nat) (h : Keeps s0 s) : Keeps s0 (State.winEvals s u injected slot code) := by
  unfold State.winEvals
  repeat' (first
    | with_reducible assumption | with_reducible apply State.winEval_keeps | with_reducible apply Keeps.foldl
    | with_reducible apply Keeps.foldlSnd | with_reducible apply Keeps.ite | split | intro _ | dsimp only)

theorem State.sarRegDone_keeps {s0 : State} {s : State} (u : Fin 6) (h : Keeps s0 s) : Keeps s0 (State.sarRegDone s u) := by
  unfold State.sarRegDone
  repeat' (first
    | with_reducible assumption
    | (extract_lets +onlyGivenNames z; refine Keeps.cut (v := z) ?_ ?_ <;> [subst z; (intro _; clear_value z)])
    | extract_lets +onlyGivenNames z | with_reducible apply State.wr_keeps
    | with_reducible apply State.routeResult_keeps | with_reducible apply State.sigUpdate_keeps
    | with_reducible apply State.wrapBump_keeps | with_reducible apply State.irq_keeps
    | with_reducible apply State.setSar_keeps | with_reducible apply State.sampleEvent_keeps
    | with_reducible apply State.leEmit_keeps | with_reducible apply Keeps.foldlSnd | with_reducible apply Keeps.foldl
    | with_reducible apply Keeps.ite | with_reducible apply Keeps.iteSnd
    | with_reducible refine Keeps.ofEq ?_ (by assumption) | split
    | with_reducible refine Keeps.update ?_ rfl rfl rfl rfl rfl rfl rfl rfl | intro _ | dsimp only)

theorem State.sarInjDone_keeps {s0 : State} {s : State} (u : Fin 6) (h : Keeps s0 s) : Keeps s0 (State.sarInjDone s u) := by
  unfold State.sarInjDone
  repeat' (first
    | with_reducible assumption
    | (extract_lets +onlyGivenNames z; refine Keeps.cut (v := z) ?_ ?_ <;> [subst z; (intro _; clear_value z)])
    | extract_lets +onlyGivenNames z | with_reducible apply State.wr_keeps
    | with_reducible apply State.routeResult_keeps | with_reducible apply State.sigUpdate_keeps
    | with_reducible apply State.irq_keeps | with_reducible apply State.setSar_keeps
    | with_reducible apply State.leEmit_keeps | with_reducible apply Keeps.foldlSnd | with_reducible apply Keeps.foldl
    | with_reducible apply Keeps.ite | with_reducible apply Keeps.iteSnd
    | with_reducible refine Keeps.ofEq ?_ (by assumption) | split
    | with_reducible refine Keeps.update ?_ rfl rfl rfl rfl rfl rfl rfl rfl | intro _ | dsimp only)

theorem State.sarIdle_keeps {s0 : State} {s : State} (u : Fin 6) (h : Keeps s0 s) : Keeps s0 (State.sarIdle s u) := by
  unfold State.sarIdle
  repeat' (first
    | with_reducible assumption
    | (extract_lets +onlyGivenNames z; refine Keeps.cut (v := z) ?_ ?_ <;> [subst z; (intro _; clear_value z)])
    | extract_lets +onlyGivenNames z | with_reducible apply State.sarBoundary_keeps
    | with_reducible apply State.wr_keeps | with_reducible apply State.sarStartReg_keeps
    | with_reducible apply State.sarFly_keeps | with_reducible apply Keeps.ite | with_reducible apply Keeps.iteSnd
    | with_reducible refine Keeps.ofEq ?_ (by assumption) | split
    | with_reducible refine Keeps.update ?_ rfl rfl rfl rfl rfl rfl rfl rfl | intro _ | dsimp only)

theorem State.sarNext_keeps {s0 : State} {s : State} (u : Fin 6) (h : Keeps s0 s) : Keeps s0 (State.sarNext s u) := by
  unfold State.sarNext
  repeat' (first
    | with_reducible assumption
    | (extract_lets +onlyGivenNames z; refine Keeps.cut (v := z) ?_ ?_ <;> [subst z; (intro _; clear_value z)])
    | extract_lets +onlyGivenNames z | with_reducible apply State.sarStartInj_keeps
    | with_reducible apply State.sarFly_keeps | with_reducible apply State.sarIdle_keeps
    | with_reducible apply Keeps.ite | with_reducible apply Keeps.iteSnd
    | with_reducible refine Keeps.ofEq ?_ (by assumption) | split
    | with_reducible refine Keeps.update ?_ rfl rfl rfl rfl rfl rfl rfl rfl | intro _ | dsimp only)

theorem State.sarComplete_keeps {s0 : State} {s : State} (u : Fin 6) (code : BitVec 12) (h : Keeps s0 s) : Keeps s0 (State.sarComplete s u code) := by
  unfold State.sarComplete
  repeat' (first
    | with_reducible assumption
    | (extract_lets +onlyGivenNames z; refine Keeps.cut (v := z) ?_ ?_ <;> [subst z; (intro _; clear_value z)])
    | extract_lets +onlyGivenNames z | with_reducible apply State.winEvals_keeps | with_reducible apply State.setSar_keeps
    | with_reducible apply State.sarNext_keeps | with_reducible apply State.sarRegDone_keeps
    | with_reducible apply State.wr_keeps | with_reducible apply State.sarInjDone_keeps | with_reducible apply Keeps.ite
    | split | with_reducible refine Keeps.update ?_ rfl rfl rfl rfl rfl rfl rfl rfl | intro _ | dsimp only)

theorem State.sarContinuous_keeps {s0 : State} {s : State} (u : Fin 6) (h : Keeps s0 s) : Keeps s0 (State.sarContinuous s u) := by
  unfold State.sarContinuous
  repeat' (first
    | with_reducible assumption | with_reducible apply State.sarRegTrigger_keeps | with_reducible apply Keeps.ite | split
    | intro _)

theorem State.sarAbandon_keeps {s0 : State} {s : State} (u : Fin 6) (h : Keeps s0 s) : Keeps s0 (State.sarAbandon s u) := by
  unfold State.sarAbandon
  repeat' (first
    | with_reducible assumption
    | (extract_lets +onlyGivenNames z; refine Keeps.cut (v := z) ?_ ?_ <;> [subst z; (intro _; clear_value z)])
    | extract_lets +onlyGivenNames z | with_reducible apply State.setSar_keeps | with_reducible apply State.wr_keeps
    | with_reducible apply State.sarStatus_keeps | with_reducible apply State.sarBoundary_keeps | dsimp only)

theorem State.sarCommit_keeps {s0 : State} {s : State} (u : Fin 6) (h : Keeps s0 s) : Keeps s0 (State.sarCommit s u) := by
  unfold State.sarCommit
  repeat' (first
    | with_reducible assumption
    | (extract_lets +onlyGivenNames z; refine Keeps.cut (v := z) ?_ ?_ <;> [subst z; (intro _; clear_value z)])
    | extract_lets +onlyGivenNames z | with_reducible apply State.sarIdle_keeps | with_reducible apply Keeps.ite
    | with_reducible apply Keeps.iteSnd | with_reducible refine Keeps.ofEq ?_ (by assumption) | split
    | with_reducible refine Keeps.update ?_ rfl rfl rfl rfl rfl rfl rfl rfl | intro _ | dsimp only)

theorem State.setDsf_keeps {s0 : State} {s : State} (b : Fin 6) (c : Fin 8) (x : DsfChan) (h : Keeps s0 s) : Keeps s0 (State.setDsf s b c x) := by
  unfold State.setDsf
  repeat' (first
    | with_reducible assumption | with_reducible refine Keeps.update ?_ rfl rfl rfl rfl rfl rfl rfl rfl)

theorem State.dsfSources_keeps {s0 : State} {s : State} (b : Fin 6) (h : Keeps s0 s) : Keeps s0 (State.dsfSources s b) := by
  unfold State.dsfSources
  repeat' (first
    | with_reducible assumption
    | (extract_lets +onlyGivenNames z; refine Keeps.cut (v := z) ?_ ?_ <;> [subst z; (intro _; clear_value z)])
    | extract_lets +onlyGivenNames z | with_reducible apply State.setSource_keeps | with_reducible apply State.irqIf_keeps
    | with_reducible apply Keeps.foldl | with_reducible apply Keeps.foldlSnd | intro _ | dsimp only)

theorem State.setCmpOut_keeps {s0 : State} {s : State} (b : Fin 6) (c : Fin 8) (v : Bool) (h : Keeps s0 s) : Keeps s0 (State.setCmpOut s b c v) := by
  unfold State.setCmpOut
  repeat' (first
    | with_reducible assumption
    | (extract_lets +onlyGivenNames z; refine Keeps.cut (v := z) ?_ ?_ <;> [subst z; (intro _; clear_value z)])
    | extract_lets +onlyGivenNames z | with_reducible apply State.setFlag_keeps | with_reducible apply State.putBit_keeps
    | with_reducible apply State.dsfSources_keeps | dsimp only)

theorem State.cmpForced_keeps {s0 : State} {s : State} (b : Fin 6) (c : Fin 8) (h : Keeps s0 s) : Keeps s0 (State.cmpForced s b c) := by
  unfold State.cmpForced
  repeat' (first
    | with_reducible assumption
    | (extract_lets +onlyGivenNames z; refine Keeps.cut (v := z) ?_ ?_ <;> [subst z; (intro _; clear_value z)])
    | extract_lets +onlyGivenNames z | with_reducible apply State.setCmpOut_keeps | with_reducible apply Keeps.ite
    | with_reducible apply Keeps.iteSnd | with_reducible refine Keeps.ofEq ?_ (by assumption) | split
    | with_reducible refine Keeps.update ?_ rfl rfl rfl rfl rfl rfl rfl rfl | intro _ | dsimp only)

theorem State.cmpForcedAll_keeps {s0 : State} {s : State} (b : Fin 6) (h : Keeps s0 s) : Keeps s0 (State.cmpForcedAll s b) := by
  unfold State.cmpForcedAll
  repeat' (first
    | with_reducible assumption
    | (extract_lets +onlyGivenNames z; refine Keeps.cut (v := z) ?_ ?_ <;> [subst z; (intro _; clear_value z)])
    | extract_lets +onlyGivenNames z | with_reducible apply State.cmpForced_keeps | with_reducible apply Keeps.foldlSnd
    | with_reducible apply Keeps.foldl | with_reducible apply Keeps.ite | with_reducible apply Keeps.iteSnd
    | with_reducible refine Keeps.ofEq ?_ (by assumption) | split
    | with_reducible refine Keeps.update ?_ rfl rfl rfl rfl rfl rfl rfl rfl | intro _ | dsimp only)

theorem State.dsfApply_keeps {s0 : State} {s : State} (b : Fin 6) (h : Keeps s0 s) : Keeps s0 (State.dsfApply s b) := by
  unfold State.dsfApply
  repeat' (first
    | with_reducible assumption
    | (extract_lets +onlyGivenNames z; refine Keeps.cut (v := z) ?_ ?_ <;> [subst z; (intro _; clear_value z)])
    | extract_lets +onlyGivenNames z | with_reducible apply State.boundary_keeps
    | with_reducible apply State.cmpForcedAll_keeps | with_reducible apply State.dsfSources_keeps
    | with_reducible apply State.dsfSync_keeps | with_reducible apply Keeps.ite | with_reducible apply Keeps.iteSnd
    | with_reducible refine Keeps.ofEq ?_ (by assumption) | split
    | with_reducible refine Keeps.update ?_ rfl rfl rfl rfl rfl rfl rfl rfl | intro _ | dsimp only)

theorem State.dsfWrite_keeps {s0 : State} {s : State} (b : Fin 6) (c : Fin 8) (v : Nat) (valid : Bool) (notch : Bool) (quiet : Bool) (h : Keeps s0 s) : Keeps s0 (State.dsfWrite s b c v valid notch quiet) := by
  unfold State.dsfWrite
  repeat' (first
    | with_reducible assumption
    | (extract_lets +onlyGivenNames z; refine Keeps.cut (v := z) ?_ ?_ <;> [subst z; (intro _; clear_value z)])
    | extract_lets +onlyGivenNames z | with_reducible apply State.wr_keeps | with_reducible apply State.setFlag_keeps
    | with_reducible apply State.routeResult_keeps | with_reducible apply State.formResult_keeps
    | with_reducible apply State.sigUpdate_keeps | with_reducible apply Keeps.ite | with_reducible apply Keeps.iteSnd
    | with_reducible refine Keeps.ofEq ?_ (by assumption) | split
    | with_reducible refine Keeps.update ?_ rfl rfl rfl rfl rfl rfl rfl rfl | intro _ | dsimp only)

theorem State.dsfBecomeInvalid_keeps {s0 : State} {s : State} (b : Fin 6) (c : Fin 8) (clk : Bool) (h : Keeps s0 s) : Keeps s0 (State.dsfBecomeInvalid s b c clk) := by
  unfold State.dsfBecomeInvalid
  repeat' (first
    | with_reducible assumption
    | (extract_lets +onlyGivenNames z; refine Keeps.cut (v := z) ?_ ?_ <;> [subst z; (intro _; clear_value z)])
    | extract_lets +onlyGivenNames z | with_reducible apply State.dsfWrite_keeps | with_reducible apply State.bump_keeps
    | with_reducible apply State.putBit_keeps | with_reducible apply State.wr_keeps
    | with_reducible apply State.irq_keeps | with_reducible apply State.irqIf_keeps
    | with_reducible apply State.cmpForced_keeps | with_reducible apply Keeps.ite | with_reducible apply Keeps.iteSnd
    | with_reducible refine Keeps.ofEq ?_ (by assumption) | split
    | with_reducible refine Keeps.update ?_ rfl rfl rfl rfl rfl rfl rfl rfl | intro _ | dsimp only)

theorem State.dsfSettle_keeps {s0 : State} {s : State} (b : Fin 6) (c : Fin 8) (bad : Bool) (h : Keeps s0 s) : Keeps s0 (State.dsfSettle s b c bad) := by
  unfold State.dsfSettle
  repeat' (first
    | with_reducible assumption
    | (extract_lets +onlyGivenNames z; refine Keeps.cut (v := z) ?_ ?_ <;> [subst z; (intro _; clear_value z)])
    | extract_lets +onlyGivenNames z | with_reducible apply State.setDsf_keeps | with_reducible apply State.wr_keeps
    | with_reducible apply State.cmpForced_keeps | with_reducible apply Keeps.ite | with_reducible apply Keeps.iteSnd
    | with_reducible refine Keeps.ofEq ?_ (by assumption) | split
    | with_reducible refine Keeps.update ?_ rfl rfl rfl rfl rfl rfl rfl rfl | intro _ | dsimp only)

theorem State.cmpEval_keeps {s0 : State} {s : State} (b : Fin 6) (c : Fin 8) (h : Keeps s0 s) : Keeps s0 (State.cmpEval s b c) := by
  unfold State.cmpEval
  repeat' (first
    | with_reducible assumption
    | (extract_lets +onlyGivenNames z; refine Keeps.cut (v := z) ?_ ?_ <;> [subst z; (intro _; clear_value z)])
    | extract_lets +onlyGivenNames z | with_reducible apply State.freshWord_keeps | with_reducible apply State.wr_keeps
    | with_reducible apply State.setDsf_keeps | with_reducible apply State.setCmpOut_keeps
    | with_reducible apply Keeps.ite | with_reducible apply Keeps.iteSnd
    | with_reducible refine Keeps.ofEq ?_ (by assumption) | split
    | with_reducible refine Keeps.update ?_ rfl rfl rfl rfl rfl rfl rfl rfl | intro _ | dsimp only)

theorem State.dsfBit_keeps {s0 : State} {s : State} (b : Fin 6) (c : Fin 8) (raw : Bool) (h : Keeps s0 s) : Keeps s0 (State.dsfBit s b c raw) := by
  unfold State.dsfBit
  repeat' (first
    | with_reducible assumption
    | (extract_lets +onlyGivenNames z; refine Keeps.cut (v := z) ?_ ?_ <;> [subst z; (intro _; clear_value z)])
    | extract_lets +onlyGivenNames z | with_reducible apply State.dsfApply_keeps
    | with_reducible apply State.setDsf_keeps | with_reducible apply State.wr_keeps
    | with_reducible apply State.dsfBecomeInvalid_keeps | with_reducible apply State.dsfSettle_keeps
    | with_reducible apply State.cmpEval_keeps | with_reducible apply Keeps.ite | with_reducible apply Keeps.iteSnd
    | with_reducible refine Keeps.ofEq ?_ (by assumption) | split
    | with_reducible refine Keeps.update ?_ rfl rfl rfl rfl rfl rfl rfl rfl | intro _ | dsimp only)

theorem State.dsfBits_keeps {s0 : State} {s : State} (b : Fin 6) (c : Fin 8) (bits : List Bool) (h : Keeps s0 s) : Keeps s0 (State.dsfBits s b c bits) := by
  unfold State.dsfBits
  repeat' (first
    | with_reducible assumption | with_reducible apply State.dsfBit_keeps | with_reducible apply Keeps.foldl
    | with_reducible apply Keeps.foldlSnd | intro _ | dsimp only)

theorem State.dsfEmit_keeps {s0 : State} {s : State} (n : Fin 16) (t : Int) (mid : Bool) (h : Keeps s0 s) : Keeps s0 (State.dsfEmit s n t mid) := by
  unfold State.dsfEmit
  repeat' (first
    | with_reducible assumption
    | (extract_lets +onlyGivenNames z; refine Keeps.cut (v := z) ?_ ?_ <;> [subst z; (intro _; clear_value z)])
    | extract_lets +onlyGivenNames z | with_reducible apply State.setDsf_keeps | with_reducible apply Keeps.foldlSnd
    | with_reducible apply Keeps.foldl | with_reducible apply Keeps.ite | with_reducible apply Keeps.iteSnd
    | with_reducible refine Keeps.ofEq ?_ (by assumption) | split
    | with_reducible refine Keeps.update ?_ rfl rfl rfl rfl rfl rfl rfl rfl | intro _ | dsimp only)

theorem State.dsfWindow_keeps {s0 : State} {s : State} (b : Fin 6) (c : Fin 8) (ck : Nat) (h : Keeps s0 s) : Keeps s0 (State.dsfWindow s b c ck) := by
  unfold State.dsfWindow
  repeat' (first
    | with_reducible assumption
    | (extract_lets +onlyGivenNames z; refine Keeps.cut (v := z) ?_ ?_ <;> [subst z; (intro _; clear_value z)])
    | extract_lets +onlyGivenNames z | with_reducible apply State.freshWord_keeps
    | with_reducible apply State.dsfWrite_keeps | with_reducible apply State.irqIf_keeps
    | with_reducible apply State.setDsf_keeps | with_reducible apply State.wr_keeps
    | with_reducible apply State.putBit_keeps | with_reducible apply State.irq_keeps
    | with_reducible apply State.cmpForced_keeps | with_reducible apply State.wrapBump_keeps
    | with_reducible apply State.sampleEvent_keeps | with_reducible apply State.leEmit_keeps
    | with_reducible apply Keeps.ite | with_reducible apply Keeps.iteSnd
    | with_reducible refine Keeps.ofEq ?_ (by assumption) | split
    | with_reducible refine Keeps.update ?_ rfl rfl rfl rfl rfl rfl rfl rfl | intro _ | dsimp only)

theorem State.dsfStart_keeps {s0 : State} {s : State} (b : Fin 6) (c : Fin 8) (h : Keeps s0 s) : Keeps s0 (State.dsfStart s b c) := by
  unfold State.dsfStart
  repeat' (first
    | with_reducible assumption
    | (extract_lets +onlyGivenNames z; refine Keeps.cut (v := z) ?_ ?_ <;> [subst z; (intro _; clear_value z)])
    | extract_lets +onlyGivenNames z | with_reducible apply State.setDsf_keeps | with_reducible apply State.wr_keeps
    | with_reducible apply State.putBit_keeps | with_reducible apply State.dsfSettle_keeps
    | with_reducible apply State.dsfBecomeInvalid_keeps | with_reducible apply State.cmpForced_keeps
    | with_reducible apply Keeps.ite | with_reducible apply Keeps.iteSnd
    | with_reducible refine Keeps.ofEq ?_ (by assumption) | split
    | with_reducible refine Keeps.update ?_ rfl rfl rfl rfl rfl rfl rfl rfl | intro _ | dsimp only)

theorem State.dsfNoClk_keeps {s0 : State} {s : State} (b : Fin 6) (h : Keeps s0 s) : Keeps s0 (State.dsfNoClk s b) := by
  unfold State.dsfNoClk
  repeat' (first
    | with_reducible assumption
    | (extract_lets +onlyGivenNames z; refine Keeps.cut (v := z) ?_ ?_ <;> [subst z; (intro _; clear_value z)])
    | extract_lets +onlyGivenNames z | with_reducible apply State.wr_keeps
    | with_reducible apply State.dsfBecomeInvalid_keeps | with_reducible apply State.irqIf_keeps
    | with_reducible apply State.cmpForced_keeps | with_reducible apply State.dsfApply_keeps
    | with_reducible apply Keeps.foldlSnd | with_reducible apply Keeps.foldl | with_reducible apply Keeps.ite
    | with_reducible apply Keeps.iteSnd | with_reducible refine Keeps.ofEq ?_ (by assumption) | split
    | with_reducible refine Keeps.update ?_ rfl rfl rfl rfl rfl rfl rfl rfl | intro _ | dsimp only)

theorem State.dsfLost_keeps {s0 : State} {s : State} (b : Fin 6) (h : Keeps s0 s) : Keeps s0 (State.dsfLost s b) := by
  unfold State.dsfLost
  repeat' (first
    | with_reducible assumption
    | (extract_lets +onlyGivenNames z; refine Keeps.cut (v := z) ?_ ?_ <;> [subst z; (intro _; clear_value z)])
    | extract_lets +onlyGivenNames z | with_reducible apply State.dsfNoClk_keeps | with_reducible apply Keeps.ite
    | with_reducible apply Keeps.iteSnd | with_reducible refine Keeps.ofEq ?_ (by assumption) | split
    | with_reducible refine Keeps.update ?_ rfl rfl rfl rfl rfl rfl rfl rfl | intro _ | dsimp only)

theorem State.dsfIdle_keeps {s0 : State} {s : State} (h : Keeps s0 s) : Keeps s0 (State.dsfIdle s) := by
  unfold State.dsfIdle
  repeat' (first
    | with_reducible assumption
    | (extract_lets +onlyGivenNames z; refine Keeps.cut (v := z) ?_ ?_ <;> [subst z; (intro _; clear_value z)])
    | extract_lets +onlyGivenNames z | with_reducible apply State.dsfApply_keeps | with_reducible apply Keeps.foldlSnd
    | with_reducible apply Keeps.foldl | with_reducible apply Keeps.ite | with_reducible apply Keeps.iteSnd
    | with_reducible refine Keeps.ofEq ?_ (by assumption) | split
    | with_reducible refine Keeps.update ?_ rfl rfl rfl rfl rfl rfl rfl rfl | intro _ | dsimp only)

theorem State.dsfClocks_keeps {s0 : State} {s : State} (h : Keeps s0 s) : Keeps s0 (State.dsfClocks s) := by
  unfold State.dsfClocks
  repeat' (first
    | with_reducible assumption
    | (extract_lets +onlyGivenNames z; refine Keeps.cut (v := z) ?_ ?_ <;> [subst z; (intro _; clear_value z)])
    | extract_lets +onlyGivenNames z | with_reducible apply State.dsfNoClk_keeps | with_reducible apply Keeps.foldlSnd
    | with_reducible apply Keeps.foldl | with_reducible apply Keeps.ite | with_reducible apply Keeps.iteSnd
    | with_reducible refine Keeps.ofEq ?_ (by assumption) | split
    | with_reducible refine Keeps.update ?_ rfl rfl rfl rfl rfl rfl rfl rfl | intro _ | dsimp only)

theorem State.dsfClockReturn_keeps {s0 : State} {s : State} (b : Fin 6) (h : Keeps s0 s) : Keeps s0 (State.dsfClockReturn s b) := by
  unfold State.dsfClockReturn
  repeat' (first
    | with_reducible assumption
    | (extract_lets +onlyGivenNames z; refine Keeps.cut (v := z) ?_ ?_ <;> [subst z; (intro _; clear_value z)])
    | extract_lets +onlyGivenNames z | with_reducible apply State.wr_keeps | with_reducible apply State.setDsf_keeps
    | with_reducible apply State.dsfSettle_keeps | with_reducible apply State.cmpForced_keeps
    | with_reducible apply Keeps.foldlSnd | with_reducible apply Keeps.foldl | with_reducible apply Keeps.ite
    | with_reducible apply Keeps.iteSnd | with_reducible refine Keeps.ofEq ?_ (by assumption) | split
    | with_reducible refine Keeps.update ?_ rfl rfl rfl rfl rfl rfl rfl rfl | intro _ | dsimp only)

theorem State.measureMode_keeps {s0 : State} {s : State} (h : Keeps s0 s) : Keeps s0 (State.measureMode s) := by
  unfold State.measureMode
  repeat' (first
    | with_reducible assumption
    | (extract_lets +onlyGivenNames z; refine Keeps.cut (v := z) ?_ ?_ <;> [subst z; (intro _; clear_value z)])
    | extract_lets +onlyGivenNames z | with_reducible apply State.dsfStart_keeps
    | with_reducible apply State.sarContinuous_keeps | with_reducible apply State.sarAbandon_keeps
    | with_reducible apply State.cmpForcedAll_keeps | with_reducible apply State.dsfApply_keeps
    | with_reducible apply State.dsfClocks_keeps | with_reducible apply State.dsfSync_keeps
    | with_reducible apply Keeps.foldlSnd | with_reducible apply Keeps.foldl | with_reducible apply Keeps.ite
    | with_reducible apply Keeps.iteSnd | with_reducible refine Keeps.ofEq ?_ (by assumption) | split
    | with_reducible refine Keeps.update ?_ rfl rfl rfl rfl rfl rfl rfl rfl | intro _ | dsimp only)

theorem State.dsfCommit_keeps {s0 : State} {s : State} (b : Fin 6) (h : Keeps s0 s) : Keeps s0 (State.dsfCommit s b) := by
  unfold State.dsfCommit
  repeat' (first
    | with_reducible assumption
    | (extract_lets +onlyGivenNames z; refine Keeps.cut (v := z) ?_ ?_ <;> [subst z; (intro _; clear_value z)])
    | extract_lets +onlyGivenNames z | with_reducible apply State.dsfApply_keeps
    | with_reducible apply State.dsfClocks_keeps | with_reducible apply Keeps.ite | with_reducible apply Keeps.iteSnd
    | with_reducible refine Keeps.ofEq ?_ (by assumption) | split
    | with_reducible refine Keeps.update ?_ rfl rfl rfl rfl rfl rfl rfl rfl | intro _ | dsimp only)

end Sys2Proof.Machine
end

