-- ==== Sys2Proof/Laws/KeepsPort.lean ====
section
/-!
SUPPORT. Laws/KeepsPort.lean: every operation of Machine/Port.lean keeps what `Keeps` says.
-/
namespace Sys2Proof.Machine

set_option linter.unusedTactic false
set_option linter.unreachableTactic false
set_option linter.unusedVariables false
set_option linter.tactic.unusedName false

theorem State.setPort_keeps {s0 : State} {s : State} (p : Fin 8) (u : PortUnit) (h : Keeps s0 s) : Keeps s0 (State.setPort s p u) := by
  unfold State.setPort
  repeat' (first
    | with_reducible assumption | with_reducible refine Keeps.update ?_ rfl rfl rfl rfl rfl rfl rfl rfl)

theorem State.setEnables_keeps {s0 : State} {s : State} (p : Fin 8) (a : Bool) (b : Bool) (h : Keeps s0 s) : Keeps s0 (State.setEnables s p a b) := by
  unfold State.setEnables
  repeat' (first
    | with_reducible assumption
    | (extract_lets +onlyGivenNames z; refine Keeps.cut (v := z) ?_ ?_ <;> [subst z; (intro _; clear_value z)])
    | extract_lets +onlyGivenNames z | with_reducible apply State.setFlag_keeps | with_reducible apply State.wrapBump_keeps
    | with_reducible apply State.setPort_keeps | with_reducible apply Keeps.ite | split
    | with_reducible refine Keeps.update ?_ rfl rfl rfl rfl rfl rfl rfl rfl | intro _ | dsimp only)

theorem State.portProgram_keeps {s0 : State} {s : State} (p : Fin 8) (old : Nat) (ph : Nat) (h : Keeps s0 s) : Keeps s0 (State.portProgram s p old ph) := by
  unfold State.portProgram
  repeat' (first
    | with_reducible assumption
    | (extract_lets +onlyGivenNames z; refine Keeps.cut (v := z) ?_ ?_ <;> [subst z; (intro _; clear_value z)])
    | extract_lets +onlyGivenNames z | with_reducible apply State.setLe_keeps | with_reducible apply State.leShow_keeps
    | with_reducible apply Keeps.ite | with_reducible apply Keeps.iteSnd
    | with_reducible refine Keeps.ofEq ?_ (by assumption) | split
    | with_reducible refine Keeps.update ?_ rfl rfl rfl rfl rfl rfl rfl rfl | intro _ | dsimp only)

theorem State.portEnter_keeps {s0 : State} {s : State} (p : Fin 8) (ph : Nat) (h : Keeps s0 s) : Keeps s0 (State.portEnter s p ph) := by
  unfold State.portEnter
  repeat' (first
    | with_reducible assumption
    | (extract_lets +onlyGivenNames z; refine Keeps.cut (v := z) ?_ ?_ <;> [subst z; (intro _; clear_value z)])
    | extract_lets +onlyGivenNames z | with_reducible apply State.wr_keeps | with_reducible apply State.setPort_keeps
    | with_reducible apply State.setEnables_keeps | with_reducible apply State.setFlag_keeps
    | with_reducible apply State.recheckDrive_keeps | with_reducible apply State.portProgram_keeps
    | with_reducible apply State.irqIf_keeps | with_reducible apply Keeps.ite | split
    | with_reducible refine Keeps.update ?_ rfl rfl rfl rfl rfl rfl rfl rfl | intro _ | dsimp only)

theorem State.portFault_keeps {s0 : State} {s : State} (p : Fin 8) (cause : Nat) (drop : Bool) (h : Keeps s0 s) : Keeps s0 (State.portFault s p cause drop) := by
  unfold State.portFault
  repeat' (first
    | with_reducible assumption
    | (extract_lets +onlyGivenNames z; refine Keeps.cut (v := z) ?_ ?_ <;> [subst z; (intro _; clear_value z)])
    | extract_lets +onlyGivenNames z | with_reducible apply State.wr_keeps | with_reducible apply State.bump_keeps
    | with_reducible apply State.irq_keeps | with_reducible apply State.portEnter_keeps
    | with_reducible apply State.setEnables_keeps | with_reducible apply State.setPort_keeps
    | with_reducible apply Keeps.ite | with_reducible apply Keeps.iteSnd
    | with_reducible refine Keeps.ofEq ?_ (by assumption) | split
    | with_reducible refine Keeps.update ?_ rfl rfl rfl rfl rfl rfl rfl rfl | intro _ | dsimp only)

theorem State.portStop_keeps {s0 : State} {s : State} (p : Fin 8) (cause : Nat) (h : Keeps s0 s) : Keeps s0 (State.portStop s p cause) := by
  unfold State.portStop
  repeat' (first
    | with_reducible assumption | with_reducible apply State.wr_keeps | with_reducible apply State.portEnter_keeps
    | with_reducible apply Keeps.ite | split | intro _)

theorem State.setPilot_keeps {s0 : State} {s : State} (p : Fin 8) (x : PilotChan) (h : Keeps s0 s) : Keeps s0 (State.setPilot s p x) := by
  unfold State.setPilot
  repeat' (first
    | with_reducible assumption | with_reducible refine Keeps.update ?_ rfl rfl rfl rfl rfl rfl rfl rfl)

theorem State.pilotForce_keeps {s0 : State} {s : State} (p : Fin 8) (h : Keeps s0 s) : Keeps s0 (State.pilotForce s p) := by
  unfold State.pilotForce
  repeat' (first
    | with_reducible assumption
    | (extract_lets +onlyGivenNames z; refine Keeps.cut (v := z) ?_ ?_ <;> [subst z; (intro _; clear_value z)])
    | extract_lets +onlyGivenNames z | with_reducible apply State.setPilot_keeps | with_reducible apply Keeps.ite
    | with_reducible apply Keeps.iteSnd | with_reducible refine Keeps.ofEq ?_ (by assumption) | split
    | with_reducible refine Keeps.update ?_ rfl rfl rfl rfl rfl rfl rfl rfl | intro _ | dsimp only)

theorem State.setSenseErr_keeps {s0 : State} {s : State} (p : Fin 8) (b : Bool) (h : Keeps s0 s) : Keeps s0 (State.setSenseErr s p b) := by
  unfold State.setSenseErr
  repeat' (first
    | with_reducible assumption | with_reducible apply State.setFlag_keeps | with_reducible apply State.putBit_keeps)

theorem State.pilotUnknown_keeps {s0 : State} {s : State} (p : Fin 8) (h : Keeps s0 s) : Keeps s0 (State.pilotUnknown s p) := by
  unfold State.pilotUnknown
  repeat' (first
    | with_reducible assumption
    | (extract_lets +onlyGivenNames z; refine Keeps.cut (v := z) ?_ ?_ <;> [subst z; (intro _; clear_value z)])
    | extract_lets +onlyGivenNames z | with_reducible apply State.wr_keeps | with_reducible apply State.setSenseErr_keeps
    | with_reducible apply State.setPilot_keeps | with_reducible refine Keeps.update ?_ rfl rfl rfl rfl rfl rfl rfl rfl
    | dsimp only)

theorem State.pilotShow_keeps {s0 : State} {s : State} (h : Keeps s0 s) : Keeps s0 (State.pilotShow s) := by
  unfold State.pilotShow
  repeat' (first
    | with_reducible assumption
    | (extract_lets +onlyGivenNames z; refine Keeps.cut (v := z) ?_ ?_ <;> [subst z; (intro _; clear_value z)])
    | extract_lets +onlyGivenNames z | with_reducible apply State.pilotUnknown_keeps
    | with_reducible apply Keeps.foldlSnd | with_reducible apply Keeps.foldl | with_reducible apply Keeps.ite
    | with_reducible apply Keeps.iteSnd | with_reducible refine Keeps.ofEq ?_ (by assumption) | split
    | with_reducible refine Keeps.update ?_ rfl rfl rfl rfl rfl rfl rfl rfl | intro _ | dsimp only)

theorem State.portFeedback_keeps {s0 : State} {s : State} (p : Fin 8) (h : Keeps s0 s) : Keeps s0 (State.portFeedback s p).2 := by
  unfold State.portFeedback
  repeat' (first
    | with_reducible assumption
    | (extract_lets +onlyGivenNames z; refine Keeps.cut (v := z) ?_ ?_ <;> [subst z; (intro _; clear_value z)])
    | extract_lets +onlyGivenNames z | with_reducible apply State.setPort_keeps | with_reducible apply Keeps.ite | split
    | with_reducible refine Keeps.update ?_ rfl rfl rfl rfl rfl rfl rfl rfl | intro _ | dsimp only)

theorem State.startCheck_keeps {s0 : State} {s : State} (p : Fin 8) (h : Keeps s0 s) : Keeps s0 (State.startCheck s p) := by
  unfold State.startCheck
  repeat' (first
    | with_reducible assumption
    | (extract_lets +onlyGivenNames z; refine Keeps.cut (v := z) ?_ ?_ <;> [subst z; (intro _; clear_value z)])
    | extract_lets +onlyGivenNames z | with_reducible apply State.wr_keeps | with_reducible apply State.setPort_keeps
    | with_reducible apply State.portEnter_keeps | with_reducible apply Keeps.ite | split
    | with_reducible refine Keeps.update ?_ rfl rfl rfl rfl rfl rfl rfl rfl | intro _ | dsimp only)

theorem State.portCommand_keeps {s0 : State} {s : State} (p : Fin 8) (code : Nat) (h : Keeps s0 s) : Keeps s0 (State.portCommand s p code).2 := by
  unfold State.portCommand
  repeat' (first
    | with_reducible assumption
    | (extract_lets +onlyGivenNames z; refine Keeps.cut (v := z) ?_ ?_ <;> [subst z; (intro _; clear_value z)])
    | extract_lets +onlyGivenNames z | with_reducible apply State.startCheck_keeps
    | with_reducible apply State.setPort_keeps | with_reducible apply State.portEnter_keeps
    | with_reducible apply State.wrapBump_keeps | with_reducible apply State.portStop_keeps
    | with_reducible apply State.portFault_keeps | with_reducible apply State.wr_keeps | with_reducible apply Keeps.ite
    | with_reducible apply Keeps.iteSnd | with_reducible refine Keeps.ofEq ?_ (by assumption) | split
    | with_reducible refine Keeps.update ?_ rfl rfl rfl rfl rfl rfl rfl rfl | intro _ | dsimp only)

theorem State.portProgress_keeps {s0 : State} {s : State} (p : Fin 8) (opened : Bool) (h : Keeps s0 s) : Keeps s0 (State.portProgress s p opened) := by
  unfold State.portProgress
  repeat' (first
    | with_reducible assumption
    | (extract_lets +onlyGivenNames z; refine Keeps.cut (v := z) ?_ ?_ <;> [subst z; (intro _; clear_value z)])
    | (extract_lets +onlyGivenNames z; subst z) | with_reducible apply State.portEnter_keeps
    | with_reducible apply State.setPort_keeps | with_reducible apply State.setEnables_keeps
    | with_reducible apply State.wr_keeps | with_reducible apply Keeps.ite | split
    | with_reducible refine Keeps.update ?_ rfl rfl rfl rfl rfl rfl rfl rfl | intro _ | dsimp only)

theorem State.portSetPoints_keeps {s0 : State} {s : State} (p : Fin 8) (h : Keeps s0 s) : Keeps s0 (State.portSetPoints s p) := by
  unfold State.portSetPoints
  repeat' (first
    | with_reducible assumption
    | (extract_lets +onlyGivenNames z; refine Keeps.cut (v := z) ?_ ?_ <;> [subst z; (intro _; clear_value z)])
    | extract_lets +onlyGivenNames z | with_reducible apply State.wr_keeps | with_reducible apply Keeps.ite
    | with_reducible apply Keeps.iteSnd | with_reducible refine Keeps.ofEq ?_ (by assumption) | split
    | with_reducible refine Keeps.update ?_ rfl rfl rfl rfl rfl rfl rfl rfl | intro _ | dsimp only)

theorem State.portShow_keeps {s0 : State} {s : State} (p : Fin 8) (rbA : Bool) (rbB : Bool) (h : Keeps s0 s) : Keeps s0 (State.portShow s p rbA rbB) := by
  unfold State.portShow
  repeat' (first
    | with_reducible assumption
    | (extract_lets +onlyGivenNames z; refine Keeps.cut (v := z) ?_ ?_ <;> [subst z; (intro _; clear_value z)])
    | extract_lets +onlyGivenNames z | with_reducible apply State.wr_keeps | with_reducible apply State.setFlag_keeps
    | with_reducible apply State.setPort_keeps | with_reducible apply Keeps.ite | split
    | with_reducible refine Keeps.update ?_ rfl rfl rfl rfl rfl rfl rfl rfl | intro _ | dsimp only)

theorem State.portCounts_keeps {s0 : State} {s : State} (p : Fin 8) (h : Keeps s0 s) : Keeps s0 (State.portCounts s p) := by
  unfold State.portCounts
  repeat' (first
    | with_reducible assumption
    | (extract_lets +onlyGivenNames z; refine Keeps.cut (v := z) ?_ ?_ <;> [subst z; (intro _; clear_value z)])
    | extract_lets +onlyGivenNames z | with_reducible apply State.wr_keeps | with_reducible apply State.setPort_keeps
    | with_reducible apply State.irq_keeps | with_reducible apply Keeps.ite | with_reducible apply Keeps.iteSnd
    | with_reducible refine Keeps.ofEq ?_ (by assumption) | split
    | with_reducible refine Keeps.update ?_ rfl rfl rfl rfl rfl rfl rfl rfl | intro _ | dsimp only)

theorem State.portFollow_keeps {s0 : State} {s : State} (p : Fin 8) (c : PortCopy) (h : Keeps s0 s) : Keeps s0 (State.portFollow s p c) := by
  unfold State.portFollow
  repeat' (first
    | with_reducible assumption
    | (extract_lets +onlyGivenNames z; refine Keeps.cut (v := z) ?_ ?_ <;> [subst z; (intro _; clear_value z)])
    | extract_lets +onlyGivenNames z | with_reducible apply State.portEnter_keeps
    | with_reducible apply State.setEnables_keeps | with_reducible apply State.setPort_keeps
    | with_reducible apply Keeps.ite | with_reducible apply Keeps.iteSnd
    | with_reducible refine Keeps.ofEq ?_ (by assumption) | split
    | with_reducible refine Keeps.update ?_ rfl rfl rfl rfl rfl rfl rfl rfl | intro _ | dsimp only)

theorem State.portCmdDrop_keeps {s0 : State} {s : State} (p : Fin 8) (h : Keeps s0 s) : Keeps s0 (State.portCmdDrop s p) := by
  unfold State.portCmdDrop
  repeat' (first
    | with_reducible assumption
    | (extract_lets +onlyGivenNames z; refine Keeps.cut (v := z) ?_ ?_ <;> [subst z; (intro _; clear_value z)])
    | extract_lets +onlyGivenNames z | with_reducible apply State.setPort_keeps
    | with_reducible apply State.cfgErr_keeps | with_reducible apply Keeps.ite | with_reducible apply Keeps.iteSnd
    | with_reducible refine Keeps.ofEq ?_ (by assumption) | split
    | with_reducible refine Keeps.update ?_ rfl rfl rfl rfl rfl rfl rfl rfl | intro _ | dsimp only)

theorem State.portStep_keeps {s0 : State} {s : State} (p : Fin 8) (rbA : Bool) (rbB : Bool) (h : Keeps s0 s) : Keeps s0 (State.portStep s p rbA rbB) := by
  unfold State.portStep
  repeat' (first
    | with_reducible assumption
    | (extract_lets +onlyGivenNames z; refine Keeps.cut (v := z) ?_ ?_ <;> [subst z; (intro _; clear_value z)])
    | extract_lets +onlyGivenNames z | with_reducible apply State.portShow_keeps
    | with_reducible apply State.portCmdDrop_keeps | with_reducible apply State.portEnter_keeps
    | with_reducible apply State.portCounts_keeps | with_reducible apply State.portFollow_keeps
    | with_reducible apply State.portFeedback_keeps | with_reducible apply State.wr_keeps
    | with_reducible apply State.setPort_keeps | with_reducible apply State.cfgErr_keeps
    | with_reducible apply State.portFault_keeps | with_reducible apply State.portCommand_keeps
    | with_reducible apply State.portStop_keeps | with_reducible apply State.portProgress_keeps
    | with_reducible apply State.portSetPoints_keeps | with_reducible apply Keeps.ite
    | with_reducible apply Keeps.iteSnd | with_reducible refine Keeps.ofEq ?_ (by assumption) | split
    | with_reducible refine Keeps.update ?_ rfl rfl rfl rfl rfl rfl rfl rfl | intro _ | dsimp only)

theorem State.portTick_keeps {s0 : State} {s : State} (rbA : BitVec 8) (rbB : BitVec 8) (h : Keeps s0 s) : Keeps s0 (State.portTick s rbA rbB) := by
  unfold State.portTick
  repeat' (first
    | with_reducible assumption
    | (extract_lets +onlyGivenNames z; refine Keeps.cut (v := z) ?_ ?_ <;> [subst z; (intro _; clear_value z)])
    | extract_lets +onlyGivenNames z | with_reducible apply State.boundary_keeps
    | with_reducible apply State.pilotShow_keeps | with_reducible apply State.portStep_keeps
    | with_reducible apply State.pilotForce_keeps | with_reducible apply Keeps.foldlSnd
    | with_reducible apply Keeps.foldl | with_reducible apply Keeps.ite | with_reducible apply Keeps.iteSnd
    | with_reducible refine Keeps.ofEq ?_ (by assumption) | split
    | with_reducible refine Keeps.update ?_ rfl rfl rfl rfl rfl rfl rfl rfl | intro _ | dsimp only)

theorem State.portTickAt_keeps {s0 : State} {s : State} (p : Fin 8) (f : PortUnit → PortUnit) (h : Keeps s0 s) : Keeps s0 (State.portTickAt s p f) := by
  unfold State.portTickAt
  repeat' (first
    | with_reducible assumption
    | (extract_lets +onlyGivenNames z; refine Keeps.cut (v := z) ?_ ?_ <;> [subst z; (intro _; clear_value z)])
    | extract_lets +onlyGivenNames z | with_reducible apply State.setPort_keeps
    | with_reducible apply State.portStep_keeps | with_reducible apply State.pilotForce_keeps
    | with_reducible apply Keeps.ite | with_reducible apply Keeps.iteSnd
    | with_reducible refine Keeps.ofEq ?_ (by assumption) | split
    | with_reducible refine Keeps.update ?_ rfl rfl rfl rfl rfl rfl rfl rfl | intro _ | dsimp only)

theorem State.chtestExpiry_keeps {s0 : State} {s : State} (p : Fin 8) (h : Keeps s0 s) : Keeps s0 (State.chtestExpiry s p) := by
  unfold State.chtestExpiry
  repeat' (first
    | with_reducible assumption
    | (extract_lets +onlyGivenNames z; refine Keeps.cut (v := z) ?_ ?_ <;> [subst z; (intro _; clear_value z)])
    | extract_lets +onlyGivenNames z | with_reducible apply State.portTickAt_keeps | with_reducible apply Keeps.ite | split
    | with_reducible refine Keeps.update ?_ rfl rfl rfl rfl rfl rfl rfl rfl | intro _ | dsimp only)

theorem State.closeDeadline_keeps {s0 : State} {s : State} (p : Fin 8) (h : Keeps s0 s) : Keeps s0 (State.closeDeadline s p) := by
  unfold State.closeDeadline
  repeat' (first
    | with_reducible assumption | with_reducible apply State.portTickAt_keeps | with_reducible apply Keeps.ite | split
    | with_reducible refine Keeps.update ?_ rfl rfl rfl rfl rfl rfl rfl rfl | intro _ | dsimp only)

theorem State.openDeadline_keeps {s0 : State} {s : State} (p : Fin 8) (h : Keeps s0 s) : Keeps s0 (State.openDeadline s p) := by
  unfold State.openDeadline
  repeat' (first
    | with_reducible assumption | with_reducible apply State.portTickAt_keeps | with_reducible apply Keeps.ite | split
    | with_reducible refine Keeps.update ?_ rfl rfl rfl rfl rfl rfl rfl rfl | intro _ | dsimp only)

theorem State.voltageMatchHold_keeps {s0 : State} {s : State} (p : Fin 8) (h : Keeps s0 s) : Keeps s0 (State.voltageMatchHold s p) := by
  unfold State.voltageMatchHold
  repeat' (first
    | with_reducible assumption | with_reducible apply State.portTickAt_keeps | with_reducible apply Keeps.ite | split
    | with_reducible refine Keeps.update ?_ rfl rfl rfl rfl rfl rfl rfl rfl | intro _ | dsimp only)

theorem State.ccHoldExpiry_keeps {s0 : State} {s : State} (p : Fin 8) (h : Keeps s0 s) : Keeps s0 (State.ccHoldExpiry s p) := by
  unfold State.ccHoldExpiry
  repeat' (first
    | with_reducible assumption | with_reducible apply State.portTickAt_keeps | with_reducible apply Keeps.ite | split
    | with_reducible refine Keeps.update ?_ rfl rfl rfl rfl rfl rfl rfl rfl | intro _ | dsimp only)

theorem State.ccDeadline_keeps {s0 : State} {s : State} (p : Fin 8) (h : Keeps s0 s) : Keeps s0 (State.ccDeadline s p) := by
  unfold State.ccDeadline
  repeat' (first
    | with_reducible assumption | with_reducible apply State.portTickAt_keeps | with_reducible apply Keeps.ite | split
    | with_reducible refine Keeps.update ?_ rfl rfl rfl rfl rfl rfl rfl rfl | intro _ | dsimp only)

theorem State.preDeadline_keeps {s0 : State} {s : State} (p : Fin 8) (h : Keeps s0 s) : Keeps s0 (State.preDeadline s p) := by
  unfold State.preDeadline
  repeat' (first
    | with_reducible assumption | with_reducible apply State.portTickAt_keeps | with_reducible apply Keeps.ite
    | with_reducible refine Keeps.ofEq ?_ (by assumption) | split
    | with_reducible refine Keeps.update ?_ rfl rfl rfl rfl rfl rfl rfl rfl | intro _ | dsimp only)

theorem State.stopDeadline_keeps {s0 : State} {s : State} (p : Fin 8) (h : Keeps s0 s) : Keeps s0 (State.stopDeadline s p) := by
  unfold State.stopDeadline
  repeat' (first
    | with_reducible assumption | with_reducible apply State.portTickAt_keeps | with_reducible apply Keeps.ite | split
    | with_reducible refine Keeps.update ?_ rfl rfl rfl rfl rfl rfl rfl rfl | intro _ | dsimp only)

theorem State.weldDeadline_keeps {s0 : State} {s : State} (p : Fin 8) (h : Keeps s0 s) : Keeps s0 (State.weldDeadline s p) := by
  unfold State.weldDeadline
  repeat' (first
    | with_reducible assumption | with_reducible apply State.portTickAt_keeps | with_reducible apply Keeps.ite | split
    | with_reducible refine Keeps.update ?_ rfl rfl rfl rfl rfl rfl rfl rfl | intro _ | dsimp only)

theorem State.openDelayExpiry_keeps {s0 : State} {s : State} (p : Fin 8) (h : Keeps s0 s) : Keeps s0 (State.openDelayExpiry s p) := by
  unfold State.openDelayExpiry
  repeat' (first
    | with_reducible assumption | with_reducible apply State.portTickAt_keeps | with_reducible apply Keeps.ite | split
    | with_reducible refine Keeps.update ?_ rfl rfl rfl rfl rfl rfl rfl rfl | intro _ | dsimp only)

theorem State.isoHold_keeps {s0 : State} {s : State} (p : Fin 8) (h : Keeps s0 s) : Keeps s0 (State.isoHold s p) := by
  unfold State.isoHold
  repeat' (first
    | with_reducible assumption | with_reducible apply State.portTickAt_keeps | with_reducible apply Keeps.ite | split
    | with_reducible refine Keeps.update ?_ rfl rfl rfl rfl rfl rfl rfl rfl | intro _ | dsimp only)

theorem State.plugHold_keeps {s0 : State} {s : State} (p : Fin 8) (h : Keeps s0 s) : Keeps s0 (State.plugHold s p) := by
  unfold State.plugHold
  repeat' (first
    | with_reducible assumption | with_reducible apply State.portTickAt_keeps | with_reducible apply Keeps.ite | split
    | with_reducible refine Keeps.update ?_ rfl rfl rfl rfl rfl rfl rfl rfl | intro _ | dsimp only)

theorem State.portCmd_keeps {s0 : State} {s : State} (ini : Initiator) (p : Fin 8) (code : Nat) (h : Keeps s0 s) : Keeps s0 (State.portCmd s ini p code) := by
  unfold State.portCmd
  repeat' (first
    | with_reducible assumption | with_reducible apply State.setPort_keeps
    | with_reducible refine Keeps.update ?_ rfl rfl rfl rfl rfl rfl rfl rfl)

theorem State.portRefuseNow_keeps {s0 : State} {s : State} (p : Fin 8) (h : Keeps s0 s) : Keeps s0 (State.portRefuseNow s p) := by
  unfold State.portRefuseNow
  repeat' (first
    | with_reducible assumption
    | (extract_lets +onlyGivenNames z; refine Keeps.cut (v := z) ?_ ?_ <;> [subst z; (intro _; clear_value z)])
    | extract_lets +onlyGivenNames z | with_reducible apply State.portCmdDrop_keeps | with_reducible apply Keeps.ite
    | with_reducible apply Keeps.iteSnd | with_reducible refine Keeps.ofEq ?_ (by assumption) | split
    | with_reducible refine Keeps.update ?_ rfl rfl rfl rfl rfl rfl rfl rfl | intro _ | dsimp only)

theorem State.portMode_keeps {s0 : State} {s : State} (p : Fin 8) (h : Keeps s0 s) : Keeps s0 (State.portMode s p) := by
  unfold State.portMode
  repeat' (first
    | with_reducible assumption
    | (extract_lets +onlyGivenNames z; refine Keeps.cut (v := z) ?_ ?_ <;> [subst z; (intro _; clear_value z)])
    | extract_lets +onlyGivenNames z | with_reducible apply State.setPort_keeps
    | with_reducible apply State.setEnables_keeps | with_reducible apply State.portRefuseNow_keeps
    | with_reducible apply State.portFault_keeps | with_reducible apply State.portEnter_keeps
    | with_reducible apply Keeps.ite | with_reducible apply Keeps.iteSnd
    | with_reducible refine Keeps.ofEq ?_ (by assumption) | split
    | with_reducible refine Keeps.update ?_ rfl rfl rfl rfl rfl rfl rfl rfl | intro _ | dsimp only)

theorem State.portModes_keeps {s0 : State} {s : State} (h : Keeps s0 s) : Keeps s0 (State.portModes s) := by
  unfold State.portModes
  repeat' (first
    | with_reducible assumption | with_reducible apply State.portMode_keeps | with_reducible apply Keeps.foldl
    | with_reducible apply Keeps.foldlSnd | intro _ | dsimp only)

theorem State.genWrite_keeps {s0 : State} {s : State} (p : Fin 8) (v : Nat) (h : Keeps s0 s) : Keeps s0 (State.genWrite s p v) := by
  unfold State.genWrite
  repeat' (first
    | with_reducible assumption
    | (extract_lets +onlyGivenNames z; refine Keeps.cut (v := z) ?_ ?_ <;> [subst z; (intro _; clear_value z)])
    | extract_lets +onlyGivenNames z | with_reducible apply State.setPilot_keeps | with_reducible apply Keeps.ite
    | with_reducible apply Keeps.iteSnd | with_reducible refine Keeps.ofEq ?_ (by assumption) | split
    | with_reducible refine Keeps.update ?_ rfl rfl rfl rfl rfl rfl rfl rfl | intro _ | dsimp only)

theorem State.pilotBegin_keeps {s0 : State} {s : State} (p : Fin 8) (h : Keeps s0 s) : Keeps s0 (State.pilotBegin s p) := by
  unfold State.pilotBegin
  repeat' (first
    | with_reducible assumption
    | (extract_lets +onlyGivenNames z; refine Keeps.cut (v := z) ?_ ?_ <;> [subst z; (intro _; clear_value z)])
    | extract_lets +onlyGivenNames z | with_reducible apply State.setPilot_keeps | with_reducible apply Keeps.ite
    | with_reducible apply Keeps.iteSnd | with_reducible refine Keeps.ofEq ?_ (by assumption) | split
    | with_reducible refine Keeps.update ?_ rfl rfl rfl rfl rfl rfl rfl rfl | intro _ | dsimp only)

theorem State.takeGen_keeps {s0 : State} {s : State} (p : Fin 8) (h : Keeps s0 s) : Keeps s0 (State.takeGen s p) := by
  unfold State.takeGen
  repeat' (first
    | with_reducible assumption
    | (extract_lets +onlyGivenNames z; refine Keeps.cut (v := z) ?_ ?_ <;> [subst z; (intro _; clear_value z)])
    | extract_lets +onlyGivenNames z | with_reducible apply State.setPilot_keeps | with_reducible apply State.wr_keeps
    | with_reducible apply Keeps.ite | with_reducible apply Keeps.iteSnd
    | with_reducible refine Keeps.ofEq ?_ (by assumption) | split
    | with_reducible refine Keeps.update ?_ rfl rfl rfl rfl rfl rfl rfl rfl | intro _ | dsimp only)

theorem State.pilotStart_keeps {s0 : State} {s : State} (h : Keeps s0 s) : Keeps s0 (State.pilotStart s) := by
  unfold State.pilotStart
  repeat' (first
    | with_reducible assumption
    | (extract_lets +onlyGivenNames z; refine Keeps.cut (v := z) ?_ ?_ <;> [subst z; (intro _; clear_value z)])
    | extract_lets +onlyGivenNames z | with_reducible apply State.takeGen_keeps
    | with_reducible apply State.pilotBegin_keeps | with_reducible apply Keeps.foldlSnd
    | with_reducible apply Keeps.foldl | with_reducible apply Keeps.ite | with_reducible apply Keeps.iteSnd
    | with_reducible refine Keeps.ofEq ?_ (by assumption) | split
    | with_reducible refine Keeps.update ?_ rfl rfl rfl rfl rfl rfl rfl rfl | intro _ | dsimp only)

theorem State.pilotSample_keeps {s0 : State} {s : State} (u : Fin 6) (code : BitVec 12) (hi lo : BitVec 8) (h : Keeps s0 s) : Keeps s0 (State.pilotSample s u code hi lo) := by
  unfold State.pilotSample
  repeat' (first
    | with_reducible assumption
    | (extract_lets +onlyGivenNames z; refine Keeps.cut (v := z) ?_ ?_ <;> [subst z; (intro _; clear_value z)])
    | extract_lets +onlyGivenNames z | with_reducible apply State.settle_keeps
    | with_reducible apply State.setPilot_keeps | with_reducible apply Keeps.foldlSnd | with_reducible apply Keeps.foldl
    | with_reducible apply Keeps.ite | with_reducible apply Keeps.iteSnd
    | with_reducible refine Keeps.ofEq ?_ (by assumption) | split
    | with_reducible refine Keeps.update ?_ rfl rfl rfl rfl rfl rfl rfl rfl | intro _ | dsimp only)

theorem State.pilotAccept_keeps {s0 : State} {s : State} (p : Fin 8) (st : Nat) (h : Keeps s0 s) : Keeps s0 (State.pilotAccept s p st) := by
  unfold State.pilotAccept
  repeat' (first
    | with_reducible assumption
    | (extract_lets +onlyGivenNames z; refine Keeps.cut (v := z) ?_ ?_ <;> [subst z; (intro _; clear_value z)])
    | extract_lets +onlyGivenNames z | with_reducible apply State.wr_keeps | with_reducible apply State.irq_keeps
    | with_reducible apply State.setPilot_keeps | with_reducible apply Keeps.ite | split
    | with_reducible refine Keeps.update ?_ rfl rfl rfl rfl rfl rfl rfl rfl | intro _ | dsimp only)

theorem State.pilotPeriod_keeps {s0 : State} {s : State} (p : Fin 8) (h : Keeps s0 s) : Keeps s0 (State.pilotPeriod s p) := by
  unfold State.pilotPeriod
  repeat' (first
    | with_reducible assumption
    | (extract_lets +onlyGivenNames z; refine Keeps.cut (v := z) ?_ ?_ <;> [subst z; (intro _; clear_value z)])
    | extract_lets +onlyGivenNames z | with_reducible apply State.pilotUnknown_keeps
    | with_reducible apply State.wr_keeps | with_reducible apply State.setPilot_keeps
    | with_reducible apply State.blank_keeps | with_reducible apply State.setSenseErr_keeps
    | with_reducible apply State.pilotAccept_keeps | with_reducible apply State.irq_keeps
    | with_reducible apply State.held_keeps | with_reducible apply Keeps.ite | with_reducible apply Keeps.iteSnd
    | with_reducible refine Keeps.ofEq ?_ (by assumption) | split
    | with_reducible refine Keeps.update ?_ rfl rfl rfl rfl rfl rfl rfl rfl | intro _ | dsimp only)

theorem State.pilotEnd_keeps {s0 : State} {s : State} (h : Keeps s0 s) : Keeps s0 (State.pilotEnd s) := by
  unfold State.pilotEnd
  repeat' (first
    | with_reducible assumption | with_reducible apply State.pilotPeriod_keeps | with_reducible apply Keeps.foldl
    | with_reducible apply Keeps.foldlSnd | intro _ | dsimp only)

theorem State.pilotModes_keeps {s0 : State} {s : State} (h : Keeps s0 s) : Keeps s0 (State.pilotModes s) := by
  unfold State.pilotModes
  repeat' (first
    | with_reducible assumption
    | (extract_lets +onlyGivenNames z; refine Keeps.cut (v := z) ?_ ?_ <;> [subst z; (intro _; clear_value z)])
    | extract_lets +onlyGivenNames z | with_reducible apply State.pilotForce_keeps
    | with_reducible apply State.pilotShow_keeps | with_reducible apply Keeps.foldlSnd
    | with_reducible apply Keeps.foldl | with_reducible apply Keeps.ite | with_reducible apply Keeps.iteSnd
    | with_reducible refine Keeps.ofEq ?_ (by assumption) | split
    | with_reducible refine Keeps.update ?_ rfl rfl rfl rfl rfl rfl rfl rfl | intro _ | dsimp only)

end Sys2Proof.Machine
end

