-- ==== Sys2Proof/Laws/KeepsMetro.lean ====
section
/-!
SUPPORT. Laws/KeepsMetro.lean: every operation of Machine/Metro.lean keeps what `Keeps` says.
-/
namespace Sys2Proof.Machine

set_option linter.unusedTactic false
set_option linter.unreachableTactic false
set_option linter.unusedVariables false
set_option linter.tactic.unusedName false

theorem State.setMeter_keeps {s0 : State} {s : State} (m : Fin 9) (x : Meter) (h : Keeps s0 s) : Keeps s0 (State.setMeter s m x) := by
  unfold State.setMeter
  repeat' (first
    | with_reducible assumption | with_reducible refine Keeps.update ?_ rfl rfl rfl rfl rfl rfl rfl rfl)

theorem State.meterMeans_keeps {s0 : State} {s : State} (m : Fin 9) (h : Keeps s0 s) : Keeps s0 (State.meterMeans s m) := by
  unfold State.meterMeans
  repeat' (first
    | with_reducible assumption
    | (extract_lets +onlyGivenNames z; refine Keeps.cut (v := z) ?_ ?_ <;> [subst z; (intro _; clear_value z)])
    | (extract_lets +onlyGivenNames z; subst z) | with_reducible apply State.wr_keeps | with_reducible apply Keeps.ite | split
    | intro _ | dsimp only)

theorem State.sessSample_keeps {s0 : State} {s : State} (m : Fin 9) (f : Session → Session) (h : Keeps s0 s) : Keeps s0 (State.sessSample s m f) := by
  unfold State.sessSample
  repeat' (first
    | with_reducible assumption
    | (extract_lets +onlyGivenNames z; refine Keeps.cut (v := z) ?_ ?_ <;> [subst z; (intro _; clear_value z)])
    | extract_lets +onlyGivenNames z | with_reducible apply State.setMeter_keeps | with_reducible apply Keeps.ite
    | with_reducible apply Keeps.iteSnd | with_reducible refine Keeps.ofEq ?_ (by assumption) | split
    | with_reducible refine Keeps.update ?_ rfl rfl rfl rfl rfl rfl rfl rfl | intro _ | dsimp only)

theorem State.meterMissed_keeps {s0 : State} {s : State} (m : Fin 9) (h : Keeps s0 s) : Keeps s0 (State.meterMissed s m) := by
  unfold State.meterMissed
  repeat' (first
    | with_reducible assumption
    | (extract_lets +onlyGivenNames z; refine Keeps.cut (v := z) ?_ ?_ <;> [subst z; (intro _; clear_value z)])
    | extract_lets +onlyGivenNames z | with_reducible apply State.sessSample_keeps | with_reducible apply Keeps.ite
    | with_reducible apply Keeps.iteSnd | with_reducible refine Keeps.ofEq ?_ (by assumption) | split
    | with_reducible refine Keeps.update ?_ rfl rfl rfl rfl rfl rfl rfl rfl | intro _ | dsimp only)

theorem State.meterSample_keeps {s0 : State} {s : State} (m : Fin 9) (h : Keeps s0 s) : Keeps s0 (State.meterSample s m) := by
  unfold State.meterSample
  repeat' (first
    | with_reducible assumption
    | (extract_lets +onlyGivenNames z; refine Keeps.cut (v := z) ?_ ?_ <;> [subst z; (intro _; clear_value z)])
    | extract_lets +onlyGivenNames z | with_reducible apply State.setFlag_keeps | with_reducible apply State.irqIf_keeps
    | with_reducible apply State.meterMissed_keeps | with_reducible apply State.freshWord_keeps
    | with_reducible apply State.sessSample_keeps | with_reducible apply State.setMeter_keeps
    | with_reducible apply State.meterMeans_keeps | with_reducible apply Keeps.foldlSnd
    | with_reducible apply Keeps.foldl | with_reducible apply Keeps.ite | with_reducible apply Keeps.iteSnd
    | with_reducible refine Keeps.ofEq ?_ (by assumption) | split
    | with_reducible refine Keeps.update ?_ rfl rfl rfl rfl rfl rfl rfl rfl | intro _ | dsimp only)

theorem State.pantryShow_keeps {s0 : State} {s : State} (h : Keeps s0 s) : Keeps s0 (State.pantryShow s) := by
  unfold State.pantryShow
  repeat' (first
    | with_reducible assumption
    | (extract_lets +onlyGivenNames z; refine Keeps.cut (v := z) ?_ ?_ <;> [subst z; (intro _; clear_value z)])
    | extract_lets +onlyGivenNames z | with_reducible apply State.setFlag_keeps | with_reducible apply State.irqIf_keeps
    | with_reducible apply State.wr_keeps | with_reducible apply State.wr64_keeps | with_reducible apply Keeps.foldlSnd
    | with_reducible apply Keeps.foldl | with_reducible apply Keeps.ite | with_reducible apply Keeps.iteSnd
    | with_reducible refine Keeps.ofEq ?_ (by assumption) | split
    | with_reducible refine Keeps.update ?_ rfl rfl rfl rfl rfl rfl rfl rfl | intro _ | dsimp only)

theorem State.trustShow_keeps {s0 : State} {s : State} (h : Keeps s0 s) : Keeps s0 (State.trustShow s) := by
  unfold State.trustShow
  repeat' (first
    | with_reducible assumption
    | (extract_lets +onlyGivenNames z; refine Keeps.cut (v := z) ?_ ?_ <;> [subst z; (intro _; clear_value z)])
    | extract_lets +onlyGivenNames z | with_reducible apply State.setFlag_keeps | with_reducible apply State.irqIf_keeps
    | dsimp only)

theorem State.calShow_keeps {s0 : State} {s : State} (h : Keeps s0 s) : Keeps s0 (State.calShow s) := by
  unfold State.calShow
  repeat' (first
    | with_reducible assumption
    | (extract_lets +onlyGivenNames z; refine Keeps.cut (v := z) ?_ ?_ <;> [subst z; (intro _; clear_value z)])
    | extract_lets +onlyGivenNames z | with_reducible apply State.setFlag_keeps | with_reducible apply State.wr_keeps
    | with_reducible apply Keeps.foldl | with_reducible apply Keeps.foldlSnd | intro _ | dsimp only)

theorem State.epochShow_keeps {s0 : State} {s : State} (h : Keeps s0 s) : Keeps s0 (State.epochShow s) := by
  unfold State.epochShow
  repeat' (first
    | with_reducible assumption | with_reducible apply State.wr_keeps)

theorem State.pushRec_keeps {s0 : State} {s : State} (r : PendRec) (h : Keeps s0 s) : Keeps s0 (State.pushRec s r) := by
  unfold State.pushRec
  repeat' (first
    | with_reducible assumption | with_reducible apply State.pantryShow_keeps
    | with_reducible refine Keeps.update ?_ rfl rfl rfl rfl rfl rfl rfl rfl)

theorem State.sessionBegin_keeps {s0 : State} {s : State} (m : Fin 9) (id : Nat) (h : Keeps s0 s) : Keeps s0 (State.sessionBegin s m id) := by
  unfold State.sessionBegin
  repeat' (first
    | with_reducible assumption
    | (extract_lets +onlyGivenNames z; refine Keeps.cut (v := z) ?_ ?_ <;> [subst z; (intro _; clear_value z)])
    | extract_lets +onlyGivenNames z | with_reducible apply State.setMeter_keeps
    | with_reducible apply State.pushRec_keeps | with_reducible apply Keeps.ite | with_reducible apply Keeps.iteSnd
    | with_reducible refine Keeps.ofEq ?_ (by assumption) | split
    | with_reducible refine Keeps.update ?_ rfl rfl rfl rfl rfl rfl rfl rfl | intro _ | dsimp only)

theorem State.sessionEnd_keeps {s0 : State} {s : State} (m : Fin 9) (cause : Nat) (cmd : Bool) (h : Keeps s0 s) : Keeps s0 (State.sessionEnd s m cause cmd) := by
  unfold State.sessionEnd
  repeat' (first
    | with_reducible assumption
    | (extract_lets +onlyGivenNames z; refine Keeps.cut (v := z) ?_ ?_ <;> [subst z; (intro _; clear_value z)])
    | extract_lets +onlyGivenNames z | with_reducible apply State.setMeter_keeps
    | with_reducible apply State.pushRec_keeps | with_reducible apply Keeps.ite | with_reducible apply Keeps.iteSnd
    | with_reducible refine Keeps.ofEq ?_ (by assumption) | split
    | with_reducible refine Keeps.update ?_ rfl rfl rfl rfl rfl rfl rfl rfl | intro _ | dsimp only)

theorem State.readingRec_keeps {s0 : State} {s : State} (m : Fin 9) (id : Nat) (h : Keeps s0 s) : Keeps s0 (State.readingRec s m id) := by
  unfold State.readingRec
  repeat' (first
    | with_reducible assumption
    | (extract_lets +onlyGivenNames z; refine Keeps.cut (v := z) ?_ ?_ <;> [subst z; (intro _; clear_value z)])
    | extract_lets +onlyGivenNames z | with_reducible apply State.setMeter_keeps
    | with_reducible apply State.pushRec_keeps | with_reducible apply Keeps.ite | with_reducible apply Keeps.iteSnd
    | with_reducible refine Keeps.ofEq ?_ (by assumption) | split
    | with_reducible refine Keeps.update ?_ rfl rfl rfl rfl rfl rfl rfl rfl | intro _ | dsimp only)

theorem State.putSlot_keeps {s0 s : State} (c : Nat) (bs : List Byte) (h : Keeps s0 s) : Keeps s0 (s.putSlot c bs) :=
  h.stores rfl rfl fun k => { k with pantry := Store.wf_foldl_put _ _ _ k.pantry }

theorem State.pantryDone_keeps {s0 : State} {s : State} (result : Nat) (h : Keeps s0 s) : Keeps s0 (State.pantryDone s result) := by
  unfold State.pantryDone
  repeat' (first
    | with_reducible assumption | with_reducible apply State.wr_keeps | with_reducible apply State.irq_keeps)

theorem State.storeSession_keeps {s0 : State} {s : State} (r : PendRec) (h : Keeps s0 s) : Keeps s0 (State.storeSession s r) := by
  unfold State.storeSession
  repeat' (first
    | with_reducible assumption
    | (extract_lets +onlyGivenNames z; refine Keeps.cut (v := z) ?_ ?_ <;> [subst z; (intro _; clear_value z)])
    | extract_lets +onlyGivenNames z | with_reducible apply State.setMeter_keeps | with_reducible apply Keeps.ite | split
    | with_reducible refine Keeps.update ?_ rfl rfl rfl rfl rfl rfl rfl rfl | intro _ | dsimp only)

theorem State.undoRec_keeps {s0 : State} {s : State} (r : PendRec) (h : Keeps s0 s) : Keeps s0 (State.undoRec s r) := by
  unfold State.undoRec
  repeat' (first
    | with_reducible assumption
    | (extract_lets +onlyGivenNames z; refine Keeps.cut (v := z) ?_ ?_ <;> [subst z; (intro _; clear_value z)])
    | extract_lets +onlyGivenNames z | with_reducible apply State.setMeter_keeps | with_reducible apply Keeps.ite
    | with_reducible apply Keeps.iteSnd | with_reducible refine Keeps.ofEq ?_ (by assumption) | split
    | with_reducible refine Keeps.update ?_ rfl rfl rfl rfl rfl rfl rfl rfl | intro _ | dsimp only)

theorem State.dropRecs_keeps {s0 : State} {s : State} (kept : Nat) (result : Nat) (h : Keeps s0 s) : Keeps s0 (State.dropRecs s kept result) := by
  unfold State.dropRecs
  repeat' (first
    | with_reducible assumption
    | (extract_lets +onlyGivenNames z; refine Keeps.cut (v := z) ?_ ?_ <;> [subst z; (intro _; clear_value z)])
    | extract_lets +onlyGivenNames z | with_reducible apply State.undoRec_keeps
    | with_reducible apply State.pantryDone_keeps | with_reducible apply Keeps.foldlSnd
    | with_reducible apply Keeps.foldl | with_reducible apply Keeps.ite | with_reducible apply Keeps.iteSnd
    | with_reducible refine Keeps.ofEq ?_ (by assumption) | split
    | with_reducible refine Keeps.update ?_ rfl rfl rfl rfl rfl rfl rfl rfl | intro _ | dsimp only)

theorem State.discardRecs_keeps {s0 : State} {s : State} (kept : Nat) (h : Keeps s0 s) : Keeps s0 (State.discardRecs s kept) := by
  unfold State.discardRecs
  repeat' (first
    | with_reducible assumption
    | (extract_lets +onlyGivenNames z; refine Keeps.cut (v := z) ?_ ?_ <;> [subst z; (intro _; clear_value z)])
    | extract_lets +onlyGivenNames z | with_reducible apply State.freshWord_keeps
    | with_reducible apply State.dropRecs_keeps | with_reducible apply Keeps.ite | with_reducible apply Keeps.iteSnd
    | with_reducible refine Keeps.ofEq ?_ (by assumption) | split
    | with_reducible refine Keeps.update ?_ rfl rfl rfl rfl rfl rfl rfl rfl | intro _ | dsimp only)

theorem State.recordStore_keeps {s0 : State} {s : State} (r : PendRec) (rest : List PendRec) (h : Keeps s0 s) : Keeps s0 (State.recordStore s r rest) := by
  unfold State.recordStore
  repeat' (first
    | with_reducible assumption
    | (extract_lets +onlyGivenNames z; refine Keeps.cut (v := z) ?_ ?_ <;> [subst z; (intro _; clear_value z)])
    | extract_lets +onlyGivenNames z | with_reducible apply State.putSlot_keeps | with_reducible apply State.wr_keeps
    | with_reducible apply State.storeSession_keeps | with_reducible apply State.irq_keeps
    | with_reducible apply State.wr64_keeps | with_reducible apply State.pantryDone_keeps
    | with_reducible apply State.pantryShow_keeps | with_reducible apply Keeps.ite | with_reducible apply Keeps.iteSnd
    | with_reducible refine Keeps.ofEq ?_ (by assumption) | split
    | with_reducible refine Keeps.update ?_ rfl rfl rfl rfl rfl rfl rfl rfl | intro _ | dsimp only)

theorem State.loseRecs_keeps {s0 : State} : ∀ (k : Nat) {s : State}, Keeps s0 s → Keeps s0 (s.loseRecs k)
  | 0, _, h => h
  | k + 1, s, h => by
    unfold State.loseRecs
    split
    · exact h
    · split
      · refine State.loseRecs_keeps k (State.pantryShow_keeps (State.storeSession_keeps _ (State.wrapBump_keeps _ _ _ ?_)))
        exact h.update rfl rfl rfl rfl rfl rfl rfl rfl
      · exact h

theorem State.restoreEnd_keeps {s0 : State} {s : State} (h : Keeps s0 s) : Keeps s0 (State.restoreEnd s) := by
  unfold State.restoreEnd
  repeat' (first
    | with_reducible assumption
    | (extract_lets +onlyGivenNames z; refine Keeps.cut (v := z) ?_ ?_ <;> [subst z; (intro _; clear_value z)])
    | extract_lets +onlyGivenNames z | with_reducible apply State.loseRecs_keeps | with_reducible apply State.wr_keeps
    | with_reducible apply State.pantryShow_keeps | with_reducible apply Keeps.ite | with_reducible apply Keeps.iteSnd
    | with_reducible refine Keeps.ofEq ?_ (by assumption) | split
    | with_reducible refine Keeps.update ?_ rfl rfl rfl rfl rfl rfl rfl rfl | intro _ | dsimp only)

theorem State.writeFault_keeps {s0 : State} {s : State} (h : Keeps s0 s) : Keeps s0 (State.writeFault s) := by
  unfold State.writeFault
  repeat' (first
    | with_reducible assumption
    | (extract_lets +onlyGivenNames z; refine Keeps.cut (v := z) ?_ ?_ <;> [subst z; (intro _; clear_value z)])
    | extract_lets +onlyGivenNames z | with_reducible apply State.wr_keeps | with_reducible apply State.bump_keeps
    | with_reducible apply State.irq_keeps | with_reducible apply Keeps.ite | with_reducible apply Keeps.iteSnd
    | with_reducible refine Keeps.ofEq ?_ (by assumption) | split
    | with_reducible refine Keeps.update ?_ rfl rfl rfl rfl rfl rfl rfl rfl | intro _ | dsimp only)

theorem State.recordFailed_keeps {s0 : State} {s : State} (r : PendRec) (rest : List PendRec) (h : Keeps s0 s) : Keeps s0 (State.recordFailed s r rest) := by
  unfold State.recordFailed
  repeat' (first
    | with_reducible assumption
    | (extract_lets +onlyGivenNames z; refine Keeps.cut (v := z) ?_ ?_ <;> [subst z; (intro _; clear_value z)])
    | extract_lets +onlyGivenNames z | with_reducible apply State.writeFault_keeps | with_reducible apply Keeps.ite
    | with_reducible apply Keeps.iteSnd | with_reducible refine Keeps.ofEq ?_ (by assumption) | split
    | with_reducible refine Keeps.update ?_ rfl rfl rfl rfl rfl rfl rfl rfl | intro _ | dsimp only)

theorem State.recordWritten_keeps {s0 : State} {s : State} (ok : Bool) (h : Keeps s0 s) : Keeps s0 (State.recordWritten s ok) := by
  unfold State.recordWritten
  repeat' (first
    | with_reducible assumption
    | (extract_lets +onlyGivenNames z; refine Keeps.cut (v := z) ?_ ?_ <;> [subst z; (intro _; clear_value z)])
    | extract_lets +onlyGivenNames z | with_reducible apply State.writeFault_keeps
    | with_reducible apply State.recordStore_keeps | with_reducible apply State.restoreEnd_keeps
    | with_reducible apply State.recordFailed_keeps | with_reducible apply Keeps.ite | with_reducible apply Keeps.iteSnd
    | with_reducible refine Keeps.ofEq ?_ (by assumption) | split
    | with_reducible refine Keeps.update ?_ rfl rfl rfl rfl rfl rfl rfl rfl | intro _ | dsimp only)

theorem State.rewriteRetry_keeps {s0 : State} {s : State} (ok : Bool) (h : Keeps s0 s) : Keeps s0 (State.rewriteRetry s ok) := by
  unfold State.rewriteRetry
  repeat' (first
    | with_reducible assumption
    | (extract_lets +onlyGivenNames z; refine Keeps.cut (v := z) ?_ ?_ <;> [subst z; (intro _; clear_value z)])
    | extract_lets +onlyGivenNames z | with_reducible apply State.wr_keeps
    | with_reducible apply State.recordStore_keeps | with_reducible apply State.restoreEnd_keeps
    | with_reducible apply State.bump_keeps | with_reducible apply State.irq_keeps | with_reducible apply Keeps.ite
    | with_reducible apply Keeps.iteSnd | with_reducible refine Keeps.ofEq ?_ (by assumption) | split
    | with_reducible refine Keeps.update ?_ rfl rfl rfl rfl rfl rfl rfl rfl | intro _ | dsimp only)

theorem State.calBlock_keeps {s0 : State} {s : State} (h : Keeps s0 s) : Keeps s0 (State.calBlock s).2 := by
  unfold State.calBlock
  repeat' (first
    | with_reducible assumption
    | (extract_lets +onlyGivenNames z; refine Keeps.cut (v := z) ?_ ?_ <;> [subst z; (intro _; clear_value z)])
    | extract_lets +onlyGivenNames z | with_reducible apply State.eccCheck_keeps | with_reducible apply Keeps.foldl
    | with_reducible apply Keeps.foldlSnd | with_reducible apply Keeps.ite
    | with_reducible refine Keeps.ofEq ?_ (by assumption) | split | intro _ | dsimp only)

theorem State.calLoad_keeps {s0 : State} {s : State} (h : Keeps s0 s) : Keeps s0 (State.calLoad s) := by
  unfold State.calLoad
  repeat' (first
    | with_reducible assumption | with_reducible apply State.calBlock_keeps | with_reducible apply State.calShow_keeps
    | with_reducible apply State.pantryDone_keeps | with_reducible apply Keeps.ite
    | with_reducible refine Keeps.ofEq ?_ (by assumption) | split
    | with_reducible refine Keeps.update ?_ rfl rfl rfl rfl rfl rfl rfl rfl | intro _)

theorem State.pantryCmd_keeps {s0 : State} {s : State} (op : Nat) (m : Nat) (h : Keeps s0 s) : Keeps s0 (State.pantryCmd s op m) := by
  unfold State.pantryCmd
  repeat' (first
    | with_reducible assumption
    | (extract_lets +onlyGivenNames z; refine Keeps.cut (v := z) ?_ ?_ <;> [subst z; (intro _; clear_value z)])
    | extract_lets +onlyGivenNames z | with_reducible apply State.wr_keeps | with_reducible apply State.pantryDone_keeps
    | with_reducible apply State.calLoad_keeps | with_reducible apply Keeps.ite | split
    | with_reducible refine Keeps.update ?_ rfl rfl rfl rfl rfl rfl rfl rfl | intro _ | dsimp only)

theorem State.cmdInstant_keeps {s0 : State} {s : State} (h : Keeps s0 s) : Keeps s0 (State.cmdInstant s) := by
  unfold State.cmdInstant
  repeat' (first
    | with_reducible assumption
    | (extract_lets +onlyGivenNames z; refine Keeps.cut (v := z) ?_ ?_ <;> [subst z; (intro _; clear_value z)])
    | extract_lets +onlyGivenNames z | with_reducible apply State.pantryDone_keeps
    | with_reducible apply State.sessionBegin_keeps | with_reducible apply State.sessionEnd_keeps
    | with_reducible apply State.readingRec_keeps | with_reducible apply Keeps.ite | split
    | with_reducible refine Keeps.update ?_ rfl rfl rfl rfl rfl rfl rfl rfl | intro _ | dsimp only)

theorem State.endsInstant_keeps {s0 : State} {s : State} (h : Keeps s0 s) : Keeps s0 (State.endsInstant s) := by
  unfold State.endsInstant
  repeat' (first
    | with_reducible assumption
    | (extract_lets +onlyGivenNames z; refine Keeps.cut (v := z) ?_ ?_ <;> [subst z; (intro _; clear_value z)])
    | extract_lets +onlyGivenNames z | with_reducible apply State.sessionEnd_keeps | with_reducible apply Keeps.foldlSnd
    | with_reducible apply Keeps.foldl | with_reducible apply Keeps.ite | with_reducible apply Keeps.iteSnd
    | with_reducible refine Keeps.ofEq ?_ (by assumption) | split
    | with_reducible refine Keeps.update ?_ rfl rfl rfl rfl rfl rfl rfl rfl | intro _ | dsimp only)

theorem State.snapInstant_keeps {s0 : State} {s : State} (h : Keeps s0 s) : Keeps s0 (State.snapInstant s) := by
  unfold State.snapInstant
  repeat' (first
    | with_reducible assumption
    | (extract_lets +onlyGivenNames z; refine Keeps.cut (v := z) ?_ ?_ <;> [subst z; (intro _; clear_value z)])
    | extract_lets +onlyGivenNames z | with_reducible apply Keeps.ite | with_reducible apply Keeps.iteSnd
    | with_reducible refine Keeps.ofEq ?_ (by assumption) | split
    | with_reducible refine Keeps.update ?_ rfl rfl rfl rfl rfl rfl rfl rfl | intro _ | dsimp only)

theorem State.snapWant_keeps {s0 : State} {s : State} (cause : Nat) (h : Keeps s0 s) : Keeps s0 (State.snapWant s cause) := by
  unfold State.snapWant
  repeat' (first
    | with_reducible assumption
    | (extract_lets +onlyGivenNames z; refine Keeps.cut (v := z) ?_ ?_ <;> [subst z; (intro _; clear_value z)])
    | extract_lets +onlyGivenNames z | with_reducible apply Keeps.ite | with_reducible apply Keeps.iteSnd
    | with_reducible refine Keeps.ofEq ?_ (by assumption) | split
    | with_reducible refine Keeps.update ?_ rfl rfl rfl rfl rfl rfl rfl rfl | intro _ | dsimp only)

theorem State.snapVerified_keeps {s0 : State} {s : State} (h : Keeps s0 s) : Keeps s0 (State.snapVerified s) := by
  unfold State.snapVerified
  repeat' (first
    | with_reducible assumption
    | (extract_lets +onlyGivenNames z; refine Keeps.cut (v := z) ?_ ?_ <;> [subst z; (intro _; clear_value z)])
    | extract_lets +onlyGivenNames z | with_reducible apply State.wr_keeps | with_reducible apply State.wrapBump_keeps
    | with_reducible apply State.discardRecs_keeps | with_reducible apply State.pantryShow_keeps
    | with_reducible apply Keeps.ite | with_reducible apply Keeps.iteSnd
    | with_reducible refine Keeps.ofEq ?_ (by assumption) | split
    | with_reducible refine Keeps.update ?_ rfl rfl rfl rfl rfl rfl rfl rfl | intro _ | dsimp only)

theorem State.metroSample_keeps {s0 : State} {s : State} (bits : List (List Bool)) (h : Keeps s0 s) : Keeps s0 (State.metroSample s bits) := by
  unfold State.metroSample
  repeat' (first
    | with_reducible assumption
    | (extract_lets +onlyGivenNames z; refine Keeps.cut (v := z) ?_ ?_ <;> [subst z; (intro _; clear_value z)])
    | extract_lets +onlyGivenNames z | with_reducible apply State.wrapBump_keeps
    | with_reducible apply State.boundary_keeps | with_reducible apply State.wr_keeps
    | with_reducible apply State.calShow_keeps | with_reducible apply State.meterSample_keeps
    | with_reducible apply State.cmdInstant_keeps | with_reducible apply State.endsInstant_keeps
    | with_reducible apply State.snapInstant_keeps | with_reducible apply State.pantryShow_keeps
    | with_reducible apply Keeps.foldlSnd | with_reducible apply Keeps.foldl | with_reducible apply Keeps.ite
    | with_reducible apply Keeps.iteSnd | with_reducible refine Keeps.ofEq ?_ (by assumption) | split
    | with_reducible refine Keeps.update ?_ rfl rfl rfl rfl rfl rfl rfl rfl | intro _ | dsimp only)

theorem State.metroSafeStop_keeps {s0 : State} {s : State} (h : Keeps s0 s) : Keeps s0 (State.metroSafeStop s) := by
  unfold State.metroSafeStop
  repeat' (first
    | with_reducible assumption
    | (extract_lets +onlyGivenNames z; refine Keeps.cut (v := z) ?_ ?_ <;> [subst z; (intro _; clear_value z)])
    | extract_lets +onlyGivenNames z | with_reducible apply Keeps.ite | with_reducible apply Keeps.iteSnd
    | with_reducible refine Keeps.ofEq ?_ (by assumption) | split
    | with_reducible refine Keeps.update ?_ rfl rfl rfl rfl rfl rfl rfl rfl | intro _ | dsimp only)

theorem State.metroStart_keeps {s0 : State} {s : State} (hash : List Byte) (h : Keeps s0 s) : Keeps s0 (State.metroStart s hash) := by
  unfold State.metroStart
  repeat' (first
    | with_reducible assumption
    | (extract_lets +onlyGivenNames z; refine Keeps.cut (v := z) ?_ ?_ <;> [subst z; (intro _; clear_value z)])
    | extract_lets +onlyGivenNames z | with_reducible apply State.setFlag_keeps | with_reducible apply State.wr_keeps
    | with_reducible apply State.calShow_keeps | with_reducible apply State.epochShow_keeps
    | with_reducible apply State.pantryShow_keeps | with_reducible apply Keeps.foldlSnd
    | with_reducible apply Keeps.foldl | with_reducible apply Keeps.ite | with_reducible apply Keeps.iteSnd
    | with_reducible refine Keeps.ofEq ?_ (by assumption) | split
    | with_reducible refine Keeps.update ?_ rfl rfl rfl rfl rfl rfl rfl rfl | intro _ | dsimp only)

theorem State.pantryReady_keeps {s0 : State} {s : State} (density : Option Nat) (h : Keeps s0 s) : Keeps s0 (State.pantryReady s density) := by
  unfold State.pantryReady
  repeat' (first
    | with_reducible assumption
    | (extract_lets +onlyGivenNames z; refine Keeps.cut (v := z) ?_ ?_ <;> [subst z; (intro _; clear_value z)])
    | extract_lets +onlyGivenNames z | with_reducible apply State.setFlag_keeps
    | with_reducible apply State.pantryShow_keeps | with_reducible apply Keeps.ite | with_reducible apply Keeps.iteSnd
    | with_reducible refine Keeps.ofEq ?_ (by assumption) | split
    | with_reducible refine Keeps.update ?_ rfl rfl rfl rfl rfl rfl rfl rfl | intro _ | dsimp only)

theorem State.rdidRetry_keeps {s0 : State} {s : State} (density : Option Nat) (h : Keeps s0 s) : Keeps s0 (State.rdidRetry s density) := by
  unfold State.rdidRetry
  repeat' (first
    | with_reducible assumption | with_reducible apply State.pantryReady_keeps | with_reducible apply Keeps.ite | split
    | intro _)

theorem State.genesis_keeps {s0 : State} {s : State} (reason : Nat) (h : Keeps s0 s) : Keeps s0 (State.genesis s reason) := by
  unfold State.genesis
  repeat' (first
    | with_reducible assumption
    | (extract_lets +onlyGivenNames z; refine Keeps.cut (v := z) ?_ ?_ <;> [subst z; (intro _; clear_value z)])
    | extract_lets +onlyGivenNames z | with_reducible apply State.pushRec_keeps
    | with_reducible refine Keeps.update ?_ rfl rfl rfl rfl rfl rfl rfl rfl | dsimp only)

theorem State.freshLog_keeps {s0 s : State} (first : Nat) (h : Keeps s0 s) : Keeps s0 (s.freshLog first) :=
  (State.discardRecs_keeps _ h).stores rfl rfl fun k => { k with pantry := rfl, metro := k.metro }

theorem State.newEpoch_keeps {s0 : State} {s : State} (reason : Nat) (h : Keeps s0 s) : Keeps s0 (State.newEpoch s reason).2 := by
  unfold State.newEpoch
  repeat' (first
    | with_reducible assumption
    | (extract_lets +onlyGivenNames z; refine Keeps.cut (v := z) ?_ ?_ <;> [subst z; (intro _; clear_value z)])
    | extract_lets +onlyGivenNames z | with_reducible apply State.wr_keeps | with_reducible apply State.otpBurn_keeps
    | with_reducible apply State.epochShow_keeps | with_reducible apply State.freshLog_keeps
    | with_reducible apply State.genesis_keeps | with_reducible apply Keeps.ite | with_reducible apply Keeps.iteSnd
    | with_reducible refine Keeps.ofEq ?_ (by assumption) | split
    | with_reducible refine Keeps.update ?_ rfl rfl rfl rfl rfl rfl rfl rfl | intro _ | dsimp only)

theorem State.restoreRec_keeps {s0 : State} {s : State} (b : List Byte) (h : Keeps s0 s) : Keeps s0 (State.restoreRec s b) := by
  unfold State.restoreRec
  repeat' (first
    | with_reducible assumption
    | (extract_lets +onlyGivenNames z; refine Keeps.cut (v := z) ?_ ?_ <;> [subst z; (intro _; clear_value z)])
    | extract_lets +onlyGivenNames z | with_reducible apply State.setMeter_keeps | with_reducible apply Keeps.ite
    | with_reducible apply Keeps.iteSnd | with_reducible refine Keeps.ofEq ?_ (by assumption) | split
    | with_reducible refine Keeps.update ?_ rfl rfl rfl rfl rfl rfl rfl rfl | intro _ | dsimp only)

theorem State.walk_keeps {s0 s : State} (k q : Nat) (bs : List Byte) (h : Keeps s0 s) : Keeps s0 (s.walk k q bs) := by
  induction k generalizing s q bs with
  | zero => exact h
  | succ k ih =>
    unfold State.walk
    split
    · exact ih _ _ ((State.restoreRec_keeps _ h).same rfl rfl rfl rfl rfl rfl rfl rfl rfl rfl rfl rfl rfl)
    · exact h

theorem State.restoreFrom_keeps {s0 : State} {s : State} (snap : Option Snapshot) (h : Keeps s0 s) : Keeps s0 (State.restoreFrom s snap) := by
  unfold State.restoreFrom
  repeat' (first
    | with_reducible assumption
    | (extract_lets +onlyGivenNames z; refine Keeps.cut (v := z) ?_ ?_ <;> [subst z; (intro _; clear_value z)])
    | extract_lets +onlyGivenNames z | with_reducible apply State.wr_keeps | with_reducible apply State.walk_keeps
    | with_reducible apply Keeps.ite | with_reducible apply Keeps.iteSnd
    | with_reducible refine Keeps.ofEq ?_ (by assumption) | split
    | with_reducible refine Keeps.update ?_ rfl rfl rfl rfl rfl rfl rfl rfl | intro _ | dsimp only)

theorem State.interruption_keeps {s0 : State} {s : State} (m : Option (Fin 9)) (snap : Option Snapshot) (h : Keeps s0 s) : Keeps s0 (State.interruption s m snap) := by
  unfold State.interruption
  repeat' (first
    | with_reducible assumption
    | (extract_lets +onlyGivenNames z; refine Keeps.cut (v := z) ?_ ?_ <;> [subst z; (intro _; clear_value z)])
    | (extract_lets +onlyGivenNames z; subst z) | with_reducible apply State.setMeter_keeps
    | with_reducible apply State.pushRec_keeps | split | with_reducible refine Keeps.update ?_ rfl rfl rfl rfl rfl rfl rfl rfl
    | intro _ | dsimp only)

theorem State.interruptions_keeps {s0 : State} {s : State} (snap : Option Snapshot) (h : Keeps s0 s) : Keeps s0 (State.interruptions s snap) := by
  unfold State.interruptions
  repeat' (first
    | with_reducible assumption
    | (extract_lets +onlyGivenNames z; refine Keeps.cut (v := z) ?_ ?_ <;> [subst z; (intro _; clear_value z)])
    | extract_lets +onlyGivenNames z | with_reducible apply State.interruption_keeps | with_reducible apply Keeps.foldl
    | with_reducible apply Keeps.foldlSnd | with_reducible apply Keeps.ite | split | intro _ | dsimp only)

theorem State.metroRestore_keeps {s0 : State} {s : State} (blank : Bool) (foreign : Bool) (newOk : Bool) (oldOk : Bool) (h : Keeps s0 s) : Keeps s0 (State.metroRestore s blank foreign newOk oldOk) := by
  unfold State.metroRestore
  repeat' (first
    | with_reducible assumption
    | (extract_lets +onlyGivenNames z; refine Keeps.cut (v := z) ?_ ?_ <;> [subst z; (intro _; clear_value z)])
    | extract_lets +onlyGivenNames z | with_reducible apply State.restoreEnd_keeps
    | with_reducible apply State.pantryShow_keeps | with_reducible apply State.blank_keeps
    | with_reducible apply State.restoreFrom_keeps | with_reducible apply State.freshLog_keeps
    | with_reducible apply State.interruptions_keeps | with_reducible apply State.newEpoch_keeps
    | with_reducible apply State.interruption_keeps | with_reducible apply Keeps.ite | with_reducible apply Keeps.iteSnd
    | with_reducible refine Keeps.ofEq ?_ (by assumption) | split
    | with_reducible refine Keeps.update ?_ rfl rfl rfl rfl rfl rfl rfl rfl | intro _ | dsimp only)

theorem State.metroSeal_keeps {s0 : State} {s : State} (h : Keeps s0 s) : Keeps s0 (State.metroSeal s) := by
  unfold State.metroSeal
  repeat' (first
    | with_reducible assumption
    | (extract_lets +onlyGivenNames z; refine Keeps.cut (v := z) ?_ ?_ <;> [subst z; (intro _; clear_value z)])
    | extract_lets +onlyGivenNames z | with_reducible apply State.freshLog_keeps
    | with_reducible apply State.genesis_keeps | with_reducible apply State.wr_keeps
    | with_reducible apply State.pantryShow_keeps | with_reducible apply Keeps.ite | with_reducible apply Keeps.iteSnd
    | with_reducible refine Keeps.ofEq ?_ (by assumption) | split
    | with_reducible refine Keeps.update ?_ rfl rfl rfl rfl rfl rfl rfl rfl | intro _ | dsimp only)

theorem State.metroReturn_keeps {s0 : State} {s : State} (h : Keeps s0 s) : Keeps s0 (State.metroReturn s) := by
  unfold State.metroReturn
  repeat' (first
    | with_reducible assumption
    | (extract_lets +onlyGivenNames z; refine Keeps.cut (v := z) ?_ ?_ <;> [subst z; (intro _; clear_value z)])
    | extract_lets +onlyGivenNames z | with_reducible apply State.dropRecs_keeps | with_reducible apply State.wr_keeps
    | with_reducible apply State.pantryShow_keeps | with_reducible apply Keeps.ite | with_reducible apply Keeps.iteSnd
    | with_reducible refine Keeps.ofEq ?_ (by assumption) | split
    | with_reducible refine Keeps.update ?_ rfl rfl rfl rfl rfl rfl rfl rfl | intro _ | dsimp only)

theorem State.metroSleep_keeps {s0 : State} {s : State} (h : Keeps s0 s) : Keeps s0 (State.metroSleep s) := by
  unfold State.metroSleep
  repeat' (first
    | with_reducible assumption
    | (extract_lets +onlyGivenNames z; refine Keeps.cut (v := z) ?_ ?_ <;> [subst z; (intro _; clear_value z)])
    | extract_lets +onlyGivenNames z | with_reducible apply State.wr_keeps | with_reducible apply State.pantryShow_keeps
    | with_reducible apply Keeps.ite | with_reducible apply Keeps.iteSnd
    | with_reducible refine Keeps.ofEq ?_ (by assumption) | split
    | with_reducible refine Keeps.update ?_ rfl rfl rfl rfl rfl rfl rfl rfl | intro _ | dsimp only)

theorem State.ackSeq_keeps {s0 : State} {s : State} (lo : Nat) (h : Keeps s0 s) : Keeps s0 (State.ackSeq s lo) := by
  unfold State.ackSeq
  repeat' (first
    | with_reducible assumption
    | (extract_lets +onlyGivenNames z; refine Keeps.cut (v := z) ?_ ?_ <;> [subst z; (intro _; clear_value z)])
    | extract_lets +onlyGivenNames z | with_reducible apply State.pantryShow_keeps | with_reducible apply Keeps.ite
    | with_reducible apply Keeps.iteSnd | with_reducible refine Keeps.ofEq ?_ (by assumption) | split
    | with_reducible refine Keeps.update ?_ rfl rfl rfl rfl rfl rfl rfl rfl | intro _ | dsimp only)

theorem State.readStart_keeps {s0 : State} {s : State} (lo : Nat) (h : Keeps s0 s) : Keeps s0 (State.readStart s lo) := by
  unfold State.readStart
  repeat' (first
    | with_reducible assumption
    | (extract_lets +onlyGivenNames z; refine Keeps.cut (v := z) ?_ ?_ <;> [subst z; (intro _; clear_value z)])
    | extract_lets +onlyGivenNames z | with_reducible apply State.wr_keeps
    | with_reducible refine Keeps.update ?_ rfl rfl rfl rfl rfl rfl rfl rfl | dsimp only)

theorem State.readDone_keeps {s0 : State} {s : State} (memErr : Bool) (h : Keeps s0 s) : Keeps s0 (State.readDone s memErr) := by
  unfold State.readDone
  repeat' (first
    | with_reducible assumption
    | (extract_lets +onlyGivenNames z; refine Keeps.cut (v := z) ?_ ?_ <;> [subst z; (intro _; clear_value z)])
    | extract_lets +onlyGivenNames z | with_reducible apply State.wr_keeps | with_reducible apply State.irq_keeps
    | with_reducible apply Keeps.foldl | with_reducible apply Keeps.foldlSnd | with_reducible apply Keeps.ite | split
    | with_reducible refine Keeps.update ?_ rfl rfl rfl rfl rfl rfl rfl rfl | intro _ | dsimp only)

end Sys2Proof.Machine
end

