-- ==== Sys2Proof/Laws/KeepsSafeIo.lean ====
section
/-!
SUPPORT. Laws/KeepsSafeIo.lean: every operation of Machine/SafeIo.lean keeps what `Keeps` says.
-/
namespace Sys2Proof.Machine

set_option linter.unusedTactic false
set_option linter.unreachableTactic false
set_option linter.unusedVariables false
set_option linter.tactic.unusedName false

theorem State.setSChan_keeps {s0 : State} {s : State} (c : Fin 24) (x : SafeChan) (h : Keeps s0 s) : Keeps s0 (State.setSChan s c x) := by
  unfold State.setSChan
  repeat' (first
    | with_reducible assumption | with_reducible refine Keeps.update ?_ rfl rfl rfl rfl rfl rfl rfl rfl)

theorem State.setTp_keeps {s0 : State} {s : State} (k : Fin 4) (x : TestOut) (h : Keeps s0 s) : Keeps s0 (State.setTp s k x) := by
  unfold State.setTp
  repeat' (first
    | with_reducible assumption | with_reducible refine Keeps.update ?_ rfl rfl rfl rfl rfl rfl rfl rfl)

theorem State.setPair_keeps {s0 : State} {s : State} (q : Fin 8) (x : PairUnit) (h : Keeps s0 s) : Keeps s0 (State.setPair s q x) := by
  unfold State.setPair
  repeat' (first
    | with_reducible assumption | with_reducible refine Keeps.update ?_ rfl rfl rfl rfl rfl rfl rfl rfl)

theorem State.setWdog_keeps {s0 : State} {s : State} (x : Fin 2) (w : Wdog) (h : Keeps s0 s) : Keeps s0 (State.setWdog s x w) := by
  unfold State.setWdog
  repeat' (first
    | with_reducible assumption | with_reducible refine Keeps.update ?_ rfl rfl rfl rfl rfl rfl rfl rfl)

theorem State.setNet_keeps {s0 : State} {s : State} (q : Fin 8) (x : NetChan) (h : Keeps s0 s) : Keeps s0 (State.setNet s q x) := by
  unfold State.setNet
  repeat' (first
    | with_reducible assumption | with_reducible refine Keeps.update ?_ rfl rfl rfl rfl rfl rfl rfl rfl)

theorem State.tpShow_keeps {s0 : State} {s : State} (h : Keeps s0 s) : Keeps s0 (State.tpShow s) := by
  unfold State.tpShow
  repeat' (first
    | with_reducible assumption
    | (extract_lets +onlyGivenNames z; refine Keeps.cut (v := z) ?_ ?_ <;> [subst z; (intro _; clear_value z)])
    | extract_lets +onlyGivenNames z | with_reducible apply State.wr_keeps | with_reducible apply State.setFlag_keeps
    | with_reducible apply Keeps.foldl | with_reducible apply Keeps.foldlSnd | with_reducible apply Keeps.ite | split
    | intro _ | dsimp only)

theorem State.pulseStart_keeps {s0 : State} {s : State} (k : Fin 4) (h : Keeps s0 s) : Keeps s0 (State.pulseStart s k) := by
  unfold State.pulseStart
  repeat' (first
    | with_reducible assumption
    | (extract_lets +onlyGivenNames z; refine Keeps.cut (v := z) ?_ ?_ <;> [subst z; (intro _; clear_value z)])
    | extract_lets +onlyGivenNames z | with_reducible apply State.setTp_keeps | with_reducible apply Keeps.ite
    | with_reducible apply Keeps.iteSnd | with_reducible refine Keeps.ofEq ?_ (by assumption) | split
    | with_reducible refine Keeps.update ?_ rfl rfl rfl rfl rfl rfl rfl rfl | intro _ | dsimp only)

theorem State.pulseEnd_keeps {s0 : State} {s : State} (k : Fin 4) (h : Keeps s0 s) : Keeps s0 (State.pulseEnd s k) := by
  unfold State.pulseEnd
  repeat' (first
    | with_reducible assumption
    | (extract_lets +onlyGivenNames z; refine Keeps.cut (v := z) ?_ ?_ <;> [subst z; (intro _; clear_value z)])
    | extract_lets +onlyGivenNames z | with_reducible apply State.setTp_keeps | with_reducible apply Keeps.ite
    | with_reducible apply Keeps.iteSnd | with_reducible refine Keeps.ofEq ?_ (by assumption) | split
    | with_reducible refine Keeps.update ?_ rfl rfl rfl rfl rfl rfl rfl rfl | intro _ | dsimp only)

theorem State.tpFault_keeps {s0 : State} {s : State} (k : Fin 4) (high : Bool) (h : Keeps s0 s) : Keeps s0 (State.tpFault s k high) := by
  unfold State.tpFault
  repeat' (first
    | with_reducible assumption
    | (extract_lets +onlyGivenNames z; refine Keeps.cut (v := z) ?_ ?_ <;> [subst z; (intro _; clear_value z)])
    | extract_lets +onlyGivenNames z | with_reducible apply State.putBit_keeps | with_reducible apply State.setTp_keeps
    | with_reducible apply State.bump_keeps | with_reducible apply State.irq_keeps | with_reducible apply State.tpShow_keeps
    | with_reducible apply Keeps.ite | split | with_reducible refine Keeps.update ?_ rfl rfl rfl rfl rfl rfl rfl rfl | intro _
    | dsimp only)

theorem State.tpSample_keeps {s0 : State} {s : State} (k : Fin 4) (level : Bool) (h : Keeps s0 s) : Keeps s0 (State.tpSample s k level) := by
  unfold State.tpSample
  repeat' (first
    | with_reducible assumption
    | (extract_lets +onlyGivenNames z; refine Keeps.cut (v := z) ?_ ?_ <;> [subst z; (intro _; clear_value z)])
    | extract_lets +onlyGivenNames z | with_reducible apply State.tpFault_keeps | with_reducible apply State.setTp_keeps
    | with_reducible apply Keeps.ite | split | with_reducible refine Keeps.update ?_ rfl rfl rfl rfl rfl rfl rfl rfl | intro _
    | dsimp only)

theorem State.chFail_keeps {s0 : State} {s : State} (c : Fin 24) (cause : Nat) (count : Bool) (fresh : Bool) (h : Keeps s0 s) : Keeps s0 (State.chFail s c cause count fresh) := by
  unfold State.chFail
  repeat' (first
    | with_reducible assumption
    | (extract_lets +onlyGivenNames z; refine Keeps.cut (v := z) ?_ ?_ <;> [subst z; (intro _; clear_value z)])
    | extract_lets +onlyGivenNames z | with_reducible apply State.setSChan_keeps | with_reducible apply State.bump_keeps
    | with_reducible apply State.irq_keeps | with_reducible apply State.setPair_keeps | with_reducible apply Keeps.ite
    | with_reducible apply Keeps.iteSnd | with_reducible refine Keeps.ofEq ?_ (by assumption) | split
    | with_reducible refine Keeps.update ?_ rfl rfl rfl rfl rfl rfl rfl rfl | intro _ | dsimp only)

theorem State.chSample_keeps {s0 : State} {s : State} (c : Fin 24) (raw : Bool) (faulted : BitVec 4) (first : BitVec 8) (h : Keeps s0 s) : Keeps s0 (State.chSample s c raw faulted first) := by
  unfold State.chSample
  repeat' (first
    | with_reducible assumption
    | (extract_lets +onlyGivenNames z; refine Keeps.cut (v := z) ?_ ?_ <;> [subst z; (intro _; clear_value z)])
    | extract_lets +onlyGivenNames z | with_reducible apply State.setSChan_keeps
    | with_reducible apply State.chFail_keeps | with_reducible apply Keeps.ite | with_reducible apply Keeps.iteSnd
    | with_reducible refine Keeps.ofEq ?_ (by assumption) | split
    | with_reducible refine Keeps.update ?_ rfl rfl rfl rfl rfl rfl rfl rfl | intro _ | dsimp only)

theorem State.levelShow_keeps {s0 : State} {s : State} (h : Keeps s0 s) : Keeps s0 (State.levelShow s) := by
  unfold State.levelShow
  repeat' (first
    | with_reducible assumption
    | (extract_lets +onlyGivenNames z; refine Keeps.cut (v := z) ?_ ?_ <;> [subst z; (intro _; clear_value z)])
    | extract_lets +onlyGivenNames z | with_reducible apply State.wr_keeps | with_reducible apply State.irqIf_keeps
    | with_reducible apply Keeps.foldlSnd | with_reducible apply Keeps.foldl | with_reducible apply Keeps.ite
    | with_reducible apply Keeps.iteSnd | with_reducible refine Keeps.ofEq ?_ (by assumption) | split
    | with_reducible refine Keeps.update ?_ rfl rfl rfl rfl rfl rfl rfl rfl | intro _ | dsimp only)

theorem State.safeSample_keeps {s0 : State} {s : State} (raw : BitVec 24) (tp : BitVec 4) (h : Keeps s0 s) : Keeps s0 (State.safeSample s raw tp) := by
  unfold State.safeSample
  repeat' (first
    | with_reducible assumption
    | (extract_lets +onlyGivenNames z; refine Keeps.cut (v := z) ?_ ?_ <;> [subst z; (intro _; clear_value z)])
    | extract_lets +onlyGivenNames z | with_reducible apply State.wr_keeps | with_reducible apply State.tpSample_keeps
    | with_reducible apply State.chSample_keeps | with_reducible apply State.setTp_keeps
    | with_reducible apply State.levelShow_keeps | with_reducible apply Keeps.foldlSnd
    | with_reducible apply Keeps.foldl | with_reducible apply Keeps.ite | with_reducible apply Keeps.iteSnd
    | with_reducible refine Keeps.ofEq ?_ (by assumption) | split
    | with_reducible refine Keeps.update ?_ rfl rfl rfl rfl rfl rfl rfl rfl | intro _ | dsimp only)

theorem State.pairEnter_keeps {s0 : State} {s : State} (q : Fin 8) (st : Nat) (v : Bool) (h : Keeps s0 s) : Keeps s0 (State.pairEnter s q st v) := by
  unfold State.pairEnter
  repeat' (first
    | with_reducible assumption
    | (extract_lets +onlyGivenNames z; refine Keeps.cut (v := z) ?_ ?_ <;> [subst z; (intro _; clear_value z)])
    | extract_lets +onlyGivenNames z | with_reducible apply State.wr_keeps | with_reducible apply State.setFlag_keeps
    | with_reducible apply State.irqIf_keeps | dsimp only)

theorem State.pairFault_keeps {s0 : State} {s : State} (q : Fin 8) (cause : Nat) (h : Keeps s0 s) : Keeps s0 (State.pairFault s q cause) := by
  unfold State.pairFault
  repeat' (first
    | with_reducible assumption
    | (extract_lets +onlyGivenNames z; refine Keeps.cut (v := z) ?_ ?_ <;> [subst z; (intro _; clear_value z)])
    | extract_lets +onlyGivenNames z | with_reducible apply State.wr_keeps | with_reducible apply State.bump_keeps
    | with_reducible apply State.irq_keeps | with_reducible apply State.pairEnter_keeps | dsimp only)

theorem State.pairTick_keeps {s0 : State} {s : State} (q : Fin 8) (h : Keeps s0 s) : Keeps s0 (State.pairTick s q) := by
  unfold State.pairTick
  repeat' (first
    | with_reducible assumption
    | (extract_lets +onlyGivenNames z; refine Keeps.cut (v := z) ?_ ?_ <;> [subst z; (intro _; clear_value z)])
    | extract_lets +onlyGivenNames z | with_reducible apply State.setPair_keeps | with_reducible apply State.pairFault_keeps
    | with_reducible apply State.pairEnter_keeps | with_reducible apply Keeps.ite
    | with_reducible refine Keeps.ofEq ?_ (by assumption) | split
    | with_reducible refine Keeps.update ?_ rfl rfl rfl rfl rfl rfl rfl rfl | intro _ | dsimp only)

theorem State.pairInit_keeps {s0 : State} {s : State} (q : Fin 8) (h : Keeps s0 s) : Keeps s0 (State.pairInit s q) := by
  unfold State.pairInit
  repeat' (first
    | with_reducible assumption
    | (extract_lets +onlyGivenNames z; refine Keeps.cut (v := z) ?_ ?_ <;> [subst z; (intro _; clear_value z)])
    | extract_lets +onlyGivenNames z | with_reducible apply State.setPair_keeps
    | with_reducible apply State.pairEnter_keeps | with_reducible apply Keeps.ite | with_reducible apply Keeps.iteSnd
    | with_reducible refine Keeps.ofEq ?_ (by assumption) | split
    | with_reducible refine Keeps.update ?_ rfl rfl rfl rfl rfl rfl rfl rfl | intro _ | dsimp only)

theorem State.demand_keeps {s0 : State} {s : State} (h : Keeps s0 s) : Keeps s0 (State.demand s) := by
  unfold State.demand
  repeat' (first
    | with_reducible assumption
    | (extract_lets +onlyGivenNames z; refine Keeps.cut (v := z) ?_ ?_ <;> [subst z; (intro _; clear_value z)])
    | extract_lets +onlyGivenNames z | with_reducible apply State.setFlag_keeps | with_reducible apply State.wr_keeps
    | with_reducible apply State.setSource_keeps | with_reducible apply State.irqIf_keeps | with_reducible apply Keeps.foldl
    | with_reducible apply Keeps.foldlSnd | with_reducible apply Keeps.ite | split | intro _ | dsimp only)

theorem State.wdShow_keeps {s0 : State} {s : State} (h : Keeps s0 s) : Keeps s0 (State.wdShow s) := by
  unfold State.wdShow
  repeat' (first
    | with_reducible assumption
    | (extract_lets +onlyGivenNames z; refine Keeps.cut (v := z) ?_ ?_ <;> [subst z; (intro _; clear_value z)])
    | extract_lets +onlyGivenNames z | with_reducible apply State.wr_keeps | with_reducible apply State.setFlag_keeps
    | with_reducible apply State.setSource_keeps | dsimp only)

theorem State.wdExpire_keeps {s0 : State} {s : State} (x : Fin 2) (h : Keeps s0 s) : Keeps s0 (State.wdExpire s x) := by
  unfold State.wdExpire
  repeat' (first
    | with_reducible assumption
    | (extract_lets +onlyGivenNames z; refine Keeps.cut (v := z) ?_ ?_ <;> [subst z; (intro _; clear_value z)])
    | extract_lets +onlyGivenNames z | with_reducible apply State.putBit_keeps | with_reducible apply State.irq_keeps
    | with_reducible apply State.wdShow_keeps | with_reducible apply State.safeStop_keeps
    | with_reducible apply Keeps.ite | with_reducible apply Keeps.iteSnd
    | with_reducible refine Keeps.ofEq ?_ (by assumption) | split
    | with_reducible refine Keeps.update ?_ rfl rfl rfl rfl rfl rfl rfl rfl | intro _ | dsimp only)

theorem State.wdStart_keeps {s0 : State} {s : State} (x : Fin 2) (h : Keeps s0 s) : Keeps s0 (State.wdStart s x) := by
  unfold State.wdStart
  repeat' (first
    | with_reducible assumption | with_reducible apply State.setWdog_keeps | with_reducible apply State.wdShow_keeps)

theorem State.wdTick_keeps {s0 : State} {s : State} (x : Fin 2) (h : Keeps s0 s) : Keeps s0 (State.wdTick s x) := by
  unfold State.wdTick
  repeat' (first
    | with_reducible assumption
    | (extract_lets +onlyGivenNames z; refine Keeps.cut (v := z) ?_ ?_ <;> [subst z; (intro _; clear_value z)])
    | extract_lets +onlyGivenNames z | with_reducible apply State.setWdog_keeps | with_reducible apply State.wdExpire_keeps
    | with_reducible apply Keeps.ite | split | with_reducible refine Keeps.update ?_ rfl rfl rfl rfl rfl rfl rfl rfl | intro _
    | dsimp only)

theorem State.wdService_keeps {s0 : State} {s : State} (x : Fin 2) (token : Byte) (h : Keeps s0 s) : Keeps s0 (State.wdService s x token) := by
  unfold State.wdService
  repeat' (first
    | with_reducible assumption
    | (extract_lets +onlyGivenNames z; refine Keeps.cut (v := z) ?_ ?_ <;> [subst z; (intro _; clear_value z)])
    | extract_lets +onlyGivenNames z | with_reducible apply State.wdExpire_keeps | with_reducible apply State.setWdog_keeps
    | with_reducible apply Keeps.ite | split | intro _ | dsimp only)

theorem State.wdClear_keeps {s0 : State} {s : State} (mask : Nat) (h : Keeps s0 s) : Keeps s0 (State.wdClear s mask) := by
  unfold State.wdClear
  repeat' (first
    | with_reducible assumption | with_reducible apply State.putBit_keeps | with_reducible apply State.wdStart_keeps
    | with_reducible apply Keeps.foldl | with_reducible apply Keeps.foldlSnd | with_reducible apply Keeps.ite | split
    | intro _ | dsimp only)

theorem State.wdConfig_keeps {s0 : State} {s : State} (x : Fin 2) (was : Bool) (h : Keeps s0 s) : Keeps s0 (State.wdConfig s x was) := by
  unfold State.wdConfig
  repeat' (first
    | with_reducible assumption | with_reducible apply State.wdStart_keeps | with_reducible apply State.wdShow_keeps
    | with_reducible apply Keeps.ite | split | intro _)

theorem State.wdExpiry_keeps {s0 : State} {s : State} (x : Fin 2) (h : Keeps s0 s) : Keeps s0 (State.wdExpiry s x) := by
  unfold State.wdExpiry
  repeat' (first
    | with_reducible assumption | with_reducible apply State.setWdog_keeps | with_reducible apply State.wdTick_keeps
    | with_reducible apply Keeps.ite | split | with_reducible refine Keeps.update ?_ rfl rfl rfl rfl rfl rfl rfl rfl | intro _)

theorem State.netEnter_keeps {s0 : State} {s : State} (q : Fin 8) (st : Nat) (h : Keeps s0 s) : Keeps s0 (State.netEnter s q st) := by
  unfold State.netEnter
  repeat' (first
    | with_reducible assumption
    | (extract_lets +onlyGivenNames z; refine Keeps.cut (v := z) ?_ ?_ <;> [subst z; (intro _; clear_value z)])
    | extract_lets +onlyGivenNames z | with_reducible apply State.wr_keeps | with_reducible apply State.setFlag_keeps
    | with_reducible apply State.putBit_keeps | with_reducible apply State.irqIf_keeps
    | with_reducible apply State.demand_keeps | dsimp only)

theorem State.netFault_keeps {s0 : State} {s : State} (q : Fin 8) (cause : Nat) (h : Keeps s0 s) : Keeps s0 (State.netFault s q cause) := by
  unfold State.netFault
  repeat' (first
    | with_reducible assumption | with_reducible apply State.wr_keeps | with_reducible apply State.irq_keeps
    | with_reducible apply State.netEnter_keeps | with_reducible apply Keeps.ite | split | intro _)

theorem State.netMiss_keeps {s0 : State} {s : State} (q : Fin 8) (h : Keeps s0 s) : Keeps s0 (State.netMiss s q) := by
  unfold State.netMiss
  repeat' (first
    | with_reducible assumption
    | (extract_lets +onlyGivenNames z; refine Keeps.cut (v := z) ?_ ?_ <;> [subst z; (intro _; clear_value z)])
    | extract_lets +onlyGivenNames z | with_reducible apply State.setNet_keeps | with_reducible apply State.bump_keeps
    | with_reducible apply State.putBit_keeps | with_reducible apply State.irqIf_keeps | with_reducible apply Keeps.ite
    | split | with_reducible refine Keeps.update ?_ rfl rfl rfl rfl rfl rfl rfl rfl | intro _ | dsimp only)

theorem State.netAccept_keeps {s0 : State} {s : State} (q : Fin 8) (p : Fin 2) (pay : List Byte) (h : Keeps s0 s) : Keeps s0 (State.netAccept s q p pay) := by
  unfold State.netAccept
  repeat' (first
    | with_reducible assumption
    | (extract_lets +onlyGivenNames z; refine Keeps.cut (v := z) ?_ ?_ <;> [subst z; (intro _; clear_value z)])
    | extract_lets +onlyGivenNames z | with_reducible apply State.netMiss_keeps | with_reducible apply State.wr_keeps
    | with_reducible apply State.setNet_keeps | with_reducible apply State.netEnter_keeps
    | with_reducible apply Keeps.ite | with_reducible apply Keeps.iteSnd
    | with_reducible refine Keeps.ofEq ?_ (by assumption) | split
    | with_reducible refine Keeps.update ?_ rfl rfl rfl rfl rfl rfl rfl rfl | intro _ | dsimp only)

theorem State.netValid_keeps {s0 : State} {s : State} (q : Fin 8) (p : Fin 2) (pay : List Byte) (h : Keeps s0 s) : Keeps s0 (State.netValid s q p pay) := by
  unfold State.netValid
  repeat' (first
    | with_reducible assumption
    | (extract_lets +onlyGivenNames z; refine Keeps.cut (v := z) ?_ ?_ <;> [subst z; (intro _; clear_value z)])
    | extract_lets +onlyGivenNames z | with_reducible apply State.netAccept_keeps | with_reducible apply State.setNet_keeps
    | with_reducible apply State.putBit_keeps | with_reducible apply State.netFault_keeps
    | with_reducible apply State.bump_keeps | with_reducible apply Keeps.ite | split
    | with_reducible refine Keeps.update ?_ rfl rfl rfl rfl rfl rfl rfl rfl | intro _ | dsimp only)

theorem State.netCopy_keeps {s0 : State} {s : State} (p : Fin 2) (pay : List Byte) (h : Keeps s0 s) : Keeps s0 (State.netCopy s p pay) := by
  unfold State.netCopy
  repeat' (first
    | with_reducible assumption
    | (extract_lets +onlyGivenNames z; refine Keeps.cut (v := z) ?_ ?_ <;> [subst z; (intro _; clear_value z)])
    | extract_lets +onlyGivenNames z | with_reducible apply State.netValid_keeps | with_reducible apply State.bump_keeps
    | with_reducible apply Keeps.ite | with_reducible apply Keeps.iteSnd
    | with_reducible refine Keeps.ofEq ?_ (by assumption) | split
    | with_reducible refine Keeps.update ?_ rfl rfl rfl rfl rfl rfl rfl rfl | intro _ | dsimp only)

theorem State.netTick_keeps {s0 : State} {s : State} (q : Fin 8) (h : Keeps s0 s) : Keeps s0 (State.netTick s q) := by
  unfold State.netTick
  repeat' (first
    | with_reducible assumption
    | (extract_lets +onlyGivenNames z; refine Keeps.cut (v := z) ?_ ?_ <;> [subst z; (intro _; clear_value z)])
    | extract_lets +onlyGivenNames z | with_reducible apply State.setNet_keeps
    | with_reducible apply State.netFault_keeps | with_reducible apply Keeps.ite | with_reducible apply Keeps.iteSnd
    | with_reducible refine Keeps.ofEq ?_ (by assumption) | split
    | with_reducible refine Keeps.update ?_ rfl rfl rfl rfl rfl rfl rfl rfl | intro _ | dsimp only)

theorem State.netWatchdog_keeps {s0 : State} {s : State} (q : Fin 8) (h : Keeps s0 s) : Keeps s0 (State.netWatchdog s q) := by
  unfold State.netWatchdog
  repeat' (first
    | with_reducible assumption
    | (extract_lets +onlyGivenNames z; refine Keeps.cut (v := z) ?_ ?_ <;> [subst z; (intro _; clear_value z)])
    | extract_lets +onlyGivenNames z | with_reducible apply State.setNet_keeps
    | with_reducible apply State.netTick_keeps | with_reducible apply Keeps.ite | with_reducible apply Keeps.iteSnd
    | with_reducible refine Keeps.ofEq ?_ (by assumption) | split
    | with_reducible refine Keeps.update ?_ rfl rfl rfl rfl rfl rfl rfl rfl | intro _ | dsimp only)

theorem State.netAck_keeps {s0 : State} {s : State} (mask : Nat) (h : Keeps s0 s) : Keeps s0 (State.netAck s mask) := by
  unfold State.netAck
  repeat' (first
    | with_reducible assumption | with_reducible apply State.netEnter_keeps | with_reducible apply Keeps.foldl
    | with_reducible apply Keeps.foldlSnd | with_reducible apply Keeps.ite | split | intro _ | dsimp only)

theorem State.netBoundary_keeps {s0 : State} {s : State} (h : Keeps s0 s) : Keeps s0 (State.netBoundary s) := by
  unfold State.netBoundary
  repeat' (first
    | with_reducible assumption
    | (extract_lets +onlyGivenNames z; refine Keeps.cut (v := z) ?_ ?_ <;> [subst z; (intro _; clear_value z)])
    | extract_lets +onlyGivenNames z | with_reducible apply State.boundary_keeps
    | with_reducible apply State.setNet_keeps | with_reducible apply State.netEnter_keeps
    | with_reducible apply State.demand_keeps | with_reducible apply Keeps.foldlSnd | with_reducible apply Keeps.foldl
    | with_reducible apply Keeps.ite | with_reducible apply Keeps.iteSnd
    | with_reducible refine Keeps.ofEq ?_ (by assumption) | split
    | with_reducible refine Keeps.update ?_ rfl rfl rfl rfl rfl rfl rfl rfl | intro _ | dsimp only)

theorem State.safeBoundary_keeps {s0 : State} {s : State} (h : Keeps s0 s) : Keeps s0 (State.safeBoundary s) := by
  unfold State.safeBoundary
  repeat' (first
    | with_reducible assumption
    | (extract_lets +onlyGivenNames z; refine Keeps.cut (v := z) ?_ ?_ <;> [subst z; (intro _; clear_value z)])
    | extract_lets +onlyGivenNames z | with_reducible apply State.boundary_keeps
    | with_reducible apply State.setFlag_keeps | with_reducible apply State.wr_keeps
    | with_reducible apply State.pairInit_keeps | with_reducible apply State.tpShow_keeps
    | with_reducible apply State.levelShow_keeps | with_reducible apply State.demand_keeps
    | with_reducible apply Keeps.foldlSnd | with_reducible apply Keeps.foldl | with_reducible apply Keeps.ite
    | with_reducible apply Keeps.iteSnd | with_reducible refine Keeps.ofEq ?_ (by assumption) | split
    | with_reducible refine Keeps.update ?_ rfl rfl rfl rfl rfl rfl rfl rfl | intro _ | dsimp only)

theorem State.safetyTick_keeps {s0 : State} {s : State} (h : Keeps s0 s) : Keeps s0 (State.safetyTick s) := by
  unfold State.safetyTick
  repeat' (first
    | with_reducible assumption
    | (extract_lets +onlyGivenNames z; refine Keeps.cut (v := z) ?_ ?_ <;> [subst z; (intro _; clear_value z)])
    | extract_lets +onlyGivenNames z | with_reducible apply State.safeBoundary_keeps
    | with_reducible apply State.netBoundary_keeps | with_reducible apply State.pairTick_keeps
    | with_reducible apply State.wdTick_keeps | with_reducible apply State.netTick_keeps
    | with_reducible apply State.demand_keeps | with_reducible apply Keeps.foldl | with_reducible apply Keeps.foldlSnd
    | with_reducible apply Keeps.ite | split | intro _ | dsimp only)

theorem State.pairDiscrepancy_keeps {s0 : State} {s : State} (q : Fin 8) (h : Keeps s0 s) : Keeps s0 (State.pairDiscrepancy s q) := by
  unfold State.pairDiscrepancy
  repeat' (first
    | with_reducible assumption
    | (extract_lets +onlyGivenNames z; refine Keeps.cut (v := z) ?_ ?_ <;> [subst z; (intro _; clear_value z)])
    | extract_lets +onlyGivenNames z | with_reducible apply State.setPair_keeps | with_reducible apply State.pairTick_keeps
    | with_reducible apply State.demand_keeps | with_reducible apply Keeps.ite | split
    | with_reducible refine Keeps.update ?_ rfl rfl rfl rfl rfl rfl rfl rfl | intro _ | dsimp only)

theorem State.safeAck_keeps {s0 : State} {s : State} (mask : Nat) (h : Keeps s0 s) : Keeps s0 (State.safeAck s mask) := by
  unfold State.safeAck
  repeat' (first
    | with_reducible assumption | with_reducible apply State.setPair_keeps | with_reducible apply Keeps.foldl
    | with_reducible apply Keeps.foldlSnd | with_reducible apply Keeps.ite | split
    | with_reducible refine Keeps.update ?_ rfl rfl rfl rfl rfl rfl rfl rfl | intro _ | dsimp only)

theorem State.safeLinkLoss_keeps {s0 : State} {s : State} (h : Keeps s0 s) : Keeps s0 (State.safeLinkLoss s) := by
  unfold State.safeLinkLoss
  repeat' (first
    | with_reducible assumption
    | (extract_lets +onlyGivenNames z; refine Keeps.cut (v := z) ?_ ?_ <;> [subst z; (intro _; clear_value z)])
    | extract_lets +onlyGivenNames z | with_reducible apply State.wr_keeps | with_reducible apply State.pairInit_keeps
    | with_reducible apply State.tpShow_keeps | with_reducible apply State.levelShow_keeps
    | with_reducible apply State.demand_keeps | with_reducible apply Keeps.foldlSnd | with_reducible apply Keeps.foldl
    | with_reducible apply Keeps.ite | with_reducible apply Keeps.iteSnd
    | with_reducible refine Keeps.ofEq ?_ (by assumption) | split
    | with_reducible refine Keeps.update ?_ rfl rfl rfl rfl rfl rfl rfl rfl | intro _ | dsimp only)

theorem State.safeAccepted_keeps {s0 : State} {s : State} (h : Keeps s0 s) : Keeps s0 (State.safeAccepted s) := by
  unfold State.safeAccepted
  repeat' (first
    | with_reducible assumption
    | (extract_lets +onlyGivenNames z; refine Keeps.cut (v := z) ?_ ?_ <;> [subst z; (intro _; clear_value z)])
    | extract_lets +onlyGivenNames z | with_reducible apply Keeps.ite | with_reducible apply Keeps.iteSnd
    | with_reducible refine Keeps.ofEq ?_ (by assumption) | split
    | with_reducible refine Keeps.update ?_ rfl rfl rfl rfl rfl rfl rfl rfl | intro _ | dsimp only)

end Sys2Proof.Machine
end

