-- ==== Sys2Proof/Laws/KeepsGdrv.lean ====
section
/-!
SUPPORT. Laws/KeepsGdrv.lean: every operation of Machine/Gdrv.lean keeps what `Keeps` says.
-/
namespace Sys2Proof.Machine

set_option linter.unusedTactic false
set_option linter.unreachableTactic false
set_option linter.unusedVariables false
set_option linter.tactic.unusedName false

theorem State.setLeg_keeps {s0 : State} {s : State} (n : Fin 12) (u : LegUnit) (h : Keeps s0 s) : Keeps s0 (State.setLeg s n u) := by
  unfold State.setLeg
  repeat' (first
    | with_reducible assumption | with_reducible refine Keeps.update ?_ rfl rfl rfl rfl rfl rfl rfl rfl)

theorem State.setAxis_keeps {s0 : State} {s : State} (a : Fin 4) (u : AxisUnit) (h : Keeps s0 s) : Keeps s0 (State.setAxis s a u) := by
  unfold State.setAxis
  repeat' (first
    | with_reducible assumption | with_reducible refine Keeps.update ?_ rfl rfl rfl rfl rfl rfl rfl rfl)

theorem State.setAxisState_keeps {s0 : State} {s : State} (a : Fin 4) (st : Nat) (h : Keeps s0 s) : Keeps s0 (State.setAxisState s a st) := by
  unfold State.setAxisState
  repeat' (first
    | with_reducible assumption
    | (extract_lets +onlyGivenNames z; refine Keeps.cut (v := z) ?_ ?_ <;> [subst z; (intro _; clear_value z)])
    | extract_lets +onlyGivenNames z | with_reducible apply State.wr_keeps | with_reducible apply State.setFlag_keeps
    | with_reducible apply State.irqIf_keeps | with_reducible apply Keeps.ite | with_reducible apply Keeps.iteSnd
    | with_reducible refine Keeps.ofEq ?_ (by assumption) | split
    | with_reducible refine Keeps.update ?_ rfl rfl rfl rfl rfl rfl rfl rfl | intro _ | dsimp only)

theorem State.legCodes_keeps {s0 : State} {s : State} (n : Fin 12) (entry : Bool) (h : Keeps s0 s) : Keeps s0 (State.legCodes s n entry) := by
  unfold State.legCodes
  repeat' (first
    | with_reducible assumption
    | (extract_lets +onlyGivenNames z; refine Keeps.cut (v := z) ?_ ?_ <;> [subst z; (intro _; clear_value z)])
    | (extract_lets +onlyGivenNames z; subst z) | with_reducible apply State.wr_keeps
    | with_reducible apply State.setLeg_keeps | with_reducible apply Keeps.ite | split
    | with_reducible refine Keeps.update ?_ rfl rfl rfl rfl rfl rfl rfl rfl | intro _ | dsimp only)

theorem State.legLeave_keeps {s0 : State} {s : State} (n : Fin 12) (h : Keeps s0 s) : Keeps s0 (State.legLeave s n) := by
  unfold State.legLeave
  repeat' (first
    | with_reducible assumption
    | (extract_lets +onlyGivenNames z; refine Keeps.cut (v := z) ?_ ?_ <;> [subst z; (intro _; clear_value z)])
    | extract_lets +onlyGivenNames z | with_reducible apply State.applySet_keeps
    | with_reducible apply State.legCodes_keeps | with_reducible apply State.commitDone_keeps
    | with_reducible apply Keeps.ite | with_reducible apply Keeps.iteSnd
    | with_reducible refine Keeps.ofEq ?_ (by assumption) | split
    | with_reducible refine Keeps.update ?_ rfl rfl rfl rfl rfl rfl rfl rfl | intro _ | dsimp only)

theorem State.legQuit_keeps {s0 : State} {s : State} (n : Fin 12) (st : Nat) (h : Keeps s0 s) : Keeps s0 (State.legQuit s n st) := by
  unfold State.legQuit
  repeat' (first
    | with_reducible assumption
    | (extract_lets +onlyGivenNames z; refine Keeps.cut (v := z) ?_ ?_ <;> [subst z; (intro _; clear_value z)])
    | extract_lets +onlyGivenNames z | with_reducible apply State.setLeg_keeps
    | with_reducible apply State.freshWord_keeps | with_reducible apply State.wr_keeps | with_reducible apply Keeps.ite
    | with_reducible apply Keeps.iteSnd | with_reducible refine Keeps.ofEq ?_ (by assumption) | split
    | with_reducible refine Keeps.update ?_ rfl rfl rfl rfl rfl rfl rfl rfl | intro _ | dsimp only)

theorem State.setLegState_keeps {s0 : State} {s : State} (n : Fin 12) (st : Nat) (h : Keeps s0 s) : Keeps s0 (State.setLegState s n st) := by
  unfold State.setLegState
  repeat' (first
    | with_reducible assumption
    | (extract_lets +onlyGivenNames z; refine Keeps.cut (v := z) ?_ ?_ <;> [subst z; (intro _; clear_value z)])
    | extract_lets +onlyGivenNames z | with_reducible apply State.legQuit_keeps
    | with_reducible apply State.legLeave_keeps | with_reducible apply State.setLeg_keeps
    | with_reducible apply State.wr_keeps | with_reducible apply State.irq_keeps
    | with_reducible apply State.legCodes_keeps | with_reducible apply Keeps.ite | with_reducible apply Keeps.iteSnd
    | with_reducible refine Keeps.ofEq ?_ (by assumption) | split
    | with_reducible refine Keeps.update ?_ rfl rfl rfl rfl rfl rfl rfl rfl | intro _ | dsimp only)

theorem State.legRest_keeps {s0 : State} {s : State} (n : Fin 12) (h : Keeps s0 s) : Keeps s0 (State.legRest s n) := by
  unfold State.legRest
  repeat' (first
    | with_reducible assumption | with_reducible apply State.setLegState_keeps | with_reducible apply Keeps.ite | split
    | intro _)

theorem State.axisStill_keeps {s0 : State} {s : State} (a : Fin 4) (h : Keeps s0 s) : Keeps s0 (State.axisStill s a) := by
  unfold State.axisStill
  repeat' (first
    | with_reducible assumption
    | (extract_lets +onlyGivenNames z; refine Keeps.cut (v := z) ?_ ?_ <;> [subst z; (intro _; clear_value z)])
    | extract_lets +onlyGivenNames z | with_reducible apply State.legRest_keeps | with_reducible apply State.setAxis_keeps
    | with_reducible apply State.wr_keeps | with_reducible apply Keeps.foldl | with_reducible apply Keeps.foldlSnd
    | with_reducible apply Keeps.ite | split | with_reducible refine Keeps.update ?_ rfl rfl rfl rfl rfl rfl rfl rfl | intro _
    | dsimp only)

theorem State.unhome_keeps {s0 : State} {s : State} (a : Fin 4) (h : Keeps s0 s) : Keeps s0 (State.unhome s a) := by
  unfold State.unhome
  repeat' (first
    | with_reducible assumption | with_reducible apply State.wr_keeps | with_reducible apply Keeps.ite | split | intro _)

theorem State.axisFault_keeps {s0 : State} {s : State} (a : Fin 4) (cause : Nat) (h : Keeps s0 s) : Keeps s0 (State.axisFault s a cause) := by
  unfold State.axisFault
  repeat' (first
    | with_reducible assumption
    | (extract_lets +onlyGivenNames z; refine Keeps.cut (v := z) ?_ ?_ <;> [subst z; (intro _; clear_value z)])
    | extract_lets +onlyGivenNames z | with_reducible apply State.wr_keeps | with_reducible apply State.axisStill_keeps
    | with_reducible apply State.setAxis_keeps | with_reducible apply State.setAxisState_keeps
    | with_reducible apply State.irq_keeps | with_reducible apply Keeps.ite | split
    | with_reducible refine Keeps.update ?_ rfl rfl rfl rfl rfl rfl rfl rfl | intro _ | dsimp only)

theorem State.axisLegFaulted_keeps {s0 : State} {s : State} (a : Fin 4) (h : Keeps s0 s) : Keeps s0 (State.axisLegFaulted s a) := by
  unfold State.axisLegFaulted
  repeat' (first
    | with_reducible assumption
    | (extract_lets +onlyGivenNames z; refine Keeps.cut (v := z) ?_ ?_ <;> [subst z; (intro _; clear_value z)])
    | extract_lets +onlyGivenNames z | with_reducible apply State.wr_keeps | with_reducible apply State.axisFault_keeps
    | with_reducible apply Keeps.ite | with_reducible apply Keeps.iteSnd
    | with_reducible refine Keeps.ofEq ?_ (by assumption) | split
    | with_reducible refine Keeps.update ?_ rfl rfl rfl rfl rfl rfl rfl rfl | intro _ | dsimp only)

theorem State.axisIdle_keeps {s0 : State} {s : State} (a : Fin 4) (h : Keeps s0 s) : Keeps s0 (State.axisIdle s a) := by
  unfold State.axisIdle
  repeat' (first
    | with_reducible assumption
    | (extract_lets +onlyGivenNames z; refine Keeps.cut (v := z) ?_ ?_ <;> [subst z; (intro _; clear_value z)])
    | extract_lets +onlyGivenNames z | with_reducible apply State.unhome_keeps
    | with_reducible apply State.axisStill_keeps | with_reducible apply State.setAxis_keeps
    | with_reducible apply State.setAxisState_keeps | with_reducible apply Keeps.ite | with_reducible apply Keeps.iteSnd
    | with_reducible refine Keeps.ofEq ?_ (by assumption) | split
    | with_reducible refine Keeps.update ?_ rfl rfl rfl rfl rfl rfl rfl rfl | intro _ | dsimp only)

theorem State.legOff_keeps {s0 : State} {s : State} (n : Fin 12) (h : Keeps s0 s) : Keeps s0 (State.legOff s n) := by
  unfold State.legOff
  repeat' (first
    | with_reducible assumption
    | (extract_lets +onlyGivenNames z; refine Keeps.cut (v := z) ?_ ?_ <;> [subst z; (intro _; clear_value z)])
    | extract_lets +onlyGivenNames z | with_reducible apply State.setLegState_keeps
    | with_reducible apply State.axisIdle_keeps | with_reducible apply Keeps.foldlSnd | with_reducible apply Keeps.foldl
    | with_reducible apply Keeps.ite | with_reducible apply Keeps.iteSnd
    | with_reducible refine Keeps.ofEq ?_ (by assumption) | split
    | with_reducible refine Keeps.update ?_ rfl rfl rfl rfl rfl rfl rfl rfl | intro _ | dsimp only)

theorem State.legCheck_keeps {s0 : State} {s : State} (n : Fin 12) (h : Keeps s0 s) : Keeps s0 (State.legCheck s n) := by
  unfold State.legCheck
  repeat' (first
    | with_reducible assumption
    | (extract_lets +onlyGivenNames z; refine Keeps.cut (v := z) ?_ ?_ <;> [subst z; (intro _; clear_value z)])
    | extract_lets +onlyGivenNames z | with_reducible apply State.setLegState_keeps | with_reducible apply State.legOff_keeps
    | with_reducible apply Keeps.ite | split | intro _ | dsimp only)

theorem State.legsCheck_keeps {s0 : State} {s : State} (h : Keeps s0 s) : Keeps s0 (State.legsCheck s) := by
  unfold State.legsCheck
  repeat' (first
    | with_reducible assumption | with_reducible apply State.legCheck_keeps | with_reducible apply Keeps.foldl
    | with_reducible apply Keeps.foldlSnd | intro _ | dsimp only)

theorem State.legsOff_keeps {s0 : State} {s : State} (h : Keeps s0 s) : Keeps s0 (State.legsOff s) := by
  unfold State.legsOff
  repeat' (first
    | with_reducible assumption | with_reducible apply State.legOff_keeps | with_reducible apply Keeps.foldl
    | with_reducible apply Keeps.foldlSnd | intro _ | dsimp only)

theorem State.gdrvLinkLoss_keeps {s0 : State} {s : State} (h : Keeps s0 s) : Keeps s0 (State.gdrvLinkLoss s) := by
  unfold State.gdrvLinkLoss
  repeat' (first
    | with_reducible assumption
    | (extract_lets +onlyGivenNames z; refine Keeps.cut (v := z) ?_ ?_ <;> [subst z; (intro _; clear_value z)])
    | extract_lets +onlyGivenNames z | with_reducible apply State.wr_keeps | with_reducible apply State.legsOff_keeps
    | with_reducible apply Keeps.foldlSnd | with_reducible apply Keeps.foldl | with_reducible apply Keeps.ite
    | with_reducible apply Keeps.iteSnd | with_reducible refine Keeps.ofEq ?_ (by assumption) | split
    | with_reducible refine Keeps.update ?_ rfl rfl rfl rfl rfl rfl rfl rfl | intro _ | dsimp only)

theorem State.gdrvModes_keeps {s0 : State} {s : State} (h : Keeps s0 s) : Keeps s0 (State.gdrvModes s) := by
  unfold State.gdrvModes
  repeat' (first
    | with_reducible assumption
    | (extract_lets +onlyGivenNames z; refine Keeps.cut (v := z) ?_ ?_ <;> [subst z; (intro _; clear_value z)])
    | extract_lets +onlyGivenNames z | with_reducible apply State.wr_keeps | with_reducible apply State.legsCheck_keeps
    | with_reducible apply Keeps.foldl | with_reducible apply Keeps.foldlSnd | with_reducible apply Keeps.ite | split
    | intro _ | dsimp only)

theorem State.gdrvCommit_keeps {s0 : State} {s : State} (n : Fin 12) (h : Keeps s0 s) : Keeps s0 (State.gdrvCommit s n) := by
  unfold State.gdrvCommit
  repeat' (first
    | with_reducible assumption
    | (extract_lets +onlyGivenNames z; refine Keeps.cut (v := z) ?_ ?_ <;> [subst z; (intro _; clear_value z)])
    | extract_lets +onlyGivenNames z | with_reducible apply State.wr_keeps | with_reducible apply State.legCodes_keeps
    | with_reducible apply State.legsCheck_keeps | with_reducible apply Keeps.ite | with_reducible apply Keeps.iteSnd
    | with_reducible refine Keeps.ofEq ?_ (by assumption) | split
    | with_reducible refine Keeps.update ?_ rfl rfl rfl rfl rfl rfl rfl rfl | intro _ | dsimp only)

theorem State.chimneyCommit_keeps {s0 : State} {s : State} (h : Keeps s0 s) : Keeps s0 (State.chimneyCommit s) := by
  unfold State.chimneyCommit
  repeat' (first
    | with_reducible assumption
    | (extract_lets +onlyGivenNames z; refine Keeps.cut (v := z) ?_ ?_ <;> [subst z; (intro _; clear_value z)])
    | extract_lets +onlyGivenNames z | with_reducible apply State.wr_keeps | with_reducible apply State.legsCheck_keeps
    | with_reducible apply Keeps.ite | with_reducible apply Keeps.iteSnd
    | with_reducible refine Keeps.ofEq ?_ (by assumption) | split
    | with_reducible refine Keeps.update ?_ rfl rfl rfl rfl rfl rfl rfl rfl | intro _ | dsimp only)

theorem State.lastNs_keeps {s0 : State} {s : State} (n : Fin 12) (f : Fld) (t : Option Nat) (h : Keeps s0 s) : Keeps s0 (State.lastNs s n f t) := by
  unfold State.lastNs
  repeat' (first
    | with_reducible assumption
    | (extract_lets +onlyGivenNames z; refine Keeps.cut (v := z) ?_ ?_ <;> [subst z; (intro _; clear_value z)])
    | extract_lets +onlyGivenNames z | with_reducible apply State.wr_keeps | with_reducible apply Keeps.ite
    | with_reducible apply Keeps.iteSnd | with_reducible refine Keeps.ofEq ?_ (by assumption) | split
    | with_reducible refine Keeps.update ?_ rfl rfl rfl rfl rfl rfl rfl rfl | intro _ | dsimp only)

theorem State.adaptShow_keeps {s0 : State} {s : State} (n : Fin 12) (a : Nat × Bool × Bool) (b : Nat × Bool × Bool) (h : Keeps s0 s) : Keeps s0 (State.adaptShow s n a b) := by
  unfold State.adaptShow
  repeat' (first
    | with_reducible assumption
    | (extract_lets +onlyGivenNames z; refine Keeps.cut (v := z) ?_ ?_ <;> [subst z; (intro _; clear_value z)])
    | extract_lets +onlyGivenNames z | with_reducible apply State.wr_keeps | with_reducible apply State.setLeg_keeps
    | with_reducible apply State.irqIf_keeps | with_reducible apply Keeps.ite | with_reducible apply Keeps.iteSnd
    | with_reducible refine Keeps.ofEq ?_ (by assumption) | split
    | with_reducible refine Keeps.update ?_ rfl rfl rfl rfl rfl rfl rfl rfl | intro _ | dsimp only)

theorem State.legAdapt_keeps {s0 : State} {s : State} (n : Fin 12) (m : LegMeasure) (h : Keeps s0 s) : Keeps s0 (State.legAdapt s n m) := by
  unfold State.legAdapt
  repeat' (first
    | with_reducible assumption
    | (extract_lets +onlyGivenNames z; refine Keeps.cut (v := z) ?_ ?_ <;> [subst z; (intro _; clear_value z)])
    | extract_lets +onlyGivenNames z | with_reducible apply State.adaptShow_keeps
    | with_reducible apply State.lastNs_keeps | with_reducible apply Keeps.ite | with_reducible apply Keeps.iteSnd
    | with_reducible refine Keeps.ofEq ?_ (by assumption) | split
    | with_reducible refine Keeps.update ?_ rfl rfl rfl rfl rfl rfl rfl rfl | intro _ | dsimp only)

theorem State.legDark_keeps {s0 : State} {s : State} (n : Fin 12) (h : Keeps s0 s) : Keeps s0 (State.legDark s n) := by
  unfold State.legDark
  repeat' (first
    | with_reducible assumption
    | (extract_lets +onlyGivenNames z; refine Keeps.cut (v := z) ?_ ?_ <;> [subst z; (intro _; clear_value z)])
    | extract_lets +onlyGivenNames z | with_reducible apply State.setLeg_keeps | with_reducible apply Keeps.ite
    | with_reducible apply Keeps.iteSnd | with_reducible refine Keeps.ofEq ?_ (by assumption) | split
    | with_reducible refine Keeps.update ?_ rfl rfl rfl rfl rfl rfl rfl rfl | intro _ | dsimp only)

theorem State.mendAt_keeps {s0 : State} {s : State} (n : Fin 12) (t : Rat) (dv : Nat) (h : Keeps s0 s) : Keeps s0 (State.mendAt s n t dv) := by
  unfold State.mendAt
  repeat' (first
    | with_reducible assumption
    | (extract_lets +onlyGivenNames z; refine Keeps.cut (v := z) ?_ ?_ <;> [subst z; (intro _; clear_value z)])
    | extract_lets +onlyGivenNames z | with_reducible apply State.setLeg_keeps | with_reducible apply Keeps.ite
    | with_reducible apply Keeps.iteSnd | with_reducible refine Keeps.ofEq ?_ (by assumption) | split
    | with_reducible refine Keeps.update ?_ rfl rfl rfl rfl rfl rfl rfl rfl | intro _ | dsimp only)

theorem State.refreshPulse_keeps {s0 : State} {s : State} (n : Fin 12) (dv : Nat) (h : Keeps s0 s) : Keeps s0 (State.refreshPulse s n dv) := by
  unfold State.refreshPulse
  repeat' (first
    | with_reducible assumption
    | (extract_lets +onlyGivenNames z; refine Keeps.cut (v := z) ?_ ?_ <;> [subst z; (intro _; clear_value z)])
    | extract_lets +onlyGivenNames z | with_reducible apply State.setLeg_keeps
    | with_reducible apply State.wrapBump_keeps | with_reducible apply State.mendAt_keeps
    | with_reducible apply Keeps.ite | with_reducible apply Keeps.iteSnd
    | with_reducible refine Keeps.ofEq ?_ (by assumption) | split
    | with_reducible refine Keeps.update ?_ rfl rfl rfl rfl rfl rfl rfl rfl | intro _ | dsimp only)

theorem State.legMends_keeps {s0 : State} {s : State} (h : Keeps s0 s) : Keeps s0 (State.legMends s) := by
  unfold State.legMends
  repeat' (first
    | with_reducible assumption
    | (extract_lets +onlyGivenNames z; refine Keeps.cut (v := z) ?_ ?_ <;> [subst z; (intro _; clear_value z)])
    | extract_lets +onlyGivenNames z | with_reducible apply State.setLeg_keeps | with_reducible apply State.wr_keeps
    | with_reducible apply Keeps.foldlSnd | with_reducible apply Keeps.foldl | with_reducible apply Keeps.ite
    | with_reducible apply Keeps.iteSnd | with_reducible refine Keeps.ofEq ?_ (by assumption) | split
    | with_reducible refine Keeps.update ?_ rfl rfl rfl rfl rfl rfl rfl rfl | intro _ | dsimp only)

theorem State.refreshDue_keeps {s0 : State} {s : State} (n : Fin 12) (dv : Nat) (h : Keeps s0 s) : Keeps s0 (State.refreshDue s n dv) := by
  unfold State.refreshDue
  repeat' (first
    | with_reducible assumption
    | (extract_lets +onlyGivenNames z; refine Keeps.cut (v := z) ?_ ?_ <;> [subst z; (intro _; clear_value z)])
    | extract_lets +onlyGivenNames z | with_reducible apply State.refreshPulse_keeps | with_reducible apply Keeps.ite
    | with_reducible apply Keeps.iteSnd | with_reducible refine Keeps.ofEq ?_ (by assumption) | split
    | with_reducible refine Keeps.update ?_ rfl rfl rfl rfl rfl rfl rfl rfl | intro _ | dsimp only)

theorem State.legTake_keeps {s0 : State} {s : State} (n : Fin 12) (c : LegCmd) (h : Keeps s0 s) : Keeps s0 (State.legTake s n c) := by
  unfold State.legTake
  repeat' (first
    | with_reducible assumption
    | (extract_lets +onlyGivenNames z; refine Keeps.cut (v := z) ?_ ?_ <;> [subst z; (intro _; clear_value z)])
    | extract_lets +onlyGivenNames z | with_reducible apply State.setLeg_keeps | with_reducible apply Keeps.ite
    | with_reducible apply Keeps.iteSnd | with_reducible refine Keeps.ofEq ?_ (by assumption) | split
    | with_reducible refine Keeps.update ?_ rfl rfl rfl rfl rfl rfl rfl rfl | intro _ | dsimp only)

theorem State.mendFree_keeps {s0 : State} {s : State} (n : Fin 12) (a : Rat) (b : Rat) (h : Keeps s0 s) : Keeps s0 (State.mendFree s n a b) := by
  unfold State.mendFree
  repeat' (first
    | with_reducible assumption
    | (extract_lets +onlyGivenNames z; refine Keeps.cut (v := z) ?_ ?_ <;> [subst z; (intro _; clear_value z)])
    | extract_lets +onlyGivenNames z | with_reducible apply State.freshWord_keeps
    | with_reducible apply State.mendAt_keeps | with_reducible apply Keeps.ite | with_reducible apply Keeps.iteSnd
    | with_reducible refine Keeps.ofEq ?_ (by assumption) | split
    | with_reducible refine Keeps.update ?_ rfl rfl rfl rfl rfl rfl rfl rfl | intro _ | dsimp only)

theorem State.lowMends_keeps {s0 : State} {s : State} (n : Fin 12) (c : LegCmd) (dv : Nat) (h : Keeps s0 s) : Keeps s0 (State.lowMends s n c dv) := by
  unfold State.lowMends
  repeat' (first
    | with_reducible assumption
    | (extract_lets +onlyGivenNames z; refine Keeps.cut (v := z) ?_ ?_ <;> [subst z; (intro _; clear_value z)])
    | extract_lets +onlyGivenNames z | with_reducible apply State.mendAt_keeps
    | with_reducible apply State.mendFree_keeps | with_reducible apply Keeps.ite | with_reducible apply Keeps.iteSnd
    | with_reducible refine Keeps.ofEq ?_ (by assumption) | split
    | with_reducible refine Keeps.update ?_ rfl rfl rfl rfl rfl rfl rfl rfl | intro _ | dsimp only)

theorem State.lockMends_keeps {s0 : State} {s : State} (n : Fin 12) (h : Keeps s0 s) : Keeps s0 (State.lockMends s n) := by
  unfold State.lockMends
  repeat' (first
    | with_reducible assumption
    | (extract_lets +onlyGivenNames z; refine Keeps.cut (v := z) ?_ ?_ <;> [subst z; (intro _; clear_value z)])
    | extract_lets +onlyGivenNames z | with_reducible apply State.freshWord_keeps
    | with_reducible apply State.mendAt_keeps | with_reducible apply State.mendFree_keeps
    | with_reducible apply Keeps.foldlSnd | with_reducible apply Keeps.foldl | with_reducible apply Keeps.ite
    | with_reducible apply Keeps.iteSnd | with_reducible refine Keeps.ofEq ?_ (by assumption) | split
    | with_reducible refine Keeps.update ?_ rfl rfl rfl rfl rfl rfl rfl rfl | intro _ | dsimp only)

theorem State.legPeriod_keeps {s0 : State} {s : State} (n : Fin 12) (m : LegMeasure) (per : Nat) (len : Nat) (h : Keeps s0 s) : Keeps s0 (State.legPeriod s n m per len) := by
  unfold State.legPeriod
  repeat' (first
    | with_reducible assumption
    | (extract_lets +onlyGivenNames z; refine Keeps.cut (v := z) ?_ ?_ <;> [subst z; (intro _; clear_value z)])
    | extract_lets +onlyGivenNames z | with_reducible apply State.applySet_keeps
    | with_reducible apply State.gdrvCommit_keeps | with_reducible apply State.commitDone_keeps
    | with_reducible apply State.legAdapt_keeps | with_reducible apply State.setLegState_keeps
    | with_reducible apply State.refreshPulse_keeps | with_reducible apply State.lowMends_keeps
    | with_reducible apply State.legTake_keeps | with_reducible apply State.bump_keeps | with_reducible apply Keeps.ite
    | with_reducible apply Keeps.iteSnd | with_reducible refine Keeps.ofEq ?_ (by assumption) | split
    | with_reducible refine Keeps.update ?_ rfl rfl rfl rfl rfl rfl rfl rfl | intro _ | dsimp only)

theorem State.bootUv_keeps {s0 : State} {s : State} (n : Fin 12) (dv : Nat) (h : Keeps s0 s) : Keeps s0 (State.bootUv s n dv) := by
  unfold State.bootUv
  repeat' (first
    | with_reducible assumption
    | (extract_lets +onlyGivenNames z; refine Keeps.cut (v := z) ?_ ?_ <;> [subst z; (intro _; clear_value z)])
    | extract_lets +onlyGivenNames z | with_reducible apply State.wr_keeps | with_reducible apply State.bump_keeps
    | with_reducible apply State.setLeg_keeps | with_reducible apply State.legDark_keeps
    | with_reducible apply State.lockMends_keeps | with_reducible apply State.irq_keeps | with_reducible apply Keeps.ite
    | with_reducible apply Keeps.iteSnd | with_reducible refine Keeps.ofEq ?_ (by assumption) | split
    | with_reducible refine Keeps.update ?_ rfl rfl rfl rfl rfl rfl rfl rfl | intro _ | dsimp only)

theorem State.recordFault_keeps {s0 : State} {s : State} (n : Fin 12) (kind : Nat) (h : Keeps s0 s) : Keeps s0 (State.recordFault s n kind) := by
  unfold State.recordFault
  repeat' (first
    | with_reducible assumption
    | (extract_lets +onlyGivenNames z; refine Keeps.cut (v := z) ?_ ?_ <;> [subst z; (intro _; clear_value z)])
    | extract_lets +onlyGivenNames z | with_reducible apply State.wr_keeps | with_reducible apply State.wr64_keeps
    | with_reducible apply State.irq_keeps | with_reducible apply Keeps.ite | split | intro _ | dsimp only)

theorem State.legTurnOff_keeps {s0 : State} {s : State} (n : Fin 12) (h : Keeps s0 s) : Keeps s0 (State.legTurnOff s n) := by
  unfold State.legTurnOff
  repeat' (first
    | with_reducible assumption
    | (extract_lets +onlyGivenNames z; refine Keeps.cut (v := z) ?_ ?_ <;> [subst z; (intro _; clear_value z)])
    | extract_lets +onlyGivenNames z | with_reducible apply State.setLeg_keeps | with_reducible apply Keeps.ite
    | with_reducible apply Keeps.iteSnd | with_reducible refine Keeps.ofEq ?_ (by assumption) | split
    | with_reducible refine Keeps.update ?_ rfl rfl rfl rfl rfl rfl rfl rfl | intro _ | dsimp only)

theorem State.legCut_keeps {s0 : State} {s : State} (n : Fin 12) (h : Keeps s0 s) : Keeps s0 (State.legCut s n) := by
  unfold State.legCut
  repeat' (first
    | with_reducible assumption
    | (extract_lets +onlyGivenNames z; refine Keeps.cut (v := z) ?_ ?_ <;> [subst z; (intro _; clear_value z)])
    | extract_lets +onlyGivenNames z | with_reducible apply State.setLegState_keeps
    | with_reducible apply State.setLeg_keeps | with_reducible apply Keeps.ite | with_reducible apply Keeps.iteSnd
    | with_reducible refine Keeps.ofEq ?_ (by assumption) | split
    | with_reducible refine Keeps.update ?_ rfl rfl rfl rfl rfl rfl rfl rfl | intro _ | dsimp only)

theorem State.legFault_keeps {s0 : State} {s : State} (n : Fin 12) (kind : Nat) (h : Keeps s0 s) : Keeps s0 (State.legFault s n kind) := by
  unfold State.legFault
  repeat' (first
    | with_reducible assumption
    | (extract_lets +onlyGivenNames z; refine Keeps.cut (v := z) ?_ ?_ <;> [subst z; (intro _; clear_value z)])
    | extract_lets +onlyGivenNames z | with_reducible apply State.setLegState_keeps
    | with_reducible apply State.wr_keeps | with_reducible apply State.bump_keeps | with_reducible apply State.irq_keeps
    | with_reducible apply State.legTurnOff_keeps | with_reducible apply State.recordFault_keeps
    | with_reducible apply State.legCut_keeps | with_reducible apply State.axisLegFaulted_keeps
    | with_reducible apply State.unhome_keeps | with_reducible apply Keeps.foldlSnd | with_reducible apply Keeps.foldl
    | with_reducible apply Keeps.ite | with_reducible apply Keeps.iteSnd
    | with_reducible refine Keeps.ofEq ?_ (by assumption) | split
    | with_reducible refine Keeps.update ?_ rfl rfl rfl rfl rfl rfl rfl rfl | intro _ | dsimp only)

theorem State.vdsFault_keeps {s0 : State} {s : State} (n : Fin 12) (d : DrainDrop) (h : Keeps s0 s) : Keeps s0 (State.vdsFault s n d) := by
  unfold State.vdsFault
  repeat' (first
    | with_reducible assumption
    | (extract_lets +onlyGivenNames z; refine Keeps.cut (v := z) ?_ ?_ <;> [subst z; (intro _; clear_value z)])
    | extract_lets +onlyGivenNames z | with_reducible apply State.legFault_keeps | with_reducible apply Keeps.ite
    | with_reducible apply Keeps.iteSnd | with_reducible refine Keeps.ofEq ?_ (by assumption) | split
    | with_reducible refine Keeps.update ?_ rfl rfl rfl rfl rfl rfl rfl rfl | intro _ | dsimp only)

theorem State.hardShort_keeps {s0 : State} {s : State} (n : Fin 12) (d : DrainDrop) (h : Keeps s0 s) : Keeps s0 (State.hardShort s n d) := by
  unfold State.hardShort
  repeat' (first
    | with_reducible assumption
    | (extract_lets +onlyGivenNames z; refine Keeps.cut (v := z) ?_ ?_ <;> [subst z; (intro _; clear_value z)])
    | extract_lets +onlyGivenNames z | with_reducible apply State.legFault_keeps | with_reducible apply Keeps.ite
    | with_reducible apply Keeps.iteSnd | with_reducible refine Keeps.ofEq ?_ (by assumption) | split
    | with_reducible refine Keeps.update ?_ rfl rfl rfl rfl rfl rfl rfl rfl | intro _ | dsimp only)

theorem State.legClear_keeps {s0 : State} {s : State} (n : Fin 12) (h : Keeps s0 s) : Keeps s0 (State.legClear s n) := by
  unfold State.legClear
  repeat' (first
    | with_reducible assumption | with_reducible apply State.setLegState_keeps | with_reducible apply State.legsCheck_keeps
    | with_reducible apply Keeps.ite | split | intro _)

theorem State.diagEnd_keeps {s0 : State} {s : State} (n : Fin 12) (res : Nat) (h : Keeps s0 s) : Keeps s0 (State.diagEnd s n res) := by
  unfold State.diagEnd
  repeat' (first
    | with_reducible assumption
    | (extract_lets +onlyGivenNames z; refine Keeps.cut (v := z) ?_ ?_ <;> [subst z; (intro _; clear_value z)])
    | extract_lets +onlyGivenNames z | with_reducible apply State.wr_keeps | with_reducible apply State.irq_keeps
    | with_reducible apply State.setLegState_keeps | with_reducible apply State.legsCheck_keeps
    | with_reducible apply Keeps.ite | split | intro _ | dsimp only)

theorem State.diagStart_keeps {s0 : State} {s : State} (n : Fin 12) (h : Keeps s0 s) : Keeps s0 (State.diagStart s n) := by
  unfold State.diagStart
  repeat' (first
    | with_reducible assumption
    | (extract_lets +onlyGivenNames z; refine Keeps.cut (v := z) ?_ ?_ <;> [subst z; (intro _; clear_value z)])
    | extract_lets +onlyGivenNames z | with_reducible apply State.diagEnd_keeps | with_reducible apply State.setLegState_keeps
    | with_reducible apply State.setLeg_keeps | with_reducible apply Keeps.ite | split
    | with_reducible refine Keeps.update ?_ rfl rfl rfl rfl rfl rfl rfl rfl | intro _ | dsimp only)

theorem State.diagPhase_keeps {s0 : State} {s : State} (n : Fin 12) (vs : Int) (vm : Nat) (h : Keeps s0 s) : Keeps s0 (State.diagPhase s n vs vm) := by
  unfold State.diagPhase
  repeat' (first
    | with_reducible assumption
    | (extract_lets +onlyGivenNames z; refine Keeps.cut (v := z) ?_ ?_ <;> [subst z; (intro _; clear_value z)])
    | (extract_lets +onlyGivenNames z; subst z) | with_reducible apply State.wr_keeps
    | with_reducible apply State.setLeg_keeps | with_reducible apply State.diagEnd_keeps | with_reducible apply Keeps.ite
    | split | with_reducible refine Keeps.update ?_ rfl rfl rfl rfl rfl rfl rfl rfl | intro _ | dsimp only)

theorem State.vgdLockout_keeps {s0 : State} {s : State} (vgd : Nat) (h : Keeps s0 s) : Keeps s0 (State.vgdLockout s vgd) := by
  unfold State.vgdLockout
  repeat' (first
    | with_reducible assumption
    | (extract_lets +onlyGivenNames z; refine Keeps.cut (v := z) ?_ ?_ <;> [subst z; (intro _; clear_value z)])
    | extract_lets +onlyGivenNames z | with_reducible apply State.wr_keeps | with_reducible apply State.bump_keeps
    | with_reducible apply State.irq_keeps | with_reducible apply State.legsOff_keeps | with_reducible apply Keeps.ite | split
    | intro _ | dsimp only)

theorem State.vgdBack_keeps {s0 : State} {s : State} (vgd : Nat) (h : Keeps s0 s) : Keeps s0 (State.vgdBack s vgd) := by
  unfold State.vgdBack
  repeat' (first
    | with_reducible assumption
    | (extract_lets +onlyGivenNames z; refine Keeps.cut (v := z) ?_ ?_ <;> [subst z; (intro _; clear_value z)])
    | extract_lets +onlyGivenNames z | with_reducible apply State.wr_keeps | with_reducible apply State.legsCheck_keeps
    | with_reducible apply Keeps.ite | split | intro _ | dsimp only)

theorem State.chopOn_keeps {s0 : State} {s : State} (vm : Nat) (h : Keeps s0 s) : Keeps s0 (State.chopOn s vm) := by
  unfold State.chopOn
  repeat' (first
    | with_reducible assumption
    | (extract_lets +onlyGivenNames z; refine Keeps.cut (v := z) ?_ ?_ <;> [subst z; (intro _; clear_value z)])
    | extract_lets +onlyGivenNames z | with_reducible apply State.wr_keeps | with_reducible apply State.wrapBump_keeps
    | with_reducible apply Keeps.ite | split | intro _ | dsimp only)

theorem State.chopOff_keeps {s0 : State} {s : State} (vm : Nat) (h : Keeps s0 s) : Keeps s0 (State.chopOff s vm) := by
  unfold State.chopOff
  repeat' (first
    | with_reducible assumption
    | (extract_lets +onlyGivenNames z; refine Keeps.cut (v := z) ?_ ?_ <;> [subst z; (intro _; clear_value z)])
    | extract_lets +onlyGivenNames z | with_reducible apply State.wr_keeps | with_reducible apply Keeps.ite | split | intro _
    | dsimp only)

theorem State.chopLimit_keeps {s0 : State} {s : State} (h : Keeps s0 s) : Keeps s0 (State.chopLimit s) := by
  unfold State.chopLimit
  repeat' (first
    | with_reducible assumption
    | (extract_lets +onlyGivenNames z; refine Keeps.cut (v := z) ?_ ?_ <;> [subst z; (intro _; clear_value z)])
    | extract_lets +onlyGivenNames z | with_reducible apply State.wr_keeps | with_reducible apply State.irq_keeps
    | with_reducible apply Keeps.ite | split | with_reducible refine Keeps.update ?_ rfl rfl rfl rfl rfl rfl rfl rfl | intro _
    | dsimp only)

theorem State.chopRestEnd_keeps {s0 : State} {s : State} (vm : Nat) (h : Keeps s0 s) : Keeps s0 (State.chopRestEnd s vm) := by
  unfold State.chopRestEnd
  repeat' (first
    | with_reducible assumption | with_reducible apply State.chopOn_keeps
    | with_reducible refine Keeps.update ?_ rfl rfl rfl rfl rfl rfl rfl rfl)

theorem State.mbovTrip_keeps {s0 : State} {s : State} (vm : Nat) (h : Keeps s0 s) : Keeps s0 (State.mbovTrip s vm) := by
  unfold State.mbovTrip
  repeat' (first
    | with_reducible assumption
    | (extract_lets +onlyGivenNames z; refine Keeps.cut (v := z) ?_ ?_ <;> [subst z; (intro _; clear_value z)])
    | extract_lets +onlyGivenNames z | with_reducible apply State.wr_keeps | with_reducible apply State.bump_keeps
    | with_reducible apply State.irq_keeps | with_reducible apply State.setLegState_keeps
    | with_reducible apply State.legOff_keeps | with_reducible apply Keeps.foldl | with_reducible apply Keeps.foldlSnd
    | with_reducible apply Keeps.ite | split | intro _ | dsimp only)

theorem State.clearOv_keeps {s0 : State} {s : State} (h : Keeps s0 s) : Keeps s0 (State.clearOv s) := by
  unfold State.clearOv
  repeat' (first
    | with_reducible assumption
    | (extract_lets +onlyGivenNames z; refine Keeps.cut (v := z) ?_ ?_ <;> [subst z; (intro _; clear_value z)])
    | extract_lets +onlyGivenNames z | with_reducible apply State.wr_keeps | with_reducible apply State.legOff_keeps
    | with_reducible apply State.legsCheck_keeps | with_reducible apply Keeps.foldl | with_reducible apply Keeps.foldlSnd
    | with_reducible apply Keeps.ite | split | intro _ | dsimp only)

theorem State.clearFirst_keeps {s0 : State} {s : State} (h : Keeps s0 s) : Keeps s0 (State.clearFirst s) := by
  unfold State.clearFirst
  repeat' (first
    | with_reducible assumption | with_reducible apply State.wr_keeps | with_reducible apply Keeps.foldl
    | with_reducible apply Keeps.foldlSnd | intro _ | dsimp only)

end Sys2Proof.Machine
end

