-- ==== Sys2Proof/Laws/KeepsAxis.lean ====
section
/-!
SUPPORT. Laws/KeepsAxis.lean: every operation of Machine/Axis.lean keeps what `Keeps` says.
-/
namespace Sys2Proof.Machine

set_option linter.unusedTactic false
set_option linter.unreachableTactic false
set_option linter.unusedVariables false
set_option linter.tactic.unusedName false

theorem State.axisShow_keeps {s0 : State} {s : State} (a : Fin 4) (h : Keeps s0 s) : Keeps s0 (State.axisShow s a) := by
  unfold State.axisShow
  repeat' (first
    | with_reducible assumption
    | (extract_lets +onlyGivenNames z; refine Keeps.cut (v := z) ?_ ?_ <;> [subst z; (intro _; clear_value z)])
    | extract_lets +onlyGivenNames z | with_reducible apply State.wr_keeps | with_reducible apply Keeps.ite | split | intro _
    | dsimp only)

theorem State.limitStop_keeps {s0 : State} {s : State} (a : Fin 4) (lim : Int) (h : Keeps s0 s) : Keeps s0 (State.limitStop s a lim) := by
  unfold State.limitStop
  repeat' (first
    | with_reducible assumption
    | (extract_lets +onlyGivenNames z; refine Keeps.cut (v := z) ?_ ?_ <;> [subst z; (intro _; clear_value z)])
    | extract_lets +onlyGivenNames z | with_reducible apply State.setAxis_keeps | with_reducible apply State.wr_keeps
    | with_reducible apply State.bump_keeps | with_reducible apply State.irq_keeps | with_reducible apply Keeps.ite
    | with_reducible apply Keeps.iteSnd | with_reducible refine Keeps.ofEq ?_ (by assumption) | split
    | with_reducible refine Keeps.update ?_ rfl rfl rfl rfl rfl rfl rfl rfl | intro _ | dsimp only)

theorem State.clearStops_keeps {s0 : State} {s : State} (a : Fin 4) (h : Keeps s0 s) : Keeps s0 (State.clearStops s a) := by
  unfold State.clearStops
  repeat' (first
    | with_reducible assumption | with_reducible apply State.wr_keeps | with_reducible apply Keeps.foldl
    | with_reducible apply Keeps.foldlSnd | intro _ | dsimp only)

theorem State.startMotion_keeps {s0 : State} {s : State} (a : Fin 4) (st : Nat) (f : AxisUnit → AxisUnit) (h : Keeps s0 s) : Keeps s0 (State.startMotion s a st f) := by
  unfold State.startMotion
  repeat' (first
    | with_reducible assumption
    | (extract_lets +onlyGivenNames z; refine Keeps.cut (v := z) ?_ ?_ <;> [subst z; (intro _; clear_value z)])
    | extract_lets +onlyGivenNames z | with_reducible apply State.setAxis_keeps
    | with_reducible apply State.clearStops_keeps | with_reducible apply State.setAxisState_keeps
    | with_reducible apply Keeps.ite | with_reducible apply Keeps.iteSnd
    | with_reducible refine Keeps.ofEq ?_ (by assumption) | split
    | with_reducible refine Keeps.update ?_ rfl rfl rfl rfl rfl rfl rfl rfl | intro _ | dsimp only)

theorem State.jogVel_keeps {s0 : State} {s : State} (a : Fin 4) (h : Keeps s0 s) : Keeps s0 (State.jogVel s a).2 := by
  unfold State.jogVel
  repeat' (first
    | with_reducible assumption
    | (extract_lets +onlyGivenNames z; refine Keeps.cut (v := z) ?_ ?_ <;> [subst z; (intro _; clear_value z)])
    | extract_lets +onlyGivenNames z | with_reducible apply State.freshWord_keeps | with_reducible apply Keeps.ite
    | with_reducible apply Keeps.iteSnd | with_reducible refine Keeps.ofEq ?_ (by assumption) | split
    | with_reducible refine Keeps.update ?_ rfl rfl rfl rfl rfl rfl rfl rfl | intro _ | dsimp only)

theorem State.axisCommand_keeps {s0 s t : State} (a : Fin 4) (code : Nat) (h : Keeps s0 s) (e : s.axisCommand a code = .ok t) :
    Keeps s0 t := by
  unfold State.axisCommand at e
  dsimp only at e
  split at e
  all_goals (try split at e) <;> (try split at e) <;> (try split at e) <;>
    first
      | contradiction
      | (injection e with e; subst e
         repeat' (first
           | with_reducible assumption | with_reducible apply State.setAxisState_keeps | with_reducible apply State.axisStill_keeps
           | with_reducible apply State.startMotion_keeps | with_reducible apply State.setAxis_keeps
           | with_reducible apply State.jogVel_keeps | with_reducible apply State.wr_keeps | split))

theorem State.axisTakeCmd_keeps {s0 s : State} (a : Fin 4) (h : Keeps s0 s) : Keeps s0 (s.axisTakeCmd a) := by
  unfold State.axisTakeCmd
  split
  · exact h
  · extract_lets u t
    have ht : Keeps s0 t := State.setAxis_keeps _ _ h
    clear_value t
    split
    · exact State.axisCommand_keeps _ _ ht ‹_›
    · exact State.cfgErr_keeps _ _ _ _ ht

theorem State.axisCmd_keeps {s0 : State} {s : State} (ini : Initiator) (a : Fin 4) (code : Nat) (h : Keeps s0 s) : Keeps s0 (State.axisCmd s ini a code) := by
  unfold State.axisCmd
  repeat' (first
    | with_reducible assumption | with_reducible apply State.setAxis_keeps
    | with_reducible refine Keeps.update ?_ rfl rfl rfl rfl rfl rfl rfl rfl)

theorem State.coarseStep_keeps {s0 : State} {s : State} (a : Fin 4) (up : Bool) (h : Keeps s0 s) : Keeps s0 (State.coarseStep s a up) := by
  unfold State.coarseStep
  repeat' (first
    | with_reducible assumption
    | (extract_lets +onlyGivenNames z; refine Keeps.cut (v := z) ?_ ?_ <;> [subst z; (intro _; clear_value z)])
    | extract_lets +onlyGivenNames z | with_reducible apply State.setAxis_keeps | with_reducible apply Keeps.ite | split
    | with_reducible refine Keeps.update ?_ rfl rfl rfl rfl rfl rfl rfl rfl | intro _ | dsimp only)

theorem State.takeStep_keeps {s0 : State} {s : State} (a : Fin 4) (up : Bool) (t : Word64) (h : Keeps s0 s) : Keeps s0 (State.takeStep s a up t) := by
  unfold State.takeStep
  repeat' (first
    | with_reducible assumption
    | (extract_lets +onlyGivenNames z; refine Keeps.cut (v := z) ?_ ?_ <;> [subst z; (intro _; clear_value z)])
    | extract_lets +onlyGivenNames z | with_reducible apply State.setAxis_keeps | with_reducible apply State.wr_keeps
    | with_reducible apply State.bump_keeps | with_reducible apply Keeps.ite | split
    | with_reducible refine Keeps.update ?_ rfl rfl rfl rfl rfl rfl rfl rfl | intro _ | dsimp only)

theorem State.takeSteps_keeps {s0 : State} {s : State} (a : Fin 4) (h : Keeps s0 s) : Keeps s0 (State.takeSteps s a) := by
  unfold State.takeSteps
  repeat' (first
    | with_reducible assumption
    | (extract_lets +onlyGivenNames z; refine Keeps.cut (v := z) ?_ ?_ <;> [subst z; (intro _; clear_value z)])
    | extract_lets +onlyGivenNames z | with_reducible apply State.takeStep_keeps | with_reducible apply State.setAxis_keeps
    | with_reducible apply Keeps.foldl | with_reducible apply Keeps.foldlSnd
    | with_reducible refine Keeps.update ?_ rfl rfl rfl rfl rfl rfl rfl rfl | intro _ | dsimp only)

theorem State.axisHold_keeps {s0 : State} {s : State} (a : Fin 4) (h : Keeps s0 s) : Keeps s0 (State.axisHold s a) := by
  unfold State.axisHold
  repeat' (first
    | with_reducible assumption | with_reducible apply State.setAxis_keeps | with_reducible apply State.setAxisState_keeps
    | with_reducible refine Keeps.update ?_ rfl rfl rfl rfl rfl rfl rfl rfl)

theorem State.stall_keeps {s0 : State} {s : State} (a : Fin 4) (st : Nat) (limitNow : Bool) (h : Keeps s0 s) : Keeps s0 (State.stall s a st limitNow) := by
  unfold State.stall
  repeat' (first
    | with_reducible assumption
    | (extract_lets +onlyGivenNames z; refine Keeps.cut (v := z) ?_ ?_ <;> [subst z; (intro _; clear_value z)])
    | extract_lets +onlyGivenNames z | with_reducible apply State.setAxis_keeps | with_reducible apply State.wr_keeps
    | with_reducible apply State.axisHold_keeps | with_reducible apply State.bump_keeps
    | with_reducible apply State.irq_keeps | with_reducible apply State.unhome_keeps
    | with_reducible apply State.axisFault_keeps | with_reducible apply Keeps.ite | with_reducible apply Keeps.iteSnd
    | with_reducible refine Keeps.ofEq ?_ (by assumption) | split
    | with_reducible refine Keeps.update ?_ rfl rfl rfl rfl rfl rfl rfl rfl | intro _ | dsimp only)

theorem State.stallCheck_keeps {s0 : State} {s : State} (a : Fin 4) (st : Nat) (limitNow : Bool) (h : Keeps s0 s) : Keeps s0 (State.stallCheck s a st limitNow) := by
  unfold State.stallCheck
  repeat' (first
    | with_reducible assumption
    | (extract_lets +onlyGivenNames z; refine Keeps.cut (v := z) ?_ ?_ <;> [subst z; (intro _; clear_value z)])
    | extract_lets +onlyGivenNames z | with_reducible apply State.wr_keeps | with_reducible apply State.blank_keeps
    | with_reducible apply State.setAxis_keeps | with_reducible apply State.stall_keeps | with_reducible apply Keeps.ite
    | with_reducible apply Keeps.iteSnd | with_reducible refine Keeps.ofEq ?_ (by assumption) | split
    | with_reducible refine Keeps.update ?_ rfl rfl rfl rfl rfl rfl rfl rfl | intro _ | dsimp only)

theorem State.homeMax_keeps {s0 : State} {s : State} (a : Fin 4) (h : Keeps s0 s) : Keeps s0 (State.homeMax s a) := by
  unfold State.homeMax
  repeat' (first
    | with_reducible assumption | with_reducible apply State.axisFault_keeps | with_reducible apply Keeps.ite | split
    | intro _)

theorem State.homeMaxReached_keeps {s0 : State} {s : State} (a : Fin 4) (h : Keeps s0 s) : Keeps s0 (State.homeMaxReached s a) := by
  unfold State.homeMaxReached
  repeat' (first
    | with_reducible assumption
    | (extract_lets +onlyGivenNames z; refine Keeps.cut (v := z) ?_ ?_ <;> [subst z; (intro _; clear_value z)])
    | extract_lets +onlyGivenNames z | with_reducible apply State.homeMax_keeps | with_reducible apply Keeps.ite
    | with_reducible apply Keeps.iteSnd | with_reducible refine Keeps.ofEq ?_ (by assumption) | split
    | with_reducible refine Keeps.update ?_ rfl rfl rfl rfl rfl rfl rfl rfl | intro _ | dsimp only)

theorem State.setQueue_keeps {s0 : State} {s : State} (a : Fin 4) (q : List (Nat × Nat)) (h : Keeps s0 s) : Keeps s0 (State.setQueue s a q) := by
  unfold State.setQueue
  repeat' (first
    | with_reducible assumption | with_reducible apply State.setAxis_keeps | with_reducible apply State.wr_keeps
    | with_reducible refine Keeps.update ?_ rfl rfl rfl rfl rfl rfl rfl rfl)

theorem State.gearPush_keeps {s0 : State} {s : State} (a : Fin 4) (h : Keeps s0 s) : Keeps s0 (State.gearPush s a) := by
  unfold State.gearPush
  repeat' (first
    | with_reducible assumption | with_reducible apply State.setQueue_keeps)

theorem State.gearFlush_keeps {s0 : State} {s : State} (a : Fin 4) (h : Keeps s0 s) : Keeps s0 (State.gearFlush s a) := by
  unfold State.gearFlush
  repeat' (first
    | with_reducible assumption | with_reducible apply State.setQueue_keeps)

theorem State.masterEdge_keeps {s0 : State} {s : State} (a : Fin 4) (h : Keeps s0 s) : Keeps s0 (State.masterEdge s a) := by
  unfold State.masterEdge
  repeat' (first
    | with_reducible assumption
    | (extract_lets +onlyGivenNames z; refine Keeps.cut (v := z) ?_ ?_ <;> [subst z; (intro _; clear_value z)])
    | extract_lets +onlyGivenNames z | with_reducible apply State.setAxis_keeps | with_reducible apply State.wr_keeps
    | with_reducible apply State.setQueue_keeps | with_reducible apply State.wrapBump_keeps
    | with_reducible apply State.irq_keeps | with_reducible apply Keeps.ite | with_reducible apply Keeps.iteSnd
    | with_reducible refine Keeps.ofEq ?_ (by assumption) | split
    | with_reducible refine Keeps.update ?_ rfl rfl rfl rfl rfl rfl rfl rfl | intro _ | dsimp only)

theorem State.gearFollow_keeps {s0 : State} {s : State} (a : Fin 4) (h : Keeps s0 s) : Keeps s0 (State.gearFollow s a) := by
  unfold State.gearFollow
  repeat' (first
    | with_reducible assumption
    | (extract_lets +onlyGivenNames z; refine Keeps.cut (v := z) ?_ ?_ <;> [subst z; (intro _; clear_value z)])
    | extract_lets +onlyGivenNames z | with_reducible apply State.held_keeps | with_reducible apply State.setAxis_keeps
    | with_reducible apply State.setFlag_keeps | with_reducible apply State.bump_keeps
    | with_reducible apply State.wr_keeps | with_reducible apply Keeps.ite | with_reducible apply Keeps.iteSnd
    | with_reducible refine Keeps.ofEq ?_ (by assumption) | split
    | with_reducible refine Keeps.update ?_ rfl rfl rfl rfl rfl rfl rfl rfl | intro _ | dsimp only)

theorem State.followCheck_keeps {s0 : State} {s : State} (a : Fin 4) (h : Keeps s0 s) : Keeps s0 (State.followCheck s a) := by
  unfold State.followCheck
  repeat' (first
    | with_reducible assumption
    | (extract_lets +onlyGivenNames z; refine Keeps.cut (v := z) ?_ ?_ <;> [subst z; (intro _; clear_value z)])
    | extract_lets +onlyGivenNames z | with_reducible apply State.axisFault_keeps | with_reducible apply Keeps.ite | split
    | intro _ | dsimp only)

theorem State.axisMove_keeps {s0 : State} {s : State} (a : Fin 4) (h : Keeps s0 s) : Keeps s0 (State.axisMove s a) := by
  have hs : ∀ v, Keeps s0 (s.setAxis a v) := fun v => State.setAxis_keeps a v h
  have hh : ∀ v, Keeps s0 ((s.setAxis a v).axisHold a) := fun v => State.axisHold_keeps a (hs v)
  unfold State.axisMove
  dsimp only
  split
  · exact Keeps.ite (fun _ => hh _) fun _ => hs _
  · refine Keeps.ite (fun _ => Keeps.ite (fun _ => hh _) fun _ => hs _) fun _ => Keeps.ite (fun _ => ?_) fun _ =>
      Keeps.ite (fun _ => hs _) fun _ => Keeps.ite (fun _ => hs _) fun _ => h
    split
    · exact hs _
    · exact Keeps.ite (fun _ => State.irq_keeps _ _ (State.wr_keeps _ _ _ _ (hh _))) fun _ => hs _

theorem State.axisTick_keeps {s0 : State} {s : State} (a : Fin 4) (h : Keeps s0 s) : Keeps s0 (State.axisTick s a) := by
  unfold State.axisTick
  extract_lets b t ahead s1 _ s2 s3
  have h1 : Keeps s0 t := State.axisTakeCmd_keeps a (State.boundary_keeps _ h)
  have k1 : Keeps s0 s1 := by
    unfold s1
    cases ahead with
    | some l => exact State.limitStop_keeps _ _ h1
    | none => exact h1
  clear_value s1
  have k2 : Keeps s0 s2 := Keeps.ite (fun _ => State.takeSteps_keeps _ k1) fun _ => k1
  clear_value s2
  have k3 : Keeps s0 s3 := State.axisMove_keeps a k2
  exact State.axisShow_keeps _ (State.setAxis_keeps _ _ (State.followCheck_keeps _ (State.homeMax_keeps _ (State.stallCheck_keeps _ _ _ k3))))

theorem State.profileTick_keeps {s0 : State} {s : State} (h : Keeps s0 s) : Keeps s0 (State.profileTick s) := by
  unfold State.profileTick
  repeat' (first
    | with_reducible assumption | with_reducible apply State.axisTick_keeps | with_reducible apply Keeps.foldl
    | with_reducible apply Keeps.foldlSnd | with_reducible apply Keeps.ite | split | intro _ | dsimp only)

theorem State.dutyLen_keeps {s0 : State} {s : State} (per : Nat) (d : Rat) (h : Keeps s0 s) : Keeps s0 (State.dutyLen s per d).2 := by
  unfold State.dutyLen
  repeat' (first
    | with_reducible assumption
    | (extract_lets +onlyGivenNames z; refine Keeps.cut (v := z) ?_ ?_ <;> [subst z; (intro _; clear_value z)])
    | extract_lets +onlyGivenNames z | with_reducible apply State.freshWord_keeps | with_reducible apply Keeps.ite
    | with_reducible refine Keeps.ofEq ?_ (by assumption) | split | intro _ | dsimp only)

theorem State.axisDuties_keeps {s0 s : State} (a : Fin 4) (h : Keeps s0 s) : Keeps s0 (s.axisDuties a).2 := by
  unfold State.axisDuties
  dsimp only
  split
  · split
    · exact h
    · exact State.freshWord_keeps h
  · exact h

theorem State.switchingPeriod_keeps {s0 : State} {s : State} (a : Fin 4) (m0 : LegMeasure) (m1 : LegMeasure) (m2 : LegMeasure) (h : Keeps s0 s) : Keeps s0 (State.switchingPeriod s a m0 m1 m2) := by
  unfold State.switchingPeriod
  repeat' (first
    | with_reducible assumption
    | (extract_lets +onlyGivenNames z; refine Keeps.cut (v := z) ?_ ?_ <;> [subst z; (intro _; clear_value z)])
    | extract_lets +onlyGivenNames z | with_reducible apply State.axisIdle_keeps | with_reducible apply State.gearFollow_keeps
    | with_reducible apply State.followCheck_keeps | with_reducible apply State.axisShow_keeps
    | with_reducible apply State.axisDuties_keeps | with_reducible apply State.dutyLen_keeps
    | with_reducible apply State.legPeriod_keeps | with_reducible apply Keeps.ite
    | with_reducible refine Keeps.ofEq ?_ (by assumption) | split
    | with_reducible refine Keeps.update ?_ rfl rfl rfl rfl rfl rfl rfl rfl | intro _ | dsimp only)

theorem State.encoderEdge_keeps {s0 : State} {s : State} (e : Fin 5) (ab : BitVec 2) (h : Keeps s0 s) : Keeps s0 (State.encoderEdge s e ab) := by
  unfold State.encoderEdge
  repeat' (first
    | with_reducible assumption
    | (extract_lets +onlyGivenNames z; refine Keeps.cut (v := z) ?_ ?_ <;> [subst z; (intro _; clear_value z)])
    | extract_lets +onlyGivenNames z | with_reducible apply State.bump_keeps | with_reducible apply State.irq_keeps
    | with_reducible apply State.axisFault_keeps | with_reducible apply State.wr_keeps
    | with_reducible apply State.masterEdge_keeps | with_reducible apply Keeps.foldl | with_reducible apply Keeps.foldlSnd
    | with_reducible apply Keeps.ite | split | with_reducible refine Keeps.update ?_ rfl rfl rfl rfl rfl rfl rfl rfl | intro _
    | dsimp only)

theorem State.indexCapture_keeps {s0 : State} {s : State} (e : Fin 5) (h : Keeps s0 s) : Keeps s0 (State.indexCapture s e) := by
  unfold State.indexCapture
  repeat' (first
    | with_reducible assumption
    | (extract_lets +onlyGivenNames z; refine Keeps.cut (v := z) ?_ ?_ <;> [subst z; (intro _; clear_value z)])
    | extract_lets +onlyGivenNames z | with_reducible apply State.wr_keeps | with_reducible apply State.putBit_keeps
    | with_reducible apply State.irq_keeps | with_reducible apply Keeps.ite | with_reducible apply Keeps.iteSnd
    | with_reducible refine Keeps.ofEq ?_ (by assumption) | split
    | with_reducible refine Keeps.update ?_ rfl rfl rfl rfl rfl rfl rfl rfl | intro _ | dsimp only)

end Sys2Proof.Machine
end

