-- ==== Sys2Proof/Laws/KeepsRedun.lean ====
section
/-!
SUPPORT. Laws/KeepsRedun.lean: every operation of Machine/Redun.lean keeps what `Keeps` says.
-/
namespace Sys2Proof.Machine

set_option linter.unusedTactic false
set_option linter.unreachableTactic false
set_option linter.unusedVariables false
set_option linter.tactic.unusedName false

theorem State.setPeer_keeps {s0 : State} {s : State} (m : Fin 3) (p : Peer) (h : Keeps s0 s) : Keeps s0 (State.setPeer s m p) := by
  unfold State.setPeer
  repeat' (first
    | with_reducible assumption | with_reducible refine Keeps.update ?_ rfl rfl rfl rfl rfl rfl rfl rfl)

theorem State.setFailed_keeps {s0 : State} {s : State} (l : Fin 4) (n : Nat) (h : Keeps s0 s) : Keeps s0 (State.setFailed s l n) := by
  unfold State.setFailed
  repeat' (first
    | with_reducible assumption
    | (extract_lets +onlyGivenNames z; refine Keeps.cut (v := z) ?_ ?_ <;> [subst z; (intro _; clear_value z)])
    | extract_lets +onlyGivenNames z | with_reducible apply Keeps.ite | with_reducible apply Keeps.iteSnd
    | with_reducible refine Keeps.ofEq ?_ (by assumption) | split
    | with_reducible refine Keeps.update ?_ rfl rfl rfl rfl rfl rfl rfl rfl | intro _ | dsimp only)

theorem State.laneRx_keepsEq {s0 s t : State} {l : Fin 4} (h : Keeps s0 s) (e : s.laneRx l = some t) : Keeps s0 t := by
  unfold State.laneRx at e
  split at e
  · injection e with e
    exact e ▸ State.setFailed_keeps l 0 (State.wrapBump_keeps _ _ _ h)
  · contradiction

theorem State.frameRx_keepsEq {s0 s t : State} {l : Fin 4} {seq : BitVec 16} {x} (h : Keeps s0 s) (e : s.frameRx l seq = (t, x)) :
    Keeps s0 t := by
  unfold State.frameRx at e
  split at e
  · injection e with e _
    exact e ▸ h
  · rename_i u eu
    have hu : Keeps s0 u := State.laneRx_keepsEq h eu
    dsimp only at e
    split at e
    · injection e with e _
      exact e ▸ hu
    · injection e with e _
      subst e
      exact hu.same rfl rfl rfl rfl rfl rfl rfl rfl rfl rfl rfl rfl rfl

theorem State.hclkShow_keeps {s0 : State} {s : State} (h : Keeps s0 s) : Keeps s0 (State.hclkShow s) := by
  unfold State.hclkShow
  repeat' (first
    | with_reducible assumption | with_reducible apply State.setFlag_keeps)

theorem State.isolShow_keeps {s0 : State} {s : State} (h : Keeps s0 s) : Keeps s0 (State.isolShow s) := by
  unfold State.isolShow
  repeat' (first
    | with_reducible assumption
    | (extract_lets +onlyGivenNames z; refine Keeps.cut (v := z) ?_ ?_ <;> [subst z; (intro _; clear_value z)])
    | extract_lets +onlyGivenNames z | with_reducible apply State.setSource_keeps | with_reducible apply Keeps.ite
    | with_reducible apply Keeps.iteSnd | with_reducible refine Keeps.ofEq ?_ (by assumption) | split
    | with_reducible refine Keeps.update ?_ rfl rfl rfl rfl rfl rfl rfl rfl | intro _ | dsimp only)

theorem State.setIsolated_keeps {s0 : State} {s : State} (x : BitVec 3) (h : Keeps s0 s) : Keeps s0 (State.setIsolated s x) := by
  unfold State.setIsolated
  repeat' (first
    | with_reducible assumption
    | (extract_lets +onlyGivenNames z; refine Keeps.cut (v := z) ?_ ?_ <;> [subst z; (intro _; clear_value z)])
    | extract_lets +onlyGivenNames z | with_reducible apply State.isolShow_keeps | with_reducible apply Keeps.ite
    | with_reducible apply Keeps.iteSnd | with_reducible refine Keeps.ofEq ?_ (by assumption) | split
    | with_reducible refine Keeps.update ?_ rfl rfl rfl rfl rfl rfl rfl rfl | intro _ | dsimp only)

theorem State.setRole_keeps {s0 : State} {s : State} (r : Nat) (h : Keeps s0 s) : Keeps s0 (State.setRole s r) := by
  unfold State.setRole
  repeat' (first
    | with_reducible assumption
    | (extract_lets +onlyGivenNames z; refine Keeps.cut (v := z) ?_ ?_ <;> [subst z; (intro _; clear_value z)])
    | extract_lets +onlyGivenNames z | with_reducible apply State.wr_keeps | with_reducible apply State.irqIf_keeps
    | with_reducible apply State.isolShow_keeps | with_reducible apply State.recheckDrive_keeps
    | with_reducible apply State.hclkShow_keeps | with_reducible apply State.legsCheck_keeps
    | with_reducible apply Keeps.ite | with_reducible apply Keeps.iteSnd
    | with_reducible refine Keeps.ofEq ?_ (by assumption) | split
    | with_reducible refine Keeps.update ?_ rfl rfl rfl rfl rfl rfl rfl rfl | intro _ | dsimp only)

theorem State.cancelSwap_keeps {s0 : State} {s : State} (h : Keeps s0 s) : Keeps s0 (State.cancelSwap s) := by
  unfold State.cancelSwap
  repeat' (first
    | with_reducible assumption
    | (extract_lets +onlyGivenNames z; refine Keeps.cut (v := z) ?_ ?_ <;> [subst z; (intro _; clear_value z)])
    | extract_lets +onlyGivenNames z | with_reducible apply Keeps.ite | with_reducible apply Keeps.iteSnd
    | with_reducible refine Keeps.ofEq ?_ (by assumption) | split
    | with_reducible refine Keeps.update ?_ rfl rfl rfl rfl rfl rfl rfl rfl | intro _ | dsimp only)

theorem State.endRescue_keeps {s0 : State} {s : State} (h : Keeps s0 s) : Keeps s0 (State.endRescue s) := by
  unfold State.endRescue
  repeat' (first
    | with_reducible assumption
    | (extract_lets +onlyGivenNames z; refine Keeps.cut (v := z) ?_ ?_ <;> [subst z; (intro _; clear_value z)])
    | extract_lets +onlyGivenNames z | with_reducible apply State.wr_keeps | with_reducible apply Keeps.ite
    | with_reducible apply Keeps.iteSnd | with_reducible refine Keeps.ofEq ?_ (by assumption) | split
    | with_reducible refine Keeps.update ?_ rfl rfl rfl rfl rfl rfl rfl rfl | intro _ | dsimp only)

theorem State.becomeLead_keeps {s0 : State} {s : State} (h : Keeps s0 s) : Keeps s0 (State.becomeLead s) := by
  unfold State.becomeLead
  repeat' (first
    | with_reducible assumption
    | (extract_lets +onlyGivenNames z; refine Keeps.cut (v := z) ?_ ?_ <;> [subst z; (intro _; clear_value z)])
    | extract_lets +onlyGivenNames z | with_reducible apply State.wr_keeps | with_reducible apply State.endRescue_keeps
    | with_reducible apply State.cancelSwap_keeps | with_reducible apply State.setRole_keeps
    | with_reducible apply Keeps.ite | with_reducible apply Keeps.iteSnd
    | with_reducible refine Keeps.ofEq ?_ (by assumption) | split
    | with_reducible refine Keeps.update ?_ rfl rfl rfl rfl rfl rfl rfl rfl | intro _ | dsimp only)

theorem State.enterAsLead_keeps {s0 : State} {s : State} (h : Keeps s0 s) : Keeps s0 (State.enterAsLead s) := by
  unfold State.enterAsLead
  repeat' (first
    | with_reducible assumption
    | (extract_lets +onlyGivenNames z; refine Keeps.cut (v := z) ?_ ?_ <;> [subst z; (intro _; clear_value z)])
    | extract_lets +onlyGivenNames z | with_reducible apply State.putPresent_keeps | with_reducible apply State.wr_keeps
    | with_reducible apply State.becomeLead_keeps | with_reducible apply Keeps.ite | with_reducible apply Keeps.iteSnd
    | with_reducible refine Keeps.ofEq ?_ (by assumption) | split
    | with_reducible refine Keeps.update ?_ rfl rfl rfl rfl rfl rfl rfl rfl | intro _ | dsimp only)

theorem State.recordTakeover_keeps {s0 : State} {s : State} (cause : Nat) (fromId : Nat) (toId : Nat) (h : Keeps s0 s) : Keeps s0 (State.recordTakeover s cause fromId toId) := by
  unfold State.recordTakeover
  repeat' (first
    | with_reducible assumption
    | (extract_lets +onlyGivenNames z; refine Keeps.cut (v := z) ?_ ?_ <;> [subst z; (intro _; clear_value z)])
    | extract_lets +onlyGivenNames z | with_reducible apply State.wr_keeps | with_reducible apply State.wr64_keeps
    | with_reducible apply State.bump_keeps | with_reducible apply State.irq_keeps | dsimp only)

theorem State.integrity_keeps {s0 : State} {s : State} (h : Keeps s0 s) : Keeps s0 (State.integrity s) := by
  unfold State.integrity
  repeat' (first
    | with_reducible assumption | with_reducible apply State.safeStopAt_keeps | with_reducible apply Keeps.ite | split
    | intro _)

theorem State.leaveHclk_keeps {s0 : State} {s : State} (h : Keeps s0 s) : Keeps s0 (State.leaveHclk s) := by
  unfold State.leaveHclk
  repeat' (first
    | with_reducible assumption
    | (extract_lets +onlyGivenNames z; refine Keeps.cut (v := z) ?_ ?_ <;> [subst z; (intro _; clear_value z)])
    | extract_lets +onlyGivenNames z | with_reducible apply State.wr_keeps | with_reducible apply State.irqIf_keeps
    | with_reducible apply Keeps.ite | with_reducible apply Keeps.iteSnd
    | with_reducible refine Keeps.ofEq ?_ (by assumption) | split
    | with_reducible refine Keeps.update ?_ rfl rfl rfl rfl rfl rfl rfl rfl | intro _ | dsimp only)

theorem State.leaveSet_keeps {s0 : State} {s : State} (cause : Nat) (h : Keeps s0 s) : Keeps s0 (State.leaveSet s cause) := by
  unfold State.leaveSet
  repeat' (first
    | with_reducible assumption
    | (extract_lets +onlyGivenNames z; refine Keeps.cut (v := z) ?_ ?_ <;> [subst z; (intro _; clear_value z)])
    | extract_lets +onlyGivenNames z | with_reducible apply State.wr_keeps | with_reducible apply State.leaveHclk_keeps
    | with_reducible apply State.setRole_keeps | with_reducible apply State.safeStopAt_keeps
    | with_reducible apply Keeps.ite | with_reducible apply Keeps.iteSnd
    | with_reducible refine Keeps.ofEq ?_ (by assumption) | split
    | with_reducible refine Keeps.update ?_ rfl rfl rfl rfl rfl rfl rfl rfl | intro _ | dsimp only)

theorem State.selfReport_keeps {s0 : State} {s : State} (cause : Byte) (src : Fin 64) (h : Keeps s0 s) : Keeps s0 (State.selfReport s cause src) := by
  unfold State.selfReport
  repeat' (first
    | with_reducible assumption
    | (extract_lets +onlyGivenNames z; refine Keeps.cut (v := z) ?_ ?_ <;> [subst z; (intro _; clear_value z)])
    | extract_lets +onlyGivenNames z | with_reducible apply State.sendAll_keeps
    | with_reducible apply State.leaveSet_keeps | with_reducible apply Keeps.ite | with_reducible apply Keeps.iteSnd
    | with_reducible refine Keeps.ofEq ?_ (by assumption) | split
    | with_reducible refine Keeps.update ?_ rfl rfl rfl rfl rfl rfl rfl rfl | intro _ | dsimp only)

theorem State.selfReportOf_keeps {s0 : State} {s : State} (src : Fin 64) (h : Keeps s0 s) : Keeps s0 (State.selfReportOf s src) := by
  unfold State.selfReportOf
  repeat' (first
    | with_reducible assumption
    | (extract_lets +onlyGivenNames z; refine Keeps.cut (v := z) ?_ ?_ <;> [subst z; (intro _; clear_value z)])
    | extract_lets +onlyGivenNames z | with_reducible apply State.selfReport_keeps | with_reducible apply Keeps.ite
    | with_reducible apply Keeps.iteSnd | with_reducible refine Keeps.ofEq ?_ (by assumption) | split
    | with_reducible refine Keeps.update ?_ rfl rfl rfl rfl rfl rfl rfl rfl | intro _ | dsimp only)

theorem State.skipTail_keeps {s0 : State} {s : State} (h : Keeps s0 s) : Keeps s0 (State.skipTail s) := by
  unfold State.skipTail
  repeat' (first
    | with_reducible assumption
    | (extract_lets +onlyGivenNames z; refine Keeps.cut (v := z) ?_ ?_ <;> [subst z; (intro _; clear_value z)])
    | extract_lets +onlyGivenNames z | with_reducible apply Keeps.ite | split
    | with_reducible refine Keeps.update ?_ rfl rfl rfl rfl rfl rfl rfl rfl | intro _ | dsimp only)

theorem State.takeOver_keeps {s0 : State} {s : State} (m : Nat) (cause : Nat) (h : Keeps s0 s) : Keeps s0 (State.takeOver s m cause) := by
  unfold State.takeOver
  repeat' (first
    | with_reducible assumption
    | (extract_lets +onlyGivenNames z; refine Keeps.cut (v := z) ?_ ?_ <;> [subst z; (intro _; clear_value z)])
    | extract_lets +onlyGivenNames z | with_reducible apply State.recordTakeover_keeps
    | with_reducible apply State.becomeLead_keeps | with_reducible refine Keeps.update ?_ rfl rfl rfl rfl rfl rfl rfl rfl
    | dsimp only)

theorem State.joinRestart_keeps {s0 : State} {s : State} (h : Keeps s0 s) : Keeps s0 (State.joinRestart s) := by
  unfold State.joinRestart
  repeat' (first
    | with_reducible assumption | with_reducible apply State.wr_keeps | with_reducible apply Keeps.ite | split | intro _)

theorem State.leadPasses_keeps {s0 : State} {s : State} (m : Fin 3) (cause : Nat) (next : Option Nat) (h : Keeps s0 s) : Keeps s0 (State.leadPasses s m cause next) := by
  unfold State.leadPasses
  repeat' (first
    | with_reducible assumption
    | (extract_lets +onlyGivenNames z; refine Keeps.cut (v := z) ?_ ?_ <;> [subst z; (intro _; clear_value z)])
    | extract_lets +onlyGivenNames z | with_reducible apply State.takeOver_keeps
    | with_reducible apply State.endRescue_keeps | with_reducible apply State.wr_keeps | with_reducible apply Keeps.ite
    | with_reducible apply Keeps.iteSnd | with_reducible refine Keeps.ofEq ?_ (by assumption) | split
    | with_reducible refine Keeps.update ?_ rfl rfl rfl rfl rfl rfl rfl rfl | intro _ | dsimp only)

theorem State.exclude_keeps {s0 : State} {s : State} (m : Fin 3) (h : Keeps s0 s) : Keeps s0 (State.exclude s m) := by
  unfold State.exclude
  repeat' (first
    | with_reducible assumption
    | (extract_lets +onlyGivenNames z; refine Keeps.cut (v := z) ?_ ?_ <;> [subst z; (intro _; clear_value z)])
    | extract_lets +onlyGivenNames z | with_reducible apply Keeps.ite | with_reducible apply Keeps.iteSnd
    | with_reducible refine Keeps.ofEq ?_ (by assumption) | split
    | with_reducible refine Keeps.update ?_ rfl rfl rfl rfl rfl rfl rfl rfl | intro _ | dsimp only)

theorem State.loseMember_keeps {s0 : State} {s : State} (m : Fin 3) (cause : Nat) (h : Keeps s0 s) : Keeps s0 (State.loseMember s m cause) := by
  unfold State.loseMember
  repeat' (first
    | with_reducible assumption
    | (extract_lets +onlyGivenNames z; refine Keeps.cut (v := z) ?_ ?_ <;> [subst z; (intro _; clear_value z)])
    | extract_lets +onlyGivenNames z | with_reducible apply State.putPresent_keeps
    | with_reducible apply State.irq_keeps | with_reducible apply State.setPeer_keeps
    | with_reducible apply State.cancelSwap_keeps | with_reducible apply State.exclude_keeps
    | with_reducible apply State.wr_keeps | with_reducible apply State.skipTail_keeps
    | with_reducible apply State.leadPasses_keeps | with_reducible apply State.integrity_keeps
    | with_reducible apply Keeps.ite | with_reducible apply Keeps.iteSnd
    | with_reducible refine Keeps.ofEq ?_ (by assumption) | split
    | with_reducible refine Keeps.update ?_ rfl rfl rfl rfl rfl rfl rfl rfl | intro _ | dsimp only)

theorem State.diverged_keeps {s0 : State} {s : State} (h : Keeps s0 s) : Keeps s0 (State.diverged s) := by
  unfold State.diverged
  repeat' (first
    | with_reducible assumption
    | (extract_lets +onlyGivenNames z; refine Keeps.cut (v := z) ?_ ?_ <;> [subst z; (intro _; clear_value z)])
    | extract_lets +onlyGivenNames z | with_reducible apply State.wr_keeps | with_reducible apply State.setSource_keeps
    | with_reducible apply State.leaveSet_keeps | with_reducible apply Keeps.ite | with_reducible apply Keeps.iteSnd
    | with_reducible refine Keeps.ofEq ?_ (by assumption) | split
    | with_reducible refine Keeps.update ?_ rfl rfl rfl rfl rfl rfl rfl rfl | intro _ | dsimp only)

theorem State.digests_keeps {s0 : State} {s : State} (h : Keeps s0 s) : Keeps s0 (State.digests s) := by
  unfold State.digests
  repeat' (first
    | with_reducible assumption
    | (extract_lets +onlyGivenNames z; refine Keeps.cut (v := z) ?_ ?_ <;> [subst z; (intro _; clear_value z)])
    | extract_lets +onlyGivenNames z | with_reducible apply State.wr_keeps | with_reducible apply Keeps.ite | split | intro _
    | dsimp only)

theorem State.swapEffect_keeps {s0 : State} {s : State} (t : Fin 3) (h : Keeps s0 s) : Keeps s0 (State.swapEffect s t) := by
  unfold State.swapEffect
  repeat' (first
    | with_reducible assumption
    | (extract_lets +onlyGivenNames z; refine Keeps.cut (v := z) ?_ ?_ <;> [subst z; (intro _; clear_value z)])
    | extract_lets +onlyGivenNames z | with_reducible apply State.endRescue_keeps
    | with_reducible apply State.cancelSwap_keeps | with_reducible apply State.recordTakeover_keeps
    | with_reducible apply State.becomeLead_keeps | with_reducible apply State.wr_keeps
    | with_reducible apply State.setRole_keeps | with_reducible apply Keeps.ite | with_reducible apply Keeps.iteSnd
    | with_reducible refine Keeps.ofEq ?_ (by assumption) | split
    | with_reducible refine Keeps.update ?_ rfl rfl rfl rfl rfl rfl rfl rfl | intro _ | dsimp only)

theorem State.redunCommit_keeps {s0 : State} {s : State} (h : Keeps s0 s) : Keeps s0 (State.redunCommit s) := by
  unfold State.redunCommit
  repeat' (first
    | with_reducible assumption
    | (extract_lets +onlyGivenNames z; refine Keeps.cut (v := z) ?_ ?_ <;> [subst z; (intro _; clear_value z)])
    | extract_lets +onlyGivenNames z | with_reducible apply State.wr_keeps | with_reducible apply State.setRole_keeps
    | with_reducible apply State.enterAsLead_keeps | with_reducible apply Keeps.ite | with_reducible apply Keeps.iteSnd
    | with_reducible refine Keeps.ofEq ?_ (by assumption) | split
    | with_reducible refine Keeps.update ?_ rfl rfl rfl rfl rfl rfl rfl rfl | intro _ | dsimp only)

theorem State.showCycle_keeps {s0 : State} {s : State} (h : Keeps s0 s) : Keeps s0 (State.showCycle s) := by
  unfold State.showCycle
  repeat' (first
    | with_reducible assumption
    | (extract_lets +onlyGivenNames z; refine Keeps.cut (v := z) ?_ ?_ <;> [subst z; (intro _; clear_value z)])
    | extract_lets +onlyGivenNames z | with_reducible apply State.wr_keeps | with_reducible apply Keeps.ite
    | with_reducible apply Keeps.iteSnd | with_reducible refine Keeps.ofEq ?_ (by assumption) | split
    | with_reducible refine Keeps.update ?_ rfl rfl rfl rfl rfl rfl rfl rfl | intro _ | dsimp only)

theorem State.cycleReads_keeps {s0 : State} {s : State} (h : Keeps s0 s) : Keeps s0 (State.cycleReads s) := by
  unfold State.cycleReads
  repeat' (first
    | with_reducible assumption
    | (extract_lets +onlyGivenNames z; refine Keeps.cut (v := z) ?_ ?_ <;> [subst z; (intro _; clear_value z)])
    | extract_lets +onlyGivenNames z | with_reducible apply Keeps.ite | with_reducible apply Keeps.iteSnd
    | with_reducible refine Keeps.ofEq ?_ (by assumption) | split
    | with_reducible refine Keeps.update ?_ rfl rfl rfl rfl rfl rfl rfl rfl | intro _ | dsimp only)

theorem State.setCycleBoundary_keeps {s0 : State} {s : State} (lines : List RbLine) (h : Keeps s0 s) : Keeps s0 (State.setCycleBoundary s lines) := by
  unfold State.setCycleBoundary
  repeat' (first
    | with_reducible assumption
    | (extract_lets +onlyGivenNames z; refine Keeps.cut (v := z) ?_ ?_ <;> [subst z; (intro _; clear_value z)])
    | extract_lets +onlyGivenNames z | with_reducible apply State.applySet_keeps
    | with_reducible apply State.redunCommit_keeps | with_reducible apply State.commitDone_keeps
    | with_reducible apply State.showCycle_keeps | with_reducible apply State.digests_keeps
    | with_reducible apply State.cycleReads_keeps | with_reducible apply State.bump_keeps
    | with_reducible apply State.swapEffect_keeps | with_reducible apply Keeps.ite | with_reducible apply Keeps.iteSnd
    | with_reducible refine Keeps.ofEq ?_ (by assumption) | split
    | with_reducible refine Keeps.update ?_ rfl rfl rfl rfl rfl rfl rfl rfl | intro _ | dsimp only)

theorem State.stateRelease_keeps {s0 : State} {s : State} (h : Keeps s0 s) : Keeps s0 (State.stateRelease s) := by
  unfold State.stateRelease
  repeat' (first
    | with_reducible assumption
    | (extract_lets +onlyGivenNames z; refine Keeps.cut (v := z) ?_ ?_ <;> [subst z; (intro _; clear_value z)])
    | extract_lets +onlyGivenNames z | with_reducible apply State.sendAll_keeps | with_reducible apply Keeps.ite
    | with_reducible apply Keeps.iteSnd | with_reducible refine Keeps.ofEq ?_ (by assumption) | split
    | with_reducible refine Keeps.update ?_ rfl rfl rfl rfl rfl rfl rfl rfl | intro _ | dsimp only)

theorem State.lanesTick_keeps {s0 : State} {s : State} (h : Keeps s0 s) : Keeps s0 (State.lanesTick s) := by
  unfold State.lanesTick
  repeat' (first
    | with_reducible assumption
    | (extract_lets +onlyGivenNames z; refine Keeps.cut (v := z) ?_ ?_ <;> [subst z; (intro _; clear_value z)])
    | extract_lets +onlyGivenNames z | with_reducible apply State.sendTo_keeps | with_reducible apply State.ping_keeps
    | with_reducible apply Keeps.foldlSnd | with_reducible apply Keeps.foldl | with_reducible apply Keeps.ite
    | with_reducible apply Keeps.iteSnd | with_reducible refine Keeps.ofEq ?_ (by assumption) | split
    | with_reducible refine Keeps.update ?_ rfl rfl rfl rfl rfl rfl rfl rfl | intro _ | dsimp only)

theorem State.joinStep_keeps {s0 : State} {s : State} (h : Keeps s0 s) : Keeps s0 (State.joinStep s) := by
  unfold State.joinStep
  repeat' (first
    | with_reducible assumption
    | (extract_lets +onlyGivenNames z; refine Keeps.cut (v := z) ?_ ?_ <;> [subst z; (intro _; clear_value z)])
    | extract_lets +onlyGivenNames z | with_reducible apply State.wr_keeps | with_reducible apply Keeps.ite | split | intro _
    | dsimp only)

theorem State.joinFail_keeps {s0 : State} {s : State} (cause : Nat) (h : Keeps s0 s) : Keeps s0 (State.joinFail s cause) := by
  unfold State.joinFail
  repeat' (first
    | with_reducible assumption | with_reducible apply State.leaveSet_keeps | with_reducible apply State.irq_keeps)

theorem State.copyFail_keeps {s0 : State} {s : State} (h : Keeps s0 s) : Keeps s0 (State.copyFail s) := by
  unfold State.copyFail
  repeat' (first
    | with_reducible assumption
    | (extract_lets +onlyGivenNames z; refine Keeps.cut (v := z) ?_ ?_ <;> [subst z; (intro _; clear_value z)])
    | extract_lets +onlyGivenNames z | with_reducible apply State.joinFail_keeps | with_reducible apply State.wr_keeps
    | with_reducible apply Keeps.ite | split | with_reducible refine Keeps.update ?_ rfl rfl rfl rfl rfl rfl rfl rfl | intro _
    | dsimp only)

theorem State.joinDone_keeps {s0 : State} {s : State} (h : Keeps s0 s) : Keeps s0 (State.joinDone s) := by
  unfold State.joinDone
  repeat' (first
    | with_reducible assumption
    | (extract_lets +onlyGivenNames z; refine Keeps.cut (v := z) ?_ ?_ <;> [subst z; (intro _; clear_value z)])
    | extract_lets +onlyGivenNames z | with_reducible apply State.wr_keeps | with_reducible apply State.putPresent_keeps
    | with_reducible apply State.setRole_keeps | with_reducible apply State.irq_keeps | dsimp only)

theorem State.redunCmd_keeps {s0 : State} {s : State} (code : Nat) (target : Nat) (h : Keeps s0 s) : Keeps s0 (State.redunCmd s code target) := by
  unfold State.redunCmd
  repeat' (first
    | with_reducible assumption
    | (extract_lets +onlyGivenNames z; refine Keeps.cut (v := z) ?_ ?_ <;> [subst z; (intro _; clear_value z)])
    | extract_lets +onlyGivenNames z | with_reducible apply State.wr_keeps | with_reducible apply State.setSource_keeps
    | with_reducible apply State.leaveHclk_keeps | with_reducible apply State.setRole_keeps
    | with_reducible apply State.joinStep_keeps | with_reducible apply State.sendAll_keeps
    | with_reducible apply State.leaveSet_keeps | with_reducible apply State.enterAsLead_keeps
    | with_reducible apply Keeps.ite | with_reducible apply Keeps.iteSnd
    | with_reducible refine Keeps.ofEq ?_ (by assumption) | split
    | with_reducible refine Keeps.update ?_ rfl rfl rfl rfl rfl rfl rfl rfl | intro _ | dsimp only)

theorem State.joinTimeout_keeps {s0 : State} {s : State} (h : Keeps s0 s) : Keeps s0 (State.joinTimeout s) := by
  unfold State.joinTimeout
  repeat' (first
    | with_reducible assumption | with_reducible apply State.joinFail_keeps | with_reducible apply Keeps.ite | split | intro _)

theorem State.copyWord_keeps {s0 s : State} (w : CopyWord) (h : Keeps s0 s) : Keeps s0 (s.copyWord w) := by
  cases w <;> first
    | exact State.setLe_keeps _ _ h | exact State.wr_keeps _ _ _ _ h | exact State.setLeState_keeps _ _ h
    | exact State.setForm_keeps _ _ h | exact Keeps.ite (fun _ => h) fun _ => State.setDmem_keeps _ _ _ h

theorem State.voteMiss_keeps {s0 : State} {s : State} (h : Keeps s0 s) : Keeps s0 (State.voteMiss s) := by
  unfold State.voteMiss
  repeat' (first
    | with_reducible assumption
    | (extract_lets +onlyGivenNames z; refine Keeps.cut (v := z) ?_ ?_ <;> [subst z; (intro _; clear_value z)])
    | extract_lets +onlyGivenNames z | with_reducible apply State.setPeer_keeps | with_reducible apply State.bump_keeps
    | with_reducible apply Keeps.foldl | with_reducible apply Keeps.foldlSnd | with_reducible apply Keeps.ite
    | with_reducible refine Keeps.ofEq ?_ (by assumption) | split
    | with_reducible refine Keeps.update ?_ rfl rfl rfl rfl rfl rfl rfl rfl | intro _ | dsimp only)

theorem State.voteBad_keeps {s0 : State} {s : State} (h : Keeps s0 s) : Keeps s0 (State.voteBad s) := by
  unfold State.voteBad
  repeat' (first
    | with_reducible assumption
    | (extract_lets +onlyGivenNames z; refine Keeps.cut (v := z) ?_ ?_ <;> [subst z; (intro _; clear_value z)])
    | extract_lets +onlyGivenNames z | with_reducible apply State.bump_keeps | with_reducible apply State.held_keeps
    | with_reducible apply State.setPeer_keeps | with_reducible apply State.safeStopAt_keeps
    | with_reducible apply Keeps.foldlSnd | with_reducible apply Keeps.foldl | with_reducible apply Keeps.ite
    | with_reducible apply Keeps.iteSnd | with_reducible refine Keeps.ofEq ?_ (by assumption) | split
    | with_reducible refine Keeps.update ?_ rfl rfl rfl rfl rfl rfl rfl rfl | intro _ | dsimp only)

theorem State.voteJoin_keeps {s0 : State} {s : State} (h : Keeps s0 s) : Keeps s0 (State.voteJoin s) := by
  unfold State.voteJoin
  repeat' (first
    | with_reducible assumption
    | (extract_lets +onlyGivenNames z; refine Keeps.cut (v := z) ?_ ?_ <;> [subst z; (intro _; clear_value z)])
    | extract_lets +onlyGivenNames z | with_reducible apply State.held_keeps | with_reducible apply State.copyFail_keeps
    | with_reducible apply State.joinDone_keeps | with_reducible apply Keeps.ite | with_reducible apply Keeps.iteSnd
    | with_reducible refine Keeps.ofEq ?_ (by assumption) | split
    | with_reducible refine Keeps.update ?_ rfl rfl rfl rfl rfl rfl rfl rfl | intro _ | dsimp only)

theorem State.voteMember_keeps {s0 : State} {s : State} (h : Keeps s0 s) : Keeps s0 (State.voteMember s) := by
  unfold State.voteMember
  repeat' (first
    | with_reducible assumption
    | (extract_lets +onlyGivenNames z; refine Keeps.cut (v := z) ?_ ?_ <;> [subst z; (intro _; clear_value z)])
    | extract_lets +onlyGivenNames z | with_reducible apply State.voteMiss_keeps | with_reducible apply State.voteBad_keeps
    | with_reducible apply State.diverged_keeps | with_reducible apply State.loseMember_keeps
    | with_reducible apply Keeps.foldl | with_reducible apply Keeps.foldlSnd | with_reducible apply Keeps.ite | split
    | intro _ | dsimp only)

theorem State.vote_keeps {s0 : State} {s : State} (h : Keeps s0 s) : Keeps s0 (State.vote s) := by
  unfold State.vote
  repeat' (first
    | with_reducible assumption
    | (extract_lets +onlyGivenNames z; refine Keeps.cut (v := z) ?_ ?_ <;> [subst z; (intro _; clear_value z)])
    | extract_lets +onlyGivenNames z | with_reducible apply State.held_keeps
    | with_reducible apply State.voteMember_keeps | with_reducible apply State.voteJoin_keeps
    | with_reducible apply State.setPeer_keeps | with_reducible apply Keeps.foldlSnd | with_reducible apply Keeps.foldl
    | with_reducible apply Keeps.ite | with_reducible apply Keeps.iteSnd
    | with_reducible refine Keeps.ofEq ?_ (by assumption) | split
    | with_reducible refine Keeps.update ?_ rfl rfl rfl rfl rfl rfl rfl rfl | intro _ | dsimp only)

theorem State.cycCheck_keeps {s0 : State} {s : State} (f : StateFrame) (h : Keeps s0 s) : Keeps s0 (State.cycCheck s f) := by
  unfold State.cycCheck
  repeat' (first
    | with_reducible assumption
    | (extract_lets +onlyGivenNames z; refine Keeps.cut (v := z) ?_ ?_ <;> [subst z; (intro _; clear_value z)])
    | extract_lets +onlyGivenNames z | with_reducible apply State.wr_keeps | with_reducible apply State.bump_keeps
    | with_reducible apply State.irq_keeps | with_reducible apply State.leaveSet_keeps | with_reducible apply Keeps.ite
    | with_reducible apply Keeps.iteSnd | with_reducible refine Keeps.ofEq ?_ (by assumption) | split
    | with_reducible refine Keeps.update ?_ rfl rfl rfl rfl rfl rfl rfl rfl | intro _ | dsimp only)

theorem State.stampCheck_keeps {s0 : State} {s : State} (f : StateFrame) (h : Keeps s0 s) : Keeps s0 (State.stampCheck s f) := by
  unfold State.stampCheck
  repeat' (first
    | with_reducible assumption
    | (extract_lets +onlyGivenNames z; refine Keeps.cut (v := z) ?_ ?_ <;> [subst z; (intro _; clear_value z)])
    | extract_lets +onlyGivenNames z | with_reducible apply State.bump_keeps | with_reducible apply State.irq_keeps
    | with_reducible apply Keeps.foldl | with_reducible apply Keeps.foldlSnd | with_reducible apply Keeps.ite | split
    | intro _ | dsimp only)

theorem State.takeState_keeps {s0 : State} {s : State} (m : Fin 3) (f : StateFrame) (lead : Bool) (h : Keeps s0 s) : Keeps s0 (State.takeState s m f lead) := by
  unfold State.takeState
  repeat' (first
    | with_reducible assumption
    | (extract_lets +onlyGivenNames z; refine Keeps.cut (v := z) ?_ ?_ <;> [subst z; (intro _; clear_value z)])
    | extract_lets +onlyGivenNames z | with_reducible apply State.setPeer_keeps | with_reducible apply Keeps.ite
    | with_reducible apply Keeps.iteSnd | with_reducible refine Keeps.ofEq ?_ (by assumption) | split
    | with_reducible refine Keeps.update ?_ rfl rfl rfl rfl rfl rfl rfl rfl | intro _ | dsimp only)

theorem State.takeExcluded_keeps {s0 : State} {s : State} (x : BitVec 3) (h : Keeps s0 s) : Keeps s0 (State.takeExcluded s x) := by
  unfold State.takeExcluded
  repeat' (first
    | with_reducible assumption
    | (extract_lets +onlyGivenNames z; refine Keeps.cut (v := z) ?_ ?_ <;> [subst z; (intro _; clear_value z)])
    | extract_lets +onlyGivenNames z | with_reducible apply State.loseMember_keeps | with_reducible apply Keeps.foldlSnd
    | with_reducible apply Keeps.foldl | with_reducible apply Keeps.ite | with_reducible apply Keeps.iteSnd
    | with_reducible refine Keeps.ofEq ?_ (by assumption) | split
    | with_reducible refine Keeps.update ?_ rfl rfl rfl rfl rfl rfl rfl rfl | intro _ | dsimp only)

theorem State.stateFrame_keeps {s0 : State} {s : State} (l : Fin 4) (seq : BitVec 16) (f : StateFrame) (h : Keeps s0 s) : Keeps s0 (State.stateFrame s l seq f) := by
  unfold State.stateFrame
  repeat' (first
    | with_reducible assumption
    | (extract_lets +onlyGivenNames z; refine Keeps.cut (v := z) ?_ ?_ <;> [subst z; (intro _; clear_value z)])
    | extract_lets +onlyGivenNames z | with_reducible apply State.takeState_keeps
    | with_reducible apply State.joinRestart_keeps | with_reducible apply State.wr_keeps
    | with_reducible apply State.putPresent_keeps | with_reducible apply State.takeExcluded_keeps
    | with_reducible apply State.stampCheck_keeps | with_reducible apply State.cycCheck_keeps
    | with_reducible apply State.joinStep_keeps | with_reducible apply State.joinFail_keeps
    | with_reducible refine State.frameRx_keepsEq ?_ (by assumption) | with_reducible apply Keeps.ite
    | with_reducible apply Keeps.iteSnd | with_reducible refine Keeps.ofEq ?_ (by assumption) | split
    | with_reducible refine Keeps.update ?_ rfl rfl rfl rfl rfl rfl rfl rfl | intro _ | dsimp only)

theorem State.faultFrame_keeps {s0 : State} {s : State} (l : Fin 4) (seq : BitVec 16) (m : Fin 3) (self : Bool) (cause : Byte) (src : Fin 64) (ago : Nat) (h : Keeps s0 s) : Keeps s0 (State.faultFrame s l seq m self cause src ago) := by
  unfold State.faultFrame
  repeat' (first
    | with_reducible assumption
    | (extract_lets +onlyGivenNames z; refine Keeps.cut (v := z) ?_ ?_ <;> [subst z; (intro _; clear_value z)])
    | extract_lets +onlyGivenNames z | with_reducible apply State.joinRestart_keeps
    | with_reducible apply State.loseMember_keeps | with_reducible apply State.safeStopAt_keeps
    | with_reducible refine State.frameRx_keepsEq ?_ (by assumption) | with_reducible apply Keeps.ite
    | with_reducible apply Keeps.iteSnd | with_reducible refine Keeps.ofEq ?_ (by assumption) | split
    | with_reducible refine Keeps.update ?_ rfl rfl rfl rfl rfl rfl rfl rfl | intro _ | dsimp only)

theorem State.swapFrame_keeps {s0 : State} {s : State} (l : Fin 4) (seq : BitVec 16) (t : Fin 3) (k : Word) (h : Keeps s0 s) : Keeps s0 (State.swapFrame s l seq t k) := by
  unfold State.swapFrame
  repeat' (first
    | with_reducible assumption
    | (extract_lets +onlyGivenNames z; refine Keeps.cut (v := z) ?_ ?_ <;> [subst z; (intro _; clear_value z)])
    | extract_lets +onlyGivenNames z | with_reducible refine State.frameRx_keepsEq ?_ (by assumption)
    | with_reducible apply Keeps.ite | with_reducible apply Keeps.iteSnd
    | with_reducible refine Keeps.ofEq ?_ (by assumption) | split
    | with_reducible refine Keeps.update ?_ rfl rfl rfl rfl rfl rfl rfl rfl | intro _ | dsimp only)

theorem State.portsFrame_keeps {s0 : State} {s : State} (l : Fin 4) (seq : BitVec 16) (ports : Vector PortCopy 8) (h : Keeps s0 s) : Keeps s0 (State.portsFrame s l seq ports) := by
  unfold State.portsFrame
  repeat' (first
    | with_reducible assumption | with_reducible refine State.frameRx_keepsEq ?_ (by assumption)
    | with_reducible apply State.setPort_keeps | with_reducible apply Keeps.foldl | with_reducible apply Keeps.foldlSnd
    | with_reducible apply Keeps.ite | with_reducible refine Keeps.ofEq ?_ (by assumption) | split
    | with_reducible refine Keeps.update ?_ rfl rfl rfl rfl rfl rfl rfl rfl | intro _ | dsimp only)

theorem State.copyFrame_keeps {s0 : State} {s : State} (l : Fin 4) (seq : BitVec 16) (words : List CopyWord) (last : Bool) (h : Keeps s0 s) : Keeps s0 (State.copyFrame s l seq words last) := by
  unfold State.copyFrame
  repeat' (first
    | with_reducible assumption
    | (extract_lets +onlyGivenNames z; refine Keeps.cut (v := z) ?_ ?_ <;> [subst z; (intro _; clear_value z)])
    | extract_lets +onlyGivenNames z | with_reducible apply State.copyWord_keeps | with_reducible apply State.wr_keeps
    | with_reducible refine State.frameRx_keepsEq ?_ (by assumption) | with_reducible apply Keeps.foldlSnd
    | with_reducible apply Keeps.foldl | with_reducible apply Keeps.ite | with_reducible apply Keeps.iteSnd
    | with_reducible refine Keeps.ofEq ?_ (by assumption) | split
    | with_reducible refine Keeps.update ?_ rfl rfl rfl rfl rfl rfl rfl rfl | intro _ | dsimp only)

theorem State.xferFrame_keeps {s0 : State} {s : State} (l : Fin 4) (seq : BitVec 16) (addr : Word) (data : List Byte) (h : Keeps s0 s) : Keeps s0 (State.xferFrame s l seq addr data) := by
  unfold State.xferFrame
  repeat' (first
    | with_reducible assumption
    | (extract_lets +onlyGivenNames z; refine Keeps.cut (v := z) ?_ ?_ <;> [subst z; (intro _; clear_value z)])
    | extract_lets +onlyGivenNames z | with_reducible apply State.dmaWrite_keeps
    | with_reducible refine State.frameRx_keepsEq ?_ (by assumption) | with_reducible apply Keeps.ite
    | with_reducible apply Keeps.iteSnd | with_reducible refine Keeps.ofEq ?_ (by assumption) | split
    | with_reducible refine Keeps.update ?_ rfl rfl rfl rfl rfl rfl rfl rfl | intro _ | dsimp only)

theorem State.loadCyc_keeps {s0 : State} {s : State} (c : Word64) (h : Keeps s0 s) : Keeps s0 (State.loadCyc s c) := by
  unfold State.loadCyc
  repeat' (first
    | with_reducible assumption
    | (extract_lets +onlyGivenNames z; refine Keeps.cut (v := z) ?_ ?_ <;> [subst z; (intro _; clear_value z)])
    | extract_lets +onlyGivenNames z | with_reducible apply State.moveCyc_keeps | with_reducible apply Keeps.ite
    | with_reducible apply Keeps.iteSnd | with_reducible refine Keeps.ofEq ?_ (by assumption) | split
    | with_reducible refine Keeps.update ?_ rfl rfl rfl rfl rfl rfl rfl rfl | intro _ | dsimp only)

theorem State.cycMark_keeps {s0 : State} {s : State} (l : Fin 4) (seq : BitVec 16) (cyc : Word64) (h : Keeps s0 s) : Keeps s0 (State.cycMark s l seq cyc) := by
  unfold State.cycMark
  repeat' (first
    | with_reducible assumption
    | (extract_lets +onlyGivenNames z; refine Keeps.cut (v := z) ?_ ?_ <;> [subst z; (intro _; clear_value z)])
    | extract_lets +onlyGivenNames z | with_reducible apply State.loadCyc_keeps
    | with_reducible apply State.showCycle_keeps | with_reducible refine State.frameRx_keepsEq ?_ (by assumption)
    | with_reducible apply Keeps.ite | with_reducible apply Keeps.iteSnd
    | with_reducible refine Keeps.ofEq ?_ (by assumption) | split
    | with_reducible refine Keeps.update ?_ rfl rfl rfl rfl rfl rfl rfl rfl | intro _ | dsimp only)

theorem State.laneUpEvent_keeps {s0 : State} {s : State} (l : Fin 4) (m : Fin 3) (h : Keeps s0 s) : Keeps s0 (State.laneUpEvent s l m) := by
  unfold State.laneUpEvent
  repeat' (first
    | with_reducible assumption
    | (extract_lets +onlyGivenNames z; refine Keeps.cut (v := z) ?_ ?_ <;> [subst z; (intro _; clear_value z)])
    | extract_lets +onlyGivenNames z | with_reducible apply State.wr_keeps | with_reducible apply State.wrapBump_keeps
    | with_reducible apply State.irq_keeps | with_reducible apply State.setIsolated_keeps
    | with_reducible apply State.joinStep_keeps | with_reducible apply Keeps.ite | with_reducible apply Keeps.iteSnd
    | with_reducible refine Keeps.ofEq ?_ (by assumption) | split
    | with_reducible refine Keeps.update ?_ rfl rfl rfl rfl rfl rfl rfl rfl | intro _ | dsimp only)

theorem State.laneDown_keeps {s0 : State} {s : State} (l : Fin 4) (h : Keeps s0 s) : Keeps s0 (State.laneDown s l) := by
  unfold State.laneDown
  repeat' (first
    | with_reducible assumption
    | (extract_lets +onlyGivenNames z; refine Keeps.cut (v := z) ?_ ?_ <;> [subst z; (intro _; clear_value z)])
    | extract_lets +onlyGivenNames z | with_reducible apply State.wr_keeps | with_reducible apply State.bump_keeps
    | with_reducible apply State.irq_keeps | with_reducible apply State.copyFail_keeps | with_reducible apply Keeps.ite
    | with_reducible apply Keeps.iteSnd | with_reducible refine Keeps.ofEq ?_ (by assumption) | split
    | with_reducible refine Keeps.update ?_ rfl rfl rfl rfl rfl rfl rfl rfl | intro _ | dsimp only)

theorem State.badFrame_keeps {s0 : State} {s : State} (l : Fin 4) (h : Keeps s0 s) : Keeps s0 (State.badFrame s l) := by
  unfold State.badFrame
  repeat' (first
    | with_reducible assumption
    | (extract_lets +onlyGivenNames z; refine Keeps.cut (v := z) ?_ ?_ <;> [subst z; (intro _; clear_value z)])
    | extract_lets +onlyGivenNames z | with_reducible apply State.bump_keeps
    | with_reducible apply State.setFailed_keeps | with_reducible apply State.laneDown_keeps
    | with_reducible apply Keeps.ite | with_reducible apply Keeps.iteSnd
    | with_reducible refine Keeps.ofEq ?_ (by assumption) | split
    | with_reducible refine Keeps.update ?_ rfl rfl rfl rfl rfl rfl rfl rfl | intro _ | dsimp only)

theorem State.laneLost_keeps {s0 : State} {s : State} (l : Fin 4) (failed : Nat) (h : Keeps s0 s) : Keeps s0 (State.laneLost s l failed) := by
  unfold State.laneLost
  repeat' (first
    | with_reducible assumption
    | (extract_lets +onlyGivenNames z; refine Keeps.cut (v := z) ?_ ?_ <;> [subst z; (intro _; clear_value z)])
    | extract_lets +onlyGivenNames z | with_reducible apply State.bump_keeps | with_reducible apply State.laneDown_keeps
    | with_reducible apply State.setFailed_keeps | with_reducible apply Keeps.foldlSnd
    | with_reducible apply Keeps.foldl | with_reducible apply Keeps.ite | with_reducible apply Keeps.iteSnd
    | with_reducible refine Keeps.ofEq ?_ (by assumption) | split
    | with_reducible refine Keeps.update ?_ rfl rfl rfl rfl rfl rfl rfl rfl | intro _ | dsimp only)

theorem State.idleFrame_keeps {s0 s : State} (l : Fin 4) (cyc : Option Word) (h : Keeps s0 s) : Keeps s0 (s.idleFrame l cyc) := by
  unfold State.idleFrame
  cases cyc with
  | none => exact State.badFrame_keeps l h
  | some c =>
    cases e : s.laneRx l with
    | none => exact h
    | some t => exact State.laneRx_keepsEq h e

theorem State.ping_keeps {s0 : State} {s : State} (l : Fin 4) (at_ : Word64) (h : Keeps s0 s) : Keeps s0 (State.ping s l at_) := by
  unfold State.ping
  repeat' (first
    | with_reducible assumption
    | (extract_lets +onlyGivenNames z; refine Keeps.cut (v := z) ?_ ?_ <;> [subst z; (intro _; clear_value z)])
    | extract_lets +onlyGivenNames z | with_reducible apply State.laneRx_keeps | with_reducible apply State.sendTo_keeps
    | with_reducible apply State.echo_keeps | with_reducible refine State.laneRx_keepsEq ?_ (by assumption)
    | with_reducible apply Keeps.ite | with_reducible apply Keeps.iteSnd
    | with_reducible refine Keeps.ofEq ?_ (by assumption) | split
    | with_reducible refine Keeps.update ?_ rfl rfl rfl rfl rfl rfl rfl rfl | intro _ | dsimp only)

theorem State.echo_keeps {s0 : State} {s : State} (l : Fin 4) (ps : Nat) (h : Keeps s0 s) : Keeps s0 (State.echo s l ps) := by
  unfold State.echo
  repeat' (first
    | with_reducible assumption | with_reducible refine State.laneRx_keepsEq ?_ (by assumption)
    | with_reducible apply State.wr_keeps | split | with_reducible refine Keeps.update ?_ rfl rfl rfl rfl rfl rfl rfl rfl)

theorem State.twitosCommit_keeps {s0 : State} {s : State} (l : Fin 4) (h : Keeps s0 s) : Keeps s0 (State.twitosCommit s l) := by
  unfold State.twitosCommit
  repeat' (first
    | with_reducible assumption | with_reducible apply State.laneDown_keeps | with_reducible apply Keeps.ite | split | intro _)

theorem State.aliveToggle_keeps {s0 : State} {s : State} (h : Keeps s0 s) : Keeps s0 (State.aliveToggle s) := by
  unfold State.aliveToggle
  repeat' (first
    | with_reducible assumption | with_reducible apply Keeps.ite | split
    | with_reducible refine Keeps.update ?_ rfl rfl rfl rfl rfl rfl rfl rfl | intro _)

theorem State.aliveEdge_keeps {s0 : State} {s : State} (p : Nat) (h : Keeps s0 s) : Keeps s0 (State.aliveEdge s p) := by
  unfold State.aliveEdge
  repeat' (first
    | with_reducible assumption | with_reducible apply State.putBit_keeps | with_reducible apply Keeps.foldl
    | with_reducible apply Keeps.foldlSnd | with_reducible apply Keeps.ite | split | intro _ | dsimp only)

theorem State.aliveLost_keeps {s0 : State} {s : State} (m : Fin 3) (h : Keeps s0 s) : Keeps s0 (State.aliveLost s m) := by
  unfold State.aliveLost
  repeat' (first
    | with_reducible assumption
    | (extract_lets +onlyGivenNames z; refine Keeps.cut (v := z) ?_ ?_ <;> [subst z; (intro _; clear_value z)])
    | extract_lets +onlyGivenNames z | with_reducible apply State.putBit_keeps
    | with_reducible apply State.setIsolated_keeps | with_reducible apply Keeps.ite | with_reducible apply Keeps.iteSnd
    | with_reducible refine Keeps.ofEq ?_ (by assumption) | split
    | with_reducible refine Keeps.update ?_ rfl rfl rfl rfl rfl rfl rfl rfl | intro _ | dsimp only)

theorem State.isolation_keeps {s0 : State} {s : State} (m : Fin 3) (h : Keeps s0 s) : Keeps s0 (State.isolation s m) := by
  unfold State.isolation
  repeat' (first
    | with_reducible assumption
    | (extract_lets +onlyGivenNames z; refine Keeps.cut (v := z) ?_ ?_ <;> [subst z; (intro _; clear_value z)])
    | extract_lets +onlyGivenNames z | with_reducible apply State.setIsolated_keeps
    | with_reducible apply State.leaveSet_keeps | with_reducible apply Keeps.ite | with_reducible apply Keeps.iteSnd
    | with_reducible refine Keeps.ofEq ?_ (by assumption) | split
    | with_reducible refine Keeps.update ?_ rfl rfl rfl rfl rfl rfl rfl rfl | intro _ | dsimp only)

theorem State.setLocked_keeps {s0 : State} {s : State} (b : Bool) (h : Keeps s0 s) : Keeps s0 (State.setLocked s b) := by
  unfold State.setLocked
  repeat' (first
    | with_reducible assumption
    | (extract_lets +onlyGivenNames z; refine Keeps.cut (v := z) ?_ ?_ <;> [subst z; (intro _; clear_value z)])
    | extract_lets +onlyGivenNames z | with_reducible apply State.setFlag_keeps | with_reducible apply State.irqIf_keeps
    | dsimp only)

theorem State.dllLocked_keeps {s0 : State} {s : State} (tap : Nat) (e : Nat) (h : Keeps s0 s) : Keeps s0 (State.dllLocked s tap e) := by
  unfold State.dllLocked
  repeat' (first
    | with_reducible assumption | with_reducible apply State.wr_keeps | with_reducible apply State.setLocked_keeps
    | with_reducible apply State.joinStep_keeps | with_reducible apply Keeps.ite | split | intro _)

theorem State.hclkAbsent_keeps {s0 : State} {s : State} (h : Keeps s0 s) : Keeps s0 (State.hclkAbsent s) := by
  unfold State.hclkAbsent
  repeat' (first
    | with_reducible assumption
    | (extract_lets +onlyGivenNames z; refine Keeps.cut (v := z) ?_ ?_ <;> [subst z; (intro _; clear_value z)])
    | extract_lets +onlyGivenNames z | with_reducible apply State.wr_keeps | with_reducible apply State.bump_keeps
    | with_reducible apply State.irq_keeps | with_reducible apply State.setLocked_keeps | with_reducible apply Keeps.ite
    | with_reducible apply Keeps.iteSnd | with_reducible refine Keeps.ofEq ?_ (by assumption) | split
    | with_reducible refine Keeps.update ?_ rfl rfl rfl rfl rfl rfl rfl rfl | intro _ | dsimp only)

theorem State.hclkReturn_keeps {s0 : State} {s : State} (e : Int) (h : Keeps s0 s) : Keeps s0 (State.hclkReturn s e) := by
  unfold State.hclkReturn
  repeat' (first
    | with_reducible assumption
    | (extract_lets +onlyGivenNames z; refine Keeps.cut (v := z) ?_ ?_ <;> [subst z; (intro _; clear_value z)])
    | extract_lets +onlyGivenNames z | with_reducible apply State.wr_keeps | with_reducible apply State.leaveSet_keeps
    | with_reducible apply Keeps.ite | with_reducible apply Keeps.iteSnd
    | with_reducible refine Keeps.ofEq ?_ (by assumption) | split
    | with_reducible refine Keeps.update ?_ rfl rfl rfl rfl rfl rfl rfl rfl | intro _ | dsimp only)

theorem State.slewEnd_keeps {s0 : State} {s : State} (e : Nat) (h : Keeps s0 s) : Keeps s0 (State.slewEnd s e) := by
  unfold State.slewEnd
  repeat' (first
    | with_reducible assumption | with_reducible apply State.wr_keeps | with_reducible apply State.setLocked_keeps
    | with_reducible apply Keeps.ite | split | intro _)

theorem State.holdoverLimit_keeps {s0 : State} {s : State} (h : Keeps s0 s) : Keeps s0 (State.holdoverLimit s) := by
  unfold State.holdoverLimit
  repeat' (first
    | with_reducible assumption
    | (extract_lets +onlyGivenNames z; refine Keeps.cut (v := z) ?_ ?_ <;> [subst z; (intro _; clear_value z)])
    | extract_lets +onlyGivenNames z | with_reducible apply State.leaveSet_keeps | with_reducible apply Keeps.ite
    | with_reducible apply Keeps.iteSnd | with_reducible refine Keeps.ofEq ?_ (by assumption) | split
    | with_reducible refine Keeps.update ?_ rfl rfl rfl rfl rfl rfl rfl rfl | intro _ | dsimp only)

theorem State.ckRescue_keeps {s0 : State} {s : State} (k : Fin 4) (h : Keeps s0 s) : Keeps s0 (State.ckRescue s k) := by
  unfold State.ckRescue
  repeat' (first
    | with_reducible assumption | with_reducible apply State.wr_keeps | with_reducible apply Keeps.ite | split
    | with_reducible refine Keeps.update ?_ rfl rfl rfl rfl rfl rfl rfl rfl | intro _)

theorem State.stampRead_keeps {s0 : State} {s : State} (k : Fin 8) (h : Keeps s0 s) : Keeps s0 (State.stampRead s k).2 := by
  unfold State.stampRead
  repeat' (first
    | with_reducible assumption
    | (extract_lets +onlyGivenNames z; refine Keeps.cut (v := z) ?_ ?_ <;> [subst z; (intro _; clear_value z)])
    | extract_lets +onlyGivenNames z | with_reducible apply State.cycleReads_keeps
    | with_reducible apply State.bump_keeps | with_reducible apply Keeps.ite | with_reducible apply Keeps.iteSnd
    | with_reducible refine Keeps.ofEq ?_ (by assumption) | split
    | with_reducible refine Keeps.update ?_ rfl rfl rfl rfl rfl rfl rfl rfl | intro _ | dsimp only)

theorem State.xferStart_keeps {s0 : State} {s : State} (len : Nat) (target : Nat) (h : Keeps s0 s) : Keeps s0 (State.xferStart s len target) := by
  unfold State.xferStart
  repeat' (first
    | with_reducible assumption
    | (extract_lets +onlyGivenNames z; refine Keeps.cut (v := z) ?_ ?_ <;> [subst z; (intro _; clear_value z)])
    | extract_lets +onlyGivenNames z | with_reducible apply State.dmaRead_keeps
    | with_reducible apply State.sendTo_keeps | with_reducible apply State.freshWord_keeps
    | with_reducible apply State.wr_keeps | with_reducible apply Keeps.ite | with_reducible apply Keeps.iteSnd
    | with_reducible refine Keeps.ofEq ?_ (by assumption) | split
    | with_reducible refine Keeps.update ?_ rfl rfl rfl rfl rfl rfl rfl rfl | intro _ | dsimp only)

theorem State.xferDone_keeps {s0 : State} {s : State} (h : Keeps s0 s) : Keeps s0 (State.xferDone s) := by
  unfold State.xferDone
  repeat' (first
    | with_reducible assumption
    | (extract_lets +onlyGivenNames z; refine Keeps.cut (v := z) ?_ ?_ <;> [subst z; (intro _; clear_value z)])
    | extract_lets +onlyGivenNames z | with_reducible apply State.wr_keeps | with_reducible apply State.irq_keeps | split
    | with_reducible refine Keeps.update ?_ rfl rfl rfl rfl rfl rfl rfl rfl | dsimp only)

theorem State.passUnit_keeps {s0 : State} {s : State} (n : Fin 16) (h : Keeps s0 s) : Keeps s0 (State.passUnit s n) := by
  unfold State.passUnit
  repeat' (first
    | with_reducible assumption | with_reducible apply State.recheckDrive_keeps | with_reducible apply Keeps.ite | split
    | with_reducible refine Keeps.update ?_ rfl rfl rfl rfl rfl rfl rfl rfl | intro _)

theorem State.passPilot_keeps {s0 : State} {s : State} (h : Keeps s0 s) : Keeps s0 (State.passPilot s) := by
  unfold State.passPilot
  repeat' (first
    | with_reducible assumption | with_reducible refine Keeps.update ?_ rfl rfl rfl rfl rfl rfl rfl rfl)

theorem State.passPorts_keeps {s0 : State} {s : State} (h : Keeps s0 s) : Keeps s0 (State.passPorts s) := by
  unfold State.passPorts
  repeat' (first
    | with_reducible assumption | with_reducible refine Keeps.update ?_ rfl rfl rfl rfl rfl rfl rfl rfl)

theorem State.trigEdge_keeps {s0 : State} {s : State} (l : Fin 4) (h : Keeps s0 s) : Keeps s0 (State.trigEdge s l) := by
  unfold State.trigEdge
  repeat' (first
    | with_reducible assumption
    | (extract_lets +onlyGivenNames z; refine Keeps.cut (v := z) ?_ ?_ <;> [subst z; (intro _; clear_value z)])
    | extract_lets +onlyGivenNames z | with_reducible apply State.trgLine_keeps
    | with_reducible apply State.pwmSyncFrom_keeps | with_reducible apply State.sarEmit_keeps
    | with_reducible apply State.bump_keeps | with_reducible apply State.irq_keeps | with_reducible apply Keeps.foldlSnd
    | with_reducible apply Keeps.foldl | with_reducible apply Keeps.ite | with_reducible apply Keeps.iteSnd
    | with_reducible refine Keeps.ofEq ?_ (by assumption) | split
    | with_reducible refine Keeps.update ?_ rfl rfl rfl rfl rfl rfl rfl rfl | intro _ | dsimp only)

end Sys2Proof.Machine
end

