-- ==== Sys2Proof/Laws/KeepsPtp.lean ====
section
/-!
SUPPORT. Laws/KeepsPtp.lean: every operation of Machine/Ptp.lean keeps what `Keeps` says.
-/
namespace Sys2Proof.Machine

set_option linter.unusedTactic false
set_option linter.unreachableTactic false
set_option linter.unusedVariables false
set_option linter.tactic.unusedName false

theorem State.setSched_keeps {s0 : State} {s : State} (n : Fin 4) (x : Schedule) (h : Keeps s0 s) : Keeps s0 (State.setSched s n x) := by
  unfold State.setSched
  repeat' (first
    | with_reducible assumption | with_reducible refine Keeps.update ?_ rfl rfl rfl rfl rfl rfl rfl rfl)

theorem State.ptpShow_keeps {s0 : State} {s : State} (h : Keeps s0 s) : Keeps s0 (State.ptpShow s) := by
  unfold State.ptpShow
  repeat' (first
    | with_reducible assumption
    | (extract_lets +onlyGivenNames z; refine Keeps.cut (v := z) ?_ ?_ <;> [subst z; (intro _; clear_value z)])
    | extract_lets +onlyGivenNames z | with_reducible apply State.setFlag_keeps | with_reducible apply State.irqIf_keeps
    | with_reducible apply State.trustShow_keeps | dsimp only)

theorem State.ptpUnlock_keeps {s0 : State} {s : State} (h : Keeps s0 s) : Keeps s0 (State.ptpUnlock s) := by
  unfold State.ptpUnlock
  repeat' (first
    | with_reducible assumption | with_reducible apply State.wr_keeps | with_reducible apply State.ptpShow_keeps
    | with_reducible refine Keeps.update ?_ rfl rfl rfl rfl rfl rfl rfl rfl)

theorem State.roundPs_keeps {s0 : State} {s : State} (q : Rat) (h : Keeps s0 s) : Keeps s0 (State.roundPs s q).2 := by
  unfold State.roundPs
  repeat' (first
    | with_reducible assumption
    | (extract_lets +onlyGivenNames z; refine Keeps.cut (v := z) ?_ ?_ <;> [subst z; (intro _; clear_value z)])
    | extract_lets +onlyGivenNames z | with_reducible apply State.freshWord_keeps | with_reducible apply Keeps.ite
    | with_reducible refine Keeps.ofEq ?_ (by assumption) | split | intro _ | dsimp only)

theorem State.takeOffset_keeps {s0 : State} {s : State} (m : PtpMsg) (t2 : Rat) (c : Int) (h : Keeps s0 s) : Keeps s0 (State.takeOffset s m t2 c) := by
  unfold State.takeOffset
  repeat' (first
    | with_reducible assumption
    | (extract_lets +onlyGivenNames z; refine Keeps.cut (v := z) ?_ ?_ <;> [subst z; (intro _; clear_value z)])
    | extract_lets +onlyGivenNames z | with_reducible apply State.roundPs_keeps | with_reducible apply State.wr_keeps
    | with_reducible apply State.setFlag_keeps | with_reducible apply State.irq_keeps
    | with_reducible apply State.ptpShow_keeps | with_reducible apply Keeps.ite | with_reducible apply Keeps.iteSnd
    | with_reducible refine Keeps.ofEq ?_ (by assumption) | split
    | with_reducible refine Keeps.update ?_ rfl rfl rfl rfl rfl rfl rfl rfl | intro _ | dsimp only)

theorem State.ptpSync_keeps {s0 : State} {s : State} (p : Fin 2) (m : PtpMsg) (frac : Nat) (h : Keeps s0 s) : Keeps s0 (State.ptpSync s p m frac) := by
  unfold State.ptpSync
  repeat' (first
    | with_reducible assumption
    | (extract_lets +onlyGivenNames z; refine Keeps.cut (v := z) ?_ ?_ <;> [subst z; (intro _; clear_value z)])
    | extract_lets +onlyGivenNames z | with_reducible apply State.takeOffset_keeps | with_reducible apply Keeps.ite
    | with_reducible apply Keeps.iteSnd | with_reducible refine Keeps.ofEq ?_ (by assumption) | split
    | with_reducible refine Keeps.update ?_ rfl rfl rfl rfl rfl rfl rfl rfl | intro _ | dsimp only)

theorem State.followUp_keeps {s0 : State} {s : State} (p : Fin 2) (m : PtpMsg) (h : Keeps s0 s) : Keeps s0 (State.followUp s p m) := by
  unfold State.followUp
  repeat' (first
    | with_reducible assumption
    | (extract_lets +onlyGivenNames z; refine Keeps.cut (v := z) ?_ ?_ <;> [subst z; (intro _; clear_value z)])
    | extract_lets +onlyGivenNames z | with_reducible apply State.takeOffset_keeps | with_reducible apply Keeps.ite
    | with_reducible apply Keeps.iteSnd | with_reducible refine Keeps.ofEq ?_ (by assumption) | split
    | with_reducible refine Keeps.update ?_ rfl rfl rfl rfl rfl rfl rfl rfl | intro _ | dsimp only)

theorem State.syncTimeout_keeps {s0 : State} {s : State} (h : Keeps s0 s) : Keeps s0 (State.syncTimeout s) := by
  unfold State.syncTimeout
  repeat' (first
    | with_reducible assumption | with_reducible apply State.wr_keeps | with_reducible apply State.ptpUnlock_keeps
    | with_reducible apply Keeps.ite | split | intro _)

theorem State.sendFrame_keeps {s0 : State} {s : State} (p : Fin 2) (x : Sent) (h : Keeps s0 s) : Keeps s0 (State.sendFrame s p x) := by
  unfold State.sendFrame
  repeat' (first
    | with_reducible assumption
    | (extract_lets +onlyGivenNames z; refine Keeps.cut (v := z) ?_ ?_ <;> [subst z; (intro _; clear_value z)])
    | extract_lets +onlyGivenNames z | with_reducible apply State.wrapBump_keeps
    | with_reducible refine Keeps.update ?_ rfl rfl rfl rfl rfl rfl rfl rfl | dsimp only)

theorem State.ptpSend_keeps {s0 : State} {s : State} (p : Fin 2) (msg : List Byte) (corr : Rat) (h : Keeps s0 s) : Keeps s0 (State.ptpSend s p msg corr) := by
  unfold State.ptpSend
  repeat' (first
    | with_reducible assumption
    | (extract_lets +onlyGivenNames z; refine Keeps.cut (v := z) ?_ ?_ <;> [subst z; (intro _; clear_value z)])
    | extract_lets +onlyGivenNames z | with_reducible apply State.sendFrame_keeps | with_reducible apply Keeps.ite
    | with_reducible apply Keeps.iteSnd | with_reducible refine Keeps.ofEq ?_ (by assumption) | split
    | with_reducible refine Keeps.update ?_ rfl rfl rfl rfl rfl rfl rfl rfl | intro _ | dsimp only)

theorem State.pdelaySend_keeps {s0 : State} {s : State} (p : Fin 2) (frac : Nat) (h : Keeps s0 s) : Keeps s0 (State.pdelaySend s p frac) := by
  unfold State.pdelaySend
  repeat' (first
    | with_reducible assumption
    | (extract_lets +onlyGivenNames z; refine Keeps.cut (v := z) ?_ ?_ <;> [subst z; (intro _; clear_value z)])
    | extract_lets +onlyGivenNames z | with_reducible apply State.ptpSend_keeps | with_reducible apply State.bump_keeps
    | with_reducible apply State.irq_keeps | with_reducible apply Keeps.ite | with_reducible apply Keeps.iteSnd
    | with_reducible refine Keeps.ofEq ?_ (by assumption) | split
    | with_reducible refine Keeps.update ?_ rfl rfl rfl rfl rfl rfl rfl rfl | intro _ | dsimp only)

theorem State.pdelayAnswer_keeps {s0 : State} {s : State} (p : Fin 2) (m : PtpMsg) (frac : Nat) (turn : Nat) (h : Keeps s0 s) : Keeps s0 (State.pdelayAnswer s p m frac turn) := by
  unfold State.pdelayAnswer
  repeat' (first
    | with_reducible assumption
    | (extract_lets +onlyGivenNames z; refine Keeps.cut (v := z) ?_ ?_ <;> [subst z; (intro _; clear_value z)])
    | extract_lets +onlyGivenNames z | with_reducible apply State.ptpSend_keeps | with_reducible apply Keeps.ite
    | with_reducible apply Keeps.iteSnd | with_reducible refine Keeps.ofEq ?_ (by assumption) | split
    | with_reducible refine Keeps.update ?_ rfl rfl rfl rfl rfl rfl rfl rfl | intro _ | dsimp only)

theorem State.pdelayResp_keeps {s0 : State} {s : State} (p : Fin 2) (turn : Int) (frac : Nat) (h : Keeps s0 s) : Keeps s0 (State.pdelayResp s p turn frac) := by
  unfold State.pdelayResp
  repeat' (first
    | with_reducible assumption
    | (extract_lets +onlyGivenNames z; refine Keeps.cut (v := z) ?_ ?_ <;> [subst z; (intro _; clear_value z)])
    | extract_lets +onlyGivenNames z | with_reducible apply State.roundPs_keeps | with_reducible apply State.wr_keeps
    | with_reducible apply State.freshWord_keeps | with_reducible apply Keeps.ite
    | with_reducible refine Keeps.ofEq ?_ (by assumption) | split
    | with_reducible refine Keeps.update ?_ rfl rfl rfl rfl rfl rfl rfl rfl | intro _ | dsimp only)

theorem State.pdelayAbandon_keeps {s0 : State} {s : State} (p : Fin 2) (h : Keeps s0 s) : Keeps s0 (State.pdelayAbandon s p) := by
  unfold State.pdelayAbandon
  repeat' (first
    | with_reducible assumption | with_reducible refine Keeps.update ?_ rfl rfl rfl rfl rfl rfl rfl rfl)

theorem State.schedFire_keeps {s0 : State} {s : State} (n : Fin 4) (h : Keeps s0 s) : Keeps s0 (State.schedFire s n) := by
  unfold State.schedFire
  repeat' (first
    | with_reducible assumption
    | (extract_lets +onlyGivenNames z; refine Keeps.cut (v := z) ?_ ?_ <;> [subst z; (intro _; clear_value z)])
    | extract_lets +onlyGivenNames z | with_reducible apply State.setSched_keeps
    | with_reducible apply State.wrapBump_keeps | with_reducible apply State.irq_keeps
    | with_reducible apply State.trgLine_keeps | with_reducible apply State.pwmSyncFrom_keeps
    | with_reducible apply State.sarEmit_keeps | with_reducible apply Keeps.ite | with_reducible apply Keeps.iteSnd
    | with_reducible refine Keeps.ofEq ?_ (by assumption) | split
    | with_reducible refine Keeps.update ?_ rfl rfl rfl rfl rfl rfl rfl rfl | intro _ | dsimp only)

theorem State.timeEvent_keeps {s0 : State} {s : State} (n : Fin 4) (h : Keeps s0 s) : Keeps s0 (State.timeEvent s n) := by
  unfold State.timeEvent
  repeat' (first
    | with_reducible assumption
    | (extract_lets +onlyGivenNames z; refine Keeps.cut (v := z) ?_ ?_ <;> [subst z; (intro _; clear_value z)])
    | extract_lets +onlyGivenNames z | with_reducible apply State.schedFire_keeps | with_reducible apply Keeps.ite
    | with_reducible apply Keeps.iteSnd | with_reducible refine Keeps.ofEq ?_ (by assumption) | split
    | with_reducible refine Keeps.update ?_ rfl rfl rfl rfl rfl rfl rfl rfl | intro _ | dsimp only)

theorem State.timeOutputEnd_keeps {s0 : State} {s : State} (n : Fin 4) (h : Keeps s0 s) : Keeps s0 (State.timeOutputEnd s n) := by
  unfold State.timeOutputEnd
  repeat' (first
    | with_reducible assumption
    | (extract_lets +onlyGivenNames z; refine Keeps.cut (v := z) ?_ ?_ <;> [subst z; (intro _; clear_value z)])
    | extract_lets +onlyGivenNames z | with_reducible apply State.setSched_keeps | with_reducible apply Keeps.ite
    | with_reducible apply Keeps.iteSnd | with_reducible refine Keeps.ofEq ?_ (by assumption) | split
    | with_reducible refine Keeps.update ?_ rfl rfl rfl rfl rfl rfl rfl rfl | intro _ | dsimp only)

theorem State.schedStep_keeps {s0 : State} {s : State} (n : Fin 4) (old : Nat) (h : Keeps s0 s) : Keeps s0 (State.schedStep s n old) := by
  unfold State.schedStep
  repeat' (first
    | with_reducible assumption
    | (extract_lets +onlyGivenNames z; refine Keeps.cut (v := z) ?_ ?_ <;> [subst z; (intro _; clear_value z)])
    | extract_lets +onlyGivenNames z | with_reducible apply State.wr_keeps | with_reducible apply State.schedFire_keeps
    | with_reducible apply State.setSched_keeps | with_reducible apply Keeps.ite | split
    | with_reducible refine Keeps.update ?_ rfl rfl rfl rfl rfl rfl rfl rfl | intro _ | dsimp only)

theorem State.setTime_keeps {s0 : State} {s : State} (t : Nat) (h : Keeps s0 s) : Keeps s0 (State.setTime s t) := by
  unfold State.setTime
  repeat' (first
    | with_reducible assumption
    | (extract_lets +onlyGivenNames z; refine Keeps.cut (v := z) ?_ ?_ <;> [subst z; (intro _; clear_value z)])
    | extract_lets +onlyGivenNames z | with_reducible apply State.schedStep_keeps | with_reducible apply Keeps.foldl
    | with_reducible apply Keeps.foldlSnd | with_reducible refine Keeps.update ?_ rfl rfl rfl rfl rfl rfl rfl rfl | intro _
    | dsimp only)

theorem State.stepTime_keeps {s0 : State} {s : State} (d : Int) (h : Keeps s0 s) : Keeps s0 (State.stepTime s d) := by
  unfold State.stepTime
  repeat' (first
    | with_reducible assumption | with_reducible apply State.setTime_keeps)

theorem State.atNextTick_keeps {s0 : State} {s : State} (x : TimeChange) (h : Keeps s0 s) : Keeps s0 (State.atNextTick s x) := by
  unfold State.atNextTick
  repeat' (first
    | with_reducible assumption
    | (extract_lets +onlyGivenNames z; refine Keeps.cut (v := z) ?_ ?_ <;> [subst z; (intro _; clear_value z)])
    | extract_lets +onlyGivenNames z | with_reducible apply Keeps.ite | with_reducible apply Keeps.iteSnd
    | with_reducible refine Keeps.ofEq ?_ (by assumption) | split
    | with_reducible refine Keeps.update ?_ rfl rfl rfl rfl rfl rfl rfl rfl | intro _ | dsimp only)

theorem State.changeTime_keeps {s0 : State} {s : State} (x : TimeChange) (h : Keeps s0 s) : Keeps s0 (State.changeTime s x) := by
  unfold State.changeTime
  repeat' (first
    | with_reducible assumption
    | (extract_lets +onlyGivenNames z; refine Keeps.cut (v := z) ?_ ?_ <;> [subst z; (intro _; clear_value z)])
    | extract_lets +onlyGivenNames z | with_reducible apply State.setTime_keeps
    | with_reducible apply State.stepTime_keeps | with_reducible apply State.wr_keeps
    | with_reducible apply State.ptpShow_keeps | with_reducible apply Keeps.ite | with_reducible apply Keeps.iteSnd
    | with_reducible refine Keeps.ofEq ?_ (by assumption) | split
    | with_reducible refine Keeps.update ?_ rfl rfl rfl rfl rfl rfl rfl rfl | intro _ | dsimp only)

theorem State.ptpTick_keeps {s0 : State} {s : State} (h : Keeps s0 s) : Keeps s0 (State.ptpTick s) := by
  unfold State.ptpTick
  repeat' (first
    | with_reducible assumption
    | (extract_lets +onlyGivenNames z; refine Keeps.cut (v := z) ?_ ?_ <;> [subst z; (intro _; clear_value z)])
    | extract_lets +onlyGivenNames z | with_reducible apply State.changeTime_keeps | with_reducible apply Keeps.foldlSnd
    | with_reducible apply Keeps.foldl | with_reducible apply Keeps.ite | with_reducible apply Keeps.iteSnd
    | with_reducible refine Keeps.ofEq ?_ (by assumption) | split
    | with_reducible refine Keeps.update ?_ rfl rfl rfl rfl rfl rfl rfl rfl | intro _ | dsimp only)

theorem State.jumpRequest_keeps {s0 : State} {s : State} (d : Int) (h : Keeps s0 s) : Keeps s0 (State.jumpRequest s d) := by
  unfold State.jumpRequest
  repeat' (first
    | with_reducible assumption
    | (extract_lets +onlyGivenNames z; refine Keeps.cut (v := z) ?_ ?_ <;> [subst z; (intro _; clear_value z)])
    | extract_lets +onlyGivenNames z | with_reducible apply State.atNextTick_keeps | with_reducible apply State.wr_keeps
    | with_reducible apply State.ptpShow_keeps | with_reducible apply State.bump_keeps
    | with_reducible apply State.irq_keeps | with_reducible apply Keeps.ite | with_reducible apply Keeps.iteSnd
    | with_reducible refine Keeps.ofEq ?_ (by assumption) | split
    | with_reducible refine Keeps.update ?_ rfl rfl rfl rfl rfl rfl rfl rfl | intro _ | dsimp only)

theorem State.setRequest_keeps {s0 : State} {s : State} (ns : Nat) (h : Keeps s0 s) : Keeps s0 (State.setRequest s ns) := by
  unfold State.setRequest
  repeat' (first
    | with_reducible assumption
    | (extract_lets +onlyGivenNames z; refine Keeps.cut (v := z) ?_ ?_ <;> [subst z; (intro _; clear_value z)])
    | extract_lets +onlyGivenNames z | with_reducible apply State.jumpRequest_keeps
    | with_reducible apply State.wr_keeps | with_reducible apply State.atNextTick_keeps
    | with_reducible apply State.ptpShow_keeps | with_reducible apply Keeps.ite | with_reducible apply Keeps.iteSnd
    | with_reducible refine Keeps.ofEq ?_ (by assumption) | split
    | with_reducible refine Keeps.update ?_ rfl rfl rfl rfl rfl rfl rfl rfl | intro _ | dsimp only)

theorem State.stepRequest_keeps {s0 : State} {s : State} (hi : Nat) (h : Keeps s0 s) : Keeps s0 (State.stepRequest s hi) := by
  unfold State.stepRequest
  repeat' (first
    | with_reducible assumption | with_reducible apply State.jumpRequest_keeps)

theorem State.jumpCmd_keeps {s0 : State} {s : State} (accept : Bool) (reject : Bool) (h : Keeps s0 s) : Keeps s0 (State.jumpCmd s accept reject) := by
  unfold State.jumpCmd
  repeat' (first
    | with_reducible assumption
    | (extract_lets +onlyGivenNames z; refine Keeps.cut (v := z) ?_ ?_ <;> [subst z; (intro _; clear_value z)])
    | extract_lets +onlyGivenNames z | with_reducible apply State.atNextTick_keeps | with_reducible apply State.wr_keeps
    | with_reducible apply State.ptpShow_keeps | with_reducible apply Keeps.ite | with_reducible apply Keeps.iteSnd
    | with_reducible refine Keeps.ofEq ?_ (by assumption) | split
    | with_reducible refine Keeps.update ?_ rfl rfl rfl rfl rfl rfl rfl rfl | intro _ | dsimp only)

theorem State.timeSnap_keeps {s0 : State} {s : State} (h : Keeps s0 s) : Keeps s0 (State.timeSnap s) := by
  unfold State.timeSnap
  repeat' (first
    | with_reducible assumption
    | (extract_lets +onlyGivenNames z; refine Keeps.cut (v := z) ?_ ?_ <;> [subst z; (intro _; clear_value z)])
    | extract_lets +onlyGivenNames z | with_reducible apply State.wr_keeps | with_reducible apply State.wr64_keeps
    | dsimp only)

theorem State.offsetSnap_keeps {s0 : State} {s : State} (h : Keeps s0 s) : Keeps s0 (State.offsetSnap s) := by
  unfold State.offsetSnap
  repeat' (first
    | with_reducible assumption | with_reducible apply State.wr64_keeps)

theorem State.jumpSnap_keeps {s0 : State} {s : State} (h : Keeps s0 s) : Keeps s0 (State.jumpSnap s) := by
  unfold State.jumpSnap
  repeat' (first
    | with_reducible assumption | with_reducible apply State.wr64_keeps)

theorem State.ptpCommit_keeps {s0 : State} {s : State} (changed : Fin 4 → Bool) (h : Keeps s0 s) : Keeps s0 (State.ptpCommit s changed) := by
  unfold State.ptpCommit
  repeat' (first
    | with_reducible assumption | with_reducible apply State.setSched_keeps | with_reducible apply Keeps.foldl
    | with_reducible apply Keeps.foldlSnd | with_reducible apply Keeps.ite | split | intro _ | dsimp only)

end Sys2Proof.Machine
end

