-- ==== Sys2Proof/Laws/KeepsEth.lean ====
section
/-!
SUPPORT. Laws/KeepsEth.lean: every operation of Machine/Eth.lean keeps what `Keeps` says.
-/
namespace Sys2Proof.Machine

set_option linter.unusedTactic false
set_option linter.unreachableTactic false
set_option linter.unusedVariables false
set_option linter.tactic.unusedName false

theorem State.trySend_keeps {s0 : State} {s : State} (p : Fin 2) (x : Sent) (h : Keeps s0 s) : Keeps s0 (State.trySend s p x) := by
  unfold State.trySend
  repeat' (first
    | with_reducible assumption | with_reducible apply State.sendFrame_keeps | with_reducible apply Keeps.ite | split
    | intro _)

theorem State.forward_keeps {s0 : State} {s : State} (p : Fin 2) (f : EthFrame) (ticks : Nat) (h : Keeps s0 s) : Keeps s0 (State.forward s p f ticks) := by
  unfold State.forward
  repeat' (first
    | with_reducible assumption
    | (extract_lets +onlyGivenNames z; refine Keeps.cut (v := z) ?_ ?_ <;> [subst z; (intro _; clear_value z)])
    | extract_lets +onlyGivenNames z | with_reducible apply State.trySend_keeps | with_reducible apply Keeps.ite
    | with_reducible apply Keeps.iteSnd | with_reducible refine Keeps.ofEq ?_ (by assumption) | split
    | with_reducible refine Keeps.update ?_ rfl rfl rfl rfl rfl rfl rfl rfl | intro _ | dsimp only)

theorem State.dmaWord_keeps {s0 : State} {s : State} (a : Nat) (h : Keeps s0 s) : Keeps s0 (State.dmaWord s a).2 := by
  unfold State.dmaWord
  repeat' (first
    | with_reducible assumption
    | (extract_lets +onlyGivenNames z; refine Keeps.cut (v := z) ?_ ?_ <;> [subst z; (intro _; clear_value z)])
    | extract_lets +onlyGivenNames z | with_reducible apply State.sramRead_keeps
    | with_reducible refine Keeps.ofEq ?_ (by assumption) | split | dsimp only)

theorem State.rxDeliver_keeps {s0 : State} {s : State} (q : Fin 4) (p : Fin 2) (f : EthFrame) (ts : Rat) (h : Keeps s0 s) : Keeps s0 (State.rxDeliver s q p f ts) := by
  unfold State.rxDeliver
  repeat' (first
    | with_reducible assumption
    | (extract_lets +onlyGivenNames z; refine Keeps.cut (v := z) ?_ ?_ <;> [subst z; (intro _; clear_value z)])
    | extract_lets +onlyGivenNames z | with_reducible apply State.bump_keeps | with_reducible apply State.irq_keeps
    | with_reducible apply State.dmaWord_keeps | with_reducible apply State.dmaWrite_keeps
    | with_reducible apply State.wr_keeps | with_reducible apply Keeps.ite
    | with_reducible refine Keeps.ofEq ?_ (by assumption) | split
    | with_reducible refine Keeps.update ?_ rfl rfl rfl rfl rfl rfl rfl rfl | intro _ | dsimp only)

theorem State.toHost_keeps {s0 : State} {s : State} (p : Fin 2) (f : EthFrame) (ts : Rat) (h : Keeps s0 s) : Keeps s0 (State.toHost s p f ts) := by
  unfold State.toHost
  repeat' (first
    | with_reducible assumption
    | (extract_lets +onlyGivenNames z; refine Keeps.cut (v := z) ?_ ?_ <;> [subst z; (intro _; clear_value z)])
    | extract_lets +onlyGivenNames z | with_reducible apply State.rxDeliver_keeps | with_reducible apply Keeps.ite
    | with_reducible apply Keeps.iteSnd | with_reducible refine Keeps.ofEq ?_ (by assumption) | split
    | with_reducible refine Keeps.update ?_ rfl rfl rfl rfl rfl rfl rfl rfl | intro _ | dsimp only)

theorem State.noteDelivered_keeps {s0 : State} {s : State} (src : BitVec 48) (seq : BitVec 16) (h : Keeps s0 s) : Keeps s0 (State.noteDelivered s src seq) := by
  unfold State.noteDelivered
  repeat' (first
    | with_reducible assumption
    | (extract_lets +onlyGivenNames z; refine Keeps.cut (v := z) ?_ ?_ <;> [subst z; (intro _; clear_value z)])
    | extract_lets +onlyGivenNames z | with_reducible refine Keeps.update ?_ rfl rfl rfl rfl rfl rfl rfl rfl | intro _
    | dsimp only)

theorem State.noteSent_keeps {s0 : State} {s : State} (p : Fin 2) (src : BitVec 48) (seq : BitVec 16) (h : Keeps s0 s) : Keeps s0 (State.noteSent s p src seq) := by
  unfold State.noteSent
  repeat' (first
    | with_reducible assumption
    | (extract_lets +onlyGivenNames z; refine Keeps.cut (v := z) ?_ ?_ <;> [subst z; (intro _; clear_value z)])
    | extract_lets +onlyGivenNames z | with_reducible refine Keeps.update ?_ rfl rfl rfl rfl rfl rfl rfl rfl | intro _
    | dsimp only)

theorem State.hostOnce_keeps {s0 : State} {s : State} (p : Fin 2) (f : EthFrame) (ts : Rat) (seq : BitVec 16) (h : Keeps s0 s) : Keeps s0 (State.hostOnce s p f ts seq) := by
  unfold State.hostOnce
  repeat' (first
    | with_reducible assumption
    | (extract_lets +onlyGivenNames z; refine Keeps.cut (v := z) ?_ ?_ <;> [subst z; (intro _; clear_value z)])
    | extract_lets +onlyGivenNames z | with_reducible apply State.bump_keeps
    | with_reducible apply State.noteDelivered_keeps | with_reducible apply State.toHost_keeps
    | with_reducible apply Keeps.ite | with_reducible apply Keeps.iteSnd
    | with_reducible refine Keeps.ofEq ?_ (by assumption) | split
    | with_reducible refine Keeps.update ?_ rfl rfl rfl rfl rfl rfl rfl rfl | intro _ | dsimp only)

theorem State.ringForward_keeps {s0 : State} {s : State} (p : Fin 2) (f : EthFrame) (ticks : Nat) (seq : BitVec 16) (h : Keeps s0 s) : Keeps s0 (State.ringForward s p f ticks seq) := by
  unfold State.ringForward
  repeat' (first
    | with_reducible assumption
    | (extract_lets +onlyGivenNames z; refine Keeps.cut (v := z) ?_ ?_ <;> [subst z; (intro _; clear_value z)])
    | extract_lets +onlyGivenNames z | with_reducible apply State.bump_keeps | with_reducible apply State.noteSent_keeps
    | with_reducible apply State.forward_keeps | with_reducible apply Keeps.ite | split | intro _ | dsimp only)

theorem State.learn_keeps {s0 : State} {s : State} (src : BitVec 48) (p : Fin 3) (h : Keeps s0 s) : Keeps s0 (State.learn s src p) := by
  unfold State.learn
  repeat' (first
    | with_reducible assumption
    | (extract_lets +onlyGivenNames z; refine Keeps.cut (v := z) ?_ ?_ <;> [subst z; (intro _; clear_value z)])
    | extract_lets +onlyGivenNames z | with_reducible apply Keeps.ite | with_reducible refine Keeps.ofEq ?_ (by assumption)
    | split | with_reducible refine Keeps.update ?_ rfl rfl rfl rfl rfl rfl rfl rfl | intro _ | dsimp only)

theorem State.bridgeRx_keeps {s0 : State} {s : State} (p : Fin 2) (f : EthFrame) (ts : Rat) (ticks : Nat) (h : Keeps s0 s) : Keeps s0 (State.bridgeRx s p f ts ticks) := by
  unfold State.bridgeRx
  repeat' (first
    | with_reducible assumption
    | (extract_lets +onlyGivenNames z; refine Keeps.cut (v := z) ?_ ?_ <;> [subst z; (intro _; clear_value z)])
    | extract_lets +onlyGivenNames z | with_reducible apply State.learn_keeps | with_reducible apply State.forward_keeps
    | with_reducible apply State.toHost_keeps | with_reducible apply Keeps.ite | split | intro _ | dsimp only)

theorem State.addNode_keeps {s0 : State} {s : State} (src : BitVec 48) (h : Keeps s0 s) : Keeps s0 (State.addNode s src) := by
  unfold State.addNode
  repeat' (first
    | with_reducible assumption
    | (extract_lets +onlyGivenNames z; refine Keeps.cut (v := z) ?_ ?_ <;> [subst z; (intro _; clear_value z)])
    | extract_lets +onlyGivenNames z | with_reducible apply State.wr_keeps | with_reducible apply Keeps.ite | split
    | with_reducible refine Keeps.update ?_ rfl rfl rfl rfl rfl rfl rfl rfl | intro _ | dsimp only)

theorem State.prpRx_keeps {s0 : State} {s : State} (p : Fin 2) (f : EthFrame) (ts : Rat) (h : Keeps s0 s) : Keeps s0 (State.prpRx s p f ts) := by
  unfold State.prpRx
  repeat' (first
    | with_reducible assumption
    | (extract_lets +onlyGivenNames z; refine Keeps.cut (v := z) ?_ ?_ <;> [subst z; (intro _; clear_value z)])
    | extract_lets +onlyGivenNames z | with_reducible apply State.addNode_keeps | with_reducible apply State.wr_keeps
    | with_reducible apply State.bump_keeps | with_reducible apply State.hostOnce_keeps
    | with_reducible apply State.toHost_keeps | with_reducible apply Keeps.ite | split
    | with_reducible refine Keeps.update ?_ rfl rfl rfl rfl rfl rfl rfl rfl | intro _ | dsimp only)

theorem State.ringPass_keeps {s0 : State} {s : State} (p : Fin 2) (f : EthFrame) (ticks : Nat) (h : Keeps s0 s) : Keeps s0 (State.ringPass s p f ticks) := by
  unfold State.ringPass
  repeat' (first
    | with_reducible assumption
    | (extract_lets +onlyGivenNames z; refine Keeps.cut (v := z) ?_ ?_ <;> [subst z; (intro _; clear_value z)])
    | extract_lets +onlyGivenNames z | with_reducible apply State.forward_keeps
    | with_reducible apply State.ringForward_keeps | with_reducible apply Keeps.ite | with_reducible apply Keeps.iteSnd
    | with_reducible refine Keeps.ofEq ?_ (by assumption) | split
    | with_reducible refine Keeps.update ?_ rfl rfl rfl rfl rfl rfl rfl rfl | intro _ | dsimp only)

theorem State.hsrRx_keeps {s0 : State} {s : State} (p : Fin 2) (f : EthFrame) (ts : Rat) (ticks : Nat) (h : Keeps s0 s) : Keeps s0 (State.hsrRx s p f ts ticks) := by
  unfold State.hsrRx
  repeat' (first
    | with_reducible assumption
    | (extract_lets +onlyGivenNames z; refine Keeps.cut (v := z) ?_ ?_ <;> [subst z; (intro _; clear_value z)])
    | extract_lets +onlyGivenNames z | with_reducible apply State.setFlag_keeps
    | with_reducible apply State.addNode_keeps | with_reducible apply State.hostOnce_keeps
    | with_reducible apply State.toHost_keeps | with_reducible apply State.ringPass_keeps
    | with_reducible apply Keeps.ite | with_reducible apply Keeps.iteSnd
    | with_reducible refine Keeps.ofEq ?_ (by assumption) | split
    | with_reducible refine Keeps.update ?_ rfl rfl rfl rfl rfl rfl rfl rfl | intro _ | dsimp only)

theorem State.ethReceive_keeps {s0 : State} {s : State} (p : Fin 2) (f : EthFrame) (frac : Nat) (ticks : Nat) (h : Keeps s0 s) : Keeps s0 (State.ethReceive s p f frac ticks) := by
  unfold State.ethReceive
  repeat' (first
    | with_reducible assumption
    | (extract_lets +onlyGivenNames z; refine Keeps.cut (v := z) ?_ ?_ <;> [subst z; (intro _; clear_value z)])
    | extract_lets +onlyGivenNames z | with_reducible apply State.bump_keeps | with_reducible apply State.ringPass_keeps
    | with_reducible apply State.wrapBump_keeps | with_reducible apply State.netCopy_keeps
    | with_reducible apply State.bridgeRx_keeps | with_reducible apply State.prpRx_keeps
    | with_reducible apply State.hsrRx_keeps | with_reducible apply Keeps.ite | with_reducible apply Keeps.iteSnd
    | with_reducible refine Keeps.ofEq ?_ (by assumption) | split
    | with_reducible refine Keeps.update ?_ rfl rfl rfl rfl rfl rfl rfl rfl | intro _ | dsimp only)

theorem State.txRead_keeps {s0 : State} {s : State} (a : Nat) (len : Nat) (h : Keeps s0 s) : Keeps s0 (State.txRead s a len).2 := by
  unfold State.txRead
  repeat' (first
    | with_reducible assumption
    | (extract_lets +onlyGivenNames z; refine Keeps.cut (v := z) ?_ ?_ <;> [subst z; (intro _; clear_value z)])
    | extract_lets +onlyGivenNames z | with_reducible apply State.sramRead_keeps | with_reducible apply Keeps.foldl
    | with_reducible apply Keeps.foldlSnd | with_reducible apply Keeps.ite
    | with_reducible refine Keeps.ofEq ?_ (by assumption) | split | intro _ | dsimp only)

theorem State.txOne_keeps {s0 : State} {s : State} (frac : Nat) (bytes : List Byte) (stamp : Bool) (e : Fin 2 × RedTag) (h : Keeps s0 s) : Keeps s0 (State.txOne s frac bytes stamp e) := by
  unfold State.txOne
  repeat' (first
    | with_reducible assumption
    | (extract_lets +onlyGivenNames z; refine Keeps.cut (v := z) ?_ ?_ <;> [subst z; (intro _; clear_value z)])
    | extract_lets +onlyGivenNames z | with_reducible apply State.sendFrame_keeps | with_reducible apply Keeps.ite
    | with_reducible apply Keeps.iteSnd | with_reducible refine Keeps.ofEq ?_ (by assumption) | split
    | with_reducible refine Keeps.update ?_ rfl rfl rfl rfl rfl rfl rfl rfl | intro _ | dsimp only)

theorem State.txPut_keeps {s0 : State} {s : State} (frac : Nat) (bytes : List Byte) (plan : List (Fin 2 × RedTag)) (tagged : Bool) (stamp : Bool) (h : Keeps s0 s) : Keeps s0 (State.txPut s frac bytes plan tagged stamp) := by
  unfold State.txPut
  repeat' (first
    | with_reducible assumption
    | (extract_lets +onlyGivenNames z; refine Keeps.cut (v := z) ?_ ?_ <;> [subst z; (intro _; clear_value z)])
    | extract_lets +onlyGivenNames z | with_reducible apply State.learn_keeps | with_reducible apply State.txOne_keeps
    | with_reducible apply Keeps.foldl | with_reducible apply Keeps.foldlSnd | with_reducible apply Keeps.ite | split
    | with_reducible refine Keeps.update ?_ rfl rfl rfl rfl rfl rfl rfl rfl | intro _ | dsimp only)

theorem State.txStart_keeps {s0 : State} {s : State} (h : Keeps s0 s) : Keeps s0 (State.txStart s) := by
  unfold State.txStart
  repeat' (first
    | with_reducible assumption
    | (extract_lets +onlyGivenNames z; refine Keeps.cut (v := z) ?_ ?_ <;> [subst z; (intro _; clear_value z)])
    | extract_lets +onlyGivenNames z | with_reducible apply Keeps.ite | with_reducible apply Keeps.iteSnd
    | with_reducible refine Keeps.ofEq ?_ (by assumption) | split
    | with_reducible refine Keeps.update ?_ rfl rfl rfl rfl rfl rfl rfl rfl | intro _ | dsimp only)

theorem State.txComplete_keeps {s0 : State} {s : State} (q : Fin 4) (lost : BitVec 2) (frac : Nat) (h : Keeps s0 s) : Keeps s0 (State.txComplete s q lost frac) := by
  unfold State.txComplete
  repeat' (first
    | with_reducible assumption
    | (extract_lets +onlyGivenNames z; refine Keeps.cut (v := z) ?_ ?_ <;> [subst z; (intro _; clear_value z)])
    | extract_lets +onlyGivenNames z | with_reducible apply State.dmaWord_keeps
    | with_reducible apply State.txRead_keeps | with_reducible apply State.txPut_keeps
    | with_reducible apply State.dmaWrite_keeps | with_reducible apply State.wr_keeps
    | with_reducible apply State.irq_keeps | with_reducible apply Keeps.ite | with_reducible apply Keeps.iteSnd
    | with_reducible refine Keeps.ofEq ?_ (by assumption) | split
    | with_reducible refine Keeps.update ?_ rfl rfl rfl rfl rfl rfl rfl rfl | intro _ | dsimp only)

theorem State.txSent_keeps {s0 : State} {s : State} (q : Fin 4) (frac : Nat) (h : Keeps s0 s) : Keeps s0 (State.txSent s q frac) := by
  unfold State.txSent
  repeat' (first
    | with_reducible assumption
    | (extract_lets +onlyGivenNames z; refine Keeps.cut (v := z) ?_ ?_ <;> [subst z; (intro _; clear_value z)])
    | extract_lets +onlyGivenNames z | with_reducible apply State.txComplete_keeps
    | with_reducible apply State.txStart_keeps | with_reducible apply Keeps.ite | with_reducible apply Keeps.iteSnd
    | with_reducible refine Keeps.ofEq ?_ (by assumption) | split
    | with_reducible refine Keeps.update ?_ rfl rfl rfl rfl rfl rfl rfl rfl | intro _ | dsimp only)

theorem State.linkShow_keeps {s0 : State} {s : State} (p : Fin 2) (h : Keeps s0 s) : Keeps s0 (State.linkShow s p) := by
  unfold State.linkShow
  repeat' (first
    | with_reducible assumption
    | (extract_lets +onlyGivenNames z; refine Keeps.cut (v := z) ?_ ?_ <;> [subst z; (intro _; clear_value z)])
    | extract_lets +onlyGivenNames z | with_reducible apply State.setFlag_keeps | with_reducible apply State.irq_keeps
    | with_reducible apply State.pdelayAbandon_keeps | with_reducible apply Keeps.ite
    | with_reducible apply Keeps.iteSnd | with_reducible refine Keeps.ofEq ?_ (by assumption) | split
    | with_reducible refine Keeps.update ?_ rfl rfl rfl rfl rfl rfl rfl rfl | intro _ | dsimp only)

theorem State.ethLink_keeps {s0 : State} {s : State} (p : Fin 2) (x : LinkSense) (h : Keeps s0 s) : Keeps s0 (State.ethLink s p x) := by
  unfold State.ethLink
  repeat' (first
    | with_reducible assumption
    | (extract_lets +onlyGivenNames z; refine Keeps.cut (v := z) ?_ ?_ <;> [subst z; (intro _; clear_value z)])
    | extract_lets +onlyGivenNames z | with_reducible apply State.linkShow_keeps | with_reducible apply Keeps.ite
    | with_reducible apply Keeps.iteSnd | with_reducible refine Keeps.ofEq ?_ (by assumption) | split
    | with_reducible refine Keeps.update ?_ rfl rfl rfl rfl rfl rfl rfl rfl | intro _ | dsimp only)

theorem State.ethCheck_keeps {s0 : State} {s : State} (h : Keeps s0 s) : Keeps s0 (State.ethCheck s) := by
  unfold State.ethCheck
  repeat' (first
    | with_reducible assumption
    | (extract_lets +onlyGivenNames z; refine Keeps.cut (v := z) ?_ ?_ <;> [subst z; (intro _; clear_value z)])
    | extract_lets +onlyGivenNames z | with_reducible apply State.ethLink_keeps
    | with_reducible apply State.txStart_keeps | with_reducible apply Keeps.foldlSnd | with_reducible apply Keeps.foldl
    | with_reducible apply Keeps.ite | with_reducible apply Keeps.iteSnd
    | with_reducible refine Keeps.ofEq ?_ (by assumption) | split
    | with_reducible refine Keeps.update ?_ rfl rfl rfl rfl rfl rfl rfl rfl | intro _ | dsimp only)

theorem State.supervisionSend_keeps {s0 : State} {s : State} (h : Keeps s0 s) : Keeps s0 (State.supervisionSend s) := by
  unfold State.supervisionSend
  repeat' (first
    | with_reducible assumption | with_reducible apply State.trySend_keeps | with_reducible apply Keeps.foldl
    | with_reducible apply Keeps.foldlSnd | with_reducible apply Keeps.ite | split | with_reducible apply Keeps.putPantry
    | intro _ | dsimp only)

theorem State.redFall_keeps {s0 : State} {s : State} (f : Fld) (h : Keeps s0 s) : Keeps s0 (State.redFall s f) := by
  unfold State.redFall
  repeat' (first
    | with_reducible assumption | with_reducible apply State.wr_keeps | with_reducible apply State.irq_keeps
    | with_reducible apply Keeps.ite | split | intro _)

theorem State.supervisionTimeout_keeps {s0 : State} {s : State} (p : Fin 2) (h : Keeps s0 s) : Keeps s0 (State.supervisionTimeout s p) := by
  unfold State.supervisionTimeout
  repeat' (first
    | with_reducible assumption | with_reducible apply State.redFall_keeps | with_reducible apply Keeps.ite | split
    | with_reducible refine Keeps.update ?_ rfl rfl rfl rfl rfl rfl rfl rfl | intro _)

theorem State.nodeAge_keeps {s0 : State} {s : State} (mac : BitVec 48) (h : Keeps s0 s) : Keeps s0 (State.nodeAge s mac) := by
  unfold State.nodeAge
  repeat' (first
    | with_reducible assumption
    | (extract_lets +onlyGivenNames z; refine Keeps.cut (v := z) ?_ ?_ <;> [subst z; (intro _; clear_value z)])
    | extract_lets +onlyGivenNames z | with_reducible apply State.wr_keeps
    | with_reducible refine Keeps.update ?_ rfl rfl rfl rfl rfl rfl rfl rfl | intro _ | dsimp only)

theorem State.addressAge_keeps {s0 : State} {s : State} (mac : BitVec 48) (h : Keeps s0 s) : Keeps s0 (State.addressAge s mac) := by
  unfold State.addressAge
  repeat' (first
    | with_reducible assumption | with_reducible refine Keeps.update ?_ rfl rfl rfl rfl rfl rfl rfl rfl | intro _ | dsimp only)

theorem State.mdioStart_keeps {s0 : State} {s : State} (v : Nat) (h : Keeps s0 s) : Keeps s0 (State.mdioStart s v) := by
  unfold State.mdioStart
  repeat' (first
    | with_reducible assumption
    | (extract_lets +onlyGivenNames z; refine Keeps.cut (v := z) ?_ ?_ <;> [subst z; (intro _; clear_value z)])
    | extract_lets +onlyGivenNames z | with_reducible apply State.wr_keeps | with_reducible apply Keeps.ite
    | with_reducible apply Keeps.iteSnd | with_reducible refine Keeps.ofEq ?_ (by assumption) | split
    | with_reducible refine Keeps.update ?_ rfl rfl rfl rfl rfl rfl rfl rfl | intro _ | dsimp only)

theorem State.mdioDone_keeps {s0 : State} {s : State} (data : Nat) (h : Keeps s0 s) : Keeps s0 (State.mdioDone s data) := by
  unfold State.mdioDone
  repeat' (first
    | with_reducible assumption
    | (extract_lets +onlyGivenNames z; refine Keeps.cut (v := z) ?_ ?_ <;> [subst z; (intro _; clear_value z)])
    | extract_lets +onlyGivenNames z | with_reducible apply State.wr_keeps | with_reducible apply Keeps.ite
    | with_reducible apply Keeps.iteSnd | with_reducible refine Keeps.ofEq ?_ (by assumption) | split
    | with_reducible refine Keeps.update ?_ rfl rfl rfl rfl rfl rfl rfl rfl | intro _ | dsimp only)

end Sys2Proof.Machine
end

