-- ==== Sys2Proof/Laws/KeepsClock.lean ====
section
/-!
SUPPORT. Laws/KeepsClock.lean: every operation of Machine/Clock.lean keeps what `Keeps` says.
-/
namespace Sys2Proof.Machine

set_option linter.unusedTactic false
set_option linter.unreachableTactic false
set_option linter.unusedVariables false
set_option linter.tactic.unusedName false

theorem State.ifLive_keeps {s0 s : State} {f : State → State} (h : Keeps s0 s) (hf : ∀ s, Keeps s0 s → Keeps s0 (f s)) :
    Keeps s0 (s.ifLive f) :=
  Keeps.ite (fun _ => hf s h) fun _ => h

theorem State.ifDie_keeps {s0 s : State} {f : State → State} (h : Keeps s0 s) (hf : ∀ s, Keeps s0 s → Keeps s0 (f s)) :
    Keeps s0 (s.ifDie f) :=
  Keeps.ite (fun _ => h) fun _ => hf s h

theorem State.storeBand_keeps {s0 : State} {s : State} (p : Nat) (band : Byte) (h : Keeps s0 s) : Keeps s0 (State.storeBand s p band) := by
  unfold State.storeBand
  repeat' (first
    | with_reducible assumption | with_reducible apply State.wr_keeps | with_reducible apply State.putBit_keeps)

theorem State.substitute_keeps {s0 : State} {s : State} (h : Keeps s0 s) : Keeps s0 (State.substitute s) := by
  unfold State.substitute
  repeat' (first
    | with_reducible assumption
    | (extract_lets +onlyGivenNames z; refine Keeps.cut (v := z) ?_ ?_ <;> [subst z; (intro _; clear_value z)])
    | extract_lets +onlyGivenNames z | with_reducible apply State.wr_keeps | with_reducible apply Keeps.ite | split
    | with_reducible refine Keeps.update ?_ rfl rfl rfl rfl rfl rfl rfl rfl | intro _ | dsimp only)

theorem State.relock_keeps {s0 : State} {s : State} (search : Bool) (h : Keeps s0 s) : Keeps s0 (State.relock s search) := by
  unfold State.relock
  repeat' (first
    | with_reducible assumption
    | (extract_lets +onlyGivenNames z; refine Keeps.cut (v := z) ?_ ?_ <;> [subst z; (intro _; clear_value z)])
    | extract_lets +onlyGivenNames z | with_reducible apply State.substitute_keeps | with_reducible apply State.wr_keeps
    | split | with_reducible refine Keeps.update ?_ rfl rfl rfl rfl rfl rfl rfl rfl | dsimp only)

theorem State.relockFound_keeps {s0 : State} {s : State} (search : Bool) (h : Keeps s0 s) : Keeps s0 (State.relockFound s search) := by
  unfold State.relockFound
  repeat' (first
    | with_reducible assumption
    | (extract_lets +onlyGivenNames z; refine Keeps.cut (v := z) ?_ ?_ <;> [subst z; (intro _; clear_value z)])
    | extract_lets +onlyGivenNames z | with_reducible apply State.relock_keeps
    | with_reducible apply State.setFlag_keeps | with_reducible apply Keeps.ite | with_reducible apply Keeps.iteSnd
    | with_reducible refine Keeps.ofEq ?_ (by assumption) | split
    | with_reducible refine Keeps.update ?_ rfl rfl rfl rfl rfl rfl rfl rfl | intro _ | dsimp only)

theorem State.rootLost_keeps {s0 : State} {s : State} (h : Keeps s0 s) : Keeps s0 (State.rootLost s) := by
  unfold State.rootLost
  repeat' (first
    | with_reducible assumption
    | (extract_lets +onlyGivenNames z; refine Keeps.cut (v := z) ?_ ?_ <;> [subst z; (intro _; clear_value z)])
    | extract_lets +onlyGivenNames z | with_reducible apply State.wr_keeps | with_reducible apply State.bump_keeps
    | with_reducible apply State.irq_keeps | with_reducible apply State.setPwmUnit_keeps
    | with_reducible apply State.stopDrive_keeps | with_reducible apply State.setSource_keeps
    | with_reducible apply Keeps.foldlSnd | with_reducible apply Keeps.foldl | with_reducible apply Keeps.ite
    | with_reducible apply Keeps.iteSnd | with_reducible refine Keeps.ofEq ?_ (by assumption) | split
    | with_reducible refine Keeps.update ?_ rfl rfl rfl rfl rfl rfl rfl rfl | intro _ | dsimp only)

theorem State.rootClockLoss_keeps {s0 : State} {s : State} (h : Keeps s0 s) : Keeps s0 (State.rootClockLoss s) := by
  unfold State.rootClockLoss
  repeat' (first
    | with_reducible assumption
    | (extract_lets +onlyGivenNames z; refine Keeps.cut (v := z) ?_ ?_ <;> [subst z; (intro _; clear_value z)])
    | extract_lets +onlyGivenNames z | with_reducible apply State.rootLost_keeps | with_reducible apply Keeps.ite
    | with_reducible apply Keeps.iteSnd | with_reducible refine Keeps.ofEq ?_ (by assumption) | split
    | with_reducible refine Keeps.update ?_ rfl rfl rfl rfl rfl rfl rfl rfl | intro _ | dsimp only)

theorem State.rootSafeLevel_keeps {s0 : State} {s : State} (h : Keeps s0 s) : Keeps s0 (State.rootSafeLevel s) := by
  unfold State.rootSafeLevel
  repeat' (first
    | with_reducible assumption | with_reducible apply State.setPwmUnit_keeps | with_reducible apply Keeps.foldl
    | with_reducible apply Keeps.foldlSnd | with_reducible refine Keeps.update ?_ rfl rfl rfl rfl rfl rfl rfl rfl | intro _
    | dsimp only)

theorem State.rootFound_keeps {s0 : State} {s : State} (h : Keeps s0 s) : Keeps s0 (State.rootFound s) := by
  unfold State.rootFound
  repeat' (first
    | with_reducible assumption | with_reducible apply State.wr_keeps | with_reducible apply State.setSource_keeps
    | with_reducible refine Keeps.update ?_ rfl rfl rfl rfl rfl rfl rfl rfl)

theorem State.rootClockReturn_keeps {s0 : State} {s : State} (h : Keeps s0 s) : Keeps s0 (State.rootClockReturn s) := by
  unfold State.rootClockReturn
  repeat' (first
    | with_reducible assumption
    | (extract_lets +onlyGivenNames z; refine Keeps.cut (v := z) ?_ ?_ <;> [subst z; (intro _; clear_value z)])
    | extract_lets +onlyGivenNames z | with_reducible apply State.rootFound_keeps | with_reducible apply State.wr_keeps
    | with_reducible apply State.relockFound_keeps | with_reducible apply Keeps.ite | with_reducible apply Keeps.iteSnd
    | with_reducible refine Keeps.ofEq ?_ (by assumption) | split
    | with_reducible refine Keeps.update ?_ rfl rfl rfl rfl rfl rfl rfl rfl | intro _ | dsimp only)

theorem State.lockLost_keeps {s0 : State} {s : State} (sys : Bool) (counts : List Nat) (h : Keeps s0 s) : Keeps s0 (State.lockLost s sys counts) := by
  unfold State.lockLost
  repeat' (first
    | with_reducible assumption
    | (extract_lets +onlyGivenNames z; refine Keeps.cut (v := z) ?_ ?_ <;> [subst z; (intro _; clear_value z)])
    | extract_lets +onlyGivenNames z | with_reducible apply State.relock_keeps | with_reducible apply State.bump_keeps
    | with_reducible apply State.irq_keeps | with_reducible apply State.rootLost_keeps
    | with_reducible apply State.wr_keeps | with_reducible apply Keeps.ite | with_reducible apply Keeps.iteSnd
    | with_reducible refine Keeps.ofEq ?_ (by assumption) | split
    | with_reducible refine Keeps.update ?_ rfl rfl rfl rfl rfl rfl rfl rfl | intro _ | dsimp only)

theorem State.sysLocked_keeps {s0 : State} {s : State} (band : Byte) (h : Keeps s0 s) : Keeps s0 (State.sysLocked s band) := by
  unfold State.sysLocked
  repeat' (first
    | with_reducible assumption
    | (extract_lets +onlyGivenNames z; refine Keeps.cut (v := z) ?_ ?_ <;> [subst z; (intro _; clear_value z)])
    | extract_lets +onlyGivenNames z | with_reducible apply State.storeBand_keeps | with_reducible apply State.wr_keeps
    | with_reducible apply State.irq_keeps | with_reducible apply State.wrapBump_keeps | with_reducible apply Keeps.ite
    | with_reducible apply Keeps.iteSnd | with_reducible refine Keeps.ofEq ?_ (by assumption) | split
    | with_reducible refine Keeps.update ?_ rfl rfl rfl rfl rfl rfl rfl rfl | intro _ | dsimp only)

theorem State.lockDeclared_keeps {s0 : State} {s : State} (sys : Bool) (band : Byte) (counts : List Nat) (h : Keeps s0 s) : Keeps s0 (State.lockDeclared s sys band counts) := by
  unfold State.lockDeclared
  repeat' (first
    | with_reducible assumption
    | (extract_lets +onlyGivenNames z; refine Keeps.cut (v := z) ?_ ?_ <;> [subst z; (intro _; clear_value z)])
    | extract_lets +onlyGivenNames z | with_reducible apply State.sysLocked_keeps | with_reducible apply State.wr_keeps
    | with_reducible apply State.rootFound_keeps | with_reducible apply State.relockFound_keeps
    | with_reducible apply Keeps.ite | with_reducible apply Keeps.iteSnd
    | with_reducible refine Keeps.ofEq ?_ (by assumption) | split
    | with_reducible refine Keeps.update ?_ rfl rfl rfl rfl rfl rfl rfl rfl | intro _ | dsimp only)

theorem State.bandMiss_keeps {s0 : State} {s : State} (h : Keeps s0 s) : Keeps s0 (State.bandMiss s) := by
  unfold State.bandMiss
  repeat' (first
    | with_reducible assumption | with_reducible apply State.bump_keeps | with_reducible apply Keeps.ite | split
    | with_reducible refine Keeps.update ?_ rfl rfl rfl rfl rfl rfl rfl rfl | intro _)

theorem State.spreadStart_keeps {s0 : State} {s : State} (h : Keeps s0 s) : Keeps s0 (State.spreadStart s) := by
  unfold State.spreadStart
  repeat' (first
    | with_reducible assumption
    | (extract_lets +onlyGivenNames z; refine Keeps.cut (v := z) ?_ ?_ <;> [subst z; (intro _; clear_value z)])
    | extract_lets +onlyGivenNames z | with_reducible apply State.setFlag_keeps | with_reducible apply Keeps.ite | split
    | with_reducible refine Keeps.update ?_ rfl rfl rfl rfl rfl rfl rfl rfl | intro _ | dsimp only)

theorem State.clockCommit_keeps {s0 : State} {s : State} (old : Nat) (h : Keeps s0 s) : Keeps s0 (State.clockCommit s old) := by
  unfold State.clockCommit
  repeat' (first
    | with_reducible assumption | with_reducible apply State.substitute_keeps | with_reducible apply State.relock_keeps
    | with_reducible apply State.wr_keeps | with_reducible apply Keeps.ite | split | intro _)

theorem State.sysDown_keeps {s0 : State} {s : State} (h : Keeps s0 s) : Keeps s0 (State.sysDown s) := by
  unfold State.sysDown
  repeat' (first
    | with_reducible assumption
    | (extract_lets +onlyGivenNames z; refine Keeps.cut (v := z) ?_ ?_ <;> [subst z; (intro _; clear_value z)])
    | extract_lets +onlyGivenNames z | with_reducible apply State.substitute_keeps | with_reducible apply State.wr_keeps
    | with_reducible apply Keeps.ite | with_reducible apply Keeps.iteSnd
    | with_reducible refine Keeps.ofEq ?_ (by assumption) | split
    | with_reducible refine Keeps.update ?_ rfl rfl rfl rfl rfl rfl rfl rfl | intro _ | dsimp only)

theorem State.sysUp_keeps {s0 : State} {s : State} (h : Keeps s0 s) : Keeps s0 (State.sysUp s) := by
  unfold State.sysUp
  repeat' (first
    | with_reducible assumption
    | (extract_lets +onlyGivenNames z; refine Keeps.cut (v := z) ?_ ?_ <;> [subst z; (intro _; clear_value z)])
    | extract_lets +onlyGivenNames z | with_reducible apply State.relock_keeps | with_reducible apply Keeps.ite | split
    | with_reducible refine Keeps.update ?_ rfl rfl rfl rfl rfl rfl rfl rfl | intro _ | dsimp only)

theorem State.crossing_keeps {s0 s : State} (x : Crossing) (h : Keeps s0 s) : Keeps s0 (s.crossing x) := by
  cases x
  · exact h
  · exact State.irq_keeps _ _ (State.bump_keeps _ _ _ h)
  · exact State.irq_keeps _ _ (State.bump_keeps _ _ _ h)

end Sys2Proof.Machine
end

