-- ==== Sys2Proof/Laws/KeepsModes.lean ====
section
/-!
SUPPORT. Laws/KeepsModes.lean: every operation of Machine/Modes.lean keeps what `Keeps` says.
-/
namespace Sys2Proof.Machine

set_option linter.unusedTactic false
set_option linter.unreachableTactic false
set_option linter.unusedVariables false
set_option linter.tactic.unusedName false

theorem State.forAll_keeps {s0 s : State} {k : Nat} {f : State → Fin k → State} (h : Keeps s0 s)
    (hf : ∀ s n, Keeps s0 s → Keeps s0 (f s n)) : Keeps s0 (s.forAll k f) :=
  Keeps.foldl _ _ h hf

theorem State.idleBoundaries_keeps {s0 : State} {s : State} (h : Keeps s0 s) : Keeps s0 (State.idleBoundaries s) := by
  unfold State.idleBoundaries
  repeat' (first
    | with_reducible assumption
    | (extract_lets +onlyGivenNames z; refine Keeps.cut (v := z) ?_ ?_ <;> [subst z; (intro _; clear_value z)])
    | extract_lets +onlyGivenNames z | with_reducible apply State.forAll_keeps
    | with_reducible apply State.pwmIdleCommit_keeps | with_reducible apply State.boundary_keeps
    | with_reducible apply State.leDuty_keeps | with_reducible apply Keeps.ite | with_reducible apply Keeps.iteSnd
    | with_reducible refine Keeps.ofEq ?_ (by assumption) | split
    | with_reducible refine Keeps.update ?_ rfl rfl rfl rfl rfl rfl rfl rfl | intro _ | dsimp only)

theorem State.clearSafe_keeps {s0 : State} {s : State} (h : Keeps s0 s) : Keeps s0 (State.clearSafe s) := by
  unfold State.clearSafe
  repeat' (first
    | with_reducible assumption
    | (extract_lets +onlyGivenNames z; refine Keeps.cut (v := z) ?_ ?_ <;> [subst z; (intro _; clear_value z)])
    | extract_lets +onlyGivenNames z | with_reducible apply State.forAll_keeps | with_reducible apply State.wr_keeps
    | with_reducible apply Keeps.ite | split | intro _ | dsimp only)

theorem State.endRamp_keeps {s0 : State} {s : State} (h : Keeps s0 s) : Keeps s0 (State.endRamp s) := by
  unfold State.endRamp
  repeat' (first
    | with_reducible assumption
    | (extract_lets +onlyGivenNames z; refine Keeps.cut (v := z) ?_ ?_ <;> [subst z; (intro _; clear_value z)])
    | extract_lets +onlyGivenNames z | with_reducible apply State.forAll_keeps
    | with_reducible apply State.setPort_keeps | with_reducible apply Keeps.ite | with_reducible apply Keeps.iteSnd
    | with_reducible refine Keeps.ofEq ?_ (by assumption) | split
    | with_reducible refine Keeps.update ?_ rfl rfl rfl rfl rfl rfl rfl rfl | intro _ | dsimp only)

theorem State.enterMode_keeps {s0 : State} {s : State} (m : Nat) (prev : Nat) (cause : Nat) (h : Keeps s0 s) : Keeps s0 (State.enterMode s m prev cause) := by
  unfold State.enterMode
  repeat' (first
    | with_reducible assumption
    | (extract_lets +onlyGivenNames z; refine Keeps.cut (v := z) ?_ ?_ <;> [subst z; (intro _; clear_value z)])
    | extract_lets +onlyGivenNames z | with_reducible apply State.wr_keeps | with_reducible apply State.endRamp_keeps
    | with_reducible apply State.clearSafe_keeps | with_reducible apply State.fuseStatus_keeps
    | with_reducible apply State.leModes_keeps | with_reducible apply State.formModes_keeps
    | with_reducible apply State.measureMode_keeps | with_reducible apply State.cbcHolds_keeps
    | with_reducible apply State.carriers_keeps | with_reducible apply State.idleBoundaries_keeps
    | with_reducible apply State.recheckDrive_keeps | with_reducible apply State.portModes_keeps
    | with_reducible apply State.pilotModes_keeps | with_reducible apply State.gdrvModes_keeps
    | with_reducible apply State.wdShow_keeps | with_reducible apply State.metroSafeStop_keeps
    | with_reducible apply State.atticStop_keeps | with_reducible apply State.settle_keeps
    | with_reducible apply Keeps.ite | with_reducible apply Keeps.iteSnd
    | with_reducible refine Keeps.ofEq ?_ (by assumption) | split
    | with_reducible refine Keeps.update ?_ rfl rfl rfl rfl rfl rfl rfl rfl | intro _ | dsimp only)

theorem State.requestRefused_keeps {s0 : State} {s : State} (id : Nat) (h : Keeps s0 s) : Keeps s0 (State.requestRefused s id) := by
  unfold State.requestRefused
  repeat' (first
    | with_reducible assumption
    | (extract_lets +onlyGivenNames z; refine Keeps.cut (v := z) ?_ ?_ <;> [subst z; (intro _; clear_value z)])
    | extract_lets +onlyGivenNames z | with_reducible apply State.wr_keeps | dsimp only)

theorem State.modeRequest_keeps {s0 : State} {s : State} (ini : Initiator) (target : Nat) (h : Keeps s0 s) : Keeps s0 (State.modeRequest s ini target) := by
  unfold State.modeRequest
  repeat' (first
    | with_reducible assumption
    | (extract_lets +onlyGivenNames z; refine Keeps.cut (v := z) ?_ ?_ <;> [subst z; (intro _; clear_value z)])
    | extract_lets +onlyGivenNames z | with_reducible apply State.requestRefused_keeps
    | with_reducible apply State.wr_keeps | with_reducible apply Keeps.ite | with_reducible apply Keeps.iteSnd
    | with_reducible refine Keeps.ofEq ?_ (by assumption) | split
    | with_reducible refine Keeps.update ?_ rfl rfl rfl rfl rfl rfl rfl rfl | intro _ | dsimp only)

theorem State.abandon_keeps {s0 : State} {s : State} (h : Keeps s0 s) : Keeps s0 (State.abandon s) := by
  unfold State.abandon
  repeat' (first
    | with_reducible assumption
    | (extract_lets +onlyGivenNames z; refine Keeps.cut (v := z) ?_ ?_ <;> [subst z; (intro _; clear_value z)])
    | extract_lets +onlyGivenNames z | with_reducible apply State.requestRefused_keeps
    | with_reducible apply State.endRamp_keeps | with_reducible apply Keeps.ite | with_reducible apply Keeps.iteSnd
    | with_reducible refine Keeps.ofEq ?_ (by assumption) | split
    | with_reducible refine Keeps.update ?_ rfl rfl rfl rfl rfl rfl rfl rfl | intro _ | dsimp only)

theorem State.portsToReady_keeps {s0 : State} {s : State} (h : Keeps s0 s) : Keeps s0 (State.portsToReady s) := by
  unfold State.portsToReady
  repeat' (first
    | with_reducible assumption
    | (extract_lets +onlyGivenNames z; refine Keeps.cut (v := z) ?_ ?_ <;> [subst z; (intro _; clear_value z)])
    | extract_lets +onlyGivenNames z | with_reducible apply State.forAll_keeps
    | with_reducible apply State.setPort_keeps | with_reducible apply State.wr_keeps | with_reducible apply Keeps.ite
    | with_reducible apply Keeps.iteSnd | with_reducible refine Keeps.ofEq ?_ (by assumption) | split
    | with_reducible refine Keeps.update ?_ rfl rfl rfl rfl rfl rfl rfl rfl | intro _ | dsimp only)

theorem State.toReady_keeps {s0 : State} {s : State} (cause : Nat) (id : Option Nat) (h : Keeps s0 s) : Keeps s0 (State.toReady s cause id) := by
  unfold State.toReady
  repeat' (first
    | with_reducible assumption
    | (extract_lets +onlyGivenNames z; refine Keeps.cut (v := z) ?_ ?_ <;> [subst z; (intro _; clear_value z)])
    | extract_lets +onlyGivenNames z | with_reducible apply State.enterMode_keeps
    | with_reducible apply State.portsToReady_keeps | with_reducible apply State.wr_keeps
    | with_reducible apply Keeps.ite | with_reducible apply Keeps.iteSnd
    | with_reducible refine Keeps.ofEq ?_ (by assumption) | split
    | with_reducible refine Keeps.update ?_ rfl rfl rfl rfl rfl rfl rfl rfl | intro _ | dsimp only)

theorem State.judge_keeps {s0 : State} {s : State} (h : Keeps s0 s) : Keeps s0 (State.judge s) := by
  unfold State.judge
  repeat' (first
    | with_reducible assumption
    | (extract_lets +onlyGivenNames z; refine Keeps.cut (v := z) ?_ ?_ <;> [subst z; (intro _; clear_value z)])
    | extract_lets +onlyGivenNames z | with_reducible apply State.wr_keeps | with_reducible apply State.toReady_keeps
    | with_reducible apply State.enterMode_keeps | with_reducible apply State.requestRefused_keeps
    | with_reducible apply Keeps.ite | split | with_reducible refine Keeps.update ?_ rfl rfl rfl rfl rfl rfl rfl rfl | intro _
    | dsimp only)

theorem State.latchBreaker_keeps {s0 : State} {s : State} (h : Keeps s0 s) : Keeps s0 (State.latchBreaker s) := by
  unfold State.latchBreaker
  repeat' (first
    | with_reducible assumption | with_reducible apply State.forAll_keeps | with_reducible apply State.setForm_keeps
    | with_reducible apply Keeps.ite | split | with_reducible refine Keeps.update ?_ rfl rfl rfl rfl rfl rfl rfl rfl | intro _
    | dsimp only)

theorem State.dropCauses_keeps {s0 : State} {s : State} (h : Keeps s0 s) : Keeps s0 (State.dropCauses s) := by
  unfold State.dropCauses
  repeat' (first
    | with_reducible assumption | with_reducible refine Keeps.update ?_ rfl rfl rfl rfl rfl rfl rfl rfl | intro _ | dsimp only)

theorem State.enterSafe_keeps {s0 : State} {s : State} (cs : List Nat) (h : Keeps s0 s) : Keeps s0 (State.enterSafe s cs) := by
  unfold State.enterSafe
  repeat' (first
    | with_reducible assumption
    | (extract_lets +onlyGivenNames z; refine Keeps.cut (v := z) ?_ ?_ <;> [subst z; (intro _; clear_value z)])
    | extract_lets +onlyGivenNames z | with_reducible apply State.abandon_keeps | with_reducible apply State.dropCauses_keeps
    | with_reducible apply State.wr_keeps | with_reducible apply State.enterMode_keeps | dsimp only)

theorem State.powerStop_keeps {s0 : State} {s : State} (h : Keeps s0 s) : Keeps s0 (State.powerStop s) := by
  unfold State.powerStop
  repeat' (first
    | with_reducible assumption
    | (extract_lets +onlyGivenNames z; refine Keeps.cut (v := z) ?_ ?_ <;> [subst z; (intro _; clear_value z)])
    | extract_lets +onlyGivenNames z | with_reducible apply State.forAll_keeps | with_reducible apply State.leMode_keeps
    | with_reducible apply State.leSources_keeps | with_reducible apply State.idleBoundaries_keeps
    | with_reducible apply State.legsCheck_keeps | with_reducible apply State.axisIdle_keeps | with_reducible apply Keeps.ite
    | split | with_reducible refine Keeps.update ?_ rfl rfl rfl rfl rfl rfl rfl rfl | intro _ | dsimp only)

theorem State.followRamp_keeps {s0 : State} {s : State} (l : LeadMode) (had : Bool) (h : Keeps s0 s) : Keeps s0 (State.followRamp s l had) := by
  unfold State.followRamp
  repeat' (first
    | with_reducible assumption
    | (extract_lets +onlyGivenNames z; refine Keeps.cut (v := z) ?_ ?_ <;> [subst z; (intro _; clear_value z)])
    | extract_lets +onlyGivenNames z | with_reducible apply State.wr_keeps
    | with_reducible apply State.portsToReady_keeps | with_reducible apply State.endRamp_keeps
    | with_reducible apply Keeps.ite | with_reducible apply Keeps.iteSnd
    | with_reducible refine Keeps.ofEq ?_ (by assumption) | split
    | with_reducible refine Keeps.update ?_ rfl rfl rfl rfl rfl rfl rfl rfl | intro _ | dsimp only)

theorem State.fulfil_keeps {s0 : State} {s : State} (l : LeadMode) (h : Keeps s0 s) : Keeps s0 (State.fulfil s l) := by
  unfold State.fulfil
  repeat' (first
    | with_reducible assumption
    | (extract_lets +onlyGivenNames z; refine Keeps.cut (v := z) ?_ ?_ <;> [subst z; (intro _; clear_value z)])
    | extract_lets +onlyGivenNames z | with_reducible apply State.wr_keeps | with_reducible apply State.abandon_keeps
    | with_reducible apply Keeps.ite | with_reducible apply Keeps.iteSnd
    | with_reducible refine Keeps.ofEq ?_ (by assumption) | split
    | with_reducible refine Keeps.update ?_ rfl rfl rfl rfl rfl rfl rfl rfl | intro _ | dsimp only)

theorem State.modeTick_keeps {s0 : State} {s : State} (lead : Option LeadMode) (h : Keeps s0 s) : Keeps s0 (State.modeTick s lead) := by
  unfold State.modeTick
  repeat' (first
    | with_reducible assumption
    | (extract_lets +onlyGivenNames z; refine Keeps.cut (v := z) ?_ ?_ <;> [subst z; (intro _; clear_value z)])
    | extract_lets +onlyGivenNames z | with_reducible apply State.latchBreaker_keeps
    | with_reducible apply State.enterSafe_keeps | with_reducible apply State.bump_keeps
    | with_reducible apply State.dropCauses_keeps | with_reducible apply State.fulfil_keeps
    | with_reducible apply State.enterMode_keeps | with_reducible apply State.judge_keeps
    | with_reducible apply State.abandon_keeps | with_reducible apply State.wr_keeps
    | with_reducible apply State.followRamp_keeps | with_reducible apply State.powerStop_keeps
    | with_reducible apply Keeps.foldlSnd | with_reducible apply Keeps.foldl | with_reducible apply Keeps.ite
    | with_reducible apply Keeps.iteSnd | with_reducible refine Keeps.ofEq ?_ (by assumption) | split
    | with_reducible refine Keeps.update ?_ rfl rfl rfl rfl rfl rfl rfl rfl | intro _ | dsimp only)

theorem State.syncExpiry_keeps {s0 : State} {s : State} (n : Fin 2) (h : Keeps s0 s) : Keeps s0 (State.syncExpiry s n) := by
  unfold State.syncExpiry
  repeat' (first
    | with_reducible assumption
    | (extract_lets +onlyGivenNames z; refine Keeps.cut (v := z) ?_ ?_ <;> [subst z; (intro _; clear_value z)])
    | extract_lets +onlyGivenNames z | with_reducible apply State.abandon_keeps
    | with_reducible apply State.toReady_keeps | with_reducible apply Keeps.ite | with_reducible apply Keeps.iteSnd
    | with_reducible refine Keeps.ofEq ?_ (by assumption) | split
    | with_reducible refine Keeps.update ?_ rfl rfl rfl rfl rfl rfl rfl rfl | intro _ | dsimp only)

theorem State.readyAfterPorts_keeps {s0 : State} {s : State} (h : Keeps s0 s) : Keeps s0 (State.readyAfterPorts s) := by
  unfold State.readyAfterPorts
  repeat' (first
    | with_reducible assumption
    | (extract_lets +onlyGivenNames z; refine Keeps.cut (v := z) ?_ ?_ <;> [subst z; (intro _; clear_value z)])
    | extract_lets +onlyGivenNames z | with_reducible apply State.enterMode_keeps | with_reducible apply Keeps.ite
    | with_reducible apply Keeps.iteSnd | with_reducible refine Keeps.ofEq ?_ (by assumption) | split
    | with_reducible refine Keeps.update ?_ rfl rfl rfl rfl rfl rfl rfl rfl | intro _ | dsimp only)

theorem State.dieLinkLoss_keeps {s0 : State} {s : State} (h : Keeps s0 s) : Keeps s0 (State.dieLinkLoss s) := by
  unfold State.dieLinkLoss
  repeat' (first
    | with_reducible assumption
    | (extract_lets +onlyGivenNames z; refine Keeps.cut (v := z) ?_ ?_ <;> [subst z; (intro _; clear_value z)])
    | extract_lets +onlyGivenNames z | with_reducible apply State.wr_keeps | with_reducible apply State.setSource_keeps
    | with_reducible apply State.gdrvLinkLoss_keeps | with_reducible apply State.safeLinkLoss_keeps
    | with_reducible apply State.safeStop_keeps | with_reducible apply Keeps.ite | with_reducible apply Keeps.iteSnd
    | with_reducible refine Keeps.ofEq ?_ (by assumption) | split
    | with_reducible refine Keeps.update ?_ rfl rfl rfl rfl rfl rfl rfl rfl | intro _ | dsimp only)

theorem State.dieLinkRestore_keeps {s0 : State} {s : State} (h : Keeps s0 s) : Keeps s0 (State.dieLinkRestore s) := by
  unfold State.dieLinkRestore
  repeat' (first
    | with_reducible assumption
    | (extract_lets +onlyGivenNames z; refine Keeps.cut (v := z) ?_ ?_ <;> [subst z; (intro _; clear_value z)])
    | extract_lets +onlyGivenNames z | with_reducible apply State.wr_keeps | with_reducible apply State.setSource_keeps
    | with_reducible apply State.boundary_keeps | with_reducible apply State.chimneyCommit_keeps
    | with_reducible apply State.legsCheck_keeps | with_reducible apply Keeps.ite | split | intro _ | dsimp only)

theorem State.dropHaltCause_keeps {s0 : State} {s : State} (h : Keeps s0 s) : Keeps s0 (State.dropHaltCause s) := by
  unfold State.dropHaltCause
  repeat' (first
    | with_reducible assumption
    | (extract_lets +onlyGivenNames z; refine Keeps.cut (v := z) ?_ ?_ <;> [subst z; (intro _; clear_value z)])
    | extract_lets +onlyGivenNames z | with_reducible apply Keeps.ite | with_reducible apply Keeps.iteSnd
    | with_reducible refine Keeps.ofEq ?_ (by assumption) | split
    | with_reducible refine Keeps.update ?_ rfl rfl rfl rfl rfl rfl rfl rfl | intro _ | dsimp only)

theorem State.lockstep_keeps {s0 : State} {s : State} (p : Pair) (h : Keeps s0 s) : Keeps s0 (State.lockstep s p) := by
  unfold State.lockstep
  repeat' (first
    | with_reducible assumption
    | (extract_lets +onlyGivenNames z; refine Keeps.cut (v := z) ?_ ?_ <;> [subst z; (intro _; clear_value z)])
    | extract_lets +onlyGivenNames z | with_reducible apply State.wr_keeps | with_reducible apply State.freeKeysOf_keeps
    | with_reducible apply State.wdShow_keeps | with_reducible apply State.setSource_keeps
    | with_reducible apply State.dropHaltCause_keeps | with_reducible apply State.safeStop_keeps
    | with_reducible apply Keeps.ite | with_reducible apply Keeps.iteSnd
    | with_reducible refine Keeps.ofEq ?_ (by assumption) | split
    | with_reducible refine Keeps.update ?_ rfl rfl rfl rfl rfl rfl rfl rfl | intro _ | dsimp only)

end Sys2Proof.Machine
end

