-- ==== Sys2Proof/Laws/KeepsBoot.lean ====
section
/-!
SUPPORT. Laws/KeepsBoot.lean: every operation of Machine/Boot.lean keeps what `Keeps` says.
-/
namespace Sys2Proof.Machine

set_option linter.unusedTactic false
set_option linter.unreachableTactic false
set_option linter.unusedVariables false
set_option linter.tactic.unusedName false

theorem State.putFlash_keeps {s0 : State} {s : State} (a : Nat) (b : Byte) (h : Keeps s0 s) : Keeps s0 (State.putFlash s a b) := by
  unfold State.putFlash
  repeat' (first
    | with_reducible assumption | with_reducible apply Keeps.putFlash
    | with_reducible refine Keeps.update ?_ rfl rfl rfl rfl rfl rfl rfl rfl)

theorem State.metroPut_keeps {s0 s : State} (a : Nat) (bs : List Byte) (h : Keeps s0 s) : Keeps s0 (s.metroPut a bs) :=
  h.stores rfl rfl fun k => { k with metro := Store.wf_foldl_put _ _ _ k.metro }

theorem State.placeOne_keeps {s0 : State} {s : State} (im : Loaded) (bs : List Byte) (h : Keeps s0 s) : Keeps s0 (State.placeOne s im bs) := by
  unfold State.placeOne
  repeat' (first
    | with_reducible assumption
    | (extract_lets +onlyGivenNames z; refine Keeps.cut (v := z) ?_ ?_ <;> [subst z; (intro _; clear_value z)])
    | extract_lets +onlyGivenNames z | with_reducible apply State.metroPut_keeps
    | with_reducible apply State.dmaStore_keeps | with_reducible apply Keeps.ite | with_reducible apply Keeps.iteSnd
    | with_reducible refine Keeps.ofEq ?_ (by assumption) | split
    | with_reducible refine Keeps.update ?_ rfl rfl rfl rfl rfl rfl rfl rfl | intro _ | dsimp only)

theorem State.place_keeps {s0 : State} {s : State} (rd : Nat → Byte) (ims : List Loaded) (h : Keeps s0 s) : Keeps s0 (State.place s rd ims) := by
  unfold State.place
  repeat' (first
    | with_reducible assumption
    | (extract_lets +onlyGivenNames z; refine Keeps.cut (v := z) ?_ ?_ <;> [subst z; (intro _; clear_value z)])
    | extract_lets +onlyGivenNames z | with_reducible apply State.placeOne_keeps | with_reducible apply Keeps.foldlSnd
    | with_reducible apply Keeps.foldl | with_reducible apply Keeps.ite | with_reducible apply Keeps.iteSnd
    | with_reducible refine Keeps.ofEq ?_ (by assumption) | split
    | with_reducible refine Keeps.update ?_ rfl rfl rfl rfl rfl rfl rfl rfl | intro _ | dsimp only)

theorem State.ramImage_keeps {s0 : State} {s : State} (e : DirEntry) (before : List Loaded) (h : Keeps s0 s) : Keeps s0 (State.ramImage s e before).2 := by
  unfold State.ramImage
  repeat' (first
    | with_reducible assumption
    | (extract_lets +onlyGivenNames z; refine Keeps.cut (v := z) ?_ ?_ <;> [subst z; (intro _; clear_value z)])
    | extract_lets +onlyGivenNames z | with_reducible apply State.dmaRead_keeps
    | with_reducible apply State.placeOne_keeps | with_reducible apply Keeps.ite | with_reducible apply Keeps.iteSnd
    | with_reducible refine Keeps.ofEq ?_ (by assumption) | split
    | with_reducible refine Keeps.update ?_ rfl rfl rfl rfl rfl rfl rfl rfl | intro _ | dsimp only)

theorem State.ramCheck_keeps {s0 : State} :
    ∀ (es : List (Option (Nat × DirEntry))) (done : List Loaded) (s : State), Keeps s0 s → Keeps s0 (State.ramCheck es done s).2
  | [], _, _, h => h
  | none :: _, _, _, h => h
  | some (i, e) :: rest, done, s, h => by
    unfold State.ramCheck
    have hi : Keeps s0 (s.ramImage e done).2 := State.ramImage_keeps e done h
    split
    · exact h
    · split
      · rename_i heq; rw [heq] at hi; exact hi
      · rename_i heq; rw [heq] at hi; exact State.ramCheck_keeps rest _ _ hi

theorem State.ramDir_keeps {s0 : State} {s : State} (src : Nat) (h : Keeps s0 s) : Keeps s0 (State.ramDir s src).2 := by
  unfold State.ramDir
  repeat' (first
    | with_reducible assumption
    | (extract_lets +onlyGivenNames z; refine Keeps.cut (v := z) ?_ ?_ <;> [subst z; (intro _; clear_value z)])
    | extract_lets +onlyGivenNames z | with_reducible apply State.dmaRead_keeps | with_reducible apply Keeps.ite
    | with_reducible apply Keeps.iteSnd | with_reducible refine Keeps.ofEq ?_ (by assumption) | split
    | with_reducible refine Keeps.update ?_ rfl rfl rfl rfl rfl rfl rfl rfl | intro _ | dsimp only)

theorem State.cellarShow_keeps {s0 : State} {s : State} (h : Keeps s0 s) : Keeps s0 (State.cellarShow s) := by
  unfold State.cellarShow
  repeat' (first
    | with_reducible assumption
    | (extract_lets +onlyGivenNames z; refine Keeps.cut (v := z) ?_ ?_ <;> [subst z; (intro _; clear_value z)])
    | extract_lets +onlyGivenNames z | with_reducible apply State.wr_keeps | with_reducible apply State.wr64_keeps
    | with_reducible apply Keeps.ite | with_reducible apply Keeps.iteSnd
    | with_reducible refine Keeps.ofEq ?_ (by assumption) | split
    | with_reducible refine Keeps.update ?_ rfl rfl rfl rfl rfl rfl rfl rfl | intro _ | dsimp only)

theorem State.keysOk_keeps {s0 : State} {s : State} (h : Keeps s0 s) : Keeps s0 (State.keysOk s) := by
  unfold State.keysOk
  repeat' (first
    | with_reducible assumption
    | (extract_lets +onlyGivenNames z; refine Keeps.cut (v := z) ?_ ?_ <;> [subst z; (intro _; clear_value z)])
    | extract_lets +onlyGivenNames z | with_reducible apply State.freshWord_keeps | with_reducible apply State.setFlag_keeps
    | with_reducible refine Keeps.ofEq ?_ (by assumption) | split | dsimp only)

theorem State.bootStart_keeps {s0 : State} {s : State} (slot : Nat) (gen : Nat) (fallback : Bool) (ims : List Image) (h : Keeps s0 s) : Keeps s0 (State.bootStart s slot gen fallback ims) := by
  unfold State.bootStart
  repeat' (first
    | with_reducible assumption
    | (extract_lets +onlyGivenNames z; refine Keeps.cut (v := z) ?_ ?_ <;> [subst z; (intro _; clear_value z)])
    | extract_lets +onlyGivenNames z | with_reducible apply State.wr_keeps | with_reducible apply State.setFlag_keeps
    | with_reducible apply State.keysOk_keeps | with_reducible apply State.enterMode_keeps
    | with_reducible apply State.metroStart_keeps | with_reducible apply State.ptpShow_keeps
    | with_reducible apply State.irq_keeps | with_reducible apply Keeps.ite | split
    | with_reducible refine Keeps.update ?_ rfl rfl rfl rfl rfl rfl rfl rfl | intro _ | dsimp only)

theorem State.takeXfcfg_keeps {s0 : State} {s : State} (v : Nat) (h : Keeps s0 s) : Keeps s0 (State.takeXfcfg s v) := by
  unfold State.takeXfcfg
  repeat' (first
    | with_reducible assumption
    | (extract_lets +onlyGivenNames z; refine Keeps.cut (v := z) ?_ ?_ <;> [subst z; (intro _; clear_value z)])
    | extract_lets +onlyGivenNames z | with_reducible apply State.wr_keeps | dsimp only)

theorem State.bootReads_keeps {s0 : State} {s : State} (r : BootResult) (h : Keeps s0 s) : Keeps s0 (State.bootReads s r) := by
  unfold State.bootReads
  repeat' (first
    | with_reducible assumption
    | (extract_lets +onlyGivenNames z; refine Keeps.cut (v := z) ?_ ?_ <;> [subst z; (intro _; clear_value z)])
    | extract_lets +onlyGivenNames z | with_reducible apply State.place_keeps
    | with_reducible apply State.takeXfcfg_keeps | with_reducible apply Keeps.ite | with_reducible apply Keeps.iteSnd
    | with_reducible refine Keeps.ofEq ?_ (by assumption) | split
    | with_reducible refine Keeps.update ?_ rfl rfl rfl rfl rfl rfl rfl rfl | intro _ | dsimp only)

theorem State.bootComplete_keeps {s0 : State} {s : State} (badA : List (Fin 16)) (badB : List (Fin 16)) (h : Keeps s0 s) : Keeps s0 (State.bootComplete s badA badB) := by
  unfold State.bootComplete
  repeat' (first
    | with_reducible assumption
    | (extract_lets +onlyGivenNames z; refine Keeps.cut (v := z) ?_ ?_ <;> [subst z; (intro _; clear_value z)])
    | extract_lets +onlyGivenNames z | with_reducible apply State.bootReads_keeps
    | with_reducible apply State.bootStart_keeps | with_reducible apply Keeps.ite | with_reducible apply Keeps.iteSnd
    | with_reducible refine Keeps.ofEq ?_ (by assumption) | split
    | with_reducible refine Keeps.update ?_ rfl rfl rfl rfl rfl rfl rfl rfl | intro _ | dsimp only)

theorem State.recovery_keeps {s0 : State} {s : State} (fail : Option (Nat × Option Nat)) (fallback : Bool) (h : Keeps s0 s) : Keeps s0 (State.recovery s fail fallback) := by
  unfold State.recovery
  repeat' (first
    | with_reducible assumption
    | (extract_lets +onlyGivenNames z; refine Keeps.cut (v := z) ?_ ?_ <;> [subst z; (intro _; clear_value z)])
    | extract_lets +onlyGivenNames z | with_reducible apply State.freshWord_keeps | with_reducible apply State.setFlag_keeps
    | with_reducible apply State.wr_keeps | with_reducible apply State.irq_keeps
    | with_reducible refine Keeps.ofEq ?_ (by assumption) | split
    | with_reducible refine Keeps.update ?_ rfl rfl rfl rfl rfl rfl rfl rfl | dsimp only)

theorem State.bootFail_keeps {s0 : State} {s : State} (otpOk : Bool) (badA : List (Fin 16)) (badB : List (Fin 16)) (h : Keeps s0 s) : Keeps s0 (State.bootFail s otpOk badA badB) := by
  unfold State.bootFail
  repeat' (first
    | with_reducible assumption
    | (extract_lets +onlyGivenNames z; refine Keeps.cut (v := z) ?_ ?_ <;> [subst z; (intro _; clear_value z)])
    | extract_lets +onlyGivenNames z | with_reducible apply State.recovery_keeps
    | with_reducible apply State.bootReads_keeps | with_reducible apply Keeps.ite | with_reducible apply Keeps.iteSnd
    | with_reducible refine Keeps.ofEq ?_ (by assumption) | split
    | with_reducible refine Keeps.update ?_ rfl rfl rfl rfl rfl rfl rfl rfl | intro _ | dsimp only)

end Sys2Proof.Machine
end

