-- ==== Sys2Proof/Laws/KeepsSec.lean ====
section
/-!
SUPPORT. Laws/KeepsSec.lean: every operation of Machine/Sec.lean keeps what `Keeps` says.
-/
namespace Sys2Proof.Machine

set_option linter.unusedTactic false
set_option linter.unreachableTactic false
set_option linter.unusedVariables false
set_option linter.tactic.unusedName false

theorem State.haltUnit_keeps {s0 : State} {s : State} (n : Nat) (h : Keeps s0 s) : Keeps s0 (State.haltUnit s n) := by
  unfold State.haltUnit
  repeat' (first
    | with_reducible assumption | with_reducible apply State.wr_keeps | with_reducible apply State.stopDrive_keeps)

theorem State.leHaltOne_keeps {s0 : State} {s : State} (n : Fin 16) (h : Keeps s0 s) : Keeps s0 (State.leHaltOne s n) := by
  unfold State.leHaltOne
  repeat' (first
    | with_reducible assumption
    | (extract_lets +onlyGivenNames z; refine Keeps.cut (v := z) ?_ ?_ <;> [subst z; (intro _; clear_value z)])
    | extract_lets +onlyGivenNames z | with_reducible apply State.leStop_keeps | with_reducible apply State.setLe_keeps
    | with_reducible apply State.putBit_keeps | with_reducible apply State.haltUnit_keeps | with_reducible apply Keeps.foldl
    | with_reducible apply Keeps.foldlSnd | with_reducible apply Keeps.ite | split
    | with_reducible refine Keeps.update ?_ rfl rfl rfl rfl rfl rfl rfl rfl | intro _ | dsimp only)

theorem State.haltMade_keeps {s0 : State} {s : State} (governed : Bool) (h : Keeps s0 s) : Keeps s0 (State.haltMade s governed) := by
  unfold State.haltMade
  repeat' (first
    | with_reducible assumption
    | (extract_lets +onlyGivenNames z; refine Keeps.cut (v := z) ?_ ?_ <;> [subst z; (intro _; clear_value z)])
    | extract_lets +onlyGivenNames z | with_reducible apply State.irq_keeps | with_reducible apply State.safeStop_keeps
    | with_reducible apply State.selfReport_keeps | with_reducible apply Keeps.ite | with_reducible apply Keeps.iteSnd
    | with_reducible refine Keeps.ofEq ?_ (by assumption) | split
    | with_reducible refine Keeps.update ?_ rfl rfl rfl rfl rfl rfl rfl rfl | intro _ | dsimp only)

theorem State.leHalts_keeps {s0 : State} {s : State} (mask : BitVec 16) (h : Keeps s0 s) : Keeps s0 (State.leHalts s mask) := by
  unfold State.leHalts
  repeat' (first
    | with_reducible assumption | with_reducible apply State.forAll_keeps | with_reducible apply State.leHaltOne_keeps
    | with_reducible apply State.haltMade_keeps | with_reducible apply Keeps.ite | split | intro _ | dsimp only)

theorem State.leResumeOne_keeps {s0 : State} {s : State} (n : Fin 16) (h : Keeps s0 s) : Keeps s0 (State.leResumeOne s n) := by
  unfold State.leResumeOne
  repeat' (first
    | with_reducible assumption
    | (extract_lets +onlyGivenNames z; refine Keeps.cut (v := z) ?_ ?_ <;> [subst z; (intro _; clear_value z)])
    | extract_lets +onlyGivenNames z | with_reducible apply State.putBit_keeps | with_reducible apply State.setLe_keeps
    | with_reducible apply State.held_keeps | with_reducible apply State.wr_keeps
    | with_reducible apply State.leOpen_keeps | with_reducible apply Keeps.ite | with_reducible apply Keeps.iteSnd
    | with_reducible refine Keeps.ofEq ?_ (by assumption) | split
    | with_reducible refine Keeps.update ?_ rfl rfl rfl rfl rfl rfl rfl rfl | intro _ | dsimp only)

theorem State.leResumes_keeps {s0 : State} {s : State} (mask : BitVec 16) (h : Keeps s0 s) : Keeps s0 (State.leResumes s mask) := by
  unfold State.leResumes
  repeat' (first
    | with_reducible assumption | with_reducible apply State.forAll_keeps | with_reducible apply State.leResumeOne_keeps
    | with_reducible apply Keeps.ite | split | intro _ | dsimp only)

theorem State.supHalt_keeps {s0 : State} {s : State} (p : Pair) (h : Keeps s0 s) : Keeps s0 (State.supHalt s p) := by
  unfold State.supHalt
  repeat' (first
    | with_reducible assumption
    | (extract_lets +onlyGivenNames z; refine Keeps.cut (v := z) ?_ ?_ <;> [subst z; (intro _; clear_value z)])
    | extract_lets +onlyGivenNames z | with_reducible apply State.wr_keeps | with_reducible apply State.wdShow_keeps
    | with_reducible apply State.haltUnit_keeps | with_reducible apply State.haltMade_keeps
    | with_reducible apply Keeps.foldlSnd | with_reducible apply Keeps.foldl | with_reducible apply Keeps.ite
    | with_reducible apply Keeps.iteSnd | with_reducible refine Keeps.ofEq ?_ (by assumption) | split
    | with_reducible refine Keeps.update ?_ rfl rfl rfl rfl rfl rfl rfl rfl | intro _ | dsimp only)

theorem State.coreHalt_keeps {s0 : State} {s : State} (c : Core) (h : Keeps s0 s) : Keeps s0 (State.coreHalt s c) := by
  unfold State.coreHalt
  repeat' (first
    | with_reducible assumption
    | (extract_lets +onlyGivenNames z; refine Keeps.cut (v := z) ?_ ?_ <;> [subst z; (intro _; clear_value z)])
    | extract_lets +onlyGivenNames z | with_reducible apply State.wr_keeps | with_reducible apply State.irq_keeps
    | with_reducible apply Keeps.ite | with_reducible refine Keeps.ofEq ?_ (by assumption) | split
    | with_reducible refine Keeps.update ?_ rfl rfl rfl rfl rfl rfl rfl rfl | intro _ | dsimp only)

theorem State.haltRelease_keeps {s0 : State} {s : State} (pairs : List Pair) (cores : List Core) (h : Keeps s0 s) : Keeps s0 (State.haltRelease s pairs cores) := by
  unfold State.haltRelease
  repeat' (first
    | with_reducible assumption
    | (extract_lets +onlyGivenNames z; refine Keeps.cut (v := z) ?_ ?_ <;> [subst z; (intro _; clear_value z)])
    | extract_lets +onlyGivenNames z | with_reducible apply State.wr_keeps | with_reducible apply State.wdShow_keeps
    | with_reducible apply Keeps.foldl | with_reducible apply Keeps.foldlSnd | with_reducible apply Keeps.ite | split
    | with_reducible refine Keeps.update ?_ rfl rfl rfl rfl rfl rfl rfl rfl | intro _ | dsimp only)

theorem State.endSession_keeps {s0 : State} {s : State} (cause : Nat) (h : Keeps s0 s) : Keeps s0 (State.endSession s cause) := by
  unfold State.endSession
  repeat' (first
    | with_reducible assumption
    | (extract_lets +onlyGivenNames z; refine Keeps.cut (v := z) ?_ ?_ <;> [subst z; (intro _; clear_value z)])
    | extract_lets +onlyGivenNames z | with_reducible apply State.leResumes_keeps
    | with_reducible apply State.haltRelease_keeps | with_reducible apply State.wr_keeps
    | with_reducible apply State.irq_keeps | with_reducible apply Keeps.ite | split
    | with_reducible refine Keeps.update ?_ rfl rfl rfl rfl rfl rfl rfl rfl | intro _ | dsimp only)

theorem State.chalNew_keeps {s0 : State} {s : State} (h : Keeps s0 s) : Keeps s0 (State.chalNew s) := by
  unfold State.chalNew
  repeat' (first
    | with_reducible assumption
    | (extract_lets +onlyGivenNames z; refine Keeps.cut (v := z) ?_ ?_ <;> [subst z; (intro _; clear_value z)])
    | extract_lets +onlyGivenNames z | with_reducible apply State.wr_keeps | with_reducible apply Keeps.foldl
    | with_reducible apply Keeps.foldlSnd | with_reducible refine Keeps.update ?_ rfl rfl rfl rfl rfl rfl rfl rfl | intro _
    | dsimp only)

theorem State.authFail_keeps {s0 : State} {s : State} (h : Keeps s0 s) : Keeps s0 (State.authFail s) := by
  unfold State.authFail
  repeat' (first
    | with_reducible assumption
    | (extract_lets +onlyGivenNames z; refine Keeps.cut (v := z) ?_ ?_ <;> [subst z; (intro _; clear_value z)])
    | extract_lets +onlyGivenNames z | with_reducible apply State.bump_keeps | with_reducible apply State.irq_keeps
    | with_reducible apply State.setFlag_keeps | with_reducible refine Keeps.update ?_ rfl rfl rfl rfl rfl rfl rfl rfl
    | dsimp only)

theorem State.openSession_keeps {s0 : State} {s : State} (mask : Nat) (dur : Nat) (h : Keeps s0 s) : Keeps s0 (State.openSession s mask dur) := by
  unfold State.openSession
  repeat' (first
    | with_reducible assumption
    | (extract_lets +onlyGivenNames z; refine Keeps.cut (v := z) ?_ ?_ <;> [subst z; (intro _; clear_value z)])
    | extract_lets +onlyGivenNames z | with_reducible apply State.wr_keeps
    | with_reducible refine Keeps.update ?_ rfl rfl rfl rfl rfl rfl rfl rfl | dsimp only)

theorem State.authGo_keeps {s0 : State} {s : State} (h : Keeps s0 s) : Keeps s0 (State.authGo s) := by
  unfold State.authGo
  repeat' (first
    | with_reducible assumption
    | (extract_lets +onlyGivenNames z; refine Keeps.cut (v := z) ?_ ?_ <;> [subst z; (intro _; clear_value z)])
    | extract_lets +onlyGivenNames z | with_reducible apply State.wr_keeps | with_reducible apply Keeps.ite
    | with_reducible apply Keeps.iteSnd | with_reducible refine Keeps.ofEq ?_ (by assumption) | split
    | with_reducible refine Keeps.update ?_ rfl rfl rfl rfl rfl rfl rfl rfl | intro _ | dsimp only)

theorem State.authClose_keeps {s0 : State} {s : State} (h : Keeps s0 s) : Keeps s0 (State.authClose s) := by
  unfold State.authClose
  repeat' (first
    | with_reducible assumption
    | (extract_lets +onlyGivenNames z; refine Keeps.cut (v := z) ?_ ?_ <;> [subst z; (intro _; clear_value z)])
    | extract_lets +onlyGivenNames z | with_reducible apply State.wr_keeps | with_reducible apply Keeps.ite
    | with_reducible apply Keeps.iteSnd | with_reducible refine Keeps.ofEq ?_ (by assumption) | split
    | with_reducible refine Keeps.update ?_ rfl rfl rfl rfl rfl rfl rfl rfl | intro _ | dsimp only)

theorem State.authEnd_keeps {s0 : State} {s : State} (h : Keeps s0 s) : Keeps s0 (State.authEnd s) := by
  unfold State.authEnd
  repeat' (first
    | with_reducible assumption
    | (extract_lets +onlyGivenNames z; refine Keeps.cut (v := z) ?_ ?_ <;> [subst z; (intro _; clear_value z)])
    | extract_lets +onlyGivenNames z | with_reducible apply State.authClose_keeps
    | with_reducible apply State.openSession_keeps | with_reducible apply State.authFail_keeps
    | with_reducible apply Keeps.ite | with_reducible apply Keeps.iteSnd
    | with_reducible refine Keeps.ofEq ?_ (by assumption) | split
    | with_reducible refine Keeps.update ?_ rfl rfl rfl rfl rfl rfl rfl rfl | intro _ | dsimp only)

theorem State.cellarBegin_keeps {s0 : State} {s : State} (op : Nat) (result : Nat) (entry : Nat) (h : Keeps s0 s) : Keeps s0 (State.cellarBegin s op result entry) := by
  unfold State.cellarBegin
  repeat' (first
    | with_reducible assumption
    | (extract_lets +onlyGivenNames z; refine Keeps.cut (v := z) ?_ ?_ <;> [subst z; (intro _; clear_value z)])
    | extract_lets +onlyGivenNames z | with_reducible apply State.wr_keeps
    | with_reducible refine Keeps.update ?_ rfl rfl rfl rfl rfl rfl rfl rfl | dsimp only)

theorem State.freeFailure_keeps {s0 : State} {s : State} (h : Keeps s0 s) : Keeps s0 (State.freeFailure s).2 := by
  unfold State.freeFailure
  repeat' (first
    | with_reducible assumption
    | (extract_lets +onlyGivenNames z; refine Keeps.cut (v := z) ?_ ?_ <;> [subst z; (intro _; clear_value z)])
    | extract_lets +onlyGivenNames z | with_reducible apply State.freshWord_keeps
    | with_reducible refine Keeps.ofEq ?_ (by assumption) | split | dsimp only)

theorem State.burnPayload_keeps {s0 : State} {s : State} (op : Nat) (at_ : Nat) (payload : List Byte) (h : Keeps s0 s) : Keeps s0 (State.burnPayload s op at_ payload) := by
  unfold State.burnPayload
  repeat' (first
    | with_reducible assumption
    | (extract_lets +onlyGivenNames z; refine Keeps.cut (v := z) ?_ ?_ <;> [subst z; (intro _; clear_value z)])
    | extract_lets +onlyGivenNames z | with_reducible apply State.cellarBegin_keeps
    | with_reducible apply State.otpBurnBytes_keeps | with_reducible apply Keeps.ite | with_reducible apply Keeps.iteSnd
    | with_reducible refine Keeps.ofEq ?_ (by assumption) | split
    | with_reducible refine Keeps.update ?_ rfl rfl rfl rfl rfl rfl rfl rfl | intro _ | dsimp only)

theorem State.freshSeed_keeps {s0 : State} {s : State} (k : Nat) (h : Keeps s0 s) : Keeps s0 (State.freshSeed s k).2 := by
  unfold State.freshSeed
  repeat' (first
    | with_reducible assumption
    | (extract_lets +onlyGivenNames z; refine Keeps.cut (v := z) ?_ ?_ <;> [subst z; (intro _; clear_value z)])
    | extract_lets +onlyGivenNames z | with_reducible apply Keeps.ite | with_reducible apply Keeps.iteSnd
    | with_reducible refine Keeps.ofEq ?_ (by assumption) | split
    | with_reducible refine Keeps.update ?_ rfl rfl rfl rfl rfl rfl rfl rfl | intro _ | dsimp only)

theorem State.provision_keeps {s0 : State} {s : State} (h : Keeps s0 s) : Keeps s0 (State.provision s) := by
  unfold State.provision
  repeat' (first
    | with_reducible assumption
    | (extract_lets +onlyGivenNames z; refine Keeps.cut (v := z) ?_ ?_ <;> [subst z; (intro _; clear_value z)])
    | extract_lets +onlyGivenNames z | with_reducible apply State.cellarBegin_keeps
    | with_reducible apply State.dmaRead_keeps | with_reducible apply State.freeFailure_keeps
    | with_reducible apply State.freshSeed_keeps | with_reducible apply State.burnPayload_keeps
    | with_reducible apply Keeps.ite | with_reducible apply Keeps.iteSnd
    | with_reducible refine Keeps.ofEq ?_ (by assumption) | split
    | with_reducible refine Keeps.update ?_ rfl rfl rfl rfl rfl rfl rfl rfl | intro _ | dsimp only)

theorem State.seal_keeps {s0 : State} {s : State} (h : Keeps s0 s) : Keeps s0 (State.seal s) := by
  unfold State.seal
  repeat' (first
    | with_reducible assumption
    | (extract_lets +onlyGivenNames z; refine Keeps.cut (v := z) ?_ ?_ <;> [subst z; (intro _; clear_value z)])
    | extract_lets +onlyGivenNames z | with_reducible apply State.cellarBegin_keeps
    | with_reducible apply State.burnPayload_keeps | with_reducible apply Keeps.ite | with_reducible apply Keeps.iteSnd
    | with_reducible refine Keeps.ofEq ?_ (by assumption) | split
    | with_reducible refine Keeps.update ?_ rfl rfl rfl rfl rfl rfl rfl rfl | intro _ | dsimp only)

theorem State.returnCmd_keeps {s0 : State} {s : State} (h : Keeps s0 s) : Keeps s0 (State.returnCmd s) := by
  unfold State.returnCmd
  repeat' (first
    | with_reducible assumption
    | (extract_lets +onlyGivenNames z; refine Keeps.cut (v := z) ?_ ?_ <;> [subst z; (intro _; clear_value z)])
    | extract_lets +onlyGivenNames z | with_reducible apply State.cellarBegin_keeps | with_reducible apply Keeps.ite
    | with_reducible apply Keeps.iteSnd | with_reducible refine Keeps.ofEq ?_ (by assumption) | split
    | with_reducible refine Keeps.update ?_ rfl rfl rfl rfl rfl rfl rfl rfl | intro _ | dsimp only)

theorem State.advance_keeps {s0 : State} {s : State} (c : Nat) (h : Keeps s0 s) : Keeps s0 (State.advance s c) := by
  unfold State.advance
  repeat' (first
    | with_reducible assumption
    | (extract_lets +onlyGivenNames z; refine Keeps.cut (v := z) ?_ ?_ <;> [subst z; (intro _; clear_value z)])
    | extract_lets +onlyGivenNames z | with_reducible apply State.cellarBegin_keeps
    | with_reducible apply State.otpBurnBits_keeps | with_reducible apply Keeps.ite | split | intro _ | dsimp only)

theorem State.begunWith_keeps {s0 : State} {s : State} (op : Nat) (r : SetResult) (h : Keeps s0 s) : Keeps s0 (State.begunWith s op r) := by
  unfold State.begunWith
  repeat' (first
    | with_reducible assumption
    | (extract_lets +onlyGivenNames z; refine Keeps.cut (v := z) ?_ ?_ <;> [subst z; (intro _; clear_value z)])
    | extract_lets +onlyGivenNames z | with_reducible apply State.cellarBegin_keeps
    | with_reducible apply State.freshWord_keeps | with_reducible refine Keeps.ofEq ?_ (by assumption) | split
    | with_reducible refine Keeps.update ?_ rfl rfl rfl rfl rfl rfl rfl rfl | dsimp only)

theorem State.checkSlot_keeps {s0 : State} {s : State} (k : Nat) (bad : List (Fin 16)) (h : Keeps s0 s) : Keeps s0 (State.checkSlot s k bad) := by
  unfold State.checkSlot
  repeat' (first
    | with_reducible assumption
    | (extract_lets +onlyGivenNames z; refine Keeps.cut (v := z) ?_ ?_ <;> [subst z; (intro _; clear_value z)])
    | extract_lets +onlyGivenNames z | with_reducible apply State.cellarBegin_keeps
    | with_reducible apply State.begunWith_keeps | with_reducible apply Keeps.ite | with_reducible apply Keeps.iteSnd
    | with_reducible refine Keeps.ofEq ?_ (by assumption) | split
    | with_reducible refine Keeps.update ?_ rfl rfl rfl rfl rfl rfl rfl rfl | intro _ | dsimp only)

theorem State.ramBoot_keeps {s0 : State} {s : State} (h : Keeps s0 s) : Keeps s0 (State.ramBoot s) := by
  unfold State.ramBoot
  repeat' (first
    | with_reducible assumption
    | (extract_lets +onlyGivenNames z; refine Keeps.cut (v := z) ?_ ?_ <;> [subst z; (intro _; clear_value z)])
    | extract_lets +onlyGivenNames z | with_reducible apply State.cellarBegin_keeps
    | with_reducible apply State.ramDir_keeps | with_reducible apply State.begunWith_keeps
    | with_reducible apply State.ramCheck_keeps | with_reducible apply Keeps.ite | with_reducible apply Keeps.iteSnd
    | with_reducible refine Keeps.ofEq ?_ (by assumption) | split
    | with_reducible refine Keeps.update ?_ rfl rfl rfl rfl rfl rfl rfl rfl | intro _ | dsimp only)

theorem State.cellarEffect_keeps {s0 : State} {s : State} (op : Nat) (h : Keeps s0 s) : Keeps s0 (State.cellarEffect s op) := by
  unfold State.cellarEffect
  repeat' (first
    | with_reducible assumption
    | (extract_lets +onlyGivenNames z; refine Keeps.cut (v := z) ?_ ?_ <;> [subst z; (intro _; clear_value z)])
    | extract_lets +onlyGivenNames z | with_reducible apply State.otpBurnBits_keeps
    | with_reducible apply State.wr_keeps | with_reducible apply State.endSession_keeps
    | with_reducible apply State.metroSeal_keeps | with_reducible apply State.otpBurnBytes_keeps
    | with_reducible apply State.metroReturn_keeps | with_reducible apply State.bootStart_keeps
    | with_reducible apply Keeps.foldlSnd | with_reducible apply Keeps.foldl | with_reducible apply Keeps.ite
    | with_reducible apply Keeps.iteSnd | with_reducible refine Keeps.ofEq ?_ (by assumption) | split
    | with_reducible refine Keeps.update ?_ rfl rfl rfl rfl rfl rfl rfl rfl | intro _ | dsimp only)

theorem State.cellarDone_keeps {s0 : State} {s : State} (burnOk : Bool) (h : Keeps s0 s) : Keeps s0 (State.cellarDone s burnOk) := by
  unfold State.cellarDone
  repeat' (first
    | with_reducible assumption
    | (extract_lets +onlyGivenNames z; refine Keeps.cut (v := z) ?_ ?_ <;> [subst z; (intro _; clear_value z)])
    | extract_lets +onlyGivenNames z | with_reducible apply State.cellarEffect_keeps
    | with_reducible apply State.cellarShow_keeps | with_reducible apply State.wr_keeps | with_reducible apply State.irq_keeps
    | with_reducible apply Keeps.ite | split | with_reducible refine Keeps.update ?_ rfl rfl rfl rfl rfl rfl rfl rfl | intro _
    | dsimp only)

theorem State.attestGo_keeps {s0 : State} {s : State} (h : Keeps s0 s) : Keeps s0 (State.attestGo s) := by
  unfold State.attestGo
  repeat' (first
    | with_reducible assumption
    | (extract_lets +onlyGivenNames z; refine Keeps.cut (v := z) ?_ ?_ <;> [subst z; (intro _; clear_value z)])
    | extract_lets +onlyGivenNames z | with_reducible apply State.wr_keeps
    | with_reducible refine Keeps.update ?_ rfl rfl rfl rfl rfl rfl rfl rfl | dsimp only)

theorem State.attestDone_keeps {s0 : State} {s : State} (h : Keeps s0 s) : Keeps s0 (State.attestDone s) := by
  unfold State.attestDone
  repeat' (first
    | with_reducible assumption
    | (extract_lets +onlyGivenNames z; refine Keeps.cut (v := z) ?_ ?_ <;> [subst z; (intro _; clear_value z)])
    | extract_lets +onlyGivenNames z | with_reducible apply State.wr_keeps | with_reducible apply State.irq_keeps
    | with_reducible apply Keeps.foldlSnd | with_reducible apply Keeps.foldl | with_reducible apply Keeps.ite
    | with_reducible apply Keeps.iteSnd | with_reducible refine Keeps.ofEq ?_ (by assumption) | split
    | with_reducible refine Keeps.update ?_ rfl rfl rfl rfl rfl rfl rfl rfl | intro _ | dsimp only)

theorem State.flashStart_keeps {s0 : State} {s : State} (code : Nat) (id : Nat) (h : Keeps s0 s) : Keeps s0 (State.flashStart s code id) := by
  unfold State.flashStart
  repeat' (first
    | with_reducible assumption
    | (extract_lets +onlyGivenNames z; refine Keeps.cut (v := z) ?_ ?_ <;> [subst z; (intro _; clear_value z)])
    | extract_lets +onlyGivenNames z | with_reducible apply State.wr_keeps | with_reducible apply Keeps.putSram
    | with_reducible apply Keeps.putMetro | with_reducible refine Keeps.update ?_ rfl rfl rfl rfl rfl rfl rfl rfl | dsimp only)

theorem State.flashScramble_keeps {s0 s : State} (a k : Nat) (h : Keeps s0 s) : Keeps s0 (s.flashScramble a k) := by
  induction k generalizing s a with
  | zero => exact h
  | succ k ih => exact ih _ (State.putFlash_keeps _ _ (State.freshWord_keeps h))

theorem State.flashDo_keeps {s0 : State} {s : State} (op : FlashOp) (ok : Bool) (h : Keeps s0 s) : Keeps s0 (State.flashDo s op ok).2 := by
  unfold State.flashDo
  repeat' (first
    | with_reducible assumption
    | (extract_lets +onlyGivenNames z; refine Keeps.cut (v := z) ?_ ?_ <;> [subst z; (intro _; clear_value z)])
    | extract_lets +onlyGivenNames z | with_reducible apply State.wr_keeps | with_reducible apply State.dmaRead_keeps
    | with_reducible apply State.freeFailure_keeps | with_reducible apply State.putFlash_keeps
    | with_reducible apply State.dmaWrite_keeps | with_reducible apply State.flashScramble_keeps
    | with_reducible apply Keeps.foldl | with_reducible apply Keeps.foldlSnd | with_reducible apply Keeps.ite
    | with_reducible refine Keeps.ofEq ?_ (by assumption) | split | with_reducible apply Keeps.putFlash
    | with_reducible apply Keeps.clearFlash | with_reducible refine Keeps.update ?_ rfl rfl rfl rfl rfl rfl rfl rfl | intro _
    | dsimp only)

theorem State.flashDone_keeps {s0 : State} {s : State} (ok : Bool) (h : Keeps s0 s) : Keeps s0 (State.flashDone s ok) := by
  unfold State.flashDone
  repeat' (first
    | with_reducible assumption
    | (extract_lets +onlyGivenNames z; refine Keeps.cut (v := z) ?_ ?_ <;> [subst z; (intro _; clear_value z)])
    | extract_lets +onlyGivenNames z | with_reducible apply State.flashDo_keeps | with_reducible apply State.wr_keeps
    | with_reducible apply State.irq_keeps | with_reducible apply Keeps.ite
    | with_reducible refine Keeps.ofEq ?_ (by assumption) | split
    | with_reducible refine Keeps.update ?_ rfl rfl rfl rfl rfl rfl rfl rfl | intro _ | dsimp only)

end Sys2Proof.Machine
end

