-- ==== Sys2Proof/Laws/KeepsReset.lean ====
section
/-!
SUPPORT. Laws/KeepsReset.lean: every operation of Machine/Reset.lean keeps what `Keeps` says.
-/
namespace Sys2Proof.Machine

set_option linter.unusedTactic false
set_option linter.unreachableTactic false
set_option linter.unusedVariables false
set_option linter.tactic.unusedName false

theorem State.keepFields_keeps {s0 : State} {s : State} {old : State} (fs : List (Nat × Fld)) (h : Keeps s0 s) : Keeps s0 (State.keepFields s old fs) := by
  unfold State.keepFields
  repeat' (first
    | with_reducible assumption | with_reducible apply State.wr_keeps | with_reducible apply Keeps.foldl
    | with_reducible apply Keeps.foldlSnd | intro _ | dsimp only)

theorem State.blank_keeps {s0 s : State} (h : Keeps s0 s) : Keeps s0 s.blank :=
  h.stores rfl rfl fun k => ⟨rfl, rfl, rfl, rfl, k.otp, k.flash, rfl, rfl, rfl, k.pantry, rfl, rfl⟩

theorem State.wakeBlank_keeps {s0 s : State} (h : Keeps s0 s) : Keeps s0 s.wakeBlank :=
  h.stores rfl rfl fun k => ⟨Store.wf_filter _ k.regs, Store.wf_filter _ k.staged, Store.wf_filter _ k.committed, rfl, k.otp, k.flash, rfl, rfl, rfl, k.pantry, k.metro, rfl⟩

theorem State.resetTo_keeps {s0 : State} {s : State} (cause : Nat) (h : Keeps s0 s) : Keeps s0 (State.resetTo s cause) := by
  unfold State.resetTo
  repeat' (first
    | with_reducible assumption
    | (extract_lets +onlyGivenNames z; refine Keeps.cut (v := z) ?_ ?_ <;> [subst z; (intro _; clear_value z)])
    | extract_lets +onlyGivenNames z | with_reducible apply State.wakeBlank_keeps | with_reducible apply State.blank_keeps
    | with_reducible apply State.keepFields_keeps | with_reducible apply State.wr_keeps
    | with_reducible apply State.wrapBump_keeps | with_reducible apply Keeps.ite | split
    | with_reducible refine Keeps.update ?_ rfl rfl rfl rfl rfl rfl rfl rfl | intro _ | dsimp only)

theorem State.powerOnReset_keeps {s0 : State} {s : State} (h : Keeps s0 s) : Keeps s0 (State.powerOnReset s) := by
  unfold State.powerOnReset
  repeat' (first
    | with_reducible assumption | with_reducible apply State.resetTo_keeps)

theorem State.resetNAssert_keeps {s0 : State} {s : State} (h : Keeps s0 s) : Keeps s0 (State.resetNAssert s) := by
  unfold State.resetNAssert
  repeat' (first
    | with_reducible assumption | with_reducible apply State.resetTo_keeps | with_reducible apply Keeps.ite | split | intro _)

theorem State.rstreqReset_keeps {s0 : State} {s : State} (h : Keeps s0 s) : Keeps s0 (State.rstreqReset s) := by
  unfold State.rstreqReset
  repeat' (first
    | with_reducible assumption
    | (extract_lets +onlyGivenNames z; refine Keeps.cut (v := z) ?_ ?_ <;> [subst z; (intro _; clear_value z)])
    | extract_lets +onlyGivenNames z | with_reducible apply State.resetTo_keeps | with_reducible apply State.wr_keeps
    | with_reducible apply Keeps.ite | split | with_reducible refine Keeps.update ?_ rfl rfl rfl rfl rfl rfl rfl rfl | intro _
    | dsimp only)

theorem State.rstreqRelease_keeps {s0 : State} {s : State} (h : Keeps s0 s) : Keeps s0 (State.rstreqRelease s) := by
  unfold State.rstreqRelease
  repeat' (first
    | with_reducible assumption | with_reducible apply State.wr_keeps | with_reducible apply Keeps.ite | split
    | with_reducible refine Keeps.update ?_ rfl rfl rfl rfl rfl rfl rfl rfl | intro _)

theorem State.rstreqStuck_keeps {s0 : State} {s : State} (h : Keeps s0 s) : Keeps s0 (State.rstreqStuck s) := by
  unfold State.rstreqStuck
  repeat' (first
    | with_reducible assumption
    | (extract_lets +onlyGivenNames z; refine Keeps.cut (v := z) ?_ ?_ <;> [subst z; (intro _; clear_value z)])
    | extract_lets +onlyGivenNames z | with_reducible apply State.wr_keeps | with_reducible apply State.bump_keeps
    | with_reducible apply Keeps.ite | split | with_reducible refine Keeps.update ?_ rfl rfl rfl rfl rfl rfl rfl rfl | intro _
    | dsimp only)

theorem State.rstreqUnignore_keeps {s0 : State} {s : State} (h : Keeps s0 s) : Keeps s0 (State.rstreqUnignore s) := by
  unfold State.rstreqUnignore
  repeat' (first
    | with_reducible assumption
    | (extract_lets +onlyGivenNames z; refine Keeps.cut (v := z) ?_ ?_ <;> [subst z; (intro _; clear_value z)])
    | extract_lets +onlyGivenNames z | with_reducible apply State.wr_keeps | with_reducible apply Keeps.ite
    | with_reducible apply Keeps.iteSnd | with_reducible refine Keeps.ofEq ?_ (by assumption) | split
    | with_reducible refine Keeps.update ?_ rfl rfl rfl rfl rfl rfl rfl rfl | intro _ | dsimp only)

theorem State.rootLossReset_keeps {s0 : State} {s : State} (h : Keeps s0 s) : Keeps s0 (State.rootLossReset s) := by
  unfold State.rootLossReset
  repeat' (first
    | with_reducible assumption | with_reducible apply State.resetTo_keeps | with_reducible apply Keeps.ite | split | intro _)

theorem State.strapPort_keeps {s0 : State} {s : State} (p : HostPort) (qspi : Bool) (h : Keeps s0 s) : Keeps s0 (State.strapPort s p qspi) := by
  unfold State.strapPort
  repeat' (first
    | with_reducible assumption | with_reducible apply State.setFlag_keeps)

theorem State.resetRelease_keeps {s0 : State} {s : State} (st : Straps) (h : Keeps s0 s) : Keeps s0 (State.resetRelease s st) := by
  unfold State.resetRelease
  repeat' (first
    | with_reducible assumption
    | (extract_lets +onlyGivenNames z; refine Keeps.cut (v := z) ?_ ?_ <;> [subst z; (intro _; clear_value z)])
    | extract_lets +onlyGivenNames z | with_reducible apply State.held_keeps
    | with_reducible apply State.freshWord_keeps | with_reducible apply State.wr_keeps
    | with_reducible apply State.setFlag_keeps | with_reducible apply State.strapPort_keeps
    | with_reducible apply State.storeBand_keeps | with_reducible apply State.cellarShow_keeps
    | with_reducible apply State.putBit_keeps | with_reducible apply Keeps.ite | with_reducible apply Keeps.iteSnd
    | with_reducible refine Keeps.ofEq ?_ (by assumption) | split
    | with_reducible refine Keeps.update ?_ rfl rfl rfl rfl rfl rfl rfl rfl | intro _ | dsimp only)

theorem State.powerAccept_keeps {s0 : State} {s : State} (target : Nat) (h : Keeps s0 s) : Keeps s0 (State.powerAccept s target) := by
  unfold State.powerAccept
  repeat' (first
    | with_reducible assumption
    | (extract_lets +onlyGivenNames z; refine Keeps.cut (v := z) ?_ ?_ <;> [subst z; (intro _; clear_value z)])
    | extract_lets +onlyGivenNames z | with_reducible apply State.endSession_keeps
    | with_reducible apply State.authClose_keeps | with_reducible apply State.wr_keeps
    | with_reducible apply State.snapWant_keeps | with_reducible apply Keeps.ite | with_reducible apply Keeps.iteSnd
    | with_reducible refine Keeps.ofEq ?_ (by assumption) | split
    | with_reducible refine Keeps.update ?_ rfl rfl rfl rfl rfl rfl rfl rfl | intro _ | dsimp only)

theorem State.powerCmd_keeps {s0 : State} {s : State} (ini : Initiator) (target : Nat) (h : Keeps s0 s) : Keeps s0 (State.powerCmd s ini target) := by
  unfold State.powerCmd
  repeat' (first
    | with_reducible assumption | with_reducible apply State.cfgErr_keeps | with_reducible apply State.irq_keeps
    | with_reducible apply State.wr_keeps | with_reducible apply State.powerAccept_keeps | with_reducible apply Keeps.ite
    | split | with_reducible refine Keeps.update ?_ rfl rfl rfl rfl rfl rfl rfl rfl | intro _)

theorem State.wakeNow_keeps {s0 : State} {s : State} (src : Fin 3) (h : Keeps s0 s) : Keeps s0 (State.wakeNow s src) := by
  unfold State.wakeNow
  repeat' (first
    | with_reducible assumption
    | (extract_lets +onlyGivenNames z; refine Keeps.cut (v := z) ?_ ?_ <;> [subst z; (intro _; clear_value z)])
    | extract_lets +onlyGivenNames z | with_reducible apply State.resetTo_keeps
    | with_reducible apply State.trustShow_keeps | with_reducible apply State.wr_keeps | with_reducible apply Keeps.ite
    | with_reducible apply Keeps.iteSnd | with_reducible refine Keeps.ofEq ?_ (by assumption) | split
    | with_reducible refine Keeps.update ?_ rfl rfl rfl rfl rfl rfl rfl rfl | intro _ | dsimp only)

theorem State.wake_keeps {s0 : State} {s : State} (src : Fin 3) (h : Keeps s0 s) : Keeps s0 (State.wake s src) := by
  unfold State.wake
  repeat' (first
    | with_reducible assumption | with_reducible apply State.wakeNow_keeps | with_reducible apply Keeps.ite | split
    | with_reducible refine Keeps.update ?_ rfl rfl rfl rfl rfl rfl rfl rfl | intro _)

theorem State.clocksStop_keeps {s0 : State} {s : State} (h : Keeps s0 s) : Keeps s0 (State.clocksStop s) := by
  unfold State.clocksStop
  repeat' (first
    | with_reducible assumption
    | (extract_lets +onlyGivenNames z; refine Keeps.cut (v := z) ?_ ?_ <;> [subst z; (intro _; clear_value z)])
    | extract_lets +onlyGivenNames z | with_reducible apply State.forAll_keeps
    | with_reducible apply State.sarAbandon_keeps | with_reducible apply State.sysDown_keeps
    | with_reducible apply State.carriers_keeps | with_reducible apply State.pilotShow_keeps
    | with_reducible apply State.dsfIdle_keeps | with_reducible apply Keeps.ite | with_reducible apply Keeps.iteSnd
    | with_reducible refine Keeps.ofEq ?_ (by assumption) | split
    | with_reducible refine Keeps.update ?_ rfl rfl rfl rfl rfl rfl rfl rfl | intro _ | dsimp only)

theorem State.clocksStart_keeps {s0 : State} {s : State} (h : Keeps s0 s) : Keeps s0 (State.clocksStart s) := by
  unfold State.clocksStart
  repeat' (first
    | with_reducible assumption
    | (extract_lets +onlyGivenNames z; refine Keeps.cut (v := z) ?_ ?_ <;> [subst z; (intro _; clear_value z)])
    | extract_lets +onlyGivenNames z | with_reducible apply State.sysUp_keeps
    | with_reducible apply State.carriers_keeps | with_reducible apply State.forAll_keeps
    | with_reducible apply State.sarContinuous_keeps | with_reducible apply Keeps.ite
    | with_reducible apply Keeps.iteSnd | with_reducible refine Keeps.ofEq ?_ (by assumption) | split
    | with_reducible refine Keeps.update ?_ rfl rfl rfl rfl rfl rfl rfl rfl | intro _ | dsimp only)

theorem State.powerDone_keeps {s0 : State} {s : State} (h : Keeps s0 s) : Keeps s0 (State.powerDone s) := by
  unfold State.powerDone
  repeat' (first
    | with_reducible assumption
    | (extract_lets +onlyGivenNames z; refine Keeps.cut (v := z) ?_ ?_ <;> [subst z; (intro _; clear_value z)])
    | extract_lets +onlyGivenNames z | with_reducible apply State.powerStop_keeps | with_reducible apply State.wr_keeps
    | with_reducible apply State.irq_keeps | with_reducible apply State.atticStop_keeps
    | with_reducible apply State.metroSleep_keeps | with_reducible apply State.ethCheck_keeps
    | with_reducible apply State.clocksStart_keeps | with_reducible apply State.clocksStop_keeps
    | with_reducible apply State.wakeNow_keeps | with_reducible apply Keeps.ite | with_reducible apply Keeps.iteSnd
    | with_reducible refine Keeps.ofEq ?_ (by assumption) | split
    | with_reducible refine Keeps.update ?_ rfl rfl rfl rfl rfl rfl rfl rfl | intro _ | dsimp only)

end Sys2Proof.Machine
end

