-- ==== Sys2Proof/Laws/KeepsCommit.lean ====
section
/-!
SUPPORT. Laws/KeepsCommit.lean: every operation of Machine/Commit.lean keeps what `Keeps` says.
-/
namespace Sys2Proof.Machine

set_option linter.unusedTactic false
set_option linter.unreachableTactic false
set_option linter.unusedVariables false
set_option linter.tactic.unusedName false

theorem State.commitNow_keeps {s0 : State} {s : State} (old : State) (p : PageInfo) (pg : Nat) (inst : Nat) (h : Keeps s0 s) : Keeps s0 (State.commitNow s old p pg inst) := by
  unfold State.commitNow
  repeat' (first
    | with_reducible assumption
    | (extract_lets +onlyGivenNames z; refine Keeps.cut (v := z) ?_ ?_ <;> [subst z; (intro _; clear_value z)])
    | extract_lets +onlyGivenNames z | with_reducible apply State.boundary_keeps
    | with_reducible apply State.clockCommit_keeps | with_reducible apply State.leCommit_keeps
    | with_reducible apply State.formCommit_keeps | with_reducible apply State.pwmIdleCommit_keeps
    | with_reducible apply State.sarCommit_keeps | with_reducible apply State.pilotShow_keeps
    | with_reducible apply State.dsfCommit_keeps | with_reducible apply State.safeAccepted_keeps
    | with_reducible apply State.applySet_keeps | with_reducible apply State.gdrvCommit_keeps
    | with_reducible apply State.commitDone_keeps | with_reducible apply State.chimneyCommit_keeps
    | with_reducible apply State.atticCommit_keeps | with_reducible apply State.twitosCommit_keeps
    | with_reducible apply State.hclkShow_keeps | with_reducible apply State.ethCheck_keeps
    | with_reducible apply State.ptpCommit_keeps | with_reducible apply Keeps.ite | with_reducible apply Keeps.iteSnd
    | with_reducible refine Keeps.ofEq ?_ (by assumption) | split
    | with_reducible refine Keeps.update ?_ rfl rfl rfl rfl rfl rfl rfl rfl | intro _ | dsimp only)

theorem State.commitAccept_keeps {s0 : State} {s : State} (p : PageInfo) (pg : Nat) (inst : Nat) (h : Keeps s0 s) : Keeps s0 (State.commitAccept s p pg inst) := by
  unfold State.commitAccept
  repeat' (first
    | with_reducible assumption | with_reducible apply State.acceptSet_keeps | with_reducible apply State.wr_keeps
    | with_reducible apply State.commitNow_keeps)

theorem State.shadowCommit_keeps {s0 : State} {s : State} (ini : Initiator) (p : PageInfo) (pg : Nat) (inst : Nat) (h : Keeps s0 s) : Keeps s0 (State.shadowCommit s ini p pg inst) := by
  unfold State.shadowCommit
  repeat' (first
    | with_reducible assumption | with_reducible apply State.cfgErr_keeps | with_reducible apply State.commitAccept_keeps
    | with_reducible apply Keeps.ite | split | with_reducible refine Keeps.update ?_ rfl rfl rfl rfl rfl rfl rfl rfl | intro _)

end Sys2Proof.Machine
end

