-- ==== Sys2Proof/Laws/KeepsBus.lean ====
section
/-!
SUPPORT. Laws/KeepsBus.lean: every operation of Machine/Bus.lean keeps what `Keeps` says.
-/
namespace Sys2Proof.Machine

set_option linter.unusedTactic false
set_option linter.unreachableTactic false
set_option linter.unusedVariables false
set_option linter.tactic.unusedName false

theorem State.keyRead_keeps {s0 : State} {s : State} (ini : Initiator) (n : Nat) (h : Keeps s0 s) : Keeps s0 (State.keyRead s ini n).2 := by
  unfold State.keyRead
  repeat' (first
    | with_reducible assumption
    | (extract_lets +onlyGivenNames z; refine Keeps.cut (v := z) ?_ ?_ <;> [subst z; (intro _; clear_value z)])
    | extract_lets +onlyGivenNames z | with_reducible apply State.wr_keeps | with_reducible apply Keeps.ite | split | intro _
    | dsimp only)

theorem State.stampReadBy_keeps {s0 : State} {s : State} (ini : Initiator) (k : Fin 8) (h : Keeps s0 s) : Keeps s0 (State.stampReadBy s ini k).2 := by
  unfold State.stampReadBy
  repeat' (first
    | with_reducible assumption | with_reducible apply State.stampRead_keeps | with_reducible apply Keeps.ite | split
    | intro _)

theorem State.measSnap_keeps {s0 : State} {s : State} (h : Keeps s0 s) : Keeps s0 (State.measSnap s) := by
  unfold State.measSnap
  repeat' (first
    | with_reducible assumption
    | (extract_lets +onlyGivenNames z; refine Keeps.cut (v := z) ?_ ?_ <;> [subst z; (intro _; clear_value z)])
    | extract_lets +onlyGivenNames z | with_reducible apply State.freshWord_keeps | with_reducible apply State.wr_keeps
    | with_reducible apply Keeps.ite | with_reducible apply Keeps.iteSnd
    | with_reducible refine Keeps.ofEq ?_ (by assumption) | split
    | with_reducible refine Keeps.update ?_ rfl rfl rfl rfl rfl rfl rfl rfl | intro _ | dsimp only)

theorem State.readSnap_keeps {s0 : State} {s : State} (pg : Nat) (off : Nat) (h : Keeps s0 s) : Keeps s0 (State.readSnap s pg off) := by
  unfold State.readSnap
  repeat' (first
    | with_reducible assumption
    | (extract_lets +onlyGivenNames z; refine Keeps.cut (v := z) ?_ ?_ <;> [subst z; (intro _; clear_value z)])
    | extract_lets +onlyGivenNames z | with_reducible apply State.wr64_keeps | with_reducible apply State.measSnap_keeps
    | with_reducible apply State.timeSnap_keeps | with_reducible apply State.offsetSnap_keeps
    | with_reducible apply State.jumpSnap_keeps | with_reducible apply Keeps.ite | with_reducible apply Keeps.iteSnd
    | with_reducible refine Keeps.ofEq ?_ (by assumption) | split
    | with_reducible refine Keeps.update ?_ rfl rfl rfl rfl rfl rfl rfl rfl | intro _ | dsimp only)

theorem State.readSpecial_keeps {s0 s : State} {ini : Initiator} {pg off : Nat} {x : Nat × State} (h : Keeps s0 s)
    (e : s.readSpecial ini pg off = some x) : Keeps s0 x.2 := by
  unfold State.readSpecial at e
  split at e
  · obtain ⟨n, _, rfl⟩ := Option.map_eq_some_iff.mp e
    exact State.keyRead_keeps _ _ h
  · split at e
    · obtain ⟨n, _, rfl⟩ := Option.map_eq_some_iff.mp e
      exact State.stampReadBy_keeps _ _ h
    · split at e
      · injection e with e
        exact e ▸ h
      · contradiction

theorem State.readClear_keeps {s0 : State} {s : State} (pg : Nat) (fs : List (Fld × Nat)) (h : Keeps s0 s) : Keeps s0 (State.readClear s pg fs) := by
  unfold State.readClear
  repeat' (first
    | with_reducible assumption | with_reducible apply State.wr_keeps | with_reducible apply Keeps.foldl
    | with_reducible apply Keeps.foldlSnd | with_reducible apply Keeps.ite | split | intro _ | dsimp only)

theorem State.regRead_keeps {s0 s : State} (ini : Initiator) (p : PageInfo) (pg inst off : Nat) (h : Keeps s0 s) :
    Keeps s0 (s.regRead ini p pg inst off).2 := by
  unfold State.regRead
  split
  · exact h
  · split
    · exact State.readSpecial_keeps h ‹_›
    · exact State.readClear_keeps _ _ (State.readSnap_keeps _ _ h)

theorem State.atticRead_keeps {s0 : State} {s : State} (bad : List Nat) (a : Nat) (h : Keeps s0 s) : Keeps s0 (State.atticRead s bad a).2 := by
  unfold State.atticRead
  repeat' (first
    | with_reducible assumption
    | (extract_lets +onlyGivenNames z; refine Keeps.cut (v := z) ?_ ?_ <;> [subst z; (intro _; clear_value z)])
    | extract_lets +onlyGivenNames z | with_reducible apply State.bump_keeps | with_reducible apply State.wr_keeps
    | with_reducible apply State.irq_keeps | with_reducible apply Keeps.ite | split | intro _ | dsimp only)

theorem State.sramAnswer_keeps {s0 s : State} (a : Nat) (h : Keeps s0 s) : Keeps s0 (s.sramAnswer a).2 := by
  have k := State.sramRead_keeps a h
  unfold State.sramAnswer
  split
  · exact Keeps.ofEq k ‹_›
  · exact Keeps.ofEq k ‹_›

theorem State.atticAnswer_keeps {s0 s : State} (bad : List Nat) (a : Nat) (h : Keeps s0 s) : Keeps s0 (s.atticAnswer bad a).2 := by
  have k := State.atticRead_keeps bad a h
  unfold State.atticAnswer
  generalize s.atticRead bad a = x at k ⊢
  exact k

theorem State.windowRead_keeps {s0 s : State} (ini : Initiator) (a : Nat) (h : Keeps s0 s) : Keeps s0 (s.windowRead ini a).2 := by
  unfold State.windowRead
  split
  · exact h
  · rename_i p inst _
    split
    · exact h
    · have k := State.regRead_keeps ini p (pageNo a) inst (pageOff a) h
      generalize s.regRead ini p (pageNo a) inst (pageOff a) = x at k ⊢
      exact k

theorem State.busRead_keeps {s0 s : State} (ini : Initiator) (bad : List Nat) (a : Nat) (h : Keeps s0 s) :
    Keeps s0 (s.busRead ini bad a).2 := by
  unfold State.busRead
  split
  · exact h
  · split
    all_goals first
      | exact h | exact State.sramAnswer_keeps _ h | exact State.atticAnswer_keeps _ _ h | exact State.windowRead_keeps _ _ h

end Sys2Proof.Machine
end

