-- ==== Sys2Proof/Laws/KeepsPages.lean ====
section
/-!
SUPPORT. Laws/KeepsPages.lean: every operation of Machine/Pages.lean keeps what `Keeps` says.
-/
namespace Sys2Proof.Machine

set_option linter.unusedTactic false
set_option linter.unreachableTactic false
set_option linter.unusedVariables false
set_option linter.tactic.unusedName false

theorem State.envOf_keeps {s0 : State} {s : State} (e : Option Env) (h : Keeps s0 s) : Keeps s0 (State.envOf s e).2 := by
  unfold State.envOf
  repeat' (first
    | with_reducible assumption
    | (extract_lets +onlyGivenNames z; refine Keeps.cut (v := z) ?_ ?_ <;> [subst z; (intro _; clear_value z)])
    | extract_lets +onlyGivenNames z | with_reducible apply Keeps.ite | with_reducible apply Keeps.iteSnd
    | with_reducible refine Keeps.ofEq ?_ (by assumption) | split
    | with_reducible refine Keeps.update ?_ rfl rfl rfl rfl rfl rfl rfl rfl | intro _ | dsimp only)

theorem State.writeField_keeps {s0 : State} {s : State} (pg : Nat) (f : Fld) (i : Nat) (v : Nat) (h : Keeps s0 s) : Keeps s0 (State.writeField s pg f i v) := by
  unfold State.writeField
  repeat' (first
    | with_reducible assumption | with_reducible apply State.wr_keeps | with_reducible apply State.stage_keeps | split
    | with_reducible refine Keeps.update ?_ rfl rfl rfl rfl rfl rfl rfl rfl)

theorem State.writeFields_keeps {s0 : State} {s : State} (pg : Nat) (fs : List (Fld × Nat)) (v : Nat) (h : Keeps s0 s) : Keeps s0 (State.writeFields s pg fs v) := by
  unfold State.writeFields
  repeat' (first
    | with_reducible assumption
    | (extract_lets +onlyGivenNames z; refine Keeps.cut (v := z) ?_ ?_ <;> [subst z; (intro _; clear_value z)])
    | extract_lets +onlyGivenNames z | with_reducible apply State.writeField_keeps | with_reducible apply State.msi_keeps
    | with_reducible apply Keeps.foldl | with_reducible apply Keeps.foldlSnd | with_reducible apply Keeps.ite | split
    | intro _ | dsimp only)

theorem State.headerWrite_keeps {s0 : State} {s : State} (ini : Initiator) (p : PageInfo) (pg : Nat) (inst : Nat) (off : Nat) (v : Nat) (h : Keeps s0 s) : Keeps s0 (State.headerWrite s ini p pg inst off v) := by
  unfold State.headerWrite
  repeat' (first
    | with_reducible assumption | with_reducible apply State.wr_keeps | with_reducible apply State.msi_keeps
    | with_reducible apply State.shadowCommit_keeps | with_reducible apply State.writeFields_keeps
    | with_reducible apply Keeps.ite | split | with_reducible refine Keeps.update ?_ rfl rfl rfl rfl rfl rfl rfl rfl | intro _)

theorem State.orRefuse_keeps {s0 s : State} {ini : Initiator} {pg off : Nat} {bad : Option Nat} {f : State → State}
    (h : Keeps s0 s) (hf : ∀ s, Keeps s0 s → Keeps s0 (f s)) : Keeps s0 (s.orRefuse ini pg off bad f) := by
  unfold State.orRefuse
  split
  · exact State.cfgErr_keeps _ _ _ _ h
  · exact hf s h

theorem State.resetWrite_keeps {s0 : State} {s : State} (ini : Initiator) (fs : List (Fld × Nat)) (off : Nat) (v : Nat) (h : Keeps s0 s) : Keeps s0 (State.resetWrite s ini fs off v) := by
  unfold State.resetWrite
  repeat' (first
    | with_reducible assumption | with_reducible apply State.orRefuse_keeps | with_reducible apply State.resetTo_keeps
    | with_reducible apply State.writeFields_keeps | with_reducible apply Keeps.ite | split | intro _ | dsimp only)

theorem State.keyRelease_keeps {s0 : State} {s : State} (ini : Initiator) (n : Nat) (off : Nat) (h : Keeps s0 s) : Keeps s0 (State.keyRelease s ini n off) := by
  unfold State.keyRelease
  repeat' (first
    | with_reducible assumption | with_reducible apply State.freeKey_keeps | with_reducible apply State.cfgErr_keeps
    | with_reducible apply Keeps.ite | split | intro _)

theorem State.forceRelease_keeps {s0 : State} {s : State} (n : Nat) (h : Keeps s0 s) : Keeps s0 (State.forceRelease s n) := by
  unfold State.forceRelease
  repeat' (first
    | with_reducible assumption
    | (extract_lets +onlyGivenNames z; refine Keeps.cut (v := z) ?_ ?_ <;> [subst z; (intro _; clear_value z)])
    | extract_lets +onlyGivenNames z | with_reducible apply State.freeKey_keeps | with_reducible apply State.bump_keeps
    | with_reducible apply State.irq_keeps | with_reducible apply Keeps.ite | split | intro _ | dsimp only)

theorem State.keyrackWrite_keeps {s0 : State} {s : State} (ini : Initiator) (fs : List (Fld × Nat)) (off : Nat) (v : Nat) (h : Keeps s0 s) : Keeps s0 (State.keyrackWrite s ini fs off v) := by
  unfold State.keyrackWrite
  repeat' (first
    | with_reducible assumption | with_reducible apply State.keyRelease_keeps | with_reducible apply State.cfgErr_keeps
    | with_reducible apply State.writeFields_keeps | with_reducible apply State.freeKeysOf_keeps
    | with_reducible apply State.forceRelease_keeps | with_reducible apply Keeps.ite | split
    | with_reducible refine Keeps.update ?_ rfl rfl rfl rfl rfl rfl rfl rfl | intro _)

theorem State.eoiPort_keeps {s0 : State} {s : State} (p : HostPort) (h : Keeps s0 s) : Keeps s0 (State.eoiPort s p) := by
  unfold State.eoiPort
  repeat' (first
    | with_reducible assumption | with_reducible apply State.setPorch_keeps | with_reducible apply Keeps.ite | split
    | with_reducible refine Keeps.update ?_ rfl rfl rfl rfl rfl rfl rfl rfl | intro _)

theorem State.eoi_keeps {s0 : State} {s : State} (t : Nat) (h : Keeps s0 s) : Keeps s0 (State.eoi s t) := by
  unfold State.eoi
  repeat' (first
    | with_reducible assumption | with_reducible apply State.eoiPort_keeps | with_reducible apply Keeps.ite | split | intro _)

theorem State.doorbell_keeps {s0 : State} {s : State} (src : Nat) (h : Keeps s0 s) : Keeps s0 (State.doorbell s src) := by
  unfold State.doorbell
  repeat' (first
    | with_reducible assumption | with_reducible apply State.putBit_keeps | with_reducible apply State.msi_keeps
    | with_reducible apply Keeps.ite | split | intro _)

theorem State.irqWrite_keeps {s0 : State} {s : State} (ini : Initiator) (fs : List (Fld × Nat)) (off : Nat) (v : Nat) (h : Keeps s0 s) : Keeps s0 (State.irqWrite s ini fs off v) := by
  unfold State.irqWrite
  repeat' (first
    | with_reducible assumption | with_reducible apply State.eoi_keeps | with_reducible apply State.cfgErr_keeps
    | with_reducible apply State.doorbell_keeps | with_reducible apply State.writeFields_keeps
    | with_reducible apply Keeps.ite | split | with_reducible refine Keeps.update ?_ rfl rfl rfl rfl rfl rfl rfl rfl | intro _)

theorem State.leCtrl_keeps {s0 : State} {s : State} (ini : Initiator) (n : Fin 16) (v : Nat) (h : Keeps s0 s) : Keeps s0 (State.leCtrl s ini n v) := by
  unfold State.leCtrl
  repeat' (first
    | with_reducible assumption
    | (extract_lets +onlyGivenNames z; refine Keeps.cut (v := z) ?_ ?_ <;> [subst z; (intro _; clear_value z)])
    | extract_lets +onlyGivenNames z | with_reducible apply State.orRefuse_keeps | with_reducible apply State.coefSwap_keeps
    | with_reducible apply State.leResume_keeps | with_reducible apply Keeps.ite | split | intro _ | dsimp only)

theorem State.spWrite_keeps {s0 : State} {s : State} (e : Option Env) (ini : Initiator) (n : Nat) (k : Nat) (off : Nat) (v : Nat) (h : Keeps s0 s) : Keeps s0 (State.spWrite s e ini n k off v) := by
  unfold State.spWrite
  repeat' (first
    | with_reducible assumption | with_reducible apply State.cfgErr_keeps | with_reducible apply State.wr_keeps
    | with_reducible apply Keeps.ite | split | intro _)

theorem State.leWritePage_keeps {s0 : State} {s : State} (e : Option Env) (ini : Initiator) (n : Fin 16) (fs : List (Fld × Nat)) (off : Nat) (v : Nat) (h : Keeps s0 s) : Keeps s0 (State.leWritePage s e ini n fs off v) := by
  unfold State.leWritePage
  repeat' (first
    | with_reducible assumption
    | (extract_lets +onlyGivenNames z; refine Keeps.cut (v := z) ?_ ?_ <;> [subst z; (intro _; clear_value z)])
    | extract_lets +onlyGivenNames z | with_reducible apply State.spWrite_keeps | with_reducible apply State.writeFields_keeps
    | with_reducible apply State.leCtrl_keeps | with_reducible apply Keeps.ite | split
    | with_reducible refine Keeps.update ?_ rfl rfl rfl rfl rfl rfl rfl rfl | intro _ | dsimp only)

theorem State.lpsWrite_keeps {s0 : State} {s : State} (ini : Initiator) (fs : List (Fld × Nat)) (off : Nat) (v : Nat) (h : Keeps s0 s) : Keeps s0 (State.lpsWrite s ini fs off v) := by
  unfold State.lpsWrite
  repeat' (first
    | with_reducible assumption | with_reducible apply State.orRefuse_keeps | with_reducible apply State.loadStart_keeps
    | with_reducible apply State.libStart_keeps | with_reducible apply State.writeFields_keeps
    | with_reducible apply Keeps.ite | split | intro _ | dsimp only)

theorem State.pwmWrite_keeps {s0 : State} {s : State} (e : Option Env) (n : Fin 16) (fs : List (Fld × Nat)) (off : Nat) (v : Nat) (h : Keeps s0 s) : Keeps s0 (State.pwmWrite s e n fs off v) := by
  unfold State.pwmWrite
  repeat' (first
    | with_reducible assumption
    | (extract_lets +onlyGivenNames z; refine Keeps.cut (v := z) ?_ ?_ <;> [subst z; (intro _; clear_value z)])
    | extract_lets +onlyGivenNames z | with_reducible apply State.stageCmp_keeps
    | with_reducible apply State.writeFields_keeps | with_reducible apply State.recheckDrive_keeps
    | with_reducible apply Keeps.ite | split | with_reducible refine Keeps.update ?_ rfl rfl rfl rfl rfl rfl rfl rfl | intro _
    | dsimp only)

theorem State.fuseWrite_keeps {s0 : State} {s : State} (fs : List (Fld × Nat)) (off : Nat) (v : Nat) (h : Keeps s0 s) : Keeps s0 (State.fuseWrite s fs off v) := by
  unfold State.fuseWrite
  repeat' (first
    | with_reducible assumption
    | (extract_lets +onlyGivenNames z; refine Keeps.cut (v := z) ?_ ?_ <;> [subst z; (intro _; clear_value z)])
    | extract_lets +onlyGivenNames z | with_reducible apply State.clearSources_keeps
    | with_reducible apply State.clearUnits_keeps | with_reducible apply State.writeFields_keeps
    | with_reducible apply State.tripSource_keeps | with_reducible apply State.setSource_keeps
    | with_reducible apply Keeps.ite | with_reducible apply Keeps.iteSnd
    | with_reducible refine Keeps.ofEq ?_ (by assumption) | split
    | with_reducible refine Keeps.update ?_ rfl rfl rfl rfl rfl rfl rfl rfl | intro _ | dsimp only)

theorem State.sarWrite_keeps {s0 : State} {s : State} (u : Fin 6) (fs : List (Fld × Nat)) (off : Nat) (v : Nat) (h : Keeps s0 s) : Keeps s0 (State.sarWrite s u fs off v) := by
  unfold State.sarWrite
  repeat' (first
    | with_reducible assumption
    | (extract_lets +onlyGivenNames z; refine Keeps.cut (v := z) ?_ ?_ <;> [subst z; (intro _; clear_value z)])
    | extract_lets +onlyGivenNames z | with_reducible apply State.writeFields_keeps
    | with_reducible apply State.sarRegTrigger_keeps | with_reducible apply State.sarInjTrigger_keeps
    | with_reducible apply Keeps.ite | split | intro _ | dsimp only)

theorem State.portWritePage_keeps {s0 : State} {s : State} (ini : Initiator) (p : Fin 8) (fs : List (Fld × Nat)) (off : Nat) (v : Nat) (h : Keeps s0 s) : Keeps s0 (State.portWritePage s ini p fs off v) := by
  unfold State.portWritePage
  repeat' (first
    | with_reducible assumption | with_reducible apply State.orRefuse_keeps | with_reducible apply State.portCmd_keeps
    | with_reducible apply State.cfgErr_keeps | with_reducible apply State.writeFields_keeps | with_reducible apply Keeps.ite
    | split | intro _ | dsimp only)

theorem State.pilotWrite_keeps {s0 : State} {s : State} (ini : Initiator) (fs : List (Fld × Nat)) (off : Nat) (v : Nat) (h : Keeps s0 s) : Keeps s0 (State.pilotWrite s ini fs off v) := by
  unfold State.pilotWrite
  repeat' (first
    | with_reducible assumption | with_reducible apply State.cfgErr_keeps | with_reducible apply State.genWrite_keeps
    | with_reducible apply State.writeFields_keeps | with_reducible apply Keeps.ite | split
    | with_reducible refine Keeps.update ?_ rfl rfl rfl rfl rfl rfl rfl rfl | intro _)

theorem State.pantryWrite_keeps {s0 : State} {s : State} (ini : Initiator) (fs : List (Fld × Nat)) (off : Nat) (v : Nat) (h : Keeps s0 s) : Keeps s0 (State.pantryWrite s ini fs off v) := by
  unfold State.pantryWrite
  repeat' (first
    | with_reducible assumption | with_reducible apply State.orRefuse_keeps | with_reducible apply State.pantryCmd_keeps
    | with_reducible apply State.ackSeq_keeps | with_reducible apply State.readStart_keeps
    | with_reducible apply State.writeFields_keeps | with_reducible apply Keeps.ite | split
    | with_reducible refine Keeps.update ?_ rfl rfl rfl rfl rfl rfl rfl rfl | intro _ | dsimp only)

theorem State.wdsvcWrite_keeps {s0 : State} {s : State} (ini : Initiator) (x : Fin 2) (off : Nat) (v : Nat) (h : Keeps s0 s) : Keeps s0 (State.wdsvcWrite s ini x off v) := by
  unfold State.wdsvcWrite
  repeat' (first
    | with_reducible assumption | with_reducible apply State.wdService_keeps | with_reducible apply State.cfgErr_keeps
    | with_reducible apply Keeps.ite | split | intro _)

theorem State.wdcfgWrite_keeps {s0 : State} {s : State} (ini : Initiator) (x : Fin 2) (fs : List (Fld × Nat)) (off : Nat) (v : Nat) (h : Keeps s0 s) : Keeps s0 (State.wdcfgWrite s ini x fs off v) := by
  unfold State.wdcfgWrite
  repeat' (first
    | with_reducible assumption
    | (extract_lets +onlyGivenNames z; refine Keeps.cut (v := z) ?_ ?_ <;> [subst z; (intro _; clear_value z)])
    | extract_lets +onlyGivenNames z | with_reducible apply State.cfgErr_keeps | with_reducible apply State.writeFields_keeps
    | with_reducible apply State.wdConfig_keeps | with_reducible apply Keeps.ite | split | intro _ | dsimp only)

theorem State.wdclearWrite_keeps {s0 : State} {s : State} (ini : Initiator) (off : Nat) (v : Nat) (h : Keeps s0 s) : Keeps s0 (State.wdclearWrite s ini off v) := by
  unfold State.wdclearWrite
  repeat' (first
    | with_reducible assumption | with_reducible apply State.wdClear_keeps | with_reducible apply State.cfgErr_keeps
    | with_reducible apply Keeps.ite | split | intro _)

theorem State.safeioWrite_keeps {s0 : State} {s : State} (ini : Initiator) (fs : List (Fld × Nat)) (off : Nat) (v : Nat) (h : Keeps s0 s) : Keeps s0 (State.safeioWrite s ini fs off v) := by
  unfold State.safeioWrite
  repeat' (first
    | with_reducible assumption | with_reducible apply State.wdcfgWrite_keeps | with_reducible apply State.wdsvcWrite_keeps
    | with_reducible apply State.safeAck_keeps | with_reducible apply State.wdclearWrite_keeps
    | with_reducible apply State.writeFields_keeps | with_reducible apply State.demand_keeps | with_reducible apply Keeps.ite
    | split | with_reducible refine Keeps.update ?_ rfl rfl rfl rfl rfl rfl rfl rfl | intro _)

theorem State.safenetWrite_keeps {s0 : State} {s : State} (fs : List (Fld × Nat)) (off : Nat) (v : Nat) (h : Keeps s0 s) : Keeps s0 (State.safenetWrite s fs off v) := by
  unfold State.safenetWrite
  repeat' (first
    | with_reducible assumption | with_reducible apply State.netAck_keeps | with_reducible apply State.writeFields_keeps
    | with_reducible apply Keeps.ite | split | intro _)

theorem State.gdrvCtrl_keeps {s0 : State} {s : State} (e : Option Env) (ini : Initiator) (n : Fin 12) (v : Nat) (h : Keeps s0 s) : Keeps s0 (State.gdrvCtrl s e ini n v) := by
  unfold State.gdrvCtrl
  repeat' (first
    | with_reducible assumption
    | (extract_lets +onlyGivenNames z; refine Keeps.cut (v := z) ?_ ?_ <;> [subst z; (intro _; clear_value z)])
    | extract_lets +onlyGivenNames z | with_reducible apply State.legClear_keeps | with_reducible apply State.envOf_keeps
    | with_reducible apply State.wr_keeps | with_reducible apply State.orRefuse_keeps
    | with_reducible apply State.diagStart_keeps | with_reducible apply Keeps.ite
    | with_reducible refine Keeps.ofEq ?_ (by assumption) | split | intro _ | dsimp only)

theorem State.gdrvWrite_keeps {s0 : State} {s : State} (e : Option Env) (ini : Initiator) (n : Fin 12) (fs : List (Fld × Nat)) (off : Nat) (v : Nat) (h : Keeps s0 s) : Keeps s0 (State.gdrvWrite s e ini n fs off v) := by
  unfold State.gdrvWrite
  repeat' (first
    | with_reducible assumption
    | (extract_lets +onlyGivenNames z; refine Keeps.cut (v := z) ?_ ?_ <;> [subst z; (intro _; clear_value z)])
    | extract_lets +onlyGivenNames z | with_reducible apply State.writeFields_keeps
    | with_reducible apply State.gdrvCtrl_keeps | with_reducible apply Keeps.ite | split | intro _ | dsimp only)

theorem State.chimneyWrite_keeps {s0 : State} {s : State} (e : Option Env) (ini : Initiator) (fs : List (Fld × Nat)) (off : Nat) (v : Nat) (h : Keeps s0 s) : Keeps s0 (State.chimneyWrite s e ini fs off v) := by
  unfold State.chimneyWrite
  repeat' (first
    | with_reducible assumption
    | (extract_lets +onlyGivenNames z; refine Keeps.cut (v := z) ?_ ?_ <;> [subst z; (intro _; clear_value z)])
    | extract_lets +onlyGivenNames z | with_reducible apply State.envOf_keeps | with_reducible apply State.wr_keeps
    | with_reducible apply State.orRefuse_keeps | with_reducible apply State.clearOv_keeps
    | with_reducible apply State.clearFirst_keeps | with_reducible apply State.writeFields_keeps
    | with_reducible apply Keeps.ite | with_reducible refine Keeps.ofEq ?_ (by assumption) | split | intro _ | dsimp only)

theorem State.axisWrite_keeps {s0 : State} {s : State} (ini : Initiator) (a : Fin 4) (fs : List (Fld × Nat)) (off : Nat) (v : Nat) (h : Keeps s0 s) : Keeps s0 (State.axisWrite s ini a fs off v) := by
  unfold State.axisWrite
  repeat' (first
    | with_reducible assumption
    | (extract_lets +onlyGivenNames z; refine Keeps.cut (v := z) ?_ ?_ <;> [subst z; (intro _; clear_value z)])
    | extract_lets +onlyGivenNames z | with_reducible apply State.cfgErr_keeps | with_reducible apply State.axisCmd_keeps
    | with_reducible apply State.gearFlush_keeps | with_reducible apply State.orRefuse_keeps
    | with_reducible apply State.gearPush_keeps | with_reducible apply State.writeFields_keeps
    | with_reducible apply Keeps.ite | split | intro _ | dsimp only)

theorem State.capDo_keeps {s0 : State} {s : State} (n : Fin 8) (code : Nat) (h : Keeps s0 s) : Keeps s0 (State.capDo s n code) := by
  unfold State.capDo
  repeat' (first
    | with_reducible assumption
    | (extract_lets +onlyGivenNames z; refine Keeps.cut (v := z) ?_ ?_ <;> [subst z; (intro _; clear_value z)])
    | extract_lets +onlyGivenNames z | with_reducible apply State.capStart_keeps
    | with_reducible apply State.capStop_keeps | with_reducible apply State.capTrigger_keeps
    | with_reducible apply State.capClear_keeps | with_reducible apply Keeps.ite | with_reducible apply Keeps.iteSnd
    | with_reducible refine Keeps.ofEq ?_ (by assumption) | split
    | with_reducible refine Keeps.update ?_ rfl rfl rfl rfl rfl rfl rfl rfl | intro _ | dsimp only)

theorem State.atticWrite_keeps {s0 : State} {s : State} (ini : Initiator) (fs : List (Fld × Nat)) (off : Nat) (v : Nat) (h : Keeps s0 s) : Keeps s0 (State.atticWrite s ini fs off v) := by
  unfold State.atticWrite
  repeat' (first
    | with_reducible assumption | with_reducible apply State.orRefuse_keeps | with_reducible apply State.capDo_keeps
    | with_reducible apply State.writeFields_keeps | split | with_reducible refine Keeps.update ?_ rfl rfl rfl rfl rfl rfl rfl rfl
    | intro _ | dsimp only)

theorem State.redunWrite_keeps {s0 : State} {s : State} (ini : Initiator) (fs : List (Fld × Nat)) (off : Nat) (v : Nat) (h : Keeps s0 s) : Keeps s0 (State.redunWrite s ini fs off v) := by
  unfold State.redunWrite
  repeat' (first
    | with_reducible assumption | with_reducible apply State.orRefuse_keeps | with_reducible apply State.redunCmd_keeps
    | with_reducible apply State.xferStart_keeps | with_reducible apply State.writeFields_keeps
    | with_reducible apply Keeps.ite | split | intro _ | dsimp only)

theorem State.ethWrite_keeps {s0 : State} {s : State} (ini : Initiator) (fs : List (Fld × Nat)) (off : Nat) (v : Nat) (h : Keeps s0 s) : Keeps s0 (State.ethWrite s ini fs off v) := by
  unfold State.ethWrite
  repeat' (first
    | with_reducible assumption
    | (extract_lets +onlyGivenNames z; refine Keeps.cut (v := z) ?_ ?_ <;> [subst z; (intro _; clear_value z)])
    | extract_lets +onlyGivenNames z | with_reducible apply State.orRefuse_keeps
    | with_reducible apply State.mdioStart_keeps | with_reducible apply State.writeFields_keeps
    | with_reducible apply State.txStart_keeps | with_reducible apply Keeps.ite | with_reducible apply Keeps.iteSnd
    | with_reducible refine Keeps.ofEq ?_ (by assumption) | split
    | with_reducible refine Keeps.update ?_ rfl rfl rfl rfl rfl rfl rfl rfl | intro _ | dsimp only)

theorem State.ptpWrite_keeps {s0 : State} {s : State} (ini : Initiator) (fs : List (Fld × Nat)) (off : Nat) (v : Nat) (h : Keeps s0 s) : Keeps s0 (State.ptpWrite s ini fs off v) := by
  unfold State.ptpWrite
  repeat' (first
    | with_reducible assumption
    | (extract_lets +onlyGivenNames z; refine Keeps.cut (v := z) ?_ ?_ <;> [subst z; (intro _; clear_value z)])
    | extract_lets +onlyGivenNames z | with_reducible apply State.setRequest_keeps
    | with_reducible apply State.orRefuse_keeps | with_reducible apply State.stepRequest_keeps
    | with_reducible apply State.cfgErr_keeps | with_reducible apply State.writeFields_keeps
    | with_reducible apply State.jumpCmd_keeps | with_reducible apply State.ptpUnlock_keeps
    | with_reducible apply Keeps.ite | with_reducible apply Keeps.iteSnd
    | with_reducible refine Keeps.ofEq ?_ (by assumption) | split
    | with_reducible refine Keeps.update ?_ rfl rfl rfl rfl rfl rfl rfl rfl | intro _ | dsimp only)

theorem State.cellarDo_keeps {s0 : State} {s : State} (e : Option Env) (op : Nat) (type : Nat) (h : Keeps s0 s) : Keeps s0 (State.cellarDo s e op type) := by
  unfold State.cellarDo
  repeat' (first
    | with_reducible assumption
    | (extract_lets +onlyGivenNames z; refine Keeps.cut (v := z) ?_ ?_ <;> [subst z; (intro _; clear_value z)])
    | extract_lets +onlyGivenNames z | with_reducible apply State.provision_keeps
    | with_reducible apply State.seal_keeps | with_reducible apply State.returnCmd_keeps
    | with_reducible apply State.advance_keeps | with_reducible apply State.envOf_keeps
    | with_reducible apply State.checkSlot_keeps | with_reducible apply State.ramBoot_keeps
    | with_reducible apply Keeps.ite | with_reducible apply Keeps.iteSnd
    | with_reducible refine Keeps.ofEq ?_ (by assumption) | split
    | with_reducible refine Keeps.update ?_ rfl rfl rfl rfl rfl rfl rfl rfl | intro _ | dsimp only)

theorem State.cellarWrite_keeps {s0 : State} {s : State} (e : Option Env) (ini : Initiator) (fs : List (Fld × Nat)) (off : Nat) (v : Nat) (h : Keeps s0 s) : Keeps s0 (State.cellarWrite s e ini fs off v) := by
  unfold State.cellarWrite
  repeat' (first
    | with_reducible assumption
    | (extract_lets +onlyGivenNames z; refine Keeps.cut (v := z) ?_ ?_ <;> [subst z; (intro _; clear_value z)])
    | extract_lets +onlyGivenNames z | with_reducible apply State.orRefuse_keeps | with_reducible apply State.cellarDo_keeps
    | with_reducible apply State.writeFields_keeps | with_reducible apply Keeps.ite | split | intro _ | dsimp only)

theorem State.attestWrite_keeps {s0 : State} {s : State} (ini : Initiator) (fs : List (Fld × Nat)) (off : Nat) (v : Nat) (h : Keeps s0 s) : Keeps s0 (State.attestWrite s ini fs off v) := by
  unfold State.attestWrite
  repeat' (first
    | with_reducible assumption | with_reducible apply State.orRefuse_keeps | with_reducible apply State.attestGo_keeps
    | with_reducible apply State.writeFields_keeps | with_reducible apply Keeps.ite | split | intro _ | dsimp only)

theorem State.debugWrite_keeps {s0 : State} {s : State} (ini : Initiator) (fs : List (Fld × Nat)) (off : Nat) (v : Nat) (h : Keeps s0 s) : Keeps s0 (State.debugWrite s ini fs off v) := by
  unfold State.debugWrite
  repeat' (first
    | with_reducible assumption
    | (extract_lets +onlyGivenNames z; refine Keeps.cut (v := z) ?_ ?_ <;> [subst z; (intro _; clear_value z)])
    | extract_lets +onlyGivenNames z | with_reducible apply State.chalNew_keeps
    | with_reducible apply State.orRefuse_keeps | with_reducible apply State.authGo_keeps
    | with_reducible apply State.endSession_keeps | with_reducible apply State.leHalts_keeps
    | with_reducible apply State.leResumes_keeps | with_reducible apply State.leStepOne_keeps
    | with_reducible apply State.writeFields_keeps | with_reducible apply Keeps.ite | with_reducible apply Keeps.iteSnd
    | with_reducible refine Keeps.ofEq ?_ (by assumption) | split
    | with_reducible refine Keeps.update ?_ rfl rfl rfl rfl rfl rfl rfl rfl | intro _ | dsimp only)

theorem State.xflashWrite_keeps {s0 : State} {s : State} (e : Option Env) (ini : Initiator) (fs : List (Fld × Nat)) (off : Nat) (v : Nat) (h : Keeps s0 s) : Keeps s0 (State.xflashWrite s e ini fs off v) := by
  unfold State.xflashWrite
  repeat' (first
    | with_reducible assumption
    | (extract_lets +onlyGivenNames z; refine Keeps.cut (v := z) ?_ ?_ <;> [subst z; (intro _; clear_value z)])
    | extract_lets +onlyGivenNames z | with_reducible apply State.orRefuse_keeps
    | with_reducible apply State.writeFields_keeps | with_reducible apply State.setFlag_keeps
    | with_reducible apply State.envOf_keeps | with_reducible apply State.flashStart_keeps | with_reducible apply Keeps.ite
    | with_reducible refine Keeps.ofEq ?_ (by assumption) | split | intro _ | dsimp only)

theorem State.blockWrite_keeps {s0 : State} {s : State} (e : Option Env) (ini : Initiator) (p : PageInfo) (pg : Nat) (inst : Nat) (off : Nat) (fs : List (Fld × Nat)) (v : Nat) (h : Keeps s0 s) : Keeps s0 (State.blockWrite s e ini p pg inst off fs v) := by
  unfold State.blockWrite
  repeat' (first
    | with_reducible assumption
    | (extract_lets +onlyGivenNames z; refine Keeps.cut (v := z) ?_ ?_ <;> [subst z; (intro _; clear_value z)])
    | extract_lets +onlyGivenNames z | with_reducible apply State.modeRequest_keeps
    | with_reducible apply State.powerCmd_keeps | with_reducible apply State.writeFields_keeps
    | with_reducible apply State.resetWrite_keeps | with_reducible apply State.keyrackWrite_keeps
    | with_reducible apply State.irqWrite_keeps | with_reducible apply State.leWritePage_keeps
    | with_reducible apply State.lpsWrite_keeps | with_reducible apply State.pwmWrite_keeps
    | with_reducible apply State.fuseWrite_keeps | with_reducible apply State.sarWrite_keeps
    | with_reducible apply State.portWritePage_keeps | with_reducible apply State.pilotWrite_keeps
    | with_reducible apply State.pantryWrite_keeps | with_reducible apply State.safeioWrite_keeps
    | with_reducible apply State.safenetWrite_keeps | with_reducible apply State.gdrvWrite_keeps
    | with_reducible apply State.chimneyWrite_keeps | with_reducible apply State.axisWrite_keeps
    | with_reducible apply State.atticWrite_keeps | with_reducible apply State.redunWrite_keeps
    | with_reducible apply State.ethWrite_keeps | with_reducible apply State.ptpWrite_keeps
    | with_reducible apply State.cellarWrite_keeps | with_reducible apply State.attestWrite_keeps
    | with_reducible apply State.debugWrite_keeps | with_reducible apply State.xflashWrite_keeps
    | with_reducible apply Keeps.ite | with_reducible apply Keeps.iteSnd
    | with_reducible refine Keeps.ofEq ?_ (by assumption) | split
    | with_reducible refine Keeps.update ?_ rfl rfl rfl rfl rfl rfl rfl rfl | intro _ | dsimp only)

theorem State.noteRefused_keeps {s0 : State} {s : State} (pg : Nat) (off : Nat) (h : Keeps s0 s) : Keeps s0 (State.noteRefused s pg off) := by
  unfold State.noteRefused
  repeat' (first
    | with_reducible assumption
    | (extract_lets +onlyGivenNames z; refine Keeps.cut (v := z) ?_ ?_ <;> [subst z; (intro _; clear_value z)])
    | extract_lets +onlyGivenNames z | with_reducible apply State.wr_keeps | with_reducible apply Keeps.ite
    | with_reducible apply Keeps.iteSnd | with_reducible refine Keeps.ofEq ?_ (by assumption) | split
    | with_reducible refine Keeps.update ?_ rfl rfl rfl rfl rfl rfl rfl rfl | intro _ | dsimp only)

theorem State.regWrite_keeps {s0 : State} {s : State} (e : Option Env) (ini : Initiator) (p : PageInfo) (pg : Nat) (inst : Nat) (off : Nat) (v : Nat) (h : Keeps s0 s) : Keeps s0 (State.regWrite s e ini p pg inst off v) := by
  unfold State.regWrite
  repeat' (first
    | with_reducible assumption
    | (extract_lets +onlyGivenNames z; refine Keeps.cut (v := z) ?_ ?_ <;> [subst z; (intro _; clear_value z)])
    | extract_lets +onlyGivenNames z | with_reducible apply State.cfgErr_keeps
    | with_reducible apply State.noteRefused_keeps | with_reducible apply State.headerWrite_keeps
    | with_reducible apply State.blockWrite_keeps | with_reducible apply Keeps.ite | with_reducible apply Keeps.iteSnd
    | with_reducible refine Keeps.ofEq ?_ (by assumption) | split
    | with_reducible refine Keeps.update ?_ rfl rfl rfl rfl rfl rfl rfl rfl | intro _ | dsimp only)

theorem State.dmemWrite_keeps {s0 : State} {s : State} (a : Nat) (be : BitVec 4) (v : Word) (h : Keeps s0 s) : Keeps s0 (State.dmemWrite s a be v).2 := by
  unfold State.dmemWrite
  repeat' (first
    | with_reducible assumption
    | (extract_lets +onlyGivenNames z; refine Keeps.cut (v := z) ?_ ?_ <;> [subst z; (intro _; clear_value z)])
    | extract_lets +onlyGivenNames z | with_reducible apply State.setDmem_keeps | with_reducible apply Keeps.foldl
    | with_reducible apply Keeps.foldlSnd | with_reducible apply Keeps.ite
    | with_reducible refine Keeps.ofEq ?_ (by assumption) | split | intro _ | dsimp only)

theorem State.sramTake_keeps {s0 : State} {s : State} (a : Nat) (be : BitVec 4) (v : Word) (h : Keeps s0 s) : Keeps s0 (State.sramTake s a be v).2 := by
  unfold State.sramTake
  repeat' (first
    | with_reducible assumption
    | (extract_lets +onlyGivenNames z; refine Keeps.cut (v := z) ?_ ?_ <;> [subst z; (intro _; clear_value z)])
    | extract_lets +onlyGivenNames z | with_reducible apply State.sramWrite_keeps | with_reducible apply Keeps.ite
    | with_reducible refine Keeps.ofEq ?_ (by assumption) | split | intro _ | dsimp only)

theorem State.dmemTake_keeps {s0 : State} {s : State} (a : Nat) (be : BitVec 4) (v : Word) (h : Keeps s0 s) : Keeps s0 (State.dmemTake s a be v).2 := by
  unfold State.dmemTake
  repeat' (first
    | with_reducible assumption
    | (extract_lets +onlyGivenNames z; refine Keeps.cut (v := z) ?_ ?_ <;> [subst z; (intro _; clear_value z)])
    | extract_lets +onlyGivenNames z | with_reducible apply State.dmemWrite_keeps | with_reducible apply Keeps.ite
    | with_reducible refine Keeps.ofEq ?_ (by assumption) | split | intro _ | dsimp only)

theorem State.windowWrite_keeps {s0 : State} {s : State} (e : Option Env) (ini : Initiator) (a : Nat) (v : Word) (h : Keeps s0 s) : Keeps s0 (State.windowWrite s e ini a v).2 := by
  unfold State.windowWrite
  repeat' (first
    | with_reducible assumption | with_reducible apply State.stall_keeps | with_reducible apply State.regWrite_keeps
    | with_reducible apply Keeps.ite | split | with_reducible refine Keeps.update ?_ rfl rfl rfl rfl rfl rfl rfl rfl | intro _)

theorem State.busWrite_keeps {s0 s : State} (e : Option Env) (ini : Initiator) (a : Nat) (be : BitVec 4) (v : Word)
    (h : Keeps s0 s) : Keeps s0 (s.busWrite e ini a be v).2 := by
  unfold State.busWrite
  split
  · exact h
  · split
    all_goals first
      | exact h | exact State.sramTake_keeps _ _ _ h | exact State.dmemTake_keeps _ _ _ h | exact State.windowWrite_keeps _ _ _ _ h

end Sys2Proof.Machine
end

