-- ==== Sys2Proof/Laws/KeepsPorch.lean ====
section
/-!
SUPPORT. Laws/KeepsPorch.lean: every operation of Machine/Porch.lean keeps what `Keeps` says.
-/
namespace Sys2Proof.Machine

set_option linter.unusedTactic false
set_option linter.unreachableTactic false
set_option linter.unusedVariables false
set_option linter.tactic.unusedName false

theorem State.hostErr_keeps {s0 : State} {s : State} (p : HostPort) (code : Nat) (addr : Nat) (h : Keeps s0 s) : Keeps s0 (State.hostErr s p code addr) := by
  unfold State.hostErr
  repeat' (first
    | with_reducible assumption
    | (extract_lets +onlyGivenNames z; refine Keeps.cut (v := z) ?_ ?_ <;> [subst z; (intro _; clear_value z)])
    | extract_lets +onlyGivenNames z | with_reducible apply State.wr_keeps | with_reducible apply State.bump_keeps
    | with_reducible apply State.irq_keeps | dsimp only)

theorem State.answer_keeps {s0 : State} {s : State} (st : Status) (data : List Word) (h : Keeps s0 s) : Keeps s0 (State.answer s st data) := by
  unfold State.answer
  repeat' (first
    | with_reducible assumption | with_reducible refine Keeps.update ?_ rfl rfl rfl rfl rfl rfl rfl rfl)

theorem State.failAnswer_keeps {s0 : State} {s : State} (ini : Initiator) (write : Bool) (data : List Word) (h : Keeps s0 s) : Keeps s0 (State.failAnswer s ini write data) := by
  unfold State.failAnswer
  repeat' (first
    | with_reducible assumption
    | (extract_lets +onlyGivenNames z; refine Keeps.cut (v := z) ?_ ?_ <;> [subst z; (intro _; clear_value z)])
    | extract_lets +onlyGivenNames z | with_reducible apply State.answer_keeps | with_reducible apply Keeps.ite | split
    | with_reducible refine Keeps.update ?_ rfl rfl rfl rfl rfl rfl rfl rfl | intro _ | dsimp only)

theorem State.doWord_keeps {s0 s : State} (e : Option Env) (bad : List Nat) (a : Access) (w : AccWord) (h : Keeps s0 s) :
    Keeps s0 (s.doWord e bad a w).2 := by
  unfold State.doWord
  refine Keeps.iteSnd (fun _ => h) fun _ => ?_
  have k : Keeps s0 (if a.write then s.busWrite e a.ini w.addr w.be w.value else s.busRead a.ini bad w.addr).2 :=
    Keeps.iteSnd (fun _ => State.busWrite_keeps _ _ _ _ _ h) fun _ => State.busRead_keeps _ _ _ h
  generalize (if a.write then s.busWrite e a.ini w.addr w.be w.value else s.busRead a.ini bad w.addr) = x at k ⊢
  obtain ⟨x, t⟩ := x
  cases x <;> exact k

theorem State.doWords_keeps {s0 s : State} (e : Option Env) (bad : List Nat) (a : Access) (ws : List AccWord) (h : Keeps s0 s) :
    Keeps s0 (s.doWords e bad a ws).2 := by
  induction ws generalizing s with
  | nil => exact h
  | cons w ws ih =>
    have k := State.doWord_keeps e bad a w h
    unfold State.doWords
    generalize s.doWord e bad a w = x at k ⊢
    have k2 := ih k
    obtain ⟨y, t⟩ := x
    dsimp only at k2 ⊢
    generalize t.doWords e bad a ws = z at k2 ⊢
    exact k2

theorem State.serveWords_keeps {s0 : State} {s : State} (e : Option Env) (bad : List Nat) (a : Access) (h : Keeps s0 s) : Keeps s0 (State.serveWords s e bad a) := by
  unfold State.serveWords
  repeat' (first
    | with_reducible assumption
    | (extract_lets +onlyGivenNames z; refine Keeps.cut (v := z) ?_ ?_ <;> [subst z; (intro _; clear_value z)])
    | extract_lets +onlyGivenNames z | with_reducible apply State.doWords_keeps
    | with_reducible apply State.answer_keeps | with_reducible apply State.hostErr_keeps
    | with_reducible apply State.failAnswer_keeps | with_reducible apply Keeps.ite | with_reducible apply Keeps.iteSnd
    | with_reducible refine Keeps.ofEq ?_ (by assumption) | split
    | with_reducible refine Keeps.update ?_ rfl rfl rfl rfl rfl rfl rfl rfl | intro _ | dsimp only)

theorem State.serveWork_keeps {s0 : State} {s : State} (p : HostPort) (w : PortWork) (h : Keeps s0 s) : Keeps s0 (State.serveWork s p w) := by
  unfold State.serveWork
  repeat' (first
    | with_reducible assumption
    | (extract_lets +onlyGivenNames z; refine Keeps.cut (v := z) ?_ ?_ <;> [subst z; (intro _; clear_value z)])
    | extract_lets +onlyGivenNames z | with_reducible apply State.hostErr_keeps
    | with_reducible apply State.answer_keeps | with_reducible apply Keeps.ite | with_reducible apply Keeps.iteSnd
    | with_reducible refine Keeps.ofEq ?_ (by assumption) | split
    | with_reducible refine Keeps.update ?_ rfl rfl rfl rfl rfl rfl rfl rfl | intro _ | dsimp only)

theorem State.serve_keeps {s0 : State} {s : State} (e : Option Env) (bad : List Nat) (a : Access) (h : Keeps s0 s) : Keeps s0 (State.serve s e bad a) := by
  unfold State.serve
  repeat' (first
    | with_reducible assumption
    | (extract_lets +onlyGivenNames z; refine Keeps.cut (v := z) ?_ ?_ <;> [subst z; (intro _; clear_value z)])
    | extract_lets +onlyGivenNames z | with_reducible apply State.serveWork_keeps
    | with_reducible apply State.serveWords_keeps | with_reducible apply Keeps.ite | with_reducible apply Keeps.iteSnd
    | with_reducible refine Keeps.ofEq ?_ (by assumption) | split
    | with_reducible refine Keeps.update ?_ rfl rfl rfl rfl rfl rfl rfl rfl | intro _ | dsimp only)

theorem State.serveLate_keeps {s0 : State} {s : State} (a : Access) (h : Keeps s0 s) : Keeps s0 (State.serveLate s a) := by
  unfold State.serveLate
  repeat' (first
    | with_reducible assumption
    | (extract_lets +onlyGivenNames z; refine Keeps.cut (v := z) ?_ ?_ <;> [subst z; (intro _; clear_value z)])
    | extract_lets +onlyGivenNames z | with_reducible apply State.serve_keeps | with_reducible apply Keeps.ite
    | with_reducible apply Keeps.iteSnd | with_reducible refine Keeps.ofEq ?_ (by assumption) | split
    | with_reducible refine Keeps.update ?_ rfl rfl rfl rfl rfl rfl rfl rfl | intro _ | dsimp only)

theorem State.enqueue_keeps {s0 : State} {s : State} (a : Access) (h : Keeps s0 s) : Keeps s0 (State.enqueue s a) := by
  unfold State.enqueue
  repeat' (first
    | with_reducible assumption
    | (extract_lets +onlyGivenNames z; refine Keeps.cut (v := z) ?_ ?_ <;> [subst z; (intro _; clear_value z)])
    | extract_lets +onlyGivenNames z | with_reducible apply State.answer_keeps | with_reducible apply State.setPorch_keeps
    | split | with_reducible refine Keeps.update ?_ rfl rfl rfl rfl rfl rfl rfl rfl | dsimp only)

theorem State.access_keeps {s0 : State} {s : State} (e : Option Env) (bad : List Nat) (a : Access) (h : Keeps s0 s) : Keeps s0 (State.access s e bad a) := by
  unfold State.access
  repeat' (first
    | with_reducible assumption | with_reducible apply State.answer_keeps | with_reducible apply State.enqueue_keeps
    | with_reducible apply State.serve_keeps | with_reducible apply Keeps.ite | split | intro _)

theorem State.readReg_keeps {s0 : State} {s : State} (ini : Initiator) (addr : Nat) (h : Keeps s0 s) : Keeps s0 (State.readReg s ini addr) := by
  unfold State.readReg
  repeat' (first
    | with_reducible assumption
    | (extract_lets +onlyGivenNames z; refine Keeps.cut (v := z) ?_ ?_ <;> [subst z; (intro _; clear_value z)])
    | extract_lets +onlyGivenNames z | with_reducible apply State.access_keeps | with_reducible apply Keeps.ite
    | with_reducible apply Keeps.iteSnd | with_reducible refine Keeps.ofEq ?_ (by assumption) | split
    | with_reducible refine Keeps.update ?_ rfl rfl rfl rfl rfl rfl rfl rfl | intro _ | dsimp only)

theorem State.writeReg_keeps {s0 : State} {s : State} (e : Option Env) (ini : Initiator) (addr : Nat) (v : Nat) (h : Keeps s0 s) : Keeps s0 (State.writeReg s e ini addr v) := by
  unfold State.writeReg
  repeat' (first
    | with_reducible assumption
    | (extract_lets +onlyGivenNames z; refine Keeps.cut (v := z) ?_ ?_ <;> [subst z; (intro _; clear_value z)])
    | extract_lets +onlyGivenNames z | with_reducible apply State.access_keeps | with_reducible apply Keeps.ite
    | with_reducible apply Keeps.iteSnd | with_reducible refine Keeps.ofEq ?_ (by assumption) | split
    | with_reducible refine Keeps.update ?_ rfl rfl rfl rfl rfl rfl rfl rfl | intro _ | dsimp only)

theorem State.setWaiting_keeps {s0 : State} {s : State} (ini : Initiator) (q : List Access) (h : Keeps s0 s) : Keeps s0 (State.setWaiting s ini q) := by
  unfold State.setWaiting
  repeat' (first
    | with_reducible assumption
    | (extract_lets +onlyGivenNames z; refine Keeps.cut (v := z) ?_ ?_ <;> [subst z; (intro _; clear_value z)])
    | extract_lets +onlyGivenNames z | with_reducible apply State.setPorch_keeps | with_reducible apply Keeps.ite
    | with_reducible apply Keeps.iteSnd | with_reducible refine Keeps.ofEq ?_ (by assumption) | split
    | with_reducible refine Keeps.update ?_ rfl rfl rfl rfl rfl rfl rfl rfl | intro _ | dsimp only)

theorem State.takeTurn_keeps {s0 : State} {s : State} (ini : Initiator) (h : Keeps s0 s) : Keeps s0 (State.takeTurn s ini) := by
  unfold State.takeTurn
  repeat' (first
    | with_reducible assumption
    | (extract_lets +onlyGivenNames z; refine Keeps.cut (v := z) ?_ ?_ <;> [subst z; (intro _; clear_value z)])
    | extract_lets +onlyGivenNames z | with_reducible apply State.setWaiting_keeps
    | with_reducible apply State.serveLate_keeps | with_reducible apply Keeps.ite | with_reducible apply Keeps.iteSnd
    | with_reducible refine Keeps.ofEq ?_ (by assumption) | split
    | with_reducible refine Keeps.update ?_ rfl rfl rfl rfl rfl rfl rfl rfl | intro _ | dsimp only)

theorem State.rounds_keeps {s0 : State} (inis : List Initiator) :
    ∀ (n : Nat) {s : State}, Keeps s0 s → Keeps s0 (State.rounds inis n s)
  | 0, _, h => h
  | n + 1, _, h => State.rounds_keeps inis n (Keeps.foldl _ inis h fun _ i hc => State.takeTurn_keeps i hc)

theorem State.drainPort_keeps {s0 : State} {s : State} (p : HostPort) (h : Keeps s0 s) : Keeps s0 (State.drainPort s p) :=
  State.rounds_keeps _ _ h

theorem State.drainAll_keeps {s0 : State} {s : State} (h : Keeps s0 s) : Keeps s0 (State.drainAll s) :=
  State.rounds_keeps _ _ (h.update rfl rfl rfl rfl rfl rfl rfl rfl)

theorem State.markStopped_keeps {s0 : State} {s : State} (a : Access) (addr : Nat) (h : Keeps s0 s) : Keeps s0 (State.markStopped s a addr) := by
  unfold State.markStopped
  repeat' (first
    | with_reducible assumption
    | (extract_lets +onlyGivenNames z; refine Keeps.cut (v := z) ?_ ?_ <;> [subst z; (intro _; clear_value z)])
    | extract_lets +onlyGivenNames z | with_reducible apply State.cfgErr_keeps | with_reducible apply Keeps.ite
    | with_reducible apply Keeps.iteSnd | with_reducible refine Keeps.ofEq ?_ (by assumption) | split
    | with_reducible refine Keeps.update ?_ rfl rfl rfl rfl rfl rfl rfl rfl | intro _ | dsimp only)

theorem State.timeoutAnswer_keeps {s0 : State} {s : State} (a : Access) (h : Keeps s0 s) : Keeps s0 (State.timeoutAnswer s a) := by
  unfold State.timeoutAnswer
  repeat' (first
    | with_reducible assumption
    | (extract_lets +onlyGivenNames z; refine Keeps.cut (v := z) ?_ ?_ <;> [subst z; (intro _; clear_value z)])
    | extract_lets +onlyGivenNames z | with_reducible apply State.failAnswer_keeps | with_reducible apply Keeps.ite
    | with_reducible apply Keeps.iteSnd | with_reducible refine Keeps.ofEq ?_ (by assumption) | split
    | with_reducible refine Keeps.update ?_ rfl rfl rfl rfl rfl rfl rfl rfl | intro _ | dsimp only)

theorem State.accessTimeout_keeps {s0 : State} {s : State} (p : HostPort) (h : Keeps s0 s) : Keeps s0 (State.accessTimeout s p) := by
  unfold State.accessTimeout
  repeat' (first
    | with_reducible assumption
    | (extract_lets +onlyGivenNames z; refine Keeps.cut (v := z) ?_ ?_ <;> [subst z; (intro _; clear_value z)])
    | extract_lets +onlyGivenNames z | with_reducible apply State.markStopped_keeps
    | with_reducible apply State.hostErr_keeps | with_reducible apply State.setPorch_keeps
    | with_reducible apply State.timeoutAnswer_keeps | with_reducible apply State.drainPort_keeps
    | with_reducible apply Keeps.ite | with_reducible apply Keeps.iteSnd
    | with_reducible refine Keeps.ofEq ?_ (by assumption) | split
    | with_reducible refine Keeps.update ?_ rfl rfl rfl rfl rfl rfl rfl rfl | intro _ | dsimp only)

theorem State.upset_keeps {s0 s : State} (u : Upset) (h : Keeps s0 s) : Keeps s0 (s.upset u) := by
  unfold State.upset
  split
  · exact h.same rfl rfl rfl rfl rfl rfl rfl rfl rfl rfl rfl rfl rfl
  · exact h.same rfl rfl rfl rfl rfl rfl rfl rfl rfl rfl rfl rfl rfl
  · exact State.lpsUpset_keeps _ h
  · exact h

theorem State.upsets_keeps {s0 : State} {s : State} (us : List Upset) (h : Keeps s0 s) : Keeps s0 (State.upsets s us) := by
  unfold State.upsets
  repeat' (first
    | with_reducible assumption | with_reducible apply State.upset_keeps | with_reducible apply Keeps.foldl
    | with_reducible apply Keeps.foldlSnd | intro _ | dsimp only)

theorem State.portAnswer_keeps {s0 : State} {s : State} (p : HostPort) (w : PortWork) (h : Keeps s0 s) : Keeps s0 (State.portAnswer s p w) := by
  unfold State.portAnswer
  repeat' (first
    | with_reducible assumption
    | (extract_lets +onlyGivenNames z; refine Keeps.cut (v := z) ?_ ?_ <;> [subst z; (intro _; clear_value z)])
    | extract_lets +onlyGivenNames z | with_reducible apply State.access_keeps | with_reducible apply Keeps.ite
    | with_reducible apply Keeps.iteSnd | with_reducible refine Keeps.ofEq ?_ (by assumption) | split
    | with_reducible refine Keeps.update ?_ rfl rfl rfl rfl rfl rfl rfl rfl | intro _ | dsimp only)

theorem State.portRefuse_keeps {s0 : State} {s : State} (p : HostPort) (code : Nat) (addr : Nat) (st : Status) (data : List Word) (h : Keeps s0 s) : Keeps s0 (State.portRefuse s p code addr st data) := by
  unfold State.portRefuse
  repeat' (first
    | with_reducible assumption
    | (extract_lets +onlyGivenNames z; refine Keeps.cut (v := z) ?_ ?_ <;> [subst z; (intro _; clear_value z)])
    | extract_lets +onlyGivenNames z | with_reducible apply State.portAnswer_keeps | with_reducible apply Keeps.ite
    | with_reducible apply Keeps.iteSnd | with_reducible refine Keeps.ofEq ?_ (by assumption) | split
    | with_reducible refine Keeps.update ?_ rfl rfl rfl rfl rfl rfl rfl rfl | intro _ | dsimp only)

theorem State.pcie_keeps {s0 : State} {s : State} (p : HostPort) (r : PcieReq) (h : Keeps s0 s) : Keeps s0 (State.pcie s p r) := by
  unfold State.pcie
  repeat' (first
    | with_reducible assumption
    | (extract_lets +onlyGivenNames z; refine Keeps.cut (v := z) ?_ ?_ <;> [subst z; (intro _; clear_value z)])
    | extract_lets +onlyGivenNames z | with_reducible apply State.answer_keeps | with_reducible apply State.access_keeps
    | with_reducible apply State.portRefuse_keeps | with_reducible apply State.hostErr_keeps
    | with_reducible apply State.upsets_keeps | with_reducible apply Keeps.ite | with_reducible apply Keeps.iteSnd
    | with_reducible refine Keeps.ofEq ?_ (by assumption) | split
    | with_reducible refine Keeps.update ?_ rfl rfl rfl rfl rfl rfl rfl rfl | intro _ | dsimp only)

theorem State.pcieUp_keeps {s0 : State} {s : State} (p : HostPort) (gen2 : Bool) (h : Keeps s0 s) : Keeps s0 (State.pcieUp s p gen2) := by
  unfold State.pcieUp
  repeat' (first
    | with_reducible assumption | with_reducible apply State.wr_keeps | with_reducible apply State.irq_keeps
    | with_reducible apply Keeps.ite | split | intro _)

theorem State.pcieDown_keeps {s0 : State} {s : State} (p : HostPort) (h : Keeps s0 s) : Keeps s0 (State.pcieDown s p) := by
  unfold State.pcieDown
  repeat' (first
    | with_reducible assumption
    | (extract_lets +onlyGivenNames z; refine Keeps.cut (v := z) ?_ ?_ <;> [subst z; (intro _; clear_value z)])
    | extract_lets +onlyGivenNames z | with_reducible apply State.setPorch_keeps | with_reducible apply State.freeKeysOf_keeps
    | with_reducible apply State.wr_keeps | with_reducible apply State.irq_keeps | with_reducible apply Keeps.ite | split
    | with_reducible refine Keeps.update ?_ rfl rfl rfl rfl rfl rfl rfl rfl | intro _ | dsimp only)

theorem State.pcieConfig_keeps {s0 : State} {s : State} (p : HostPort) (msi : Bool) (h : Keeps s0 s) : Keeps s0 (State.pcieConfig s p msi) := by
  unfold State.pcieConfig
  repeat' (first
    | with_reducible assumption
    | (extract_lets +onlyGivenNames z; refine Keeps.cut (v := z) ?_ ?_ <;> [subst z; (intro _; clear_value z)])
    | extract_lets +onlyGivenNames z | with_reducible apply State.setFlag_keeps | with_reducible apply State.setPorch_keeps
    | with_reducible apply Keeps.ite | split | with_reducible refine Keeps.update ?_ rfl rfl rfl rfl rfl rfl rfl rfl | intro _
    | dsimp only)

theorem State.qspiWords_keeps {s0 s : State} (p : HostPort) (bad : List Nat) (a : Word) (n k : Nat) (l : List Word)
    (h : Keeps s0 s) : Keeps s0 (s.qspiWords p bad a n k l).2 := by
  induction n generalizing s k l with
  | zero => exact h
  | succ n ih => exact ih _ _ (State.access_keeps _ _ _ h)

theorem State.qspiDrop_keeps {s0 : State} {s : State} (p : HostPort) (bad : List Nat) (a : Word) (k : Nat) (h : Keeps s0 s) : Keeps s0 (State.qspiDrop s p bad a k) := by
  unfold State.qspiDrop
  repeat' (first
    | with_reducible assumption
    | (extract_lets +onlyGivenNames z; refine Keeps.cut (v := z) ?_ ?_ <;> [subst z; (intro _; clear_value z)])
    | extract_lets +onlyGivenNames z | with_reducible apply State.access_keeps | with_reducible apply Keeps.ite
    | with_reducible apply Keeps.iteSnd | with_reducible refine Keeps.ofEq ?_ (by assumption) | split
    | with_reducible refine Keeps.update ?_ rfl rfl rfl rfl rfl rfl rfl rfl | intro _ | dsimp only)

theorem State.qspiFrameEnd_keeps {s0 : State} {s : State} (p : HostPort) (a : Word) (l : List Word) (h : Keeps s0 s) : Keeps s0 (State.qspiFrameEnd s p a l) := by
  unfold State.qspiFrameEnd
  repeat' (first
    | with_reducible assumption
    | (extract_lets +onlyGivenNames z; refine Keeps.cut (v := z) ?_ ?_ <;> [subst z; (intro _; clear_value z)])
    | extract_lets +onlyGivenNames z | with_reducible apply State.answer_keeps | with_reducible apply Keeps.ite
    | with_reducible apply Keeps.iteSnd | with_reducible refine Keeps.ofEq ?_ (by assumption) | split
    | with_reducible refine Keeps.update ?_ rfl rfl rfl rfl rfl rfl rfl rfl | intro _ | dsimp only)

theorem State.qspiRead_keeps {s0 : State} {s : State} (p : HostPort) (a : Word) (n : Nat) (abandoned : Bool) (us : List Upset) (h : Keeps s0 s) : Keeps s0 (State.qspiRead s p a n abandoned us) := by
  unfold State.qspiRead
  repeat' (first
    | with_reducible assumption
    | (extract_lets +onlyGivenNames z; refine Keeps.cut (v := z) ?_ ?_ <;> [subst z; (intro _; clear_value z)])
    | extract_lets +onlyGivenNames z | with_reducible apply State.answer_keeps | with_reducible apply State.upsets_keeps
    | with_reducible apply State.qspiWords_keeps | with_reducible apply State.qspiFrameEnd_keeps
    | with_reducible apply State.qspiDrop_keeps | with_reducible apply Keeps.ite | with_reducible apply Keeps.iteSnd
    | with_reducible refine Keeps.ofEq ?_ (by assumption) | split
    | with_reducible refine Keeps.update ?_ rfl rfl rfl rfl rfl rfl rfl rfl | intro _ | dsimp only)

theorem State.qspiPut_keeps {s0 s : State} (p : HostPort) (a : Word) (k : Nat) (ws : List Word) (h : Keeps s0 s) :
    Keeps s0 (s.qspiPut p a k ws) := by
  induction ws generalizing s k with
  | nil => exact h
  | cons w ws ih => exact ih _ (Keeps.ite (fun _ => State.access_keeps _ _ _ h) fun _ => State.portRefuse_keeps _ _ _ _ _ h)

theorem State.qspiWrite_keeps {s0 : State} {s : State} (p : HostPort) (a : Word) (bs : List Byte) (us : List Upset) (h : Keeps s0 s) : Keeps s0 (State.qspiWrite s p a bs us) := by
  unfold State.qspiWrite
  repeat' (first
    | with_reducible assumption
    | (extract_lets +onlyGivenNames z; refine Keeps.cut (v := z) ?_ ?_ <;> [subst z; (intro _; clear_value z)])
    | extract_lets +onlyGivenNames z | with_reducible apply State.answer_keeps
    | with_reducible apply State.portRefuse_keeps | with_reducible apply State.upsets_keeps
    | with_reducible apply State.qspiPut_keeps | with_reducible apply Keeps.ite | with_reducible apply Keeps.iteSnd
    | with_reducible refine Keeps.ofEq ?_ (by assumption) | split
    | with_reducible refine Keeps.update ?_ rfl rfl rfl rfl rfl rfl rfl rfl | intro _ | dsimp only)

theorem State.qspiStatus_keeps {s0 : State} {s : State} (p : HostPort) (h : Keeps s0 s) : Keeps s0 (State.qspiStatus s p) := by
  unfold State.qspiStatus
  repeat' (first
    | with_reducible assumption
    | (extract_lets +onlyGivenNames z; refine Keeps.cut (v := z) ?_ ?_ <;> [subst z; (intro _; clear_value z)])
    | extract_lets +onlyGivenNames z | with_reducible apply State.answer_keeps
    | with_reducible apply State.portAnswer_keeps | with_reducible apply Keeps.ite | with_reducible apply Keeps.iteSnd
    | with_reducible refine Keeps.ofEq ?_ (by assumption) | split
    | with_reducible refine Keeps.update ?_ rfl rfl rfl rfl rfl rfl rfl rfl | intro _ | dsimp only)

theorem State.qspiId_keeps {s0 : State} {s : State} (p : HostPort) (h : Keeps s0 s) : Keeps s0 (State.qspiId s p) := by
  unfold State.qspiId
  repeat' (first
    | with_reducible assumption
    | (extract_lets +onlyGivenNames z; refine Keeps.cut (v := z) ?_ ?_ <;> [subst z; (intro _; clear_value z)])
    | extract_lets +onlyGivenNames z | with_reducible apply State.answer_keeps
    | with_reducible apply State.portAnswer_keeps | with_reducible apply Keeps.ite | with_reducible apply Keeps.iteSnd
    | with_reducible refine Keeps.ofEq ?_ (by assumption) | split
    | with_reducible refine Keeps.update ?_ rfl rfl rfl rfl rfl rfl rfl rfl | intro _ | dsimp only)

theorem State.releaseAll_keeps {s0 : State} {s : State} (p : HostPort) (h : Keeps s0 s) : Keeps s0 (State.releaseAll s p) := by
  unfold State.releaseAll
  repeat' (first
    | with_reducible assumption | with_reducible apply State.answer_keeps | with_reducible apply State.freeKeysOf_keeps
    | with_reducible apply State.wr_keeps | with_reducible apply Keeps.ite | split | intro _)

theorem State.qspiUnknown_keeps {s0 : State} {s : State} (p : HostPort) (code : Byte) (h : Keeps s0 s) : Keeps s0 (State.qspiUnknown s p code) := by
  unfold State.qspiUnknown
  repeat' (first
    | with_reducible assumption
    | (extract_lets +onlyGivenNames z; refine Keeps.cut (v := z) ?_ ?_ <;> [subst z; (intro _; clear_value z)])
    | extract_lets +onlyGivenNames z | with_reducible apply State.answer_keeps | with_reducible apply State.freshWord_keeps
    | with_reducible apply State.hostErr_keeps | with_reducible apply Keeps.ite
    | with_reducible refine Keeps.ofEq ?_ (by assumption) | split | intro _ | dsimp only)

end Sys2Proof.Machine
end

