-- ==== Sys2Proof/Laws/KeepsMeanings.lean ====
section
/-!
SUPPORT. Laws/KeepsMeanings.lean: every operation of Machine/Meanings.lean keeps what `Keeps` says.
-/
namespace Sys2Proof.Machine

set_option linter.unusedTactic false
set_option linter.unreachableTactic false
set_option linter.unusedVariables false
set_option linter.tactic.unusedName false

theorem State.writeAt_keeps {s0 : State} {s : State} (e : Option Env) (ini : Initiator) (pg : Nat) (f : Fld) (i : Nat) (v : Nat) (h : Keeps s0 s) : Keeps s0 (State.writeAt s e ini pg f i v) := by
  unfold State.writeAt
  repeat' (first
    | with_reducible assumption | with_reducible apply State.writeReg_keeps)

theorem State.readAt_keeps {s0 : State} {s : State} (ini : Initiator) (pg : Nat) (f : Fld) (i : Nat) (h : Keeps s0 s) : Keeps s0 (State.readAt s ini pg f i) := by
  unfold State.readAt
  repeat' (first
    | with_reducible assumption | with_reducible apply State.readReg_keeps)

theorem State.inDomain_keeps {s0 s : State} {d : Nat} {f : State → State} (h : Keeps s0 s)
    (hf : ∀ s, Keeps s0 s → Keeps s0 (f s)) : Keeps s0 (s.inDomain d f) :=
  Keeps.ite (fun _ => hf s h) fun _ => h

theorem State.boundaryEvent_keeps {s0 : State} {s : State} (n : Fin 16) (t : Int) (p : Option Nat) (h : Keeps s0 s) : Keeps s0 (State.boundaryEvent s n t p) := by
  unfold State.boundaryEvent
  repeat' (first
    | with_reducible assumption
    | (extract_lets +onlyGivenNames z; refine Keeps.cut (v := z) ?_ ?_ <;> [subst z; (intro _; clear_value z)])
    | extract_lets +onlyGivenNames z | with_reducible apply State.passUnit_keeps
    | with_reducible apply State.formDeliver_keeps | with_reducible apply State.unitBoundary_keeps
    | with_reducible apply State.sampleEvent_keeps | with_reducible apply State.leEmit_keeps
    | with_reducible apply State.sarEmit_keeps | with_reducible apply State.dsfEmit_keeps
    | with_reducible apply State.formSyncPwm_keeps | with_reducible apply Keeps.ite | with_reducible apply Keeps.iteSnd
    | with_reducible refine Keeps.ofEq ?_ (by assumption) | split
    | with_reducible refine Keeps.update ?_ rfl rfl rfl rfl rfl rfl rfl rfl | intro _ | dsimp only)

theorem State.midEvent_keeps {s0 : State} {s : State} (n : Fin 16) (t : Int) (h : Keeps s0 s) : Keeps s0 (State.midEvent s n t) := by
  unfold State.midEvent
  repeat' (first
    | with_reducible assumption
    | (extract_lets +onlyGivenNames z; refine Keeps.cut (v := z) ?_ ?_ <;> [subst z; (intro _; clear_value z)])
    | extract_lets +onlyGivenNames z | with_reducible apply State.formDeliver_keeps
    | with_reducible apply State.unitMid_keeps | with_reducible apply State.sampleEvent_keeps
    | with_reducible apply State.leEmit_keeps | with_reducible apply State.sarEmit_keeps
    | with_reducible apply State.dsfEmit_keeps | with_reducible apply Keeps.ite | with_reducible apply Keeps.iteSnd
    | with_reducible refine Keeps.ofEq ?_ (by assumption) | split
    | with_reducible refine Keeps.update ?_ rfl rfl rfl rfl rfl rfl rfl rfl | intro _ | dsimp only)

theorem State.dropDue_keeps {s0 : State} {s : State} (n : Fin 16) (h : Keeps s0 s) : Keeps s0 (State.dropDue s n) := by
  unfold State.dropDue
  repeat' (first
    | with_reducible assumption
    | (extract_lets +onlyGivenNames z; refine Keeps.cut (v := z) ?_ ?_ <;> [subst z; (intro _; clear_value z)])
    | extract_lets +onlyGivenNames z | with_reducible apply State.setPwmUnit_keeps | with_reducible apply Keeps.ite
    | with_reducible apply Keeps.iteSnd | with_reducible refine Keeps.ofEq ?_ (by assumption) | split
    | with_reducible refine Keeps.update ?_ rfl rfl rfl rfl rfl rfl rfl rfl | intro _ | dsimp only)

theorem State.dropPairDue_keeps {s0 : State} {s : State} (n : Fin 16) (k : Fin 4) (h : Keeps s0 s) : Keeps s0 (State.dropPairDue s n k) := by
  unfold State.dropPairDue
  repeat' (first
    | with_reducible assumption
    | (extract_lets +onlyGivenNames z; refine Keeps.cut (v := z) ?_ ?_ <;> [subst z; (intro _; clear_value z)])
    | extract_lets +onlyGivenNames z | with_reducible apply State.setPwmPair_keeps | with_reducible apply Keeps.ite
    | with_reducible apply Keeps.iteSnd | with_reducible refine Keeps.ofEq ?_ (by assumption) | split
    | with_reducible refine Keeps.update ?_ rfl rfl rfl rfl rfl rfl rfl rfl | intro _ | dsimp only)

theorem State.carrierEvent_keeps {s0 : State} {s : State} (n : Fin 16) (pt : CarrierPoint) (h : Keeps s0 s) : Keeps s0 (State.carrierEvent s n pt) := by
  unfold State.carrierEvent
  repeat' (first
    | with_reducible assumption
    | (extract_lets +onlyGivenNames z; refine Keeps.cut (v := z) ?_ ?_ <;> [subst z; (intro _; clear_value z)])
    | extract_lets +onlyGivenNames z | with_reducible apply State.boundary_keeps
    | with_reducible apply State.dropDue_keeps | with_reducible apply State.boundaryEvent_keeps
    | with_reducible apply State.setPwmUnit_keeps | with_reducible apply State.midEvent_keeps
    | with_reducible apply State.pairBoundary_keeps | with_reducible apply State.dropPairDue_keeps
    | with_reducible apply State.pairMid_keeps | with_reducible apply State.setPwmPair_keeps
    | with_reducible apply Keeps.ite | with_reducible apply Keeps.iteSnd
    | with_reducible refine Keeps.ofEq ?_ (by assumption) | split
    | with_reducible refine Keeps.update ?_ rfl rfl rfl rfl rfl rfl rfl rfl | intro _ | dsimp only)

theorem State.syncEvent_keeps {s0 : State} {s : State} (n : Fin 16) (h : Keeps s0 s) : Keeps s0 (State.syncEvent s n) := by
  unfold State.syncEvent
  repeat' (first
    | with_reducible assumption
    | (extract_lets +onlyGivenNames z; refine Keeps.cut (v := z) ?_ ?_ <;> [subst z; (intro _; clear_value z)])
    | extract_lets +onlyGivenNames z | with_reducible apply State.setPwmUnit_keeps
    | with_reducible apply State.boundaryEvent_keeps | with_reducible apply State.bump_keeps
    | with_reducible apply State.irq_keeps | with_reducible apply Keeps.ite | with_reducible apply Keeps.iteSnd
    | with_reducible refine Keeps.ofEq ?_ (by assumption) | split
    | with_reducible refine Keeps.update ?_ rfl rfl rfl rfl rfl rfl rfl rfl | intro _ | dsimp only)

theorem State.fuseSource_keeps {s0 : State} {s : State} (src : Fin 64) (overtemp : Bool) (h : Keeps s0 s) : Keeps s0 (State.fuseSource s src overtemp) := by
  unfold State.fuseSource
  repeat' (first
    | with_reducible assumption
    | (extract_lets +onlyGivenNames z; refine Keeps.cut (v := z) ?_ ?_ <;> [subst z; (intro _; clear_value z)])
    | extract_lets +onlyGivenNames z | with_reducible apply State.setSource_keeps | with_reducible apply State.fuseAct_keeps
    | with_reducible apply State.selfReportOf_keeps | with_reducible apply Keeps.ite | split | intro _ | dsimp only)

theorem State.releasePull_keeps {s0 : State} {s : State} (l : Fin 4) (h : Keeps s0 s) : Keeps s0 (State.releasePull s l) := by
  unfold State.releasePull
  repeat' (first
    | with_reducible assumption
    | (extract_lets +onlyGivenNames z; refine Keeps.cut (v := z) ?_ ?_ <;> [subst z; (intro _; clear_value z)])
    | extract_lets +onlyGivenNames z | with_reducible apply Keeps.ite | with_reducible apply Keeps.iteSnd
    | with_reducible refine Keeps.ofEq ?_ (by assumption) | split
    | with_reducible refine Keeps.update ?_ rfl rfl rfl rfl rfl rfl rfl rfl | intro _ | dsimp only)

theorem State.powerEnd_keeps {s0 : State} {s : State} (h : Keeps s0 s) : Keeps s0 (State.powerEnd s) := by
  unfold State.powerEnd
  repeat' (first
    | with_reducible assumption | with_reducible apply State.powerDone_keeps | with_reducible apply State.drainAll_keeps)

theorem State.lockoutEnd_keeps {s0 : State} {s : State} (h : Keeps s0 s) : Keeps s0 (State.lockoutEnd s) := by
  unfold State.lockoutEnd
  repeat' (first
    | with_reducible assumption | with_reducible apply State.wr_keeps)

theorem State.tick_keeps {s0 : State} {s : State} (h : Keeps s0 s) : Keeps s0 (State.tick s) := by
  unfold State.tick
  repeat' (first
    | with_reducible assumption
    | (extract_lets +onlyGivenNames z; refine Keeps.cut (v := z) ?_ ?_ <;> [subst z; (intro _; clear_value z)])
    | extract_lets +onlyGivenNames z | with_reducible apply State.ifLive_keeps
    | with_reducible apply State.ptpTick_keeps | with_reducible apply State.legMends_keeps
    | with_reducible apply State.lanesTick_keeps | with_reducible apply State.authEnd_keeps
    | with_reducible apply Keeps.ite | with_reducible apply Keeps.iteSnd
    | with_reducible refine Keeps.ofEq ?_ (by assumption) | split
    | with_reducible refine Keeps.update ?_ rfl rfl rfl rfl rfl rfl rfl rfl | intro _ | dsimp only)

end Sys2Proof.Machine
end

