-- ==== Sys2Proof/Tests/Slice0.lean ====
section
/-! SUPPORT. Tests: states and operands that meet the hypotheses of each statement, ill-formed commands refused, example words. -/
namespace Sys2Proof.Tests
set_option maxRecDepth 8000
set_option Elab.async false
set_option linter.unusedVariables false
open Sys2Proof Sys2Proof.Machine

/-- After power-up: no domain is held. -/
def liveBase : State := { State.reset with pwr := { State.reset.pwr with held := false } }

/-- The base of most tests: mode CONFIG, both ports up, the inter-die link up. -/
def hostBase : State :=
  (((((liveBase.wr SYS.pg SYS.MODE_MODE 0 2).wr (PORCH.pg 0) PORCH.LINK_MODE 0 1).wr (PORCH.pg 1) PORCH.LINK_UP 0 1).wr
    SYS.pg SYS.STATUS_DIE_LINK_OK 0 1).wr SYS.pg SYS.STATUS_TRANS_BUSY 0 0)

/-- The Boolean form of `Canonical`. -/
def canonParts (s : State) : List Bool :=
  [s.regs.wf, s.staged.wf, s.committed.wf, s.sram.wf, s.sec.otp.wf, s.sec.flash.wf, s.lps.words.wf, s.lps.dmem.wf, s.attic.mem.wf,
    s.pantry.bytes.wf, s.metro.sram.wf, s.lps.parity.wf]
def canonB (s : State) : Bool := (canonParts s).all id

theorem canonB_spec {s : State} (h : canonB s = true) : Canonical s := by
  have part : ∀ b ∈ canonParts s, b = true := by simpa [canonB] using h
  constructor <;> exact part _ (by simp [canonParts])

theorem canon_of {l : List Nat} {b : Nat → State} (h : l.all (fun k => canonB (b k)) = true) :
    ∀ k ∈ l, Canonical (b k) := fun k hk => canonB_spec (List.all_eq_true.mp h k hk)

/-! ### Commands that no sender can form are refused (WellFormed.lean) -/

theorem test_wf_register_above_window : exec (.registerWrite .porchA 0x41000000 0 .taken) State.reset = .fault .illFormed := rfl
theorem test_wf_register_between_words : exec (.readClear .porchA 0x40000002) State.reset = .fault .illFormed := rfl
theorem test_wf_request_without_dword : exec (.pcieRequest .A ⟨false, false, 0, [], [], []⟩) State.reset = .fault .illFormed := rfl
theorem test_wf_request_beyond_bar : exec (.pcieRequest .A ⟨true, true, 0x800000, [0xF], [1], []⟩) State.reset = .fault .illFormed := rfl
theorem test_wf_request_between_dwords : exec (.pcieRequest .A ⟨false, false, 2, [0xF], [], []⟩) State.reset = .fault .illFormed := rfl
theorem test_wf_request_too_long :
    (PcieReq.mk false false 0 (List.replicate 1025 0xF) [] []).wf = false ∧ (PcieReq.mk false false 0 (List.replicate 1024 0xF) [] []).wf = true := by
  decide +kernel
theorem test_wf_read_with_data : exec (.pcieRequest .A ⟨false, false, 0, [0xF], [1], []⟩) State.reset = .fault .illFormed := rfl
theorem test_wf_listed_command : exec (.qspiUnknownCommand .B 0x9F) State.reset = .fault .illFormed := rfl
theorem test_wf_missing_channel : exec (.metroSample (List.replicate 23 [])) State.reset = .fault .illFormed := rfl
theorem test_wf_core_named_twice : exec (.haltRelease [] [.security, .security]) State.reset = .fault .illFormed := rfl
theorem test_no_row_has_bits : decodeTableWord 32 0 = none ∧ State.reset.withFetchWord 32 0 = State.reset := ⟨rfl, rfl⟩

/-! ### Values written out in the spec -/

/-- The LE13 example of 06_loop_instruction_set.md: words and their fields. -/
theorem test_le13_i2f : leFields 0x6800410000000017 = { op := 0x1A, pred := 0, pneg := false, dst := 0, a := 0x41, b := 0, c := 0, imm := 23 } := by
  decide +kernel
theorem test_le13_fsub : leFields 0x2402600000000000 = { op := 0x09, pred := 0, pneg := false, dst := 2, a := 0x60, b := 0, c := 0, imm := 0 } := by
  decide +kernel
theorem test_le13_integ :
    leFields 0x9403027068060000 = { op := 0x25, pred := 0, pneg := false, dst := 3, a := 2, b := 0x70, c := 0x68, imm := 0x60000 } := by
  decide +kernel
theorem test_le13_out : leFields 0xC000030000000000 = { op := 0x30, pred := 0, pneg := false, dst := 0, a := 3, b := 0, c := 0, imm := 0 } := by
  decide +kernel
theorem test_le13_end : leFields 0xF800000000000000 = { op := 0x3E, pred := 0, pneg := false, dst := 0, a := 0, b := 0, c := 0, imm := 0 } := by
  decide +kernel
theorem test_le13_header : (leFields 0xFC01400000080000).op = 0x3F := by decide +kernel

/-- R326: −1 × −1 yields 0x7FFF_FFFF. -/
theorem test_q31_product_saturates : qmul 0x80000000 0x80000000 = 0x7FFFFFFF := by decide +kernel

/-- R614: the CRC-32 of IEEE 802.3; its check value over the digits 1 to 9. -/
theorem test_crc32_check_value : crc32 0xFFFFFFFF [0x31, 0x32, 0x33, 0x34, 0x35, 0x36, 0x37, 0x38, 0x39] = 0xCBF43926 := by decide +kernel

/-- FIPS 180-4: the SHA-512 of "abc", as its example prints it. -/
theorem test_sha512_abc :
    ofBeBytes (sha512 [0x61, 0x62, 0x63]) =
      0xddaf35a193617abacc417349ae20413112e6fa4e89a97ea20a9eeee64b55d39a2192992a274fc1a836ba3c23a3feebbd454d4423643ce80e2a9ac94fa54ca49f := by
  decide +kernel

/-- RFC 8032, 7.1, TEST 1: the signature of the empty message verifies under the key printed there. -/
theorem test_ed25519_verifies :
    edVerify (beBytes 32 0xd75a980182b10ab7d54bfed3c964073a0ee172f3daa62325af021a68f707511a) []
      (beBytes 64 0xe5564300c360ac729086e2cc806e828a84877f1eb8e5d974d873e065224901555fb8821590a33bacc61e39701cf9b46bd25bf5f0595bbe24655141438e7a100b) =
      true := by decide +kernel

/-- RFC 8032, 7.1, TEST 1: the public key of the seed printed there. -/
theorem test_ed25519_public :
    ofBeBytes (edPublic (beBytes 32 0x9d61b19deffd5a60ba844af492ec2cc44449c5697b326919703bac031cae7f60)) =
      0xd75a980182b10ab7d54bfed3c964073a0ee172f3daa62325af021a68f707511a := by decide +kernel

/-- The response that a command leaves. -/
def respOf : Host.Outcome State Fault Refusal → List Word
  | .next t => t.resp.data
  | _ => []

/-- 02_host_ports_and_pages.md, "leaving SAFE_STOP": Porch B (quad-SPI) reads KEY0, takes it, and sees 0xC000_0002. -/
theorem test_key_read_by_porch_b :
    respOf (exec (.qspiRead .B 0x40004040 1 false []) (liveBase.wr (PORCH.pg 1) PORCH.LINK_MODE 0 1)) = [0xC0000002] := by
  decide +kernel


/-- The code that `LibRow.codeOk` asks of a library program exists: for every program of the library the witness of `LibRow.someCode` meets
it and fills the words between its header and END. -/
theorem test_libCode_exists :
    ((List.range 8).all fun id => match libRow id with
      | some r => r.codeOk r.someCode && r.someCode.length + 2 = r.words
      | none => id = 0) = true := by decide +kernel

/-! ### A flash that boots -/

/-- Flash cells that hold a block of bytes from an address on. -/
def flashBlock : Nat → List Byte → Store 8
  | _, [] => []
  | a, b :: bs => if b = 0xFF then flashBlock (a + 1) bs else (a, b ^^^ 0xFF) :: flashBlock (a + 1) bs

theorem flashBlock_below (bs : List Byte) (a x : Nat) (m : Store 8) (hx : x < a) (hm : m.get x = 0) :
    Store.get (flashBlock a bs ++ m) x = 0 := by
  induction bs generalizing a with
  | nil => simpa [flashBlock] using hm
  | cons b bs ih =>
    have hne : ¬x = a := by omega
    unfold flashBlock
    split
    · exact ih (a + 1) (by omega)
    · simp [Store.get, hne, hx]

theorem flashBlock_above (bs : List Byte) (a x : Nat) (m : Store 8) (hx : a + bs.length ≤ x) :
    Store.get (flashBlock a bs ++ m) x = m.get x := by
  induction bs generalizing a with
  | nil => simp [flashBlock]
  | cons b bs ih =>
    simp only [List.length_cons] at hx
    have hne : ¬x = a ∧ ¬x < a := by omega
    unfold flashBlock
    split
    · exact ih (a + 1) (by omega)
    · simp [Store.get, hne, ih (a + 1) (by omega)]

theorem flashBlock_read (bs : List Byte) (a : Nat) (m : Store 8) (hm : ∀ x < a + bs.length, m.get x = 0) (i : Nat) (hi : i < bs.length) :
    Store.get (flashBlock a bs ++ m) (a + i) ^^^ 0xFF = bs.getD i 0 := by
  induction bs generalizing a i with
  | nil => simp at hi
  | cons b bs ih =>
    simp only [List.length_cons] at hm hi
    unfold flashBlock
    cases i with
    | zero =>
      split
      · simp_all [flashBlock_below bs (a + 1) a m (by omega) (hm a (by omega))]
      · simp [Store.get]
    | succ i =>
      have hne : ¬a + (i + 1) = a ∧ ¬a + (i + 1) < a := by omega
      have hr := ih (a + 1) (fun x hx => hm x (by omega)) i (by omega)
      rw [show a + 1 + i = a + (i + 1) by omega] at hr
      split <;> simpa [Store.get, hne] using hr

theorem readBytes_congr {f g : Nat → Byte} {a n : Nat} (h : ∀ i < n, f (a + i) = g (a + i)) : readBytes f a n = readBytes g a n :=
  List.map_congr_left fun i hi => h i (List.mem_range.mp hi)

/-- The check of an image without a payload reads its 256 bytes alone. -/
theorem imageCheck_congr {s : State} {f g : Nat → Byte} {e : DirEntry} {ok : Bool} {before : List Loaded}
    (h : ∀ i < 256, f (e.off + i) = g (e.off + i)) (h0 : readLe g (e.off + 0x14) 4 = 0) :
    s.imageCheck f e ok before = s.imageCheck g e ok before := by
  have part : ∀ k n, k + n ≤ 256 → readBytes f (e.off + k) n = readBytes g (e.off + k) n := fun k n hk =>
    readBytes_congr fun i hi => by simpa [Nat.add_assoc] using h (k + i) (by omega)
  have le : ∀ k n, k + n ≤ 256 → readLe f (e.off + k) n = readLe g (e.off + k) n := fun k n hk => by simp only [readLe, part k n hk]
  have top : ∀ n ≤ 256, readBytes f e.off n = readBytes g e.off n := fun n hn => part 0 n (by omega)
  have none : ∀ x : Nat → Byte, readBytes x (e.off + 256) 0 = [] := fun _ => rfl
  simp only [State.imageCheck, le 4 1 (by omega), le 5 1 (by omega), le 6 1 (by omega), le 7 1 (by omega), le 8 4 (by omega),
    le 0xC 4 (by omega), le 0x10 4 (by omega), le 0x14 4 (by omega), le 0x18 8 (by omega), part 0x20 32 (by omega), part 0x40 16 (by omega),
    part 0x40 64 (by omega), part 0x80 64 (by omega), part 0xC0 64 (by omega), top 4 (by omega), top 0xC0 (by omega), h0, none,
    Nat.add_zero, top 256 (by omega)]

/-- Three images that pass their checks, no two of them of one type, pass as a set. -/
theorem setCheck_three {s : State} {rd : Nat → Byte} {e₁ e₂ e₃ : DirEntry} {x₁ x₂ x₃ : Loaded}
    (h₁ : s.imageCheck rd e₁ true [] = (none, some x₁)) (h₂ : s.imageCheck rd e₂ true [x₁] = (none, some x₂))
    (h₃ : s.imageCheck rd e₃ true [x₁, x₂] = (none, some x₃))
    (many : (tooMany e₁.type [] || tooMany e₂.type [x₁] || tooMany e₃.type [x₁, x₂]) = false) :
    s.setCheck rd [] [some (0, e₁), some (1, e₂), some (2, e₃)] [] = { images := [x₁, x₂, x₃] } := by
  simp only [Bool.or_eq_false_iff] at many
  simp [State.setCheck, h₁, h₂, h₃, many]

/-- A boot that tries slot A alone boots from it where its set passes. -/
theorem bootRun_slotA {s : State} {d : Directory} {o : List (Option (Nat × DirEntry))} {l : List Loaded} (hs : s.bootSlots = [0])
    (hd : readDir s.flashByte (slotBase 0) 0 = some d) (ho : s.bootOrder d = o) (hc : s.setCheck s.flashByte [] o [] = { images := l }) :
    (s.bootRun [] []).slot = some 0 := by
  simp [State.bootRun, hs, State.trySlots, State.slotCheck, hd, ho, hc]

/-! ### The hypotheses of the statements can be met -/

namespace W10

/-- States and operands that meet the hypotheses of `StepOnEmptyQueueIsATick`. -/
theorem test_w_StepOnEmptyQueueIsATick :
    ∃ s : State, s.pending = [] :=
  ⟨hostBase, by decide +kernel⟩

/-- Commands and states that meet the hypotheses of `EveryFormedCommandCompletes` and of `EveryStepKeepsStoresCanonicalAndOtpBlown`. -/
theorem test_w_EveryFormedCommandCompletes :
    (∃ (c : Instr) (_s : State), c.wf = true) ∧ (∃ (c : Instr) (_s : State), c.wf = false) :=
  ⟨⟨.registerWrite .porchA 0x40FFFFFC 0 .taken, State.reset, by decide⟩, ⟨.registerWrite .porchA 0x41000000 0 .taken, State.reset, by decide⟩⟩

theorem test_w_EveryStepKeepsStoresCanonicalAndOtpBlown :
    ∃ s t : State, step s = .next t ∧ Canonical s ∧ ∃ i, s.otpBit i = true :=
  ⟨State.reset.otpBurn 3, _, rfl, canonB_spec (by decide +kernel), 3, by decide +kernel⟩

end W10

namespace W11

/-- A command that meets every hypothesis of `EventsChangeOnlyTheirOwnState`. -/
theorem test_w_EventsChangeOnlyTheirOwnState :
    ∃ (c : Instr) (s t : State), exec c s = .next t ∧ Canonical s ∧ (∀ ok, c ≠ .xflashOpDone ok) ∧ (∀ e ab, c ≠ .encoderEdge e ab) ∧
      c.viaRegister = false ∧ c.mayMainSram = false ∧ c.mayPantry = false ∧ c.mayMetro = false ∧ c.maySec = false ∧ c.mayStore = false ∧ c.mayEngine = false ∧ c.mayPwm = false ∧ c.mayForm = false ∧ c.mayMeasure = false ∧ c.mayPort = false ∧ c.mayLegs = false ∧ c.maySafety = false ∧ c.mayAttic = false ∧ c.mayEth = false ∧ c.mayPtp = false ∧ c.mayClock = false ∧ c.mayPower = false ∧ c.mayModes = false ∧ c.mayMode = false ∧ c.mayKeys = false :=
  ⟨.laneUp 0 1, hostBase, _, rfl, canonB_spec (by decide +kernel), fun _ => nofun, fun _ _ => nofun, by decide⟩

end W11

namespace W20

def bases : List State := [hostBase, liveBase, State.reset]

def base (k : Nat) : State := bases.getD k State.reset
theorem canon : ∀ k ∈ [0], Canonical (base k) := canon_of (by decide +kernel)

/-- States and operands that meet the hypotheses of `RegisterAccessesFollowTheirCodes`. -/
theorem test_w_RegisterAccessesFollowTheirCodes :
    (∃ s : State, ∃ ini : Initiator, Canonical s ∧ ∃ p ∈ pageTable, ∃ n < p.count, ∃ off < 4096, ∃ v : Word, off % 4 = 0 ∧ plainReg p.block off = true ∧ headerOff off = false ∧ s.admits ini (p.base + n) off v.toNat = true ∧ ((regFields p n off).map fun x => x.1.key (p.base + n) x.2).Nodup) ∧
    (∃ s : State, ∃ ini : Initiator, Canonical s ∧ ∃ p ∈ pageTable, ∃ n < p.count, ∃ v : Word, s.admits ini (p.base + n) 0x018 v.toNat = true) ∧
    (∃ s : State, ∃ ini : Initiator, Canonical s ∧ ∃ p ∈ pageTable, ∃ n < p.count, ∃ v : Word, s.admits ini (p.base + n) 0x014 v.toNat = true) ∧
    (∃ s : State, ∃ ini : Initiator, Canonical s ∧ ∃ p ∈ pageTable, ∃ n < p.count, ∃ v : Word, s.admits ini (p.base + n) 0x01C v.toNat = true) ∧
    (∃ s : State, ∃ ini : Initiator, Canonical s ∧ ∃ p ∈ pageTable, ∃ n < p.count, ∃ off < 4096, (regFields p n off).any (fun x => x.1.acc = .rc) = true ∧ ((regFields p n off).map fun x => x.1.key (p.base + n) x.2).Nodup ∧ s.readable ini (p.base + n) off = true) :=
  ⟨⟨base 0, Initiator.porchA, canon 0 (by decide), pageTable[1], List.getElem_mem (by decide), 0, by decide +kernel, 72, by decide +kernel, 0x00000000#32, by decide +kernel⟩,
    ⟨base 0, Initiator.porchA, canon 0 (by decide), pageTable[0], List.getElem_mem (by decide), 0, by decide +kernel, 0x00000000#32, by decide +kernel⟩,
    ⟨base 0, Initiator.porchA, canon 0 (by decide), pageTable[0], List.getElem_mem (by decide), 0, by decide +kernel, 0x00000000#32, by decide +kernel⟩,
    ⟨base 0, Initiator.porchA, canon 0 (by decide), pageTable[0], List.getElem_mem (by decide), 0, by decide +kernel, 0x00000000#32, by decide +kernel⟩,
    ⟨base 0, Initiator.porchA, canon 0 (by decide), pageTable[0], List.getElem_mem (by decide), 0, by decide +kernel, 36, by decide +kernel⟩⟩

/-- States and operands that meet the hypotheses of `CommitsAndLocks`. -/
theorem test_w_CommitsAndLocks :
    (∃ s : State, ∃ ini : Initiator, Canonical s ∧ ∃ p ∈ pageTable, ∃ n < p.count, s.admits ini (p.base + n) 0x020 1 = true ∧ p.staged = true ∧ ∃ code, s.commitRefused p (p.base + n) n = some code) ∧
    (∃ s : State, ∃ ini : Initiator, Canonical s ∧ ∃ p ∈ pageTable, ∃ n < p.count, s.admits ini (p.base + n) 0x020 1 = true ∧ p.staged = true ∧ s.commitRefused p (p.base + n) n = none ∧ p.block ∈ [0x0040, 0x0041, 0x0051, 0x0060, 0x0061, 0x0080, 0x00A0]) ∧
    (∃ s : State, ∃ ini : Initiator, Canonical s ∧ ∃ p ∈ pageTable, ∃ n < p.count, s.admits ini (p.base + n) 0x02C 1 = true) :=
  ⟨⟨base 0, (Initiator.porchA), canon 0 (by decide), pageTable[17], List.getElem_mem (by decide), 0, by decide +kernel, by decide +kernel, by decide +kernel, 5, by decide +kernel⟩,
    ⟨base 0, (Initiator.porchA), canon 0 (by decide), pageTable[14], List.getElem_mem (by decide), 0, by decide +kernel⟩,
    ⟨base 0, (Initiator.porchA), canon 0 (by decide), pageTable[0], List.getElem_mem (by decide), 0, by decide +kernel⟩⟩

/-- States and operands that meet the hypotheses of `RefusedWriteChangesNothingElse`. -/
theorem test_w_RefusedWriteChangesNothingElse :
    ∃ s : State, ∃ ini : Initiator, Canonical s ∧ ∃ p ∈ pageTable, ∃ n < p.count, ∃ off < 4096, off % 4 = 0 ∧ p.base ≠ METRO.pg ∧ s.canSend ini = true ∧ s.waitingOf ini = [] ∧ s.mayReach ini (regAddr (p.base + n) off) true = true ∧ s.domainRuns p.domain = true ∧ (regFields p n off).any (fun x => x.1.writable) = true ∧ ∃ v : Word, ∃ code : Nat, s.writeRefused ini p (p.base + n) off (regFields p n off) v.toNat = some code :=
  ⟨base 0, (Initiator.porchA), canon 0 (by decide), pageTable[9], List.getElem_mem (by decide), 0, by decide +kernel, 64, by decide +kernel, by decide +kernel, by decide +kernel, by decide +kernel, by decide +kernel, by decide +kernel, by decide +kernel, by decide +kernel, 0x00000000#32, 1, by decide +kernel⟩

/-- States and operands that meet the hypotheses of `Keyrack`. -/
theorem test_w_Keyrack :
    (∃ s : State, ∃ ini : Initiator, ∃ n : Fin 64, Canonical s ∧ s.readable ini KEYRACK.pg (0x040 + 4 * n) = true) ∧
    (∃ s : State, ∃ ini : Initiator, ∃ n : Fin 64, Canonical s ∧ s.admits ini KEYRACK.pg (0x040 + 4 * n) 0 = true) ∧
    (∃ s : State, ∃ ini : Initiator, ∃ n : Fin 64, Canonical s ∧ s.admits ini KEYRACK.pg 0x148 1 = true) ∧
    (∃ s : State, ∃ ini : Initiator, ∃ n : Fin 64, Canonical s ∧ s.admits ini KEYRACK.pg 0x14C (2 ^ 31 + n) = true) :=
  ⟨⟨base 0, (Initiator.porchA), 0, canon 0 (by decide), by decide +kernel⟩,
    ⟨base 0, (Initiator.porchA), 0, canon 0 (by decide), by decide +kernel⟩,
    ⟨base 0, (Initiator.porchA), 0, canon 0 (by decide), by decide +kernel⟩,
    ⟨base 0, (Initiator.porchA), 0, canon 0 (by decide), by decide +kernel⟩⟩

/-- States and operands that meet the hypotheses of `DoorbellsEoiAndSnapshotReads`. -/
theorem test_w_DoorbellsEoiAndSnapshotReads :
    (∃ s : State, ∃ ini : Initiator, Canonical s ∧ ∃ src : Byte, s.admits ini IRQ.pg 0x4E0 src.toNat = true) ∧
    (∃ s : State, ∃ ini : Initiator, Canonical s ∧ ∃ e : Fin 4, s.admits ini IRQ.pg (0x4D0 + 4 * e) 0 = true) ∧
    (∃ s : State, ∃ ini : Initiator, Canonical s ∧ s.readable ini SYS.pg 0x050 = true) ∧
    (∃ s : State, ∃ ini : Initiator, Canonical s ∧ s.readable ini METRO.pg 0x080 = true) ∧
    (∃ s : State, ∃ ini : Initiator, Canonical s ∧ ∃ m : Fin 9, s.readable ini METRO.pg (0x100 + 0x40 * m) = true) ∧
    (∃ s : State, ∃ ini : Initiator, Canonical s ∧ s.readable ini PTP.pg 0x040 = true) ∧
    (∃ s : State, ∃ ini : Initiator, Canonical s ∧ s.readable ini PTP.pg 0x078 = true) ∧
    (∃ s : State, ∃ ini : Initiator, Canonical s ∧ s.readable ini PTP.pg 0x068 = true) ∧
    (∃ s : State, ∃ ini : Initiator, Canonical s ∧ ∃ k : Fin 8, s.readable ini REDUN.pg (REDUN.STAMP_RSEQ.off + REDUN.STAMP_RSEQ.stride * k) = true) :=
  ⟨⟨base 0, (Initiator.porchA), canon 0 (by decide), 0x00#8, by decide +kernel⟩,
    ⟨base 0, (Initiator.porchA), canon 0 (by decide), 0, by decide +kernel⟩,
    ⟨base 0, (Initiator.porchA), canon 0 (by decide), by decide +kernel⟩,
    ⟨base 0, (Initiator.porchA), canon 0 (by decide), by decide +kernel⟩,
    ⟨base 0, (Initiator.porchA), canon 0 (by decide), 0, by decide +kernel⟩,
    ⟨base 0, (Initiator.porchA), canon 0 (by decide), by decide +kernel⟩,
    ⟨base 0, (Initiator.porchA), canon 0 (by decide), by decide +kernel⟩,
    ⟨base 0, (Initiator.porchA), canon 0 (by decide), by decide +kernel⟩,
    ⟨base 0, (Initiator.porchA), canon 0 (by decide), 0, by decide +kernel⟩⟩

end W20

namespace W21
def qBase : State := hostBase.wr (PORCH.pg 1) PORCH.LINK_MODE 0 1
def kBase : State := { (hostBase.wr KEYRACK.pg KEYRACK.KEY_BITS 7 1).wr KEYRACK.pg KEYRACK.KEY_BITS 9 2 with porchA := { hostBase.porchA with waiting := [⟨.porchA, true, [⟨0x40010040, 0xF, 5⟩], none, false⟩] } , pwr := {hostBase.pwr with state := 2}}
def lBase : State := { kBase with porchA := {}, porchB := { hostBase.porchA with waiting := [⟨.porchB, false, [⟨0x40010040, 0xF, 5⟩], none, false⟩] } , pwr := {hostBase.pwr with state := 2}}
def bases : List State := [hostBase, qBase, kBase, lBase]

def base (k : Nat) : State := bases.getD k State.reset
theorem canon : ∀ k ∈ [0, 2, 3], Canonical (base k) := canon_of (by decide +kernel)

/-- States and operands that meet the hypotheses of `PcieRequestsAndLink`. -/
theorem test_w_PcieRequestsAndLink :
    (∃ s : State, ∃ p : HostPort, Canonical s ∧ s.live = true ∧ s.isQspi p = false ∧ ∃ r : PcieReq, r.wf = true ∧ s.portUp p = true ∧ r.bar2 = false ∧ s.waitingOf (portIni p) ≠ []) ∧
    (∃ s : State, ∃ p : HostPort, Canonical s ∧ s.live = true ∧ s.isQspi p = false ∧ ∃ r : PcieReq, r.wf = true ∧ s.portUp p = true ∧ r.bar2 = false ∧ r.be ≠ [0xF#4] ∧ s.waitingOf (portIni p) = []) ∧
    (∃ s : State, ∃ p : HostPort, Canonical s ∧ s.live = true ∧ s.isQspi p = false ∧ ∃ r : PcieReq, r.wf = true ∧ s.portUp p = true ∧ r.bar2 = true ∧ r.offset.toNat < 0x3C0000 ∧ r.be.length = 1 ∧ r.upsets = [] ∧ s.waitingOf (portIni p) = [] ∧ s.mode ≠ mBOOT ∧ s.sramUe.contains (r.offset.toNat / 8) = false ∧ s.sramCe.contains (r.offset.toNat / 8) = false) ∧
    (∃ s : State, ∃ p : HostPort, Canonical s ∧ s.live = true ∧ s.isQspi p = false ∧ ∃ r : PcieReq, r.wf = true ∧ s.portUp p = true ∧ r.bar2 = true ∧ 0x618000 ≤ r.offset.toNat ∧ r.be.length ≤ 64 ∧ s.waitingOf (portIni p) = []) ∧
    (∃ s : State, ∃ p : HostPort, Canonical s ∧ s.live = true ∧ s.isQspi p = false ∧ ∃ gen2 : Bool, s.flag (portPg p) PORCH.LINK_UP = false) ∧
    (∃ s : State, ∃ p : HostPort, Canonical s ∧ s.live = true ∧ s.isQspi p = false) ∧
    (∃ s : State, ∃ p : HostPort, Canonical s ∧ s.live = true ∧ s.isQspi p = false ∧ ∃ msi : Bool, s.portUp p = true) :=
  ⟨⟨base 3, HostPort.B, canon 3 (by decide), by decide +kernel, by decide +kernel, { bar2 := false, write := false, offset := 0x001000#24, be := [0xf#4], data := [], upsets := [] }, by decide +kernel⟩,
    ⟨base 0, HostPort.B, canon 0 (by decide), by decide +kernel, by decide +kernel, { bar2 := false, write := false, offset := 0x001000#24, be := [0x6#4], data := [], upsets := [] }, by decide +kernel⟩,
    ⟨base 0, (HostPort.B), canon 0 (by decide), by decide +kernel, by decide +kernel, { bar2 := true, write := true, offset := 0x001000#24, be := [0x6#4], data := [0xa1b2c3d4#32], upsets := [] }, by decide +kernel⟩,
    ⟨base 0, HostPort.B, canon 0 (by decide), by decide +kernel, by decide +kernel, { bar2 := true, write := false, offset := 0x618000#24, be := [0xf#4], data := [], upsets := [] }, by decide +kernel⟩,
    ⟨(hostBase.wr (PORCH.pg 1) PORCH.LINK_UP 0 0), .B, canonB_spec (by decide +kernel), by decide +kernel, by decide +kernel, true, by decide +kernel⟩,
    ⟨base 0, (HostPort.B), canon 0 (by decide), by decide +kernel⟩,
    ⟨base 0, (HostPort.B), canon 0 (by decide), by decide +kernel, by decide +kernel, false, by decide +kernel⟩⟩

/-- States and operands that meet the hypotheses of `QspiFramesAndTimeout`. -/
theorem test_w_QspiFramesAndTimeout :
    (∃ s : State, ∃ p : HostPort, Canonical s ∧ s.qspiOn p = true ∧ ∃ a : Word, ∃ n : Nat, ∃ us : List Upset, a.toNat % 4 ≠ 0 ∧ s.waitingOf (portIni p) = []) ∧
    (∃ s : State, ∃ p : HostPort, Canonical s ∧ s.qspiOn p = true ∧ ∃ a : Word, a.toNat % 4 = 0 ∧ sramBase ≤ a.toNat ∧ a.toNat < secureBase ∧ s.waitingOf (portIni p) = [] ∧ s.sramUe.contains (eccWord a.toNat) = false ∧ s.sramCe.contains (eccWord a.toNat) = false) ∧
    (∃ s : State, ∃ p : HostPort, Canonical s ∧ s.qspiOn p = true ∧ ∃ a : Word, a.toNat % 4 = 0 ∧ sramBase ≤ a.toNat ∧ a.toNat < secureBase ∧ s.waitingOf (portIni p) = [] ∧ s.sramUe.contains (eccWord a.toNat) = false ∧ s.sramCe.contains (eccWord a.toNat) = false ∧ ∃ b0 : Byte, ∃ b1 : Byte, ∃ b2 : Byte, ∃ b3 : Byte, True) ∧
    (∃ s : State, ∃ p : HostPort, Canonical s ∧ s.qspiOn p = true ∧ ∃ a : Word, ∃ bs : List Byte, ∃ us : List Upset, a.toNat % 4 ≠ 0 ∧ s.waitingOf (portIni p) = []) ∧
    (∃ s : State, ∃ p : HostPort, Canonical s ∧ s.qspiOn p = true ∧ s.waitingOf (portIni p) = []) ∧
    (∃ s : State, ∃ p : HostPort, Canonical s ∧ s.qspiOn p = true) ∧
    (∃ s : State, ∃ p : HostPort, Canonical s ∧ s.qspiOn p = true ∧ ∃ code : Byte, qspiUnknownOk code = true) ∧
    (∃ s : State, ∃ p : HostPort, Canonical s ∧ s.qspiOn p = true ∧ ∃ a : Access, (s.porch p).waiting = [a] ∧ a.ini = portIni p ∧ s.live = true) :=
  ⟨⟨base 0, HostPort.A, canon 0 (by decide), by decide +kernel, 0x00000003#32, 0, [], by decide +kernel⟩,
    ⟨base 0, (HostPort.A), canon 0 (by decide), by decide +kernel, 0x10000000#32, by decide +kernel⟩,
    ⟨base 0, (HostPort.A), canon 0 (by decide), by decide +kernel, 0x10000000#32, by decide +kernel, by decide +kernel, by decide +kernel, by decide +kernel, by decide +kernel, by decide +kernel, 0x00#8, 0x00#8, 0x00#8, 0x00#8, trivial⟩,
    ⟨base 0, HostPort.A, canon 0 (by decide), by decide +kernel, 0x00000003#32, [], [], by decide +kernel⟩,
    ⟨base 0, HostPort.A, canon 0 (by decide), by decide +kernel⟩,
    ⟨base 0, (HostPort.A), canon 0 (by decide), by decide +kernel⟩,
    ⟨base 0, (HostPort.A), canon 0 (by decide), by decide +kernel, 0x00#8, by decide +kernel⟩,
    ⟨base 2, HostPort.A, canon 2 (by decide), by decide +kernel, { ini := Initiator.porchA, write := true, words := [{ addr := 1073807424, be := 0xf#4, value := 0x00000005#32 }], work := none, dropped := false }, by decide +kernel⟩⟩

end W21

namespace W22
def md (m : Nat) (s : State) : State := s.wr SYS.pg SYS.MODE_MODE 0 m
def rq (t i : Nat) (s : State) : State := { s with modes := { s.modes with request := some (t,i) } }
def b0 : State := hostBase.wr KEYRACK.pg KEYRACK.KEY_BITS 0 1
def bytesOf (n v : Nat) : List Nat := (List.range n).map fun i => v / 256^i % 256
def img (ty load : Nat) : List Nat := [0x4B,0x58,0x49,0x4D,1,ty,0,0] ++ bytesOf 4 7 ++ bytesOf 4 load ++ bytesOf 4 load ++ List.replicate 12 0
def pub : Nat := 0x1a5107f7681a02af2523a6daf372e10e3a0764c9d3fe4bd5b70ab18201985ad7
def keyHash : List Byte := leBytes 32 0x0906752fc3f2c4237ae419e824172f03dcc7bfd90e47a018aabab42502a5020e
def noPayload : Nat := 0x3eda27f97a3238a5817a4147bd31b9632fec7e87d21883ffb0f2855d3cd1d047cee96cd321a9f483dc15570b05e420d607806dd6502854f1bdb8ef7e35e183cf
def sigSec : Nat := 0x00f2dc57f2041c72416ad6f98ee410dd229833e33a17af70f0824b71ee19a98e351f5fef187171a76beecae6ceff831cd63f436b2ab772aa027a52f1dd8d5deb
def sigSupA : Nat := 0x0afe878f77151d41bf87efdff5774bfa5a4efa06d611f51612341a60a94add229c01bd2bdb505ea22c9e8c03e8c5ed122359a1cf1946db8be482e5dc74513ec7
def sigSupB : Nat := 0x05e96edb6847eb0d42378f361a06ee807750e07f519bcec5857dc35e6706625673c4d7e5fa83c2ac6ec855f0d5724d7e3ec33cb82ca57cffa4fb8b3b5b70fa79
def dir : List Nat := [0x4B,0x58,0x44,0x52] ++ bytesOf 4 5 ++ bytesOf 4 0 ++ bytesOf 4 3 ++ [1,0,0,0] ++ bytesOf 4 0x1000 ++ bytesOf 4 256 ++ bytesOf 4 0 ++ [2,0,0,0] ++ bytesOf 4 0x2000 ++ bytesOf 4 256 ++ bytesOf 4 0 ++ [3,0,0,0] ++ bytesOf 4 0x3000 ++ bytesOf 4 256 ++ bytesOf 4 0
def byt (l : List Nat) : List Byte := l.map (BitVec.ofNat 8)
def image (ty load sig : Nat) : List Byte := byt (img ty load ++ bytesOf 32 pub ++ bytesOf 64 noPayload ++ bytesOf 64 0 ++ bytesOf 64 sig)
def im1 : List Byte := image 1 0x103C0000 sigSec
def im2 : List Byte := image 2 0x10000000 sigSupA
def im3 : List Byte := image 3 0x10010000 sigSupB
def flashB : Store 8 := flashBlock 0 (byt dir) ++ (flashBlock 0x1000 im1 ++ (flashBlock 0x2000 im2 ++ (flashBlock 0x3000 im3 ++ [])))
def bootB : State := let h := md 1 hostBase; { h with sec := { h.sec with keanex := [keyHash], flash := flashB } }
def bootC : State := bootB.wr SYS.pg SYS.STRAPS_BOOT_S 0 1
def bases : List State := [b0, (b0.wr SYS.pg SYS.STATUS_TRANS_BUSY 0 1), rq 3 1 b0, rq 2 1 b0, rq 5 1 b0, rq 2 16 (md 3 b0), rq 3 2 (md 6 b0), rq 2 1 (md 7 b0), rq 2 16 (md 7 b0), rq 6 1 (md 3 b0),
  (md 4 b0).wr (FORM.pg 0) FORM.BASECFG_BRIDGES 0 1, ((md 4 b0).wr (FORM.pg 0) FORM.BASECFG_BRIDGES 0 1).wr (PORT.pg 2) PORT.STATUS_PHASE 0 6,
  { md 6 b0 with modes := { b0.modes with ramp := some (1, some 1) } }, { md 6 b0 with modes := { b0.modes with ramp := some (0x22, none) } },
  { rq 2 1 (md 3 b0) with modes := { request := some (2,1), causes := [(0x14,0),(0x510,3),(0x310,3)] } }, md 1 hostBase, bootB, bootC] ++
  [b0.wr SYS.pg SYS.STATUS_DIE_LINK_OK 0 0, { b0 with sec := { b0.sec with lsHaltA := true, lsHaltB := true } },
   rq 3 1 ((md 6 b0).wr (PORT.pg 2) PORT.STATUS_PHASE 0 6), (md 5 b0).wr (FORM.pg 0) FORM.BASECFG_BRIDGES 0 1, rq 6 1 ((md 5 b0).wr (FORM.pg 0) FORM.BASECFG_BRIDGES 0 1),
   { b0 with modes := { b0.modes with causes := [] } }.setSource 57 true]

def base (k : Nat) : State := bases.getD k State.reset
theorem canon : ∀ k ∈ [0, 1, 2, 3, 4, 10, 11, 12, 14, 15, 16, 17, 19, 20, 21, 23], Canonical (base k) := canon_of (by decide +kernel)

/-- States and operands that meet the hypotheses of `ModeRequestWaitsForTheTick`. -/
theorem test_w_ModeRequestWaitsForTheTick :
    (∃ s : State, ∃ ini : Initiator, ∃ target : BitVec 4, Canonical s ∧ s.admits ini SYS.pg 0x044 target.toNat = true ∧ (s.flag SYS.pg SYS.STATUS_TRANS_BUSY = true ∨ s.takesMode = true)) ∧
    (∃ s : State, ∃ ini : Initiator, ∃ target : BitVec 4, Canonical s ∧ s.admits ini SYS.pg 0x044 target.toNat = true ∧ s.flag SYS.pg SYS.STATUS_TRANS_BUSY = false ∧ s.takesMode = false) :=
  ⟨⟨base 1, Initiator.porchA, 0x0#4, canon 1 (by decide), by decide +kernel⟩,
    ⟨base 0, Initiator.porchA, 0x0#4, canon 0 (by decide), by decide +kernel⟩⟩

/-- States and operands that meet the hypotheses of `ModeTickMakesOneTransition`. -/
theorem test_w_ModeTickMakesOneTransition :
    (∃ s : State, Canonical s ∧ s.live = true ∧ s.mode ≠ mBOOT ∧ s.takesMode = false ∧ ∃ target, ∃ id, s.modes.request = some (target, id) ∧ s.dueCauses = [] ∧ s.latchBreaker.closedUnderPermit = false ∧ s.latchBreaker.islanded = false ∧ s.latchBreaker.requestOk target id = false) ∧
    (∃ s : State, Canonical s ∧ s.live = true ∧ s.mode ≠ mBOOT ∧ s.takesMode = false ∧ ∃ target, ∃ id, s.modes.request = some (target, id) ∧ s.dueCauses = [] ∧ s.latchBreaker.closedUnderPermit = false ∧ s.latchBreaker.islanded = false ∧ s.latchBreaker.requestOk target id = true ∧ target = s.mode) ∧
    (∃ s : State, Canonical s ∧ s.live = true ∧ s.mode ≠ mBOOT ∧ s.takesMode = false ∧ ∃ target, ∃ id, s.modes.request = some (target, id) ∧ s.dueCauses = [] ∧ s.latchBreaker.closedUnderPermit = false ∧ s.latchBreaker.islanded = false ∧ s.latchBreaker.requestOk target id = true ∧ target = mREADY ∧ s.forming = true ∧ s.portsOff = false) ∧
    (∃ s : State, Canonical s ∧ s.live = true ∧ s.mode ≠ mBOOT ∧ s.takesMode = false ∧ ∃ target, ∃ id, s.modes.request = some (target, id) ∧ s.dueCauses = [] ∧ s.latchBreaker.closedUnderPermit = false ∧ s.latchBreaker.islanded = false ∧ s.latchBreaker.requestOk target id = true ∧ target ≠ s.mode ∧ (s.forming = true → target = mREADY → s.portsOff = true)) ∧
    (∃ s : State, Canonical s ∧ s.live = true ∧ s.mode ≠ mBOOT ∧ s.takesMode = false ∧ s.dueCauses = [] ∧ (s.latchBreaker.closedUnderPermit = true ∨ s.latchBreaker.islanded = true)) ∧
    (∃ s : State, Canonical s ∧ s.live = true ∧ s.mode ≠ mBOOT ∧ s.takesMode = false ∧ s.dueCauses ≠ [] ∧ s.mode ≠ mSAFE) :=
  ⟨⟨base 4, canon 4 (by decide), by decide +kernel, by decide +kernel, by decide +kernel, 5, 1, by decide +kernel⟩,
    ⟨base 3, canon 3 (by decide), by decide +kernel, by decide +kernel, by decide +kernel, 2, 1, by decide +kernel⟩,
    ⟨base 20, canon 20 (by decide), by decide +kernel, by decide +kernel, by decide +kernel, 3, 1, by decide +kernel⟩,
    ⟨base 2, canon 2 (by decide), by decide +kernel, by decide +kernel, by decide +kernel, 3, 1, by decide +kernel⟩,
    ⟨base 21, canon 21 (by decide), by decide +kernel⟩,
    ⟨base 14, canon 14 (by decide), by decide +kernel⟩⟩

/-- States and operands that meet the hypotheses of `PortsOffSyncTimeoutLinkLossAndLockstep`. -/
theorem test_w_PortsOffSyncTimeoutLinkLossAndLockstep :
    (∃ s : State, Canonical s ∧ s.live = true ∧ ∃ n : Fin 2, s.mode = mSYNC ∧ s.formInUse n = true ∧ s.modes.ramp.all (fun r => r.1 ≠ 0x22) = true ∧ s.closedUnderPermit = false ∧ s.takesMode = false ∧ s.portsOff = true) ∧
    (∃ s : State, Canonical s ∧ s.live = true ∧ ∃ n : Fin 2, s.mode = mSYNC ∧ s.formInUse n = true ∧ s.modes.ramp.all (fun r => r.1 ≠ 0x22) = true ∧ s.closedUnderPermit = false ∧ s.takesMode = false ∧ s.portsOff = false) ∧
    (∃ s : State, Canonical s ∧ s.live = true ∧ ∃ n : Fin 2, (s.mode ≠ mSYNC ∨ s.formInUse n = false ∨ s.modes.ramp.all (fun r => r.1 ≠ 0x22) = false ∨ s.closedUnderPermit = true ∨ s.takesMode = true)) ∧
    (∃ s : State, Canonical s ∧ s.live = true ∧ ∃ cause, ∃ id, s.modes.ramp = some (cause, id) ∧ s.portsOff = true ∧ s.takesMode = false) ∧
    (∃ s : State, Canonical s ∧ s.live = true ∧ (s.modes.ramp = none ∨ s.portsOff = false ∨ s.takesMode = true)) ∧
    (∃ s : State, Canonical s ∧ s.live = true ∧ s.srcActive 57 = false) ∧
    (∃ s : State, Canonical s ∧ s.live = true ∧ s.srcActive 57 = true) ∧
    (∃ s : State, Canonical s ∧ s.live = true) ∧
    (∃ s : State, Canonical s ∧ s.live = true ∧ s.sec.lsHaltA = false) ∧
    (∃ s : State, Canonical s ∧ s.live = true ∧ s.sec.lsHaltB = false) ∧
    (∃ s : State, Canonical s ∧ s.live = true ∧ s.sec.lsHaltA = true) ∧
    (∃ s : State, Canonical s ∧ s.live = true ∧ s.sec.lsHaltB = true) :=
  ⟨⟨base 10, canon 10 (by decide), by decide +kernel, 0, by decide +kernel⟩,
    ⟨base 11, canon 11 (by decide), by decide +kernel, 0, by decide +kernel⟩,
    ⟨base 0, canon 0 (by decide), by decide +kernel, 0, by decide +kernel⟩,
    ⟨base 12, canon 12 (by decide), by decide +kernel, 1, some 1, by decide +kernel⟩,
    ⟨base 0, canon 0 (by decide), by decide +kernel⟩,
    ⟨base 0, canon 0 (by decide), by decide +kernel⟩,
    ⟨base 23, canon 23 (by decide), by decide +kernel⟩,
    ⟨base 0, canon 0 (by decide), by decide +kernel⟩,
    ⟨base 0, canon 0 (by decide), by decide +kernel⟩,
    ⟨base 0, canon 0 (by decide), by decide +kernel⟩,
    ⟨base 19, canon 19 (by decide), by decide +kernel⟩,
    ⟨base 19, canon 19 (by decide), by decide +kernel⟩⟩

theorem len_image (ty load sig : Nat) : (image ty load sig).length = 256 := by simp [image, byt, img, bytesOf]
theorem len_dir : (byt dir).length = 64 := by decide
theorem bootC_sec (i : Nat) (hi : i < 256) : bootC.flashByte (0x1000 + i) = im1.getD i 0 := by
  have hl : im1.length = 256 := len_image ..
  rw [show ∀ a, bootC.flashByte a = flashB.get a ^^^ 0xFF from fun _ => rfl, flashB]
  rw [flashBlock_above _ _ _ _ (by rw [len_dir]; omega)]
  exact flashBlock_read _ _ _ (fun x hx => flashBlock_below _ _ _ _ (by omega) (flashBlock_below _ _ _ _ (by omega) rfl)) i (by omega)
theorem bootC_supA (i : Nat) (hi : i < 256) : bootC.flashByte (0x2000 + i) = im2.getD i 0 := by
  have hl : im2.length = 256 := len_image ..
  have h1 : im1.length = 256 := len_image ..
  rw [show ∀ a, bootC.flashByte a = flashB.get a ^^^ 0xFF from fun _ => rfl, flashB]
  rw [flashBlock_above _ _ _ _ (by rw [len_dir]; omega), flashBlock_above _ _ _ _ (by omega)]
  exact flashBlock_read _ _ _ (fun x hx => flashBlock_below _ _ _ _ (by omega) rfl) i (by omega)
theorem bootC_supB (i : Nat) (hi : i < 256) : bootC.flashByte (0x3000 + i) = im3.getD i 0 := by
  have hl : im3.length = 256 := len_image ..
  have h1 : im1.length = 256 := len_image ..
  have h2 : im2.length = 256 := len_image ..
  rw [show ∀ a, bootC.flashByte a = flashB.get a ^^^ 0xFF from fun _ => rfl, flashB]
  rw [flashBlock_above _ _ _ _ (by rw [len_dir]; omega), flashBlock_above _ _ _ _ (by omega), flashBlock_above _ _ _ _ (by omega)]
  exact flashBlock_read _ _ _ (fun x hx => rfl) i (by omega)
def load1 (ty dst : Nat) : Loaded :=
  { type := ty, svn := 7, entry := dst, src := 0x1000 * ty + 256, dst := dst, len := 0, xip := false
    hash16 := byt (bytesOf 16 noPayload), hash32 := [] }
def ims : List Loaded := [load1 1 0x103C0000, load1 2 0x10000000, load1 3 0x10010000]
def entry (ty : Nat) : DirEntry := { type := ty, off := 0x1000 * ty, len := 256 }
theorem check_of (ty : Nat) (bs : List Byte) (before : List Loaded) (h : ∀ i < 256, bootC.flashByte (0x1000 * ty + i) = bs.getD i 0)
    (h0 : readLe (fun a => bs.getD (a - 0x1000 * ty) 0) (0x1000 * ty + 0x14) 4 = 0) :
  bootC.imageCheck bootC.flashByte (entry ty) true before = bootC.imageCheck (fun a => bs.getD (a - 0x1000 * ty) 0) (entry ty) true before :=
  imageCheck_congr (fun i hi => by simpa [entry] using h i hi) h0
theorem good1 : bootC.imageCheck bootC.flashByte (entry 1) true [] = (none, some (load1 1 0x103C0000)) :=
  (check_of 1 im1 _ bootC_sec (by decide +kernel)).trans (by decide +kernel)
theorem good2 : bootC.imageCheck bootC.flashByte (entry 2) true (ims.take 1) = (none, some (load1 2 0x10000000)) :=
  (check_of 2 im2 _ bootC_supA (by decide +kernel)).trans (by decide +kernel)
theorem good3 : bootC.imageCheck bootC.flashByte (entry 3) true (ims.take 2) = (none, some (load1 3 0x10010000)) :=
  (check_of 3 im3 _ bootC_supB (by decide +kernel)).trans (by decide +kernel)
def dirD : Directory := { gen := 5, xfcfg := 0, entries := [entry 1, entry 2, entry 3] }
theorem dir17 : readDir bootC.flashByte (slotBase 0) 0 = some dirD := by decide +kernel
theorem order17 : bootC.bootOrder dirD = [some (0, entry 1), some (1, entry 2), some (2, entry 3)] := by decide +kernel
theorem slots17 : bootC.bootSlots = [0] := by decide +kernel
theorem set17 : bootC.setCheck bootC.flashByte [] [some (0, entry 1), some (1, entry 2), some (2, entry 3)] [] = { images := ims } :=
  setCheck_three good1 good2 good3 (by decide +kernel)
theorem boot17 : (bootC.bootRun [] []).slot = some 0 := bootRun_slotA slots17 dir17 order17 set17

/-- States and operands that meet the hypotheses of `BootEndsInConfigOrRecovery`. -/
theorem test_w_BootEndsInConfigOrRecovery :
    (∃ s : State, ∃ badA : List (Fin 16), ∃ badB : List (Fin 16), Canonical s ∧ s.booting = true ∧ ∃ k < 2, ∃ d : Directory, (s.bootRun badA badB).slot = some k ∧ readDir s.flashByte (slotBase k) 0 = some d) ∧
    (∃ s : State, ∃ badA : List (Fin 16), ∃ badB : List (Fin 16), Canonical s ∧ s.booting = true) ∧
    (∃ s : State, ∃ badA : List (Fin 16), ∃ badB : List (Fin 16), Canonical s ∧ s.booting = true ∧ ∃ c : Nat, ∃ e : Nat, (s.bootRun badA badB).slot = none ∧ (s.bootRun badA badB).fail = some (c, some e)) :=
  ⟨⟨bootC, [], [], canon 17 (by decide), by decide +kernel, 0, by decide +kernel, dirD, boot17, dir17⟩,
    ⟨base 15, [], [], canon 15 (by decide), by decide +kernel⟩,
    ⟨base 17, [0], [], canon 17 (by decide), by decide +kernel, 11, 0, by decide +kernel⟩⟩

end W22

namespace W23
def md (m : Nat) (s : State) : State := s.wr SYS.pg SYS.MODE_MODE 0 m
def fset (s : State) (f : Fld) (v : Nat) (i : Nat := 0) : State := s.wr (FORM.pg 0) f i v
def F (st m : Nat) : State := let s := md m hostBase
  let s := fset (fset s FORM.BASECFG_BRIDGES 1) FORM.STATUS_STATE st
  let s := fset (fset s FORM.INROUTE_EN 1 3) FORM.INROUTE_EN 1 13
  let s := fset s FORM.INROUTE_EN 1 16
  let s := { s with form := s.form.map fun (u : FormUnit) => { u with presentFrom := some 3, permitFrom := some 3, omega := 1, e := 1, theta := 1, inputs := u.inputs.map fun (x : FormInput) => { x with valid := true, fresh := true} } }
  s.setForm 0 { s.formUnit 0 with inputs := (((s.formUnit 0).inputs.set 3 { (s.formUnit 0).inputs[3] with stale := 300 }).set 16 { (s.formUnit 0).inputs[3] with stale := 300 }).set 1 { (s.formUnit 0).inputs[3] with stale := 300 } }
def bases : List State := [F 0 3, F 1 4, F 2 5, F 3 6, F 4 5, (F 2 5).wr (FORM.pg 0) FORM.STATUS_ANGLE_LIMIT 0 1, (F 2 5).wr (FORM.pg 0) FORM.STATUS_COMMIT_PENDING 0 1] ++
  [(let s := F 2 5; { s with form := s.form.map fun (u : FormUnit) => { u with next := some s.cyc, slots := Vector.replicate 24 { live := true } } })]

def base (k : Nat) : State := bases.getD k State.reset
theorem canon : ∀ k ∈ [0, 1, 5, 7], Canonical (base k) := canon_of (by decide +kernel)

/-- States and operands that meet the hypotheses of `FormUpdateKeepsItsBounds`. -/
theorem test_w_FormUpdateKeepsItsBounds :
    (∃ s : State, ∃ n : Fin 2, Canonical s ∧ s.live = true ∧ s.formDue n = false) ∧
    (∃ s : State, ∃ n : Fin 2, Canonical s ∧ s.live = true ∧ ∃ at_, s.formDue n = true ∧ (s.formUnit n).next = some at_) :=
  ⟨⟨base 0, 0, canon 0 (by decide), by decide +kernel⟩,
    ⟨base 7, 0, canon 7 (by decide), by decide +kernel, 0x0000000000000000#64, by decide +kernel⟩⟩

/-- States and operands that meet the hypotheses of `FormEvents`. -/
theorem test_w_FormEvents :
    (∃ s : State, ∃ n : Fin 2, Canonical s ∧ s.live = true ∧ ∃ k : Fin 18, s.flag (FORM.pg n) FORM.INROUTE_EN k = true ∧ ((s.formUnit n).inputs[k].valid = false ∨ s.rd (FORM.pg n) FORM.STALE_LIM_LIMIT ≤ (s.formUnit n).inputs[k].stale)) ∧
    (∃ s : State, ∃ n : Fin 2, Canonical s ∧ s.live = true ∧ ∃ k : Fin 18, (s.flag (FORM.pg n) FORM.INROUTE_EN k = false ∨ ((s.formUnit n).inputs[k].valid = true ∧ (s.formUnit n).inputs[k].stale < s.rd (FORM.pg n) FORM.STALE_LIM_LIMIT))) ∧
    (∃ s : State, ∃ n : Fin 2, Canonical s ∧ s.live = true ∧ s.flag (FORM.pg n) FORM.STATUS_ANGLE_LIMIT = true ∧ (s.formState n = fSYNC ∨ s.formState n = fFORM ∨ s.formState n = fRAMP)) ∧
    (∃ s : State, ∃ n : Fin 2, Canonical s ∧ s.live = true ∧ ∃ k : Fin 24, (s.formUnit n).slots[k].live = false) ∧
    (∃ s : State, ∃ n : Fin 2, Canonical s ∧ s.live = true ∧ ∃ k : Fin 24, (s.formUnit n).slots[k].live = true) ∧
    (∃ s : State, ∃ n : Fin 2, Canonical s ∧ s.live = true ∧ (s.formUnit n).presentFrom ≠ none) ∧
    (∃ s : State, ∃ n : Fin 2, Canonical s ∧ s.live = true ∧ (s.formUnit n).permitFrom ≠ none ∧ s.formState n = fSYNC ∧ (s.formUnit n).mbClosed = false) :=
  ⟨⟨base 0, 0, canon 0 (by decide), by decide +kernel, 3, by decide +kernel⟩,
    ⟨base 0, 0, canon 0 (by decide), by decide +kernel, 0, by decide +kernel⟩,
    ⟨base 5, 0, canon 5 (by decide), by decide +kernel⟩,
    ⟨base 0, 0, canon 0 (by decide), by decide +kernel, 0, by decide +kernel⟩,
    ⟨base 7, 0, canon 7 (by decide), by decide +kernel, 0, by decide +kernel⟩,
    ⟨base 0, 0, canon 0 (by decide), by decide +kernel⟩,
    ⟨base 1, 0, canon 1 (by decide), by decide +kernel⟩⟩

end W23

namespace W24
def md (m : Nat) (s : State) : State := s.wr SYS.pg SYS.MODE_MODE 0 m
def mkW (op pred : Nat) (pneg : Nat) (d a b c imm : Nat) : BitVec 64 := BitVec.ofNat 64 (op*2^58+pred*2^55+pneg*2^54+d*2^48+a*2^40+b*2^32+c*2^24+imm)
def ops : List Nat := (List.range 0x1D) ++ [0x20,0x21,0x22,0x23,0x24,0x25,0x26,0x27,0x30,0x3E]
def wds : List (BitVec 64) := ops.flatMap fun o => [mkW o 0 0 5 1 2 3 0x12345, mkW o 0 0 63 0x71 0x40 4 (11+2^9*20+2^18), mkW o 6 1 7 0x60 0x73 0x78 3, mkW o 1 0 5 1 2 3 0x10, mkW o 0 0 5 6 1 3 (19+8*5)]
def aRun (p : Nat) (tr st : Bool) : LeRun := { prog := 1, origin := 16, pc := 17, cycle := p, start := st, track := tr, limset := p % 2 }
def vals : List Word := [0x3F800000, 0x40490FDB, 0xBF000000,0x7FC00001,0x80000000,0x7F800000,0x3DCCCCCD,0x45000000,0x12345678,0xFFFFFFFF]
def uR (p : Nat) (tr st : Bool) : LeUnit := { g := Vector.ofFn fun i => vals[(i.val + p) % 10]!, p := 0x12, inS := Vector.ofFn fun i => vals[(i.val*3 + p) % 10]!, inSP := Vector.ofFn fun i => vals[(i.val*7 + p) % 10]!, run := some (aRun p tr st), blend := BitVec.ofNat 8 (p % 3), swap := p = 3 , stop := p = 4, held := p = 2}
def stateOf (w : BitVec 64) (p : Nat) (tr st : Bool) : State :=
  let s := md 6 hostBase
  let s := (List.range 16).foldl (fun s k => s.setDmem 3 (k + 10) (vals[(k+p)%10]!)) s
  let s := (List.range 16).foldl (fun s k => s.wr (LE.pg 3) LE.OPORT_CFG_KIND (k%8) (k%3)) s
  let s := (List.range 8).foldl (fun s k => (s.wr (LE.pg 3) LE.OPORT_HI0_VALUE k 0x3F800000).wr (LE.pg 3) LE.OPORT_HI1_VALUE k 0x3FC00000) s
  let s := if p = 1 then (s.wr (LE.pg 3) LE.DMAP_COEF_BASE 0 10).wr (LE.pg 3) LE.DMAP_COEF_LEN 0 8 else s
  let s := (s.setLpsWord 17 w).wr (LE.pg 3) LE.STATUS_STATE 0 1
  s.setLe 3 (uR p tr st)
def bases : List State := wds.flatMap fun w => [stateOf w 1 false false, stateOf w 2 true false, stateOf w 3 false true, stateOf w 4 false false]

def base (k : Nat) : State := bases.getD k State.reset
theorem canon : ∀ k ∈ [144, 684, 704, 724, 740, 741, 744, 760], Canonical (base k) := canon_of (by decide +kernel)

/-- States and operands that meet the hypotheses of `LoopInstructionsOfOneResult`. -/
theorem test_w_LoopInstructionsOfOneResult :
    (∃ s : State, ∃ n : Fin 16, ∃ run : LeRun, ∃ i : LeInstr, s.issues n run i = true ∧ s.leGuard n run i = true ∧ i.op = 0x01) ∧
    (∃ s : State, ∃ n : Fin 16, ∃ run : LeRun, ∃ i : LeInstr, s.issues n run i = true ∧ s.leGuard n run i = true ∧ i.op = 0x02) ∧
    (∃ s : State, ∃ n : Fin 16, ∃ run : LeRun, ∃ i : LeInstr, s.issues n run i = true ∧ s.leGuard n run i = true ∧ i.op = 0x08) ∧
    (∃ s : State, ∃ n : Fin 16, ∃ run : LeRun, ∃ i : LeInstr, s.issues n run i = true ∧ s.leGuard n run i = true ∧ i.op = 0x09) ∧
    (∃ s : State, ∃ n : Fin 16, ∃ run : LeRun, ∃ i : LeInstr, s.issues n run i = true ∧ s.leGuard n run i = true ∧ i.op = 0x0A) ∧
    (∃ s : State, ∃ n : Fin 16, ∃ run : LeRun, ∃ i : LeInstr, s.issues n run i = true ∧ s.leGuard n run i = true ∧ i.op = 0x0B) ∧
    (∃ s : State, ∃ n : Fin 16, ∃ run : LeRun, ∃ i : LeInstr, s.issues n run i = true ∧ s.leGuard n run i = true ∧ i.op = 0x0C) ∧
    (∃ s : State, ∃ n : Fin 16, ∃ run : LeRun, ∃ i : LeInstr, s.issues n run i = true ∧ s.leGuard n run i = true ∧ i.op = 0x0D) ∧
    (∃ s : State, ∃ n : Fin 16, ∃ run : LeRun, ∃ i : LeInstr, s.issues n run i = true ∧ s.leGuard n run i = true ∧ i.op = 0x0E) ∧
    (∃ s : State, ∃ n : Fin 16, ∃ run : LeRun, ∃ i : LeInstr, s.issues n run i = true ∧ s.leGuard n run i = true ∧ i.op = 0x0F) ∧
    (∃ s : State, ∃ n : Fin 16, ∃ run : LeRun, ∃ i : LeInstr, s.issues n run i = true ∧ s.leGuard n run i = true ∧ i.op = 0x10) ∧
    (∃ s : State, ∃ n : Fin 16, ∃ run : LeRun, ∃ i : LeInstr, s.issues n run i = true ∧ s.leGuard n run i = true ∧ i.op = 0x11) ∧
    (∃ s : State, ∃ n : Fin 16, ∃ run : LeRun, ∃ i : LeInstr, s.issues n run i = true ∧ s.leGuard n run i = true ∧ i.op = 0x12) ∧
    (∃ s : State, ∃ n : Fin 16, ∃ run : LeRun, ∃ i : LeInstr, s.issues n run i = true ∧ s.leGuard n run i = true ∧ i.op = 0x13) ∧
    (∃ s : State, ∃ n : Fin 16, ∃ run : LeRun, ∃ i : LeInstr, s.issues n run i = true ∧ s.leGuard n run i = true ∧ i.op = 0x14) ∧
    (∃ s : State, ∃ n : Fin 16, ∃ run : LeRun, ∃ i : LeInstr, s.issues n run i = true ∧ s.leGuard n run i = true ∧ i.op = 0x15) ∧
    (∃ s : State, ∃ n : Fin 16, ∃ run : LeRun, ∃ i : LeInstr, s.issues n run i = true ∧ s.leGuard n run i = true ∧ i.op = 0x16) ∧
    (∃ s : State, ∃ n : Fin 16, ∃ run : LeRun, ∃ i : LeInstr, s.issues n run i = true ∧ s.leGuard n run i = true ∧ i.op = 0x17) ∧
    (∃ s : State, ∃ n : Fin 16, ∃ run : LeRun, ∃ i : LeInstr, s.issues n run i = true ∧ s.leGuard n run i = true ∧ i.op = 0x18) ∧
    (∃ s : State, ∃ n : Fin 16, ∃ run : LeRun, ∃ i : LeInstr, s.issues n run i = true ∧ s.leGuard n run i = true ∧ i.op = 0x19) ∧
    (∃ s : State, ∃ n : Fin 16, ∃ run : LeRun, ∃ i : LeInstr, s.issues n run i = true ∧ s.leGuard n run i = true ∧ i.op = 0x1A) ∧
    (∃ s : State, ∃ n : Fin 16, ∃ run : LeRun, ∃ i : LeInstr, s.issues n run i = true ∧ s.leGuard n run i = true ∧ i.op = 0x1B) ∧
    (∃ s : State, ∃ n : Fin 16, ∃ run : LeRun, ∃ i : LeInstr, s.issues n run i = true ∧ s.leGuard n run i = true ∧ i.op = 0x1C) :=
  ⟨⟨base 20, 3, { prog := 1, origin := 16, pc := 17, cycle := 1, start := false, track := false, limset := 1, at_ := 0x0000000000000000#64 }, { op := 1, pred := 0, pneg := false, dst := 5, a := 1, b := 2, c := 3, imm := 74565 }, by decide +kernel⟩,
    ⟨base 40, 3, { prog := 1, origin := 16, pc := 17, cycle := 1, start := false, track := false, limset := 1, at_ := 0x0000000000000000#64 }, { op := 2, pred := 0, pneg := false, dst := 5, a := 1, b := 2, c := 3, imm := 74565 }, by decide +kernel⟩,
    ⟨base 160, 3, { prog := 1, origin := 16, pc := 17, cycle := 1, start := false, track := false, limset := 1, at_ := 0x0000000000000000#64 }, { op := 8, pred := 0, pneg := false, dst := 5, a := 1, b := 2, c := 3, imm := 74565 }, by decide +kernel⟩,
    ⟨base 180, 3, { prog := 1, origin := 16, pc := 17, cycle := 1, start := false, track := false, limset := 1, at_ := 0x0000000000000000#64 }, { op := 9, pred := 0, pneg := false, dst := 5, a := 1, b := 2, c := 3, imm := 74565 }, by decide +kernel⟩,
    ⟨base 200, 3, { prog := 1, origin := 16, pc := 17, cycle := 1, start := false, track := false, limset := 1, at_ := 0x0000000000000000#64 }, { op := 10, pred := 0, pneg := false, dst := 5, a := 1, b := 2, c := 3, imm := 74565 }, by decide +kernel⟩,
    ⟨base 220, 3, { prog := 1, origin := 16, pc := 17, cycle := 1, start := false, track := false, limset := 1, at_ := 0x0000000000000000#64 }, { op := 11, pred := 0, pneg := false, dst := 5, a := 1, b := 2, c := 3, imm := 74565 }, by decide +kernel⟩,
    ⟨base 240, 3, { prog := 1, origin := 16, pc := 17, cycle := 1, start := false, track := false, limset := 1, at_ := 0x0000000000000000#64 }, { op := 12, pred := 0, pneg := false, dst := 5, a := 1, b := 2, c := 3, imm := 74565 }, by decide +kernel⟩,
    ⟨base 260, 3, { prog := 1, origin := 16, pc := 17, cycle := 1, start := false, track := false, limset := 1, at_ := 0x0000000000000000#64 }, { op := 13, pred := 0, pneg := false, dst := 5, a := 1, b := 2, c := 3, imm := 74565 }, by decide +kernel⟩,
    ⟨base 280, 3, { prog := 1, origin := 16, pc := 17, cycle := 1, start := false, track := false, limset := 1, at_ := 0x0000000000000000#64 }, { op := 14, pred := 0, pneg := false, dst := 5, a := 1, b := 2, c := 3, imm := 74565 }, by decide +kernel⟩,
    ⟨base 300, 3, { prog := 1, origin := 16, pc := 17, cycle := 1, start := false, track := false, limset := 1, at_ := 0x0000000000000000#64 }, { op := 15, pred := 0, pneg := false, dst := 5, a := 1, b := 2, c := 3, imm := 74565 }, by decide +kernel⟩,
    ⟨base 320, 3, { prog := 1, origin := 16, pc := 17, cycle := 1, start := false, track := false, limset := 1, at_ := 0x0000000000000000#64 }, { op := 16, pred := 0, pneg := false, dst := 5, a := 1, b := 2, c := 3, imm := 74565 }, by decide +kernel⟩,
    ⟨base 340, 3, { prog := 1, origin := 16, pc := 17, cycle := 1, start := false, track := false, limset := 1, at_ := 0x0000000000000000#64 }, { op := 17, pred := 0, pneg := false, dst := 5, a := 1, b := 2, c := 3, imm := 74565 }, by decide +kernel⟩,
    ⟨base 360, 3, { prog := 1, origin := 16, pc := 17, cycle := 1, start := false, track := false, limset := 1, at_ := 0x0000000000000000#64 }, { op := 18, pred := 0, pneg := false, dst := 5, a := 1, b := 2, c := 3, imm := 74565 }, by decide +kernel⟩,
    ⟨base 380, 3, { prog := 1, origin := 16, pc := 17, cycle := 1, start := false, track := false, limset := 1, at_ := 0x0000000000000000#64 }, { op := 19, pred := 0, pneg := false, dst := 5, a := 1, b := 2, c := 3, imm := 74565 }, by decide +kernel⟩,
    ⟨base 400, 3, { prog := 1, origin := 16, pc := 17, cycle := 1, start := false, track := false, limset := 1, at_ := 0x0000000000000000#64 }, { op := 20, pred := 0, pneg := false, dst := 5, a := 1, b := 2, c := 3, imm := 74565 }, by decide +kernel⟩,
    ⟨base 420, 3, { prog := 1, origin := 16, pc := 17, cycle := 1, start := false, track := false, limset := 1, at_ := 0x0000000000000000#64 }, { op := 21, pred := 0, pneg := false, dst := 5, a := 1, b := 2, c := 3, imm := 74565 }, by decide +kernel⟩,
    ⟨base 440, 3, { prog := 1, origin := 16, pc := 17, cycle := 1, start := false, track := false, limset := 1, at_ := 0x0000000000000000#64 }, { op := 22, pred := 0, pneg := false, dst := 5, a := 1, b := 2, c := 3, imm := 74565 }, by decide +kernel⟩,
    ⟨base 460, 3, { prog := 1, origin := 16, pc := 17, cycle := 1, start := false, track := false, limset := 1, at_ := 0x0000000000000000#64 }, { op := 23, pred := 0, pneg := false, dst := 5, a := 1, b := 2, c := 3, imm := 74565 }, by decide +kernel⟩,
    ⟨base 480, 3, { prog := 1, origin := 16, pc := 17, cycle := 1, start := false, track := false, limset := 1, at_ := 0x0000000000000000#64 }, { op := 24, pred := 0, pneg := false, dst := 5, a := 1, b := 2, c := 3, imm := 74565 }, by decide +kernel⟩,
    ⟨base 500, 3, { prog := 1, origin := 16, pc := 17, cycle := 1, start := false, track := false, limset := 1, at_ := 0x0000000000000000#64 }, { op := 25, pred := 0, pneg := false, dst := 5, a := 1, b := 2, c := 3, imm := 74565 }, by decide +kernel⟩,
    ⟨base 520, 3, { prog := 1, origin := 16, pc := 17, cycle := 1, start := false, track := false, limset := 1, at_ := 0x0000000000000000#64 }, { op := 26, pred := 0, pneg := false, dst := 5, a := 1, b := 2, c := 3, imm := 74565 }, by decide +kernel⟩,
    ⟨base 540, 3, { prog := 1, origin := 16, pc := 17, cycle := 1, start := false, track := false, limset := 1, at_ := 0x0000000000000000#64 }, { op := 27, pred := 0, pneg := false, dst := 5, a := 1, b := 2, c := 3, imm := 74565 }, by decide +kernel⟩,
    ⟨base 560, 3, { prog := 1, origin := 16, pc := 17, cycle := 1, start := false, track := false, limset := 1, at_ := 0x0000000000000000#64 }, { op := 28, pred := 0, pneg := false, dst := 5, a := 1, b := 2, c := 3, imm := 74565 }, by decide +kernel⟩⟩

/-- States and operands that meet the hypotheses of `FalseGuardOnlyTakesItsCost`. -/
theorem test_w_FalseGuardOnlyTakesItsCost :
    ∃ s : State, ∃ n : Fin 16, ∃ run : LeRun, ∃ i : LeInstr, s.issues n run i = true ∧ s.leGuard n run i = false ∧ i.op ≠ 0x3E ∧ ∃ x ∈ issueRows n noUpset, x.1 = i.op :=
  ⟨base 9, 3, { prog := 1, origin := 16, pc := 17, cycle := 2, start := false, track := true, limset := 0, at_ := 0x0000000000000000#64 }, { op := 0, pred := 6, pneg := true, dst := 7, a := 96, b := 115, c := 120, imm := 3 }, by decide +kernel, by decide +kernel, by decide +kernel, _, List.mem_of_getElem? (i := 0) rfl, by decide +kernel⟩

/-- States and operands that meet the hypotheses of `LoopPredicatesAndDataMemory`. -/
theorem test_w_LoopPredicatesAndDataMemory :
    (∃ s : State, ∃ n : Fin 16, ∃ run : LeRun, ∃ i : LeInstr, s.issues n run i = true ∧ s.leGuard n run i = true ∧ i.op = 0x00) ∧
    (∃ s : State, ∃ n : Fin 16, ∃ run : LeRun, ∃ i : LeInstr, s.issues n run i = true ∧ s.leGuard n run i = true ∧ i.op = 0x03) ∧
    (∃ s : State, ∃ n : Fin 16, ∃ run : LeRun, ∃ i : LeInstr, s.issues n run i = true ∧ s.leGuard n run i = true ∧ i.op = 0x04) ∧
    (∃ s : State, ∃ n : Fin 16, ∃ run : LeRun, ∃ i : LeInstr, s.issues n run i = true ∧ s.leGuard n run i = true ∧ i.op = 0x05) ∧
    (∃ s : State, ∃ n : Fin 16, ∃ run : LeRun, ∃ i : LeInstr, s.issues n run i = true ∧ s.leGuard n run i = true ∧ i.op = 0x06) ∧
    (∃ s : State, ∃ n : Fin 16, ∃ run : LeRun, ∃ i : LeInstr, s.issues n run i = true ∧ s.leGuard n run i = true ∧ i.op = 0x07 ∧ s.isCoef n (i.imm % 512) = false) ∧
    (∃ s : State, ∃ n : Fin 16, ∃ run : LeRun, ∃ i : LeInstr, s.issues n run i = true ∧ s.leGuard n run i = true ∧ i.op = 0x07 ∧ s.isCoef n (i.imm % 512) = true ∧ Canonical s) :=
  ⟨⟨base 0, 3, { prog := 1, origin := 16, pc := 17, cycle := 1, start := false, track := false, limset := 1, at_ := 0x0000000000000000#64 }, { op := 0, pred := 0, pneg := false, dst := 5, a := 1, b := 2, c := 3, imm := 74565 }, by decide +kernel⟩,
    ⟨base 60, 3, { prog := 1, origin := 16, pc := 17, cycle := 1, start := false, track := false, limset := 1, at_ := 0x0000000000000000#64 }, { op := 3, pred := 0, pneg := false, dst := 5, a := 1, b := 2, c := 3, imm := 74565 }, by decide +kernel⟩,
    ⟨base 80, 3, { prog := 1, origin := 16, pc := 17, cycle := 1, start := false, track := false, limset := 1, at_ := 0x0000000000000000#64 }, { op := 4, pred := 0, pneg := false, dst := 5, a := 1, b := 2, c := 3, imm := 74565 }, by decide +kernel⟩,
    ⟨base 100, 3, { prog := 1, origin := 16, pc := 17, cycle := 1, start := false, track := false, limset := 1, at_ := 0x0000000000000000#64 }, { op := 5, pred := 0, pneg := false, dst := 5, a := 1, b := 2, c := 3, imm := 74565 }, by decide +kernel⟩,
    ⟨base 120, 3, { prog := 1, origin := 16, pc := 17, cycle := 1, start := false, track := false, limset := 1, at_ := 0x0000000000000000#64 }, { op := 6, pred := 0, pneg := false, dst := 5, a := 1, b := 2, c := 3, imm := 74565 }, by decide +kernel⟩,
    ⟨base 140, 3, { prog := 1, origin := 16, pc := 17, cycle := 1, start := false, track := false, limset := 1, at_ := 0x0000000000000000#64 }, { op := 7, pred := 0, pneg := false, dst := 5, a := 1, b := 2, c := 3, imm := 74565 }, by decide +kernel⟩,
    ⟨base 144, 3, { prog := 1, origin := 16, pc := 17, cycle := 1, start := false, track := false, limset := 1, at_ := 0x0000000000000000#64 }, { op := 7, pred := 0, pneg := false, dst := 63, a := 113, b := 64, c := 4, imm := 272395 }, by decide +kernel, by decide +kernel, by decide +kernel, by decide +kernel, canon 144 (by decide)⟩⟩

/-- States and operands that meet the hypotheses of `LoopTransforms`. -/
theorem test_w_LoopTransforms :
    (∃ s : State, ∃ n : Fin 16, ∃ run : LeRun, ∃ i : LeInstr, s.issues n run i = true ∧ s.leGuard n run i = true ∧ i.op = 0x20) ∧
    (∃ s : State, ∃ n : Fin 16, ∃ run : LeRun, ∃ i : LeInstr, s.issues n run i = true ∧ s.leGuard n run i = true ∧ i.op = 0x21) ∧
    (∃ s : State, ∃ n : Fin 16, ∃ run : LeRun, ∃ i : LeInstr, s.issues n run i = true ∧ s.leGuard n run i = true ∧ i.op = 0x22) ∧
    (∃ s : State, ∃ n : Fin 16, ∃ run : LeRun, ∃ i : LeInstr, s.issues n run i = true ∧ s.leGuard n run i = true ∧ i.op = 0x23) ∧
    (∃ s : State, ∃ n : Fin 16, ∃ run : LeRun, ∃ i : LeInstr, s.issues n run i = true ∧ s.leGuard n run i = true ∧ i.op = 0x24) :=
  ⟨⟨base 580, 3, { prog := 1, origin := 16, pc := 17, cycle := 1, start := false, track := false, limset := 1, at_ := 0x0000000000000000#64 }, { op := 32, pred := 0, pneg := false, dst := 5, a := 1, b := 2, c := 3, imm := 74565 }, by decide +kernel⟩,
    ⟨base 600, 3, { prog := 1, origin := 16, pc := 17, cycle := 1, start := false, track := false, limset := 1, at_ := 0x0000000000000000#64 }, { op := 33, pred := 0, pneg := false, dst := 5, a := 1, b := 2, c := 3, imm := 74565 }, by decide +kernel⟩,
    ⟨base 620, 3, { prog := 1, origin := 16, pc := 17, cycle := 1, start := false, track := false, limset := 1, at_ := 0x0000000000000000#64 }, { op := 34, pred := 0, pneg := false, dst := 5, a := 1, b := 2, c := 3, imm := 74565 }, by decide +kernel⟩,
    ⟨base 640, 3, { prog := 1, origin := 16, pc := 17, cycle := 1, start := false, track := false, limset := 1, at_ := 0x0000000000000000#64 }, { op := 35, pred := 0, pneg := false, dst := 5, a := 1, b := 2, c := 3, imm := 74565 }, by decide +kernel⟩,
    ⟨base 660, 3, { prog := 1, origin := 16, pc := 17, cycle := 1, start := false, track := false, limset := 1, at_ := 0x0000000000000000#64 }, { op := 36, pred := 0, pneg := false, dst := 5, a := 1, b := 2, c := 3, imm := 74565 }, by decide +kernel⟩⟩

/-- States and operands that meet the hypotheses of `LoopStatefulOperations`. -/
theorem test_w_LoopStatefulOperations :
    (∃ s : State, ∃ n : Fin 16, ∃ run : LeRun, ∃ i : LeInstr, s.issues n run i = true ∧ s.leGuard n run i = true ∧ i.op = 0x25 ∧ s.isCoef n (i.imm % 512) = false) ∧
    (∃ s : State, ∃ n : Fin 16, ∃ run : LeRun, ∃ i : LeInstr, s.issues n run i = true ∧ s.leGuard n run i = true ∧ i.op = 0x26 ∧ s.isCoef n (i.imm % 512) = false ∧ s.isCoef n ((i.imm % 512 + 1) % 512) = false) ∧
    (∃ s : State, ∃ n : Fin 16, ∃ run : LeRun, ∃ i : LeInstr, s.issues n run i = true ∧ s.leGuard n run i = true ∧ i.op = 0x27 ∧ s.isCoef n (i.imm % 512) = false) ∧
    (∃ s : State, ∃ n : Fin 16, ∃ run : LeRun, ∃ i : LeInstr, s.issues n run i = true ∧ s.leGuard n run i = true ∧ Canonical s ∧ s.isCoef n (i.imm % 512) = true ∧ i.op = 0x25) ∧
    (∃ s : State, ∃ n : Fin 16, ∃ run : LeRun, ∃ i : LeInstr, s.issues n run i = true ∧ s.leGuard n run i = true ∧ Canonical s ∧ s.isCoef n (i.imm % 512) = true ∧ i.op = 0x27) ∧
    (∃ s : State, ∃ n : Fin 16, ∃ run : LeRun, ∃ i : LeInstr, s.issues n run i = true ∧ s.leGuard n run i = true ∧ i.op = 0x26 ∧ Canonical s ∧ (s.isCoef n (i.imm % 512) = true ∨ s.isCoef n ((i.imm % 512 + 1) % 512) = true)) :=
  ⟨⟨base 680, 3, { prog := 1, origin := 16, pc := 17, cycle := 1, start := false, track := false, limset := 1, at_ := 0x0000000000000000#64 }, { op := 37, pred := 0, pneg := false, dst := 5, a := 1, b := 2, c := 3, imm := 74565 }, by decide +kernel⟩,
    ⟨base 700, 3, { prog := 1, origin := 16, pc := 17, cycle := 1, start := false, track := false, limset := 1, at_ := 0x0000000000000000#64 }, { op := 38, pred := 0, pneg := false, dst := 5, a := 1, b := 2, c := 3, imm := 74565 }, by decide +kernel⟩,
    ⟨base 720, 3, { prog := 1, origin := 16, pc := 17, cycle := 1, start := false, track := false, limset := 1, at_ := 0x0000000000000000#64 }, { op := 39, pred := 0, pneg := false, dst := 5, a := 1, b := 2, c := 3, imm := 74565 }, by decide +kernel⟩,
    ⟨base 684, 3, { prog := 1, origin := 16, pc := 17, cycle := 1, start := false, track := false, limset := 1, at_ := 0x0000000000000000#64 }, { op := 37, pred := 0, pneg := false, dst := 63, a := 113, b := 64, c := 4, imm := 272395 }, by decide +kernel, by decide +kernel, canon 684 (by decide), by decide +kernel⟩,
    ⟨base 724, 3, { prog := 1, origin := 16, pc := 17, cycle := 1, start := false, track := false, limset := 1, at_ := 0x0000000000000000#64 }, { op := 39, pred := 0, pneg := false, dst := 63, a := 113, b := 64, c := 4, imm := 272395 }, by decide +kernel, by decide +kernel, canon 724 (by decide), by decide +kernel⟩,
    ⟨base 704, 3, { prog := 1, origin := 16, pc := 17, cycle := 1, start := false, track := false, limset := 1, at_ := 0x0000000000000000#64 }, { op := 38, pred := 0, pneg := false, dst := 63, a := 113, b := 64, c := 4, imm := 272395 }, by decide +kernel, by decide +kernel, by decide +kernel, canon 704 (by decide), by decide +kernel⟩⟩

/-- States and operands that meet the hypotheses of `LoopOutAndEnd`. -/
theorem test_w_LoopOutAndEnd :
    (∃ s : State, ∃ n : Fin 16, ∃ run : LeRun, ∃ i : LeInstr, Canonical s ∧ s.issues n run i = true ∧ i.op = 0x30 ∧ s.leGuard n run i = true ∧ finBits (s.opA n i).toNat = false) ∧
    (∃ s : State, ∃ n : Fin 16, ∃ run : LeRun, ∃ i : LeInstr, Canonical s ∧ s.issues n run i = true ∧ ∃ j : Fin 8, i.op = 0x30 ∧ s.leGuard n run i = true ∧ j.val = i.imm % 8 ∧ finBits (s.opA n i).toNat = true ∧ run.track = false ∧ (s.leUnit n).blend.getLsbD j = false ∧ s.rd (LE.pg n) LE.OPORT_CFG_KIND j = 2) ∧
    (∃ s : State, ∃ n : Fin 16, ∃ run : LeRun, ∃ i : LeInstr, Canonical s ∧ s.issues n run i = true ∧ ∃ j : Fin 8, i.op = 0x30 ∧ s.leGuard n run i = true ∧ j.val = i.imm % 8 ∧ finBits (s.opA n i).toNat = true ∧ ∃ kind, ∃ unit, ∃ ix, s.rd (LE.pg n) LE.OPORT_CFG_KIND j = kind ∧ s.rd (LE.pg n) LE.OPORT_CFG_UNIT j = unit ∧ s.rd (LE.pg n) LE.OPORT_CFG_INDEX j = ix ∧ unit < 16 ∧ ix < 8 ∧ ∃ v, (s.portValue n j run (s.opA n i)).1 = v) ∧
    (∃ s : State, ∃ n : Fin 16, ∃ run : LeRun, ∃ i : LeInstr, Canonical s ∧ s.issues n run i = true ∧ i.op = 0x3E) :=
  ⟨⟨base 741, 3, { prog := 1, origin := 16, pc := 17, cycle := 2, start := false, track := true, limset := 0, at_ := 0x0000000000000000#64 }, { op := 48, pred := 0, pneg := false, dst := 5, a := 1, b := 2, c := 3, imm := 74565 }, canon 741 (by decide), by decide +kernel⟩,
    ⟨base 744, 3, { prog := 1, origin := 16, pc := 17, cycle := 1, start := false, track := false, limset := 1, at_ := 0x0000000000000000#64 }, { op := 48, pred := 0, pneg := false, dst := 63, a := 113, b := 64, c := 4, imm := 272395 }, canon 744 (by decide), by decide +kernel, 3, by decide +kernel⟩,
    ⟨base 740, 3, { prog := 1, origin := 16, pc := 17, cycle := 1, start := false, track := false, limset := 1, at_ := 0x0000000000000000#64 }, { op := 48, pred := 0, pneg := false, dst := 5, a := 1, b := 2, c := 3, imm := 74565 }, canon 740 (by decide), by decide +kernel, 5, by decide +kernel, by decide +kernel, by decide +kernel, by decide +kernel, _, _, _, rfl, rfl, rfl, by decide +kernel, by decide +kernel, _, rfl⟩,
    ⟨base 760, 3, { prog := 1, origin := 16, pc := 17, cycle := 1, start := false, track := false, limset := 1, at_ := 0x0000000000000000#64 }, { op := 62, pred := 0, pneg := false, dst := 5, a := 1, b := 2, c := 3, imm := 74565 }, canon 760 (by decide), by decide +kernel⟩⟩

end W24

namespace W25
def md (m : Nat) (s : State) : State := s.wr SYS.pg SYS.MODE_MODE 0 m
def mkW (op pred : Nat) (pneg : Nat) (d a b c imm : Nat) : BitVec 64 := BitVec.ofNat 64 (op*2^58+pred*2^55+pneg*2^54+d*2^48+a*2^40+b*2^32+c*2^24+imm)
def ops : List Nat := [0,8,5,0x25]
def wds : List (BitVec 64) := ops.map fun o => mkW o 0 0 5 1 2 3 0x12345
def aRun (p : Nat) (tr st : Bool) : LeRun := { prog := 1, origin := 16, pc := 17, cycle := p, start := st, track := tr, limset := p % 2 }
def vals : List Word := [0x3F800000, 0x40490FDB, 0xBF000000,0x7FC00001,0x80000000,0x7F800000,0x3DCCCCCD,0x45000000,0x12345678,0xFFFFFFFF]
def uR (p : Nat) : LeUnit := { g := Vector.ofFn fun i => vals[(i.val + p) % 10]!, run := some (aRun 1 false false)}
def wds3 : List (BitVec 64) := [mkW 6 0 0 5 1 2 3 11, mkW 0x25 0 0 5 1 2 3 (20 + 2 ^ 9 * 11), mkW 0x26 0 0 5 1 2 3 (20 + 2 ^ 9 * 11), mkW 0x27 0 0 5 1 2 3 (20 + 2 ^ 9 * 11)]
def wds2 : List (BitVec 64) := wds ++ [mkW 0x3F 0 0 0 0 0 0 (5*2^16)]
def stateOf (w : BitVec 64) (p : Nat) : State :=
  let s := md 6 hostBase
  let s := if p = 2 then (s.wr LPS.pg LPS.LAST_REFETCH_WORD 0 17).wr LPS.pg LPS.LAST_REFETCH_SET 0 1 else s
  let s := (s.setLpsWord 17 w).wr (LE.pg 3) LE.STATUS_STATE 0 1
  let s := (s.setLpsWord 19 w).wr LPS.pg LPS.BANKMASTER_ADDR 0 0x10000000
  s.setLe 3 (uR p)
def sw (f : Fld) (i v : Nat) (s : State) : State := s.wr (LE.pg 3) f i v
def dm (w : BitVec 64) (len : Nat) (ue : List Nat) : State :=
  let s := (sw LE.COEF_MASTER_ADDR 0 0x10000000 (sw LE.DMAP_COEF_BASE 0 10 (sw LE.DMAP_COEF_LEN 0 len (stateOf w 1))))
  { s.pokeBytes 0x10000000 [1, 2, 3, 0x40, 5, 6, 7, 0x3F] with sramUe := ue }
def E (st : Nat) (u : LeUnit) (f : State → State := id) : State := (f ((md 6 hostBase).wr (LE.pg 3) LE.STATUS_STATE 0 st)).setLe 3 u
def pw (f : Fld) (i v : Nat) (s : State) : State := s.wr LPS.pg f i v
def bases : List State := [hostBase] ++ (wds.flatMap fun w => [stateOf w 1, stateOf w 2]) ++
 [E 0 {}, E 6 {}, E 1 {}, E 1 {due := true}, E 1 {due := true, held := true}, E 2 {}, E 1 {halted := true}, E 1 {run := some (aRun 1 true false)},
  E 1 {events := 7} (sw LE.TRIG_DIV 0 2), E 1 { due := true } (fun s => (sw LE.PROG_START 3 40 s).setLpsWord 40 (mkW 0x3F 0 0 0 0 0 0 (5*2^16))),
  E 1 { due := true, hand := .start } (sw LE.SP_CFG_RAMP_EN 2 1), E 1 { due := true } (sw LE.WATCH_MASK 0 0xFF), E 1 { due := true } (fun s => sw LE.STALE_ACTION 0 1 (sw LE.WATCH_MASK 0 0xFF (sw LE.SLOTSTAT_AGE 2 255 s))),
  E 1 { due := true } (fun s => sw LE.STALE_ACTION 0 2 (sw LE.WATCH_MASK 0 0xFF (sw LE.SLOTSTAT_AGE 2 255 s))),
  E 1 { due := true } (fun s => sw LE.STALE_ACTION 0 0 (sw LE.WATCH_MASK 0 0xFF (sw LE.SLOTSTAT_AGE 2 255 s))), E 5 {}, E 1 {} (sw LE.COEF_STAGE_ADDR 0 0x10000000), E 1 {run := some (aRun 1 true false)} (sw LE.COEF_STAGE_ADDR 0 0x10000000),
  E 2 {} (sw LE.DMAP_COEF_LEN 0 7), pw LPS.LOAD_SRC_ADDR 0 0x10000000 hostBase, pw LPS.STATUS_LIB_BUSY 0 1 hostBase, { hostBase with lps := { hostBase.lps with load := some (0x10000000, 2, 1), lib := some (3, 0x10000010) } },
  { hostBase with lps := { hostBase.lps with load := some (0x10000000, 2, 1), lib := some (3, 0x10000013) } }, { hostBase with lps := { hostBase.lps with load := some (0x10000000, 2, 1), lib := some (9, 0x10000010) } }] ++
  [E 1 { owed := 1, events := 7 } (sw LE.TRIG_DIV 0 2), E 1 { owed := 1, halted := true }, E 1 { owed := 1 }, E 1 { owed := 1, due := true }, E 1 { owed := 1, due := true, held := true }] ++
  (wds3.flatMap fun w => [dm w 8 [], dm w 0 [], dm w 8 [eccWord 0x10000004]])

def base (k : Nat) : State := bases.getD k State.reset
theorem canon : ∀ k ∈ [0, 1, 3, 12, 14, 30, 33, 34, 35, 36, 37, 38, 39, 40], Canonical (base k) := canon_of (by decide +kernel)

/-- States and operands that meet the hypotheses of `LoopTriggers`. -/
theorem test_w_LoopTriggers :
    (∃ s : State, ∃ n : Fin 16, Canonical s ∧ s.live = true ∧ s.domainRuns 1 = true ∧ ∃ u, s.leUnit n = u ∧ (u.owed = 0 ∨ s.leState n = leSTOPPED ∨ s.leState n = leFAULT)) ∧
    (∃ s : State, ∃ n : Fin 16, Canonical s ∧ s.live = true ∧ s.domainRuns 1 = true ∧ ∃ u, s.leUnit n = u ∧ u.owed ≠ 0 ∧ s.leState n ≠ leSTOPPED ∧ s.leState n ≠ leFAULT ∧ ∃ w : LeUnit, w = { u with owed := u.owed - 1, events := u.events + 1 } ∧ u.events % (s.rd (LE.pg n) LE.TRIG_DIV + 1) ≠ s.rd (LE.pg n) LE.TRIG_PHASE) ∧
    (∃ s : State, ∃ n : Fin 16, Canonical s ∧ s.live = true ∧ s.domainRuns 1 = true ∧ ∃ u, s.leUnit n = u ∧ u.owed ≠ 0 ∧ s.leState n ≠ leSTOPPED ∧ s.leState n ≠ leFAULT ∧ ∃ w : LeUnit, w = { u with owed := u.owed - 1, events := u.events + 1 } ∧ u.events % (s.rd (LE.pg n) LE.TRIG_DIV + 1) = s.rd (LE.pg n) LE.TRIG_PHASE ∧ (s.leState n = leOPEN ∨ u.halted = true)) ∧
    (∃ s : State, ∃ n : Fin 16, Canonical s ∧ s.live = true ∧ s.domainRuns 1 = true ∧ ∃ u, s.leUnit n = u ∧ u.owed ≠ 0 ∧ s.leState n ≠ leSTOPPED ∧ s.leState n ≠ leFAULT ∧ ∃ w : LeUnit, w = { u with owed := u.owed - 1, events := u.events + 1 } ∧ u.events % (s.rd (LE.pg n) LE.TRIG_DIV + 1) = s.rd (LE.pg n) LE.TRIG_PHASE ∧ s.leState n ≠ leOPEN ∧ u.halted = false ∧ u.run = none ∧ u.due = false) ∧
    (∃ s : State, ∃ n : Fin 16, Canonical s ∧ s.live = true ∧ s.domainRuns 1 = true ∧ ∃ u, s.leUnit n = u ∧ u.owed ≠ 0 ∧ s.leState n ≠ leSTOPPED ∧ s.leState n ≠ leFAULT ∧ ∃ w : LeUnit, w = { u with owed := u.owed - 1, events := u.events + 1 } ∧ u.events % (s.rd (LE.pg n) LE.TRIG_DIV + 1) = s.rd (LE.pg n) LE.TRIG_PHASE ∧ s.leState n ≠ leOPEN ∧ u.halted = false ∧ (u.run ≠ none ∨ u.due = true) ∧ u.held = false ∧ u.kept = false) ∧
    (∃ s : State, ∃ n : Fin 16, Canonical s ∧ s.live = true ∧ s.domainRuns 1 = true ∧ ∃ u, s.leUnit n = u ∧ u.owed ≠ 0 ∧ s.leState n ≠ leSTOPPED ∧ s.leState n ≠ leFAULT ∧ ∃ w : LeUnit, w = { u with owed := u.owed - 1, events := u.events + 1 } ∧ u.events % (s.rd (LE.pg n) LE.TRIG_DIV + 1) = s.rd (LE.pg n) LE.TRIG_PHASE ∧ s.leState n ≠ leOPEN ∧ u.halted = false ∧ (u.run ≠ none ∨ u.due = true) ∧ (u.held = true ∨ u.kept = true)) :=
  ⟨⟨base 0, 0, canon 0 (by decide), by decide +kernel, by decide +kernel, _, rfl, by decide +kernel⟩,
    ⟨base 33, 3, canon 33 (by decide), by decide +kernel, by decide +kernel, _, rfl, by decide +kernel, by decide +kernel, by decide +kernel, _, rfl, by decide +kernel⟩,
    ⟨base 34, 3, canon 34 (by decide), by decide +kernel, by decide +kernel, _, rfl, by decide +kernel, by decide +kernel, by decide +kernel, _, rfl, by decide +kernel⟩,
    ⟨base 35, 3, canon 35 (by decide), by decide +kernel, by decide +kernel, _, rfl, by decide +kernel, by decide +kernel, by decide +kernel, _, rfl, by decide +kernel⟩,
    ⟨base 36, 3, canon 36 (by decide), by decide +kernel, by decide +kernel, _, rfl, by decide +kernel, by decide +kernel, by decide +kernel, _, rfl, by decide +kernel⟩,
    ⟨base 37, 3, canon 37 (by decide), by decide +kernel, by decide +kernel, _, rfl, by decide +kernel, by decide +kernel, by decide +kernel, _, rfl, by decide +kernel⟩⟩

/-- States and operands that meet the hypotheses of `LoopRunStarts`. -/
theorem test_w_LoopRunStarts :
    (∃ s : State, ∃ n : Fin 16, Canonical s ∧ s.live = true ∧ s.domainRuns 1 = true ∧ ∃ u, s.leUnit n = u ∧ ∃ st, s.leState n = st ∧ (u.due = false ∨ u.halted = true ∨ st = leSTOPPED ∨ st = leFAULT ∨ st = leOPEN)) ∧
    (∃ s : State, ∃ n : Fin 16, Canonical s ∧ s.live = true ∧ s.domainRuns 1 = true ∧ ∃ u, s.leUnit n = u ∧ ∃ st, s.leState n = st ∧ u.due = true ∧ u.halted = false ∧ st ≠ leSTOPPED ∧ st ≠ leFAULT ∧ st ≠ leOPEN ∧ ∃ b, s.boundary (LE.pg n) = b ∧ b.leState n = st ∧ ∃ prog, b.leProgram n = prog) :=
  ⟨⟨base 0, 0, canon 0 (by decide), by decide +kernel, by decide +kernel, _, rfl, _, rfl, by decide +kernel⟩,
    ⟨base 12, 3, canon 12 (by decide), by decide +kernel, by decide +kernel, _, rfl, _, rfl, by decide +kernel, by decide +kernel, by decide +kernel, by decide +kernel, by decide +kernel, _, rfl, by decide +kernel, _, rfl⟩⟩

/-- States and operands that meet the hypotheses of `LoopSetPointsAndSwaps`. -/
theorem test_w_LoopSetPointsAndSwaps :
    (∃ s : State, ∃ ini : Initiator, ∃ n : Fin 16, Canonical s ∧ ∃ k : Fin 8, ∃ v : Word, ∃ both : Bool, s.admits ini (LE.pg n) (0x308 + 0x10 * k) v.toNat = true) ∧
    (∃ s : State, ∃ ini : Initiator, ∃ n : Fin 16, Canonical s ∧ s.admits ini (LE.pg n) 0x008 (s.ctrlWith (LE.pg n) LE.CTRL_EN 2) = true) ∧
    (∃ s : State, ∃ ini : Initiator, ∃ n : Fin 16, Canonical s ∧ s.admits ini (LE.pg n) 0x008 (s.ctrlWith (LE.pg n) LE.CTRL_EN 4) = true) ∧
    (∃ s : State, ∃ ini : Initiator, ∃ n : Fin 16, Canonical s ∧ s.live = true ∧ s.domainRuns 1 = true ∧ s.leState n ≠ leOPEN) ∧
    (∃ s : State, ∃ ini : Initiator, ∃ n : Fin 16, Canonical s ∧ s.live = true ∧ s.domainRuns 1 = true ∧ s.leState n = leOPEN ∧ ∃ len, ∃ stage, ∃ master, s.rd (LE.pg n) LE.DMAP_COEF_LEN = len ∧ s.rd (LE.pg n) LE.COEF_STAGE_ADDR = stage ∧ s.rd (LE.pg n) LE.COEF_MASTER_ADDR = master) :=
  ⟨⟨base 0, (Initiator.porchA), 3, canon 0 (by decide), 0, 0x00000000#32, false, by decide +kernel⟩,
    ⟨base 0, (Initiator.porchA), 3, canon 0 (by decide), by decide +kernel⟩,
    ⟨base 0, (Initiator.porchA), 3, canon 0 (by decide), by decide +kernel⟩,
    ⟨base 0, Initiator.porchA, 0, canon 0 (by decide), by decide +kernel⟩,
    ⟨base 14, Initiator.porchA, 3, canon 14 (by decide), by decide +kernel, by decide +kernel, by decide +kernel, _, _, _, rfl, rfl, rfl⟩⟩

/-- States and operands that meet the hypotheses of `LoopProgramStore`. -/
theorem test_w_LoopProgramStore :
    (∃ s : State, ∃ ini : Initiator, Canonical s ∧ ∃ first : BitVec 4, ∃ count : BitVec 5, s.admits ini LPS.pg 0x044 (first.toNat + 16 * count.toNat + 2 ^ 31) = true) ∧
    (∃ s : State, ∃ ini : Initiator, Canonical s ∧ s.live = true ∧ s.lps.load = none) ∧
    (∃ s : State, ∃ ini : Initiator, Canonical s ∧ s.live = true ∧ s.lps.lib = none) ∧
    (∃ s : State, ∃ ini : Initiator, Canonical s ∧ ∃ id, ∃ r, libRow id = some r) ∧
    (∃ s : State, ∃ ini : Initiator, Canonical s ∧ s.live = true ∧ ∃ src, ∃ first, ∃ count, s.lps.load = some (src, first, count) ∧ first + count ≤ 16) ∧
    (∃ s : State, ∃ ini : Initiator, Canonical s ∧ ∃ id : Byte, s.admits ini LPS.pg 0x04C (id.toNat + 2 ^ 31) = true) ∧
    (∃ s : State, ∃ ini : Initiator, Canonical s ∧ s.live = true ∧ ∃ id, ∃ dest, s.lps.lib = some (id, dest)) ∧
    (∃ s : State, ∃ ini : Initiator, Canonical s ∧ ∃ v : Word, s.admits ini LPS.pg 0x05C v.toNat = true) :=
  ⟨⟨base 0, (Initiator.porchA), canon 0 (by decide), 0x2#4, 0x01#5, by decide +kernel⟩,
    ⟨base 0, Initiator.porchA, canon 0 (by decide), by decide +kernel⟩,
    ⟨base 0, Initiator.porchA, canon 0 (by decide), by decide +kernel⟩,
    ⟨base 0, Initiator.porchA, canon 0 (by decide), 1, _, rfl⟩,
    ⟨base 30, (Initiator.porchA), canon 30 (by decide), by decide +kernel, 268435456, 2, 1, by decide +kernel⟩,
    ⟨base 0, (Initiator.porchA), canon 0 (by decide), 0x00#8, by decide +kernel⟩,
    ⟨base 30, (Initiator.porchA), canon 30 (by decide), by decide +kernel, 3, 268435472, by decide +kernel⟩,
    ⟨base 0, (Initiator.porchA), canon 0 (by decide), 0x00000000#32, by decide +kernel⟩⟩

/-- States and operands that meet the hypotheses of `LoopUpsets`. -/
theorem test_w_LoopUpsets :
    (∃ s : State, ∃ n : Fin 16, ∃ again : Bool, s.live = true ∧ s.domainRuns 1 = true ∧ (s.leUnit n).run = none) ∧
    (∃ s : State, ∃ n : Fin 16, ∃ run : LeRun, ∃ i : LeInstr, Canonical s ∧ s.issues n run i = true ∧ ∃ x ∈ issueRows n { operands := 2, words := [] }, x.1 = i.op ∧ hasOperands i.op = true) ∧
    (∃ s : State, ∃ n : Fin 16, ∃ run : LeRun, ∃ i : LeInstr, Canonical s ∧ s.issues n run i = true ∧ i.op = 0x08 ∧ s.leGuard n run i = true) ∧
    (∃ s : State, ∃ n : Fin 16, ∃ run : LeRun, ∃ i : LeInstr, Canonical s ∧ s.issues n run i = true ∧ ∃ again : Bool, run.pc < 4096 ∧ ∃ img, s.rd LPS.pg LPS.BANKMASTER_ADDR (run.pc / 256) + 8 * (run.pc % 256) = img) ∧
    (∃ s : State, ∃ n : Fin 16, ∃ run : LeRun, ∃ i : LeInstr, Canonical s ∧ s.issues n run i = true ∧ ∃ w : Fin 512, s.leGuard n run i = true ∧ (i.op = 0x06 ∧ w.val = i.imm % 512 ∨ i.op ∈ [0x25, 0x26, 0x27] ∧ (w.val = bitsOf i.imm 9 9 ∨ w.val = i.imm % 512)) ∧ ∃ x ∈ issueRows n { operands := 0, words := [w] }, x.1 = i.op ∧ ∃ src, s.rd (LE.pg n) LE.COEF_MASTER_ADDR + 4 * (w.val - s.rd (LE.pg n) LE.DMAP_COEF_BASE) = src ∧ s.isCoef n w = false) ∧
    (∃ s : State, ∃ n : Fin 16, ∃ run : LeRun, ∃ i : LeInstr, Canonical s ∧ s.issues n run i = true ∧ ∃ w : Fin 512, s.leGuard n run i = true ∧ (i.op = 0x06 ∧ w.val = i.imm % 512 ∨ i.op ∈ [0x25, 0x26, 0x27] ∧ (w.val = bitsOf i.imm 9 9 ∨ w.val = i.imm % 512)) ∧ ∃ x ∈ issueRows n { operands := 0, words := [w] }, x.1 = i.op ∧ ∃ src, s.rd (LE.pg n) LE.COEF_MASTER_ADDR + 4 * (w.val - s.rd (LE.pg n) LE.DMAP_COEF_BASE) = src ∧ s.isCoef n w = true ∧ s.sramUe.contains (eccWord src) = true) ∧
    (∃ s : State, ∃ n : Fin 16, ∃ run : LeRun, ∃ i : LeInstr, Canonical s ∧ s.issues n run i = true ∧ ∃ w : Fin 512, s.leGuard n run i = true ∧ (i.op = 0x06 ∧ w.val = i.imm % 512 ∨ i.op ∈ [0x25, 0x26, 0x27] ∧ (w.val = bitsOf i.imm 9 9 ∨ w.val = i.imm % 512)) ∧ ∃ x ∈ issueRows n { operands := 0, words := [w] }, x.1 = i.op ∧ ∃ src, s.rd (LE.pg n) LE.COEF_MASTER_ADDR + 4 * (w.val - s.rd (LE.pg n) LE.DMAP_COEF_BASE) = src ∧ s.isCoef n w = true ∧ s.sramUe.contains (eccWord src) = false ∧ (i.op ≠ 0x06 → s.isCoef n (i.imm % 512) = false ∧ (i.op = 0x26 → s.isCoef n ((i.imm % 512 + 1) % 512) = false)) ∧ ∃ s', s' = s.withDmem n w (BitVec.ofNat 32 (ofLeBytes (s.bytesAt src 4)))) :=
  ⟨⟨base 0, 0, false, by decide +kernel⟩,
    ⟨base 3, 3, { prog := 1, origin := 16, pc := 17, cycle := 1, start := false, track := false, limset := 1, at_ := 0x0000000000000000#64 }, { op := 8, pred := 0, pneg := false, dst := 5, a := 1, b := 2, c := 3, imm := 74565 }, canon 3 (by decide), by decide +kernel, _, List.mem_of_getElem? (i := 8) rfl, by decide +kernel⟩,
    ⟨base 3, 3, { prog := 1, origin := 16, pc := 17, cycle := 1, start := false, track := false, limset := 1, at_ := 0x0000000000000000#64 }, { op := 8, pred := 0, pneg := false, dst := 5, a := 1, b := 2, c := 3, imm := 74565 }, canon 3 (by decide), by decide +kernel⟩,
    ⟨base 1, 3, { prog := 1, origin := 16, pc := 17, cycle := 1, start := false, track := false, limset := 1, at_ := 0x0000000000000000#64 }, { op := 0, pred := 0, pneg := false, dst := 5, a := 1, b := 2, c := 3, imm := 74565 }, canon 1 (by decide), by decide +kernel, false, by decide +kernel, _, rfl⟩,
    ⟨base 39, 3, { prog := 1, origin := 16, pc := 17, cycle := 1, start := false, track := false, limset := 1, at_ := 0x0000000000000000#64 }, { op := 6, pred := 0, pneg := false, dst := 5, a := 1, b := 2, c := 3, imm := 11 }, canon 39 (by decide), by decide +kernel, 11, by decide +kernel, by decide +kernel, (issueRows 3 { operands := 0, words := [11] })[6], List.getElem_mem (by decide), by decide +kernel, _, rfl, by decide +kernel⟩,
    ⟨base 40, 3, { prog := 1, origin := 16, pc := 17, cycle := 1, start := false, track := false, limset := 1, at_ := 0x0000000000000000#64 }, { op := 6, pred := 0, pneg := false, dst := 5, a := 1, b := 2, c := 3, imm := 11 }, canon 40 (by decide), by decide +kernel, 11, by decide +kernel, by decide +kernel, (issueRows 3 { operands := 0, words := [11] })[6], List.getElem_mem (by decide), by decide +kernel, _, rfl, by decide +kernel⟩,
    ⟨base 38, 3, { prog := 1, origin := 16, pc := 17, cycle := 1, start := false, track := false, limset := 1, at_ := 0x0000000000000000#64 }, { op := 6, pred := 0, pneg := false, dst := 5, a := 1, b := 2, c := 3, imm := 11 }, canon 38 (by decide), by decide +kernel, 11, by decide +kernel, by decide +kernel, (issueRows 3 { operands := 0, words := [11] })[6], List.getElem_mem (by decide), by decide +kernel, _, rfl, by decide +kernel, by decide +kernel, by decide +kernel, _, rfl⟩⟩

end W25

namespace W26
def md (m : Nat) (s : State) : State := s.wr SYS.pg SYS.MODE_MODE 0 m
def pw (f : Fld) (i v : Nat) (s : State) : State := s.wr (PWM.pg 3) f i v
def fw (f : Fld) (i v : Nat) (s : State) : State := s.wr FUSE.pg f i v
def b6 : State := md 6 hostBase
def run3 (s : State) : State := pw PWM.PERIOD_COARSE 0 1000 (pw PWM.CTRL_RUN 0 1 (pw PWM.CTRL_EN 0 1 s))
def sf (e : Nat) (s : State) : State := { s with fuse := { edges := e } }
def mapS (i cyc stop : Nat) (s : State) : State := fw FUSE.MAP_STOP i stop (fw FUSE.MAP_CYCLE i cyc (fw FUSE.MAP_UNITS i 0x18 (fw FUSE.MAP_EN i 1 s)))
def bases : List State := [hostBase, b6, run3 b6, run3 (md 4 hostBase), pw PWM.CFG_MODE 0 2 (run3 b6), pw PWM.SYNC_SRC 0 2 (run3 b6), pw PWM.STATUS_HALT_SAFE 0 1 (run3 b6), pw PWM.CFG_UPDATE 0 1 (pw PWM.STATUS_DRIVING 0 1 (run3 b6)),
 { b6 with clk := { b6.clk with rootAbsent := true } }, sf (2^5+2^40) (mapS 5 0 1 (mapS 40 1 0 (run3 b6))), sf (2^5+2^40) (mapS 5 1 1 (mapS 40 0 0 (pw PWM.STATUS_DRIVING 0 1 (run3 b6)))),
 fw FUSE.LATCH_LO_SRC 0 0x31 (fw FUSE.ACTIVE_LO_SRC 0 0x21 (fw FUSE.UNIT_TRIP_UNIT 0 0xFF (mapS 4 0 0 b6))), fw FUSE.LATCH_HI_SRC 0 0xF1 (fw FUSE.ACTIVE_HI_SRC 0 0x21 (fw FUSE.UNIT_TRIP_UNIT 0 0xFF (mapS 40 0 0 b6)))] ++
  [(run3 b6).setPwmUnit 3 { due := [(0, none)], mid := some 0, sync := [0], pairs := Vector.replicate 4 { due := [(0, 800000)], mid := some 0 } }, sf (2^5) b6,
   { b6 with pwr := { b6.pwr with held := true } }]

def base (k : Nat) : State := bases.getD k State.reset
theorem canon : ∀ k ∈ [0, 2, 8, 9, 13, 14], Canonical (base k) := canon_of (by decide +kernel)

/-- States and operands that meet the hypotheses of `PwmCarriersAndCompares`. -/
theorem test_w_PwmCarriersAndCompares :
    (∃ s : State, ∃ n : Fin 16, Canonical s ∧ ∃ u, s.pwmUnit n = u ∧ ∃ ini : Initiator, ∃ c : Fin 8, ∃ v : Word, ∃ both : Bool, s.admits ini (PWM.pg n) (0x080 + 4 * c) v.toNat = true) ∧
    (∃ s : State, ∃ n : Fin 16, Canonical s ∧ ∃ u, s.pwmUnit n = u ∧ ∃ pt : CarrierPoint, s.carrierRuns n = false) ∧
    (∃ s : State, ∃ n : Fin 16, Canonical s ∧ ∃ u, s.pwmUnit n = u ∧ s.carrierRuns n = false) ∧
    (∃ s : State, ∃ n : Fin 16, Canonical s ∧ ∃ u, s.pwmUnit n = u ∧ s.live = true ∧ s.carrierRuns n = true ∧ (∀ x ∈ u.due.head?, s.reached x.1 = false)) ∧
    (∃ s : State, ∃ n : Fin 16, Canonical s ∧ ∃ u, s.pwmUnit n = u ∧ s.live = true ∧ s.carrierRuns n = true ∧ (∀ e ∈ u.mid, s.reached e = false)) ∧
    (∃ s : State, ∃ n : Fin 16, Canonical s ∧ ∃ u, s.pwmUnit n = u ∧ s.live = true ∧ s.carrierRuns n = true ∧ ∃ k : Fin 4, (∀ x ∈ (s.pwmPair n k).due.head?, s.reached x.1 = false)) ∧
    (∃ s : State, ∃ n : Fin 16, Canonical s ∧ ∃ u, s.pwmUnit n = u ∧ s.live = true ∧ s.carrierRuns n = true ∧ ∃ k : Fin 4, (∀ e ∈ (s.pwmPair n k).mid, s.reached e = false)) ∧
    (∃ s : State, ∃ n : Fin 16, Canonical s ∧ ∃ u, s.pwmUnit n = u ∧ s.live = true ∧ s.carrierRuns n = true ∧ (∀ e ∈ u.sync.head?, s.reached e = false)) ∧
    (∃ s : State, ∃ n : Fin 16, Canonical s ∧ ∃ u, s.pwmUnit n = u ∧ s.live = true ∧ s.carrierRuns n = true ∧ ∃ e, ∃ p, ∃ rest, ∃ per, u.due = (e, p) :: rest ∧ s.reached e = true ∧ p.getD (s.pwmP n) = per) ∧
    (∃ s : State, ∃ n : Fin 16, Canonical s ∧ ∃ u, s.pwmUnit n = u ∧ s.live = true ∧ s.carrierRuns n = true ∧ ∃ e, u.mid = some e ∧ s.reached e = true) ∧
    (∃ s : State, ∃ n : Fin 16, Canonical s ∧ ∃ u, s.pwmUnit n = u ∧ s.live = true ∧ s.carrierRuns n = true ∧ ∃ k : Fin 4, ∃ e, ∃ len, ∃ rest, (s.pwmPair n k).due = (e, len) :: rest ∧ s.reached e = true) ∧
    (∃ s : State, ∃ n : Fin 16, Canonical s ∧ ∃ u, s.pwmUnit n = u ∧ s.live = true ∧ s.carrierRuns n = true ∧ ∃ k : Fin 4, ∃ e, (s.pwmPair n k).mid = some e ∧ s.reached e = true) ∧
    (∃ s : State, ∃ n : Fin 16, Canonical s ∧ ∃ u, s.pwmUnit n = u ∧ s.live = true ∧ s.carrierRuns n = true ∧ ∃ e, ∃ rest, u.sync = e :: rest ∧ s.reached e = true) :=
  ⟨⟨base 0, 0, canon 0 (by decide), _, rfl, Initiator.porchA, 0, 0x00000000#32, false, by decide +kernel⟩,
    ⟨base 0, 0, canon 0 (by decide), _, rfl, CarrierPoint.boundary, by decide +kernel⟩,
    ⟨base 0, 0, canon 0 (by decide), _, rfl, by decide +kernel⟩,
    ⟨base 2, 3, canon 2 (by decide), _, rfl, by decide +kernel⟩,
    ⟨base 2, 3, canon 2 (by decide), _, rfl, by decide +kernel⟩,
    ⟨base 2, 3, canon 2 (by decide), _, rfl, by decide +kernel, by decide +kernel, 0, by decide +kernel⟩,
    ⟨base 2, 3, canon 2 (by decide), _, rfl, by decide +kernel, by decide +kernel, 0, by decide +kernel⟩,
    ⟨base 2, 3, canon 2 (by decide), _, rfl, by decide +kernel⟩,
    ⟨base 13, 3, canon 13 (by decide), _, rfl, by decide +kernel, by decide +kernel, 0, none, [], _, by decide +kernel, by decide +kernel, rfl⟩,
    ⟨base 13, 3, canon 13 (by decide), _, rfl, by decide +kernel, by decide +kernel, 0, by decide +kernel⟩,
    ⟨base 13, 3, canon 13 (by decide), _, rfl, by decide +kernel, by decide +kernel, 0, 0, 800000, [], by decide +kernel⟩,
    ⟨base 13, 3, canon 13 (by decide), _, rfl, by decide +kernel, by decide +kernel, 0, 0, by decide +kernel⟩,
    ⟨base 13, 3, canon 13 (by decide), _, rfl, by decide +kernel, by decide +kernel, 0, [], by decide +kernel⟩⟩

/-- States and operands that meet the hypotheses of `RootClockLoss`. -/
theorem test_w_RootClockLoss :
    (∃ s : State, s.live = false) ∧
    (∃ s : State, Canonical s ∧ s.live = true ∧ s.clk.rootAbsent = true ∧ s.clk.clnBandSearch = false) ∧
    (∃ s : State, Canonical s ∧ s.live = true ∧ (s.clk.rootAbsent = false ∨ s.clk.clnBandSearch = true)) ∧
    (∃ s : State, Canonical s ∧ s.live = true) ∧
    (∃ s : State, Canonical s ∧ s.live = true ∧ s.clk.rootAbsent = false) ∧
    (∃ s : State, Canonical s ∧ s.live = true ∧ s.clk.rootAbsent = true) :=
  ⟨⟨base 15, by decide +kernel⟩,
    ⟨base 8, canon 8 (by decide), by decide +kernel⟩,
    ⟨base 0, canon 0 (by decide), by decide +kernel⟩,
    ⟨base 0, canon 0 (by decide), by decide +kernel⟩,
    ⟨base 0, canon 0 (by decide), by decide +kernel⟩,
    ⟨base 8, canon 8 (by decide), by decide +kernel⟩⟩

/-- States and operands that meet the hypotheses of `FuseboxTripsAndClears`. -/
theorem test_w_FuseboxTripsAndClears :
    (∃ s : State, Canonical s ∧ ∃ p : Fin 16, ∃ level : Bool, s.live = true) ∧
    (∃ s : State, Canonical s ∧ ∃ hot : Bool, s.live = true) ∧
    (∃ s : State, Canonical s ∧ ∃ src : Fin 64, s.live = true ∧ src ≠ 62 ∧ bitOf s.fuse.edges src = false) ∧
    (∃ s : State, Canonical s ∧ ∃ src : Fin 64, s.live = true ∧ src ≠ 62 ∧ bitOf s.fuse.edges src = true ∧ (s.armed = false ∨ s.flag FUSE.pg FUSE.MAP_EN src = false)) ∧
    (∃ s : State, Canonical s ∧ ∃ src : Fin 64, s.live = true ∧ src ≠ 62 ∧ bitOf s.fuse.edges src = true ∧ s.armed = true ∧ s.flag FUSE.pg FUSE.MAP_EN src = true ∧ s.flag FUSE.pg FUSE.MAP_CYCLE src = false) ∧
    (∃ s : State, Canonical s ∧ ∃ src : Fin 64, s.live = true ∧ src ≠ 62 ∧ bitOf s.fuse.edges src = true ∧ s.armed = true ∧ s.flag FUSE.pg FUSE.MAP_EN src = true ∧ s.flag FUSE.pg FUSE.MAP_CYCLE src = true) ∧
    (∃ s : State, Canonical s ∧ ∃ ini : Initiator, ∃ hi : Bool, ∃ mask : Word, s.admits ini FUSE.pg (if hi = true then 0x058 else 0x054) mask.toNat = true) ∧
    (∃ s : State, Canonical s ∧ ∃ ini : Initiator, ∃ mask : BitVec 16, s.admits ini FUSE.pg 0x05C mask.toNat = true) :=
  ⟨⟨base 0, canon 0 (by decide), 3, false, by decide +kernel⟩,
    ⟨base 0, canon 0 (by decide), false, by decide +kernel⟩,
    ⟨base 0, canon 0 (by decide), 5, by decide +kernel⟩,
    ⟨base 14, canon 14 (by decide), 5, by decide +kernel⟩,
    ⟨base 9, canon 9 (by decide), 5, by decide +kernel⟩,
    ⟨base 9, canon 9 (by decide), 40, by decide +kernel⟩,
    ⟨base 0, canon 0 (by decide), (Initiator.porchA), false, 0x00000000#32, by decide +kernel⟩,
    ⟨base 0, canon 0 (by decide), (Initiator.porchA), 0x0000#16, by decide +kernel⟩⟩

end W26

namespace W27
def md (m : Nat) (s : State) : State := s.wr SYS.pg SYS.MODE_MODE 0 m
def pw (f : Fld) (i v : Nat) (s : State) : State := s.wr (SAR.pg 2) f i v
def dw (f : Fld) (i v : Nat) (s : State) : State := s.wr (DSF.pg 2) f i v
def b6 : State := md 6 hostBase
def en (s : State) : State := pw SAR.CTRL_EN 0 1 s
def su (x : SarUnit) (s : State) : State := s.setSar 2 x
def dc (x : DsfChan) (s : State) : State := { (dw DSF.CTRL_CHEN 0 0xFF s) with measuring := true, dsf := s.dsf.map fun _ => x }
def bitsL (n : Nat) : List Bool := (List.range n).map fun i => (i * i + i / 3) % 5 < 2
def bases : List State := [hostBase, b6, en b6, en (su { reg := some (1,0,7), flight := .regular } b6), pw SAR.STATUS_REG_PENDING 0 1 (en (su { reg := some (1,0,7), flight := .regular } b6)),
  pw SAR.INJTRIG_URGENT 0 1 (en (su { reg := some (0,0,0), flight := .regular } b6)), pw SAR.REGSEQ_LAST 0 3 (en (su { reg := some (0,0,0), flight := .regular } b6)),pw SAR.REGSLOT_AVG 0 2 (en (su { reg := some (0,0,0), flight := .regular } b6)), en (su { inj := some 1, flight := .injected } b6),
  dc {} b6, dc { bits := true :: bitsL 30, same := 63 } b6, dc { bits := false :: bitsL 30, same := 63 } (dw DSF.CHCFG_INVERT 3 1 b6), dw DSF.CHSTAT_STUCK 3 1 (dc { bits := false :: bitsL 30, same := 70 } b6),
  dc { bits := true :: bitsL 1500, same := 3, since := 5000, out := 5 } (dw DSF.CMPCFG_EN 3 1 (dw DSF.CMPLIM_LO 3 0x8000 (dw DSF.CMPLIM_HI 3 0x8001 b6))), dw DSF.CHSTAT_NO_CLK 3 1 (dc { bits := true :: bitsL 3000, same := 3, since := 5000, out := 5 } b6)] ++
  [su { owedReg := 1, owedInj := 1 } b6, pw SAR.INJTRIG_URGENT 0 0 (en (su { reg := some (1, 0, 7), flight := .regular, owedReg := 1, owedInj := 1 } b6)), pw SAR.STATUS_REG_PENDING 0 1 (en (su { reg := some (1, 0, 7), flight := .regular, owedReg := 1 } b6)),
   en (su { owedReg := 1, owedInj := 1 } b6), en (su { inj := some 1, flight := .injected, owedInj := 1 } b6), pw SAR.INJTRIG_URGENT 0 1 (en (su { reg := some (1, 0, 7), flight := .regular, owedInj := 1 } b6)),
   en (su { reg := some (0, 0, 0), flight := .regular, begun := some b6.cyc, owedInj := 1 } b6), dc { win := 5000 } b6, dw DSF.SYNC_SRC 0 1 (dc { owed := [0] } (b6.wr (PWM.pg 0) PWM.CTRL_EN 0 1)), b6.wr (DSF.pg 0) DSF.DSCK_EN 0 1, md 1 hostBase]

def base (k : Nat) : State := bases.getD k State.reset
theorem canon : ∀ k ∈ [0, 3, 8, 10, 12, 13, 14, 15, 16, 17, 18, 19, 20, 21, 22, 23, 24, 25], Canonical (base k) := canon_of (by decide +kernel)

/-- States and operands that meet the hypotheses of `SarTriggersAndDeltaSigmaFilters`. -/
theorem test_w_SarTriggersAndDeltaSigmaFilters :
    (∃ s : State, ∃ u : Fin 6, Canonical s ∧ (s.live = false ∨ s.domainRuns 6 = false ∨ (s.sarUnit u).owedReg = 0)) ∧
    (∃ s : State, ∃ u : Fin 6, Canonical s ∧ (s.live = false ∨ s.domainRuns 6 = false ∨ (s.sarUnit u).owedInj = 0)) ∧
    (∃ s : State, ∃ u : Fin 6, Canonical s ∧ s.live = true ∧ s.domainRuns 6 = true ∧ ∃ x, ∃ y, s.sarUnit u = x ∧ 0 < x.owedReg ∧ { x with owedReg := x.owedReg - 1 } = y ∧ s.sarAccepts u = false) ∧
    (∃ s : State, ∃ u : Fin 6, Canonical s ∧ s.live = true ∧ s.domainRuns 6 = true ∧ ∃ x, ∃ y, s.sarUnit u = x ∧ 0 < x.owedReg ∧ { x with owedReg := x.owedReg - 1 } = y ∧ s.sarAccepts u = true ∧ (x.reg ≠ none ∨ x.inj ≠ none) ∧ s.flag (SAR.pg u) SAR.STATUS_REG_PENDING = false) ∧
    (∃ s : State, ∃ u : Fin 6, Canonical s ∧ s.live = true ∧ s.domainRuns 6 = true ∧ ∃ x, ∃ y, s.sarUnit u = x ∧ 0 < x.owedReg ∧ { x with owedReg := x.owedReg - 1 } = y ∧ s.sarAccepts u = true ∧ (x.reg ≠ none ∨ x.inj ≠ none) ∧ s.flag (SAR.pg u) SAR.STATUS_REG_PENDING = true) ∧
    (∃ s : State, ∃ u : Fin 6, Canonical s ∧ s.live = true ∧ s.domainRuns 6 = true ∧ ∃ x, ∃ y, s.sarUnit u = x ∧ 0 < x.owedReg ∧ { x with owedReg := x.owedReg - 1 } = y ∧ s.sarAccepts u = true ∧ x.reg = none ∧ x.inj = none) ∧
    (∃ s : State, ∃ u : Fin 6, Canonical s ∧ s.live = true ∧ s.domainRuns 6 = true ∧ ∃ x, ∃ y, s.sarUnit u = x ∧ 0 < x.owedInj ∧ { x with owedInj := x.owedInj - 1 } = y ∧ s.sarAccepts u = false) ∧
    (∃ s : State, ∃ u : Fin 6, Canonical s ∧ s.live = true ∧ s.domainRuns 6 = true ∧ ∃ x, ∃ y, s.sarUnit u = x ∧ 0 < x.owedInj ∧ { x with owedInj := x.owedInj - 1 } = y ∧ s.sarAccepts u = true ∧ (x.inj ≠ none ∨ x.injWait = true)) ∧
    (∃ s : State, ∃ u : Fin 6, Canonical s ∧ s.live = true ∧ s.domainRuns 6 = true ∧ ∃ x, ∃ y, s.sarUnit u = x ∧ 0 < x.owedInj ∧ { x with owedInj := x.owedInj - 1 } = y ∧ s.sarAccepts u = true ∧ x.inj = none ∧ x.injWait = false ∧ x.flight = .regular ∧ x.begun ≠ some s.cyc ∧ s.flag (SAR.pg u) SAR.INJTRIG_URGENT = false) ∧
    (∃ s : State, ∃ u : Fin 6, Canonical s ∧ s.live = true ∧ s.domainRuns 6 = true ∧ ∃ x, ∃ y, s.sarUnit u = x ∧ 0 < x.owedInj ∧ { x with owedInj := x.owedInj - 1 } = y ∧ s.sarAccepts u = true ∧ x.inj = none ∧ x.injWait = false ∧ x.flight = .regular ∧ x.begun ≠ some s.cyc ∧ s.flag (SAR.pg u) SAR.INJTRIG_URGENT = true) ∧
    (∃ s : State, ∃ u : Fin 6, Canonical s ∧ s.live = true ∧ s.domainRuns 6 = true ∧ ∃ x, ∃ y, s.sarUnit u = x ∧ 0 < x.owedInj ∧ { x with owedInj := x.owedInj - 1 } = y ∧ s.sarAccepts u = true ∧ x.inj = none ∧ x.injWait = false ∧ x.flight = .regular ∧ x.begun = some s.cyc ∧ x.reg = some (0, 0, 0) ∧ s.flag (SAR.pg u) SAR.STATUS_REG_PENDING = false) ∧
    (∃ s : State, ∃ u : Fin 6, Canonical s ∧ s.live = true ∧ s.domainRuns 6 = true ∧ ∃ x, ∃ y, s.sarUnit u = x ∧ 0 < x.owedInj ∧ { x with owedInj := x.owedInj - 1 } = y ∧ s.sarAccepts u = true ∧ x.inj = none ∧ x.injWait = false ∧ x.flight ≠ .regular) ∧
    (∃ s : State, ∃ u : Fin 6, Canonical s ∧ ∃ ini : Initiator, s.admits ini (SAR.pg u) 0x008 (s.ctrlWith (SAR.pg u) SAR.CTRL_EN 2) = true) ∧
    (∃ s : State, ∃ u : Fin 6, Canonical s ∧ ∃ ini : Initiator, s.admits ini (SAR.pg u) 0x008 (s.ctrlWith (SAR.pg u) SAR.CTRL_EN 4) = true) ∧
    (∃ s : State, ∃ u : Fin 6, Canonical s ∧ ∃ code : BitVec 12, ∃ hi : BitVec 8, ∃ lo : BitVec 8, ((s.sarUnit u).flight = .none ∨ ((s.sarUnit u).flight = .regular ∧ (s.sarUnit u).reg = none) ∨ ((s.sarUnit u).flight = .injected ∧ (s.sarUnit u).inj = none))) ∧
    (∃ s : State, ∃ u : Fin 6, Canonical s ∧ ∃ code : BitVec 12, ∃ hi : BitVec 8, ∃ lo : BitVec 8, s.live = true ∧ s.domainRuns 6 = true ∧ (s.sarUnit u).flight = .regular ∧ ∃ slot, ∃ done, ∃ sum, (s.sarUnit u).reg = some (slot, done, sum) ∧ slot < 16 ∧ ∃ avg, s.rd (SAR.pg u) SAR.REGSLOT_AVG slot = avg) ∧
    (∃ s : State, ∃ u : Fin 6, Canonical s ∧ ∃ code : BitVec 12, ∃ hi : BitVec 8, ∃ lo : BitVec 8, s.live = true ∧ s.domainRuns 6 = true ∧ (s.sarUnit u).flight = .injected ∧ (s.sarUnit u).injWait = false ∧ ∃ slot, (s.sarUnit u).inj = some slot ∧ slot < 4) ∧
    (∃ s : State, ∃ b : Fin 6, Canonical s ∧ s.live = true ∧ s.domainRuns 8 = true ∧ ∃ c : Fin 8, ∃ bits : List Bool, True) ∧
    (∃ s : State, ∃ b : Fin 6, Canonical s ∧ s.live = true ∧ s.domainRuns 8 = true ∧ ∃ c : Fin 8, ∃ bits : List Bool, s.flag (DSF.pg b) DSF.CHSTAT_NO_CLK c = true) ∧
    (∃ s : State, ∃ b : Fin 6, Canonical s ∧ s.live = true ∧ s.domainRuns 8 = true ∧ ∃ c : Fin 8, s.dsfRuns b c = true ∧ s.flag (DSF.pg b) DSF.CHSTAT_NO_CLK c = false ∧ s.commitPending (DSF.pg b) = false ∧ ∃ x, s.dsfChan b c = x ∧ ∃ raw : Bool, ∃ y, (raw != s.flag (DSF.pg b) DSF.CHCFG_INVERT c) = y ∧ x.bits.head? = some y ∧ x.same = 63) ∧
    (∃ s : State, ∃ b : Fin 6, Canonical s ∧ s.live = true ∧ s.domainRuns 8 = true ∧ ∃ c : Fin 8, s.dsfRuns b c = true ∧ s.flag (DSF.pg b) DSF.CHSTAT_NO_CLK c = false ∧ s.commitPending (DSF.pg b) = false ∧ ∃ x, s.dsfChan b c = x ∧ ∃ raw : Bool, ∃ y, (raw != s.flag (DSF.pg b) DSF.CHCFG_INVERT c) = y ∧ x.bits.head? = some (!y) ∧ s.flag (DSF.pg b) DSF.CHSTAT_STUCK c = true ∧ 1 < s.rd (DSF.pg b) DSF.CHCFG_ORDER c * s.rd (DSF.pg b) DSF.CHCFG_DEC c) ∧
    (∃ s : State, ∃ b : Fin 6, Canonical s ∧ s.live = true ∧ s.domainRuns 8 = true ∧ ∃ c : Fin 8, s.dsfRuns b c = true ∧ s.flag (DSF.pg b) DSF.CHSTAT_NO_CLK c = false ∧ s.commitPending (DSF.pg b) = false ∧ ∃ x, s.dsfChan b c = x ∧ ∃ raw : Bool, ∃ y, (raw != s.flag (DSF.pg b) DSF.CHCFG_INVERT c) = y ∧ x.same < 63 ∧ s.flag (DSF.pg b) DSF.CHSTAT_STUCK c = false ∧ s.flag (DSF.pg b) DSF.CHSTAT_SETTLING c = false ∧ 3 * s.rd (DSF.pg b) DSF.CMPCFG_OSR c ≤ x.since + 1 ∧ 3 * s.rd (DSF.pg b) DSF.CMPCFG_OSR c ≤ x.bits.length + 3 ∧ ∃ v, dsfComp (s.rd (DSF.pg b) DSF.CMPCFG_OSR c) ((y :: x.bits).take 8192) = v ∧ 3 * s.rd (DSF.pg b) DSF.CMPCFG_OSR c ≤ 8194) ∧
    (∃ s : State, ∃ b : Fin 6, Canonical s ∧ s.live = true ∧ s.domainRuns 8 = true ∧ ∃ c : Fin 8, ∃ ck : Nat, (s.dsfRuns b c = false ∨ s.windowDue b c = false ∨ (s.rd (DSF.pg b) DSF.SYNC_SRC = 1 ∧ s.carrierRuns (s.rd (DSF.pg b) DSF.SYNC_INDEX) = false))) ∧
    (∃ s : State, ∃ b : Fin 6, Canonical s ∧ s.live = true ∧ s.domainRuns 8 = true ∧ ∃ c : Fin 8, ∃ ck : Nat, s.dsfRuns b c = true ∧ s.windowDue b c = true ∧ ∃ n, ∃ m, ∃ x, s.rd (DSF.pg b) DSF.CHCFG_ORDER c = n ∧ s.rd (DSF.pg b) DSF.CHCFG_DEC c = m ∧ s.dsfChan b c = x ∧ s.rd (DSF.pg b) DSF.SYNC_SRC = 1 ∧ s.carrierRuns (s.rd (DSF.pg b) DSF.SYNC_INDEX) = true) ∧
    (∃ s : State, ∃ b : Fin 6, Canonical s ∧ s.live = true ∧ s.domainRuns 8 = true ∧ ∃ c : Fin 8, ∃ ck : Nat, s.dsfRuns b c = true ∧ s.windowDue b c = true ∧ ∃ n, ∃ m, ∃ x, s.rd (DSF.pg b) DSF.CHCFG_ORDER c = n ∧ s.rd (DSF.pg b) DSF.CHCFG_DEC c = m ∧ s.dsfChan b c = x ∧ s.rd (DSF.pg b) DSF.SYNC_SRC ≠ 1) ∧
    (∃ s : State, ∃ b : Fin 6, Canonical s ∧ s.live = true ∧ s.domainRuns 8 = true ∧ (s.dsfWatches = false ∨ s.dsfRescues b = true)) ∧
    (∃ s : State, ∃ b : Fin 6, Canonical s ∧ s.live = true ∧ s.domainRuns 8 = true ∧ s.dsfWatches = true ∧ s.dsfRescues b = false) ∧
    (∃ s : State, ∃ b : Fin 6, Canonical s ∧ s.live = true ∧ s.domainRuns 8 = true ∧ s.dsfClkOff b = true) ∧
    (∃ s : State, ∃ b : Fin 6, Canonical s ∧ s.live = true ∧ s.domainRuns 8 = true ∧ s.dsfClkOff b = false) :=
  ⟨⟨base 0, 0, canon 0 (by decide), by decide +kernel⟩,
    ⟨base 0, 0, canon 0 (by decide), by decide +kernel⟩,
    ⟨base 15, 2, canon 15 (by decide), by decide +kernel, by decide +kernel, _, _, rfl, by decide +kernel, rfl, by decide +kernel⟩,
    ⟨base 16, 2, canon 16 (by decide), by decide +kernel, by decide +kernel, _, _, rfl, by decide +kernel, rfl, by decide +kernel⟩,
    ⟨base 17, 2, canon 17 (by decide), by decide +kernel, by decide +kernel, _, _, rfl, by decide +kernel, rfl, by decide +kernel⟩,
    ⟨base 18, 2, canon 18 (by decide), by decide +kernel, by decide +kernel, _, _, rfl, by decide +kernel, rfl, by decide +kernel⟩,
    ⟨base 15, 2, canon 15 (by decide), by decide +kernel, by decide +kernel, _, _, rfl, by decide +kernel, rfl, by decide +kernel⟩,
    ⟨base 19, 2, canon 19 (by decide), by decide +kernel, by decide +kernel, _, _, rfl, by decide +kernel, rfl, by decide +kernel⟩,
    ⟨base 16, 2, canon 16 (by decide), by decide +kernel, by decide +kernel, _, _, rfl, by decide +kernel, rfl, by decide +kernel⟩,
    ⟨base 20, 2, canon 20 (by decide), by decide +kernel, by decide +kernel, _, _, rfl, by decide +kernel, rfl, by decide +kernel⟩,
    ⟨base 21, 2, canon 21 (by decide), by decide +kernel, by decide +kernel, _, _, rfl, by decide +kernel, rfl, by decide +kernel⟩,
    ⟨base 18, 2, canon 18 (by decide), by decide +kernel, by decide +kernel, _, _, rfl, by decide +kernel, rfl, by decide +kernel⟩,
    ⟨base 0, 2, canon 0 (by decide), (Initiator.porchA), by decide +kernel⟩,
    ⟨base 0, 2, canon 0 (by decide), (Initiator.porchA), by decide +kernel⟩,
    ⟨base 0, 0, canon 0 (by decide), 0x000#12, 0x00#8, 0x00#8, by decide +kernel⟩,
    ⟨base 3, 2, canon 3 (by decide), 0x000#12, 0x00#8, 0x00#8, by decide +kernel, by decide +kernel, by decide +kernel, 1, 0, 7, by decide +kernel, by decide +kernel, _, rfl⟩,
    ⟨base 8, 2, canon 8 (by decide), 0x000#12, 0x00#8, 0x00#8, by decide +kernel, by decide +kernel, by decide +kernel, by decide +kernel, 1, by decide +kernel⟩,
    ⟨base 0, 0, canon 0 (by decide), by decide +kernel, by decide +kernel, 0, [], trivial⟩,
    ⟨base 14, 2, canon 14 (by decide), by decide +kernel, by decide +kernel, 3, [], by decide +kernel⟩,
    ⟨base 10, 2, canon 10 (by decide), by decide +kernel, by decide +kernel, 3, by decide +kernel, by decide +kernel, by decide +kernel, _, rfl, true, _, rfl, by decide +kernel⟩,
    ⟨base 12, 2, canon 12 (by decide), by decide +kernel, by decide +kernel, 3, by decide +kernel, by decide +kernel, by decide +kernel, _, rfl, true, _, rfl, by decide +kernel⟩,
    ⟨base 13, 2, canon 13 (by decide), by decide +kernel, by decide +kernel, 0, by decide +kernel, by decide +kernel, by decide +kernel, _, rfl, false, _, rfl, by decide +kernel, by decide +kernel, by decide +kernel, by decide +kernel, by decide +kernel, _, rfl, by decide +kernel⟩,
    ⟨base 0, 0, canon 0 (by decide), by decide +kernel, by decide +kernel, 0, 0, by decide +kernel⟩,
    ⟨base 23, 2, canon 23 (by decide), by decide +kernel, by decide +kernel, 0, 0, by decide +kernel, by decide +kernel, _, _, _, rfl, rfl, rfl, by decide +kernel⟩,
    ⟨base 22, 2, canon 22 (by decide), by decide +kernel, by decide +kernel, 0, 0, by decide +kernel, by decide +kernel, _, _, _, rfl, rfl, rfl, by decide +kernel⟩,
    ⟨base 25, 0, canon 25 (by decide), by decide +kernel⟩,
    ⟨base 0, 0, canon 0 (by decide), by decide +kernel⟩,
    ⟨base 0, 0, canon 0 (by decide), by decide +kernel⟩,
    ⟨base 24, 0, canon 24 (by decide), by decide +kernel⟩⟩

end W27

namespace W28
def md (m : Nat) (s : State) : State := s.wr SYS.pg SYS.MODE_MODE 0 m
def pw (f : Fld) (v : Nat) (s : State) : State := s.wr (PORT.pg 3) f 0 v
def phs (ph a b : Nat) (s : State) : State := pw PORT.STATUS_CDO_A a (pw PORT.STATUS_CDO_B b (pw PORT.STATUS_PHASE ph (pw PORT.STATUS_STATE (stateOfPhase ph) s)))
def cmdS (c : Nat) (s : State) : State := s.setPort 3 { s.portUnit 3 with cmd := some (c, .porchA) }
def pu (u : PortUnit) (s : State) : State := s.setPort 3 u
/-- healthy environment -/
def env : State :=
  let s := md 6 hostBase
  let s := (s.wr PILOT.pg PILOT.CH_STATE_STATE 3 2)
  let s := pw PORT.CTRL_EN 1 (pw PORT.MAP_LE 5 (pw PORT.MAP_PWM 5 s))
  let s := pw PORT.ISO_LIM_FAULT 0 (pw PORT.ISO_LIM_WARN 0 s)
  let s := pw PORT.V_MAX_VALUE 0x447A0000 (pw PORT.V_SAFE_VALUE 0x42700000 (pw PORT.V_TOL_VALUE 0x447A0000 s))
  let s := (s.wr (LE.pg 5) LE.STATUS_STATE 0 1)
  (s.wr SAFEIO.pg SAFEIO.STATUS_EN 0 1).putBit SAFEIO.pg SAFEIO.LEVEL_CH 0 19 true
def closed (s : State) : State := s.putBit SAFEIO.pg SAFEIO.LEVEL_CH 0 19 false
def hi (s : State) : State := ((((pw PORT.V_SAFE_VALUE 0 s).wr (DSF.pg 0) DSF.RES_VALUE 0 0x100000)).wr (DSF.pg 0) DSF.RES_VALUE 1 0x100000)
def scaled (s : State) : State := pw PORT.V_SCALE_VALUE 0x34000000 (pw PORT.I_SCALE_VALUE 0x3F800000 (pw PORT.MEAS_V_CH 0 (pw PORT.MEAS_I_CH 1 s)))
def bases : List State := [hostBase, env, cmdS 1 env, pw PORT.CFG_CHTEST_EN 1 (cmdS 1 env), cmdS 2 (closed (phs 5 1 1 env)), cmdS 2 (closed (phs 7 1 1 env)), cmdS 3 (closed (phs 7 1 1 env)), cmdS 4 (closed (phs 7 1 1 env)), cmdS 4 (closed (phs 8 1 1 env)), cmdS 6 (closed (phs 8 1 1 env)), cmdS 5 (phs 13 0 0 env), cmdS 3 (closed (phs 4 1 1 env)),
  phs 2 1 1 env, pu { opening := some 3 } (closed (phs 10 0 0 env)), pu { opening := some 3 } (closed (phs 12 0 0 env)), pu { check := some 5 } (phs 1 1 0 env), pu { check := some 5, ticks := 1000000 } (phs 1 0 1 env), pu { check := some 5 } (closed (phs 3 1 1 env)), pu { pre := some 5 } (closed (phs 6 1 1 env)), closed (phs 4 1 1 env), closed (phs 9 1 1 (hi (scaled env))), phs 11 0 0 (hi (scaled env)), pw PORT.ISO_LIM_FAULT 4095 (closed (phs 8 1 1 env)), pw PORT.PP_LIM_LO 50 (closed (phs 8 1 1 env)), closed (phs 12 1 1 env), phs 12 1 0 env,
  { env with pilot := (env.pilot.map fun (x : PilotChan) => { x with gen := some 0x3FF }) }, ((env.wr PILOT.pg PILOT.CH_SENSE_EN 3 1).wr (SAR.pg 0) SAR.CTRL_EN 0 1), { ((env.wr PILOT.pg PILOT.CH_SENSE_EN 3 1).wr (SAR.pg 0) SAR.CTRL_EN 0 1).wr PILOT.pg PILOT.CH_GEN_MODE 3 2 with pilot := env.pilot.map fun (x : PilotChan) => { x with hiSum := 5000, hiCount := 3, loSum := 900, loCount := 4 } } ] ++
  [cmdS 1 ((env.wr PILOT.pg PILOT.CH_SENSE_EN 3 1).wr (SAR.pg 0) SAR.CTRL_EN 0 1)]

def base (k : Nat) : State := bases.getD k State.reset
theorem canon : ∀ k ∈ [0, 1, 11, 12, 13, 15, 17, 18, 19, 20, 21, 22, 23, 24, 29], Canonical (base k) := canon_of (by decide +kernel)

/-- States and operands that meet the hypotheses of `PortCommandsWaitForTheTick`. -/
theorem test_w_PortCommandsWaitForTheTick :
    (∃ s : State, ∃ ini : Initiator, ∃ p : Fin 8, Canonical s ∧ (s.flag (PORT.pg p) PORT.CTRL_EN = false ∨ s.roleFollows = true) ∧ s.admits ini (PORT.pg p) 0x0B4 1 = true) ∧
    (∃ s : State, ∃ ini : Initiator, ∃ p : Fin 8, Canonical s ∧ (s.flag (PORT.pg p) PORT.CTRL_EN = false ∨ s.roleFollows = true) ∧ s.admits ini (PORT.pg p) 0x0B4 2 = true) ∧
    (∃ s : State, ∃ ini : Initiator, ∃ p : Fin 8, Canonical s ∧ (s.flag (PORT.pg p) PORT.CTRL_EN = false ∨ s.roleFollows = true) ∧ s.admits ini (PORT.pg p) 0x0B4 3 = true) ∧
    (∃ s : State, ∃ ini : Initiator, ∃ p : Fin 8, Canonical s ∧ (s.flag (PORT.pg p) PORT.CTRL_EN = false ∨ s.roleFollows = true) ∧ s.admits ini (PORT.pg p) 0x0B4 4 = true) ∧
    (∃ s : State, ∃ ini : Initiator, ∃ p : Fin 8, Canonical s ∧ (s.flag (PORT.pg p) PORT.CTRL_EN = false ∨ s.roleFollows = true) ∧ s.admits ini (PORT.pg p) 0x0B4 5 = true) ∧
    (∃ s : State, ∃ ini : Initiator, ∃ p : Fin 8, Canonical s ∧ (s.flag (PORT.pg p) PORT.CTRL_EN = false ∨ s.roleFollows = true) ∧ s.admits ini (PORT.pg p) 0x0B4 6 = true) ∧
    (∃ s : State, ∃ ini : Initiator, ∃ p : Fin 8, Canonical s ∧ (s.flag (PORT.pg p) PORT.CTRL_EN = false ∨ s.roleFollows = true) ∧ s.admits ini (PORT.pg p) 0x0B4 7 = true) ∧
    (∃ s : State, ∃ ini : Initiator, ∃ p : Fin 8, Canonical s ∧ s.flag (PORT.pg p) PORT.CTRL_EN = true ∧ s.roleFollows = false ∧ s.admits ini (PORT.pg p) 0x0B4 1 = true) ∧
    (∃ s : State, ∃ ini : Initiator, ∃ p : Fin 8, Canonical s ∧ s.flag (PORT.pg p) PORT.CTRL_EN = true ∧ s.roleFollows = false ∧ s.admits ini (PORT.pg p) 0x0B4 2 = true) ∧
    (∃ s : State, ∃ ini : Initiator, ∃ p : Fin 8, Canonical s ∧ s.flag (PORT.pg p) PORT.CTRL_EN = true ∧ s.roleFollows = false ∧ s.admits ini (PORT.pg p) 0x0B4 3 = true) ∧
    (∃ s : State, ∃ ini : Initiator, ∃ p : Fin 8, Canonical s ∧ s.flag (PORT.pg p) PORT.CTRL_EN = true ∧ s.roleFollows = false ∧ s.admits ini (PORT.pg p) 0x0B4 4 = true) ∧
    (∃ s : State, ∃ ini : Initiator, ∃ p : Fin 8, Canonical s ∧ s.flag (PORT.pg p) PORT.CTRL_EN = true ∧ s.roleFollows = false ∧ s.admits ini (PORT.pg p) 0x0B4 5 = true) ∧
    (∃ s : State, ∃ ini : Initiator, ∃ p : Fin 8, Canonical s ∧ s.flag (PORT.pg p) PORT.CTRL_EN = true ∧ s.roleFollows = false ∧ s.admits ini (PORT.pg p) 0x0B4 6 = true) ∧
    (∃ s : State, ∃ ini : Initiator, ∃ p : Fin 8, Canonical s ∧ s.flag (PORT.pg p) PORT.CTRL_EN = true ∧ s.roleFollows = false ∧ s.admits ini (PORT.pg p) 0x0B4 7 = true) :=
  ⟨⟨base 0, Initiator.porchA, 0, canon 0 (by decide), by decide +kernel⟩,
    ⟨base 0, Initiator.porchA, 0, canon 0 (by decide), by decide +kernel⟩,
    ⟨base 0, Initiator.porchA, 0, canon 0 (by decide), by decide +kernel⟩,
    ⟨base 0, Initiator.porchA, 0, canon 0 (by decide), by decide +kernel⟩,
    ⟨base 0, Initiator.porchA, 0, canon 0 (by decide), by decide +kernel⟩,
    ⟨base 0, Initiator.porchA, 0, canon 0 (by decide), by decide +kernel⟩,
    ⟨base 0, Initiator.porchA, 0, canon 0 (by decide), by decide +kernel⟩,
    ⟨base 1, Initiator.porchA, 3, canon 1 (by decide), by decide +kernel⟩,
    ⟨base 1, Initiator.porchA, 3, canon 1 (by decide), by decide +kernel⟩,
    ⟨base 1, Initiator.porchA, 3, canon 1 (by decide), by decide +kernel⟩,
    ⟨base 1, Initiator.porchA, 3, canon 1 (by decide), by decide +kernel⟩,
    ⟨base 1, Initiator.porchA, 3, canon 1 (by decide), by decide +kernel⟩,
    ⟨base 1, Initiator.porchA, 3, canon 1 (by decide), by decide +kernel⟩,
    ⟨base 1, Initiator.porchA, 3, canon 1 (by decide), by decide +kernel⟩⟩

/-- States and operands that meet the hypotheses of `PortTickActsOnCommands`. -/
theorem test_w_PortTickActsOnCommands :
    (∃ s : State, ∃ rbA : BitVec 8, ∃ rbB : BitVec 8, ∃ p : Fin 8, Canonical s ∧ s.live = true ∧ s.noPortSet = true) ∧
    (∃ s : State, ∃ p : Fin 8, Canonical s ∧ s.live = true ∧ s.noPortSet = true ∧ ∃ ph, s.portPhase p = ph ∧ s.portQuiet p = true ∧ s.pilotSenses p = true ∧ s.redun.passCdo ≠ 1 ∧ s.redun.holdCdo = false ∧ (1 ≤ ph → ph ≤ 2 → s.cfbClosed p = false) ∧ (3 ≤ ph → ph ≤ 9 → s.portClosed p = true) ∧ ∃ code, ∃ ini, (s.portUnit p).cmd = some (code, ini)) :=
  ⟨⟨base 0, 0x00#8, 0x00#8, 0, canon 0 (by decide), by decide +kernel⟩,
    ⟨base 29, 3, canon 29 (by decide), by decide +kernel, by decide +kernel, _, rfl, by decide +kernel, by decide +kernel, by decide +kernel, by decide +kernel, by decide +kernel, by decide +kernel, 1, Initiator.porchA, by decide +kernel⟩⟩

/-- States and operands that meet the hypotheses of `PortDeadlinesAndTimes`. -/
theorem test_w_PortDeadlinesAndTimes :
    (∃ s : State, ∃ p : Fin 8, Canonical s ∧ s.live = true ∧ s.mode ≠ mBOOT ∧ s.flag (PORT.pg p) PORT.CTRL_EN = true ∧ (s.portUnit p).copy = none ∧ ∃ ph, s.portPhase p = ph ∧ ph = 2 ∧ (s.portUnit p).susp = false ∧ s.cfbGone p = false ∧ s.cfbClosed p = false ∧ s.flag (PORT.pg p) PORT.STATUS_CDO_A = true ∧ s.flag (PORT.pg p) PORT.STATUS_CDO_B = true) ∧
    (∃ s : State, ∃ p : Fin 8, Canonical s ∧ s.live = true ∧ s.mode ≠ mBOOT ∧ s.flag (PORT.pg p) PORT.CTRL_EN = true ∧ (s.portUnit p).copy = none ∧ ∃ ph, s.portPhase p = ph ∧ (s.portUnit p).opening ≠ none ∧ (s.portUnit p).susp = false ∧ s.cfbGone p = false ∧ s.cfbClosed p = true ∧ s.flag (PORT.pg p) PORT.STATUS_CDO_A = false ∧ s.flag (PORT.pg p) PORT.STATUS_CDO_B = false) ∧
    (∃ s : State, ∃ p : Fin 8, Canonical s ∧ s.live = true ∧ s.mode ≠ mBOOT ∧ s.flag (PORT.pg p) PORT.CTRL_EN = true ∧ (s.portUnit p).copy = none ∧ ∃ ph, s.portPhase p = ph ∧ 1 ≤ ph ∧ ph ≤ 3) ∧
    (∃ s : State, ∃ p : Fin 8, Canonical s ∧ s.live = true ∧ s.mode ≠ mBOOT ∧ s.flag (PORT.pg p) PORT.CTRL_EN = true ∧ (s.portUnit p).copy = none ∧ ∃ ph, s.portPhase p = ph ∧ ph = 4 ∧ (s.portUnit p).ticks + 1 < 10 * s.rd (PORT.pg p) PORT.TIMEOUT_B_CC_HOLD_MS ∧ s.isoFault p = false) ∧
    (∃ s : State, ∃ p : Fin 8, Canonical s ∧ s.live = true ∧ s.mode ≠ mBOOT ∧ s.flag (PORT.pg p) PORT.CTRL_EN = true ∧ (s.portUnit p).copy = none ∧ ∃ ph, s.portPhase p = ph ∧ ph = 6 ∧ (s.portUnit p).pre ≠ none ∧ s.isoFault p = false ∧ ((s.portUnit p).match_ < 99 ∨ within (s.portV p) (s.pR p PORT.PRE_V_VALUE) (s.pR p PORT.V_TOL_VALUE) = false)) ∧
    (∃ s : State, ∃ p : Fin 8, Canonical s ∧ s.live = true ∧ s.mode ≠ mBOOT ∧ s.flag (PORT.pg p) PORT.CTRL_EN = true ∧ (s.portUnit p).copy = none ∧ ∃ ph, s.portPhase p = ph ∧ ph = 9 ∧ s.portQuiet p = true ∧ s.portClosed p = true ∧ s.pR p PORT.I_OPEN_VALUE < ratAbs (s.portI p)) ∧
    (∃ s : State, ∃ p : Fin 8, Canonical s ∧ s.live = true ∧ s.mode ≠ mBOOT ∧ s.flag (PORT.pg p) PORT.CTRL_EN = true ∧ (s.portUnit p).copy = none ∧ ∃ ph, s.portPhase p = ph ∧ ph = 11 ∧ s.cfbGone p = false ∧ s.cfbClosed p = false ∧ s.pR p PORT.V_SAFE_VALUE < s.portV p) ∧
    (∃ s : State, ∃ p : Fin 8, Canonical s ∧ s.live = true ∧ s.mode ≠ mBOOT ∧ s.flag (PORT.pg p) PORT.CTRL_EN = true ∧ (s.portUnit p).copy = none ∧ ∃ ph, s.portPhase p = ph ∧ 4 ≤ ph ∧ ph ≤ 9 ∧ s.isoFault p = true) ∧
    (∃ s : State, ∃ p : Fin 8, Canonical s ∧ s.live = true ∧ s.mode ≠ mBOOT ∧ s.flag (PORT.pg p) PORT.CTRL_EN = true ∧ (s.portUnit p).copy = none ∧ ∃ ph, s.portPhase p = ph ∧ 3 ≤ ph ∧ ph ≤ 9 ∧ s.plugOk p = false ∧ s.portCalm p = true ∧ s.portClosed p = true) ∧
    (∃ s : State, ∃ p : Fin 8, Canonical s ∧ s.live = true ∧ s.mode ≠ mBOOT ∧ s.flag (PORT.pg p) PORT.CTRL_EN = true ∧ (s.portUnit p).copy = none ∧ ∃ ph, s.portPhase p = ph ∧ 1 ≤ ph ∧ ph ≤ 11 ∧ s.plugOk p = false) ∧
    (∃ s : State, ∃ p : Fin 8, Canonical s ∧ s.live = true ∧ (s.portUnit p).cmd = none ∧ ∃ ph, s.portPhase p = ph ∧ s.portQuiet p = true ∧ ph = 1 ∧ s.cfbClosed p = false) ∧
    (∃ s : State, ∃ p : Fin 8, Canonical s ∧ s.live = true ∧ (s.portUnit p).cmd = none ∧ ∃ ph, s.portPhase p = ph ∧ s.portQuiet p = true ∧ ph = 3 ∧ s.portClosed p = true ∧ within (s.portV p) (s.pR p PORT.CC_V_VALUE) (s.pR p PORT.V_TOL_VALUE) = true) ∧
    (∃ s : State, ∃ p : Fin 8, Canonical s ∧ s.live = true ∧ (s.portUnit p).cmd = none ∧ ∃ ph, s.portPhase p = ph ∧ s.portQuiet p = true ∧ ph = 6 ∧ s.portClosed p = true ∧ within (s.portV p) (s.pR p PORT.PRE_V_VALUE) (s.pR p PORT.V_TOL_VALUE) = true) ∧
    (∃ s : State, ∃ p : Fin 8, Canonical s ∧ s.live = true ∧ (s.portUnit p).cmd = none ∧ ∃ ph, s.portPhase p = ph ∧ s.portQuiet p = true ∧ ph = 4 ∧ s.portClosed p = true) ∧
    (∃ s : State, ∃ p : Fin 8, Canonical s ∧ s.live = true ∧ (s.portUnit p).cmd = none ∧ ∃ ph, s.portPhase p = ph ∧ ph = 12 ∧ s.mode ≠ mBOOT ∧ s.flag (PORT.pg p) PORT.CTRL_EN = true ∧ (s.portUnit p).copy = none ∧ (s.flag (PORT.pg p) PORT.STATUS_CDO_A = true ∨ s.flag (PORT.pg p) PORT.STATUS_CDO_B = true)) ∧
    (∃ s : State, ∃ p : Fin 8, ∃ ph : Nat, s.portPhase p = ph ∧ ph ≠ 1) ∧
    (∃ s : State, ∃ p : Fin 8, ∃ ph : Nat, s.portPhase p = ph ∧ ph ≠ 2) ∧
    (∃ s : State, ∃ p : Fin 8, ∃ ph : Nat, s.portPhase p = ph ∧ (s.portUnit p).opening = none) ∧
    (∃ s : State, ∃ p : Fin 8, ∃ ph : Nat, s.portPhase p = ph ∧ ph ≠ 3 ∧ ph ≠ 6) ∧
    (∃ s : State, ∃ p : Fin 8, ∃ ph : Nat, s.portPhase p = ph ∧ ph ≠ 4) ∧
    (∃ s : State, ∃ p : Fin 8, ∃ ph : Nat, s.portPhase p = ph ∧ (ph = 0 ∨ 5 ≤ ph)) ∧
    (∃ s : State, ∃ p : Fin 8, ∃ ph : Nat, s.portPhase p = ph ∧ (ph ≠ 6 ∨ (s.portUnit p).pre = none)) ∧
    (∃ s : State, ∃ p : Fin 8, ∃ ph : Nat, s.portPhase p = ph ∧ ph ≠ 9) ∧
    (∃ s : State, ∃ p : Fin 8, ∃ ph : Nat, s.portPhase p = ph ∧ ph ≠ 11) ∧
    (∃ s : State, ∃ p : Fin 8, ∃ ph : Nat, s.portPhase p = ph ∧ ph ≠ 12) ∧
    (∃ s : State, ∃ p : Fin 8, ∃ ph : Nat, s.portPhase p = ph ∧ (ph < 4 ∨ 9 < ph)) ∧
    (∃ s : State, ∃ p : Fin 8, ∃ ph : Nat, s.portPhase p = ph ∧ (s.portState p = 0 ∨ s.portState p = 5)) :=
  ⟨⟨base 12, 3, canon 12 (by decide), by decide +kernel, by decide +kernel, by decide +kernel, by decide +kernel, _, rfl, by decide +kernel⟩,
    ⟨base 13, 3, canon 13 (by decide), by decide +kernel, by decide +kernel, by decide +kernel, by decide +kernel, _, rfl, by decide +kernel⟩,
    ⟨base 12, 3, canon 12 (by decide), by decide +kernel, by decide +kernel, by decide +kernel, by decide +kernel, _, rfl, by decide +kernel⟩,
    ⟨base 11, 3, canon 11 (by decide), by decide +kernel, by decide +kernel, by decide +kernel, by decide +kernel, _, rfl, by decide +kernel⟩,
    ⟨base 18, 3, canon 18 (by decide), by decide +kernel, by decide +kernel, by decide +kernel, by decide +kernel, _, rfl, by decide +kernel⟩,
    ⟨base 20, 3, canon 20 (by decide), by decide +kernel, by decide +kernel, by decide +kernel, by decide +kernel, _, rfl, by decide +kernel⟩,
    ⟨base 21, 3, canon 21 (by decide), by decide +kernel, by decide +kernel, by decide +kernel, by decide +kernel, _, rfl, by decide +kernel⟩,
    ⟨base 22, 3, canon 22 (by decide), by decide +kernel, by decide +kernel, by decide +kernel, by decide +kernel, _, rfl, by decide +kernel⟩,
    ⟨base 23, 3, canon 23 (by decide), by decide +kernel, by decide +kernel, by decide +kernel, by decide +kernel, _, rfl, by decide +kernel⟩,
    ⟨base 23, 3, canon 23 (by decide), by decide +kernel, by decide +kernel, by decide +kernel, by decide +kernel, _, rfl, by decide +kernel⟩,
    ⟨base 15, 3, canon 15 (by decide), by decide +kernel, by decide +kernel, _, rfl, by decide +kernel⟩,
    ⟨base 17, 3, canon 17 (by decide), by decide +kernel, by decide +kernel, _, rfl, by decide +kernel⟩,
    ⟨base 18, 3, canon 18 (by decide), by decide +kernel, by decide +kernel, _, rfl, by decide +kernel⟩,
    ⟨base 19, 3, canon 19 (by decide), by decide +kernel, by decide +kernel, _, rfl, by decide +kernel⟩,
    ⟨base 24, 3, canon 24 (by decide), by decide +kernel, by decide +kernel, _, rfl, by decide +kernel⟩,
    ⟨base 0, 0, 0, by decide +kernel⟩,
    ⟨base 0, 0, 0, by decide +kernel⟩,
    ⟨base 0, 0, 0, by decide +kernel⟩,
    ⟨base 0, 0, 0, by decide +kernel⟩,
    ⟨base 0, 0, 0, by decide +kernel⟩,
    ⟨base 0, 0, 0, by decide +kernel⟩,
    ⟨base 0, 0, 0, by decide +kernel⟩,
    ⟨base 0, 0, 0, by decide +kernel⟩,
    ⟨base 0, 0, 0, by decide +kernel⟩,
    ⟨base 0, 0, 0, by decide +kernel⟩,
    ⟨base 0, 0, 0, by decide +kernel⟩,
    ⟨base 0, 0, 0, by decide +kernel⟩⟩

/-- States and operands that meet the hypotheses of `PortValuesAndPilots`. -/
theorem test_w_PortValuesAndPilots :
    (∃ s : State, ∃ p : Fin 8, Canonical s ∧ ∃ ini : Initiator, ∃ r : Fin 5, ∃ v : Word, s.admits ini (PORT.pg p) (portValueFld r).off v.toNat = true) ∧
    (∃ s : State, ∃ p : Fin 8, Canonical s ∧ ∃ ini : Initiator, ∃ v : Word, s.admits ini PILOT.pg (0x040 + 0x10 * p) v.toNat = true) ∧
    (∃ s : State, ∃ p : Fin 8, Canonical s ∧ s.live = true) :=
  ⟨⟨base 0, 3, canon 0 (by decide), (Initiator.porchA), 3, 0x00000000#32, by decide +kernel⟩,
    ⟨base 0, 3, canon 0 (by decide), (Initiator.porchA), 0x00000000#32, by decide +kernel⟩,
    ⟨base 0, 3, canon 0 (by decide), by decide +kernel⟩⟩

end W28

namespace W29
def md (m : Nat) (s : State) : State := s.wr SYS.pg SYS.MODE_MODE 0 m
def pw (f : Fld) (v : Nat) (s : State) : State := s.wr PANTRY.pg f 0 v
def mw (f : Fld) (v : Nat) (s : State) : State := s.wr METRO.pg f 0 v
def prov (s : State) : State := (List.range 4).foldl (fun s i => s.otpBurn i) s
def sealS (s : State) : State := (List.range 8).foldl (fun s i => s.otpBurn i) s
def cal (s : State) : State := { s with metro := { s.metro with cal := leBytes 1 0 ++ leBytes 1 0 ++ leBytes 2 0x1FF ++ leBytes 4 0 ++ ((List.range 24).flatMap fun _ => leBytes 4 0x3F800000 ++ leBytes 4 0 ++ leBytes 4 0), cfg := true } }
def up (s : State) : State := mw METRO.STATUS_RUNNING 1 (mw METRO.STATUS_FW_OK 1 (mw METRO.STATUS_CAL_OK 1 (pw PANTRY.STATUS_READY 1 s)))
def rdy (s : State) : State := cal (up (prov (mw METRO.STATUS_RESTORED 1 s)))
def putB (s : State) (a : Nat) (l : List Byte) : State := s.pokeBytes a l
def calMem : State := putB (pw PANTRY.CAL_SRC_ADDR 0x10000100 (rdy hostBase)) 0x10000100 (cal hostBase).metro.cal
def rec0 : PendRec := { type := 2, meter := 1, seq := 5, timeS := 7, timeNs := 8, trust := 1, cyc := 9, cycStart := 4, start := 1, cmd := true }
def pend (l : List PendRec) (s : State) : State := { s with metro := { s.metro with pend := l } }
def snap0 : Snapshot := { hostBase.snapshotValues 2 with startCount := 7 }
def snap1 : Snapshot := { snap0 with mac := (rdy hostBase).snapshotMac snap0 }
def bigChan (s : State) : State := { s with metro := { s.metro with chan := Vector.ofFn fun i => { res := 4000000 - 700000 * i.val, prev := 100, bits := List.replicate 748 (i.val % 3 = 0), since := 5000 } } }
def bases : List State := [hostBase, rdy hostBase, calMem, pw PANTRY.CMD_STATUS_BUSY 1 (rdy hostBase), { rdy hostBase with cyc := 1000, metro := { (rdy hostBase).metro with cmd := some ⟨1, 3, 77, 100⟩ } },
  bigChan { rdy hostBase with cyc := 1000, metro := { (rdy hostBase).metro with cmd := some ⟨1, 3, 77, 100⟩ } }, pend [rec0] (rdy hostBase), pend [{ rec0 with type := 4 }, rec0] (rdy hostBase), pw PANTRY.STATUS_FAULT 1 (pend [rec0] (rdy hostBase)), pw PANTRY.STATUS_READY 0 (rdy hostBase),
  { rdy hostBase with metro := { (rdy hostBase).metro with next := 500, ackHi := 0, read := some 3 } }, { rdy hostBase with metro := { (rdy hostBase).metro with next := 500, ackHi := 0, read := some 600, latched := [snap0], pend := [rec0] } },
  (let s := { rdy hostBase with metro := { (rdy hostBase).metro with next := 500, ackHi := 0, read := some 3 } }; s.putSlot 3 (s.recBytes { rec0 with meter := 2 } 3 false)),
  mw METRO.STATUS_RESTORED 0 (rdy hostBase), mw METRO.STATUS_RESTORED 0 { rdy hostBase with pantry := { snaps := [snap0] } }, mw METRO.STATUS_RESTORED 0 (sealS (rdy hostBase))] ++
  [(rdy hostBase).wr PANTRY.pg commitPendingFld 0 1, pend [rec0] { rdy hostBase with metro := { (rdy hostBase).metro with next := 1000000 } }, (let s := mw METRO.STATUS_RESTORED 0 (sealS (rdy hostBase)); { s with pantry := { s.pantry with bound := true } }),
   { rdy hostBase with metro := { (rdy hostBase).metro with ackDue := true } }, mw METRO.STATUS_RESTORED 0 ((List.range 12).foldl (fun s i => s.otpBurn i) (rdy hostBase))] ++
  [mw METRO.STATUS_RESTORED 0 { rdy hostBase with pantry := { snaps := [snap1] } }]

def base (k : Nat) : State := bases.getD k State.reset
theorem canon : ∀ k ∈ [0, 1, 3, 6, 8, 9, 10, 11, 13, 15, 16, 17, 18, 19, 20], Canonical (base k) := canon_of (by decide +kernel)

/-- States and operands that meet the hypotheses of `PantryCommands`. -/
theorem test_w_PantryCommands :
    (∃ s : State, ∃ ini : Initiator, ∃ m : BitVec 4, Canonical s ∧ ∃ sess, s.rd64 PANTRY.pg PANTRY.SESSION_LO_ID PANTRY.SESSION_HI_ID = sess ∧ s.flag PANTRY.pg PANTRY.CMD_STATUS_BUSY = true ∧ s.admits ini PANTRY.pg 0x044 (1 + 16 * m.toNat) = true) ∧
    (∃ s : State, ∃ ini : Initiator, ∃ m : BitVec 4, Canonical s ∧ ∃ sess, s.rd64 PANTRY.pg PANTRY.SESSION_LO_ID PANTRY.SESSION_HI_ID = sess ∧ s.flag PANTRY.pg PANTRY.CMD_STATUS_BUSY = true ∧ s.admits ini PANTRY.pg 0x044 (2 + 16 * m.toNat) = true) ∧
    (∃ s : State, ∃ ini : Initiator, ∃ m : BitVec 4, Canonical s ∧ ∃ sess, s.rd64 PANTRY.pg PANTRY.SESSION_LO_ID PANTRY.SESSION_HI_ID = sess ∧ s.flag PANTRY.pg PANTRY.CMD_STATUS_BUSY = true ∧ s.admits ini PANTRY.pg 0x044 (3 + 16 * m.toNat) = true) ∧
    (∃ s : State, ∃ ini : Initiator, ∃ m : BitVec 4, Canonical s ∧ ∃ sess, s.rd64 PANTRY.pg PANTRY.SESSION_LO_ID PANTRY.SESSION_HI_ID = sess ∧ s.flag PANTRY.pg PANTRY.CMD_STATUS_BUSY = true ∧ s.admits ini PANTRY.pg 0x044 4 = true) ∧
    (∃ s : State, ∃ ini : Initiator, ∃ m : BitVec 4, Canonical s ∧ ∃ sess, s.rd64 PANTRY.pg PANTRY.SESSION_LO_ID PANTRY.SESSION_HI_ID = sess ∧ s.flag PANTRY.pg PANTRY.CMD_STATUS_BUSY = false ∧ s.admits ini PANTRY.pg 0x044 (1 + 16 * m.toNat) = true) ∧
    (∃ s : State, ∃ ini : Initiator, ∃ m : BitVec 4, Canonical s ∧ ∃ sess, s.rd64 PANTRY.pg PANTRY.SESSION_LO_ID PANTRY.SESSION_HI_ID = sess ∧ s.flag PANTRY.pg PANTRY.CMD_STATUS_BUSY = false ∧ s.admits ini PANTRY.pg 0x044 (2 + 16 * m.toNat) = true) ∧
    (∃ s : State, ∃ ini : Initiator, ∃ m : BitVec 4, Canonical s ∧ ∃ sess, s.rd64 PANTRY.pg PANTRY.SESSION_LO_ID PANTRY.SESSION_HI_ID = sess ∧ s.flag PANTRY.pg PANTRY.CMD_STATUS_BUSY = false ∧ s.admits ini PANTRY.pg 0x044 (3 + 16 * m.toNat) = true) ∧
    (∃ s : State, ∃ ini : Initiator, ∃ m : BitVec 4, Canonical s ∧ ∃ sess, s.rd64 PANTRY.pg PANTRY.SESSION_LO_ID PANTRY.SESSION_HI_ID = sess ∧ s.flag PANTRY.pg PANTRY.CMD_STATUS_BUSY = false ∧ s.admits ini PANTRY.pg 0x044 4 = true) :=
  ⟨⟨base 3, (Initiator.porchA), 0x0#4, canon 3 (by decide), _, rfl, by decide +kernel⟩,
    ⟨base 3, (Initiator.porchA), 0x0#4, canon 3 (by decide), _, rfl, by decide +kernel⟩,
    ⟨base 3, (Initiator.porchA), 0x0#4, canon 3 (by decide), _, rfl, by decide +kernel⟩,
    ⟨base 3, (Initiator.porchA), 0x0#4, canon 3 (by decide), _, rfl, by decide +kernel⟩,
    ⟨base 0, (Initiator.porchA), 0x0#4, canon 0 (by decide), _, rfl, by decide +kernel⟩,
    ⟨base 0, (Initiator.porchA), 0x0#4, canon 0 (by decide), _, rfl, by decide +kernel⟩,
    ⟨base 0, (Initiator.porchA), 0x0#4, canon 0 (by decide), _, rfl, by decide +kernel⟩,
    ⟨base 0, (Initiator.porchA), 0x0#4, canon 0 (by decide), _, rfl, by decide +kernel⟩⟩

/-- States and operands that meet the hypotheses of `MetroSamples`. -/
theorem test_w_MetroSamples :
    (∃ s : State, ∃ bits : List (List Bool), Canonical s ∧ s.live = true ∧ bits.length = 24 ∧ s.metroRuns = false) ∧
    (∃ s : State, ∃ bits : List (List Bool), Canonical s ∧ s.live = true ∧ bits.length = 24 ∧ s.metroRuns = true ∧ s.commitPending PANTRY.pg = false) ∧
    (∃ s : State, ∃ bits : List (List Bool), Canonical s ∧ s.live = true ∧ bits.length = 24 ∧ s.metroRuns = true ∧ s.commitPending PANTRY.pg = true) :=
  ⟨⟨base 0, [[], [], [], [], [], [], [], [], [], [], [], [], [], [], [], [], [], [], [], [], [], [], [], []], canon 0 (by decide), by decide +kernel⟩,
    ⟨base 1, [[], [], [], [], [], [], [], [], [], [], [], [], [], [], [], [], [], [], [], [], [], [], [], []], canon 1 (by decide), by decide +kernel⟩,
    ⟨base 16, [[], [], [], [], [], [], [], [], [], [], [], [], [], [], [], [], [], [], [], [], [], [], [], []], canon 16 (by decide), by decide +kernel⟩⟩

/-- States and operands that meet the hypotheses of `PantryRecords`. -/
theorem test_w_PantryRecords :
    (∃ s : State, Canonical s ∧ s.live = true ∧ ∃ r, s.metro.pend.head? = some r ∧ s.flag PANTRY.pg PANTRY.STATUS_FAULT = false ∧ s.flag PANTRY.pg PANTRY.STATUS_READY = true ∧ s.writesRecords = true ∧ s.unacked < s.slots) ∧
    (∃ s : State, Canonical s ∧ s.live = true ∧ ∃ ok : Bool, (s.flag PANTRY.pg PANTRY.STATUS_FAULT = true ∨ s.flag PANTRY.pg PANTRY.STATUS_READY = false)) ∧
    (∃ s : State, Canonical s ∧ s.live = true ∧ ∃ ok : Bool, (s.metro.pend = [] ∨ s.writesRecords = false) ∧ s.metro.ackDue = false ∧ (ok = true ∨ s.metro.latched = [])) ∧
    (∃ s : State, Canonical s ∧ s.live = true ∧ (s.metro.pend = [] ∨ s.writesRecords = false) ∧ s.flag PANTRY.pg PANTRY.STATUS_FAULT = false ∧ s.flag PANTRY.pg PANTRY.STATUS_READY = true ∧ s.metro.ackDue = true) ∧
    (∃ s : State, Canonical s ∧ s.live = true ∧ (s.metro.pend = [] ∨ s.writesRecords = false) ∧ s.flag PANTRY.pg PANTRY.STATUS_FAULT = false ∧ s.flag PANTRY.pg PANTRY.STATUS_READY = true ∧ (s.metro.ackDue = true ∨ s.metro.latched ≠ [])) ∧
    (∃ s : State, Canonical s ∧ s.live = true ∧ ∃ r, s.metro.pend.head? = some r ∧ r.type ≠ 4 ∧ s.writesRecords = true ∧ s.slots ≤ s.unacked ∧ s.metro.pend.length ≤ 16 ∧ s.metro.restoring = false) ∧
    (∃ s : State, Canonical s ∧ s.live = true ∧ ∃ ok : Bool, (s.flag PANTRY.pg PANTRY.STATUS_FAULT = false ∨ s.flag DEBUG.pg DEBUG.HALTED_MET = true)) ∧
    (∃ s : State, Canonical s ∧ s.live = true ∧ s.flag PANTRY.pg PANTRY.STATUS_FAULT = true ∧ s.flag DEBUG.pg DEBUG.HALTED_MET = false) ∧
    (∃ s : State, Canonical s ∧ s.live = true ∧ ∃ d : Fin 3, s.metroRuns = true ∧ s.metro.cfg = true ∧ s.lifecycle ≠ lcBLANK) ∧
    (∃ s : State, Canonical s ∧ s.live = true ∧ ∃ d : Fin 3, s.metroRuns = true ∧ s.metro.cfg = true ∧ s.lifecycle ≠ lcBLANK ∧ s.flag PANTRY.pg PANTRY.STATUS_READY = false) ∧
    (∃ s : State, Canonical s ∧ s.live = true ∧ ∃ d : Fin 3, s.metroRuns = true ∧ s.metro.cfg = true ∧ s.lifecycle ≠ lcBLANK ∧ s.flag PANTRY.pg PANTRY.STATUS_READY = true) ∧
    (∃ s : State, Canonical s ∧ s.live = true ∧ ∃ d : Option (Fin 3), (s.metroRuns = false ∨ s.metro.cfg = false ∨ s.lifecycle = lcBLANK)) :=
  ⟨⟨base 6, canon 6 (by decide), by decide +kernel, { type := 2, meter := 1, session := 0, seq := 5, impStart := 0, expStart := 0, impStop := 0, expStop := 0, timeS := 7, timeNs := 8, trust := 1, cyc := 9, cycStart := 4, status := 0, data := [], start := 1, begun := false, cmd := true, after := none, before := none, read := (0, 0, 0), readFault := false, readOver := false }, by decide +kernel⟩,
    ⟨base 0, canon 0 (by decide), by decide +kernel, false, by decide +kernel⟩,
    ⟨base 0, canon 0 (by decide), by decide +kernel, false, by decide +kernel⟩,
    ⟨base 19, canon 19 (by decide), by decide +kernel⟩,
    ⟨base 19, canon 19 (by decide), by decide +kernel⟩,
    ⟨base 17, canon 17 (by decide), by decide +kernel, { type := 2, meter := 1, session := 0, seq := 5, impStart := 0, expStart := 0, impStop := 0, expStop := 0, timeS := 7, timeNs := 8, trust := 1, cyc := 9, cycStart := 4, status := 0, data := [], start := 1, begun := false, cmd := true, after := none, before := none, read := (0, 0, 0), readFault := false, readOver := false }, by decide +kernel⟩,
    ⟨base 0, canon 0 (by decide), by decide +kernel, false, by decide +kernel⟩,
    ⟨base 8, canon 8 (by decide), by decide +kernel⟩,
    ⟨base 1, canon 1 (by decide), by decide +kernel, 0, by decide +kernel⟩,
    ⟨base 9, canon 9 (by decide), by decide +kernel, 0, by decide +kernel⟩,
    ⟨base 1, canon 1 (by decide), by decide +kernel, 0, by decide +kernel⟩,
    ⟨base 0, canon 0 (by decide), by decide +kernel, none, by decide +kernel⟩⟩

/-- States and operands that meet the hypotheses of `PantryReadsSnapshotsAndRestore`. -/
theorem test_w_PantryReadsSnapshotsAndRestore :
    (∃ s : State, ∃ ini : Initiator, ∃ v : Word, Canonical s ∧ s.admits ini PANTRY.pg 0x060 v.toNat = true) ∧
    (∃ s : State, ∃ ini : Initiator, ∃ v : Word, Canonical s ∧ s.admits ini PANTRY.pg 0x070 v.toNat = true) ∧
    (∃ s : State, ∃ ini : Initiator, ∃ v : Word, Canonical s ∧ s.live = true ∧ ∃ q, s.metro.read = some q) ∧
    (∃ s : State, ∃ ini : Initiator, ∃ v : Word, Canonical s ∧ s.live = true ∧ s.metro.read ≠ none) ∧
    (∃ s : State, ∃ ini : Initiator, ∃ v : Word, Canonical s ∧ ∃ memErr : Bool, s.metro.read = none) ∧
    (∃ s : State, Canonical s ∧ s.live = true ∧ s.metroRuns = true) ∧
    (∃ s : State, Canonical s ∧ s.live = true ∧ s.metroRuns = false) ∧
    (∃ s : State, Canonical s ∧ s.live = true ∧ s.metro.latched = []) ∧
    (∃ s : State, Canonical s ∧ s.live = true ∧ ∃ x, ∃ more, s.metro.latched = x :: more) ∧
    (∃ s : State, Canonical s ∧ s.live = true ∧ ∃ blank : Bool, ∃ foreign : Bool, ∃ newOk : Bool, ∃ oldOk : Bool, (s.mode = mBOOT ∨ s.flag METRO.pg METRO.STATUS_RUNNING = false ∨ s.flag METRO.pg METRO.STATUS_FW_OK = false ∨ s.flag METRO.pg METRO.STATUS_RESTORED = true ∨ s.metro.restoring = true ∨ s.flag PANTRY.pg PANTRY.STATUS_READY = false ∨ s.lifecycle = lcBLANK)) ∧
    (∃ s : State, Canonical s ∧ s.live = true ∧ ∃ newOk : Bool, ∃ oldOk : Bool, s.mode ≠ mBOOT ∧ s.flag METRO.pg METRO.STATUS_RUNNING = true ∧ s.flag METRO.pg METRO.STATUS_FW_OK = true ∧ s.flag METRO.pg METRO.STATUS_RESTORED = false ∧ s.metro.restoring = false ∧ s.flag PANTRY.pg PANTRY.STATUS_READY = true ∧ s.lifecycle = lcPROVISIONED) ∧
    (∃ s : State, Canonical s ∧ s.live = true ∧ ∃ newOk : Bool, ∃ oldOk : Bool, s.mode ≠ mBOOT ∧ s.flag METRO.pg METRO.STATUS_RUNNING = true ∧ s.flag METRO.pg METRO.STATUS_FW_OK = true ∧ s.flag METRO.pg METRO.STATUS_RESTORED = false ∧ s.metro.restoring = false ∧ s.flag PANTRY.pg PANTRY.STATUS_READY = true ∧ s.lifecycle = lcRETURNED) ∧
    (∃ s : State, Canonical s ∧ s.live = true ∧ ∃ newOk : Bool, ∃ oldOk : Bool, s.mode ≠ mBOOT ∧ s.flag METRO.pg METRO.STATUS_RUNNING = true ∧ s.flag METRO.pg METRO.STATUS_FW_OK = true ∧ s.flag METRO.pg METRO.STATUS_RESTORED = false ∧ s.metro.restoring = false ∧ s.flag PANTRY.pg PANTRY.STATUS_READY = true ∧ s.lifecycle = lcSEALED ∧ s.pantry.bound = true) ∧
    (∃ s : State, Canonical s ∧ s.live = true ∧ ∃ newOk : Bool, ∃ oldOk : Bool, s.mode ≠ mBOOT ∧ s.flag METRO.pg METRO.STATUS_RUNNING = true ∧ s.flag METRO.pg METRO.STATUS_FW_OK = true ∧ s.flag METRO.pg METRO.STATUS_RESTORED = false ∧ s.metro.restoring = false ∧ s.flag PANTRY.pg PANTRY.STATUS_READY = true ∧ ∃ foreign : Bool, s.lifecycle = lcSEALED ∧ s.epoch < 255) :=
  ⟨⟨base 0, (Initiator.porchA), 0x00000000#32, canon 0 (by decide), by decide +kernel⟩,
    ⟨base 0, (Initiator.porchA), 0x00000000#32, canon 0 (by decide), by decide +kernel⟩,
    ⟨base 10, (Initiator.porchA), 0x00000000#32, canon 10 (by decide), by decide +kernel, 3, by decide +kernel⟩,
    ⟨base 10, (Initiator.porchA), 0x00000000#32, canon 10 (by decide), by decide +kernel⟩,
    ⟨base 0, Initiator.porchA, 0x00000000#32, canon 0 (by decide), false, by decide +kernel⟩,
    ⟨base 1, canon 1 (by decide), by decide +kernel⟩,
    ⟨base 0, canon 0 (by decide), by decide +kernel⟩,
    ⟨base 0, canon 0 (by decide), by decide +kernel⟩,
    ⟨base 11, canon 11 (by decide), by decide +kernel, snap0, [], by decide +kernel⟩,
    ⟨base 0, canon 0 (by decide), by decide +kernel, false, false, false, false, by decide +kernel⟩,
    ⟨base 13, canon 13 (by decide), by decide +kernel, false, false, by decide +kernel⟩,
    ⟨base 20, canon 20 (by decide), by decide +kernel, false, false, by decide +kernel⟩,
    ⟨base 18, canon 18 (by decide), by decide +kernel, false, false, by decide +kernel⟩,
    ⟨base 15, canon 15 (by decide), by decide +kernel, false, false, by decide +kernel, by decide +kernel, by decide +kernel, by decide +kernel, by decide +kernel, by decide +kernel, false, by decide +kernel⟩⟩

end W29

namespace W30
def md (m : Nat) (s : State) : State := s.wr SYS.pg SYS.MODE_MODE 0 m
def pw (f : Fld) (i v : Nat) (s : State) : State := s.wr SAFEIO.pg f i v
def nw (f : Fld) (i v : Nat) (s : State) : State := s.wr SAFENET.pg f i v
def en (s : State) : State := pw SAFEIO.STATUS_EN 0 1 (md 6 s)
def pr (s : State) : State := pw SAFEIO.PAIRCFG_MODE 3 1 (en s)
def chan (x : SafeChan) (s : State) : State := { s with safety := { s.safety with chan := s.safety.chan.map fun _ => x } }
def wd (s : State) : State := pw SAFEIO.WDCFG_EN 0 1 (pw SAFEIO.WDCFG_EN 1 1 { md 6 s with cyc := 100000000 })
def eth (s : State) : State := [(ETHSW.CTRL_EN, 0), (ETHSW.STATUS_LINK0, 0), (ETHSW.STATUS_LINK1, 0), (ETHSW.PORT_EN, 0), (ETHSW.PORT_EN, 1)].foldl (fun s x => s.wr ETHSW.pg x.1 x.2 1) s
def net (s : State) : State := eth (nw SAFENET.CTRL_EN 0 1 (nw SAFENET.CH_CFG_EN 3 1 (nw SAFENET.CH_CFG_ID 3 0x1234 (md 6 s))))
def payB (cmd seq : Nat) : List Byte := let b : List Byte := [1, BitVec.ofNat 8 cmd, 0x12, 0x34, 0,0,0,BitVec.ofNat 8 seq]
  let b := b ++ b.map fun x => ~~~x
  let c := (crc32 0xFFFFFFFF#32 b).toNat
  b ++ [BitVec.ofNat 8 (c / 2^24), BitVec.ofNat 8 (c / 2^16), BitVec.ofNat 8 (c / 2^8), BitVec.ofNat 8 c]
def nst (st : Nat) (s : State) : State := nw SAFENET.CH_STAT_STATE 3 st s
def bases : List State := [hostBase, en hostBase, chan { run := 500 } (en hostBase), chan { deb := true, run := 2 } (en hostBase), pw SAFEIO.TPCFG_TPEN 0 15 (en hostBase), pr hostBase, pw SAFEIO.CHFAULT_CH 0 0xFF (pr hostBase), pw SAFEIO.LEVEL_CH 0 0x40 (pr hostBase), pw SAFEIO.PAIRCFG_RESTART 3 1 (pw SAFEIO.LEVEL_CH 0 0xC0 (pr hostBase)),
  pw SAFEIO.PAIRCFG_DISC_MS 3 50 (pw SAFEIO.LEVEL_CH 0 0x40 (pr hostBase)), pw SAFEIO.PAIRSTAT_STATE 3 4 (pr hostBase), wd hostBase, md 2 (wd hostBase), pw SAFEIO.WDCFG_WIN_MIN 0 900 (wd hostBase), pw SAFEIO.WDSTAT_EXPIRED 0 3 (md 2 (wd hostBase)), (wd hostBase).setWdog 1 { next5A := true },
  net hostBase, nst 3 (net hostBase), nst 1 (net hostBase), (net hostBase).setNet 3 { win := some (1, []), wd := 4 }] ++
  [md 1 hostBase, (let s := en hostBase; { s with cyc := 100000, safety := { s.safety with tp := Vector.replicate 4 { pulse := some (0, 2), start := 0 } } }), (let s := en hostBase; { s with cyc := 100000, safety := { s.safety with tp := Vector.replicate 4 { pulse := some (0, 2), start := 100000 } } }),
   nst 2 (nw SAFENET.CH_WD_MAX_GAP 3 10 (net hostBase)), (nst 2 (net hostBase)).setNet 3 { win := some (1, (payB 0 0).take 8) }, (nst 2 (net hostBase)).setNet 3 { win := some (1, []) }, nst 2 (nw SAFENET.CH_SEQ_LAST_SEQ 3 5 (net hostBase))]

def base (k : Nat) : State := bases.getD k State.reset
theorem canon : ∀ k ∈ [0, 1, 4, 5, 7, 11, 16, 17, 19, 20, 21, 22, 24, 25, 26], Canonical (base k) := canon_of (by decide +kernel)

/-- States and operands that meet the hypotheses of `SafetyInputsAndPairs`. -/
theorem test_w_SafetyInputsAndPairs :
    (∃ s : State, Canonical s ∧ ∃ raw : BitVec 24, ∃ tp : BitVec 4, s.live = true ∧ ∃ lv, (if s.flag SYS.pg SYS.STATUS_DIE_LINK_OK = true then raw else 0) = lv ∧ s.safetyRuns = false) ∧
    (∃ s : State, Canonical s ∧ ∃ raw : BitVec 24, ∃ tp : BitVec 4, s.live = true ∧ ∃ lv, (if s.flag SYS.pg SYS.STATUS_DIE_LINK_OK = true then raw else 0) = lv ∧ s.safetyRuns = true ∧ s.safeEn = false) ∧
    (∃ s : State, Canonical s ∧ ∃ raw : BitVec 24, ∃ tp : BitVec 4, s.live = true ∧ ∃ lv, (if s.flag SYS.pg SYS.STATUS_DIE_LINK_OK = true then raw else 0) = lv ∧ s.safetyRuns = true ∧ s.safeEn = true) ∧
    (∃ s : State, Canonical s ∧ ∃ k : Fin 4, s.live = true ∧ (s.tpRuns k = false ∨ s.pulseDue k = false)) ∧
    (∃ s : State, Canonical s ∧ ∃ k : Fin 4, s.live = true ∧ s.tpRuns k = true ∧ s.pulseDue k = true) ∧
    (∃ s : State, Canonical s ∧ ∃ k : Fin 4, s.live = true ∧ (s.tpOut k).pulse = none) ∧
    (∃ s : State, Canonical s ∧ ∃ k : Fin 4, s.live = true ∧ ∃ n, ∃ w, (s.tpOut k).pulse = some (n, w) ∧ 25000 * w ≤ s.since (s.tpOut k).start) ∧
    (∃ s : State, Canonical s ∧ ∃ k : Fin 4, s.live = true ∧ ∃ n, ∃ w, (s.tpOut k).pulse = some (n, w) ∧ s.since (s.tpOut k).start < 25000 * w) ∧
    (∃ s : State, Canonical s ∧ ∃ q : Fin 8, s.live = true ∧ s.safetyRuns = true ∧ s.safeEn = true ∧ s.commitPending SAFEIO.pg = false ∧ s.commitPending SAFENET.pg = false ∧ s.pairMode q ≠ 0) ∧
    (∃ s : State, Canonical s ∧ s.live = true ∧ s.safetyRuns = false ∧ s.commitPending SAFEIO.pg = false ∧ s.commitPending SAFENET.pg = false) ∧
    (∃ s : State, Canonical s ∧ ∃ q : Fin 8, (s.safetyRuns = false ∨ s.safeEn = false ∨ s.pairMode q = 0)) ∧
    (∃ s : State, Canonical s ∧ ∃ q : Fin 8, s.live = true ∧ s.safetyRuns = true ∧ s.safeEn = true ∧ s.pairMode q ≠ 0 ∧ s.pairActive q = false ∧ s.pairSafe q = false ∧ s.pairBad q = false ∧ s.rd SAFEIO.pg SAFEIO.PAIRSTAT_STATE q ≠ pFAULT ∧ 0 < s.rd SAFEIO.pg SAFEIO.PAIRCFG_DISC_MS q) ∧
    (∃ s : State, Canonical s ∧ ∃ ini : Initiator, ∃ mask : Byte, s.admits ini SAFEIO.pg 0x050 mask.toNat = true) :=
  ⟨⟨base 20, canon 20 (by decide), 0x000000#24, 0x0#4, by decide +kernel, _, rfl, by decide +kernel⟩,
    ⟨base 0, canon 0 (by decide), 0x000000#24, 0x0#4, by decide +kernel, _, rfl, by decide +kernel⟩,
    ⟨base 1, canon 1 (by decide), 0x000000#24, 0x0#4, by decide +kernel, _, rfl, by decide +kernel⟩,
    ⟨base 0, canon 0 (by decide), 0, by decide +kernel⟩,
    ⟨base 4, canon 4 (by decide), 0, by decide +kernel⟩,
    ⟨base 0, canon 0 (by decide), 0, by decide +kernel⟩,
    ⟨base 21, canon 21 (by decide), 0, by decide +kernel, 0, 2, by decide +kernel⟩,
    ⟨base 22, canon 22 (by decide), 0, by decide +kernel, 0, 2, by decide +kernel⟩,
    ⟨base 5, canon 5 (by decide), 3, by decide +kernel⟩,
    ⟨base 20, canon 20 (by decide), by decide +kernel⟩,
    ⟨base 0, canon 0 (by decide), 0, by decide +kernel⟩,
    ⟨base 7, canon 7 (by decide), 3, by decide +kernel⟩,
    ⟨base 0, canon 0 (by decide), (Initiator.porchA), 0xa5#8, by decide +kernel⟩⟩

/-- States and operands that meet the hypotheses of `WatchdogsAndSafetyFrames`. -/
theorem test_w_WatchdogsAndSafetyFrames :
    (∃ s : State, ∃ x : Fin 2, Canonical s ∧ ∃ ini : Initiator, ∃ token : Byte, s.admits ini SAFEIO.pg (0x144 + 8 * x) token.toNat = true ∧ ∃ w, s.wdog x = w) ∧
    (∃ s : State, ∃ x : Fin 2, Canonical s ∧ s.live = true ∧ s.wdRuns x = false) ∧
    (∃ s : State, ∃ x : Fin 2, Canonical s ∧ s.live = true ∧ s.wdRuns x = true) ∧
    (∃ s : State, ∃ x : Fin 2, Canonical s ∧ ∃ ini : Initiator, ∃ mask : BitVec 2, s.admits ini SAFEIO.pg 0x154 mask.toNat = true) ∧
    (∃ s : State, ∃ q : Fin 8, Canonical s ∧ ∃ p : Fin 2, ∃ pay : List Byte, (s.portLive p = false ∨ s.safetyRuns = false ∨ s.flag SAFENET.pg SAFENET.CTRL_EN = false ∨ pay.length < 4)) ∧
    (∃ s : State, ∃ q : Fin 8, Canonical s ∧ ∃ p : Fin 2, ∃ pay : List Byte, s.live = true ∧ s.portLive p = true ∧ s.safetyRuns = true ∧ s.flag SAFENET.pg SAFENET.CTRL_EN = true ∧ 4 ≤ pay.length ∧ (∀ r < 8, s.flag SAFENET.pg SAFENET.CH_CFG_EN r = true → s.rd SAFENET.pg SAFENET.CH_CFG_ID r ≠ payNat pay 2 2)) ∧
    (∃ s : State, ∃ q : Fin 8, Canonical s ∧ ∃ p : Fin 2, ∃ pay : List Byte, s.live = true ∧ s.portLive p = true ∧ s.safetyRuns = true ∧ s.flag SAFENET.pg SAFENET.CTRL_EN = true ∧ 4 ≤ pay.length ∧ s.flag SAFENET.pg SAFENET.CH_CFG_EN q = true ∧ s.rd SAFENET.pg SAFENET.CH_CFG_ID q = payNat pay 2 2 ∧ (∀ r < 8, r ≠ q.val → s.rd SAFENET.pg SAFENET.CH_CFG_ID r ≠ payNat pay 2 2) ∧ s.netOk q pay = false) ∧
    (∃ s : State, ∃ q : Fin 8, Canonical s ∧ ∃ p : Fin 2, ∃ pay : List Byte, s.live = true ∧ s.portLive p = true ∧ s.safetyRuns = true ∧ s.flag SAFENET.pg SAFENET.CTRL_EN = true ∧ 4 ≤ pay.length ∧ s.flag SAFENET.pg SAFENET.CH_CFG_EN q = true ∧ s.rd SAFENET.pg SAFENET.CH_CFG_ID q = payNat pay 2 2 ∧ (∀ r < 8, r ≠ q.val → s.rd SAFENET.pg SAFENET.CH_CFG_ID r ≠ payNat pay 2 2) ∧ s.netOk q pay = true ∧ s.netState q = nWAIT ∧ (s.netChan q).win = none) ∧
    (∃ s : State, ∃ q : Fin 8, Canonical s ∧ ∃ p : Fin 2, ∃ pay : List Byte, s.live = true ∧ s.portLive p = true ∧ s.safetyRuns = true ∧ s.flag SAFENET.pg SAFENET.CTRL_EN = true ∧ 4 ≤ pay.length ∧ s.flag SAFENET.pg SAFENET.CH_CFG_EN q = true ∧ s.rd SAFENET.pg SAFENET.CH_CFG_ID q = payNat pay 2 2 ∧ (∀ r < 8, r ≠ q.val → s.rd SAFENET.pg SAFENET.CH_CFG_ID r ≠ payNat pay 2 2) ∧ s.netOk q pay = true ∧ s.netState q ≠ nWAIT ∧ ∃ d, (payNat pay 4 4 + 2 ^ 32 - s.rd SAFENET.pg SAFENET.CH_SEQ_LAST_SEQ q) % 2 ^ 32 = d ∧ d = 0 ∧ (s.netChan q).win = none) ∧
    (∃ s : State, ∃ q : Fin 8, Canonical s ∧ ∃ p : Fin 2, ∃ pay : List Byte, s.live = true ∧ s.portLive p = true ∧ s.safetyRuns = true ∧ s.flag SAFENET.pg SAFENET.CTRL_EN = true ∧ 4 ≤ pay.length ∧ s.flag SAFENET.pg SAFENET.CH_CFG_EN q = true ∧ s.rd SAFENET.pg SAFENET.CH_CFG_ID q = payNat pay 2 2 ∧ (∀ r < 8, r ≠ q.val → s.rd SAFENET.pg SAFENET.CH_CFG_ID r ≠ payNat pay 2 2) ∧ s.netOk q pay = true ∧ s.netState q ≠ nWAIT ∧ ∃ d, (payNat pay 4 4 + 2 ^ 32 - s.rd SAFENET.pg SAFENET.CH_SEQ_LAST_SEQ q) % 2 ^ 32 = d ∧ ∃ p0, ∃ b, d = 0 ∧ (s.netChan q).win = some (p0, b) ∧ p = p0) ∧
    (∃ s : State, ∃ q : Fin 8, Canonical s ∧ ∃ p : Fin 2, ∃ pay : List Byte, s.live = true ∧ s.portLive p = true ∧ s.safetyRuns = true ∧ s.flag SAFENET.pg SAFENET.CTRL_EN = true ∧ 4 ≤ pay.length ∧ s.flag SAFENET.pg SAFENET.CH_CFG_EN q = true ∧ s.rd SAFENET.pg SAFENET.CH_CFG_ID q = payNat pay 2 2 ∧ (∀ r < 8, r ≠ q.val → s.rd SAFENET.pg SAFENET.CH_CFG_ID r ≠ payNat pay 2 2) ∧ s.netOk q pay = true ∧ s.netState q ≠ nWAIT ∧ ∃ d, (payNat pay 4 4 + 2 ^ 32 - s.rd SAFENET.pg SAFENET.CH_SEQ_LAST_SEQ q) % 2 ^ 32 = d ∧ ∃ p0, ∃ b, d = 0 ∧ (s.netChan q).win = some (p0, b) ∧ p ≠ p0 ∧ b = pay.take 8) ∧
    (∃ s : State, ∃ q : Fin 8, Canonical s ∧ ∃ p : Fin 2, ∃ pay : List Byte, s.live = true ∧ s.portLive p = true ∧ s.safetyRuns = true ∧ s.flag SAFENET.pg SAFENET.CTRL_EN = true ∧ 4 ≤ pay.length ∧ s.flag SAFENET.pg SAFENET.CH_CFG_EN q = true ∧ s.rd SAFENET.pg SAFENET.CH_CFG_ID q = payNat pay 2 2 ∧ (∀ r < 8, r ≠ q.val → s.rd SAFENET.pg SAFENET.CH_CFG_ID r ≠ payNat pay 2 2) ∧ s.netOk q pay = true ∧ s.netState q ≠ nWAIT ∧ ∃ d, (payNat pay 4 4 + 2 ^ 32 - s.rd SAFENET.pg SAFENET.CH_SEQ_LAST_SEQ q) % 2 ^ 32 = d ∧ ∃ p0, ∃ b, d = 0 ∧ (s.netChan q).win = some (p0, b) ∧ p ≠ p0 ∧ b ≠ pay.take 8 ∧ s.netState q ≠ nFAULT) ∧
    (∃ s : State, ∃ q : Fin 8, Canonical s ∧ ∃ p : Fin 2, ∃ pay : List Byte, s.live = true ∧ s.portLive p = true ∧ s.safetyRuns = true ∧ s.flag SAFENET.pg SAFENET.CTRL_EN = true ∧ 4 ≤ pay.length ∧ s.flag SAFENET.pg SAFENET.CH_CFG_EN q = true ∧ s.rd SAFENET.pg SAFENET.CH_CFG_ID q = payNat pay 2 2 ∧ (∀ r < 8, r ≠ q.val → s.rd SAFENET.pg SAFENET.CH_CFG_ID r ≠ payNat pay 2 2) ∧ s.netOk q pay = true ∧ s.netState q ≠ nWAIT ∧ ∃ d, (payNat pay 4 4 + 2 ^ 32 - s.rd SAFENET.pg SAFENET.CH_SEQ_LAST_SEQ q) % 2 ^ 32 = d ∧ 0 < d ∧ d ≤ s.rd SAFENET.pg SAFENET.CH_WD_MAX_GAP q ∧ (s.netChan q).win = none) ∧
    (∃ s : State, ∃ q : Fin 8, Canonical s ∧ ∃ p : Fin 2, ∃ pay : List Byte, s.live = true ∧ s.portLive p = true ∧ s.safetyRuns = true ∧ s.flag SAFENET.pg SAFENET.CTRL_EN = true ∧ 4 ≤ pay.length ∧ s.flag SAFENET.pg SAFENET.CH_CFG_EN q = true ∧ s.rd SAFENET.pg SAFENET.CH_CFG_ID q = payNat pay 2 2 ∧ (∀ r < 8, r ≠ q.val → s.rd SAFENET.pg SAFENET.CH_CFG_ID r ≠ payNat pay 2 2) ∧ s.netOk q pay = true ∧ s.netState q ≠ nWAIT ∧ ∃ d, (payNat pay 4 4 + 2 ^ 32 - s.rd SAFENET.pg SAFENET.CH_SEQ_LAST_SEQ q) % 2 ^ 32 = d ∧ s.rd SAFENET.pg SAFENET.CH_WD_MAX_GAP q < d ∧ 0 < d ∧ d < 2 ^ 31 ∧ s.netState q ≠ nFAULT) ∧
    (∃ s : State, ∃ q : Fin 8, Canonical s ∧ ∃ p : Fin 2, ∃ pay : List Byte, s.live = true ∧ s.portLive p = true ∧ s.safetyRuns = true ∧ s.flag SAFENET.pg SAFENET.CTRL_EN = true ∧ 4 ≤ pay.length ∧ s.flag SAFENET.pg SAFENET.CH_CFG_EN q = true ∧ s.rd SAFENET.pg SAFENET.CH_CFG_ID q = payNat pay 2 2 ∧ (∀ r < 8, r ≠ q.val → s.rd SAFENET.pg SAFENET.CH_CFG_ID r ≠ payNat pay 2 2) ∧ s.netOk q pay = true ∧ s.netState q ≠ nWAIT ∧ ∃ d, (payNat pay 4 4 + 2 ^ 32 - s.rd SAFENET.pg SAFENET.CH_SEQ_LAST_SEQ q) % 2 ^ 32 = d ∧ s.rd SAFENET.pg SAFENET.CH_WD_MAX_GAP q < d ∧ 2 ^ 31 ≤ d) ∧
    (∃ s : State, ∃ q : Fin 8, Canonical s ∧ s.live = true ∧ (s.netChan q).win = none) ∧
    (∃ s : State, ∃ q : Fin 8, Canonical s ∧ s.live = true ∧ ∃ p, ∃ b, (s.netChan q).win = some (p, b)) ∧
    (∃ s : State, ∃ q : Fin 8, Canonical s ∧ (s.safetyRuns = false ∨ s.flag SAFENET.pg SAFENET.CTRL_EN = false ∨ s.flag SAFENET.pg SAFENET.CH_CFG_EN q = false ∨ (s.netChan q).took = some s.cyc)) ∧
    (∃ s : State, ∃ q : Fin 8, Canonical s ∧ s.live = true ∧ s.safetyRuns = true ∧ s.flag SAFENET.pg SAFENET.CTRL_EN = true ∧ s.flag SAFENET.pg SAFENET.CH_CFG_EN q = true ∧ s.netState q ≠ nFAULT ∧ (s.netChan q).took ≠ some s.cyc) ∧
    (∃ s : State, ∃ q : Fin 8, Canonical s ∧ ∃ ini : Initiator, ∃ mask : Byte, s.admits ini SAFENET.pg 0x044 mask.toNat = true) :=
  ⟨⟨base 0, 0, canon 0 (by decide), (Initiator.porchA), 0xa5#8, by decide +kernel, _, rfl⟩,
    ⟨base 0, 0, canon 0 (by decide), by decide +kernel⟩,
    ⟨base 11, 0, canon 11 (by decide), by decide +kernel⟩,
    ⟨base 0, 0, canon 0 (by decide), (Initiator.porchA), 0x0#2, by decide +kernel⟩,
    ⟨base 0, 0, canon 0 (by decide), 0, [], by decide +kernel⟩,
    ⟨base 16, 0, canon 16 (by decide), 0, [0x00#8, 0x00#8, 0x00#8, 0x00#8], by decide +kernel⟩,
    ⟨base 16, 3, canon 16 (by decide), 0, [0x00#8, 0x00#8, 0x12#8, 0x34#8], by decide +kernel⟩,
    ⟨base 16, 3, canon 16 (by decide), 0, [0x01#8, 0x00#8, 0x12#8, 0x34#8, 0x00#8, 0x00#8, 0x00#8, 0x00#8, 0xfe#8, 0xff#8, 0xed#8, 0xcb#8, 0xff#8, 0xff#8, 0xff#8, 0xff#8, 0x90#8, 0xbc#8, 0x18#8, 0x81#8], by decide +kernel⟩,
    ⟨base 17, 3, canon 17 (by decide), 0, [0x01#8, 0x00#8, 0x12#8, 0x34#8, 0x00#8, 0x00#8, 0x00#8, 0x00#8, 0xfe#8, 0xff#8, 0xed#8, 0xcb#8, 0xff#8, 0xff#8, 0xff#8, 0xff#8, 0x90#8, 0xbc#8, 0x18#8, 0x81#8], by decide +kernel, by decide +kernel, by decide +kernel, by decide +kernel, by decide +kernel, by decide +kernel, by decide +kernel, by decide +kernel, by decide +kernel, by decide +kernel, _, rfl, by decide +kernel⟩,
    ⟨base 24, 3, canon 24 (by decide), 1, [0x01#8, 0x00#8, 0x12#8, 0x34#8, 0x00#8, 0x00#8, 0x00#8, 0x00#8, 0xfe#8, 0xff#8, 0xed#8, 0xcb#8, 0xff#8, 0xff#8, 0xff#8, 0xff#8, 0x90#8, 0xbc#8, 0x18#8, 0x81#8], by decide +kernel, by decide +kernel, by decide +kernel, by decide +kernel, by decide +kernel, by decide +kernel, by decide +kernel, by decide +kernel, by decide +kernel, by decide +kernel, _, rfl, 1, [0x01#8, 0x00#8, 0x12#8, 0x34#8, 0x00#8, 0x00#8, 0x00#8, 0x00#8], by decide +kernel⟩,
    ⟨base 24, 3, canon 24 (by decide), 0, [0x01#8, 0x00#8, 0x12#8, 0x34#8, 0x00#8, 0x00#8, 0x00#8, 0x00#8, 0xfe#8, 0xff#8, 0xed#8, 0xcb#8, 0xff#8, 0xff#8, 0xff#8, 0xff#8, 0x90#8, 0xbc#8, 0x18#8, 0x81#8], by decide +kernel, by decide +kernel, by decide +kernel, by decide +kernel, by decide +kernel, by decide +kernel, by decide +kernel, by decide +kernel, by decide +kernel, by decide +kernel, _, rfl, 1, [0x01#8, 0x00#8, 0x12#8, 0x34#8, 0x00#8, 0x00#8, 0x00#8, 0x00#8], by decide +kernel⟩,
    ⟨base 25, 3, canon 25 (by decide), 0, [0x01#8, 0x00#8, 0x12#8, 0x34#8, 0x00#8, 0x00#8, 0x00#8, 0x00#8, 0xfe#8, 0xff#8, 0xed#8, 0xcb#8, 0xff#8, 0xff#8, 0xff#8, 0xff#8, 0x90#8, 0xbc#8, 0x18#8, 0x81#8], by decide +kernel, by decide +kernel, by decide +kernel, by decide +kernel, by decide +kernel, by decide +kernel, by decide +kernel, by decide +kernel, by decide +kernel, by decide +kernel, _, rfl, 1, [], by decide +kernel⟩,
    ⟨base 17, 3, canon 17 (by decide), 0, [0x01#8, 0x00#8, 0x12#8, 0x34#8, 0x00#8, 0x00#8, 0x00#8, 0x01#8, 0xfe#8, 0xff#8, 0xed#8, 0xcb#8, 0xff#8, 0xff#8, 0xff#8, 0xfe#8, 0xf0#8, 0xc0#8, 0x3c#8, 0x54#8], by decide +kernel, by decide +kernel, by decide +kernel, by decide +kernel, by decide +kernel, by decide +kernel, by decide +kernel, by decide +kernel, by decide +kernel, by decide +kernel, _, rfl, by decide +kernel⟩,
    ⟨base 17, 3, canon 17 (by decide), 0, [0x01#8, 0x00#8, 0x12#8, 0x34#8, 0x00#8, 0x00#8, 0x00#8, 0xff#8, 0xfe#8, 0xff#8, 0xed#8, 0xcb#8, 0xff#8, 0xff#8, 0xff#8, 0x00#8, 0xf4#8, 0xf1#8, 0xfb#8, 0x47#8], by decide +kernel, by decide +kernel, by decide +kernel, by decide +kernel, by decide +kernel, by decide +kernel, by decide +kernel, by decide +kernel, by decide +kernel, by decide +kernel, _, rfl, by decide +kernel⟩,
    ⟨base 26, 3, canon 26 (by decide), 0, [0x01#8, 0x00#8, 0x12#8, 0x34#8, 0x00#8, 0x00#8, 0x00#8, 0x00#8, 0xfe#8, 0xff#8, 0xed#8, 0xcb#8, 0xff#8, 0xff#8, 0xff#8, 0xff#8, 0x90#8, 0xbc#8, 0x18#8, 0x81#8], by decide +kernel, by decide +kernel, by decide +kernel, by decide +kernel, by decide +kernel, by decide +kernel, by decide +kernel, by decide +kernel, by decide +kernel, by decide +kernel, _, rfl, by decide +kernel⟩,
    ⟨base 0, 3, canon 0 (by decide), by decide +kernel⟩,
    ⟨base 19, 3, canon 19 (by decide), by decide +kernel, 1, [], by decide +kernel⟩,
    ⟨base 0, 0, canon 0 (by decide), by decide +kernel⟩,
    ⟨base 16, 3, canon 16 (by decide), by decide +kernel⟩,
    ⟨base 0, 3, canon 0 (by decide), (Initiator.porchA), 0xa5#8, by decide +kernel⟩⟩

end W30

namespace W31
def md (m : Nat) (s : State) : State := s.wr SYS.pg SYS.MODE_MODE 0 m
def cw (f : Fld) (v : Nat) (s : State) : State := s.wr CHIMNEY.pg f 0 v
def gw (f : Fld) (v : Nat) (s : State) : State := s.wr (GDRV.pg 3) f 0 v
def legs (st : Nat) (s : State) : State := (List.range 12).foldl (fun s n => ((s.wr (GDRV.pg n) GDRV.STATUS_STATE 0 st).wr (GDRV.pg n) GDRV.CFG_AXIS 0 (n % 3)).wr (GDRV.pg n) GDRV.CTRL_EN 0 1) (cw CHIMNEY.STATUS_VGD_OK 1 (cw CHIMNEY.STATUS_VGD_UV 0 s))
def chm (s : State) : State := cw CHIMNEY.STATUS_CFG_HELD 1 (cw CHIMNEY.CFG_MBOV_EN 1 (cw CHIMNEY.CFG_UV_EN 1 (cw CHIMNEY.STATUS_VGD_UV 0 (cw CHIMNEY.STATUS_VGD_OK 1 s))))
def b6 : State := md 6 hostBase
def bases : List State := [hostBase, legs 1 (chm b6), legs 2 (chm b6), cw CHIMNEY.CFG_OV_ACTION 1 (legs 2 (chm b6)), cw CHIMNEY.STATUS_CHOP_ON 1 (legs 5 (chm b6)), cw CHIMNEY.STATUS_MBOV 1 (cw CHIMNEY.CFG_OV_ACTION 1 (legs 5 (chm b6))), gw GDRV.STATUS_STATE 4 (legs 1 (chm b6)), { cw CHIMNEY.STATUS_CHOP_ON 0 (legs 2 (chm b6)) with chimney := { last := some (6, 0), rest := true } },
 gw GDRV.STATUS_GD_BOOT_UV 1 (legs 2 (chm b6)), gw GDRV.STATUS_STATE 4 hostBase, gw GDRV.STATUS_STATE 3 ((legs 0 hostBase).setLeg 3 { diag := 1 }), gw GDRV.STATUS_STATE 3 ((legs 0 hostBase).setLeg 3 { diag := 2 }), gw GDRV.STATUS_STATE 3 ((legs 0 hostBase).setLeg 3 { diag := 3 }), legs 0 hostBase] ++
  [{ (legs 2 (chm b6)).wr (GDRV.pg 3) commitPendingFld 0 1 with cyc := 1000000000 }, { (legs gBRAKE (chm b6)).setLeg 3 { brake := some (0, 0) } with cyc := 1000000 },
   { ((legs gBRAKE (chm b6)).wr (GDRV.pg 3) commitPendingFld 0 1).setLeg 3 { brake := some (0, 0) } with cyc := 1000000 }]

def base (k : Nat) : State := bases.getD k State.reset
theorem canon : ∀ k ∈ [0, 1, 4, 8, 10, 14, 15, 16], Canonical (base k) := canon_of (by decide +kernel)

/-- States and operands that meet the hypotheses of `GateSupplyAndMotorBus`. -/
theorem test_w_GateSupplyAndMotorBus :
    (∃ s : State, ∃ v : BitVec 12, Canonical s ∧ s.pwr.held = false ∧ v.toNat < s.vgdThr) ∧
    (∃ s : State, ∃ v : BitVec 12, Canonical s ∧ s.pwr.held = false ∧ s.vgdThr ≤ v.toNat) ∧
    (∃ s : State, ∃ v : BitVec 12, Canonical s ∧ s.pwr.held = false ∧ v.toNat < s.vgdThr + 4) ∧
    (∃ s : State, ∃ v : BitVec 12, Canonical s ∧ s.pwr.held = false ∧ (s.mbovRuns = false ∨ v.toNat < 5 * s.rd CHIMNEY.pg CHIMNEY.VM_THR_OV_TRIP)) ∧
    (∃ s : State, ∃ v : BitVec 12, Canonical s ∧ s.pwr.held = false ∧ s.vgdThr + 4 ≤ v.toNat) ∧
    (∃ s : State, ∃ v : BitVec 12, Canonical s ∧ s.pwr.held = false) ∧
    (∃ s : State, ∃ v : BitVec 12, Canonical s ∧ s.pwr.held = false ∧ s.flag CHIMNEY.pg CHIMNEY.STATUS_CHOP_ON = false) ∧
    (∃ s : State, ∃ v : BitVec 12, Canonical s ∧ s.pwr.held = false ∧ s.flag CHIMNEY.pg CHIMNEY.STATUS_CHOP_ON = true) ∧
    (∃ s : State, ∃ v : BitVec 12, Canonical s ∧ s.pwr.held = false ∧ s.mbovRuns = true ∧ 5 * s.rd CHIMNEY.pg CHIMNEY.VM_THR_OV_TRIP ≤ v.toNat) ∧
    (∃ s : State, ∃ v : BitVec 12, Canonical s ∧ ∃ ini : Initiator, s.admits ini CHIMNEY.pg 0x008 1 = true) ∧
    (∃ s : State, ∃ v : BitVec 12, Canonical s ∧ ∃ ini : Initiator, s.admits ini CHIMNEY.pg 0x008 2 = true) :=
  ⟨⟨base 0, 0x000#12, canon 0 (by decide), by decide +kernel⟩,
    ⟨base 0, 0x064#12, canon 0 (by decide), by decide +kernel⟩,
    ⟨base 0, 0x000#12, canon 0 (by decide), by decide +kernel⟩,
    ⟨base 0, 0x000#12, canon 0 (by decide), by decide +kernel⟩,
    ⟨base 0, 0x064#12, canon 0 (by decide), by decide +kernel⟩,
    ⟨base 0, 0x000#12, canon 0 (by decide), by decide +kernel⟩,
    ⟨base 0, 0x000#12, canon 0 (by decide), by decide +kernel⟩,
    ⟨base 4, 0x000#12, canon 4 (by decide), by decide +kernel⟩,
    ⟨base 1, 0x320#12, canon 1 (by decide), by decide +kernel⟩,
    ⟨base 0, 0x000#12, canon 0 (by decide), (Initiator.porchA), by decide +kernel⟩,
    ⟨base 0, 0x000#12, canon 0 (by decide), (Initiator.porchA), by decide +kernel⟩⟩

/-- States and operands that meet the hypotheses of `LegFaultsAndDiagnostics`. -/
theorem test_w_LegFaultsAndDiagnostics :
    (∃ s : State, ∃ n : Fin 12, Canonical s ∧ ∃ d : DrainDrop, s.live = true ∧ s.vdsTrips n d = false) ∧
    (∃ s : State, ∃ n : Fin 12, Canonical s ∧ ∃ d : DrainDrop, s.live = true ∧ s.shortTrips n d = false) ∧
    (∃ s : State, ∃ n : Fin 12, Canonical s ∧ ∃ d : DrainDrop, s.live = true ∧ s.commitPending (GDRV.pg n) = false ∧ s.vdsTrips n d = true) ∧
    (∃ s : State, ∃ n : Fin 12, Canonical s ∧ ∃ d : DrainDrop, s.live = true ∧ s.commitPending (GDRV.pg n) = false ∧ s.shortTrips n d = true) ∧
    (∃ s : State, ∃ n : Fin 12, Canonical s ∧ ∃ d : DrainDrop, s.live = true ∧ s.commitPending (GDRV.pg n) = true ∧ s.vdsTrips n d = true) ∧
    (∃ s : State, ∃ n : Fin 12, Canonical s ∧ ∃ d : DrainDrop, s.live = true ∧ s.commitPending (GDRV.pg n) = true ∧ s.shortTrips n d = true) ∧
    (∃ s : State, ∃ n : Fin 12, Canonical s ∧ ∃ dv : Byte, s.live = true ∧ s.flag (GDRV.pg n) GDRV.STATUS_GD_BOOT_UV = false ∧ dv.toNat < s.vgdThr) ∧
    (∃ s : State, ∃ n : Fin 12, Canonical s ∧ ∃ dv : Byte, (s.flag (GDRV.pg n) GDRV.STATUS_GD_BOOT_UV = true ∨ s.vgdThr ≤ dv.toNat)) ∧
    (∃ s : State, ∃ n : Fin 12, Canonical s ∧ ∃ dv : Byte, s.live = true ∧ s.refreshWants n = false) ∧
    (∃ s : State, ∃ n : Fin 12, Canonical s ∧ ∃ dv : Byte, s.live = true ∧ s.refreshWants n = true) ∧
    (∃ s : State, ∃ n : Fin 12, Canonical s ∧ ∃ ini : Initiator, s.admits ini (GDRV.pg n) 0x008 (s.ctrlWith (GDRV.pg n) GDRV.CTRL_EN 2) = true) ∧
    (∃ s : State, ∃ n : Fin 12, Canonical s ∧ ∃ ini : Initiator, ∃ vm : BitVec 12, s.admits ini (GDRV.pg n) 0x008 (s.ctrlWith (GDRV.pg n) GDRV.CTRL_EN 4) = true) ∧
    (∃ s : State, ∃ n : Fin 12, Canonical s ∧ ∃ vs : Int, ∃ vm : BitVec 12, s.live = true ∧ s.legState n = gDIAG) ∧
    (∃ s : State, ∃ n : Fin 12, Canonical s ∧ ∃ vs : Int, ∃ vm : BitVec 12, s.live = true ∧ s.legState n ≠ gDIAG) :=
  ⟨⟨base 0, 0, canon 0 (by decide), { high := true, mv := 0x00000#17 }, by decide +kernel⟩,
    ⟨base 0, 0, canon 0 (by decide), { high := true, mv := 0x00000#17 }, by decide +kernel⟩,
    ⟨base 15, 3, canon 15 (by decide), { high := false, mv := 0x04e20#17 }, by decide +kernel⟩,
    ⟨base 15, 3, canon 15 (by decide), { high := false, mv := 0x04e20#17 }, by decide +kernel⟩,
    ⟨base 16, 3, canon 16 (by decide), { high := false, mv := 0x04e20#17 }, by decide +kernel⟩,
    ⟨base 16, 3, canon 16 (by decide), { high := false, mv := 0x04e20#17 }, by decide +kernel⟩,
    ⟨base 0, 0, canon 0 (by decide), 0x00#8, by decide +kernel⟩,
    ⟨base 8, 3, canon 8 (by decide), 0x00#8, by decide +kernel⟩,
    ⟨base 0, 0, canon 0 (by decide), 0x00#8, by decide +kernel⟩,
    ⟨base 14, 0, canon 14 (by decide), 0x00#8, by decide +kernel⟩,
    ⟨base 0, 0, canon 0 (by decide), Initiator.porchA, by decide +kernel⟩,
    ⟨base 0, 0, canon 0 (by decide), Initiator.porchA, 0x000#12, by decide +kernel⟩,
    ⟨base 10, 3, canon 10 (by decide), 0, 0x000#12, by decide +kernel⟩,
    ⟨base 0, 0, canon 0 (by decide), 0, 0x000#12, by decide +kernel⟩⟩

end W31

namespace W32
def md (m : Nat) (s : State) : State := s.wr SYS.pg SYS.MODE_MODE 0 m
def aw (f : Fld) (v : Nat) (s : State) : State := s.wr (AXIS.pg 1) f 0 v
def b6 : State := md 6 hostBase
def qb (s : State) : State := { s with staged := [], committed := [] }
def legs (st : Nat) (s : State) : State := (List.range 12).foldl (fun s n => (((s.wr (GDRV.pg n) GDRV.STATUS_STATE 0 st).wr (GDRV.pg n) GDRV.CFG_AXIS 0 (n / 3)).wr (GDRV.pg n) GDRV.CFG_LEG 0 (n % 3)).wr (GDRV.pg n) GDRV.CTRL_EN 0 1) s
def calm (s : State) : State := aw AXIS.CFG_MOTOR 0 <| aw AXIS.CFG_SOFT_EN 0 <| aw AXIS.CFG_STALL_EN 0 <| aw AXIS.SWITCH_PERIOD 5000 <| aw AXIS.STATUS_STALL 0 <| aw AXIS.DECEL_VALUE 0x447a0000 <| aw AXIS.AMAX_VALUE 0x447a0000 <| aw AXIS.VMAX_VALUE 0x447a0000 <| aw AXIS.JMAX_VALUE 0x447a0000 <| aw AXIS.HOME_MAX_DIST 5000 <| aw AXIS.TARGET_POS 0xFFFFFF00 <|
  ([0,2,3] : List Nat).foldl (fun s b => (s.wr (AXIS.pg b) AXIS.STATUS_STATE 0 0)) s
def cmd (c st : Nat) (s : State) : State := (aw AXIS.STATUS_STATE st s).setAxis 1 { cmd := some (c, .porchB), pos := 17 }
def pre : State := aw AXIS.CTRL_EN 1 (calm (legs 1 b6))
def encs (s : State) : State := (List.range 5).foldl (fun s e => (s.wr ENC.pg ENC.CFG_EN e 1).wr ENC.pg ENC.CFG_ZCAP_EN e 1) s
def bases : List State := [pre, encs (aw AXIS.CFG_MOTOR 1 pre), { encs pre with encAB := #v[1, 2, 3, 0, 1] },
  (aw AXIS.STATUS_STATE 1 pre), aw AXIS.STATUS_STATE 3 pre, aw AXIS.STATUS_STATE 4 pre, (aw AXIS.STATUS_STATE 5 pre).setAxis 1 { queue := [(1,2),(3,4),(5,6),(7,8)] },
  (aw AXIS.STATUS_STATE 1 pre).setAxis 1 { disable := true }, (aw AXIS.STATUS_STATE 2 pre).setAxis 1 { disable := true, pos := 5, vel := 3 } ] ++
  ((List.range 11).flatMap fun c => [0,1,2,6].map fun st => cmd c st pre) ++ [(cmd 2 1 (aw AXIS.TARGET_POS 17 pre)), aw AXIS.CFG_MOTOR 0 (aw AXIS.HOME_MAX_DIST 0 (cmd 5 1 pre))] ++
  [md 1 pre, aw AXIS.HOME_MAX_DIST 0 (aw AXIS.STATUS_STATE aHOMING pre)]

def base (k : Nat) : State := bases.getD k State.reset
theorem canon : ∀ k ∈ [0, 1, 3, 5, 7, 9, 55, 56], Canonical (base k) := canon_of (by decide +kernel)

/-- States and operands that meet the hypotheses of `AxisCommandsWaitForTheTick`. -/
theorem test_w_AxisCommandsWaitForTheTick :
    (∃ s : State, ∃ a : Fin 4, ∃ ini : Initiator, Canonical s ∧ s.admits ini (AXIS.pg a) 0x0A8 1 = true) ∧
    (∃ s : State, ∃ a : Fin 4, ∃ ini : Initiator, Canonical s ∧ s.admits ini (AXIS.pg a) 0x0A8 2 = true) ∧
    (∃ s : State, ∃ a : Fin 4, ∃ ini : Initiator, Canonical s ∧ s.admits ini (AXIS.pg a) 0x0A8 3 = true) ∧
    (∃ s : State, ∃ a : Fin 4, ∃ ini : Initiator, Canonical s ∧ s.admits ini (AXIS.pg a) 0x0A8 4 = true) ∧
    (∃ s : State, ∃ a : Fin 4, ∃ ini : Initiator, Canonical s ∧ s.admits ini (AXIS.pg a) 0x0A8 5 = true) ∧
    (∃ s : State, ∃ a : Fin 4, ∃ ini : Initiator, Canonical s ∧ s.admits ini (AXIS.pg a) 0x0A8 6 = true) ∧
    (∃ s : State, ∃ a : Fin 4, ∃ ini : Initiator, Canonical s ∧ s.admits ini (AXIS.pg a) 0x0A8 7 = true) ∧
    (∃ s : State, ∃ a : Fin 4, ∃ ini : Initiator, Canonical s ∧ s.admits ini (AXIS.pg a) 0x0A8 8 = true) ∧
    (∃ s : State, ∃ a : Fin 4, ∃ ini : Initiator, Canonical s ∧ s.admits ini (AXIS.pg a) 0x0A8 9 = true) ∧
    (∃ s : State, ∃ a : Fin 4, ∃ ini : Initiator, Canonical s ∧ s.admits ini (AXIS.pg a) 0x0A8 10 = true) ∧
    (∃ s : State, ∃ a : Fin 4, ∃ ini : Initiator, Canonical s ∧ s.axisAlone a = true ∧ ∃ c : Nat, ∃ i : Initiator, (s.axisUnit a).cmd = some (c, i)) ∧
    (∃ s : State, ∃ a : Fin 4, ∃ ini : Initiator, Canonical s ∧ s.live = true ∧ (s.mode = mBOOT ∨ 2 ≤ s.pwr.state)) :=
  ⟨⟨base 0, 1, (Initiator.porchA), canon 0 (by decide), by decide +kernel⟩,
    ⟨base 0, 1, (Initiator.porchA), canon 0 (by decide), by decide +kernel⟩,
    ⟨base 0, 1, (Initiator.porchA), canon 0 (by decide), by decide +kernel⟩,
    ⟨base 0, 1, (Initiator.porchA), canon 0 (by decide), by decide +kernel⟩,
    ⟨base 0, 1, (Initiator.porchA), canon 0 (by decide), by decide +kernel⟩,
    ⟨base 0, 1, (Initiator.porchA), canon 0 (by decide), by decide +kernel⟩,
    ⟨base 0, 1, (Initiator.porchA), canon 0 (by decide), by decide +kernel⟩,
    ⟨base 0, 1, (Initiator.porchA), canon 0 (by decide), by decide +kernel⟩,
    ⟨base 0, 1, (Initiator.porchA), canon 0 (by decide), by decide +kernel⟩,
    ⟨base 0, 1, (Initiator.porchA), canon 0 (by decide), by decide +kernel⟩,
    ⟨base 9, 1, (Initiator.porchA), canon 9 (by decide), by decide +kernel, 0, (Initiator.porchB), by decide +kernel⟩,
    ⟨base 55, 0, Initiator.porchA, canon 55 (by decide), by decide +kernel⟩⟩

/-- States and operands that meet the hypotheses of `AxisAndEncoderEvents`. -/
theorem test_w_AxisAndEncoderEvents :
    (∃ s : State, ∃ a : Fin 4, Canonical s ∧ ∃ m0 : LegMeasure, ∃ m1 : LegMeasure, ∃ m2 : LegMeasure, s.live = true ∧ (s.axisUnit a).disable = false ∧ (s.axisState a = aIDLE ∨ s.axisState a = aFAULT)) ∧
    (∃ s : State, ∃ a : Fin 4, Canonical s ∧ ∃ m0 : LegMeasure, ∃ m1 : LegMeasure, ∃ m2 : LegMeasure, s.live = true ∧ (s.axisUnit a).disable = true ∧ s.axisState a ≠ aFAULT) ∧
    (∃ s : State, ∃ a : Fin 4, Canonical s ∧ ∃ m0 : LegMeasure, ∃ m1 : LegMeasure, ∃ m2 : LegMeasure, s.live = true ∧ (s.axisUnit a).disable = false ∧ aHOLD ≤ s.axisState a ∧ s.axisState a < aGEAR ∧ s.motor1 a = false ∧ s.legsSettled = true ∧ ∃ x, ∃ y, ∃ z, s.axisLegs a = some (x, y, z)) ∧
    (∃ s : State, ∃ a : Fin 4, Canonical s ∧ s.live = true ∧ s.axisState a = aHOMING ∧ (s.rd (AXIS.pg a) AXIS.HOME_MAX_DIST : Rat) ≤ (s.axisUnit a).travel) ∧
    (∃ s : State, ∃ a : Fin 4, Canonical s ∧ (s.axisState a ≠ aHOMING ∨ (s.axisUnit a).travel < (s.rd (AXIS.pg a) AXIS.HOME_MAX_DIST : Rat))) ∧
    (∃ s : State, ∃ a : Fin 4, Canonical s ∧ ∃ up : Bool, s.live = true ∧ s.axisState a ≠ aSTEP) ∧
    (∃ s : State, ∃ a : Fin 4, Canonical s ∧ ∃ up : Bool, s.live = true ∧ s.axisState a = aSTEP) ∧
    (∃ s : State, ∃ a : Fin 4, Canonical s ∧ ∃ ini : Initiator, s.admits ini (AXIS.pg a) 0x0D8 1 = true) ∧
    (∃ s : State, ∃ a : Fin 4, Canonical s ∧ ∃ ini : Initiator, s.admits ini (AXIS.pg a) 0x0D8 2 = true) ∧
    (∃ s : State, ∃ a : Fin 4, Canonical s ∧ ∃ e : Fin 5, ∃ ab : BitVec 2, s.live = true ∧ s.encOn e = false) ∧
    (∃ s : State, ∃ a : Fin 4, Canonical s ∧ ∃ e : Fin 5, ∃ ab : BitVec 2, s.live = true ∧ s.encOn e = true ∧ s.encAB[e] ^^^ ab ≠ 3 ∧ s.encAB[e] ≠ ab) ∧
    (∃ s : State, ∃ a : Fin 4, Canonical s ∧ ∃ e : Fin 5, ∃ ab : BitVec 2, s.live = true ∧ s.encAB[e] = ab) ∧
    (∃ s : State, ∃ a : Fin 4, Canonical s ∧ ∃ e : Fin 5, ∃ ab : BitVec 2, s.live = true ∧ s.encOn e = true ∧ s.encAB[e] ^^^ ab = 3) ∧
    (∃ s : State, ∃ a : Fin 4, Canonical s ∧ ∃ e : Fin 5, ∃ ab : BitVec 2, s.live = true ∧ s.encRuns = true ∧ s.flag ENC.pg ENC.CFG_ZCAP_EN e = true) ∧
    (∃ s : State, ∃ a : Fin 4, Canonical s ∧ ∃ e : Fin 5, ∃ ab : BitVec 2, s.live = true ∧ (s.encRuns = false ∨ s.flag ENC.pg ENC.CFG_ZCAP_EN e = false)) :=
  ⟨⟨base 0, 1, canon 0 (by decide), { edges := [], pulse := 0x00#8, low := 0x00#8 }, { edges := [], pulse := 0x00#8, low := 0x00#8 }, { edges := [], pulse := 0x00#8, low := 0x00#8 }, by decide +kernel⟩,
    ⟨base 7, 1, canon 7 (by decide), { edges := [], pulse := 0x00#8, low := 0x00#8 }, { edges := [], pulse := 0x00#8, low := 0x00#8 }, { edges := [], pulse := 0x00#8, low := 0x00#8 }, by decide +kernel⟩,
    ⟨base 3, 1, canon 3 (by decide), { edges := [], pulse := 0x00#8, low := 0x00#8 }, { edges := [], pulse := 0x00#8, low := 0x00#8 }, { edges := [], pulse := 0x00#8, low := 0x00#8 }, by decide +kernel, by decide +kernel, by decide +kernel, by decide +kernel, by decide +kernel, by decide +kernel, 3, 4, 5, by decide +kernel⟩,
    ⟨base 56, 1, canon 56 (by decide), by decide +kernel⟩,
    ⟨base 0, 0, canon 0 (by decide), by decide +kernel⟩,
    ⟨base 0, 1, canon 0 (by decide), false, by decide +kernel⟩,
    ⟨base 5, 1, canon 5 (by decide), false, by decide +kernel⟩,
    ⟨base 0, 1, canon 0 (by decide), (Initiator.porchA), by decide +kernel⟩,
    ⟨base 0, 1, canon 0 (by decide), (Initiator.porchA), by decide +kernel⟩,
    ⟨base 0, 1, canon 0 (by decide), 3, 0x0#2, by decide +kernel⟩,
    ⟨base 1, 1, canon 1 (by decide), 3, 0x2#2, by decide +kernel⟩,
    ⟨base 0, 0, canon 0 (by decide), 0, 0x0#2, by decide +kernel⟩,
    ⟨base 1, 1, canon 1 (by decide), 3, 0x3#2, by decide +kernel⟩,
    ⟨base 1, 0, canon 1 (by decide), 0, 0x0#2, by decide +kernel⟩,
    ⟨base 0, 0, canon 0 (by decide), 0, 0x0#2, by decide +kernel⟩⟩

end W32

namespace W33
def md (m : Nat) (s : State) : State := s.wr SYS.pg SYS.MODE_MODE 0 m
def cw (f : Fld) (v : Nat) (s : State) : State := s.wr ATTIC.pg f 2 v
def b6 : State := md 6 hostBase
def cfg (s : State) : State := cw ATTIC.CAP_CFG_EN 1 <| cw ATTIC.CAP_SIGMASK_SIG 5 <| cw ATTIC.CAP_BIN_BIN 2 <| cw ATTIC.CAP_BIN_RED 0x1F <| cw ATTIC.CAP_REGION_BASE_PAGE 3 <| cw ATTIC.CAP_REGION_PAGES 4 <| cw ATTIC.CAP_SEGS_DIR_BASE 7 <| cw ATTIC.CAP_SEGS_NSEG 3 <| cw ATTIC.CAP_PRE_FRAMES 2 <| cw ATTIC.CAP_POST_EFF_FRAMES 3 <| cw ATTIC.CAP_STAT_NEXT 1 <| (cw ATTIC.CAP_CFG_WATCH 0 s)
def st (k : Nat) (s : State) : State := cw ATTIC.CAP_STAT_STATE k s
def run (c : CapUnit) (k : Nat) (s : State) : State := st k (s.setCap 2 c)
def du : List (Word64 × Nat × Nat) := [(5, 6, 0), (8, 9, 16)]
def pk (s : State) : State := (((s.atticPoke (dirWord 8) 1).atticPoke (dirWord 9) 3).atticPoke (dirWord 7) 5).atticPoke 4000 7
def bases : List State := let b := pk (cfg b6)
  [0,1,2,3,4,5].map (fun k => st k b) ++ [run { due := du, samples := 1, pre := 2, written := 1 } 1 b, run { due := du, samples := 1, pre := 2, written := 0 } 1 b,
   run { due := du, samples := 0, pre := 2, written := 9, ring := 4 } 2 b, run { due := du, samples := 1, pre := 2, written := 9, post := 2, postEff := 3, wait := true, ring := 3 } 3 b, run { due := du } 4 b, run { due := du } 0 b,
   cw ATTIC.CAP_CFG_WATCH 1 (run { due := du, samples := 1, pre := 2, written := 1 } 1 b), cw ATTIC.CAP_CFG_WATCH 1 (run { due := du, samples := 1, pre := 2, written := 2 } 2 b), cw ATTIC.CAP_STAT_NEXT 2 (run { preCount := 2, tcyc := some (9, 8, 16) } 4 b), cw ATTIC.CAP_CFG_FULL_MODE 1 (cw ATTIC.CAP_STAT_NEXT 2 (run { preCount := 2, tcyc := some (9, 8, 16) } 4 b)), cw ATTIC.CAP_PRE_FRAMES 0 (st 0 b), cw ATTIC.CAP_SEGS_NSEG 1 (st 4 (cw ATTIC.CAP_STAT_NEXT 0 b))] ++
  [(let s := st 0 (pk (cfg b6)); { s with cyc := 5, attic := { s.attic with pull := #v[some 0, some 9, none, none] } })]

def base (k : Nat) : State := bases.getD k State.reset
theorem canon : ∀ k ∈ [0, 4, 6, 18], Canonical (base k) := canon_of (by decide +kernel)

/-- States and operands that meet the hypotheses of `CaptureChannels`. -/
theorem test_w_CaptureChannels :
    (∃ s : State, ∃ n : Fin 8, Canonical s ∧ ∃ ini : Initiator, s.admits ini ATTIC.pg (0x224 + 0x40 * n.val) 1 = true) ∧
    (∃ s : State, ∃ n : Fin 8, Canonical s ∧ ∃ ini : Initiator, s.admits ini ATTIC.pg (0x224 + 0x40 * n.val) 2 = true) ∧
    (∃ s : State, ∃ n : Fin 8, Canonical s ∧ ∃ ini : Initiator, s.admits ini ATTIC.pg (0x224 + 0x40 * n.val) 3 = true) ∧
    (∃ s : State, ∃ n : Fin 8, Canonical s ∧ ∃ ini : Initiator, s.admits ini ATTIC.pg (0x224 + 0x40 * n.val) 4 = true) ∧
    (∃ s : State, ∃ n : Fin 8, Canonical s ∧ s.live = true ∧ (s.cap n).due = []) ∧
    (∃ s : State, ∃ n : Fin 8, Canonical s ∧ s.live = true ∧ (s.cap n).due ≠ []) ∧
    (∃ s : State, ∃ n : Fin 8, Canonical s ∧ s.live = true ∧ s.capState n ≠ capREARM) ∧
    (∃ s : State, ∃ n : Fin 8, Canonical s ∧ s.live = true ∧ s.capState n = capREARM) ∧
    (∃ s : State, ∃ n : Fin 8, Canonical s ∧ ∃ l : Fin 4, s.live = true ∧ s.attic.pull[l] = none) ∧
    (∃ s : State, ∃ n : Fin 8, Canonical s ∧ ∃ l : Fin 4, s.live = true ∧ ∃ e : Word64, s.attic.pull[l] = some e ∧ 2 ^ 63 ≤ (s.cyc - e).toNat) ∧
    (∃ s : State, ∃ n : Fin 8, Canonical s ∧ ∃ l : Fin 4, s.live = true ∧ ∃ e : Word64, s.attic.pull[l] = some e ∧ (s.cyc - e).toNat < 2 ^ 63) :=
  ⟨⟨base 0, 2, canon 0 (by decide), (Initiator.porchA), by decide +kernel⟩,
    ⟨base 0, 2, canon 0 (by decide), (Initiator.porchA), by decide +kernel⟩,
    ⟨base 0, 2, canon 0 (by decide), (Initiator.porchA), by decide +kernel⟩,
    ⟨base 0, 2, canon 0 (by decide), (Initiator.porchA), by decide +kernel⟩,
    ⟨base 0, 2, canon 0 (by decide), by decide +kernel⟩,
    ⟨base 6, 2, canon 6 (by decide), by decide +kernel⟩,
    ⟨base 0, 2, canon 0 (by decide), by decide +kernel⟩,
    ⟨base 4, 2, canon 4 (by decide), by decide +kernel⟩,
    ⟨base 0, 0, canon 0 (by decide), 0, by decide +kernel⟩,
    ⟨base 18, 0, canon 18 (by decide), 1, by decide +kernel, 0x0000000000000009#64, by decide +kernel⟩,
    ⟨base 18, 0, canon 18 (by decide), 0, by decide +kernel, 0x0000000000000000#64, by decide +kernel⟩⟩

end W33

namespace W34
def md (m : Nat) (s : State) : State := s.wr SYS.pg SYS.MODE_MODE 0 m
def rw (f : Fld) (v : Nat) (s : State) : State := s.wr REDUN.pg f 0 v
def hw (f : Fld) (v : Nat) (s : State) : State := s.wr HOUSE.pg f 0 v
def b6 : State := md 6 hostBase
def lanes (m : Nat) (s : State) : State := ([0,1] : List Nat).foldl (fun s l => ((s.wr (TWITOS.pg l) TWITOS.CTRL_EN 0 1).wr (TWITOS.pg l) TWITOS.STATUS_UP 0 1).wr (TWITOS.pg l) TWITOS.STATUS_PARTNER 0 m) s
def setUp (size me lead : Nat) (s : State) : State := rw REDUN.CTRL_EN 1 <| rw REDUN.CFG_SET size <| rw REDUN.ROLE_MEMBER me <| rw REDUN.ROLE_LEAD_ID lead <| rw REDUN.STATUS_LEAD (if me = lead then 1 else 0) <| rw REDUN.CYCLE_TICKS 12500 <| rw REDUN.STATUS_PRESENT (2 ^ (size+1) - 1) s
def mem (s : State) : State := rw REDUN.STATUS_STATE 2 s
def joi (s : State) : State := rw REDUN.STATUS_STATE 1 s
def frm (k : Nat) (r : Nat) (c : Bool) : StateFrame := { k := BitVec.ofNat 32 k, state := 2, phase := 0, ready := true, role := BitVec.ofNat 3 r, form := 0, duty := 0, trip := 0, rb := false, reads := Vector.replicate 8 0, view := 7, excluded := 0, config := if c then 0 else 1 }
def noPend (s : State) : State := { s with staged := [], committed := [] }
def fol : State := lanes 0 (mem (setUp 1 1 0 b6))
def led : State := lanes 1 (mem (setUp 1 0 0 b6))
def tri : State := lanes 0 (mem (setUp 2 1 0 b6))
def jn (ph : Nat) : State := rw REDUN.JOIN_PHASE ph (lanes 0 (joi (setUp 1 1 0 b6)))
def house (s : State) : State := hw HOUSE.CTRL_EN 1 s
def peerReady (s : State) : State := (s.setPeer 1 { ready := true, miss := 1 }).setPeer 0 { miss := 1 }
def bases : List State := [hostBase, house fol, rw REDUN.STATUS_TAKEOVER_READY 1 fol, led, peerReady led, house tri, jn 1, jn 3, jn 5, jn 6, rw REDUN.STATUS_STATE 3 fol,
  hw HOUSE.STATUS_HOLDOVER 1 (house fol), hw HOUSE.STATUS_SLEWING 1 (house fol), hw HOUSE.STATUS_HOLDOVER 1 (house (jn 2)),
  { fol with redun := { fol.redun with marked := true, agree := 3 } }, { fol with redun := { fol.redun with marked := true, agree := 3, seen := [(0, 0), (0, 1)] } },
  { fol with redun := { fol.redun with swap := some (1, 0) } }, { led with redun := { led.redun with swap := some (1, 0), xfer := some 2 } }, { led with redun := { led.redun with swap := some (1, 900000) } },
  (rw REDUN.STATUS_ALIVE_SEEN 7 (mem (setUp 1 1 0 b6))), (rw REDUN.STATUS_ALIVE_SEEN 7 (mem (setUp 1 0 0 b6))), rw REDUN.CFG_ALIVE_EN 0 (peerReady fol),
  noPend (md 2 (rw REDUN.STATUS_STATE 0 (setUp 1 1 0 hostBase))), noPend (md 1 (rw REDUN.STATUS_STATE 0 (setUp 1 1 0 hostBase))),
  ((rw REDUN.STATUS_TAKEOVER_READY 1 (rw REDUN.CFG_CK_RESCUE 1 fol)).wr (DSF.pg 0) DSF.DSCK_EN 1 1).wr (DSF.pg 0) DSF.DSCK_RECEIVE 1 1,
  ((b6.wr (PWM.pg 3) PWM.CTRL_EN 0 1).wr (PWM.pg 3) PWM.SYNC_SRC 0 2).wr (PWM.pg 3) PWM.SYNC_INDEX 0 1, ((jn 5).wr (LE.pg 0) LE.DMAP_COEF_BASE 0 0).wr (LE.pg 0) LE.DMAP_COEF_LEN 0 4]

def base (k : Nat) : State := bases.getD k State.reset
theorem canon : ∀ k ∈ [0, 1, 6, 8, 11, 12, 15, 17, 19, 24, 26], Canonical (base k) := canon_of (by decide +kernel)

/-- States and operands that meet the hypotheses of `TwitosLanesAndFrames`. -/
theorem test_w_TwitosLanesAndFrames :
    (∃ s : State, ∃ l : Fin 4, Canonical s ∧ s.live = true ∧ ∃ m : Fin 3, (s.flag (TWITOS.pg l) TWITOS.CTRL_EN = false ∨ s.laneUp l = true)) ∧
    (∃ s : State, ∃ l : Fin 4, Canonical s ∧ s.live = true ∧ ∃ m : Fin 3, s.flag (TWITOS.pg l) TWITOS.CTRL_EN = true ∧ s.laneUp l = false) ∧
    (∃ s : State, ∃ l : Fin 4, Canonical s ∧ s.live = true ∧ ∃ failed : Fin 5, True) ∧
    (∃ s : State, ∃ l : Fin 4, Canonical s ∧ s.live = true ∧ s.flag (TWITOS.pg l) TWITOS.CTRL_EN = false) ∧
    (∃ s : State, ∃ l : Fin 4, Canonical s ∧ s.live = true ∧ s.flag (TWITOS.pg l) TWITOS.CTRL_EN = true) ∧
    (∃ s : State, ∃ l : Fin 4, Canonical s ∧ s.live = true ∧ s.laneUp l = false ∧ ∃ q : BitVec 16, ∃ w : Word, ∃ c : Word64, ∃ f : StateFrame, ∃ ps : BitVec 20, True) ∧
    (∃ s : State, ∃ l : Fin 4, Canonical s ∧ s.live = true ∧ ∃ f : TwFrame, ∃ q : BitVec 16, True) ∧
    (∃ s : State, ∃ l : Fin 4, Canonical s ∧ s.live = true ∧ s.laneUp l = true ∧ ∃ w : Word, ∃ c : Word64, ∃ ps : BitVec 20, True) ∧
    (∃ s : State, ∃ l : Fin 4, Canonical s ∧ s.live = true ∧ s.laneUp l = true ∧ ∃ w : Word, ∃ c : Word64, ∃ ps : BitVec 20, s.laneOn l = true) ∧
    (∃ s : State, ∃ l : Fin 4, Canonical s ∧ s.live = true ∧ ∃ q : BitVec 16, ∃ f : StateFrame, ∃ k : Word, ∃ d : Fin 3, ∃ c : Word64, s.laneUp l = true ∧ s.firstCopy l q = false) ∧
    (∃ s : State, ∃ l : Fin 4, Canonical s ∧ s.live = true ∧ ∃ q : BitVec 16, ∃ f : StateFrame, s.firstCopy l q = true) ∧
    (∃ s : State, ∃ l : Fin 4, Canonical s ∧ s.live = true ∧ ∃ q : BitVec 16, ∃ m : Fin 3, ∃ cause : Byte, ∃ src : Fin 64, ∃ ago : Nat, s.firstCopy l q = true ∧ s.memState = rMEMBER) ∧
    (∃ s : State, ∃ l : Fin 4, Canonical s ∧ s.live = true ∧ ∃ q : BitVec 16, ∃ m : Fin 3, ∃ cause : Byte, ∃ src : Fin 64, ∃ ago : Nat, s.firstCopy l q = true ∧ s.memState = rMEMBER ∧ s.stoppable = true ∧ s.mode ≠ mSAFE) ∧
    (∃ s : State, ∃ l : Fin 4, Canonical s ∧ s.live = true ∧ ∃ q : BitVec 16, ∃ d : Fin 3, ∃ k : Word, s.firstCopy l q = true) ∧
    (∃ s : State, ∃ l : Fin 4, Canonical s ∧ s.live = true ∧ ∃ q : BitVec 16, ∃ ports : Vector PortCopy 8, s.firstCopy l q = true) ∧
    (∃ s : State, ∃ l : Fin 4, Canonical s ∧ s.live = true ∧ ∃ q : BitVec 16, ∃ n : Fin 16, ∃ r : Fin 64, ∃ w : Fin 512, ∃ v : Word, ∃ last : Bool, s.firstCopy l q = true ∧ s.memState = rJOINING ∧ s.rd REDUN.pg REDUN.JOIN_PHASE = 5 ∧ (s.laneMember l).val = s.leadId) ∧
    (∃ s : State, ∃ l : Fin 4, Canonical s ∧ s.live = true ∧ ∃ q : BitVec 16, ∃ n : Fin 16, ∃ r : Fin 64, ∃ w : Fin 512, ∃ v : Word, ∃ last : Bool, s.firstCopy l q = true ∧ s.memState = rJOINING ∧ s.rd REDUN.pg REDUN.JOIN_PHASE = 5 ∧ (s.laneMember l).val = s.leadId ∧ s.isCoef n w = false) ∧
    (∃ s : State, ∃ l : Fin 4, Canonical s ∧ s.live = true ∧ ∃ q : BitVec 16, ∃ n : Fin 16, ∃ r : Fin 64, ∃ w : Fin 512, ∃ v : Word, ∃ last : Bool, s.firstCopy l q = true ∧ s.memState = rJOINING ∧ s.rd REDUN.pg REDUN.JOIN_PHASE = 5 ∧ (s.laneMember l).val = s.leadId ∧ s.isCoef n w = true) ∧
    (∃ s : State, ∃ l : Fin 4, Canonical s ∧ s.live = true ∧ ∃ q : BitVec 16, ∃ ws : List CopyWord, ∃ last : Bool, s.firstCopy l q = true ∧ (s.memState ≠ rJOINING ∨ s.rd REDUN.pg REDUN.JOIN_PHASE ≠ 5 ∨ (s.laneMember l).val ≠ s.leadId)) ∧
    (∃ s : State, ∃ l : Fin 4, Canonical s ∧ s.live = true ∧ ∃ q : BitVec 16, ∃ a : Word, ∃ data : List Byte, s.firstCopy l q = true) ∧
    (∃ s : State, ∃ l : Fin 4, Canonical s ∧ s.live = true ∧ ∃ q : BitVec 16, ∃ c : Word64, s.firstCopy l q = true) ∧
    (∃ s : State, ∃ l : Fin 4, Canonical s ∧ s.live = true ∧ s.memState ≠ rMEMBER ∧ s.memState ≠ rJOINING) ∧
    (∃ s : State, ∃ l : Fin 4, Canonical s ∧ s.live = true ∧ (s.memState = rMEMBER ∨ s.memState = rJOINING)) :=
  ⟨⟨base 0, 0, canon 0 (by decide), by decide +kernel, 0, by decide +kernel⟩,
    ⟨(hostBase.wr (TWITOS.pg 0) TWITOS.CTRL_EN 0 1), 0, canonB_spec (by decide +kernel), by decide +kernel, 0, by decide +kernel⟩,
    ⟨base 0, 0, canon 0 (by decide), by decide +kernel, 0, trivial⟩,
    ⟨base 0, 0, canon 0 (by decide), by decide +kernel⟩,
    ⟨base 1, 0, canon 1 (by decide), by decide +kernel⟩,
    ⟨base 0, 0, canon 0 (by decide), by decide +kernel, by decide +kernel, 0x0000#16, 0x00000000#32, 0x0000000000000000#64, { k := 0x00000000#32, state := 2, phase := 0, ready := true, role := 0x1#3, form := 0x00000000#32, duty := 0x00000000#32, trip := 0x00000000#32, rb := false, reads := { toArray := #[0, 0, 0, 0, 0, 0, 0, 0], size_toArray := rfl }, view := 0x7#3, excluded := 0x0#3, config := 0x00000000#32 }, 0x00007#20, trivial⟩,
    ⟨base 0, 0, canon 0 (by decide), by decide +kernel, TwFrame.idle 0x00000005#32, 0x0000#16, trivial⟩,
    ⟨base 1, 0, canon 1 (by decide), by decide +kernel, by decide +kernel, 0x00000000#32, 0x0000000000000000#64, 0x00007#20, trivial⟩,
    ⟨base 1, 0, canon 1 (by decide), by decide +kernel, by decide +kernel, 0x00000000#32, 0x0000000000000000#64, 0x00000#20, by decide +kernel⟩,
    ⟨base 15, 0, canon 15 (by decide), by decide +kernel, 0x0000#16, { k := 0x00000000#32, state := 2, phase := 0, ready := true, role := 0x1#3, form := 0x00000000#32, duty := 0x00000000#32, trip := 0x00000000#32, rb := false, reads := { toArray := #[0, 0, 0, 0, 0, 0, 0, 0], size_toArray := rfl }, view := 0x7#3, excluded := 0x0#3, config := 0x00000000#32 }, 0x00000000#32, 0, 0x0000000000000000#64, by decide +kernel⟩,
    ⟨base 1, 0, canon 1 (by decide), by decide +kernel, 0x0000#16, { k := 0x00000000#32, state := 2, phase := 0, ready := true, role := 0x1#3, form := 0x00000000#32, duty := 0x00000000#32, trip := 0x00000000#32, rb := false, reads := { toArray := #[0, 0, 0, 0, 0, 0, 0, 0], size_toArray := rfl }, view := 0x7#3, excluded := 0x0#3, config := 0x00000000#32 }, by decide +kernel⟩,
    ⟨base 1, 0, canon 1 (by decide), by decide +kernel, 0x0000#16, 0, 0x11#8, 0, 0, by decide +kernel⟩,
    ⟨base 1, 0, canon 1 (by decide), by decide +kernel, 0x0000#16, 0, 0x11#8, 0, 0, by decide +kernel⟩,
    ⟨base 1, 0, canon 1 (by decide), by decide +kernel, 0x0000#16, 0, 0x00000000#32, by decide +kernel⟩,
    ⟨base 1, 0, canon 1 (by decide), by decide +kernel, 0x0000#16, { toArray := #[{ phase := 3, ticks := 4, check := none, pre := none, opening := none, cdoA := true, cdoB := false }, { phase := 3, ticks := 4, check := none, pre := none, opening := none, cdoA := true, cdoB := false }, { phase := 3, ticks := 4, check := none, pre := none, opening := none, cdoA := true, cdoB := false }, { phase := 3, ticks := 4, check := none, pre := none, opening := none, cdoA := true, cdoB := false }, { phase := 3, ticks := 4, check := none, pre := none, opening := none, cdoA := true, cdoB := false }, { phase := 3, ticks := 4, check := none, pre := none, opening := none, cdoA := true, cdoB := false }, { phase := 3, ticks := 4, check := none, pre := none, opening := none, cdoA := true, cdoB := false }, { phase := 3, ticks := 4, check := none, pre := none, opening := none, cdoA := true, cdoB := false }], size_toArray := rfl }, by decide +kernel⟩,
    ⟨base 8, 0, canon 8 (by decide), by decide +kernel, 0x0000#16, 0, 0, 0, 0x00000000#32, false, by decide +kernel⟩,
    ⟨base 8, 0, canon 8 (by decide), by decide +kernel, 0x0000#16, 0, 0, 0, 0x00000000#32, false, by decide +kernel⟩,
    ⟨base 26, 0, canon 26 (by decide), by decide +kernel, 0x0000#16, 0, 0, 0, 0x00000000#32, false, by decide +kernel⟩,
    ⟨base 1, 0, canon 1 (by decide), by decide +kernel, 0x0000#16, [], false, by decide +kernel⟩,
    ⟨base 1, 0, canon 1 (by decide), by decide +kernel, 0x0000#16, 0x00000000#32, [], by decide +kernel⟩,
    ⟨base 1, 0, canon 1 (by decide), by decide +kernel, 0x0000#16, 0x0000000000000000#64, by decide +kernel⟩,
    ⟨base 0, 0, canon 0 (by decide), by decide +kernel⟩,
    ⟨base 1, 0, canon 1 (by decide), by decide +kernel⟩⟩

/-- States and operands that meet the hypotheses of `HouseClockAndSetCycle`. -/
theorem test_w_HouseClockAndSetCycle :
    (∃ s : State, Canonical s ∧ s.live = true ∧ s.followsHclk = true ∧ s.flag HOUSE.pg HOUSE.STATUS_HOLDOVER = false) ∧
    (∃ s : State, Canonical s ∧ s.live = true ∧ s.followsHclk = true ∧ s.flag HOUSE.pg HOUSE.STATUS_HOLDOVER = false ∧ ∃ tap : BitVec 7, ∃ e : BitVec 16, True) ∧
    (∃ s : State, Canonical s ∧ s.live = true ∧ (s.followsHclk = false ∨ s.flag HOUSE.pg HOUSE.STATUS_HOLDOVER = true)) ∧
    (∃ s : State, Canonical s ∧ s.live = true ∧ (s.followsHclk = false ∨ s.flag HOUSE.pg HOUSE.STATUS_HOLDOVER = true) ∧ ∃ tap : BitVec 7, ∃ e : BitVec 16, True) ∧
    (∃ s : State, Canonical s ∧ s.live = true ∧ s.inHoldover = false) ∧
    (∃ s : State, Canonical s ∧ s.live = true ∧ s.inHoldover = false ∧ ∃ e : Int, True) ∧
    (∃ s : State, Canonical s ∧ s.live = true ∧ s.inHoldover = true) ∧
    (∃ s : State, Canonical s ∧ s.live = true ∧ s.inHoldover = true ∧ ∃ e : Int, True) ∧
    (∃ s : State, Canonical s ∧ s.live = true ∧ s.flag HOUSE.pg HOUSE.STATUS_SLEWING = true ∧ ∃ e : BitVec 16, True) ∧
    (∃ s : State, Canonical s ∧ s.live = true ∧ s.flag HOUSE.pg HOUSE.STATUS_SLEWING = false ∧ ∃ e : BitVec 16, True) ∧
    (∃ s : State, Canonical s ∧ s.live = true ∧ ∃ k : Fin 4, (s.follower = false ∨ s.flag REDUN.pg REDUN.CFG_CK_RESCUE = false)) ∧
    (∃ s : State, Canonical s ∧ s.live = true ∧ ∃ k : Fin 4, s.setSize ≠ 0 ∧ s.follower = true ∧ s.flag REDUN.pg REDUN.CFG_CK_RESCUE = true ∧ s.successor s.leadId = some s.memberId.val ∧ s.flag (DSF.pg 0) DSF.DSCK_EN k = true ∧ s.flag (DSF.pg 0) DSF.DSCK_RECEIVE k = true) ∧
    (∃ s : State, Canonical s ∧ s.live = true) ∧
    (∃ s : State, Canonical s ∧ s.live = true ∧ ∃ m : Fin 3, True) ∧
    (∃ s : State, Canonical s ∧ s.live = true ∧ ∃ m : Fin 3, (s.memState ≠ rMEMBER ∨ m = s.memberId ∨ s.present m = false ∨ s.reaches m = true ∨ bitOf (s.rd REDUN.pg REDUN.STATUS_ALIVE_SEEN) m = false)) ∧
    (∃ s : State, Canonical s ∧ s.live = true ∧ ∃ m : Fin 3, s.memState = rMEMBER ∧ m ≠ s.memberId ∧ s.present m = true ∧ s.reaches m = false ∧ bitOf (s.rd REDUN.pg REDUN.STATUS_ALIVE_SEEN) m = true) ∧
    (∃ s : State, Canonical s ∧ s.live = true ∧ ∃ l : Fin 4, True) ∧
    (∃ s : State, Canonical s ∧ s.live = true ∧ ∃ lines : List RbLine, ∃ rb : Bool, s.commitPending REDUN.pg = false ∧ lines.any s.rbMismatch = rb) :=
  ⟨⟨base 1, canon 1 (by decide), by decide +kernel⟩,
    ⟨base 1, canon 1 (by decide), by decide +kernel, by decide +kernel, by decide +kernel, 0x02#7, 0x0000#16, trivial⟩,
    ⟨base 0, canon 0 (by decide), by decide +kernel⟩,
    ⟨base 0, canon 0 (by decide), by decide +kernel, by decide +kernel, 0x00#7, 0x0000#16, trivial⟩,
    ⟨base 0, canon 0 (by decide), by decide +kernel⟩,
    ⟨base 0, canon 0 (by decide), by decide +kernel, by decide +kernel, 0, trivial⟩,
    ⟨base 11, canon 11 (by decide), by decide +kernel⟩,
    ⟨base 11, canon 11 (by decide), by decide +kernel, by decide +kernel, 0, trivial⟩,
    ⟨base 12, canon 12 (by decide), by decide +kernel, by decide +kernel, 0x0000#16, trivial⟩,
    ⟨base 0, canon 0 (by decide), by decide +kernel, by decide +kernel, 0x0000#16, trivial⟩,
    ⟨base 0, canon 0 (by decide), by decide +kernel, 0, by decide +kernel⟩,
    ⟨base 24, canon 24 (by decide), by decide +kernel, 1, by decide +kernel⟩,
    ⟨base 0, canon 0 (by decide), by decide +kernel⟩,
    ⟨base 0, canon 0 (by decide), by decide +kernel, 0, trivial⟩,
    ⟨base 0, canon 0 (by decide), by decide +kernel, 0, by decide +kernel⟩,
    ⟨base 19, canon 19 (by decide), by decide +kernel, 0, by decide +kernel⟩,
    ⟨base 0, canon 0 (by decide), by decide +kernel, 0, trivial⟩,
    ⟨base 0, canon 0 (by decide), by decide +kernel, [], false, by decide +kernel⟩⟩

/-- States and operands that meet the hypotheses of `SetCommandsAndTransfers`. -/
theorem test_w_SetCommandsAndTransfers :
    (∃ s : State, ∃ ini : Initiator, Canonical s ∧ s.admits ini REDUN.pg 0x054 1 = true) ∧
    (∃ s : State, ∃ ini : Initiator, Canonical s ∧ ∃ d : BitVec 2, s.admits ini REDUN.pg 0x054 (2 + 8 * d.toNat) = true) ∧
    (∃ s : State, ∃ ini : Initiator, Canonical s ∧ s.admits ini REDUN.pg 0x054 3 = true) ∧
    (∃ s : State, ∃ ini : Initiator, Canonical s ∧ s.admits ini REDUN.pg 0x054 4 = true) ∧
    (∃ s : State, ∃ ini : Initiator, Canonical s ∧ s.live = true ∧ s.memState = rJOINING ∧ s.rd REDUN.pg REDUN.JOIN_PHASE ≤ 3) ∧
    (∃ s : State, ∃ ini : Initiator, Canonical s ∧ s.live = true ∧ (s.memState ≠ rJOINING ∨ 4 ≤ s.rd REDUN.pg REDUN.JOIN_PHASE)) ∧
    (∃ s : State, ∃ ini : Initiator, Canonical s ∧ ∃ len : BitVec 16, ∃ d : BitVec 2, s.admits ini REDUN.pg 0x08C (len.toNat + 2 ^ 16 * d.toNat + 2 ^ 31) = true) ∧
    (∃ s : State, ∃ ini : Initiator, Canonical s ∧ s.live = true ∧ s.redun.xfer = none) ∧
    (∃ s : State, ∃ ini : Initiator, Canonical s ∧ s.live = true ∧ ∃ r : Nat, s.redun.xfer = some r) :=
  ⟨⟨base 0, (Initiator.porchA), canon 0 (by decide), by decide +kernel⟩,
    ⟨base 0, (Initiator.porchA), canon 0 (by decide), 0x0#2, by decide +kernel⟩,
    ⟨base 0, (Initiator.porchA), canon 0 (by decide), by decide +kernel⟩,
    ⟨base 0, (Initiator.porchA), canon 0 (by decide), by decide +kernel⟩,
    ⟨base 6, (Initiator.porchA), canon 6 (by decide), by decide +kernel⟩,
    ⟨base 0, (Initiator.porchA), canon 0 (by decide), by decide +kernel⟩,
    ⟨base 0, (Initiator.porchA), canon 0 (by decide), 0x0000#16, 0x0#2, by decide +kernel⟩,
    ⟨base 0, (Initiator.porchA), canon 0 (by decide), by decide +kernel⟩,
    ⟨base 17, (Initiator.porchA), canon 17 (by decide), by decide +kernel, 2, by decide +kernel⟩⟩

end W34

namespace W35
def md (m : Nat) (s : State) : State := s.wr SYS.pg SYS.MODE_MODE 0 m
def ew (f : Fld) (v : Nat) (s : State) (i : Nat := 0) : State := s.wr ETHSW.pg f i v
def pw (f : Fld) (v : Nat) (s : State) (i : Nat := 0) : State := s.wr PTP.pg f i v
def b6 : State := md 6 hostBase
def A : Nat := sramBase
def net (mode : Nat) (s : State) : State :=
  let s := ew ETHSW.CTRL_EN 1 <| ew ETHSW.CFG_MODE mode <| ew ETHSW.STATUS_LINK0 1 <| ew ETHSW.STATUS_LINK1 1 <| ew ETHSW.PORT_EN 1 <| s
  let s := ew ETHSW.PORT_EN 1 s 1
  let s := ew ETHSW.MAC_LO_BYTES 0x04030200 <| ew ETHSW.MAC_HI_BYTES 0x0605 s
  let s := (List.range 4).foldl (fun s q => ew ETHSW.RXQ_BASE_ADDR (A + 0x1000 + 0x100 * q) (ew ETHSW.TXQ_BASE_ADDR (A + 0x2000 + 0x100 * q) (ew ETHSW.TXQ_SIZE_ENTRIES 8 (ew ETHSW.RXQ_SIZE_ENTRIES 8 s q) q) q) q) s
  let s := (List.range 4).foldl (fun s q => (ew ETHSW.RXQ_HEAD_INDEX 6 (ew ETHSW.TXQ_HEAD_INDEX 3 s q) q)) s
  let s := (List.range 4).foldl (fun s q => (List.range 8).foldl (fun s k => (s.pokeBytes (A + 0x1000 + 0x100 * q + 16 * k) (leBytes 4 (A + 0x4000 + 0x800 * k))).pokeBytes (A + 0x2000 + 0x100 * q + 16 * k) (leBytes 4 (A + 0x9000 + 0x800 * k) ++ leBytes 4 (([20, 60 + 4096, 64 + 4096 + 2^16, 100 + 3 * 4096, 100, 80 + 8192 + 2^17, 1532, 1200])[k]!))) s) s
  { s with sramUe := [], sramCe := [], eth := { s.eth with delivered := [(0x0A0000000001, 5, s.cyc)], nodes := [0x0A0000000001, 7], table := [(0x0A0000000002, 1), (0x0A0000000003, 0)], ring := 3 } }
def fr (d sr : Nat) (r : RedTag) (e : Nat) (fcs : Bool) (n : Nat) : EthFrame := { dst := BitVec.ofNat 48 d, src := BitVec.ofNat 48 sr, red := r, etype := BitVec.ofNat 16 e, ptp := .none, udp := false, supervision := false, fcsOk := fcs, bytes := (List.range n).map fun i => BitVec.ofNat 8 (i + 3) }
def ptp (s : State) : State := pw PTP.CTRL_EN 1 <| pw PTP.PARENT_EN 1 <| pw PTP.PARENT_ID_LO_ID 0x04030201 <| pw PTP.PARENT_ID_HI_ID 0x08070605 <| pw PTP.PARENT_PORT_NUMBER 7 <| pw PTP.PORT_CFG_PDELAY_EN 1 <| pw PTP.STATUS_NO_JUMP 1 <| pw PTP.STATUS_TIME_SET 1 <| pw PTP.STATUS_JUMP_PENDING 0 <| pw PTP.PARENT_SLAVE_PORT 0 <| pw PTP.DOMAIN_NUMBER 0 <| pw PTP.PARENT_E2E 0 <| (pw PTP.PORT_LINK_DELAY_PS 12345 <| { s with ptp := { s.ptp with time := 5 * secU + 77 * nsU, pend := 9 * nsU } })
def mg (two : Bool) (ns : Nat) (q : Nat) : PtpMsg := { clock := 0x0102030405060708, port := 7, domain := 0, seq := BitVec.ofNat 16 q, twoStep := two, s := 5, ns := BitVec.ofNat 32 ns, corr := 65536 * 3 + 100 }
def sch (s : State) : State := (List.range 4).foldl (fun s n => pw PTP.TIMEO_CFG_EN 1 (pw PTP.TIMEO_CFG_OUT_EN (n % 2) (pw PTP.TIMEO_CFG_PERIODIC (n / 2) s n) n) n) s
def netBases : List State := [net 0 b6, net 1 b6, net 2 b6, ew ETHSW.RXQ_HEAD_INDEX 1 (net 0 b6), ew ETHSW.TXQ_TAIL_INDEX 1 (net 0 b6), ew ETHSW.TXQ_TAIL_INDEX 2 (net 1 b6), ew ETHSW.TXQ_HEAD_INDEX 5 (ew ETHSW.TXQ_TAIL_INDEX 4 (net 1 b6)),
  ew ETHSW.MDIO_DATA_BUSY 1 { net 0 b6 with eth := { (net 0 b6).eth with mdio := some ⟨false, 1, 2, 3⟩ } }, { net 0 b6 with eth := { (net 0 b6).eth with mdio := some ⟨true, 1, 2, 3⟩ } }, ew ETHSW.STATUS_LAN_A_OK 1 (net 1 b6), ew ETHSW.STATUS_RING_OK 1 (net 2 b6), ew ETHSW.STATUS_LINK0 0 (net 0 b6)]
def p0 : State := ptp (net 0 b6)
def ptpBases : List State := [{ p0 with pending := [] }, { p0 with ptp := { p0.ptp with good := 3, sync := some (0, mg true 0 0, 5000000075000) } }, { p0 with ptp := { p0.ptp with bad := 1, sync := some (0, mg true 0 2, 5000000075000), req := #v[some 5000000000000, none], missed := #v[2, 0] } },
  pw PTP.STATUS_JUMP_PENDING 1 (pw PTP.STATUS_NO_JUMP 0 (pw PTP.STATUS_LOCKED 1 p0)), pw PTP.STATUS_TIME_SET 0 p0, sch p0, sch (pw PTP.STATUS_JUMP_PENDING 1 { p0 with ptp := { p0.ptp with pend := -5 * nsU } }), (pw PTP.SET_S_LO_S 5 (pw PTP.SET_S_HI_S 0 p0))]
def bases : List State := netBases ++ ptpBases ++
  [{ net 0 b6 with eth := { (net 0 b6).eth with tx := some (1, 0) } }, { p0 with ptp := { p0.ptp with sched := Vector.replicate 4 { until_ := 5 } } }]

def base (k : Nat) : State := bases.getD k State.reset
theorem canon : ∀ k ∈ [0, 1, 7, 11, 12, 13, 14, 17, 20, 21], Canonical (base k) := canon_of (by decide +kernel)

/-- States and operands that meet the hypotheses of `EthernetSwitchAndQueues`. -/
theorem test_w_EthernetSwitchAndQueues :
    (∃ s : State, Canonical s ∧ s.live = true ∧ ∃ p : Fin 2, ∃ x : LinkSense, ∃ up : Bool, (s.portOn p && x.sync && (!s.flag ETHSW.pg ETHSW.PORT_AN_EN p || x.done)) = up) ∧
    (∃ s : State, Canonical s ∧ s.live = true ∧ ∃ p : Fin 2, ∃ f : EthFrame, ∃ frac : Fin 5, ∃ ticks : Nat, s.portLive p = false) ∧
    (∃ s : State, Canonical s ∧ s.live = true ∧ ∃ p : Fin 2, ∃ f : EthFrame, ∃ frac : Fin 5, ∃ ticks : Nat, s.portLive p = true ∧ 1536 < wireLen f) ∧
    (∃ s : State, Canonical s ∧ s.live = true ∧ ∃ p : Fin 2, ∃ f : EthFrame, ∃ frac : Fin 5, ∃ ticks : Nat, s.portLive p = true ∧ wireLen f ≤ 1536 ∧ f.fcsOk = false ∧ s.ethMode ≠ 2) ∧
    (∃ s : State, Canonical s ∧ s.live = true ∧ ∃ p : Fin 2, ∃ f : EthFrame, ∃ frac : Fin 5, ∃ ticks : Nat, s.portLive p = true ∧ wireLen f ≤ 1536 ∧ f.fcsOk = true) ∧
    (∃ s : State, Canonical s ∧ s.live = true ∧ ∃ ini : Initiator, ∃ q : Fin 4, ∃ v : Word, s.admits ini ETHSW.pg (0x068 + 0x10 * q.val) v.toNat = true) ∧
    (∃ s : State, Canonical s ∧ s.live = true ∧ ∃ q : Fin 4, ∃ frac : Fin 5, (s.ethRuns = false ∨ s.rd ETHSW.pg ETHSW.TXQ_TAIL_INDEX q = s.rd ETHSW.pg ETHSW.TXQ_HEAD_INDEX q ∨ (∀ x, s.eth.tx ≠ some (q, x)))) ∧
    (∃ s : State, Canonical s ∧ s.live = true ∧ ∃ q : Fin 4, ∃ frac : Fin 5, ∃ lost : BitVec 2, s.eth.tx = some (q, lost) ∧ s.ethRuns = true ∧ s.rd ETHSW.pg ETHSW.TXQ_TAIL_INDEX q ≠ s.rd ETHSW.pg ETHSW.TXQ_HEAD_INDEX q ∧ s.sramSound = true ∧ inSram (s.txDesc q) 16 = true) ∧
    (∃ s : State, Canonical s ∧ s.live = true ∧ (s.ethRuns = false ∨ s.ethMode = 0)) ∧
    (∃ s : State, Canonical s ∧ s.live = true ∧ s.ethRuns = true ∧ s.ethMode ≠ 0 ∧ ∃ p : Fin 2, True) ∧
    (∃ s : State, Canonical s ∧ s.live = true ∧ ∃ p : Fin 2, True) ∧
    (∃ s : State, Canonical s ∧ s.live = true ∧ ∃ mac : BitVec 48, True) ∧
    (∃ s : State, Canonical s ∧ s.live = true ∧ ∃ ini : Initiator, ∃ v : Word, s.admits ini ETHSW.pg 0x054 v.toNat = true ∧ bitOf v.toNat 31 = true) ∧
    (∃ s : State, Canonical s ∧ s.live = true ∧ ∃ d : BitVec 16, s.eth.mdio = none) ∧
    (∃ s : State, Canonical s ∧ s.live = true ∧ ∃ d : BitVec 16, ∃ x, s.eth.mdio = some x) :=
  ⟨⟨base 0, canon 0 (by decide), by decide +kernel, 0, { sync := true, done := true }, true, by decide +kernel⟩,
    ⟨base 11, canon 11 (by decide), by decide +kernel, 0, { dst := 0x000203040506#48, src := 0x0a0000000001#48, red := RedTag.none, etype := 0x0800#16, ptp := PtpKind.none, udp := false, supervision := false, fcsOk := true, bytes := [0x03#8, 0x04#8, 0x05#8, 0x06#8, 0x07#8, 0x08#8, 0x09#8, 0x0a#8, 0x0b#8, 0x0c#8, 0x0d#8, 0x0e#8, 0x0f#8, 0x10#8, 0x11#8, 0x12#8, 0x13#8, 0x14#8, 0x15#8, 0x16#8, 0x17#8, 0x18#8, 0x19#8, 0x1a#8, 0x1b#8, 0x1c#8, 0x1d#8, 0x1e#8, 0x1f#8, 0x20#8, 0x21#8, 0x22#8, 0x23#8, 0x24#8, 0x25#8, 0x26#8, 0x27#8, 0x28#8, 0x29#8, 0x2a#8, 0x2b#8, 0x2c#8, 0x2d#8, 0x2e#8, 0x2f#8, 0x30#8, 0x31#8, 0x32#8, 0x33#8, 0x34#8, 0x35#8, 0x36#8, 0x37#8, 0x38#8, 0x39#8, 0x3a#8, 0x3b#8, 0x3c#8, 0x3d#8, 0x3e#8] }, 0, 0, by decide +kernel⟩,
    ⟨base 0, canon 0 (by decide), by decide +kernel, 0, { dst := 0x0a0000000009#48, src := 0x0a0000000004#48, red := RedTag.none, etype := 0x0800#16, ptp := PtpKind.none, udp := false, supervision := false, fcsOk := true, bytes := [0x03#8, 0x04#8, 0x05#8, 0x06#8, 0x07#8, 0x08#8, 0x09#8, 0x0a#8, 0x0b#8, 0x0c#8, 0x0d#8, 0x0e#8, 0x0f#8, 0x10#8, 0x11#8, 0x12#8, 0x13#8, 0x14#8, 0x15#8, 0x16#8, 0x17#8, 0x18#8, 0x19#8, 0x1a#8, 0x1b#8, 0x1c#8, 0x1d#8, 0x1e#8, 0x1f#8, 0x20#8, 0x21#8, 0x22#8, 0x23#8, 0x24#8, 0x25#8, 0x26#8, 0x27#8, 0x28#8, 0x29#8, 0x2a#8, 0x2b#8, 0x2c#8, 0x2d#8, 0x2e#8, 0x2f#8, 0x30#8, 0x31#8, 0x32#8, 0x33#8, 0x34#8, 0x35#8, 0x36#8, 0x37#8, 0x38#8, 0x39#8, 0x3a#8, 0x3b#8, 0x3c#8, 0x3d#8, 0x3e#8, 0x3f#8, 0x40#8, 0x41#8, 0x42#8, 0x43#8, 0x44#8, 0x45#8, 0x46#8, 0x47#8, 0x48#8, 0x49#8, 0x4a#8, 0x4b#8, 0x4c#8, 0x4d#8, 0x4e#8, 0x4f#8, 0x50#8, 0x51#8, 0x52#8, 0x53#8, 0x54#8, 0x55#8, 0x56#8, 0x57#8, 0x58#8, 0x59#8, 0x5a#8, 0x5b#8, 0x5c#8, 0x5d#8, 0x5e#8, 0x5f#8, 0x60#8, 0x61#8, 0x62#8, 0x63#8, 0x64#8, 0x65#8, 0x66#8, 0x67#8, 0x68#8, 0x69#8, 0x6a#8, 0x6b#8, 0x6c#8, 0x6d#8, 0x6e#8, 0x6f#8, 0x70#8, 0x71#8, 0x72#8, 0x73#8, 0x74#8, 0x75#8, 0x76#8, 0x77#8, 0x78#8, 0x79#8, 0x7a#8, 0x7b#8, 0x7c#8, 0x7d#8, 0x7e#8, 0x7f#8, 0x80#8, 0x81#8, 0x82#8, 0x83#8, 0x84#8, 0x85#8, 0x86#8, 0x87#8, 0x88#8, 0x89#8, 0x8a#8, 0x8b#8, 0x8c#8, 0x8d#8, 0x8e#8, 0x8f#8, 0x90#8, 0x91#8, 0x92#8, 0x93#8, 0x94#8, 0x95#8, 0x96#8, 0x97#8, 0x98#8, 0x99#8, 0x9a#8, 0x9b#8, 0x9c#8, 0x9d#8, 0x9e#8, 0x9f#8, 0xa0#8, 0xa1#8, 0xa2#8, 0xa3#8, 0xa4#8, 0xa5#8, 0xa6#8, 0xa7#8, 0xa8#8, 0xa9#8, 0xaa#8, 0xab#8, 0xac#8, 0xad#8, 0xae#8, 0xaf#8, 0xb0#8, 0xb1#8, 0xb2#8, 0xb3#8, 0xb4#8, 0xb5#8, 0xb6#8, 0xb7#8, 0xb8#8, 0xb9#8, 0xba#8, 0xbb#8, 0xbc#8, 0xbd#8, 0xbe#8, 0xbf#8, 0xc0#8, 0xc1#8, 0xc2#8, 0xc3#8, 0xc4#8, 0xc5#8, 0xc6#8, 0xc7#8, 0xc8#8, 0xc9#8, 0xca#8, 0xcb#8, 0xcc#8, 0xcd#8, 0xce#8, 0xcf#8, 0xd0#8, 0xd1#8, 0xd2#8, 0xd3#8, 0xd4#8, 0xd5#8, 0xd6#8, 0xd7#8, 0xd8#8, 0xd9#8, 0xda#8, 0xdb#8, 0xdc#8, 0xdd#8, 0xde#8, 0xdf#8, 0xe0#8, 0xe1#8, 0xe2#8, 0xe3#8, 0xe4#8, 0xe5#8, 0xe6#8, 0xe7#8, 0xe8#8, 0xe9#8, 0xea#8, 0xeb#8, 0xec#8, 0xed#8, 0xee#8, 0xef#8, 0xf0#8, 0xf1#8, 0xf2#8, 0xf3#8, 0xf4#8, 0xf5#8, 0xf6#8, 0xf7#8, 0xf8#8, 0xf9#8, 0xfa#8, 0xfb#8, 0xfc#8, 0xfd#8, 0xfe#8, 0xff#8, 0x00#8, 0x01#8, 0x02#8, 0x03#8, 0x04#8, 0x05#8, 0x06#8, 0x07#8, 0x08#8, 0x09#8, 0x0a#8, 0x0b#8, 0x0c#8, 0x0d#8, 0x0e#8, 0x0f#8, 0x10#8, 0x11#8, 0x12#8, 0x13#8, 0x14#8, 0x15#8, 0x16#8, 0x17#8, 0x18#8, 0x19#8, 0x1a#8, 0x1b#8, 0x1c#8, 0x1d#8, 0x1e#8, 0x1f#8, 0x20#8, 0x21#8, 0x22#8, 0x23#8, 0x24#8, 0x25#8, 0x26#8, 0x27#8, 0x28#8, 0x29#8, 0x2a#8, 0x2b#8, 0x2c#8, 0x2d#8, 0x2e#8, 0x2f#8, 0x30#8, 0x31#8, 0x32#8, 0x33#8, 0x34#8, 0x35#8, 0x36#8, 0x37#8, 0x38#8, 0x39#8, 0x3a#8, 0x3b#8, 0x3c#8, 0x3d#8, 0x3e#8, 0x3f#8, 0x40#8, 0x41#8, 0x42#8, 0x43#8, 0x44#8, 0x45#8, 0x46#8, 0x47#8, 0x48#8, 0x49#8, 0x4a#8, 0x4b#8, 0x4c#8, 0x4d#8, 0x4e#8, 0x4f#8, 0x50#8, 0x51#8, 0x52#8, 0x53#8, 0x54#8, 0x55#8, 0x56#8, 0x57#8, 0x58#8, 0x59#8, 0x5a#8, 0x5b#8, 0x5c#8, 0x5d#8, 0x5e#8, 0x5f#8, 0x60#8, 0x61#8, 0x62#8, 0x63#8, 0x64#8, 0x65#8, 0x66#8, 0x67#8, 0x68#8, 0x69#8, 0x6a#8, 0x6b#8, 0x6c#8, 0x6d#8, 0x6e#8, 0x6f#8, 0x70#8, 0x71#8, 0x72#8, 0x73#8, 0x74#8, 0x75#8, 0x76#8, 0x77#8, 0x78#8, 0x79#8, 0x7a#8, 0x7b#8, 0x7c#8, 0x7d#8, 0x7e#8, 0x7f#8, 0x80#8, 0x81#8, 0x82#8, 0x83#8, 0x84#8, 0x85#8, 0x86#8, 0x87#8, 0x88#8, 0x89#8, 0x8a#8, 0x8b#8, 0x8c#8, 0x8d#8, 0x8e#8, 0x8f#8, 0x90#8, 0x91#8, 0x92#8, 0x93#8, 0x94#8, 0x95#8, 0x96#8, 0x97#8, 0x98#8, 0x99#8, 0x9a#8, 0x9b#8, 0x9c#8, 0x9d#8, 0x9e#8, 0x9f#8, 0xa0#8, 0xa1#8, 0xa2#8, 0xa3#8, 0xa4#8, 0xa5#8, 0xa6#8, 0xa7#8, 0xa8#8, 0xa9#8, 0xaa#8, 0xab#8, 0xac#8, 0xad#8, 0xae#8, 0xaf#8, 0xb0#8, 0xb1#8, 0xb2#8, 0xb3#8, 0xb4#8, 0xb5#8, 0xb6#8, 0xb7#8, 0xb8#8, 0xb9#8, 0xba#8, 0xbb#8, 0xbc#8, 0xbd#8, 0xbe#8, 0xbf#8, 0xc0#8, 0xc1#8, 0xc2#8, 0xc3#8, 0xc4#8, 0xc5#8, 0xc6#8, 0xc7#8, 0xc8#8, 0xc9#8, 0xca#8, 0xcb#8, 0xcc#8, 0xcd#8, 0xce#8, 0xcf#8, 0xd0#8, 0xd1#8, 0xd2#8, 0xd3#8, 0xd4#8, 0xd5#8, 0xd6#8, 0xd7#8, 0xd8#8, 0xd9#8, 0xda#8, 0xdb#8, 0xdc#8, 0xdd#8, 0xde#8, 0xdf#8, 0xe0#8, 0xe1#8, 0xe2#8, 0xe3#8, 0xe4#8, 0xe5#8, 0xe6#8, 0xe7#8, 0xe8#8, 0xe9#8, 0xea#8, 0xeb#8, 0xec#8, 0xed#8, 0xee#8, 0xef#8, 0xf0#8, 0xf1#8, 0xf2#8, 0xf3#8, 0xf4#8, 0xf5#8, 0xf6#8, 0xf7#8, 0xf8#8, 0xf9#8, 0xfa#8, 0xfb#8, 0xfc#8, 0xfd#8, 0xfe#8, 0xff#8, 0x00#8, 0x01#8, 0x02#8, 0x03#8, 0x04#8, 0x05#8, 0x06#8, 0x07#8, 0x08#8, 0x09#8, 0x0a#8, 0x0b#8, 0x0c#8, 0x0d#8, 0x0e#8, 0x0f#8, 0x10#8, 0x11#8, 0x12#8, 0x13#8, 0x14#8, 0x15#8, 0x16#8, 0x17#8, 0x18#8, 0x19#8, 0x1a#8, 0x1b#8, 0x1c#8, 0x1d#8, 0x1e#8, 0x1f#8, 0x20#8, 0x21#8, 0x22#8, 0x23#8, 0x24#8, 0x25#8, 0x26#8, 0x27#8, 0x28#8, 0x29#8, 0x2a#8, 0x2b#8, 0x2c#8, 0x2d#8, 0x2e#8, 0x2f#8, 0x30#8, 0x31#8, 0x32#8, 0x33#8, 0x34#8, 0x35#8, 0x36#8, 0x37#8, 0x38#8, 0x39#8, 0x3a#8, 0x3b#8, 0x3c#8, 0x3d#8, 0x3e#8, 0x3f#8, 0x40#8, 0x41#8, 0x42#8, 0x43#8, 0x44#8, 0x45#8, 0x46#8, 0x47#8, 0x48#8, 0x49#8, 0x4a#8, 0x4b#8, 0x4c#8, 0x4d#8, 0x4e#8, 0x4f#8, 0x50#8, 0x51#8, 0x52#8, 0x53#8, 0x54#8, 0x55#8, 0x56#8, 0x57#8, 0x58#8, 0x59#8, 0x5a#8, 0x5b#8, 0x5c#8, 0x5d#8, 0x5e#8, 0x5f#8, 0x60#8, 0x61#8, 0x62#8, 0x63#8, 0x64#8, 0x65#8, 0x66#8, 0x67#8, 0x68#8, 0x69#8, 0x6a#8, 0x6b#8, 0x6c#8, 0x6d#8, 0x6e#8, 0x6f#8, 0x70#8, 0x71#8, 0x72#8, 0x73#8, 0x74#8, 0x75#8, 0x76#8, 0x77#8, 0x78#8, 0x79#8, 0x7a#8, 0x7b#8, 0x7c#8, 0x7d#8, 0x7e#8, 0x7f#8, 0x80#8, 0x81#8, 0x82#8, 0x83#8, 0x84#8, 0x85#8, 0x86#8, 0x87#8, 0x88#8, 0x89#8, 0x8a#8, 0x8b#8, 0x8c#8, 0x8d#8, 0x8e#8, 0x8f#8, 0x90#8, 0x91#8, 0x92#8, 0x93#8, 0x94#8, 0x95#8, 0x96#8, 0x97#8, 0x98#8, 0x99#8, 0x9a#8, 0x9b#8, 0x9c#8, 0x9d#8, 0x9e#8, 0x9f#8, 0xa0#8, 0xa1#8, 0xa2#8, 0xa3#8, 0xa4#8, 0xa5#8, 0xa6#8, 0xa7#8, 0xa8#8, 0xa9#8, 0xaa#8, 0xab#8, 0xac#8, 0xad#8, 0xae#8, 0xaf#8, 0xb0#8, 0xb1#8, 0xb2#8, 0xb3#8, 0xb4#8, 0xb5#8, 0xb6#8, 0xb7#8, 0xb8#8, 0xb9#8, 0xba#8, 0xbb#8, 0xbc#8, 0xbd#8, 0xbe#8, 0xbf#8, 0xc0#8, 0xc1#8, 0xc2#8, 0xc3#8, 0xc4#8, 0xc5#8, 0xc6#8, 0xc7#8, 0xc8#8, 0xc9#8, 0xca#8, 0xcb#8, 0xcc#8, 0xcd#8, 0xce#8, 0xcf#8, 0xd0#8, 0xd1#8, 0xd2#8, 0xd3#8, 0xd4#8, 0xd5#8, 0xd6#8, 0xd7#8, 0xd8#8, 0xd9#8, 0xda#8, 0xdb#8, 0xdc#8, 0xdd#8, 0xde#8, 0xdf#8, 0xe0#8, 0xe1#8, 0xe2#8, 0xe3#8, 0xe4#8, 0xe5#8, 0xe6#8, 0xe7#8, 0xe8#8, 0xe9#8, 0xea#8, 0xeb#8, 0xec#8, 0xed#8, 0xee#8, 0xef#8, 0xf0#8, 0xf1#8, 0xf2#8, 0xf3#8, 0xf4#8, 0xf5#8, 0xf6#8, 0xf7#8, 0xf8#8, 0xf9#8, 0xfa#8, 0xfb#8, 0xfc#8, 0xfd#8, 0xfe#8, 0xff#8, 0x00#8, 0x01#8, 0x02#8, 0x03#8, 0x04#8, 0x05#8, 0x06#8, 0x07#8, 0x08#8, 0x09#8, 0x0a#8, 0x0b#8, 0x0c#8, 0x0d#8, 0x0e#8, 0x0f#8, 0x10#8, 0x11#8, 0x12#8, 0x13#8, 0x14#8, 0x15#8, 0x16#8, 0x17#8, 0x18#8, 0x19#8, 0x1a#8, 0x1b#8, 0x1c#8, 0x1d#8, 0x1e#8, 0x1f#8, 0x20#8, 0x21#8, 0x22#8, 0x23#8, 0x24#8, 0x25#8, 0x26#8, 0x27#8, 0x28#8, 0x29#8, 0x2a#8, 0x2b#8, 0x2c#8, 0x2d#8, 0x2e#8, 0x2f#8, 0x30#8, 0x31#8, 0x32#8, 0x33#8, 0x34#8, 0x35#8, 0x36#8, 0x37#8, 0x38#8, 0x39#8, 0x3a#8, 0x3b#8, 0x3c#8, 0x3d#8, 0x3e#8, 0x3f#8, 0x40#8, 0x41#8, 0x42#8, 0x43#8, 0x44#8, 0x45#8, 0x46#8, 0x47#8, 0x48#8, 0x49#8, 0x4a#8, 0x4b#8, 0x4c#8, 0x4d#8, 0x4e#8, 0x4f#8, 0x50#8, 0x51#8, 0x52#8, 0x53#8, 0x54#8, 0x55#8, 0x56#8, 0x57#8, 0x58#8, 0x59#8, 0x5a#8, 0x5b#8, 0x5c#8, 0x5d#8, 0x5e#8, 0x5f#8, 0x60#8, 0x61#8, 0x62#8, 0x63#8, 0x64#8, 0x65#8, 0x66#8, 0x67#8, 0x68#8, 0x69#8, 0x6a#8, 0x6b#8, 0x6c#8, 0x6d#8, 0x6e#8, 0x6f#8, 0x70#8, 0x71#8, 0x72#8, 0x73#8, 0x74#8, 0x75#8, 0x76#8, 0x77#8, 0x78#8, 0x79#8, 0x7a#8, 0x7b#8, 0x7c#8, 0x7d#8, 0x7e#8, 0x7f#8, 0x80#8, 0x81#8, 0x82#8, 0x83#8, 0x84#8, 0x85#8, 0x86#8, 0x87#8, 0x88#8, 0x89#8, 0x8a#8, 0x8b#8, 0x8c#8, 0x8d#8, 0x8e#8, 0x8f#8, 0x90#8, 0x91#8, 0x92#8, 0x93#8, 0x94#8, 0x95#8, 0x96#8, 0x97#8, 0x98#8, 0x99#8, 0x9a#8, 0x9b#8, 0x9c#8, 0x9d#8, 0x9e#8, 0x9f#8, 0xa0#8, 0xa1#8, 0xa2#8, 0xa3#8, 0xa4#8, 0xa5#8, 0xa6#8, 0xa7#8, 0xa8#8, 0xa9#8, 0xaa#8, 0xab#8, 0xac#8, 0xad#8, 0xae#8, 0xaf#8, 0xb0#8, 0xb1#8, 0xb2#8, 0xb3#8, 0xb4#8, 0xb5#8, 0xb6#8, 0xb7#8, 0xb8#8, 0xb9#8, 0xba#8, 0xbb#8, 0xbc#8, 0xbd#8, 0xbe#8, 0xbf#8, 0xc0#8, 0xc1#8, 0xc2#8, 0xc3#8, 0xc4#8, 0xc5#8, 0xc6#8, 0xc7#8, 0xc8#8, 0xc9#8, 0xca#8, 0xcb#8, 0xcc#8, 0xcd#8, 0xce#8, 0xcf#8, 0xd0#8, 0xd1#8, 0xd2#8, 0xd3#8, 0xd4#8, 0xd5#8, 0xd6#8, 0xd7#8, 0xd8#8, 0xd9#8, 0xda#8, 0xdb#8, 0xdc#8, 0xdd#8, 0xde#8, 0xdf#8, 0xe0#8, 0xe1#8, 0xe2#8, 0xe3#8, 0xe4#8, 0xe5#8, 0xe6#8, 0xe7#8, 0xe8#8, 0xe9#8, 0xea#8, 0xeb#8, 0xec#8, 0xed#8, 0xee#8, 0xef#8, 0xf0#8, 0xf1#8, 0xf2#8, 0xf3#8, 0xf4#8, 0xf5#8, 0xf6#8, 0xf7#8, 0xf8#8, 0xf9#8, 0xfa#8, 0xfb#8, 0xfc#8, 0xfd#8, 0xfe#8, 0xff#8, 0x00#8, 0x01#8, 0x02#8, 0x03#8, 0x04#8, 0x05#8, 0x06#8, 0x07#8, 0x08#8, 0x09#8, 0x0a#8, 0x0b#8, 0x0c#8, 0x0d#8, 0x0e#8, 0x0f#8, 0x10#8, 0x11#8, 0x12#8, 0x13#8, 0x14#8, 0x15#8, 0x16#8, 0x17#8, 0x18#8, 0x19#8, 0x1a#8, 0x1b#8, 0x1c#8, 0x1d#8, 0x1e#8, 0x1f#8, 0x20#8, 0x21#8, 0x22#8, 0x23#8, 0x24#8, 0x25#8, 0x26#8, 0x27#8, 0x28#8, 0x29#8, 0x2a#8, 0x2b#8, 0x2c#8, 0x2d#8, 0x2e#8, 0x2f#8, 0x30#8, 0x31#8, 0x32#8, 0x33#8, 0x34#8, 0x35#8, 0x36#8, 0x37#8, 0x38#8, 0x39#8, 0x3a#8, 0x3b#8, 0x3c#8, 0x3d#8, 0x3e#8, 0x3f#8, 0x40#8, 0x41#8, 0x42#8, 0x43#8, 0x44#8, 0x45#8, 0x46#8, 0x47#8, 0x48#8, 0x49#8, 0x4a#8, 0x4b#8, 0x4c#8, 0x4d#8, 0x4e#8, 0x4f#8, 0x50#8, 0x51#8, 0x52#8, 0x53#8, 0x54#8, 0x55#8, 0x56#8, 0x57#8, 0x58#8, 0x59#8, 0x5a#8, 0x5b#8, 0x5c#8, 0x5d#8, 0x5e#8, 0x5f#8, 0x60#8, 0x61#8, 0x62#8, 0x63#8, 0x64#8, 0x65#8, 0x66#8, 0x67#8, 0x68#8, 0x69#8, 0x6a#8, 0x6b#8, 0x6c#8, 0x6d#8, 0x6e#8, 0x6f#8, 0x70#8, 0x71#8, 0x72#8, 0x73#8, 0x74#8, 0x75#8, 0x76#8, 0x77#8, 0x78#8, 0x79#8, 0x7a#8, 0x7b#8, 0x7c#8, 0x7d#8, 0x7e#8, 0x7f#8, 0x80#8, 0x81#8, 0x82#8, 0x83#8, 0x84#8, 0x85#8, 0x86#8, 0x87#8, 0x88#8, 0x89#8, 0x8a#8, 0x8b#8, 0x8c#8, 0x8d#8, 0x8e#8, 0x8f#8, 0x90#8, 0x91#8, 0x92#8, 0x93#8, 0x94#8, 0x95#8, 0x96#8, 0x97#8, 0x98#8, 0x99#8, 0x9a#8, 0x9b#8, 0x9c#8, 0x9d#8, 0x9e#8, 0x9f#8, 0xa0#8, 0xa1#8, 0xa2#8, 0xa3#8, 0xa4#8, 0xa5#8, 0xa6#8, 0xa7#8, 0xa8#8, 0xa9#8, 0xaa#8, 0xab#8, 0xac#8, 0xad#8, 0xae#8, 0xaf#8, 0xb0#8, 0xb1#8, 0xb2#8, 0xb3#8, 0xb4#8, 0xb5#8, 0xb6#8, 0xb7#8, 0xb8#8, 0xb9#8, 0xba#8, 0xbb#8, 0xbc#8, 0xbd#8, 0xbe#8, 0xbf#8, 0xc0#8, 0xc1#8, 0xc2#8, 0xc3#8, 0xc4#8, 0xc5#8, 0xc6#8, 0xc7#8, 0xc8#8, 0xc9#8, 0xca#8, 0xcb#8, 0xcc#8, 0xcd#8, 0xce#8, 0xcf#8, 0xd0#8, 0xd1#8, 0xd2#8, 0xd3#8, 0xd4#8, 0xd5#8, 0xd6#8, 0xd7#8, 0xd8#8, 0xd9#8, 0xda#8, 0xdb#8, 0xdc#8, 0xdd#8, 0xde#8, 0xdf#8, 0xe0#8, 0xe1#8, 0xe2#8, 0xe3#8, 0xe4#8, 0xe5#8, 0xe6#8, 0xe7#8, 0xe8#8, 0xe9#8, 0xea#8, 0xeb#8, 0xec#8, 0xed#8, 0xee#8, 0xef#8, 0xf0#8, 0xf1#8, 0xf2#8, 0xf3#8, 0xf4#8, 0xf5#8, 0xf6#8, 0xf7#8, 0xf8#8, 0xf9#8, 0xfa#8, 0xfb#8, 0xfc#8, 0xfd#8, 0xfe#8, 0xff#8, 0x00#8, 0x01#8, 0x02#8, 0x03#8, 0x04#8, 0x05#8, 0x06#8, 0x07#8, 0x08#8, 0x09#8, 0x0a#8, 0x0b#8, 0x0c#8, 0x0d#8, 0x0e#8, 0x0f#8, 0x10#8, 0x11#8, 0x12#8, 0x13#8, 0x14#8, 0x15#8, 0x16#8, 0x17#8, 0x18#8, 0x19#8, 0x1a#8, 0x1b#8, 0x1c#8, 0x1d#8, 0x1e#8, 0x1f#8, 0x20#8, 0x21#8, 0x22#8, 0x23#8, 0x24#8, 0x25#8, 0x26#8, 0x27#8, 0x28#8, 0x29#8, 0x2a#8, 0x2b#8, 0x2c#8, 0x2d#8, 0x2e#8, 0x2f#8, 0x30#8, 0x31#8, 0x32#8, 0x33#8, 0x34#8, 0x35#8, 0x36#8, 0x37#8, 0x38#8, 0x39#8, 0x3a#8, 0x3b#8, 0x3c#8, 0x3d#8, 0x3e#8, 0x3f#8, 0x40#8, 0x41#8, 0x42#8, 0x43#8, 0x44#8, 0x45#8, 0x46#8, 0x47#8, 0x48#8, 0x49#8, 0x4a#8, 0x4b#8, 0x4c#8, 0x4d#8, 0x4e#8, 0x4f#8, 0x50#8, 0x51#8, 0x52#8, 0x53#8, 0x54#8, 0x55#8, 0x56#8, 0x57#8, 0x58#8, 0x59#8, 0x5a#8, 0x5b#8, 0x5c#8, 0x5d#8, 0x5e#8, 0x5f#8, 0x60#8, 0x61#8, 0x62#8, 0x63#8, 0x64#8, 0x65#8, 0x66#8, 0x67#8, 0x68#8, 0x69#8, 0x6a#8, 0x6b#8, 0x6c#8, 0x6d#8, 0x6e#8, 0x6f#8, 0x70#8, 0x71#8, 0x72#8, 0x73#8, 0x74#8, 0x75#8, 0x76#8, 0x77#8, 0x78#8, 0x79#8, 0x7a#8, 0x7b#8, 0x7c#8, 0x7d#8, 0x7e#8, 0x7f#8, 0x80#8, 0x81#8, 0x82#8, 0x83#8, 0x84#8, 0x85#8, 0x86#8, 0x87#8, 0x88#8, 0x89#8, 0x8a#8, 0x8b#8, 0x8c#8, 0x8d#8, 0x8e#8, 0x8f#8, 0x90#8, 0x91#8, 0x92#8, 0x93#8, 0x94#8, 0x95#8, 0x96#8, 0x97#8, 0x98#8, 0x99#8, 0x9a#8, 0x9b#8, 0x9c#8, 0x9d#8, 0x9e#8, 0x9f#8, 0xa0#8, 0xa1#8, 0xa2#8, 0xa3#8, 0xa4#8, 0xa5#8, 0xa6#8, 0xa7#8, 0xa8#8, 0xa9#8, 0xaa#8, 0xab#8, 0xac#8, 0xad#8, 0xae#8, 0xaf#8, 0xb0#8, 0xb1#8, 0xb2#8, 0xb3#8, 0xb4#8, 0xb5#8, 0xb6#8, 0xb7#8, 0xb8#8, 0xb9#8, 0xba#8, 0xbb#8, 0xbc#8, 0xbd#8, 0xbe#8, 0xbf#8, 0xc0#8, 0xc1#8, 0xc2#8, 0xc3#8, 0xc4#8, 0xc5#8, 0xc6#8, 0xc7#8, 0xc8#8, 0xc9#8, 0xca#8, 0xcb#8, 0xcc#8, 0xcd#8, 0xce#8, 0xcf#8, 0xd0#8, 0xd1#8, 0xd2#8, 0xd3#8, 0xd4#8, 0xd5#8, 0xd6#8, 0xd7#8, 0xd8#8, 0xd9#8, 0xda#8, 0xdb#8, 0xdc#8, 0xdd#8, 0xde#8, 0xdf#8, 0xe0#8, 0xe1#8, 0xe2#8, 0xe3#8, 0xe4#8, 0xe5#8, 0xe6#8, 0xe7#8, 0xe8#8, 0xe9#8, 0xea#8, 0xeb#8, 0xec#8, 0xed#8, 0xee#8, 0xef#8, 0xf0#8, 0xf1#8, 0xf2#8, 0xf3#8, 0xf4#8, 0xf5#8, 0xf6#8, 0xf7#8, 0xf8#8, 0xf9#8, 0xfa#8, 0xfb#8, 0xfc#8, 0xfd#8, 0xfe#8, 0xff#8, 0x00#8, 0x01#8, 0x02#8, 0x03#8, 0x04#8, 0x05#8, 0x06#8, 0x07#8, 0x08#8, 0x09#8, 0x0a#8, 0x0b#8, 0x0c#8, 0x0d#8, 0x0e#8, 0x0f#8, 0x10#8, 0x11#8, 0x12#8, 0x13#8, 0x14#8, 0x15#8, 0x16#8, 0x17#8, 0x18#8, 0x19#8, 0x1a#8, 0x1b#8, 0x1c#8, 0x1d#8, 0x1e#8, 0x1f#8, 0x20#8, 0x21#8, 0x22#8, 0x23#8, 0x24#8, 0x25#8, 0x26#8, 0x27#8, 0x28#8, 0x29#8, 0x2a#8, 0x2b#8, 0x2c#8, 0x2d#8, 0x2e#8, 0x2f#8, 0x30#8, 0x31#8, 0x32#8, 0x33#8, 0x34#8, 0x35#8, 0x36#8, 0x37#8, 0x38#8, 0x39#8, 0x3a#8, 0x3b#8, 0x3c#8, 0x3d#8, 0x3e#8, 0x3f#8, 0x40#8, 0x41#8, 0x42#8] }, 0, 0, by decide +kernel⟩,
    ⟨base 0, canon 0 (by decide), by decide +kernel, 0, { dst := 0x0a0000000009#48, src := 0x0a0000000004#48, red := RedTag.none, etype := 0x0800#16, ptp := PtpKind.none, udp := false, supervision := false, fcsOk := false, bytes := [0x03#8, 0x04#8, 0x05#8, 0x06#8, 0x07#8, 0x08#8, 0x09#8, 0x0a#8, 0x0b#8, 0x0c#8, 0x0d#8, 0x0e#8, 0x0f#8, 0x10#8, 0x11#8, 0x12#8, 0x13#8, 0x14#8, 0x15#8, 0x16#8, 0x17#8, 0x18#8, 0x19#8, 0x1a#8, 0x1b#8, 0x1c#8, 0x1d#8, 0x1e#8, 0x1f#8, 0x20#8, 0x21#8, 0x22#8, 0x23#8, 0x24#8, 0x25#8, 0x26#8, 0x27#8, 0x28#8, 0x29#8, 0x2a#8, 0x2b#8, 0x2c#8, 0x2d#8, 0x2e#8, 0x2f#8, 0x30#8, 0x31#8, 0x32#8, 0x33#8, 0x34#8, 0x35#8, 0x36#8, 0x37#8, 0x38#8, 0x39#8, 0x3a#8, 0x3b#8, 0x3c#8, 0x3d#8, 0x3e#8, 0x3f#8, 0x40#8, 0x41#8, 0x42#8] }, 0, 0, by decide +kernel⟩,
    ⟨base 0, canon 0 (by decide), by decide +kernel, 0, { dst := 0x000203040506#48, src := 0x0a0000000001#48, red := RedTag.none, etype := 0x0800#16, ptp := PtpKind.none, udp := false, supervision := false, fcsOk := true, bytes := [0x03#8, 0x04#8, 0x05#8, 0x06#8, 0x07#8, 0x08#8, 0x09#8, 0x0a#8, 0x0b#8, 0x0c#8, 0x0d#8, 0x0e#8, 0x0f#8, 0x10#8, 0x11#8, 0x12#8, 0x13#8, 0x14#8, 0x15#8, 0x16#8, 0x17#8, 0x18#8, 0x19#8, 0x1a#8, 0x1b#8, 0x1c#8, 0x1d#8, 0x1e#8, 0x1f#8, 0x20#8, 0x21#8, 0x22#8, 0x23#8, 0x24#8, 0x25#8, 0x26#8, 0x27#8, 0x28#8, 0x29#8, 0x2a#8, 0x2b#8, 0x2c#8, 0x2d#8, 0x2e#8, 0x2f#8, 0x30#8, 0x31#8, 0x32#8, 0x33#8, 0x34#8, 0x35#8, 0x36#8, 0x37#8, 0x38#8, 0x39#8, 0x3a#8, 0x3b#8, 0x3c#8, 0x3d#8, 0x3e#8] }, 0, 0, by decide +kernel⟩,
    ⟨base 0, canon 0 (by decide), by decide +kernel, (Initiator.porchA), 0, 0x00000000#32, by decide +kernel⟩,
    ⟨base 0, canon 0 (by decide), by decide +kernel, 0, 0, by decide +kernel⟩,
    ⟨base 20, canon 20 (by decide), by decide +kernel, 1, 0, 0x0#2, by decide +kernel⟩,
    ⟨base 0, canon 0 (by decide), by decide +kernel⟩,
    ⟨base 1, canon 1 (by decide), by decide +kernel, by decide +kernel, by decide +kernel, 0, trivial⟩,
    ⟨base 0, canon 0 (by decide), by decide +kernel, 0, trivial⟩,
    ⟨base 0, canon 0 (by decide), by decide +kernel, 0x0a0000000001#48, trivial⟩,
    ⟨base 0, canon 0 (by decide), by decide +kernel, (Initiator.porchA), 0x80000400#32, by decide +kernel⟩,
    ⟨base 0, canon 0 (by decide), by decide +kernel, 0x0000#16, by decide +kernel⟩,
    ⟨base 7, canon 7 (by decide), by decide +kernel, 0x0000#16, { write := false, phy := 0x01#5, reg := 0x02#5, data := 0x0003#16 }, by decide +kernel⟩⟩

/-- States and operands that meet the hypotheses of `PrecisionTime`. -/
theorem test_w_PrecisionTime :
    (∃ s : State, Canonical s ∧ s.live = true ∧ s.pending = [] ∧ s.ptpRuns = true ∧ ∃ τ : Nat, τ = ((s.ptp.time : Int) + 2 ^ 44 + s.rdInt PTP.pg PTP.RATE_ADJ).toNat % (2 ^ 64 * secU)) ∧
    (∃ s : State, Canonical s ∧ s.live = true ∧ ∃ p : Fin 2, ∃ m : PtpMsg, ∃ frac : Fin 5, s.fromParent p m = false) ∧
    (∃ s : State, Canonical s ∧ s.live = true ∧ ∃ p : Fin 2, ∃ m : PtpMsg, ∃ frac : Fin 5, s.fromParent p m = true ∧ m.twoStep = true) ∧
    (∃ s : State, Canonical s ∧ s.live = true ∧ ∃ p : Fin 2, ∃ m : PtpMsg, ∃ frac : Fin 5, s.fromParent p m = true ∧ m.twoStep = false) ∧
    (∃ s : State, Canonical s ∧ s.live = true ∧ ∃ p : Fin 2, ∃ m : PtpMsg, ∃ frac : Fin 5, s.fromParent p m = true ∧ ∃ q : Fin 2, ∃ y : PtpMsg, ∃ t2 : Rat, s.ptp.sync = some (q, y, t2) ∧ p = q ∧ m.clock = y.clock ∧ m.port = y.port ∧ m.seq = y.seq) ∧
    (∃ s : State, Canonical s ∧ s.live = true ∧ ∃ p : Fin 2, ∃ m : PtpMsg, ∃ frac : Fin 5, s.fromParent p m = true ∧ ∃ q : Fin 2, ∃ y : PtpMsg, ∃ t2 : Rat, s.ptp.sync = some (q, y, t2) ∧ ¬(p = q ∧ m.clock = y.clock ∧ m.port = y.port ∧ m.seq = y.seq)) ∧
    (∃ s : State, Canonical s ∧ s.live = true ∧ ∃ p : Fin 2, ∃ frac : Fin 5, ∃ turn : Int, ∃ m : PtpMsg, ∃ late : Fin 62501, s.pdelayOn p = false) ∧
    (∃ s : State, Canonical s ∧ s.live = true ∧ ∃ p : Fin 2, ∃ frac : Fin 5, ∃ turn : Int, ∃ m : PtpMsg, ∃ late : Fin 62501, s.pdelayOn p = true) ∧
    (∃ s : State, Canonical s ∧ s.live = true ∧ ∃ p : Fin 2, ∃ frac : Fin 5, ∃ turn : Int, ∃ m : PtpMsg, ∃ late : Fin 62501, s.pdelayOn p = true ∧ s.ptp.req[p] = none) ∧
    (∃ s : State, Canonical s ∧ s.live = true ∧ ∃ p : Fin 2, ∃ frac : Fin 5, ∃ turn : Int, ∃ m : PtpMsg, ∃ late : Fin 62501, s.pdelayOn p = true ∧ ∃ t1 : Rat, s.ptp.req[p] = some t1) ∧
    (∃ s : State, Canonical s ∧ s.live = true ∧ s.ptpRuns = false) ∧
    (∃ s : State, Canonical s ∧ s.live = true ∧ s.ptpRuns = true) ∧
    (∃ s : State, Canonical s ∧ s.live = true ∧ ∃ ini : Initiator, ∃ v : Word, s.admits ini PTP.pg 0x04C v.toNat = true) ∧
    (∃ s : State, Canonical s ∧ s.live = true ∧ ∃ ini : Initiator, ∃ v : Word, s.admits ini PTP.pg 0x058 v.toNat = true ∧ bitOf v.toNat 31 = true) ∧
    (∃ s : State, Canonical s ∧ s.live = true ∧ ∃ ini : Initiator, ∃ v : Word, s.admits ini PTP.pg 0x060 v.toNat = true) ∧
    (∃ s : State, Canonical s ∧ s.live = true ∧ ∃ ini : Initiator, ∃ v : Word, s.admits ini PTP.pg 0x090 v.toNat = true) ∧
    (∃ s : State, Canonical s ∧ s.live = true ∧ ∃ ini : Initiator, s.admits ini PTP.pg 0x070 1 = true) ∧
    (∃ s : State, Canonical s ∧ s.live = true ∧ ∃ ini : Initiator, s.admits ini PTP.pg 0x070 2 = true) ∧
    (∃ s : State, Canonical s ∧ s.live = true ∧ ∃ n : Fin 4, (s.schedOn n = false ∨ s.ptp.time < (s.sched n).next)) ∧
    (∃ s : State, Canonical s ∧ s.live = true ∧ ∃ n : Fin 4, s.schedOn n = true ∧ (s.sched n).next ≤ s.ptp.time) ∧
    (∃ s : State, Canonical s ∧ s.live = true ∧ ∃ n : Fin 4, (s.cyc - (s.sched n).until_).toNat < 2 ^ 63) ∧
    (∃ s : State, Canonical s ∧ s.live = true ∧ ∃ n : Fin 4, 2 ^ 63 ≤ (s.cyc - (s.sched n).until_).toNat) :=
  ⟨⟨base 12, canon 12 (by decide), by decide +kernel, by decide +kernel, by decide +kernel, _, rfl⟩,
    ⟨base 0, canon 0 (by decide), by decide +kernel, 0, { clock := 0x0102030405060708#64, port := 0x0007#16, domain := 0x00#8, seq := 0x0000#16, twoStep := false, s := 0x000000000005#48, ns := 0x00000046#32, corr := 0x0000000000030064#64 }, 0, by decide +kernel⟩,
    ⟨base 12, canon 12 (by decide), by decide +kernel, 0, { clock := 0x0102030405060708#64, port := 0x0007#16, domain := 0x00#8, seq := 0x0001#16, twoStep := true, s := 0x000000000005#48, ns := 0x00000046#32, corr := 0x0000000000030064#64 }, 0, by decide +kernel⟩,
    ⟨base 12, canon 12 (by decide), by decide +kernel, 0, { clock := 0x0102030405060708#64, port := 0x0007#16, domain := 0x00#8, seq := 0x0000#16, twoStep := false, s := 0x000000000005#48, ns := 0x00000046#32, corr := 0x0000000000030064#64 }, 0, by decide +kernel⟩,
    ⟨base 13, canon 13 (by decide), by decide +kernel, 0, { clock := 0x0102030405060708#64, port := 0x0007#16, domain := 0x00#8, seq := 0x0000#16, twoStep := true, s := 0x000000000005#48, ns := 0x00000000#32, corr := 0x0000000000030064#64 }, 0, by decide +kernel, 0, { clock := 0x0102030405060708#64, port := 0x0007#16, domain := 0x00#8, seq := 0x0000#16, twoStep := true, s := 0x000000000005#48, ns := 0x00000000#32, corr := 0x0000000000030064#64 }, 5000000075000, by decide +kernel⟩,
    ⟨base 13, canon 13 (by decide), by decide +kernel, 0, { clock := 0x0102030405060708#64, port := 0x0007#16, domain := 0x00#8, seq := 0x0001#16, twoStep := false, s := 0x000000000005#48, ns := 0x00000000#32, corr := 0x0000000000030064#64 }, 0, by decide +kernel, 0, { clock := 0x0102030405060708#64, port := 0x0007#16, domain := 0x00#8, seq := 0x0000#16, twoStep := true, s := 0x000000000005#48, ns := 0x00000000#32, corr := 0x0000000000030064#64 }, 5000000075000, by decide +kernel⟩,
    ⟨base 0, canon 0 (by decide), by decide +kernel, 0, 0, 0, { clock := 0x0102030405060708#64, port := 0x0007#16, domain := 0x00#8, seq := 0x0000#16, twoStep := true, s := 0x000000000005#48, ns := 0x00000000#32, corr := 0x0000000000030064#64 }, 0, by decide +kernel⟩,
    ⟨base 12, canon 12 (by decide), by decide +kernel, 0, 0, 0, { clock := 0x0102030405060708#64, port := 0x0007#16, domain := 0x00#8, seq := 0x0000#16, twoStep := true, s := 0x000000000005#48, ns := 0x00000000#32, corr := 0x0000000000030064#64 }, 0, by decide +kernel⟩,
    ⟨base 12, canon 12 (by decide), by decide +kernel, 0, 0, 0, { clock := 0x0102030405060708#64, port := 0x0007#16, domain := 0x00#8, seq := 0x0000#16, twoStep := true, s := 0x000000000005#48, ns := 0x00000000#32, corr := 0x0000000000030064#64 }, 0, by decide +kernel⟩,
    ⟨base 14, canon 14 (by decide), by decide +kernel, 0, 0, 0, { clock := 0x0102030405060708#64, port := 0x0007#16, domain := 0x00#8, seq := 0x0000#16, twoStep := true, s := 0x000000000005#48, ns := 0x00000000#32, corr := 0x0000000000030064#64 }, 0, by decide +kernel, 5000000000000, by decide +kernel⟩,
    ⟨base 0, canon 0 (by decide), by decide +kernel⟩,
    ⟨base 12, canon 12 (by decide), by decide +kernel⟩,
    ⟨base 0, canon 0 (by decide), by decide +kernel, (Initiator.porchA), 0x00000000#32, by decide +kernel⟩,
    ⟨base 0, canon 0 (by decide), by decide +kernel, (Initiator.porchA), 0x80000400#32, by decide +kernel⟩,
    ⟨base 0, canon 0 (by decide), by decide +kernel, (Initiator.porchA), 0x00000000#32, by decide +kernel⟩,
    ⟨base 0, canon 0 (by decide), by decide +kernel, (Initiator.porchA), 0x00000000#32, by decide +kernel⟩,
    ⟨base 0, canon 0 (by decide), by decide +kernel, (Initiator.porchA), by decide +kernel⟩,
    ⟨base 0, canon 0 (by decide), by decide +kernel, (Initiator.porchA), by decide +kernel⟩,
    ⟨base 0, canon 0 (by decide), by decide +kernel, 0, by decide +kernel⟩,
    ⟨base 17, canon 17 (by decide), by decide +kernel, 0, by decide +kernel⟩,
    ⟨base 0, canon 0 (by decide), by decide +kernel, 0, by decide +kernel⟩,
    ⟨base 21, canon 21 (by decide), by decide +kernel, 0, by decide +kernel⟩⟩

end W35

namespace W36
def md (m : Nat) (s : State) : State := s.wr SYS.pg SYS.MODE_MODE 0 m
def kw (f : Fld) (v : Nat) (s : State) (i : Nat := 0) : State := s.wr CLOCK.pg f i v
def ws (f : Fld) (v : Nat) (s : State) (i : Nat := 0) : State := s.wr POWER.pg f i v
def b3 : State := md 3 hostBase
def lk (s : State) : State := kw CLOCK.STATUS_SYS_LOCK 1 <| kw CLOCK.STATUS_CLN_LOCK 1 <| kw CLOCK.STATUS_SUBST 0 <| kw CLOCK.STATUS_HOPPING 0 s
def key0 (i : Initiator) (s : State) : State := s.wr KEYRACK.pg KEYRACK.KEY_BITS 0 (ownerId i)
def pwrs (f : PowerState → PowerState) (s : State) : State := { s with pwr := f s.pwr }
def bases : List State := [lk b3, kw CLOCK.SYSCFG_SS_MODE 1 (lk b3), kw CLOCK.STATUS_HOPPING 1 { lk b3 with clk := { relocking := true, bandSearch := true } }, { kw CLOCK.STATUS_SUBST 1 (kw CLOCK.STATUS_SYS_LOCK 0 (lk b3)) with clk := { relocking := true } },
  { lk b3 with clk := { rootAbsent := true } }, { lk b3 with clk := { rootAbsent := true, clnBandSearch := true } }, key0 .porchA (md 3 b3), key0 .porchB (md 7 b3), key0 .supA (md 3 b3), key0 .porchA (md 5 b3),key0 .porchA (md 2 b3),
  pwrs (fun (p : PowerState) => { p with held := true }) b3, pwrs (fun (p : PowerState) => { p with held := true, rstreq := true }) (b3.wr RESET.pg RESET.CAUSE_CAUSE 0 3), pwrs (fun (p : PowerState) => { p with ignoring := true }) b3,
  pwrs (fun (p : PowerState) => { p with target := some 2, stopDue := false, keepDue := false }) (lk b3), pwrs (fun (p : PowerState) => { p with target := some 0, state := 2 }) (lk b3), pwrs (fun (p : PowerState) => { p with target := some 3, state := 1 }) (lk b3), pwrs (fun (p : PowerState) => { p with state := 3 }) (ws POWER.WAKECFG_TRIG0 1 (lk b3)),
  ws POWER.STATUS_BUSY 0 (key0 .porchA (pwrs (fun (p : PowerState) => { p with state := 1 }) b3)), (key0 .porchB (b3.wr REDUN.pg REDUN.STATUS_STATE 0 2))]

def base (k : Nat) : State := bases.getD k State.reset
theorem canon : ∀ k ∈ [0, 2, 3, 4, 5, 6, 11, 12, 13, 14, 17], Canonical (base k) := canon_of (by decide +kernel)

/-- States and operands that meet the hypotheses of `PllsAndTheRoot`. -/
theorem test_w_PllsAndTheRoot :
    (∃ s : State, Canonical s ∧ s.live = true ∧ ∃ c : Nat, True) ∧
    (∃ s : State, Canonical s ∧ s.live = true ∧ ∃ c : Nat, (s.flag CLOCK.pg CLOCK.STATUS_SS_ACTIVE = false ∨ s.clk.spreadMode ≠ 1) ∧ ∃ x ∈ [(0, 983), (1, 1024), (2, 1065)], s.rd CLOCK.pg CLOCK.SYSCFG_PROFILE = x.1) ∧
    (∃ s : State, Canonical s ∧ s.live = true ∧ ∃ sys : Bool, ∃ band : Byte, ∃ cs : Vector (BitVec 12) 4, (∃ c ∈ cs.toList, s.windowGood sys c.toNat = false)) ∧
    (∃ s : State, Canonical s ∧ s.live = true ∧ ∃ sys : Bool, ∃ cs : Vector (BitVec 12) 2, (∃ c ∈ cs.toList, s.windowGood sys c.toNat = true)) ∧
    (∃ s : State, Canonical s ∧ s.live = true ∧ ∃ band : Byte, ∃ cs : Vector (BitVec 12) 4, s.clk.relocking = false) ∧
    (∃ s : State, Canonical s ∧ s.live = true ∧ ∃ band : Byte, ∃ cs : Vector (BitVec 12) 4, (∀ c ∈ cs.toList, s.windowGood true c.toNat = true) ∧ s.clk.relocking = true) ∧
    (∃ s : State, Canonical s ∧ s.live = true ∧ ∃ band : Byte, ∃ cs : Vector (BitVec 12) 4, s.clk.clnBandSearch = false) ∧
    (∃ s : State, Canonical s ∧ s.live = true ∧ ∃ band : Byte, ∃ cs : Vector (BitVec 12) 4, (∀ c ∈ cs.toList, s.windowGood false c.toNat = true) ∧ s.clk.clnBandSearch = true) ∧
    (∃ s : State, Canonical s ∧ s.live = true ∧ ∃ cs : Vector (BitVec 12) 2, (∀ c ∈ cs.toList, s.windowGood true c.toNat = false) ∧ (s.flag CLOCK.pg CLOCK.STATUS_SYS_LOCK = true ∨ s.flag CLOCK.pg CLOCK.STATUS_HOPPING = true)) ∧
    (∃ s : State, Canonical s ∧ s.live = true ∧ ∃ cs : Vector (BitVec 12) 2, s.flag CLOCK.pg CLOCK.STATUS_SYS_LOCK = false ∧ s.flag CLOCK.pg CLOCK.STATUS_HOPPING = false) ∧
    (∃ s : State, Canonical s ∧ s.live = true ∧ ∃ cs : Vector (BitVec 12) 2, (∀ c ∈ cs.toList, s.windowGood false c.toNat = false) ∧ s.flag CLOCK.pg CLOCK.STATUS_CLN_LOCK = true) ∧
    (∃ s : State, Canonical s ∧ s.live = true ∧ ∃ cs : Vector (BitVec 12) 2, s.flag CLOCK.pg CLOCK.STATUS_CLN_LOCK = false) ∧
    (∃ s : State, Canonical s ∧ s.live = true ∧ (s.clk.relocking = false ∨ s.clk.bandSearch = true)) ∧
    (∃ s : State, Canonical s ∧ s.live = true ∧ s.clk.relocking = true ∧ s.clk.bandSearch = false) ∧
    (∃ s : State, Canonical s ∧ s.live = true ∧ (s.clk.rootAbsent = false ∨ s.clk.clnBandSearch = true)) ∧
    (∃ s : State, Canonical s ∧ s.live = true ∧ s.clk.rootAbsent = true ∧ s.clk.clnBandSearch = false) ∧
    (∃ s : State, Canonical s ∧ s.live = true ∧ (s.flag CLOCK.pg CLOCK.STATUS_SUBST = true ∨ s.flag CLOCK.pg CLOCK.STATUS_SYS_LOCK = false)) ∧
    (∃ s : State, Canonical s ∧ s.live = true ∧ s.flag CLOCK.pg CLOCK.STATUS_SUBST = false ∧ s.flag CLOCK.pg CLOCK.STATUS_SYS_LOCK = true) :=
  ⟨⟨base 0, canon 0 (by decide), by decide +kernel, 0, trivial⟩,
    ⟨base 0, canon 0 (by decide), by decide +kernel, 0, by decide +kernel, [(0, 983), (1, 1024), (2, 1065)][1], List.getElem_mem (by decide), by decide +kernel⟩,
    ⟨base 0, canon 0 (by decide), by decide +kernel, false, 0x00#8, #v[0x3d7#12, 0x3d7#12, 0x3d7#12, 0x3d7#12], by decide +kernel⟩,
    ⟨base 0, canon 0 (by decide), by decide +kernel, false, #v[0x400#12, 0x400#12], by decide +kernel⟩,
    ⟨base 0, canon 0 (by decide), by decide +kernel, 0x00#8, #v[0x400#12, 0x400#12, 0x400#12, 0x400#12], by decide +kernel⟩,
    ⟨base 2, canon 2 (by decide), by decide +kernel, 0x00#8, #v[0x400#12, 0x400#12, 0x400#12, 0x400#12], by decide +kernel⟩,
    ⟨base 0, canon 0 (by decide), by decide +kernel, 0x00#8, #v[0x400#12, 0x400#12, 0x400#12, 0x400#12], by decide +kernel⟩,
    ⟨base 5, canon 5 (by decide), by decide +kernel, 0x00#8, #v[0x400#12, 0x400#12, 0x400#12, 0x400#12], by decide +kernel⟩,
    ⟨base 0, canon 0 (by decide), by decide +kernel, #v[0x000#12, 0x000#12], by decide +kernel⟩,
    ⟨base 3, canon 3 (by decide), by decide +kernel, #v[0x400#12, 0x400#12], by decide +kernel⟩,
    ⟨base 0, canon 0 (by decide), by decide +kernel, #v[0x000#12, 0x000#12], by decide +kernel⟩,
    ⟨base 6, canon 6 (by decide), by decide +kernel, #v[0x400#12, 0x400#12], by decide +kernel⟩,
    ⟨base 0, canon 0 (by decide), by decide +kernel⟩,
    ⟨base 3, canon 3 (by decide), by decide +kernel⟩,
    ⟨base 0, canon 0 (by decide), by decide +kernel⟩,
    ⟨base 4, canon 4 (by decide), by decide +kernel⟩,
    ⟨base 3, canon 3 (by decide), by decide +kernel⟩,
    ⟨base 0, canon 0 (by decide), by decide +kernel⟩⟩

/-- States and operands that meet the hypotheses of `ResetsAndTheirRelease`. -/
theorem test_w_ResetsAndTheirRelease :
    (∃ s : State, Canonical s) ∧
    (∃ s : State, Canonical s ∧ s.pwr.held = true ∧ s.rd RESET.pg RESET.CAUSE_CAUSE ≤ 2) ∧
    (∃ s : State, Canonical s ∧ s.pwr.held = false) ∧
    (∃ s : State, Canonical s ∧ (s.pwr.ignoring = true ∨ s.pwr.rstreq = true ∨ s.pwr.state = 4)) ∧
    (∃ s : State, Canonical s ∧ s.pwr.ignoring = false ∧ s.pwr.rstreq = false ∧ s.pwr.state ≠ 4) ∧
    (∃ s : State, Canonical s ∧ s.pwr.rstreq = false) ∧
    (∃ s : State, Canonical s ∧ s.pwr.rstreq = true) ∧
    (∃ s : State, Canonical s ∧ s.live = false) ∧
    (∃ s : State, Canonical s ∧ (s.pwr.ignoring = false ∨ s.pwr.state = 4)) ∧
    (∃ s : State, Canonical s ∧ s.pwr.ignoring = true ∧ s.pwr.state ≠ 4) ∧
    (∃ s : State, Canonical s ∧ ∃ ini : Initiator, s.admits ini RESET.pg 0x048 0xD1 = true) ∧
    (∃ s : State, Canonical s ∧ ∃ st : Straps, (s.pwr.held = false ∨ s.pwr.rstreq = true ∨ s.clk.rootAbsent = true)) ∧
    (∃ s : State, Canonical s ∧ ∃ st : Straps, s.pwr.held = true ∧ s.pwr.rstreq = false ∧ s.clk.rootAbsent = false) :=
  ⟨⟨base 0, canon 0 (by decide)⟩,
    ⟨base 11, canon 11 (by decide), by decide +kernel⟩,
    ⟨base 0, canon 0 (by decide), by decide +kernel⟩,
    ⟨base 12, canon 12 (by decide), by decide +kernel⟩,
    ⟨base 0, canon 0 (by decide), by decide +kernel⟩,
    ⟨base 0, canon 0 (by decide), by decide +kernel⟩,
    ⟨base 12, canon 12 (by decide), by decide +kernel⟩,
    ⟨base 11, canon 11 (by decide), by decide +kernel⟩,
    ⟨base 0, canon 0 (by decide), by decide +kernel⟩,
    ⟨base 13, canon 13 (by decide), by decide +kernel⟩,
    ⟨base 0, canon 0 (by decide), (Initiator.porchA), by decide +kernel⟩,
    ⟨base 0, canon 0 (by decide), { bootS := 0x3#3, porchA := true, porchB := false, devid := 0x2#2 }, by decide +kernel⟩,
    ⟨base 11, canon 11 (by decide), { bootS := 0x3#3, porchA := true, porchB := false, devid := 0x2#2 }, by decide +kernel⟩⟩

/-- States and operands that meet the hypotheses of `PowerStatesAndWake`. -/
theorem test_w_PowerStatesAndWake :
    (∃ s : State, ∃ ini : Initiator, Canonical s ∧ ∃ k : Nat, s.flag POWER.pg POWER.STATUS_BUSY = false ∧ s.rd REDUN.pg REDUN.STATUS_STATE = 0 ∧ k < 4) ∧
    (∃ s : State, ∃ ini : Initiator, Canonical s ∧ s.admits ini POWER.pg 0x044 0 = true) ∧
    (∃ s : State, ∃ ini : Initiator, Canonical s ∧ s.admits ini POWER.pg 0x044 1 = true) ∧
    (∃ s : State, ∃ ini : Initiator, Canonical s ∧ s.admits ini POWER.pg 0x044 2 = true) ∧
    (∃ s : State, ∃ ini : Initiator, Canonical s ∧ s.admits ini POWER.pg 0x044 3 = true) ∧
    (∃ s : State, ∃ ini : Initiator, Canonical s ∧ s.admits ini POWER.pg 0x044 4 = true) ∧
    (∃ s : State, ∃ ini : Initiator, Canonical s) ∧
    (∃ s : State, ∃ ini : Initiator, Canonical s ∧ s.noneWaits = true ∧ (s.pwr.target = none ∨ s.pwr.keepDue = true)) ∧
    (∃ s : State, ∃ ini : Initiator, Canonical s ∧ s.noneWaits = true ∧ s.live = true ∧ s.pwr.stopDue = false ∧ s.pwr.keepDue = false ∧ s.someRun = false ∧ s.pwr.wakeDue = none ∧ ∃ k : Nat, s.pwr.target = some k ∧ k ≤ 4) ∧
    (∃ s : State, ∃ ini : Initiator, Canonical s ∧ ∃ src : Fin 3, (s.pwr.held = true ∨ s.wakeEnabled src = false)) ∧
    (∃ s : State, ∃ ini : Initiator, Canonical s ∧ ∃ src : Fin 3, s.pwr.held = false ∧ s.wakeEnabled src = true ∧ s.pwr.state = 3) :=
  ⟨⟨base 0, Initiator.porchA, canon 0 (by decide), 0, by decide +kernel⟩,
    ⟨base 6, (Initiator.porchA), canon 6 (by decide), by decide +kernel⟩,
    ⟨base 6, (Initiator.porchA), canon 6 (by decide), by decide +kernel⟩,
    ⟨base 6, (Initiator.porchA), canon 6 (by decide), by decide +kernel⟩,
    ⟨base 6, (Initiator.porchA), canon 6 (by decide), by decide +kernel⟩,
    ⟨base 6, (Initiator.porchA), canon 6 (by decide), by decide +kernel⟩,
    ⟨base 0, Initiator.porchA, canon 0 (by decide)⟩,
    ⟨base 0, Initiator.porchA, canon 0 (by decide), by decide +kernel⟩,
    ⟨base 14, Initiator.porchA, canon 14 (by decide), by decide +kernel, by decide +kernel, by decide +kernel, by decide +kernel, by decide +kernel, by decide +kernel, 2, by decide +kernel⟩,
    ⟨base 0, (Initiator.porchA), canon 0 (by decide), 2, by decide +kernel⟩,
    ⟨base 17, (Initiator.porchA), canon 17 (by decide), 0, by decide +kernel⟩⟩

end W36

namespace W37
def md (m : Nat) (s : State) : State := s.wr SYS.pg SYS.MODE_MODE 0 m
def key0 (i : Initiator) (s : State) : State := s.wr KEYRACK.pg KEYRACK.KEY_BITS 0 (ownerId i)
def cw (f : Fld) (v : Nat) (s : State) : State := s.wr CELLAR.pg f 0 v
def dw (f : Fld) (v : Nat) (s : State) : State := s.wr DEBUG.pg f 0 v
def xw (f : Fld) (v : Nat) (s : State) : State := s.wr XFLASH.pg f 0 v
def mw (f : Fld) (v : Nat) (s : State) : State := s.wr METRO.pg f 0 v
def lc1 (s : State) : State := s.otpBurnBits 0 4 15
def lc2 (s : State) : State := (lc1 s).otpBurnBits 4 4 15
def lc3 (s : State) : State := (lc2 s).otpBurnBits 8 4 15
def src (s : State) : State := cw CELLAR.SRC_ADDR 0x10000100 (s.pokeBytes 0x10000100 ((List.range 96).map fun i => BitVec.ofNat 8 (37*i+1)))
def cfgk (s : State) : State := key0 .porchA (md 2 s)
def sc (f : SecState → SecState) (s : State) : State := { s with sec := f s.sec }
def cmd (op r e : Nat) (s : State) : State := sc (fun x => { x with cmd := some (op, r, e) }) s
def sess (m : Nat) (s : State) : State := dw DEBUG.SESSION_GRANTED m (dw DEBUG.STATUS_SESSION_OPEN 1 (sc (fun x => { x with session := some (s.cyc, 60) }) s))
def mkW (op : Nat) : BitVec 64 := BitVec.ofNat 64 (op*2^58)
def aRun : LeRun := { prog := 1, origin := 16, pc := 17, cycle := 1, limset := 1 }
def hl (b : Bool) (s : State) : State := ((s.setLpsWord 17 (mkW 0)).wr (LE.pg 3) LE.STATUS_STATE 0 1).setLe 3 { halted := b, run := some aRun, stop := true }
def img (t n : Nat) : Image := { type := t, svn := n, entry := 0, hash16 := [], hash32 := [] }
def fop (c r o a l : Nat) (s : State) : State := xw XFLASH.OP_STATUS_BUSY 1 (sc (fun x => { x with flashOp := some ⟨c, r, o, a, l⟩, flash := x.flash.put 5000 0x3C }) (src s))
def auth (k m d : Nat) (s : State) : State := dw DEBUG.AUTH_SCOPE m (dw DEBUG.AUTH_KEYSEL k (dw DEBUG.AUTH_DURATION_S d (sc (fun x => { x with challenge := some s.cyc }) s)))
def returnSig : Nat := 0x090841bb3bcd0c482d0e19c02d43d87ff3ec1bccdc57a0a7a751b6eb3ed7679d5cc6950ea430542290af02c30dc5ffdc1738be5f0defc780381b8098470f0a10
def h0 : State := { hostBase with sramUe := [], sramCe := [], modes := { hostBase.modes with causes := [] } }
def opn (k : Nat) (ok : Bool) : State := dw DEBUG.STATUS_AUTH_BUSY 1 (sc (fun x => { x with failures := k, auth := some { scope := 3, duration := 5, keanex := false, ok := ok } }) (lc1 h0))
def words (f : Fld) (n v : Nat) (s : State) : State := (List.range n).foldl (fun s i => s.wr DEBUG.pg f i (v / 2 ^ (32 * i))) s
def signed (s : State) : State :=
  words DEBUG.PUBKEY_BYTES 8 W22.pub (words DEBUG.SIG_BYTES 16 returnSig (dw DEBUG.AUTH_RETURN 1 (auth 1 0 5 (sc (fun x => { x with keanex := [W22.keyHash] }) s))))
def ready2 (s : State) : State := mw METRO.STATUS_CAL_OK 1 (mw METRO.STATUS_FW_OK 1 { s.wr PANTRY.pg PANTRY.STATUS_READY 0 1 with metro := { s.metro with meter := s.metro.meter.map fun x => { x with sess := none } } })
def nn (s : State) : State := (List.range 8).foldl (fun s i => s.wr ATTEST.pg ATTEST.NONCE_BYTES i (1000*i+7)) s
def bases : List State := [h0, nn (sc (fun x => { x with attest := some 0 }) (lc1 h0)), src (cfgk h0), src (key0 .porchA (md 5 h0)), cfgk h0, lc1 (cfgk h0), lc2 (cfgk h0), lc3 (cfgk h0), lc1 (key0 .porchA (md 5 h0)), lc1 (key0 .porchA (md 3 h0)),
  dw DEBUG.AUTH_RETURN 1 (auth 1 3 5 (lc1 (cfgk h0))), dw DEBUG.AUTH_RETURN 1 (auth 1 3 5 (lc2 (cfgk h0))), cw CELLAR.CMD_STATUS_BUSY 1 (cfgk h0), sc (fun x => { x with images := [img 1 3, img 2 5, img 2 9] }) (cfgk h0),
  key0 .porchA (md 1 h0), cw CELLAR.STATUS_RECOVERY 1 (key0 .porchA (md 1 h0)), key0 .supA (cfgk h0)] ++
  ((List.range 6).flatMap fun op => [cmd (op+1) 0 0 h0, cmd (op+1) 3 7 (lc1 h0), cmd (op+1) 0 0 (lc1 h0)]) ++
  [sc (fun x => { x with attest := some 0 }) (lc1 h0), sc (fun x => { x with attest := some 1 }) (lc1 h0), dw DEBUG.HALTED_SEC 1 h0, h0.wr ATTEST.pg ATTEST.RESULT_BUSY 0 1,
   auth 0 1 60 (lc2 h0), auth 0 8 60 (lc1 h0), auth 1 15 60 h0, auth 0 1 60 (lc3 h0), auth 1 1 0 h0, dw DEBUG.STATUS_LOCKOUT 1 h0, sc (fun x => {x with failures := 2}) (auth 0 4 6 (lc2 h0)),
   sess 15 (hl false h0), sess 15 (hl true h0), sess 2 (hl true (md 5 h0)), sess 2 (hl false (md 5 h0)), sess 1 (md 6 h0), sess 15 (dw DEBUG.HALTED_SEC 1 (dw DEBUG.HALTED_SUPA 1 (sc (fun x => {x with lsHaltA := true}) h0))), sess 15 (dw DEBUG.HALTED_SUPB 1 h0),
   xw XFLASH.OP_STATUS_BUSY 1 h0, xw XFLASH.OP_STATUS_BUSY 0 h0] ++ ((List.range 5).flatMap fun c => [fop (c+1) 0 5000 0x10000100 20 h0, fop (c+1) 3 5000 0x10000100 20 h0]) ++
  [{ opn 0 false with pending := [] }, { opn 2 true with pending := [] }, signed (lc1 (cfgk h0)),
   { sc (fun x => { x with conflict := true }) (src (cfgk h0)) with sramUe := [], sramCe := [] }, ready2 (lc1 (cfgk h0)), sc (fun x => { x with conflict := true }) (ready2 (lc1 (cfgk h0)))]

def base (k : Nat) : State := bases.getD k State.reset
theorem canon : ∀ k ∈ [0, 1, 17, 46, 55, 66], Canonical (base k) := canon_of (by decide +kernel)

/-- States and operands that meet the hypotheses of `CellarCommandsAndAttestation`. -/
theorem test_w_CellarCommandsAndAttestation :
    (∃ s : State, ∃ ini : Initiator, Canonical s ∧ s.admits ini CELLAR.pg 0x04C 1 = true) ∧
    (∃ s : State, ∃ ini : Initiator, Canonical s ∧ s.admits ini CELLAR.pg 0x04C 2 = true) ∧
    (∃ s : State, ∃ ini : Initiator, Canonical s ∧ s.admits ini CELLAR.pg 0x04C 3 = true) ∧
    (∃ s : State, ∃ ini : Initiator, Canonical s ∧ s.challengeFresh = false) ∧
    (∃ s : State, ∃ ini : Initiator, Canonical s ∧ ∃ c : Fin 4, s.admits ini CELLAR.pg 0x04C (4 + 16 * c.val) = true) ∧
    (∃ s : State, ∃ ini : Initiator, Canonical s ∧ ∃ slotB : Bool, ∃ v : List (Fin 16), s.admits ini CELLAR.pg 0x04C (5 + 16 * bit01 slotB) = true) ∧
    (∃ s : State, ∃ ini : Initiator, Canonical s ∧ s.admits ini CELLAR.pg 0x04C 6 = true) ∧
    (∃ s : State, ∃ ini : Initiator, Canonical s ∧ s.live = true ∧ ∃ burnOk : Bool, s.sec.cmd = none) ∧
    (∃ s : State, ∃ ini : Initiator, Canonical s ∧ s.live = true ∧ ∃ burnOk : Bool, ∃ op : Nat, ∃ r : Nat, ∃ e : Nat, s.sec.cmd = some (op, r, e)) ∧
    (∃ s : State, ∃ ini : Initiator, Canonical s ∧ s.admits ini ATTEST.pg 0x060 1 = true) ∧
    (∃ s : State, ∃ ini : Initiator, Canonical s ∧ s.live = true ∧ s.sec.attest = none) ∧
    (∃ s : State, ∃ ini : Initiator, Canonical s ∧ s.live = true ∧ ∃ c : Nat, s.sec.attest = some c) :=
  ⟨⟨base 0, (Initiator.porchA), canon 0 (by decide), by decide +kernel⟩,
    ⟨base 0, (Initiator.porchA), canon 0 (by decide), by decide +kernel⟩,
    ⟨base 0, Initiator.porchA, canon 0 (by decide), by decide +kernel⟩,
    ⟨base 0, Initiator.porchA, canon 0 (by decide), by decide +kernel⟩,
    ⟨base 0, (Initiator.porchA), canon 0 (by decide), 0, by decide +kernel⟩,
    ⟨base 0, Initiator.porchA, canon 0 (by decide), false, [], by decide +kernel⟩,
    ⟨base 0, Initiator.porchA, canon 0 (by decide), by decide +kernel⟩,
    ⟨base 0, (Initiator.porchA), canon 0 (by decide), by decide +kernel, false, by decide +kernel⟩,
    ⟨base 17, (Initiator.porchA), canon 17 (by decide), by decide +kernel, false, 1, 0, 0, by decide +kernel⟩,
    ⟨base 0, (Initiator.porchA), canon 0 (by decide), by decide +kernel⟩,
    ⟨base 0, (Initiator.porchA), canon 0 (by decide), by decide +kernel⟩,
    ⟨base 1, (Initiator.porchA), canon 1 (by decide), by decide +kernel, 0, by decide +kernel⟩⟩

/-- States and operands that meet the hypotheses of `DebugSessionsAndFlash`. -/
theorem test_w_DebugSessionsAndFlash :
    (∃ s : State, ∃ ini : Initiator, Canonical s ∧ s.admits ini DEBUG.pg 0x060 1 = true) ∧
    (∃ s : State, ∃ ini : Initiator, Canonical s ∧ s.admits ini DEBUG.pg 0x0C8 1 = true) ∧
    (∃ s : State, ∃ ini : Initiator, Canonical s ∧ s.live = true ∧ s.pending = [] ∧ ∃ o : AuthOpen, s.sec.auth = some o) ∧
    (∃ s : State, ∃ ini : Initiator, Canonical s ∧ s.live = true) ∧
    (∃ s : State, ∃ ini : Initiator, Canonical s ∧ s.admits ini DEBUG.pg 0x0D0 1 = true ∧ s.flag DEBUG.pg DEBUG.STATUS_SESSION_OPEN = false) ∧
    (∃ s : State, ∃ ini : Initiator, Canonical s ∧ s.admits ini DEBUG.pg 0x0D0 1 = true ∧ s.flag DEBUG.pg DEBUG.STATUS_SESSION_OPEN = true) ∧
    (∃ s : State, ∃ ini : Initiator, Canonical s ∧ s.live = true ∧ s.flag DEBUG.pg DEBUG.STATUS_SESSION_OPEN = false) ∧
    (∃ s : State, ∃ ini : Initiator, Canonical s ∧ s.live = true ∧ s.flag DEBUG.pg DEBUG.STATUS_SESSION_OPEN = true) ∧
    (∃ s : State, ∃ ini : Initiator, Canonical s ∧ ∃ mask : BitVec 16, ∃ n : Fin 16, s.admits ini DEBUG.pg 0x0D8 mask.toNat = true) ∧
    (∃ s : State, ∃ ini : Initiator, Canonical s ∧ ∃ mask : BitVec 16, ∃ n : Fin 16, s.admits ini DEBUG.pg 0x0DC mask.toNat = true) ∧
    (∃ s : State, ∃ ini : Initiator, Canonical s ∧ ∃ mask : BitVec 16, ∃ n : Fin 16, s.admits ini DEBUG.pg 0x0E0 n.val = true) ∧
    (∃ s : State, ∃ ini : Initiator, Canonical s ∧ ∃ p : Pair, s.live = true ∧ (s.granted 0 = false ∨ s.flag DEBUG.pg (haltedFld p) = true)) ∧
    (∃ s : State, ∃ ini : Initiator, Canonical s ∧ ∃ p : Pair, s.live = true ∧ s.granted 0 = true ∧ s.flag DEBUG.pg (haltedFld p) = false) ∧
    (∃ s : State, ∃ ini : Initiator, Canonical s ∧ s.live = true ∧ s.granted 2 = true ∧ s.flag DEBUG.pg DEBUG.HALTED_SEC = false) ∧
    (∃ s : State, ∃ ini : Initiator, Canonical s ∧ s.live = true ∧ s.granted 3 = true ∧ s.flag DEBUG.pg DEBUG.HALTED_MET = false) ∧
    (∃ s : State, ∃ ini : Initiator, Canonical s ∧ s.live = true ∧ s.granted 2 = false) ∧
    (∃ s : State, ∃ ini : Initiator, Canonical s ∧ s.live = true ∧ s.granted 3 = false) ∧
    (∃ s : State, ∃ ini : Initiator, Canonical s ∧ s.live = true ∧ ∃ ps : List Pair, ∃ cs : List Core, haltListsOk ps cs = true) ∧
    (∃ s : State, ∃ ini : Initiator, Canonical s ∧ ∃ id : BitVec 24, s.admits ini XFLASH.pg 0x044 (2 ^ 31 + 1) = true) ∧
    (∃ s : State, ∃ ini : Initiator, Canonical s ∧ s.admits ini XFLASH.pg 0x044 (2 ^ 31 + 2) = true) ∧
    (∃ s : State, ∃ ini : Initiator, Canonical s ∧ s.admits ini XFLASH.pg 0x044 (2 ^ 31 + 3) = true) ∧
    (∃ s : State, ∃ ini : Initiator, Canonical s ∧ s.admits ini XFLASH.pg 0x044 (2 ^ 31 + 4) = true) ∧
    (∃ s : State, ∃ ini : Initiator, Canonical s ∧ s.admits ini XFLASH.pg 0x044 (2 ^ 31 + 5) = true) ∧
    (∃ s : State, ∃ ini : Initiator, Canonical s ∧ ∃ ok : Bool, s.live = true ∧ s.sec.flashOp = none) ∧
    (∃ s : State, ∃ ini : Initiator, Canonical s ∧ ∃ ok : Bool, s.live = true ∧ ∃ op : FlashOp, s.sec.flashOp = some op ∧ 1 ≤ op.code ∧ op.code ≤ 5) :=
  ⟨⟨base 0, (Initiator.porchA), canon 0 (by decide), by decide +kernel⟩,
    ⟨base 0, Initiator.porchA, canon 0 (by decide), by decide +kernel⟩,
    ⟨base 66, Initiator.porchA, canon 66 (by decide), by decide +kernel, by decide +kernel, { scope := 3, duration := 5, keanex := false, ok := true }, by decide +kernel⟩,
    ⟨base 0, (Initiator.porchA), canon 0 (by decide), by decide +kernel⟩,
    ⟨base 0, (Initiator.porchA), canon 0 (by decide), by decide +kernel⟩,
    ⟨base 46, (Initiator.porchA), canon 46 (by decide), by decide +kernel⟩,
    ⟨base 0, (Initiator.porchA), canon 0 (by decide), by decide +kernel⟩,
    ⟨base 46, (Initiator.porchA), canon 46 (by decide), by decide +kernel⟩,
    ⟨base 0, (Initiator.porchA), canon 0 (by decide), 0x0008#16, 3, by decide +kernel⟩,
    ⟨base 0, (Initiator.porchA), canon 0 (by decide), 0x0008#16, 3, by decide +kernel⟩,
    ⟨base 0, (Initiator.porchA), canon 0 (by decide), 0x0008#16, 3, by decide +kernel⟩,
    ⟨base 0, (Initiator.porchA), canon 0 (by decide), (Pair.A), by decide +kernel⟩,
    ⟨base 46, (Initiator.porchA), canon 46 (by decide), (Pair.A), by decide +kernel⟩,
    ⟨base 46, (Initiator.porchA), canon 46 (by decide), by decide +kernel⟩,
    ⟨base 46, (Initiator.porchA), canon 46 (by decide), by decide +kernel⟩,
    ⟨base 0, (Initiator.porchA), canon 0 (by decide), by decide +kernel⟩,
    ⟨base 0, (Initiator.porchA), canon 0 (by decide), by decide +kernel⟩,
    ⟨base 0, (Initiator.porchA), canon 0 (by decide), by decide +kernel, [], [], by decide +kernel⟩,
    ⟨base 0, (Initiator.porchA), canon 0 (by decide), 0x000000#24, by decide +kernel⟩,
    ⟨base 0, (Initiator.porchA), canon 0 (by decide), by decide +kernel⟩,
    ⟨base 0, (Initiator.porchA), canon 0 (by decide), by decide +kernel⟩,
    ⟨base 0, (Initiator.porchA), canon 0 (by decide), by decide +kernel⟩,
    ⟨base 0, (Initiator.porchA), canon 0 (by decide), by decide +kernel⟩,
    ⟨base 0, (Initiator.porchA), canon 0 (by decide), false, by decide +kernel⟩,
    ⟨base 55, (Initiator.porchA), canon 55 (by decide), false, by decide +kernel, { code := 1, result := 0, off := 5000, sram := 268435712, len := 20 }, by decide +kernel⟩⟩

end W37

namespace W38
def md (m : Nat) (s : State) : State := s.wr SYS.pg SYS.MODE_MODE 0 m
def kw (f : Fld) (v : Nat) (s : State) (i : Nat := 0) : State := s.wr CLOCK.pg f i v
def ws (f : Fld) (v : Nat) (s : State) (i : Nat := 0) : State := s.wr POWER.pg f i v
def b3 : State := md 3 hostBase
def lk (s : State) : State := kw CLOCK.STATUS_SYS_LOCK 1 <| kw CLOCK.STATUS_CLN_LOCK 1 <| kw CLOCK.STATUS_SUBST 0 <| kw CLOCK.STATUS_HOPPING 0 s
def key0 (i : Initiator) (s : State) : State := s.wr KEYRACK.pg KEYRACK.KEY_BITS 0 (ownerId i)
def pwrs (f : PowerState → PowerState) (s : State) : State := { s with pwr := f s.pwr }
def bases : List State := [lk b3, kw CLOCK.SYSCFG_SS_MODE 1 (lk b3), kw CLOCK.STATUS_HOPPING 1 { lk b3 with clk := { relocking := true, bandSearch := true } }, { kw CLOCK.STATUS_SUBST 1 (kw CLOCK.STATUS_SYS_LOCK 0 (lk b3)) with clk := { relocking := true } },
  { lk b3 with clk := { rootAbsent := true } }, { lk b3 with clk := { rootAbsent := true, clnBandSearch := true } }, key0 .porchA (md 3 b3), key0 .porchB (md 7 b3), key0 .supA (md 3 b3), key0 .porchA (md 5 b3),key0 .porchA (md 2 b3),
  pwrs (fun (p : PowerState) => { p with held := true }) b3, pwrs (fun (p : PowerState) => { p with held := true, rstreq := true }) (b3.wr RESET.pg RESET.CAUSE_CAUSE 0 3), pwrs (fun (p : PowerState) => { p with ignoring := true }) b3,
  pwrs (fun (p : PowerState) => { p with target := some 2, stopDue := false, keepDue := false }) (lk b3), pwrs (fun (p : PowerState) => { p with target := some 0, state := 2 }) (lk b3), pwrs (fun (p : PowerState) => { p with target := some 3, state := 1 }) (lk b3), pwrs (fun (p : PowerState) => { p with state := 3 }) (ws POWER.WAKECFG_TRIG0 1 (lk b3)),
  ws POWER.STATUS_BUSY 0 (key0 .porchA (pwrs (fun (p : PowerState) => { p with state := 1 }) b3)), (key0 .porchB (b3.wr REDUN.pg REDUN.STATUS_STATE 0 2))] ++
  [(let s := (b3.wr (GDRV.pg 3) GDRV.STATUS_STATE 0 2).setLeg 3 { cmd := some { start := 0, per := 2000, low := 0, on := 900, high := some (950, 3000), off := 3000, tail := 50 } }; { s with cyc := 1000 }),
   (b3.wr (GDRV.pg 3) GDRV.STATUS_STATE 0 2).setLeg 3 { pulse := some b3.cyc },
   { (b3.wr (GDRV.pg 3) GDRV.STATUS_STATE 0 gBRAKE).setLeg 3 { brake := some (0, 50) } with cyc := 10 },
   { (b3.wr (GDRV.pg 3) GDRV.STATUS_STATE 0 gBRAKE).setLeg 3 { brake := some (0, 50) } with cyc := 1000 }]

def base (k : Nat) : State := bases.getD k State.reset
theorem canon : ∀ k ∈ [0, 7, 11, 20, 21], Canonical (base k) := canon_of (by decide +kernel)

/-- States and operands that meet the hypotheses of `BallsShowTheirStates`. -/
theorem test_w_BallsShowTheirStates :
    (∃ s : State, s.ballsHeld = true ∧ ∃ n : Fin 16, ∃ i : Nat, True) ∧
    (∃ s : State, s.ballsHeld = true ∧ ∃ p : Fin 8, ∃ b : Bool, True) ∧
    (∃ s : State, s.ballsHeld = true ∧ ∃ k : Fin 4, True) ∧
    (∃ s : State, s.ballsHeld = true) ∧
    (∃ s : State, s.ballsHeld = true ∧ ∃ p : HostPort, True) ∧
    (∃ s : State, s.ballsHeld = true ∧ ∃ p : HostPort, ∃ f : Option (BitVec 8 × Nat), True) ∧
    (∃ s : State, s.ballsHeld = true ∧ ∃ n : Fin 12, True) ∧
    (∃ s : State, s.ballsHeld = false ∧ ∃ p : HostPort, s.isQspi p = true) ∧
    (∃ s : State, s.ballsHeld = false ∧ ∃ p : HostPort, s.isQspi p = true ∧ ∃ k : Nat, True) ∧
    (∃ s : State, s.ballsHeld = false ∧ s.mode = mBOOT ∧ ∃ n : Fin 16, ∃ i : Nat, True) ∧
    (∃ s : State, s.ballsHeld = false ∧ s.mode = mBOOT ∧ ∃ p : Fin 8, ∃ b : Bool, True) ∧
    (∃ s : State, s.ballsHeld = false ∧ s.mode = mBOOT ∧ s.roleDrives = true ∧ s.redun.holdCp = false ∧ ∃ p : Fin 8, True) ∧
    (∃ s : State, s.ballsHeld = false ∧ s.mode = mBOOT ∧ ∃ k : Fin 4, True) ∧
    (∃ s : State, s.ballsHeld = false ∧ s.mode = mBOOT) ∧
    (∃ s : State, s.ballsHeld = false ∧ (s.mode = mCONFIG ∨ s.mode = mSAFE) ∧ ∃ p : Fin 8, ∃ b : Bool, True) ∧
    (∃ s : State, s.ballsHeld = false ∧ (s.mode = mCONFIG ∨ s.mode = mSAFE) ∧ s.roleDrives = true ∧ s.redun.holdCp = false ∧ ∃ p : Fin 8, True) ∧
    (∃ s : State, s.ballsHeld = false ∧ (s.rd REDUN.pg REDUN.ROLE_ROLE = 2 ∨ s.rd REDUN.pg REDUN.ROLE_ROLE = 4) ∧ ∃ n : Fin 16, ∃ i : Nat, True) ∧
    (∃ s : State, s.ballsHeld = false ∧ (s.rd REDUN.pg REDUN.ROLE_ROLE = 2 ∨ s.rd REDUN.pg REDUN.ROLE_ROLE = 4) ∧ s.redun.passCp = false ∧ ∃ p : Fin 8, True) ∧
    (∃ s : State, s.ballsHeld = false ∧ (s.rd REDUN.pg REDUN.ROLE_ROLE = 2 ∨ s.rd REDUN.pg REDUN.ROLE_ROLE = 4) ∧ s.redun.passCdo = 0 ∧ ∃ p : Fin 8, ∃ b : Bool, True) ∧
    (∃ s : State, s.pwr.held = false ∧ s.pwr.state = 0 ∧ s.mode ≠ mBOOT ∧ ∃ n : Fin 16, ∃ i : Nat, (s.rd REDUN.pg REDUN.ROLE_ROLE = 0 ∨ s.rd REDUN.pg REDUN.ROLE_ROLE = 1 ∨ s.rd REDUN.pg REDUN.ROLE_ROLE = 3) ∧ (s.pwmUnit n).rootWait = false ∧ s.flag (PWM.pg n) PWM.STATUS_DRIVING = true ∧ bitOf (s.rd (PWM.pg n) PWM.OUTCFG_OUTEN) i = true) ∧
    (∃ s : State, s.pwr.held = false ∧ s.pwr.state = 0 ∧ s.mode ≠ mBOOT ∧ ∃ n : Fin 12, s.legState n ≠ gRUN) ∧
    (∃ s : State, s.pwr.held = false ∧ s.pwr.state = 0 ∧ s.mode ≠ mBOOT ∧ ∃ n : Fin 12, s.legState n ≠ gRUN ∧ s.legState n ≠ gBRAKE) ∧
    (∃ s : State, s.pwr.held = false ∧ s.pwr.state = 0 ∧ s.mode ≠ mBOOT ∧ ∃ n : Fin 12, s.legState n = gBRAKE ∧ ∃ t : Word64, ∃ w : Rat, (s.legUnit n).brake = some (t, w)) ∧
    (∃ s : State, s.pwr.held = false ∧ s.pwr.state = 0 ∧ s.mode ≠ mBOOT ∧ ∃ n : Fin 12, s.legState n = gRUN ∧ s.flag (GDRV.pg n) GDRV.STATUS_GD_BOOT_UV = false ∧ s.legPulse n = none ∧ ∃ c : LegCmd, ∃ at_ : Rat, s.legNow n = some (c, at_)) ∧
    (∃ s : State, s.pwr.held = false ∧ s.pwr.state = 0 ∧ s.mode ≠ mBOOT ∧ ∃ n : Fin 12, s.legState n = gRUN ∧ ∃ at_ : Rat, s.legPulse n = some at_) ∧
    (∃ s : State, s.pwr.held = false ∧ s.pwr.state = 0 ∧ s.mode ≠ mBOOT ∧ ∃ n : Fin 12, ∃ per : Nat, ∃ len : Nat, ∃ c : LegCmd, (s.legCommand n per len).1 = c ∧ ∃ a, ∃ b, c.high = some (a, b)) ∧
    (∃ s : State, s.pwr.held = false ∧ s.pwr.state = 0 ∧ s.mode ≠ mBOOT ∧ ∃ n : Fin 12, ∃ per : Nat, ∃ len : Nat, ∃ c : LegCmd, (s.legCommand n per len).1 = c ∧ ∃ a, ∃ b, c.high = some (a, b) ∧ c.low < c.on) ∧
    (∃ s : State, s.pwr.held = false ∧ s.pwr.state = 0 ∧ s.mode ≠ mBOOT ∧ ∃ p : HostPort, True) ∧
    (∃ s : State, s.pwr.held = false ∧ s.pwr.state = 0 ∧ s.mode ≠ mBOOT) :=
  ⟨⟨base 11, by decide +kernel, 0, 0, trivial⟩,
    ⟨base 11, by decide +kernel, 0, false, trivial⟩,
    ⟨base 11, by decide +kernel, 0, trivial⟩,
    ⟨base 11, by decide +kernel⟩,
    ⟨base 11, by decide +kernel, (HostPort.A), trivial⟩,
    ⟨base 11, by decide +kernel, HostPort.A, some (0x09#8, 0), trivial⟩,
    ⟨base 11, by decide +kernel, 0, trivial⟩,
    ⟨base 0, by decide +kernel, HostPort.A, by decide +kernel⟩,
    ⟨base 0, by decide +kernel, HostPort.A, by decide +kernel, 0, trivial⟩,
    ⟨(liveBase.wr SYS.pg SYS.MODE_MODE 0 1), by decide +kernel, by decide +kernel, 0, 7, trivial⟩,
    ⟨(liveBase.wr SYS.pg SYS.MODE_MODE 0 1), by decide +kernel, by decide +kernel, 7, true, trivial⟩,
    ⟨(liveBase.wr SYS.pg SYS.MODE_MODE 0 1), by decide +kernel, by decide +kernel, by decide +kernel, by decide +kernel, 7, trivial⟩,
    ⟨(liveBase.wr SYS.pg SYS.MODE_MODE 0 1), by decide +kernel, by decide +kernel, 3, trivial⟩,
    ⟨(liveBase.wr SYS.pg SYS.MODE_MODE 0 1), by decide +kernel⟩,
    ⟨base 7, by decide +kernel, by decide +kernel, 0, false, trivial⟩,
    ⟨base 7, by decide +kernel, by decide +kernel, by decide +kernel, by decide +kernel, 0, trivial⟩,
    ⟨(hostBase.wr REDUN.pg REDUN.ROLE_ROLE 0 2), by decide +kernel, by decide +kernel, 0, 7, trivial⟩,
    ⟨(hostBase.wr REDUN.pg REDUN.ROLE_ROLE 0 4), by decide +kernel, by decide +kernel, by decide +kernel, 7, trivial⟩,
    ⟨(hostBase.wr REDUN.pg REDUN.ROLE_ROLE 0 2), by decide +kernel, by decide +kernel, by decide +kernel, 0, false, trivial⟩,
    ⟨(hostBase.wr (PWM.pg 15) PWM.STATUS_DRIVING 0 1).wr (PWM.pg 15) PWM.OUTCFG_OUTEN 0 0x80, by decide +kernel, by decide +kernel, by decide +kernel, 15, 7, by decide +kernel⟩,
    ⟨base 0, by decide +kernel, by decide +kernel, by decide +kernel, 0, by decide +kernel⟩,
    ⟨base 0, by decide +kernel, by decide +kernel, by decide +kernel, 0, by decide +kernel⟩,
    ⟨base 22, by decide +kernel, by decide +kernel, by decide +kernel, 3, by decide +kernel, 0x0000000000000000#64, 50, by decide +kernel⟩,
    ⟨base 20, by decide +kernel, by decide +kernel, by decide +kernel, 3, by decide +kernel, by decide +kernel, by decide +kernel, { start := 0x0000000000000000#64, per := 2000, low := 0, on := 900, high := some (950, 3000), off := 3000, tail := 50 }, 740, by decide +kernel⟩,
    ⟨base 21, by decide +kernel, by decide +kernel, by decide +kernel, 3, by decide +kernel, 0, by decide +kernel⟩,
    ⟨base 0, by decide +kernel, by decide +kernel, by decide +kernel, 0, 1, 1, _, rfl, 0, (243 : Rat)/128, by decide +kernel⟩,
    ⟨base 0, by decide +kernel, by decide +kernel, by decide +kernel, 0, 12, 11, _, rfl, 21, 23, by decide +kernel⟩,
    ⟨base 0, by decide +kernel, by decide +kernel, by decide +kernel, (HostPort.A), trivial⟩,
    ⟨base 0, by decide +kernel⟩⟩

end W38

end Sys2Proof.Tests
end

/-!
PROOFS. The Keyrack (R88 to R99): the rules of one register write, of a refused write and of an interrupt, then what a read and the
writes of the Keyrack do to the holders, and the statement `Obligations.Keyrack` assembled from them.
-/
namespace Sys2Proof.Machine

/-! ### One register write, a refused write, an interrupt -/

/-- A write leaves every entry of the register file but its own. -/
theorem State.get_wr_ne {s : State} (h : s.regs.wf = true) {pg : Nat} {f : Fld} {i v k : Nat} (hk : k ≠ f.key pg i) :
    (s.wr pg f i v).regs.get k = s.regs.get k := by
  rw [State.wr_regs, Store.get_put h, if_neg hk]

theorem State.sameRegsBut_wr {s : State} (h : s.regs.wf = true) (pg : Nat) (f : Fld) (i v : Nat) :
    sameRegsBut [f.key pg i] s (s.wr pg f i v) :=
  fun _ hk => State.get_wr_ne h (List.ne_of_not_mem_cons hk)

theorem ownerId_lt (ini : Initiator) : ownerId ini < 2 ^ 8 := by
  cases ini <;> simp [ownerId]

theorem ownerId_ne_zero (ini : Initiator) : ownerId ini ≠ 0 := by
  cases ini <;> simp [ownerId]

/-- `CFG_ERROR` shows what refused the write (R100, R101). -/
theorem State.refusedWith_cfgErr {s : State} (h : s.regs.wf = true) (pg : Nat) {code off : Nat} (ini : Initiator)
    (hc : code < 2 ^ 8) (ho : off < 2 ^ 12) : (s.cfgErr pg code off ini).refusedWith pg code off ini := by
  have h1 : (s.wr pg HDR.CFG_ERROR_CODE 0 code).regs.wf = true := State.wr_wf h
  have h2 : ((s.wr pg HDR.CFG_ERROR_CODE 0 code).wr pg HDR.CFG_ERROR_OFFSET 0 off).regs.wf = true := State.wr_wf h1
  unfold State.refusedWith State.cfgErr
  refine ⟨?_, ?_, ?_⟩
  · rw [State.rd_wr_ne h2 (Fld.key_ne (by decide) pg), State.rd_wr_ne h1 (Fld.key_ne (by decide) pg), State.rd_wr h (by decide)]
    exact Nat.mod_eq_of_lt hc
  · rw [State.rd_wr_ne h2 (Fld.key_ne (by decide) pg), State.rd_wr h1 (by decide)]
    exact Nat.mod_eq_of_lt ho
  · rw [State.rd_wr h2 (by decide)]
    exact Nat.mod_eq_of_lt (ownerId_lt ini)

theorem State.sameRegsBut_cfgErr {s : State} (h : s.regs.wf = true) (pg code off : Nat) (ini : Initiator) :
    sameRegsBut (cfgErrKeys pg) s (s.cfgErr pg code off ini) := by
  intro k hk
  simp only [cfgErrKeys, List.mem_cons, List.not_mem_nil, or_false, not_or] at hk
  obtain ⟨hcode, hoff, hini⟩ := hk
  unfold State.cfgErr
  rw [State.get_wr_ne (State.wr_wf (State.wr_wf h)) hini, State.get_wr_ne (State.wr_wf h) hoff, State.get_wr_ne h hcode]

theorem testBit_setBitOf (n b : Nat) : (setBitOf n b).testBit b = true := by
  unfold setBitOf
  split
  · assumption
  · next hb => rw [Nat.add_comm, Nat.testBit_two_pow_add_eq, Bool.eq_false_iff.mpr hb, Bool.not_false]

/-- A cause that occurs shows in `IRQ_STATUS` (R109). -/
theorem State.bitOf_irq {s : State} (h : s.regs.wf = true) (pg : Nat) {b : Nat} (hb : b < 32) :
    bitOf ((s.irq pg b).rd pg HDR.IRQ_STATUS_BITS) b = true := by
  unfold State.irq State.putBit bitOf
  rw [State.rd_msi, State.rd_wr h (by decide), Nat.testBit_mod_two_pow]
  simp [putBitOf, testBit_setBitOf, HDR.IRQ_STATUS_BITS, hb]

/-- A cause of one page leaves the registers of every other page. -/
theorem State.rd_irq_ne {s : State} (h : s.regs.wf = true) {pg qg : Nat} (hq : qg ≠ pg) (b : Nat) (f : Fld) (i : Nat) :
    (s.irq pg b).rd qg f i = s.rd qg f i := by
  unfold State.irq State.putBit
  rw [State.rd_msi, State.rd_wr_ne h (Fld.key_page_ne hq i 0)]

/-! ### A completion leaves the registers -/

theorem State.holder_done (s : State) (n : Nat) : s.done.holder n = s.holder n := rfl

theorem State.refusedWith_done {t : State} {pg code off : Nat} {ini : Initiator} :
    t.done.refusedWith pg code off ini ↔ t.refusedWith pg code off ini := Iff.rfl

theorem sameRegsBut_done {ks : List Nat} {s t : State} : sameRegsBut ks s t.done ↔ sameRegsBut ks s t := Iff.rfl

/-- What changed the registers alone and completes changes the registers and the response alone. -/
theorem State.answer_eq_of_regs {s t : State} (h : t = { s with regs := t.regs }) (st : Status) (d : List Word) :
    t.answer st d = { s with regs := t.regs, resp := ⟨st, d⟩ } := congrArg (fun x : State => x.answer st d) h

/-! ### Holders -/

theorem KEY_BITS_key_ne {m n : Nat} (hm : m < 64) (hn : n < 64) (h : m ≠ n) :
    KEYRACK.KEY_BITS.key KEYRACK.pg m ≠ KEYRACK.KEY_BITS.key KEYRACK.pg n := by
  refine Fld.key_ne ?_ _
  simp only [KEYRACK.KEY_BITS]
  omega

/-- `FORCE_COUNT` lies beside every `KEYn`. -/
theorem KEY_BITS_key_ne_FORCE_COUNT {n : Nat} (hn : n < 64) :
    KEYRACK.KEY_BITS.key KEYRACK.pg n ≠ KEYRACK.FORCE_COUNT_COUNT.key KEYRACK.pg 0 := by
  refine Fld.key_ne ?_ _
  simp only [KEYRACK.KEY_BITS, KEYRACK.FORCE_COUNT_COUNT]
  omega

theorem State.freeKey_wf {s : State} (h : s.regs.wf = true) (n : Nat) : (s.freeKey n).regs.wf = true := State.wr_wf h

theorem State.holder_freeKey {s : State} (h : s.regs.wf = true) {m n : Nat} (hm : m < 64) (hn : n < 64) :
    (s.freeKey n).holder m = if m = n then 0 else s.holder m := by
  unfold State.freeKey State.holder
  split
  · next e => rw [e, State.rd_wr h (by decide), Nat.zero_mod]
  · next e => exact State.rd_wr_ne h (KEY_BITS_key_ne hm hn e)

/-- Who holds a key is known to the Keyrack by an identifier other than 0. -/
theorem State.holder_ne_zero_of_holds {s : State} {ini : Initiator} {n : Nat} (h : s.holds ini n = true) : s.holder n ≠ 0 := by
  have e : s.holder n = ownerId ini := of_decide_eq_true (Bool.and_eq_true_iff.mp h).2
  exact e ▸ ownerId_ne_zero ini

/-! ### A read of KEYn (R88, R89, R92) -/

theorem mayTake_iff (ini : Initiator) (n : Nat) : mayTake ini n = true ↔ hasId ini = true ∧ (n = 0 → ini ≠ .sec) := by
  simp [mayTake, imp_iff_not_or]

/-- The state that a read of `KEYn` leaves. -/
theorem State.keyRead_snd (s : State) (ini : Initiator) (n : Nat) :
    (s.keyRead ini n).2 =
      if mayTake ini n && s.holder n = 0 then s.wr KEYRACK.pg KEYRACK.KEY_BITS n (ownerId ini) else s := rfl

theorem State.holder_keyRead {s : State} (h : s.regs.wf = true) (ini : Initiator) (n : Nat) :
    (s.keyRead ini n).2.holder n =
      if s.holder n = 0 ∧ hasId ini = true ∧ (n = 0 → ini ≠ .sec) then ownerId ini else s.holder n := by
  simp only [State.keyRead_snd, ← mayTake_iff]
  by_cases ht : s.holder n = 0 ∧ mayTake ini n = true
  · rw [if_pos (by simp [ht]), if_pos ht]
    exact (State.rd_wr h (by decide)).trans (Nat.mod_eq_of_lt ((ownerId_lt ini).trans (by decide)))
  · rw [if_neg (by simpa [and_comm] using ht), if_neg ht]

theorem State.sameRegsBut_keyRead {s : State} (h : s.regs.wf = true) (ini : Initiator) (n : Nat) :
    sameRegsBut [KEYRACK.KEY_BITS.key KEYRACK.pg n] s (s.keyRead ini n).2 := by
  rw [State.keyRead_snd]
  split
  · exact State.sameRegsBut_wr h _ _ _ _
  · exact fun _ _ => rfl

theorem State.keyRead_eq (s : State) (ini : Initiator) (n : Nat) :
    (s.keyRead ini n).2 = { s with regs := (s.keyRead ini n).2.regs } := by
  rw [State.keyRead_snd]
  split <;> rfl

theorem KEY_BITS_indexAt (n : Fin 64) : KEYRACK.KEY_BITS.indexAt (0x040 + 4 * n) = some n.val := by
  simp [Fld.indexAt, KEYRACK.KEY_BITS]

/-- The header words of R100 that the device computes stand below the block registers. -/
theorem State.headerWord_eq_none (s : State) (p : PageInfo) (pg inst : Nat) {off : Nat} (ho : 0x030 ≤ off) :
    s.headerWord p pg inst off = none := by
  unfold State.headerWord
  split
  · omega
  · omega
  · omega
  · rfl

theorem State.regRead_key (s : State) (ini : Initiator) (n : Fin 64) :
    s.regRead ini KEYRACK.info KEYRACK.pg 0 (0x040 + 4 * n) = s.keyRead ini n := by
  have hh := s.headerWord_eq_none KEYRACK.info KEYRACK.pg 0 (off := 0x040 + 4 * n) (by omega)
  have hs : s.readSpecial ini KEYRACK.pg (0x040 + 4 * n) = some (s.keyRead ini n) := by
    rw [State.readSpecial, if_pos rfl, KEY_BITS_indexAt, Option.map_some]
  simp only [State.regRead, hh, hs]

theorem exec_keyTake {s : State} {ini : Initiator} {n : Fin 64} (h : s.readable ini KEYRACK.pg (0x040 + 4 * n) = true) :
    exec (.keyTake ini n) s =
      .next ((s.keyRead ini n).2.answer .ok [BitVec.ofNat 32 (s.keyRead ini n).1]) := by
  rw [← State.regRead_key]
  exact congrArg _ (State.readAt_readable (off := 0x040 + 4 * n) rfl (by decide) (by omega) (by omega) pageOf_KEYRACK h)

/-! ### The writes of the Keyrack -/

theorem State.taken_keyrack (s : State) (e : Option Env) (ini : Initiator) {off : Nat} (v : Nat) (ho : 0x040 ≤ off) :
    s.taken e ini KEYRACK.pg off v = s.keyrackWrite ini (regFields KEYRACK.info 0 off) off v := by
  have hh : headerOff off = false := by
    simp only [headerOff, Bool.or_eq_false_iff, Bool.and_eq_false_iff, decide_eq_false_iff_not]
    omega
  simp only [State.taken, pageOf_KEYRACK, hh]
  rfl

theorem State.keyrackWrite_key (s : State) (ini : Initiator) (fs : List (Fld × Nat)) (n : Fin 64) (v : Nat) :
    s.keyrackWrite ini fs (0x040 + 4 * n) v = s.keyRelease ini n (0x040 + 4 * n) := by
  simp only [State.keyrackWrite, KEY_BITS_indexAt]

/-- What a write of `RELEASE_MINE` with GO does (R99): the writer's keys are free. -/
def State.releaseMine (s : State) (ini : Initiator) : State := if hasId ini then s.freeKeysOf (ownerId ini) else s

theorem State.keyrackWrite_releaseMine (s : State) (ini : Initiator) (fs : List (Fld × Nat)) :
    s.keyrackWrite ini fs 0x148 1 = s.releaseMine ini := rfl

theorem State.keyrackWrite_forceRelease (s : State) (ini : Initiator) (fs : List (Fld × Nat)) (n : Fin 64) :
    s.keyrackWrite ini fs 0x14C (2 ^ 31 + n) =
      if mayForce ini then s.forceRelease n else s.cfgErr KEYRACK.pg 0x01 0x14C ini := by
  have hgo : bitOf (2 ^ 31 + n) 31 = true := by
    rw [bitOf, Nat.testBit_two_pow_add_eq, Nat.testBit_lt_two_pow (by omega), Bool.not_false]
  have hkey : (2 ^ 31 + n.val) % 64 = n := by omega
  have hk : KEYRACK.KEY_BITS.indexAt 0x14C = none := rfl
  have hb : KEYRACK.BIND_PAGE.indexAt 0x14C = none := rfl
  simp only [State.keyrackWrite, hk, hb, hgo, hkey]
  exact if_neg (by decide)

theorem exec_keyRelease {s : State} {ini : Initiator} {n : Fin 64} (h : s.admits ini KEYRACK.pg (0x040 + 4 * n) 0 = true) :
    exec (.keyRelease ini n) s = .next (s.keyRelease ini n (0x040 + 4 * n)).done := by
  rw [← State.keyrackWrite_key, ← State.taken_keyrack s none ini 0 (by omega)]
  exact congrArg _ (State.writeAt_admitted (off := 0x040 + 4 * n) none rfl (by decide) (by omega) (by omega) (by decide) h)

theorem exec_releaseMine {s : State} {ini : Initiator} (h : s.admits ini KEYRACK.pg 0x148 1 = true) :
    exec (.releaseMine ini) s = .next (s.releaseMine ini).done := by
  rw [← State.keyrackWrite_releaseMine, ← State.taken_keyrack s none ini 1 (by decide)]
  exact congrArg _ (State.writeAt_admitted none rfl (by decide) (by decide) (by decide) (by decide) h)

theorem exec_forceRelease {s : State} {ini : Initiator} {n : Fin 64} (h : s.admits ini KEYRACK.pg 0x14C (2 ^ 31 + n) = true) :
    exec (.forceRelease ini n) s =
      .next (if mayForce ini then s.forceRelease n else s.cfgErr KEYRACK.pg 0x01 0x14C ini).done := by
  rw [← State.keyrackWrite_forceRelease, ← State.taken_keyrack s none ini _ (by decide)]
  exact congrArg _ (State.writeAt_admitted none rfl (by decide) (by decide) (by decide) (by omega) h)

/-! ### Releases (R90, R93 to R95, R99) -/

theorem State.keyRelease_free {s : State} (ini : Initiator) {n : Nat} (off : Nat) (h : s.holder n = 0) :
    s.keyRelease ini n off = s := if_pos h

theorem State.keyRelease_mine {s : State} {ini : Initiator} {n : Nat} (off : Nat) (h : s.holds ini n = true) :
    s.keyRelease ini n off = s.freeKey n := by
  rw [State.keyRelease, if_neg (State.holder_ne_zero_of_holds h), if_pos h]

theorem State.keyRelease_foreign {s : State} {ini : Initiator} {n : Nat} (off : Nat) (h0 : s.holder n ≠ 0)
    (h : s.holds ini n = false) : s.keyRelease ini n off = s.cfgErr KEYRACK.pg 0x01 off ini := by
  rw [State.keyRelease, if_neg h0, if_neg (by simp [h])]

theorem State.keyRelease_eq (s : State) (ini : Initiator) (n off : Nat) :
    s.keyRelease ini n off = { s with regs := (s.keyRelease ini n off).regs } := by
  unfold State.keyRelease
  split
  · rfl
  · split <;> rfl

/-- Key `n` is released if owner `id` holds it: the step of `State.freeKeysOf`. -/
def State.freeKeyIf (s : State) (id n : Nat) : State := if s.holder n = id then s.freeKey n else s

theorem State.freeKeysOf_eq_foldl (s : State) (id : Nat) :
    s.freeKeysOf id = (List.range 64).foldl (fun s n => s.freeKeyIf id n) s := rfl

theorem State.freeKeyIf_wf {s : State} (h : s.regs.wf = true) (id n : Nat) : (s.freeKeyIf id n).regs.wf = true := by
  unfold State.freeKeyIf
  split
  · exact State.freeKey_wf h n
  · exact h

theorem State.holder_freeKeyIf {s : State} (h : s.regs.wf = true) (id : Nat) {m n : Nat} (hm : m < 64) (hn : n < 64) :
    (s.freeKeyIf id n).holder m = if m = n ∧ s.holder m = id then 0 else s.holder m := by
  unfold State.freeKeyIf
  split
  · rw [State.holder_freeKey h hm hn]
    grind
  · grind

theorem State.get_freeKeyIf {s : State} (h : s.regs.wf = true) (id : Nat) {n k : Nat}
    (hk : k ≠ KEYRACK.KEY_BITS.key KEYRACK.pg n) : (s.freeKeyIf id n).regs.get k = s.regs.get k := by
  unfold State.freeKeyIf
  split
  · exact State.get_wr_ne h hk
  · rfl

theorem State.freeKeyIf_eq (s : State) (id n : Nat) : s.freeKeyIf id n = { s with regs := (s.freeKeyIf id n).regs } := by
  unfold State.freeKeyIf
  split <;> rfl

theorem State.holder_foldl_freeKeyIf (id : Nat) {m : Nat} (hm : m < 64) (l : List Nat) {s : State} (h : s.regs.wf = true)
    (hl : ∀ n ∈ l, n < 64) :
    (l.foldl (fun s n => s.freeKeyIf id n) s).holder m = if m ∈ l ∧ s.holder m = id then 0 else s.holder m := by
  induction l generalizing s with
  | nil => simp
  | cons n l ih =>
    obtain ⟨hn, hl⟩ := List.forall_mem_cons.mp hl
    rw [List.foldl_cons, ih (State.freeKeyIf_wf h id n) hl, State.holder_freeKeyIf h id hm hn]
    grind

theorem State.get_foldl_freeKeyIf (id : Nat) {k : Nat} (l : List Nat) {s : State} (h : s.regs.wf = true)
    (hk : ∀ n ∈ l, k ≠ KEYRACK.KEY_BITS.key KEYRACK.pg n) :
    (l.foldl (fun s n => s.freeKeyIf id n) s).regs.get k = s.regs.get k := by
  induction l generalizing s with
  | nil => rfl
  | cons n l ih =>
    obtain ⟨hn, hl⟩ := List.forall_mem_cons.mp hk
    rw [List.foldl_cons, ih (State.freeKeyIf_wf h id n) hl, State.get_freeKeyIf h id hn]

theorem State.foldl_freeKeyIf_eq (id : Nat) (l : List Nat) (s : State) :
    l.foldl (fun s n => s.freeKeyIf id n) s = { s with regs := (l.foldl (fun s n => s.freeKeyIf id n) s).regs } := by
  induction l generalizing s with
  | nil => rfl
  | cons n l ih =>
    rw [List.foldl_cons, ih, State.freeKeyIf_eq]

/-- The keys of one owner are free, the others stay with their holders. -/
theorem State.holder_freeKeysOf {s : State} (h : s.regs.wf = true) (id : Nat) {m : Nat} (hm : m < 64) :
    (s.freeKeysOf id).holder m = if s.holder m = id then 0 else s.holder m := by
  rw [State.freeKeysOf_eq_foldl, State.holder_foldl_freeKeyIf id hm _ h fun n hn => List.mem_range.mp hn]
  simp [hm]

theorem State.get_freeKeysOf {s : State} (h : s.regs.wf = true) (id : Nat) {k : Nat}
    (hk : ∀ m < 64, k ≠ KEYRACK.KEY_BITS.key KEYRACK.pg m) : (s.freeKeysOf id).regs.get k = s.regs.get k :=
  State.get_foldl_freeKeyIf id _ h fun n hn => hk n (List.mem_range.mp hn)

theorem State.freeKeysOf_eq (s : State) (id : Nat) : s.freeKeysOf id = { s with regs := (s.freeKeysOf id).regs } :=
  State.foldl_freeKeyIf_eq id _ s

theorem State.holder_releaseMine {s : State} (h : s.regs.wf = true) (ini : Initiator) {m : Nat} (hm : m < 64) :
    (s.releaseMine ini).holder m = if hasId ini = true ∧ s.holder m = ownerId ini then 0 else s.holder m := by
  unfold State.releaseMine
  split
  · next hi => simpa [hi] using State.holder_freeKeysOf h (ownerId ini) hm
  · next hi => rw [if_neg fun e => hi e.1]

theorem State.get_releaseMine {s : State} (h : s.regs.wf = true) (ini : Initiator) {k : Nat}
    (hk : ∀ m < 64, k ≠ KEYRACK.KEY_BITS.key KEYRACK.pg m) : (s.releaseMine ini).regs.get k = s.regs.get k := by
  unfold State.releaseMine
  split
  · exact State.get_freeKeysOf h (ownerId ini) hk
  · rfl

theorem State.releaseMine_eq (s : State) (ini : Initiator) :
    s.releaseMine ini = { s with regs := (s.releaseMine ini).regs } := by
  unfold State.releaseMine
  split
  · exact State.freeKeysOf_eq s (ownerId ini)
  · rfl

/-! ### A forced release (R94, R95) -/

/-- Key `n` is free and its forced release counted: `State.forceRelease` before a port is told. -/
def State.freeCounted (s : State) (n : Nat) : State := (s.freeKey n).bump KEYRACK.pg KEYRACK.FORCE_COUNT_COUNT

theorem State.forceRelease_eq (s : State) (n : Nat) :
    s.forceRelease n =
      if s.holder n = 1 then (s.freeCounted n).irq (portPg .A) 1
      else if s.holder n = 2 then (s.freeCounted n).irq (portPg .B) 1 else s.freeCounted n := rfl

theorem State.freeCounted_wf {s : State} (h : s.regs.wf = true) (n : Nat) : (s.freeCounted n).regs.wf = true :=
  State.wr_wf (State.freeKey_wf h n)

theorem State.holder_freeCounted {s : State} (h : s.regs.wf = true) {m n : Nat} (hm : m < 64) (hn : n < 64) :
    (s.freeCounted n).holder m = if m = n then 0 else s.holder m :=
  (State.rd_wr_ne (State.freeKey_wf h n) (KEY_BITS_key_ne_FORCE_COUNT hm)).trans (State.holder_freeKey h hm hn)

theorem satInc_lt (w n : Nat) : satInc w n < 2 ^ w := by
  have := Nat.two_pow_pos w
  unfold satInc
  split <;> omega

theorem State.count_freeCounted {s : State} (h : s.regs.wf = true) {n : Nat} (hn : n < 64) :
    (s.freeCounted n).rd KEYRACK.pg KEYRACK.FORCE_COUNT_COUNT = satInc 16 (s.rd KEYRACK.pg KEYRACK.FORCE_COUNT_COUNT) := by
  have hold : (s.freeKey n).rd KEYRACK.pg KEYRACK.FORCE_COUNT_COUNT = s.rd KEYRACK.pg KEYRACK.FORCE_COUNT_COUNT :=
    State.rd_wr_ne h (KEY_BITS_key_ne_FORCE_COUNT hn).symm
  unfold State.freeCounted State.bump
  rw [State.rd_wr (State.freeKey_wf h n) (by decide), hold]
  exact Nat.mod_eq_of_lt (satInc_lt 16 _)

/-- The port's flag lies on the port's page. -/
theorem State.rd_forceRelease {s : State} (h : s.regs.wf = true) (n : Nat) (f : Fld) (i : Nat) :
    (s.forceRelease n).rd KEYRACK.pg f i = (s.freeCounted n).rd KEYRACK.pg f i := by
  rw [State.forceRelease_eq]
  split
  · exact State.rd_irq_ne (State.freeCounted_wf h n) (by decide) ..
  · split
    · exact State.rd_irq_ne (State.freeCounted_wf h n) (by decide) ..
    · rfl

theorem State.holder_forceRelease {s : State} (h : s.regs.wf = true) {m n : Nat} (hm : m < 64) (hn : n < 64) :
    (s.forceRelease n).holder m = if m = n then 0 else s.holder m :=
  (State.rd_forceRelease h n ..).trans (State.holder_freeCounted h hm hn)

theorem State.irq_forceRelease_portA {s : State} (h : s.regs.wf = true) {n : Nat} (hn : s.holder n = 1) :
    bitOf ((s.forceRelease n).rd (portPg .A) HDR.IRQ_STATUS_BITS) 1 = true := by
  rw [State.forceRelease_eq, if_pos hn]
  exact State.bitOf_irq (State.freeCounted_wf h n) _ (by decide)

theorem State.irq_forceRelease_portB {s : State} (h : s.regs.wf = true) {n : Nat} (hn : s.holder n = 2) :
    bitOf ((s.forceRelease n).rd (portPg .B) HDR.IRQ_STATUS_BITS) 1 = true := by
  rw [State.forceRelease_eq, if_neg (by omega), if_pos hn]
  exact State.bitOf_irq (State.freeCounted_wf h n) _ (by decide)

theorem mayForce_iff (ini : Initiator) : mayForce ini = true ↔ isHost ini = true ∨ ini = .sec := by
  simp [mayForce]

/-- Settles O10: each of the four commands by what its access does to the Keyrack (`exec_keyTake`, `exec_keyRelease`,
`exec_releaseMine`, `exec_forceRelease`) and by what that leaves of the holders. -/
theorem keyrack : Obligations.Keyrack := by
  unfold Obligations.Keyrack
  intro s ini n hs
  have h : s.regs.wf = true := hs.regs
  refine ⟨fun hr => ?take, fun ha => ?release, fun ha => ?mine, fun ha => ?force⟩
  case take =>
    exact ⟨_, exec_keyTake hr, State.holder_keyRead h ini n, rfl, State.sameRegsBut_keyRead h ini n,
      State.answer_eq_of_regs (State.keyRead_eq s ini n) _ _⟩
  case release =>
    refine ⟨_, exec_keyRelease ha, fun h0 => ?_, fun hm => ?_, fun h0 hm => ?_,
      State.answer_eq_of_regs (State.keyRelease_eq s ini n _) _ _⟩
    · rw [State.keyRelease_free ini _ h0]
    · rw [State.keyRelease_mine _ hm, State.holder_done, State.holder_freeKey h n.isLt n.isLt, sameRegsBut_done]
      exact ⟨if_pos rfl, State.sameRegsBut_wr h _ _ _ _⟩
    · rw [State.keyRelease_foreign _ h0 hm, State.refusedWith_done, sameRegsBut_done]
      exact ⟨State.refusedWith_cfgErr h _ ini (by decide) (by omega), State.sameRegsBut_cfgErr h _ _ _ _⟩
  case mine =>
    exact ⟨_, exec_releaseMine ha, fun _ hm => State.holder_releaseMine h ini hm, fun _ hk => State.get_releaseMine h ini hk,
      State.answer_eq_of_regs (State.releaseMine_eq s ini) _ _⟩
  case force =>
    refine ⟨_, exec_forceRelease ha, rfl, fun hf => ?_, fun hh hsec => ?_⟩
    · simp only [if_pos ((mayForce_iff ini).mpr hf), State.holder_done, State.rd_done]
      exact ⟨(State.holder_forceRelease h n.isLt n.isLt).trans (if_pos rfl),
        (State.rd_forceRelease h n _ _).trans (State.count_freeCounted h n.isLt), State.irq_forceRelease_portA h,
        State.irq_forceRelease_portB h, fun m hm hne => (State.holder_forceRelease h hm n.isLt).trans (if_neg hne)⟩
    · rw [if_neg (by simp [mayForce_iff, hh, hsec]), State.refusedWith_done, sameRegsBut_done]
      exact ⟨State.refusedWith_cfgErr h _ ini (by decide) (by decide), State.sameRegsBut_cfgErr h _ _ _ _⟩

end Sys2Proof.Machine

/-!
PROOFS. What a loop engine issues (R313 to R317): a command of `issueRows` issues the word its run stands at, an instruction under a
false predicate leaves the engine's run alone changed, and the statement `Obligations.FalseGuardOnlyTakesItsCost`.
-/
namespace Sys2Proof.Machine

/-! ### The commands that issue an instruction -/

/-- A command that issues an instruction issues it with the body of its operation code (R328). -/
theorem exec_of_mem_issueRows {n : Fin 16} {up : LeUpset} {x : Nat × Instr} (hx : x ∈ issueRows n up) (s : State) :
    exec x.2 s = .next (s.inDomain 1 fun s => s.leIssue n x.1 (leBodyOf x.1) up) :=
  have rows : (issueRows n up).map (fun x => exec x.2 s) =
      (issueRows n up).map fun x => .next (s.inDomain 1 fun s => s.leIssue n x.1 (leBodyOf x.1) up) := rfl
  List.map_inj_left.mp rows x hx

/-- Every operation that a command issues is in the table of R328. -/
theorem leCost_isSome_of_mem_issueRows {n : Fin 16} {up : LeUpset} {x : Nat × Instr} (hx : x ∈ issueRows n up) (imm : Nat) :
    (leCost x.1 imm).isSome = true :=
  have rows : (issueRows n up).map (fun x => (leCost x.1 imm).isSome) = (issueRows n up).map fun _ => true := rfl
  List.map_inj_left.mp rows x hx

/-! ### The word that issues -/

theorem State.issues_iff {s : State} {n : Fin 16} {run : LeRun} {i : LeInstr} :
    s.issues n run i = true ↔ s.live = true ∧ s.domainRuns 1 = true ∧ (s.leUnit n).run = some run ∧
      leFields (s.lpsWord run.pc) = i ∧ s.parityOk run.pc = true ∧ (s.leUnit n).halted = false ∧
      s.flag LPS.pg LPS.INJECT_ARM = false := by
  simp [State.issues, and_assoc]

/-- No injection waits anywhere while none is armed (R356). -/
theorem State.armed_eq_false {s : State} (h : s.flag LPS.pg LPS.INJECT_ARM = false) (n : Fin 16) (kind a : Nat) :
    s.armed_ n kind a = false := by
  simp [State.armed_, h]

/-- A fetch that passes its parity changes nothing (R348). -/
theorem State.leFetch_of_parityOk {s : State} {run : LeRun} (harm : s.flag LPS.pg LPS.INJECT_ARM = false)
    (hpar : s.parityOk run.pc = true) (n : Fin 16) : s.leFetch n run = s := by
  simp [State.leFetch, State.armed_eq_false harm, hpar]

/-- An engine that is to issue `i` issues it where the command names its operation. -/
theorem State.leIssue_of_issues {s : State} {n : Fin 16} {run : LeRun} {i : LeInstr} (h : s.issues n run i = true)
    (hc : (leCost i.op i.imm).isSome = true) (body : LeBody) (up : LeUpset) :
    s.leIssue n i.op body up = s.leIssueWord n run i body up := by
  obtain ⟨-, -, hrun, hword, hpar, hhalt, harm⟩ := State.issues_iff.mp h
  have hdef : (leCost i.op i.imm).isNone = false := by simpa [← Option.not_isSome] using hc
  simp [State.leIssue, hrun, hhalt, State.leFetch_of_parityOk harm hpar, hword, hdef]

/-- A command of `issueRows` for the operation that the engine is to issue issues its word. -/
theorem exec_of_issues {s : State} {n : Fin 16} {run : LeRun} {i : LeInstr} {up : LeUpset} {x : Nat × Instr}
    (h : s.issues n run i = true) (hx : x ∈ issueRows n up) (hop : x.1 = i.op) :
    exec x.2 s = .next (s.leIssueWord n run i (leBodyOf i.op) up) := by
  obtain ⟨hlive, hdom, -⟩ := State.issues_iff.mp h
  have hc : (leCost i.op i.imm).isSome = true := hop ▸ leCost_isSome_of_mem_issueRows hx i.imm
  rw [exec_of_mem_issueRows hx, hop, State.inDomain, hlive, hdom, Bool.and_self, if_pos rfl, State.leIssue_of_issues h hc]

/-! ### An instruction under a false predicate (R317) -/

/-- The headers that a run passes over are those of the program store. -/
theorem State.lePass_congr {s t : State} (h : t.lps = s.lps) (k w : Nat) : t.lePass k w = s.lePass k w := by
  have hword (w : Nat) : t.lpsWord w = s.lpsWord w := congrArg (·.words.get w) h
  induction k generalizing w with
  | zero => rfl
  | succ k ih => simp only [State.lePass, hword, ih]

/-- A run that goes on behind the free word of its instruction, the unit as it was. -/
theorem State.setRun_freshWord (s : State) (n : Fin 16) (run : LeRun) (cost : Nat) :
    s.freshWord.2.setRun n (s.runAfter run cost) = s.issued n run cost (s.leUnit n) := rfl

/-- Without upsets an instruction other than END whose predicate is false draws its free word and takes its cost; its body does not run. -/
theorem State.leIssueWord_of_guard_false {s : State} {n : Fin 16} {run : LeRun} {i : LeInstr}
    (harm : s.flag LPS.pg LPS.INJECT_ARM = false) (hg : s.leGuard n run i = false) (hend : i.op ≠ 0x3E) (body : LeBody) :
    s.leIssueWord n run i body noUpset = s.issued n run ((leCost i.op i.imm).getD 1) (s.leUnit n) := by
  have hguard : s.freshWord.2.leGuard n run i = false := hg
  have hpass : s.freshWord.2.lePass 4096 = s.lePass 4096 := funext (State.lePass_congr (s := s) (t := s.freshWord.2) rfl 4096)
  simp [State.leIssueWord, State.armed_eq_false harm, bit01, hend, hguard, hpass, ← State.setRun_freshWord, State.runAfter]

/-- Settles O21: the command issues the word the run stands at (`exec_of_issues`), and under a false predicate that word takes its cost
alone (`State.leIssueWord_of_guard_false`). -/
theorem falseGuardOnlyTakesItsCost : Obligations.FalseGuardOnlyTakesItsCost := by
  unfold Obligations.FalseGuardOnlyTakesItsCost
  intro s n run i h hg hend x hx hop
  obtain ⟨-, -, -, -, -, -, harm⟩ := State.issues_iff.mp h
  rw [exec_of_issues h hx hop, State.leIssueWord_of_guard_false harm hg hend]

end Sys2Proof.Machine
